-- ==== Sys2Proof/Word.lean ====
section
/-! DEFINITION. The word types of the block: a byte, a register of BAR0, a 64-bit quantity. -/

namespace Sys2Proof

/-- A byte. -/
abbrev Byte := BitVec 8

/-- A BAR0 register (R487: registers are 32 bits wide). -/
abbrev Word := BitVec 32

end Sys2Proof
end

