-- ==== Sys2Proof/Syntax.lean ====
section
/-! DEFINITION. The commands of the block, one constructor for each row of the spec's table of operations and events,
with the operands that come from outside the block. -/

namespace Sys2Proof

/-- How an NVM read ends (R406): well, with one byte of the data in error, failed, or timed out. -/
inductive Rd where
  | ok
  | flip (at_ : Nat) (mask : Byte)
  | fail
  | timeout
  deriving DecidableEq, Repr

/-- The SFDP read of boot (R405, R406): how it ends, and which of the modes 1-4-4 and 8-8-8 the tables declare beside 1-1-1. -/
structure Sfdp where
  read : Rd := .ok
  quad : Bool := false
  octal : Bool := false
  deriving DecidableEq, Repr

/-- How an NVM program or erase ends (R406): well, or failed or timed out with its first `n` bytes programmed. -/
inductive Pg where
  | ok
  | fail (n : Nat)
  | timeout (n : Nat)
  deriving DecidableEq, Repr

/-- A read of a protected macro, other than staging, that met an error (R370, R373): instance, word, lane, syndrome,
whether a read-modify-write found it, and for a calibration table the position of the set that holds the lane (R374). -/
structure MemErr where
  inst : Nat
  word : Nat
  lane : Nat
  syn : Nat
  rmw : Bool
  set : Nat
  deriving DecidableEq, Repr

/-- What a unit did in its own macros that shows outside (R370-R375, R381): a lane written whole, read, or merged into by a
read-modify-write (instance, word, lane; the position of the set for the calibration tables), or a read that met an error which arose in
the cells. -/
inductive MemAcc where
  | wrote (inst word lane : Nat)
  | read (inst word lane set : Nat)
  | merge (inst word lane set : Nat)
  | err (e : MemErr)
  deriving DecidableEq, Repr

/-- What one unit converted on the loopback in step 4 of a foreground calibration (R225, R229): how often each code, from -128 on, in the
run of each of the 12 candidates, and in the run of the candidate kept. -/
structure CalRes where
  cand : List (List Nat)
  rest : List Nat
  deriving DecidableEq, Repr

/-- What a foreground calibration found (R225, R226): the PLL locked; each ADC's loopback power over its expected value, in 1/100 dB;
the codes that the units converted (a unit left out converted none); the correlations of the 32 branches in each window of the skew loop,
in 2^-24; the DAC cells' deviations in 1/8 %; how many codes each DAC drove. -/
structure FgIn where
  pll : Bool
  power : List Int
  units : List (Nat × CalRes)
  rhos : List (List Int)
  cells : List (Nat × Int)
  driven : Nat
  deriving DecidableEq, Repr

/-- What becomes ready in a cycle at the sender of the sub-link paired with the one that receives, where that is a tile's: the
codes of whole sample flits of its ADC (R288), the calibration flits as unit of the ADC, conversion index and 112 samples (R289),
observation payloads (R290); and whether a read of its replay buffer is uncorrectable (R293). -/
structure SendIn where
  samples : List (List Byte) := []
  cal : List (Nat × Nat × List Byte) := []
  obs : List (List Byte) := []
  bad : Bool := false
  deriving DecidableEq, Repr

/-- A frame that has arrived whole at a host port: its FlexE group and client when the port is a FlexE PHY, its bytes from
the destination address through the FCS, whether a PCS error or an uncorrectable codeword fell inside it, whether its
store met an uncorrectable read (R374), and the moment of its start: time-base cycle and 1/16 ns (R358). -/
structure IngIn where
  port : Nat
  flexe : Option (Nat × Nat)
  bytes : List Byte
  pcs : Bool
  mem : Bool
  cyc : Nat
  sub : Nat
  deriving DecidableEq, Repr

/-- What a received head carries (R97): its 128 decoded bytes, ρ at its position and the greatest ρ of the 16 positions beside it in
2^-16 (R109), the moment of its position 0 (time-base cycle and 2^-16 ns). -/
structure HeadIn where
  bytes : List Byte
  rho : Nat
  side : Nat
  cyc : Nat
  sub : Nat
  deriving DecidableEq, Repr

/-- A 32-bit lane of the decoder's store that is read as uncorrectable (R176): codeword, the iteration it is read in (from
0), the indices of the values it holds, and whether they are messages (else metrics or a-posteriori values). -/
structure StoreErr where
  cw : Nat
  iter : Nat
  idx : List Nat
  msg : Bool
  deriving DecidableEq, Repr

/-- The form of a BAR access (R487): 32 bits with every byte enabled, 64 bits, or any other. -/
inductive Form where
  | w32
  | w64
  | other
  deriving DecidableEq, Repr

/-- The fuse map (R417 step 1, R156, R379): set when the part is made. -/
structure Fuses where
  deviceId : Nat := 0
  /-- The configuration-authentication key of slot 63. -/
  key63 : List Byte := List.replicate 32 0#8
  /-- The provisioned key-encryption key that unwraps keys (R157). -/
  kek : List Byte := List.replicate 32 0#8
  /-- Die-to-die lanes failed in the fuse map. -/
  lanes : List Nat := []
  /-- Memory rows moved in the fuse map: instance and row. -/
  rows : List (Nat × Nat) := []
  deriving DecidableEq, Repr

/-- How a direction of a tile trained (R303): the lanes of each of its four groups that showed an error in their check, and
the flight time F. -/
structure TrainIn where
  bad : List (List Nat)
  flight : Nat
  deriving DecidableEq, Repr

/-- What resets the PCI Express function (R484): PERST_N held for a time (R459), a hot reset, a link-down event, a Function
Level Reset. -/
inductive PcieRst where
  | perst (heldNs : Nat)
  | hotReset
  | linkDown
  | flr
  deriving DecidableEq, Repr

/-- What a host configuration write changes (R482, R484-R486, R494): Bus Master Enable, D3hot or D0, the Completion Timeout
Value and Disable of Device Control 2, the Max Payload and Max Read Request sizes as 128 × 2^n, the MSI-X function mask,
ASPM L1, a BAR, or another setting by its offset; or the configuration space is read at an offset (R481): the table has no row
of its own for that request. -/
inductive CfgWrite where
  | busMaster (on : Bool)
  | power (d3hot : Bool)
  | cto (value : Fin 16) (disable : Bool)
  | maxPayload (n : Fin 3)
  | maxRead (n : Fin 6)
  | msixMask (on : Bool)
  | aspmL1 (on : Bool)
  | bar (i addr : Nat)
  | other (off value : Nat)
  | read (off : Nat)
  deriving DecidableEq, Repr

/-- What lets pending messages go (R494): a vector's mask or the function's cleared, or Bus Master Enable set. -/
inductive Unmask where
  | vector (v : Fin 64)
  | function
  | busMaster
  deriving DecidableEq, Repr

/-- What the sequencer latches from outside in one tick. -/
structure TickIn where
  /-- The tick is consumed by an overrun (R34). -/
  overrun : Bool
  /-- The 24 sensors' readings, 1/16 °C (R386). -/
  temps : List Int
  /-- Host FEC codewords since the last tick: port, corrected, uncorrectable (R466). -/
  hostFec : List (Nat × Nat × Nat)
  /-- What the units did in their macros since the last tick, in order, as far as it shows. -/
  mem : List MemAcc
  /-- Reference sources that were active through the whole of the last tick: 0 to 4 the inputs of that index, 16 + n the recovered clock of
  host lane n (R336). -/
  refOn : List Nat
  /-- Sources that are not lines, and their frequency offsets from XO_IN through the last tick, ppt (R338). -/
  refFofs : List (Nat × Int)
  /-- Sources' phase moves against the time base in the tick, the mean frequency removed, ns (R338). -/
  refMoves : List (Nat × Nat)
  /-- Lines whose batch of epoch candidates met an uncorrectable read (R374). -/
  again : List Nat
  deriving DecidableEq, Repr

/-- The commands: one constructor for each row of the table of operations and events. -/
inductive Instr where
  /-- RESET_N_ASSERT (R508): how long RESET_N is held low, in ns. -/
  | resetNAssert (heldNs : Nat)
  /-- SUPPLY_DETECTOR_TRIP (R509): how long a supply stays below its threshold, in ns. -/
  | supplyDetectorTrip (belowNs : Nat)
  /-- RESET_N_RELEASE (R417): the levels of SMB_ADDR_1 and SMB_ADDR_0. -/
  | resetNRelease (a1 a0 : Bool)
  /-- FUSES (R417): the fuse map. -/
  | fuses (f : Fuses)
  /-- NVM_DISCOVERY (R405): the SFDP read, and how the reads of the header copies, of the four slots and of the epoch area end. -/
  | nvmDiscovery (x : Sfdp) (h0 h1 : Rd) (slots : List Rd) (epoch : Rd)
  /-- SELECTION (R420): how the programs of BAD marks and of the attempt byte end. -/
  | selection (ps : List Pg)
  /-- APPLICATION (R418): how the reads of the candidate images end. -/
  | application (rs : List Rd)
  /-- REPAIRS_SWEEP_TRAINING (R379): how the read of the repair log ends, how its erase and program end, how each direction trains. -/
  | repairsSweepTraining (r : Rd) (e p : Pg) (ts : List TrainIn)
  /-- CALIBRATION_EPOCH_MORAINE (R417): how the read of the calibration sets ends, what the calibrations of lines A and B find, how the
  epoch area's read, the attempts at its write (program, read back equal, erase) and the program after them end, and how the
  Moraine read ends. -/
  | calibrationEpochMoraine (sets : Rd) (a b : FgIn) (epoch : Rd) (tries : List (Pg × Bool × Pg)) (after : Pg) (mor : Rd)
  /-- LINE_BRING_UP (R527). -/
  | lineBringUp
  /-- GATE_CLEAR (R396). -/
  | gateClear
  /-- TICK (R30): what the sequencer latches. -/
  | tick (t : TickIn)
  /-- LOCKSTEP_MISMATCH (R446). -/
  | lockstepMismatch
  /-- WDOG (R447): µs since the last phase 8. -/
  | wdog (us : Nat)
  /-- WATCHDOG_REBOOT (R447): ms since the watchdog expired. -/
  | watchdogReboot (ms : Nat)
  /-- XO_FAIL (R448): µs without an edge, µs more than 50 ppm off, and what it is compared with (true: the selected input). -/
  | xoFail (edgeUs offUs : Nat) (vsInput : Bool)
  /-- LINE_ENGINE_ENABLE (R45). -/
  | lineEngineEnable (l : Fin 2)
  /-- LINE_ENGINE_DISABLE (R45). -/
  | lineEngineDisable (l : Fin 2)
  /-- LINK_TRAINING (R303): direction and what it found. -/
  | linkTraining (d : Fin 4) (x : TrainIn)
  /-- FOREGROUND_CALIBRATION (R225): line and what it found. -/
  | foregroundCalibration (l : Fin 2) (x : FgIn)
  /-- TX_FRAME_HEAD (R35): line; when position 0 leaves (cycle of the tick, 2^-16 ns); the slots whose bytes could not be read. -/
  | txFrameHead (l : Fin 2) (cyc sub : Nat) (bad : List Nat)
  /-- KEY_AGE_LIMIT (R143). -/
  | keyAgeLimit (l : Fin 2)
  /-- RELOCK_DONE (R217). -/
  | relockDone (l : Fin 2)
  /-- RELOCK_TIMEOUT (R217). -/
  | relockTimeout (l : Fin 2)
  /-- SYNC_MATCH (R109): line, position, ρ and the greatest ρ of the 16 positions beside it in 2^-16. -/
  | syncMatch (l : Fin 2) (pos rho side : Nat)
  /-- CANDIDATE_CHECK (R110): line, position, whether the match is with the polarisations exchanged, what the head carries. -/
  | candidateCheck (l : Fin 2) (pos : Nat) (exch : Bool) (h : HeadIn)
  /-- RX_HEAD (R111): line and what the head carries. -/
  | rxHead (l : Fin 2) (h : HeadIn)
  /-- FOLLOW (R120). -/
  | follow (l : Fin 2)
  /-- DEFECT_DECLARE (R116): line and FRM_STATUS bit. -/
  | defectDeclare (l : Fin 2) (d : Fin 11)
  /-- DEFECT_CLEAR (R116): line and FRM_STATUS bit. -/
  | defectClear (l : Fin 2) (d : Fin 11)
  /-- DEG_INTERVAL_END (R117). -/
  | degIntervalEnd (l : Fin 2)
  /-- SHIFT_REQUEST (R121): line and the word written. -/
  | shiftRequest (l : Fin 2) (v : Word)
  /-- SHIFT_WITHDRAW (R124). -/
  | shiftWithdraw (l : Fin 2)
  /-- DECODER_ENTRY (R179): line, store values read as 0. -/
  | decoderEntry (l : Fin 2) (errs : List StoreErr)
  /-- REFINEMENT_PASS (R274): line, store values read as 0. -/
  | refinementPass (l : Fin 2) (errs : List StoreErr)
  /-- DECODER_RELEASE (R180): line; the codewords that a fault left unfinished, with the iterations each has done. -/
  | decoderRelease (l : Fin 2) (cut : List (Nat × Nat))
  /-- FRAME_DELIVERED (R73): line, cycle of the tick, the channels whose frame in rebuild could not be read. -/
  | frameDelivered (l : Fin 2) (cyc : Nat) (mem : List Nat)
  /-- MERGE_RELEASE (R84): channel, cycle of the tick, whether the read of the held block failed. -/
  | mergeRelease (n : Fin 512) (cyc : Nat) (bad : Bool)
  /-- SEQ_RESYNC (R75): channel and cycle of the tick. -/
  | seqResync (n : Fin 512) (cyc : Nat)
  /-- INGRESS_FRAME (R52): the frame. -/
  | ingressFrame (x : IngIn)
  /-- EGRESS_FRAME (R58): egress point (a port, or 64 plus a FlexE client entry), channel, when the frame starts (cycle, 1/16 ns),
  and the byte at which its read became uncorrectable. -/
  | egressFrame (e : Fin 320) (n : Fin 512) (cyc sub : Nat) (cut : Option Nat)
  /-- PORT_LINK_CHANGE (R500): port; link up, PCS locked, FEC locked, link training done. -/
  | portLinkChange (p : Fin 64) (up pcs fec lt : Bool)
  /-- CAL_SWAP_ARM (R69): line and the word written. -/
  | calSwapArm (l : Fin 2) (v : Word)
  /-- FLEXE_CAL_SWITCH (R500): group, the word written, whether the far end acknowledges. -/
  | flexeCalSwitch (g : Fin 16) (v : Word) (ack : Bool)
  /-- EPOCH_RETRY (R135): the word written, how the epoch area's read, the attempts at its write and the program after them end. -/
  | epochRetry (v : Word) (r : Rd) (tries : List (Pg × Bool × Pg)) (after : Pg)
  /-- FLIP_ARM (R140): line and the word written. -/
  | flipArm (l : Fin 2) (v : Word)
  /-- ROT_DUE (R142). -/
  | rotDue (l : Fin 2)
  /-- EPOCH_FOUND (R149). -/
  | epochFound (l : Fin 2)
  /-- EPOCH_NOT_FOUND (R150). -/
  | epochNotFound (l : Fin 2)
  /-- RX_EPOCH_WRITE (R150): line and the word written. -/
  | rxEpochWrite (l : Fin 2) (v : Word)
  /-- PIPELINE_ROTATE (R152). -/
  | pipelineRotate (l : Fin 2)
  /-- PIPE_FAIL (R153): line and whether the known answer came out. -/
  | pipeFail (l : Fin 2) (pass : Bool)
  /-- KEY_LOAD (R157): slot and usage. -/
  | keyLoad (slot : Fin 64) (usage : Fin 8)
  /-- KEY_ZERO (R158): slot. -/
  | keyZero (slot : Fin 64)
  /-- HOST_REQUEST_SUBMIT (R160): the word written. -/
  | hostRequestSubmit (v : Word)
  /-- REQUEST_START (R159). -/
  | requestStart
  /-- REQUEST_COMPLETE (R163). -/
  | requestComplete
  /-- KAT_FAIL (R159): whether the known answer came out. -/
  | katFail (pass : Bool)
  /-- DMA_COMPLETION (R486): the bytes of the completion and whether its status is successful. -/
  | dmaCompletion (bs : List Byte) (ok : Bool)
  /-- DMA_TIMEOUT (R486): µs since the read request. -/
  | dmaTimeout (us : Nat)
  /-- MASK_VIOL (R212). -/
  | maskViol (l : Fin 2)
  /-- MASK_CLEAR (R212). -/
  | maskClear (l : Fin 2)
  /-- CAL_STEP_END (R229): line. -/
  | calStepEnd (l : Fin 2)
  /-- PASS_START (R233). -/
  | passStart (l : Fin 2)
  /-- SKEW_WINDOW_END (R231): line. -/
  | skewWindowEnd (l : Fin 2)
  /-- DAC_CELL_MEASURED (R232): line, DAC, deviation in 1/8 %. -/
  | dacCellMeasured (l : Fin 2) (d : Fin 4) (dev : Int)
  /-- SET_WRITE (R239): line; how the erase, the program and the read back end. -/
  | setWrite (l : Fin 2) (e p : Pg) (back : Rd)
  /-- ACQ_STATE_DONE (R275): line. -/
  | acqStateDone (l : Fin 2)
  /-- ACQ_BUDGET_EXPIRY (R275). -/
  | acqBudgetExpiry (l : Fin 2)
  /-- ACQ_RESTART (R278): line and the word written. -/
  | acqRestart (l : Fin 2) (v : Word)
  /-- LOCK_LOSS (R278). -/
  | lockLoss (l : Fin 2)
  /-- CD_STEP (R259). -/
  | cdStep (l : Fin 2)
  /-- PAIR_ON (R272). -/
  | pairOn
  /-- SNR_LOW (R282). -/
  | snrLow (l : Fin 2)
  /-- CAPTURE_ARM (R283): line and the word written. -/
  | captureArm (l : Fin 2) (v : Word)
  /-- FLIT_RECEIVED (R293): sub-link, the words of its 66 lanes, the sequence number that a failed copy stands for, and what becomes
  ready at the sender paired with it. -/
  | flitReceived (j : Fin 64) (w : List Nat) (seq : Fin 4096) (x : SendIn)
  /-- FLIT_DELIVERY (R292): sub-link, sequence number, type, whether the delay store's read failed. -/
  | flitDelivery (j : Fin 64) (seq : Fin 4096) (type : Fin 16) (bad : Bool)
  /-- CTL_LATE (R295): tile. -/
  | ctlLate (t : Fin 2)
  /-- LANE_HARD_FAIL (R297): lane. -/
  | laneHardFail (k : Fin 1056)
  /-- LANE_ERR_WINDOW_END (R296). -/
  | laneErrWindowEnd
  /-- DIAG (R297): sub-link. -/
  | diag (j : Fin 64)
  /-- DIAG_DONE (R297): sub-link and the lanes that showed an error. -/
  | diagDone (j : Fin 64) (bad : List Nat)
  /-- LAT_FAULT (R305): group. -/
  | latFault (g : Fin 16)
  /-- RIME_SYNC_DETECT (R315): port, channel, the 32 detected bits, the level, and the normalised correlation in 2^-16 at the 129 samples
  from 64 before the detection's to 64 after it. -/
  | rimeSyncDetect (k : Fin 2) (c : Fin 8) (bits level : Nat) (corr : List Nat)
  /-- RIME_HEADER_END (R317): port, channel, the header bytes. -/
  | rimeHeaderEnd (k : Fin 2) (c : Fin 8) (h : List Byte)
  /-- RIME_TRAILER_END (R318): port, channel, the bytes after the header, the packet's EVM. -/
  | rimeTrailerEnd (k : Fin 2) (c : Fin 8) (body : List Byte) (evm : Nat)
  /-- RIME_AUTH_DONE (R327). -/
  | rimeAuthDone
  /-- AUTH_TIMEOUT (R328). -/
  | authTimeout
  /-- NEIGH_LOST (R332). -/
  | neighLost
  /-- RIME_BACKOFF_END (R321): port, the channel's in-band power and the noise floor estimate in 1/256 dBFS (R320), µs idle. -/
  | rimeBackoffEnd (k : Fin 2) (power noise : Int) (idleUs : Nat)
  /-- RIME_PACKET_SENT (R321). -/
  | rimePacketSent (k : Fin 2)
  /-- RIME_QUEUE_EXPIRY (R323). -/
  | rimeQueueExpiry (k : Fin 2)
  /-- IDENTITY_DUE (R325). -/
  | identityDue (k : Fin 2)
  /-- CONFIG_VER_DUE (R325). -/
  | configVerDue (k : Fin 2)
  /-- ALARM_DUE (R325). -/
  | alarmDue (k : Fin 2)
  /-- TRACE_REQ (R326): the word written. -/
  | traceReq (v : Word)
  /-- TRACE_REPLY_DUE (R326). -/
  | traceReplyDue
  /-- TRACE_DONE (R326). -/
  | traceDone
  /-- RIME_RING_SUBMIT (R333): the word written. -/
  | rimeRingSubmit (v : Word)
  /-- QUAL (R339): input. -/
  | qual (i : Fin 14)
  /-- DISPUTE_CLEAR (R342). -/
  | disputeClear
  /-- LOCKED (R345). -/
  | locked
  /-- HOLDOVER_RECORD (R348). -/
  | holdoverRecord
  /-- NUM_FREQ_WRITE (R350): the word written. -/
  | numFreqWrite (v : Word)
  /-- TIME_STEP_ARM (R352). -/
  | timeStepArm
  /-- TIME_LOAD_ARM (R352). -/
  | timeLoadArm
  /-- ADJ_DONE (R352). -/
  | adjDone
  /-- COMPARE_ARM (R353): unit and the word written. -/
  | compareArm (k : Fin 4) (v : Word)
  /-- CMP (R353): unit and cycle of the tick. -/
  | cmp (k : Fin 4) (cyc : Nat)
  /-- PPS_IN_EDGE (R356): the pulse's width (ns); when the edge fell (cycle of the tick, 1/16 ns). -/
  | ppsInEdge (widthNs cyc sub : Nat)
  /-- TOD_MESSAGE (R355): the bytes received, and the cycle of the last. -/
  | todMessage (m : List Byte) (cyc : Nat)
  /-- PPS_OUT_PULSE (R357): cycle of the tick. -/
  | ppsOutPulse (cyc : Nat)
  /-- TOD_OUT_SEND (R357). -/
  | todOutSend
  /-- TT_LOST (R364). -/
  | ttLost (l : Fin 2)
  /-- TRACKER_DECAY (R376). -/
  | trackerDecay
  /-- MAP_WRITE_RETRY (R378). -/
  | mapWriteRetry
  /-- INJECT_ARM (R381): the word written. -/
  | injectArm (v : Word)
  /-- SENSOR_FAULT (R387). -/
  | sensorFault
  /-- MON_CONVERSION (R397): unit, the code, and the value at the source. -/
  | monConversion (u : Fin 3) (code : Fin 4096) (value : Fin 65536)
  /-- REF_SETTLED (R399): unit. -/
  | refSettled (u : Fin 3)
  /-- EXCURSION (R400): unit and list entry. -/
  | excursion (u : Fin 3) (n : Fin 64)
  /-- MON_FAULT (R401): unit. -/
  | monFault (u : Fin 3)
  /-- MON_RETEST (R401): unit and the word written. -/
  | monRetest (u : Fin 3) (v : Word)
  /-- URGENT_CONVERSION (R403): the word written, and whether it comes within the conversion that ends the list. -/
  | urgentConversion (v : Word) (last : Bool)
  /-- ERASE (R427): slot and how the erase ends. -/
  | erase (slot : Fin 4) (p : Pg)
  /-- WRITE (R427): slot; how the program and the read back end. -/
  | write (slot : Fin 4) (p : Pg) (back : Rd)
  /-- VERIFY (R427): slot; how the read and the program of STAGED end. -/
  | verify (slot : Fin 4) (r : Rd) (p : Pg)
  /-- COMMIT (R428): slot. -/
  | commit (slot : Fin 4)
  /-- CANCEL (R427). -/
  | cancel
  /-- INSTALL (R427): slot and how the program ends. -/
  | install (slot : Fin 4) (p : Pg)
  /-- MARK_BAD (R427): slot and how the program ends. -/
  | markBad (slot : Fin 4) (p : Pg)
  /-- RAISE_MIN (R408): how the erase, the program and the read back end. -/
  | raiseMin (e p : Pg) (back : Rd)
  /-- REBOOT (R425). -/
  | reboot
  /-- COMMIT_PREPARED (R429): how the image's read ends. -/
  | commitPrepared (r : Rd)
  /-- COMMIT_ACTIVATION (R429). -/
  | commitActivation
  /-- COMMIT_DONE (R429). -/
  | commitDone
  /-- HEALTH_EVALUATION (R424). -/
  | healthEvaluation
  /-- ROLLBACK_REBOOT (R424). -/
  | rollbackReboot
  /-- MARKER_RETRY (R409). -/
  | markerRetry
  /-- OVERRIDE_UNLOCK (R431): the word written. -/
  | overrideUnlock (v : Word)
  /-- OVERRIDE (R432): form, offset and value of the access. -/
  | override (form : Form) (off : Nat) (v : BitVec 64)
  /-- MORAINE_WRITE (R455): how the program ends, whether it reads back equal, how an erase ends. -/
  | moraineWrite (p : Pg) (back : Bool) (e : Pg)
  /-- MORAINE_READ_RETRY (R454): how the read ends. -/
  | moraineReadRetry (r : Rd)
  /-- MORAINE_READ (R458): the word written and how each record's read ends. -/
  | moraineRead (v : Word) (rs : List Rd)
  /-- SNAPSHOT (R470): whether writes of the previous telemetry record are still outstanding. -/
  | snapshot (busy : Bool)
  /-- SNAPSHOT_NOW (R470): the word written. -/
  | snapshotNow (v : Word)
  /-- PRESET (R469): the word written. -/
  | preset (v : Word)
  /-- WINDOW_INTERVAL_END (R473): window. -/
  | windowIntervalEnd (w : Fin 1152)
  /-- LATCHING_READ (R15): form and offset of the access, and its cycle of the tick. -/
  | latchingRead (form : Form) (off cyc : Nat)
  /-- MIRROR_READ (R476): form and offset of the access, and its cycle of the tick. -/
  | mirrorRead (form : Form) (off cyc : Nat)
  /-- REGISTER_WRITE (R491): form, offset and value of the access. -/
  | registerWrite (form : Form) (off : Nat) (v : BitVec 64)
  /-- BAR4_READ (R492): address, length, and the upsets of cells since the last access (lane and 39-bit mask). -/
  | bar4Read (a n : Nat) (ups : List (Nat × Nat))
  /-- BAR4_WRITE (R369): address, bytes, and the upsets of cells since the last access (lane and 39-bit mask). -/
  | bar4Write (a : Nat) (bs : List Byte) (ups : List (Nat × Nat))
  /-- PCIE_RESET (R484): which reset. -/
  | pcieReset (r : PcieRst)
  /-- MSIX_UNMASK (R494): what lets messages go. -/
  | msixUnmask (u : Unmask)
  /-- READ_BYTE (R496): command code, whether the host clocks the PEC byte. -/
  | smbusReadByte (c : Fin 256) (pec : Bool)
  /-- READ_WORD (R496): command code, whether the host clocks the PEC byte. -/
  | smbusReadWord (c : Fin 256) (pec : Bool)
  /-- BLOCK_READ (R496): whether the host clocks the PEC byte. -/
  | smbusBlockRead (pec : Bool)
  /-- SMBUS_WRITE (R495). -/
  | smbusWrite
  /-- SMBUS_CLOCK_TIMEOUT (R495). -/
  | smbusClockTimeout
  /-- PCIE_LINK_TRAINED (R482): generation, width, whether the reference clock carries spread-spectrum modulation deeper than 100 ppm. -/
  | pcieLinkTrained (gen width : Nat) (ssc : Bool)
  /-- PCIE_CONFIG_WRITE (R484): what is written. -/
  | pcieConfigWrite (w : CfgWrite)
  /-- FLEXE_GROUP_LOCK_CHANGE (R500): group, whether it has lock, whether its PHY map matches the far end's. -/
  | flexeGroupLockChange (g : Fin 16) (lock match_ : Bool)
  /-- REPAIR_MAP_WRITE (R378): how the program ends. -/
  | repairMapWrite (p : Pg)
  /-- MARKER_PROGRAMMED (R409): how the program ends. -/
  | markerProgrammed (p : Pg)
  /-- ELASTIC_STORE_FAULT (R40): the crossing. -/
  | elasticStoreFault (crossing : Nat)
  deriving DecidableEq, Repr

end Sys2Proof
end

