-- ==== Sys2Proof/Decode.lean ====
section
/-! DEFINITION. The commands that words spell: the table of operations and events gives its rows no bits. -/

namespace Sys2Proof

/-- The command that a word spells by the table's bits: the table gives none, so no word spells a command. -/
def decodeTableWord (_nbits _w : Nat) : Option Instr := none

end Sys2Proof
end

