-- ==== Sys2Proof/Config.lean ====
section
/-! DEFINITION. What one device or board fixes and the spec does not state, and the free values: constants without a
body, so that nothing can evaluate them and every claim holds whatever they are. -/

namespace Sys2Proof

/-- A free value (a fresh one for each argument): what the spec leaves open. -/
opaque Config.free : Nat → Nat

/-- The word of PMC_CAT_k: the catalogue of the counter array, fixed in silicon (R464, R465). -/
opaque Config.catWord : Nat → Nat

/-- What a calibration step gives a unit that sent no sample in a part of it: the candidate, the offset, the gain (R229, R291). -/
opaque Config.calNone : Nat → Nat → Nat

/-- The code that eight bits of the loopback sequence make (R225), and the bits that its generator starts from. -/
opaque Config.loopCode : Nat → Int
opaque Config.loopSeed : Nat → Nat

/-- σ² at a frame position where no clean known symbol tells it (R273). -/
opaque Config.noNoise : Nat → Nat

/-- The payload of a control, status or observation flit (R290: no layout is given): a byte of it, for what it carries. -/
opaque Config.ctlPayload : List Nat → Nat → Nat

/-- The equaliser preset of a lane in a temperature band, which the ROM holds (R390 gives no contents). -/
opaque Config.linkPreset : Nat → List Nat

/-- The deviation in 1/8 % that the payload of an observation flit tells of the cell measured (R290 gives no layout). -/
opaque Config.obsDev : List Nat → Int

/-- Which of its block's counted quantities without an EVENT bit counter k counts (R465: the catalogue word names the block
and the instance, and no quantity). -/
opaque Config.catQty : Nat → Nat

/-- Where the Device Serial Number capability lies in configuration space (R481 names it and gives no offset): 0x100 + 4 × this. -/
opaque Config.serialAt : Nat

/-- The default mode of counter k (the Reset column of PMC_MODE_k: "Catalogue default"). -/
opaque Config.catMode : Nat → Nat

/-- The damping of the DPLL's loop filter in 1/16 (R347 gives its order, its bandwidth and a limit of its peaking). -/
opaque Config.loopDamp : Nat

/-- The scale of the ROM's Rime filter, and the filter that interpolates by 16 (R310 names both and gives no coefficients), in 2^-32. -/
opaque Config.rimeGain : Int
opaque Config.rimeInterp : List Int

/-- The composition of the shaper's ROM (R194): M_CODE and H_64 give the counts of the amplitude indices.  The table's
contents are not in the spec. -/
opaque Config.pasComp : Nat → Nat → List Nat

/-- The correction margin where the measured ratio is 1/2 or more: Q_meas is not positive and R187's logarithm has no
value.  FEC_PREBER, code rate, cap. -/
opaque Config.marginOpen : Nat → Nat → Nat → Nat

/-! ### Signal processing (chapters 6 and 8)

Values and gains are in units of 2^-32. -/

/-- The 32 coefficients that interpolate between samples, for a fraction in 1/256 (R206, R252 give the delay and no
interpolation). -/
opaque Config.fracTaps : Nat → List Int

/-- The proportional and the integral gain of the clock recovery loop: CLK_BW, GBd × 8, samples per block (R254 gives order
and bandwidth). -/
opaque Config.clkGain : Nat → Nat → Nat → Int × Int

/-- The gain that the digital gain control takes after a tick: the gain before, the mean power at its output (R251 names the
step and gives no law). -/
opaque Config.agcGain : Nat → Nat → Nat

/-- The limit of the constant-modulus cost (R275, R277 name it and give no value). -/
opaque Config.cmaLimit : Nat

/-- The samples by which the shaper's output lags its symbols (R201 gives the response and no latency). -/
opaque Config.shapeDelay : Nat

end Sys2Proof
end

