-- ==== Sys2Proof/Machine/Bits.lean ====
section
/-! DEFINITION. Bit fields, two's complement values, byte orders and checksums shared by the whole model (R7, R8, R60). -/

namespace Sys2Proof.Machine

/-- Bits `hi` to `lo` of a register. -/
def getBits (w : Word) (hi lo : Nat) : Nat := (w.toNat >>> lo) % 2 ^ (hi + 1 - lo)

/-- The register with bits `hi` to `lo` replaced by (the low bits of) a value. -/
def setBits (w : Word) (hi lo v : Nat) : Word :=
  BitVec.ofNat 32 (w.toNat - (getBits w hi lo) * 2 ^ lo + (v % 2 ^ (hi + 1 - lo)) * 2 ^ lo)

/-- Bits `hi` to `lo` of a number. -/
def natBits (n hi lo : Nat) : Nat := (n >>> lo) % 2 ^ (hi + 1 - lo)

/-- A flag as a number. -/
def b2n (b : Bool) : Nat := if b then 1 else 0

/-- The signed value of the low `w` bits. -/
def sx (w v : Nat) : Int :=
  let u := v % 2 ^ w
  if 2 * u < 2 ^ w then (u : Int) else (u : Int) - (2 ^ w : Nat)

/-- The `w`-bit two's complement encoding of a number. -/
def twos (w : Nat) (i : Int) : Nat := (i % (2 ^ w : Nat)).toNat

/-- A number limited to a range. -/
def clampI (lo hi i : Int) : Int := if i < lo then lo else if hi < i then hi else i

/-- A count that holds at `m`. -/
def satAdd (m a b : Nat) : Nat := if m ≤ a + b then m else a + b

/-- The magnitude of a difference. -/
def absDiff (a b : Nat) : Nat := (a - b) + (b - a)

/-- Division rounded to nearest, a tie away from zero. -/
def roundDiv (n : Int) (d : Nat) : Int :=
  if d = 0 then 0
  else if 0 ≤ n then ((2 * n.toNat + d) / (2 * d) : Nat) else -(((2 * (-n).toNat + d) / (2 * d) : Nat) : Int)

/-- One bit of an integer square root: try to set bit `k` of `r`. -/
def isqrtBit (n r k : Nat) : Nat := if (r + 2 ^ k) * (r + 2 ^ k) ≤ n then r + 2 ^ k else r

/-- The integer square root of a number below 2^(2 · bits), from the top bit down. -/
def isqrtFrom (n : Nat) : Nat → Nat → Nat
  | 0, r => r
  | k + 1, r => isqrtFrom n k (isqrtBit n r k)

/-- The integer square root of a number below 2^256. -/
def isqrt (n : Nat) : Nat := isqrtFrom n 128 0

/-- The `n` low bytes of a number, least significant first (R8). -/
def leBytes : Nat → Nat → List Byte
  | 0, _ => []
  | n + 1, v => BitVec.ofNat 8 v :: leBytes n (v / 256)

/-- The `n` low bytes of a number, most significant first (R7). -/
def beBytes (n v : Nat) : List Byte := (leBytes n v).reverse

/-- The number that bytes spell, least significant first. -/
def ofLe : List Byte → Nat
  | [] => 0
  | b :: bs => b.toNat + 256 * ofLe bs

/-- The number that bytes spell, most significant first. -/
def ofBe (bs : List Byte) : Nat := ofLe bs.reverse

/-- The bits of a byte, bit 7 first (R7). -/
def byteBits (b : Byte) : List Bool := [b.getLsbD 7, b.getLsbD 6, b.getLsbD 5, b.getLsbD 4, b.getLsbD 3, b.getLsbD 2, b.getLsbD 1, b.getLsbD 0]

/-- The bits of bytes in transmission order. -/
def bytesBits (bs : List Byte) : List Bool := bs.flatMap byteBits

/-- The number that bits spell, most significant first. -/
def ofBits (bs : List Bool) : Nat := bs.foldl (fun a b => 2 * a + b2n b) 0

/-- The `n` low bits of a number, most significant first. -/
def toBits : Nat → Nat → List Bool
  | 0, _ => []
  | n + 1, v => v.testBit n :: toBits n v

/-- Bits packed into bytes, bit 7 first; a short last byte is padded with zeros.  `n` bounds the number of bytes. -/
def bitsBytes : Nat → List Bool → List Byte
  | 0, _ => []
  | n + 1, bs => if bs.isEmpty then [] else
      BitVec.ofNat 8 (ofBits ((bs.take 8) ++ List.replicate (8 - (bs.take 8).length) false)) :: bitsBytes n (bs.drop 8)

/-- A byte list of an exact length: cut, or filled with zeros. -/
def padTo (n : Nat) (bs : List Byte) : List Byte := bs.take n ++ List.replicate (n - bs.length) 0#8

/-- One bit step of a CRC register of `w` bits without reflection. -/
def crcBit (w poly c : Nat) (b : Bool) : Nat :=
  let top := c.testBit (w - 1)
  let s := (2 * c) % 2 ^ w
  if top != b then s ^^^ poly else s

/-- A CRC register after bits, the first bit first.  Both branches go on from the same value; the test only makes a proof
by evaluation go bit by bit. -/
def crcBits (w poly c : Nat) : List Bool → Nat
  | [] => c
  | b :: bs => let d := crcBit w poly c b; if d = 0 then crcBits w poly 0 bs else crcBits w poly d bs

/-- The CRC-32 of R60: polynomial 0x04C1_1DB7, initial value all ones, no reflection, result inverted. -/
def crc32 (bs : List Byte) : Nat := crcBits 32 0x04C11DB7 0xFFFFFFFF (bytesBits bs) ^^^ 0xFFFFFFFF

/-- The number of ones among the low `n` bits. -/
def popCount : Nat → Nat → Nat
  | 0, _ => 0
  | n + 1, v => b2n (v.testBit n) + popCount n v

/-- The indices from 0 below `n` that satisfy a test. -/
def idxWhere (n : Nat) (p : Nat → Bool) : List Nat := (List.range n).filter p

/-- Update one element of a list. -/
def modAt {α : Type} (xs : List α) (i : Nat) (f : α → α) : List α := xs.modify i f

end Sys2Proof.Machine
end

