-- ==== Sys2Proof/Machine/Crypto.lean ====
section
/-! DEFINITION. AES-256 and the constructions the spec names: CMAC (SP 800-38B), the cipher modes (SP 800-38A), GCM
(SP 800-38D) and the RFC 3394 key unwrap (R132, R157, R161, R327, R410).  PRESUMED: the algorithms are those of the
standards the spec cites. -/

namespace Sys2Proof.Machine

/-- The AES substitution, byte `i` of the number at bits 8i+7..8i. -/
def aesSboxTable : Nat := 0x16BB54B00F2D99416842E6BF0D89A18CDF2855CEE9871E9B948ED9691198F8E19E1DC186B95735610EF6034866B53E708A8BBD4B1F74DDE8C6B4A61C2E2578BA08AE7A65EAF4566CA94ED58D6D37C8E779E4959162ACD3C25C2406490A3A32E0DB0B5EDE14B8EE4688902A22DC4F816073195D643D7EA7C41744975FEC130CCDD2F3FF1021DAB6BCF5389D928F40A351A89F3C507F02F94585334D43FBAAEFD0CF584C4A39BECB6A5BB1FC20ED00D153842FE329B3D63B52A05A6E1B1A2C830975B227EBE28012079A059618C323C7041531D871F1E5A534CCF73F362693FDB7C072A49CAFA2D4ADF04759FA7DC982CA76ABD7FE2B670130C56F6BF27B777C63

/-- The inverse substitution. -/
def aesInvSboxTable : Nat := 0x7D0C2155631469E126D677BA7E042B17619953833CBBEBC8B0F52AAE4D3BE0A0EF9CC9939F7AE52D0D4AB519A97F51605FEC8027591012B131C7078833A8DD1FF45ACD78FEC0DB9A2079D2C64B3E56FC1BBE18AA0E62B76F89C5291D711AF1476EDF751CE837F9E28535ADE72274AC9673E6B4F0CECFF297EADC674F4111913A6B8A130103BDAFC1020F3FCA8F1E2CD00645B3B80558E4F70AD3BC8C00ABD890849D8DA75746155EDAB9EDFD5048706C92B6655DCC5CA4D41698688664F6F87225D18B6D49A25B76B224D92866A12E084EC3FA420B954CEE3D23C2A632947B54CBE9DEC444438E3487FF2F9B8239E37CFBD7F3819EA340BF38A53630D56A0952

def aesSbox (x : Nat) : Nat := (aesSboxTable >>> (8 * x)) % 256
def aesInvSbox (x : Nat) : Nat := (aesInvSboxTable >>> (8 * x)) % 256

/-- Multiplication by x in GF(2^8). -/
def xtime (a : Nat) : Nat := if a < 128 then 2 * a else (2 * a - 256) ^^^ 0x1B

/-- Multiplication in GF(2^8) by a small constant. -/
def gmulC (c a : Nat) : Nat :=
  let a2 := xtime a
  let a4 := xtime a2
  let a8 := xtime a4
  (if c.testBit 0 then a else 0) ^^^ (if c.testBit 1 then a2 else 0) ^^^ (if c.testBit 2 then a4 else 0) ^^^ (if c.testBit 3 then a8 else 0)

/-- Exclusive or of two byte sequences. -/
def xorB (a b : List Nat) : List Nat := List.zipWith (· ^^^ ·) a b

/-- One column through a circulant matrix. -/
def mixColumn (c0 c1 c2 c3 : Nat) : List Nat → List Nat
  | [a, b, c, d] =>
    [gmulC c0 a ^^^ gmulC c1 b ^^^ gmulC c2 c ^^^ gmulC c3 d, gmulC c3 a ^^^ gmulC c0 b ^^^ gmulC c1 c ^^^ gmulC c2 d,
     gmulC c2 a ^^^ gmulC c3 b ^^^ gmulC c0 c ^^^ gmulC c1 d, gmulC c1 a ^^^ gmulC c2 b ^^^ gmulC c3 c ^^^ gmulC c0 d]
  | xs => xs

/-- All four columns. -/
def mixColumns (c0 c1 c2 c3 : Nat) (s : List Nat) : List Nat :=
  mixColumn c0 c1 c2 c3 (s.take 4) ++ mixColumn c0 c1 c2 c3 ((s.drop 4).take 4) ++
  mixColumn c0 c1 c2 c3 ((s.drop 8).take 4) ++ mixColumn c0 c1 c2 c3 (s.drop 12)

def pick16 (perm : List Nat) (s : List Nat) : List Nat := perm.map fun i => s.getD i 0

def shiftRows (s : List Nat) : List Nat := pick16 [0, 5, 10, 15, 4, 9, 14, 3, 8, 13, 2, 7, 12, 1, 6, 11] s
def invShiftRows (s : List Nat) : List Nat := pick16 [0, 13, 10, 7, 4, 1, 14, 11, 8, 5, 2, 15, 12, 9, 6, 3] s

/-- The next group of eight key words (32 bytes) of the AES-256 schedule. -/
def keyGroup (rcon : Nat) (k : List Nat) : List Nat :=
  let w (i : Nat) := (k.drop (4 * i)).take 4
  let rot := match w 7 with | [a, b, c, d] => [b, c, d, a] | xs => xs
  let t := (xorB (rot.map aesSbox) [rcon, 0, 0, 0])
  let w0 := xorB (w 0) t
  let w1 := xorB (w 1) w0
  let w2 := xorB (w 2) w1
  let w3 := xorB (w 3) w2
  let w4 := xorB (w 4) (w3.map aesSbox)
  let w5 := xorB (w 5) w4
  let w6 := xorB (w 6) w5
  w0 ++ w1 ++ w2 ++ w3 ++ w4 ++ w5 ++ w6 ++ xorB (w 7) w6

/-- The key groups, `n` after the key itself. -/
def keyGroups : Nat → Nat → List Nat → List (List Nat)
  | 0, _, k => [k]
  | n + 1, rcon, k => k :: keyGroups n (xtime rcon) (keyGroup rcon k)

/-- Cut into 16-byte round keys. -/
def roundKeys (gs : List (List Nat)) : List (List Nat) := gs.flatMap fun g => [g.take 16, g.drop 16]

/-- The 15 round keys of AES-256. -/
def aesKeys (key : List Byte) : List (List Nat) := (roundKeys (keyGroups 7 1 (key.map (·.toNat)))).take 15

def aesRounds : List (List Nat) → List Nat → List Nat
  | [], s => s
  | [k], s => xorB (shiftRows (s.map aesSbox)) k
  | k :: ks, s => aesRounds ks (xorB (mixColumns 2 3 1 1 (shiftRows (s.map aesSbox))) k)

/-- AES-256 encryption of one block under expanded keys. -/
def aesEncK : List (List Nat) → List Nat → List Nat
  | [], s => s
  | k :: ks, s => aesRounds ks (xorB s k)

def aesInvRounds : List (List Nat) → List Nat → List Nat
  | [], s => s
  | [k], s => xorB ((invShiftRows s).map aesInvSbox) k
  | k :: ks, s => aesInvRounds ks (mixColumns 14 11 13 9 (xorB ((invShiftRows s).map aesInvSbox) k))

/-- AES-256 decryption of one block under expanded keys. -/
def aesDecK (ks : List (List Nat)) (s : List Nat) : List Nat :=
  match ks.reverse with
  | [] => s
  | k :: rest => aesInvRounds rest (xorB s k)

def natsOf (bs : List Byte) : List Nat := bs.map (·.toNat)
def bytesOf (ns : List Nat) : List Byte := ns.map (BitVec.ofNat 8 ·)

/-- AES-256 encryption of one block. -/
def aesEnc (key blk : List Byte) : List Byte := bytesOf (aesEncK (aesKeys key) (natsOf blk))

/-- AES-256 decryption of one block. -/
def aesDec (key blk : List Byte) : List Byte := bytesOf (aesDecK (aesKeys key) (natsOf blk))

/-- Cut into 16-byte blocks; the last may be short.  `n` bounds their number. -/
def blocks16 : Nat → List Nat → List (List Nat)
  | 0, _ => []
  | n + 1, bs => if bs.isEmpty then [] else bs.take 16 :: blocks16 n (bs.drop 16)

def blocksOf (bs : List Nat) : List (List Nat) := blocks16 (bs.length / 16 + 1) bs

def zeros (n : Nat) : List Nat := List.replicate n 0
def padN (n : Nat) (bs : List Nat) : List Nat := bs ++ zeros (n - bs.length)

/-- A 128-bit number as 16 bytes, most significant first, and back. -/
def be16 (v : Nat) : List Nat := natsOf (beBytes 16 v)
def of16 (b : List Nat) : Nat := b.foldl (fun a x => a * 256 + x) 0

/-- Doubling in GF(2^128) for the CMAC subkeys. -/
def cmacDbl (v : Nat) : Nat := if v < 2 ^ 127 then 2 * v else (2 * v - 2 ^ 128) ^^^ 0x87

def cmacChain (ks : List (List Nat)) : List Nat → List (List Nat) → List Nat → List Nat
  | x, [], last => aesEncK ks (xorB x last)
  | x, b :: bs, last => cmacChain ks (aesEncK ks (xorB x b)) bs last

/-- AES-CMAC (SP 800-38B), 16 bytes. -/
def aesCmac (key msg : List Byte) : List Byte :=
  let ks := aesKeys key
  let l := of16 (aesEncK ks (zeros 16))
  let k1 := cmacDbl l
  let bs := blocksOf (natsOf msg)
  let last := bs.getLastD []
  let fin := if last.length = 16 then xorB last (be16 k1) else xorB (padN 16 (last ++ [0x80])) (be16 (cmacDbl k1))
  bytesOf (cmacChain ks (zeros 16) bs.dropLast fin)

/-- CTR mode over blocks: the low `w` bits of the counter block are incremented (R161; GCM uses 32). -/
def ctrGo (ks : List (List Nat)) (w : Nat) : Nat → List (List Nat) → List Nat
  | _, [] => []
  | c, b :: bs => xorB b (aesEncK ks (be16 c)) ++ ctrGo ks w (c / 2 ^ w * 2 ^ w + (c + 1) % 2 ^ w) bs

/-- CTR mode with a 64-bit counter (R161). -/
def aesCtr (key iv msg : List Byte) : List Byte := bytesOf (ctrGo (aesKeys key) 64 (of16 (natsOf iv)) (blocksOf (natsOf msg)))

def cbcEncGo (ks : List (List Nat)) : List Nat → List (List Nat) → List Nat
  | _, [] => []
  | x, b :: bs => let c := aesEncK ks (xorB x b); c ++ cbcEncGo ks c bs

def cbcDecGo (ks : List (List Nat)) : List Nat → List (List Nat) → List Nat
  | _, [] => []
  | x, c :: cs => xorB x (aesDecK ks c) ++ cbcDecGo ks c cs

def cfbEncGo (ks : List (List Nat)) : List Nat → List (List Nat) → List Nat
  | _, [] => []
  | x, b :: bs => let c := xorB b (aesEncK ks x); c ++ cfbEncGo ks c bs

def cfbDecGo (ks : List (List Nat)) : List Nat → List (List Nat) → List Nat
  | _, [] => []
  | x, c :: cs => xorB c (aesEncK ks x) ++ cfbDecGo ks c cs

def ofbGo (ks : List (List Nat)) : List Nat → List (List Nat) → List Nat
  | _, [] => []
  | x, b :: bs => let o := aesEncK ks x; xorB b o ++ ofbGo ks o bs

/-- CBC encryption with the padding of RFC 5652 (R161). -/
def aesCbcEnc (key iv msg : List Byte) : List Byte :=
  let p := 16 - msg.length % 16
  bytesOf (cbcEncGo (aesKeys key) (natsOf iv) (blocksOf (natsOf msg ++ List.replicate p p)))

/-- CBC decryption; none when the padding is invalid (R161). -/
def aesCbcDec (key iv msg : List Byte) : Option (List Byte) :=
  let m := cbcDecGo (aesKeys key) (natsOf iv) (blocksOf (natsOf msg))
  let v := m.getLastD 0
  if 1 ≤ v && decide (v ≤ 16) && decide (v ≤ m.length) && (m.drop (m.length - v)).all (· == v) then
    some (bytesOf (m.take (m.length - v))) else none

def aesCfb (enc : Bool) (key iv msg : List Byte) : List Byte :=
  bytesOf ((if enc then cfbEncGo else cfbDecGo) (aesKeys key) (natsOf iv) (blocksOf (natsOf msg)))

def aesOfb (key iv msg : List Byte) : List Byte := bytesOf (ofbGo (aesKeys key) (natsOf iv) (blocksOf (natsOf msg)))

/-- Multiplication in the GCM field; bit 127 of a number is the first bit of the block. -/
def gcmMulGo : Nat → Nat → Nat → Nat → Nat
  | 0, _, _, z => z
  | n + 1, x, v, z =>
    gcmMulGo n x (if v % 2 = 1 then (v / 2) ^^^ (0xE1 * 2 ^ 120) else v / 2) (if x.testBit n then z ^^^ v else z)

def gcmMul (x y : Nat) : Nat := gcmMulGo 128 x y 0

def ghash (h : Nat) (bs : List (List Nat)) : Nat := bs.foldl (fun a b => gcmMul (a ^^^ of16 (padN 16 b)) h) 0

/-- The GCM tag of a ciphertext under a 96-bit IV (R132). -/
def gcmTag (ks : List (List Nat)) (iv aad ct : List Nat) : List Nat :=
  let h := of16 (aesEncK ks (zeros 16))
  let s := ghash h (blocksOf aad ++ blocksOf ct ++ [be16 (8 * aad.length * 2 ^ 64 + 8 * ct.length)])
  xorB (be16 s) (aesEncK ks (iv ++ [0, 0, 0, 1]))

/-- GCM encryption or decryption of the data under a 96-bit IV (R131, R132). -/
def gcmCrypt (ks : List (List Nat)) (iv msg : List Nat) : List Nat := ctrGo ks 32 (of16 (iv ++ [0, 0, 0, 2])) (blocksOf msg)

/-- AES-256-GCM encryption: ciphertext and tag. -/
def gcmSeal (key iv aad msg : List Byte) : List Byte × List Byte :=
  let ks := aesKeys key
  let ct := gcmCrypt ks (natsOf iv) (natsOf msg)
  (bytesOf ct, bytesOf (gcmTag ks (natsOf iv) (natsOf aad) ct))

/-- AES-256-GCM: the plaintext of a ciphertext, and the tag it should have. -/
def gcmOpen (key iv aad ct : List Byte) : List Byte × List Byte :=
  let ks := aesKeys key
  (bytesOf (gcmCrypt ks (natsOf iv) (natsOf ct)), bytesOf (gcmTag ks (natsOf iv) (natsOf aad) (natsOf ct)))

/-- One step of the RFC 3394 unwrap: the register `a`, the four 8-byte halves, the step number. -/
def unwrapStep (ks : List (List Nat)) (st : List Nat × List (List Nat)) (t : Nat) : List Nat × List (List Nat) :=
  let i := (t - 1) % 4
  let a := be16 (of16 st.1 ^^^ t)
  let b := aesDecK ks (a.drop 8 ++ st.2.getD i [])
  (b.take 8, st.2.set i (b.drop 8))

/-- RFC 3394 unwrap of 40 bytes: the key when the integrity check passes (R157). -/
def keyUnwrap (kek wrapped : List Byte) : Option (List Byte) :=
  let w := natsOf wrapped
  let rs := [(w.drop 8).take 8, (w.drop 16).take 8, (w.drop 24).take 8, (w.drop 32).take 8]
  let r := ((List.range 24).map (24 - ·)).foldl (unwrapStep (aesKeys kek)) (w.take 8, rs)
  if r.1 = List.replicate 8 0xA6 ∧ wrapped.length = 40 then some (bytesOf r.2.flatten) else none

end Sys2Proof.Machine
end

