-- ==== Sys2Proof/Machine/Fec.lean ====
section
/-! DEFINITION. Formats, amplitude shaping, the LDPC code, the placement of its bits, and the decoder's arithmetic
(chapters 5 and 6: R66, R166-R178, R185, R187, R189-R197). -/

namespace Sys2Proof.Machine

/-! ### Formats (R189, R190, R66) -/

/-- Coded bits per polarisation symbol of a format entry. -/
def fmtM (w : Word) : Nat := 2 * (getBits w 13 12 + 1)
/-- The code rate's number. -/
def fmtRate (w : Word) : Nat := getBits w 15 14
/-- The entropy in 1/64 bit. -/
def fmtH (w : Word) : Nat := getBits w 25 16
/-- RS_CODE: the symbol rate in 1/8 GBd. -/
def fmtRs (w : Word) : Nat := getBits w 11 0
def fmtValid (w : Word) : Bool := w.getLsbD 31

/-- Whether a format is shaped (R190). -/
def fmtShaped (w : Word) : Bool := fmtH w < 64 * fmtM w

/-- floor(79,380 × H). -/
def fmtBase (w : Word) : Nat := 19845 * fmtH w / 16

/-- 79,380 × m × (1 − r). -/
def fmtParity (w : Word) : Nat :=
  (match fmtRate w with | 0 => 19845 | 1 => 13230 | _ => 11340) * fmtM w

/-- Information bits per frame (R189). -/
def fmtInfo (w : Word) : Nat := fmtBase w - fmtParity w

/-- Slots per frame (R66). -/
def fmtSlots (w : Word) : Nat := min 50 (fmtInfo w / 8320)

/-- Amplitude bits per frame (R192). -/
def fmtU (w : Word) : Nat := if fmtShaped w then fmtBase w - 158760 else 0

/-- Codewords per frame (R169). -/
def fmtK (w : Word) : Nat := 5 * fmtM w / 2

/-- Amplitude columns (R169). -/
def fmtA (w : Word) : Nat := 84 - 168 / fmtM w

/-- Whether an entry written with VALID = 1 is legal (R190). -/
def fmtLegal (w : Word) : Bool :=
  !fmtValid w ||
  (decide (512 ≤ fmtRs w) && decide (fmtRs w ≤ 2560) && decide (fmtRate w < 3) &&
   (match getBits w 13 12 with
    | 0 => fmtH w == 128
    | 1 => fmtH w == 256
    | 2 => fmtH w == 384 || (decide (288 ≤ fmtH w) && decide (fmtH w ≤ 376))
    | _ => fmtH w == 512 || (decide (352 ≤ fmtH w) && decide (fmtH w ≤ 496))))

/-- The check value of an entry (R102): over its four bytes with VALID = 1. -/
def fmtCheck (w : Word) : Nat := crc32 (beBytes 4 (w ||| 0x80000000#32).toNat) % 4096

/-! ### The code (R166-R168) -/

/-- Information columns of a rate. -/
def ldpcK (rate : Nat) : Nat := match rate with | 0 => 63 | 1 => 70 | _ => 72

/-- The rows an information column connects to, with `p` rows. -/
def ldpcRows (p c : Nat) : List Nat := [c % p, (c + p / 3) % p, (c + 2 * (p / 3)) % p]

/-- The shift of an information column in a row. -/
def ldpcShift (r c : Nat) : Nat := (11 * (2 * r + 1) * c + 29 * r) % 378

/-- The base entries of a row: column and shift. -/
def ldpcRow (rate r : Nat) : List (Nat × Nat) :=
  let k := ldpcK rate
  ((List.range k).filter fun c => (ldpcRows (84 - k) c).contains r).map (fun c => (c, ldpcShift r c)) ++
  (if r = 0 then [] else [(k + r - 1, 0)]) ++ [(k + r, 0)]

/-- The code bit that check `z` of a row meets in an entry. -/
def ldpcBit (e : Nat × Nat) (z : Nat) : Nat := 378 * e.1 + (z + e.2) % 378

/-- The parity of the bits a check meets. -/
def checkOdd (bit : Nat → Bool) (row : List (Nat × Nat)) (z : Nat) : Bool := row.foldl (fun a e => a != bit (ldpcBit e z)) false

/-- Set the parity bits of one row: each is the sum of the row's other bits (R168). -/
def ldpcEncRow (rate : Nat) (a : Array Bool) (t : Nat) : Array Bool :=
  let row := (ldpcRow rate t).dropLast
  (List.range 378).foldl (fun a z => a.setIfInBounds (378 * (ldpcK rate + t) + z) (checkOdd (fun i => a.getD i false) row z)) a

/-- The codeword of systematic bits (R168). -/
def ldpcEncode (rate : Nat) (x : List Bool) : Array Bool :=
  let a := (x ++ List.replicate (31752 - x.length) false).toArray
  (List.range (84 - ldpcK rate)).foldl (ldpcEncRow rate) a

/-- Whether every parity check holds (R178). -/
def syndromeZero (rate : Nat) (bit : Nat → Bool) : Bool :=
  (List.range (84 - ldpcK rate)).all fun r => let row := ldpcRow rate r; (List.range 378).all fun z => !checkOdd bit row z

/-! ### Placement (R169-R171) -/

/-- The codeword of slot `n` of a class, with `k` codewords. -/
def slotCw (k n : Nat) : Nat := (n + n / k) % k

/-- The code bit index of slot `n` of a class of `c` columns that starts at column `first`. -/
def slotBit (k c first n : Nat) : Nat := let j := n / k; 378 * first + 378 * (j % c) + j / c

/-- The codeword and code bit of level `lev` of polarisation symbol `ps` = 2d + pol (R170). -/
def levelPlace (w : Word) (ps lev : Nat) : Nat × Nat :=
  let k := fmtK w
  let a := fmtA w
  if lev < 2 then let n := 2 * ps + lev; (slotCw k n, slotBit k (84 - a) a n)
  else let n := (fmtM w - 2) * ps + (lev - 2); (slotCw k n, slotBit k a 0 n)

/-! ### Amplitude shaping (R192-R196) -/

def factGo : Nat → Nat
  | 0 => 1
  | n + 1 => (n + 1) * factGo n

/-- The number of distinct sequences of a composition. -/
def multinomial (ns : List Nat) : Nat := factGo (ns.foldl (· + ·) 0) / ns.foldl (fun a n => a * factGo n) 1

/-- Whether counts are a composition of a shaped format: one for each amplitude index, 630 in all, and room for the largest block (R194). -/
def compOk (w : Word) (ns : List Nat) : Bool :=
  ns.length == 2 ^ (fmtM w / 2 - 1) && ns.foldl (· + ·) 0 == 630 && decide (2 ^ ((fmtU w + 251) / 252) ≤ multinomial ns)

/-- 630 positions shared as evenly as they go among `n` indices. -/
def evenComp (n : Nat) : List Nat := (List.range n).map fun i => 630 / n + b2n (decide (i < 630 % n))

/-- The composition of the format (R194): the ROM's, whose contents are open but for the properties that the rule states. -/
def fmtComp (w : Word) : List Nat :=
  if fmtShaped w then (let ns := Config.pasComp (getBits w 13 12) (fmtH w); if compOk w ns then ns else evenComp (2 ^ (fmtM w / 2 - 1))) else []

/-- The first index whose share of the sequences holds rank `v`: index, and the rank within its share. -/
def pickIdx (total rem : Nat) : List Nat → Nat → Nat → Nat × Nat
  | [], i, v => (i - 1, v)
  | n :: ns, i, v => let c := total * n / rem; if v < c then (i, v) else pickIdx total rem ns (i + 1) (v - c)

/-- Sequences that start with an index below `i`. -/
def belowIdx (total rem : Nat) (ns : List Nat) (i : Nat) : Nat := (ns.take i).foldl (fun a n => a + total * n / rem) 0

/-- The sequence of a rank: `len` positions left, counts left, sequences left (R195). -/
def unrank : Nat → List Nat → Nat → Nat → List Nat
  | 0, _, _, _ => []
  | len + 1, ns, total, v =>
    let p := pickIdx total (len + 1) ns 0 v
    p.1 :: unrank len (modAt ns p.1 (· - 1)) (total * ns.getD p.1 0 / (len + 1)) p.2

/-- The rank of a sequence among those of its composition (R195). -/
def rankOf : List Nat → List Nat → Nat → Nat
  | [], _, _ => 0
  | i :: is, ns, total =>
    belowIdx total (is.length + 1) ns i + rankOf is (modAt ns i (· - 1)) (total * ns.getD i 0 / (is.length + 1))

/-- The first amplitude bit of block `b`, of `u` bits in all (R193). -/
def pasFrom (u b : Nat) : Nat := u * b / 252

/-- The amplitude indices of a frame's amplitude bits (R193-R195). -/
def pasShape (comp : List Nat) (bits : List Bool) : List Nat :=
  let u := bits.length
  (List.range 252).flatMap fun b =>
    unrank 630 comp (multinomial comp) (ofBits ((bits.drop (pasFrom u b)).take (pasFrom u (b + 1) - pasFrom u b)))

/-- One block back: its bits, and whether it failed (R196). -/
def pasBack1 (comp : List Nat) (ub : Nat) (idx : List Nat) : List Bool × Bool :=
  let ok := comp.zipIdx.all fun p => (idx.filter (· == p.2)).length == p.1
  let r := rankOf idx comp (multinomial comp)
  if ok && idx.all (· < comp.length) && decide (r < 2 ^ ub) then (toBits ub r, false) else (List.replicate ub false, true)

/-- The amplitude bits of a frame's decided indices, and how many blocks failed (R196). -/
def pasBack (comp : List Nat) (u : Nat) (idx : List Nat) : List Bool × Nat :=
  (List.range 252).foldl (fun a b =>
    let r := pasBack1 comp (pasFrom u (b + 1) - pasFrom u b) ((idx.drop (630 * b)).take 630)
    (a.1 ++ r.1, a.2 + b2n r.2)) ([], 0)

/-- The Gray label of an index, `n` bits, most significant first (R197). -/
def grayBits (n i : Nat) : List Bool := toBits n (i ^^^ (i / 2))

/-- The index of a Gray label. -/
def grayIdx (bs : List Bool) : Nat := (bs.foldl (fun a b => let x := (a.2 != b); (2 * a.1 + b2n x, x)) (0, false)).1

/-! ### A frame's coded bits (R172, R173) -/

/-- Write the A-slot label bits into the codewords' amplitude columns. -/
def placeLabels (w : Word) (cws : Array (Array Bool)) (bits : List Bool) : Array (Array Bool) :=
  bits.zipIdx.foldl (fun cws p =>
    let k := fmtK w
    cws.modify (slotCw k p.2) fun a => a.setIfInBounds (slotBit k (fmtA w) 0 p.2) p.1) cws

/-- The systematic bits of each codeword (R172, R192). -/
def systematic (w : Word) (info : List Bool) : List (List Bool) :=
  let k := 378 * ldpcK (fmtRate w)
  if fmtShaped w then
    let u := fmtU w
    let labels := (pasShape (fmtComp w) (info.take u)).flatMap (grayBits (fmtM w / 2 - 1))
    let cws := placeLabels w (Array.replicate (fmtK w) (Array.replicate (378 * fmtA w) false)) labels
    let per := k - 378 * fmtA w
    (List.range (fmtK w)).map fun i => (cws.getD i #[]).toList ++ (info.drop (u + per * i)).take per
  else (List.range (fmtK w)).map fun i => (info.drop (k * i)).take k

/-- The codewords of a frame's information bits. -/
def frameEncode (w : Word) (info : List Bool) : Array (Array Bool) :=
  ((systematic w info).map (ldpcEncode (fmtRate w))).toArray

/-- A coded bit of a frame: polarisation symbol and level. -/
def codedBit (w : Word) (cws : Array (Array Bool)) (ps lev : Nat) : Bool :=
  let p := levelPlace w ps lev
  (cws.getD p.1 #[]).getD p.2 false

/-- The coded bits of a frame in the order of its data symbols. -/
def codedBits (w : Word) (cws : Array (Array Bool)) : List Bool :=
  (List.range 79380).flatMap fun ps => (List.range (fmtM w)).map (codedBit w cws ps)

/-- The values ±(2i + 1) of the rails I and Q of polarisation symbol `ps` (R197, R198). -/
def symbolRails (w : Word) (cws : Array (Array Bool)) (ps : Nat) : List Int :=
  let h := fmtM w / 2 - 1
  [0, 1].map fun c =>
    let i := grayIdx ((List.range h).map fun j => codedBit w cws ps (2 + h * c + j))
    (if codedBit w cws ps c then -1 else 1) * (2 * (i : Int) + 1)

/-- The mean of the squared rail values over a polarisation symbol, as a fraction: 1 ÷ g² (R198). -/
def fmtPower (w : Word) : Nat × Nat :=
  if fmtShaped w then (2 * (fmtComp w).zipIdx.foldl (fun a p => a + p.1 * (2 * p.2 + 1) ^ 2) 0, 630)
  else let n := 2 ^ (fmtM w / 2 - 1); (2 * (4 * n * n - 1), 3)

/-! ### Back to information bits (R178, R196) -/

/-- The information bits of a frame's decided codewords, and how many amplitude blocks failed. -/
def frameInfo (w : Word) (cws : Array (Array Bool)) : List Bool × Nat :=
  let k := 378 * ldpcK (fmtRate w)
  if fmtShaped w then
    let h := fmtM w / 2 - 1
    let idx := (List.range 158760).map fun q => grayIdx ((List.range h).map fun j => codedBit w cws (q / 2) (2 + h * (q % 2) + j))
    let a := pasBack (fmtComp w) (fmtU w) idx
    (a.1 ++ cws.toList.flatMap (fun c => (c.toList.take k).drop (378 * fmtA w)), a.2)
  else (cws.toList.flatMap fun c => c.toList.take k, 0)

/-! ### Layered offset min-sum (R177, R178) -/

def sat8 (i : Int) : Int := clampI (-127) 127 i

/-- One check: the entries' a-posteriori values and messages. -/
def minSumCheck (off : Nat) (row : List (Nat × Nat)) (base z : Nat) (st : Array Int × Array Int) : Array Int × Array Int :=
  let es := row.zipIdx.map fun p => (ldpcBit p.1 z, base + 378 * p.2 + z)
  let ts := es.map fun e => sat8 (st.1.getD e.1 0 - st.2.getD e.2 0)
  (es.zip ts).zipIdx.foldl (fun st p =>
    let others := ts.eraseIdx p.2
    let mag := others.foldl (fun a t => min a t.natAbs) 127 - off
    let neg := others.foldl (fun a t => a != decide (t < 0)) false
    let msg : Int := (if neg then -1 else 1) * (min mag 31 : Nat)
    (st.1.setIfInBounds p.1.1.1 (sat8 (p.1.2 + msg)), st.2.setIfInBounds p.1.1.2 msg)) st

/-- The messages before a row. -/
def msgBase (rate r : Nat) : Nat := 378 * ((List.range r).map fun i => (ldpcRow rate i).length).foldl (· + ·) 0

/-- One iteration: the base rows in order. -/
def minSumIter (rate off : Nat) (st : Array Int × Array Int) : Array Int × Array Int :=
  (List.range (84 - ldpcK rate)).foldl (fun st r =>
    let row := ldpcRow rate r
    let b := msgBase rate r
    (List.range 378).foldl (fun st z => minSumCheck off row b z st) st) st

/-- Take the values of the failing lanes read in an iteration as 0. -/
def storeLost (es : List StoreErr) (it : Nat) (st : Array Int × Array Int) : Array Int × Array Int :=
  (es.filter (·.iter == it)).foldl (fun st e =>
    e.idx.foldl (fun st i => if e.msg then (st.1, st.2.setIfInBounds i 0) else (st.1.setIfInBounds i 0, st.2)) st) st

/-- The hard decisions. -/
def hardOf (app : Array Int) : Array Bool := app.map fun v => decide (v < 0)

/-- Iterate up to `n` more times: decisions, iterations done, zero syndrome. -/
def minSumRun (rate off : Nat) (es : List StoreErr) : Nat → Nat → Array Int × Array Int → Array Bool × Nat × Bool
  | 0, it, st => (hardOf st.1, it, false)
  | n + 1, it, st =>
    let st := minSumIter rate off (storeLost es it st)
    let d := hardOf st.1
    if syndromeZero rate (fun i => d.getD i false) then (d, it + 1, true) else minSumRun rate off es n (it + 1) st

/-- A decoded codeword: its decisions, its iteration count, whether its syndrome is zero. -/
structure CwDec where
  bits : Array Bool
  iters : Nat
  ok : Bool
  deriving DecidableEq, Repr

/-- The channel metrics of each codeword, from those of the data symbols in slot order (R174). -/
def cwMetrics (w : Word) (ms : Array Int) : Array (Array Int) :=
  (List.range (79380 * fmtM w)).foldl (fun a i =>
    let p := levelPlace w (i / fmtM w) (i % fmtM w)
    a.modify p.1 fun c => c.setIfInBounds p.2 (clampI (-31) 31 (ms.getD i 0)))
    (Array.replicate (fmtK w) (Array.replicate 31752 (0 : Int)))

/-- Decode codeword `k` from its channel metrics, up to `n` iterations. -/
def cwDecode (w : Word) (off n : Nat) (es : List StoreErr) (k : Nat) (ms : Array Int) : CwDec :=
  let r := minSumRun (fmtRate w) off (es.filter (·.cw == k)) n 0
    (ms, Array.replicate (msgBase (fmtRate w) (84 - ldpcK (fmtRate w))) (0 : Int))
  ⟨r.1, r.2.1, r.2.2⟩

/-- Decode every codeword of a frame, up to `n` iterations each. -/
def frameDecode (w : Word) (off n : Nat) (ms : Array Int) (es : List StoreErr) : List CwDec :=
  (cwMetrics w ms).toList.zipIdx.map fun p => cwDecode w off n es p.2 p.1

/-! ### Logarithms, exactly -/

/-- The greatest number of `n` bits that passes a test which holds up to some point, above `b`. -/
def bitSearch (ok : Nat → Bool) : Nat → Nat → Nat
  | 0, b => b
  | n + 1, b => bitSearch ok n (if ok (b + 2 ^ n) then b + 2 ^ n else b)

/-- round(mul × log10(a ÷ b)) for a ≥ b > 0, by comparing powers. -/
def logUp (mul a b : Nat) : Nat := bitSearch (fun k => decide (10 ^ (2 * k - 1) * b ^ (2 * mul) ≤ a ^ (2 * mul))) 16 0

/-- round(mul × log10(a ÷ b)). -/
def logRatio (mul a b : Nat) : Int := if b ≤ a then (logUp mul a b : Int) else -(logUp mul b a : Int)

/-- A bit error ratio as −log10 in 1/256 (R107, R185). -/
def berLog (flips bits : Nat) : Nat := if flips = 0 ∨ bits = 0 then 0xFFFF else (logRatio 256 bits flips).toNat

/-- The thresholds of R186 in units of 10^-4: caps 6, 10, 14 and 20. -/
def fecThr (rate : Nat) : List (Nat × Nat) :=
  [6, 10, 14, 20].zip (match rate with | 0 => [310, 360, 380, 390] | 1 => [190, 220, 240, 250] | _ => [160, 185, 200, 210])

/-- The threshold at a cap as (numerator ÷ denominator)^(1 ÷ root): linear in its logarithm between the listed caps. -/
def fecThrAt (rate cap : Nat) : Nat × Nat × Nat :=
  let t := fecThr rate
  let lo := (t.filter (·.1 ≤ max 6 cap)).getLastD (6, 1)
  let hi := (t.find? fun p => decide (cap ≤ p.1)).getD lo
  let d := hi.1 - lo.1
  if d = 0 then (lo.2, 10000, 1) else (lo.2 ^ (hi.1 - cap) * hi.2 ^ (cap - lo.1), 10000 ^ d, d)

/-- Sum of ±t ÷ (2n + 1) over the terms t, t ÷ k², …, in units of 2^-p when t is 2^p ÷ k: the arc tangent of 1 ÷ k. -/
def atanSum (k : Nat) : Nat → Nat → Nat → Int
  | 0, _, _ => 0
  | f + 1, n, t => if t = 0 then 0 else (if n % 2 = 0 then Int.ofNat (t / (2 * n + 1)) else -Int.ofNat (t / (2 * n + 1))) + atanSum k f (n + 1) (t / (k * k))

/-- π in units of 2^-p, by Machin's formula. -/
def piFix (p : Nat) : Nat := (16 * atanSum 5 p 0 (2 ^ p / 5) - 4 * atanSum 239 p 0 (2 ^ p / 239)).toNat

/-- 1 ÷ √(2π) in units of 2^-p. -/
def normConst (p : Nat) : Nat := bitSearch (fun k => decide (2 * piFix p * k ^ 2 ≤ 2 ^ (3 * p))) p 0

/-- Sum of ±t ÷ (2n + 1) over the terms t, t × q² ÷ 2(n + 1), …: q is in 2^-32. -/
def erfSum (q : Nat) : Nat → Nat → Nat → Int
  | 0, _, _ => 0
  | f + 1, n, t => if t = 0 then 0 else (if n % 2 = 0 then Int.ofNat (t / (2 * n + 1)) else -Int.ofNat (t / (2 * n + 1))) +
    erfSum q f (n + 1) (t * (q * q) / (2 ^ 65 * (n + 1)))

/-- 0.5 × erfc(q ÷ √2) in units of 2^-p, by its power series: `c` is 1 ÷ √(2π) in those units, q is in 2^-32. -/
def normTail (p c q : Nat) : Int := 2 ^ (p - 1) - c * erfSum q (9 * p) 0 (q * 2 ^ p / 2 ^ 32) / 2 ^ p

/-- The value q, in 2^-32, for which 0.5 × erfc(q ÷ √2) equals (num ÷ den)^(1 ÷ root) < 1/2 (R187).  As the tail is below
e^(-q² ÷ 2), a q whose square is above 2 × (`l` + 1) is too large. -/
def qOf (num den root : Nat) : Nat :=
  let l := (Nat.log2 den - Nat.log2 num) / root + 1
  let p := 128 + 2 * l
  let c := normConst p
  bitSearch (fun q => decide (q ^ 2 ≤ 2 ^ 65 * (l + 1)) && decide ((num : Int) * 2 ^ (p * root) ≤ normTail p c q ^ root * den)) 38 0

/-- The correction margin in 1/16 dB (R187). -/
def fecMargin (ber rate cap : Nat) : Nat :=
  if ber = 0xFFFF then 0x7FFF
  else if 10 ^ ber ≤ 2 ^ 256 then Config.marginOpen ber rate cap
  else
    let t := fecThrAt rate cap
    twos 16 (clampI (-0x8000) 0x7FFE (logRatio 320 (qOf 1 (10 ^ ber) 256) (qOf t.1 t.2.1 t.2.2)))

/-! ### The head (R96, R97) -/

/-- `n` output bits of a Fibonacci register of `w` stages whose second tap is stage `t` − 1. -/
def lfsrBits (w t : Nat) : Nat → Nat → List Bool
  | 0, _ => []
  | n + 1, r =>
    r.testBit (w - 1) :: lfsrBits w t n ((2 * r + b2n (r.testBit (w - 1) != r.testBit (t - 1))) % 2 ^ w)

/-- The sync word's bits of a polarisation, I and Q in turn. -/
def syncBits (compat : Bool) (pol : Nat) : List Bool :=
  if compat then let h := lfsrBits 15 14 128 (if pol = 0 then 0x0F0F else 0x70F0); h ++ h
  else lfsrBits 15 14 256 (if pol = 0 then 0x2A3D else 0x15C2)

/-- The pilots' bits of a polarisation. -/
def pilotBits (pol : Nat) : List Bool := lfsrBits 11 9 1260 (if pol = 0 then 0x7FF else 0x3A5)

/-- The parity of the bits of `m` selected by a generator polynomial. -/
def convTap (g m : Nat) : Bool := popCount 7 (g &&& m) % 2 == 1

/-- The coded bits c of a head's bits (R97 step 1).  The window holds u_i as the most significant of seven bits. -/
def convBits : Nat → List Bool → List Bool
  | _, [] => []
  | mem, u :: us => let m := 64 * b2n u + mem; convTap 0o171 m :: convTap 0o133 m :: convBits (m / 2) us

/-- The overhead field's 2,048 bits in the order of their positions (R97): X-I, X-Q, Y-I, Y-Q. -/
def headBits (h : List Byte) : List Bool :=
  let us := bytesBits h
  let c := (convBits ((us.drop 1018).foldl (fun m u => m / 2 + 32 * b2n u) 0) us).toArray
  (List.range 2048).map fun j => c.getD (64 * (j % 32) + j / 32) false

/-- g × 2^32 (R198). -/
def gainFix (w : Word) : Nat := let p := fmtPower w; isqrt (2 ^ 64 * p.2 / max 1 p.1)

end Sys2Proof.Machine
end

