-- ==== Sys2Proof/Machine/Dsp.lean ====
section
/-! DEFINITION. Signal arithmetic of the transmit shaper and the receive DSP (R201, R206, R251-R274).  The spec gives no
word lengths: real values are integers in units of 2^-32 unless a name says otherwise, and products round down (DESIGN
CHOICE). -/

namespace Sys2Proof.Machine

/-! ### Complex values -/

/-- A complex value in units of 2^-32. -/
structure Cx where
  re : Int := 0
  im : Int := 0
  deriving DecidableEq, Repr

def Cx.add (a b : Cx) : Cx := ⟨a.re + b.re, a.im + b.im⟩
def Cx.sub (a b : Cx) : Cx := ⟨a.re - b.re, a.im - b.im⟩
def Cx.neg (a : Cx) : Cx := ⟨-a.re, -a.im⟩
def Cx.conj (a : Cx) : Cx := ⟨a.re, -a.im⟩
def Cx.mul (a b : Cx) : Cx := ⟨(a.re * b.re - a.im * b.im) / 2 ^ 32, (a.re * b.im + a.im * b.re) / 2 ^ 32⟩
/-- A value times a real one. -/
def Cx.scale (a : Cx) (k : Int) : Cx := ⟨a.re * k / 2 ^ 32, a.im * k / 2 ^ 32⟩
/-- A value divided by 2^n. -/
def Cx.shr (a : Cx) (n : Nat) : Cx := ⟨a.re / 2 ^ n, a.im / 2 ^ n⟩
/-- |a|². -/
def Cx.pow (a : Cx) : Nat := ((a.re * a.re + a.im * a.im) / 2 ^ 32).toNat
/-- |a|. -/
def Cx.abs (a : Cx) : Nat := isqrt (a.re * a.re + a.im * a.im).toNat
def Cx.one : Cx := ⟨2 ^ 32, 0⟩
def Cx.sum (xs : List Cx) : Cx := xs.foldl Cx.add {}

/-- A quotient of complex values, 0 where the divisor is 0. -/
def Cx.div (a b : Cx) : Cx :=
  let d := b.re * b.re + b.im * b.im
  if d = 0 then {} else ⟨(a.re * b.re + a.im * b.im) * 2 ^ 32 / d, (a.im * b.re - a.re * b.im) * 2 ^ 32 / d⟩

/-- The terms of e^(ix) from the `n`-th on: x, the term before and the sum in 2^-64. -/
def cisTerms (x : Int) : Nat → Nat → Int × Int → Int × Int → Int × Int
  | 0, _, _, a => a
  | f + 1, n, t, a =>
    let u : Int × Int := (-(t.2 * x) / (2 ^ 64 * n), t.1 * x / (2 ^ 64 * n))
    cisTerms x f (n + 1) u (a.1 + u.1, a.2 + u.2)

/-- e^(2πit), `t` in 2^-32 turns. -/
def cis (t : Int) : Cx :=
  let q := (t + 2 ^ 29) / 2 ^ 30
  let r := cisTerms ((t - q * 2 ^ 30) * (2 * piFix 64) / 2 ^ 32) 24 1 (2 ^ 64, 0) (2 ^ 64, 0)
  let c := r.1 / 2 ^ 32
  let s := r.2 / 2 ^ 32
  if q % 4 = 0 then ⟨c, s⟩ else if q % 4 = 1 then ⟨-s, c⟩ else if q % 4 = 2 then ⟨-c, -s⟩ else ⟨s, -c⟩

/-- A phase in turns brought into −1/2 ≤ t < 1/2. -/
def turn (t : Int) : Int := (t + 2 ^ 31) % 2 ^ 32 - 2 ^ 31

/-- The angle of a value in 2^-32 turns, 0 for 0. -/
def Cx.arg (a : Cx) : Int :=
  if a.re = 0 ∧ a.im = 0 then 0
  else
    let q : Int × Cx := if 0 < a.re ∧ 0 ≤ a.im then (0, a) else if a.re ≤ 0 ∧ 0 < a.im then (1, ⟨a.im, -a.re⟩)
      else if a.re < 0 then (2, a.neg) else (3, ⟨-a.im, a.re⟩)
    turn (q.1 * 2 ^ 30 + bitSearch (fun k => let e := cis k; decide (0 ≤ e.re * q.2.im - e.im * q.2.re)) 30 0)

/-- A square root: half the angle, the root of the magnitude. -/
def Cx.sqrt (a : Cx) : Cx := (cis (a.arg / 2)).scale (isqrt (a.abs * 2 ^ 32))

/-- ln(j ÷ (j − 1)) × 2^65. -/
def lnStep (j : Nat) : Nat := (List.range 24).foldl (fun a t => a + 2 ^ 66 / ((2 * t + 1) * (2 * j - 1) ^ (2 * t + 1))) 0

/-- ln(n) × 2^32. -/
def lnFix (n : Nat) : Int := (((List.range (n - 1)).foldl (fun a i => a + lnStep (i + 2)) 0 / 2 ^ 33 : Nat) : Int)

/-- The terms of e^y from the `n`-th on, in 2^-96. -/
def expTerms (y : Int) : Nat → Nat → Int → Int → Int
  | 0, _, _, a => a
  | f + 1, n, t, a => let u := t * y / (2 ^ 96 * n); expTerms y f (n + 1) u (a + u)

/-- e^x in 2^-32, x in 2^-32: the 256th power of e^(x ÷ 256). -/
def expFix (x : Int) : Int := (List.range 8).foldl (fun a _ => a * a / 2 ^ 96) (expTerms (x * 2 ^ 56) 24 1 (2 ^ 96) (2 ^ 96)) / 2 ^ 64

/-! ### Transforms -/

/-- The transform of a block, with e^(sgn × 2πi × km ÷ N). -/
def dft (sgn : Int) (xs : Array Cx) : Array Cx :=
  ((List.range xs.size).map fun k => Cx.sum ((List.range xs.size).map fun m => (xs.getD m {}).mul (cis (sgn * (k * m : Nat) * 2 ^ 32 / xs.size)))).toArray

/-- The inverse transform of a spectrum. -/
def invDft (xs : Array Cx) : Array Cx := (dft 1 xs).map fun a => ⟨a.re / xs.size, a.im / xs.size⟩

/-- The signed frequency index of bin `k` of `n`. -/
def binFreq (n k : Nat) : Int := if 2 * k < n then k else (k : Int) - n

/-- A block through a filter whose response at each signed frequency index is a phase in turns. -/
def allPass (phase : Int → Int) (xs : Array Cx) : Array Cx :=
  let n := xs.size
  invDft ((dft (-1) xs).zipIdx.map fun p => p.1.mul (cis (phase (binFreq n p.2))))

/-- The phase, in 2^-32 turns, that cancels a dispersion of `d` ps/nm at frequency index `k` of `n` bins when the block holds
`num ÷ den` samples per symbol: −spread × (f ÷ Rs)² ÷ 2, with `u` the spread of 1 ps/nm (R256, R257).  DEDUCED: the field is
written as e^(+2πift). -/
def cdPhase (u : Nat × Nat) (d : Int) (num den n : Nat) (k : Int) : Int :=
  -(d * u.1 * k * k * (num * num : Nat) * 2 ^ 31) / (max 1 (u.2 * (den * den) * (n * n)) : Nat)

/-! ### Interpolation -/

/-- The weights of the cubic through the points −1, 0, 1 and 2 at μ (R254). -/
def cubicW (m : Int) : List Int :=
  let a := 2 ^ 32
  [-(m * (m - a) * (m - 2 * a)) / (6 * 2 ^ 64), (m + a) * (m - a) * (m - 2 * a) / (2 * 2 ^ 64),
   -((m + a) * m * (m - 2 * a)) / (2 * 2 ^ 64), (m + a) * m * (m - a) / (6 * 2 ^ 64)]

/-- A sequence of real values at `n` + μ. -/
def cubicAt (g : Int → Int) (n m : Int) : Int :=
  (cubicW m).zipIdx.foldl (fun a p => a + p.1 * g (n + p.2 - 1)) 0 / 2 ^ 32

/-- A sequence of complex values at `n` + μ. -/
def cubicCx (g : Int → Cx) (n m : Int) : Cx :=
  Cx.sum ((cubicW m).zipIdx.map fun p => (g (n + p.2 - 1)).scale p.1)

/-- A sequence delayed by `d` ÷ 256 of its steps.  Whole steps are exact; the interpolation of a fraction is a free value of
the fraction and the steps around it (R206, R252). -/
def delayed (g : Int → Int) (d n : Int) : Int :=
  let k := n - (d + 255) / 256
  let f := ((d + 255) / 256 * 256 - d).toNat
  if f = 0 then g k else (Config.fracTaps f).zipIdx.foldl (fun a p => a + p.1 * g (k + p.2 - 15)) 0 / 2 ^ 32

end Sys2Proof.Machine
end

