-- ==== Sys2Proof/Machine/RegMap.lean ====
section
/-! DEFINITION. The BAR0 register description table: every register of the spec's register tables, with the bits,
access code, reset value and legal range of each of its fields (R14, R16-R18, R497).  Bits that no field covers are
reserved.  Line sub-block registers are described once, at the offsets they have in LNA. -/

namespace Sys2Proof.Machine

/-- The access codes of R14. -/
inductive Acc where
  | rw | ro | rw1c | wo | rwo
  deriving DecidableEq, Repr

/-- The legal values of a writable field (R17), as the Meaning column of its table states them. -/
inductive Legal where
  /-- Every value of the field's width. -/
  | any
  /-- `lo` to `hi`. -/
  | rng (lo hi : Nat)
  /-- Zero, or `lo` to `hi`. -/
  | zrng (lo hi : Nat)
  /-- Odd, `lo` to `hi`. -/
  | odd (lo hi : Nat)
  /-- A multiple of `m`. -/
  | mult (m : Nat)
  /-- A multiple of `m`, `lo` to `hi`. -/
  | multRng (m lo hi : Nat)
  /-- A two's complement value of `width` bits whose magnitude is at most `lim`. -/
  | srng (width lim : Nat)
  /-- One of the values listed. -/
  | oneOf (vs : List Nat)
  deriving DecidableEq, Repr

/-- Whether a field may hold the value (R17). -/
def Legal.ok : Legal → Nat → Bool
  | .any, _ => true
  | .rng lo hi, v => decide (lo ≤ v) && decide (v ≤ hi)
  | .zrng lo hi, v => v == 0 || (decide (lo ≤ v) && decide (v ≤ hi))
  | .odd lo hi, v => decide (lo ≤ v) && decide (v ≤ hi) && v % 2 == 1
  | .mult m, v => v % m == 0
  | .multRng m lo hi, v => v % m == 0 && decide (lo ≤ v) && decide (v ≤ hi)
  | .srng w lim, v => decide (v ≤ lim) || decide (2 ^ w ≤ v + lim)
  | .oneOf vs, v => vs.contains v

/-- One field of a register. -/
structure Fld where
  hi : Nat
  lo : Nat
  acc : Acc
  reset : Nat
  legal : Legal
  deriving DecidableEq, Repr

/-- One register, or one array of registers: `dims` lists (count, stride) with the widest stride first. -/
structure RegDesc where
  base : Nat
  dims : List (Nat × Nat)
  flds : List Fld
  deriving DecidableEq, Repr

/-- A field without a stated range. -/
abbrev fA (hi lo : Nat) (acc : Acc) (reset : Nat) : Fld := ⟨hi, lo, acc, reset, .any⟩

/-- Whether a byte distance from an array's base is the start of one of its elements. -/
def dimsHit : List (Nat × Nat) → Nat → Bool
  | [], d => d == 0
  | (count, stride) :: rest, d => decide (d / stride < count) && dimsHit rest (d % stride)

/-- Whether the (local) offset is a register of this description. -/
def RegDesc.hit (r : RegDesc) (off : Nat) : Bool := decide (r.base ≤ off) && dimsHit r.dims (off - r.base)

/-- GLB registers. -/
def regsGLB : List RegDesc := [
  -- GLB_TICK_CNT_LO: TICK_LO
  ⟨0x80, [], [fA 31 0 .ro 0x0]⟩,
  -- GLB_TICK_CNT_HI: TICK_HI
  ⟨0x84, [], [fA 31 0 .ro 0x0]⟩,
  -- GLB_TICK_STATUS: TB_LOCKED HOLDOVER OVERRUN_CNT
  ⟨0x88, [], [fA 0 0 .ro 0x0, fA 1 1 .ro 0x0, fA 31 16 .ro 0x0]⟩,
  -- GLB_TICK_EVENT: OVERRUN LATE_ACTION FRAME_REJECT
  ⟨0x8C, [], [fA 0 0 .rw1c 0x0, fA 1 1 .rw1c 0x0, fA 2 2 .rw1c 0x0]⟩,
  -- GLB_TICK_EVENT_EN: EN
  ⟨0x90, [], [fA 2 0 .rw 0x7]⟩,
  -- GLB_LINE_CTL: ENG_EN_0 TX_EN_0 RX_EN_0 ENG_EN_1 TX_EN_1 RX_EN_1
  ⟨0x94, [], [fA 0 0 .rwo 0x0, fA 1 1 .rwo 0x0, fA 2 2 .rwo 0x0, fA 4 4 .rwo 0x0, fA 5 5 .rwo 0x0, fA 6 6 .rwo 0x0]⟩,
  -- GLB_LINE_STATUS: STATE_0 STATE_1
  ⟨0x98, [], [fA 1 0 .ro 0x0, fA 3 2 .ro 0x0]⟩,
  -- GLB_ID: REV PART
  ⟨0x0, [], [fA 7 0 .ro 0xB0, fA 31 16 .ro 0x64]⟩,
  -- GLB_DEVICE_ID_LO: ID
  ⟨0x8, [], [fA 31 0 .ro 0x0]⟩,
  -- GLB_DEVICE_ID_HI: ID
  ⟨0xC, [], [fA 31 0 .ro 0x0]⟩,
  -- GLB_SCRATCH: DATA
  ⟨0x10, [], [fA 31 0 .rw 0x0]⟩,
  -- GLB_HOST_STATUS: BOOT_STEP READY LINK_GEN LINK_WIDTH
  ⟨0xA0, [], [fA 2 0 .ro 0x0, fA 3 3 .ro 0x0, fA 7 4 .ro 0x0, fA 10 8 .ro 0x0]⟩,
  -- GLB_HOST_EVENT: WR_REJ ACC_ERR DMA_ERR DMA_TIMEOUT LINK_DOWN PCIE_RESET
  ⟨0xA4, [], [fA 0 0 .rw1c 0x0, fA 1 1 .rw1c 0x0, fA 2 2 .rw1c 0x0, fA 3 3 .rw1c 0x0, fA 4 4 .rw1c 0x0, fA 5 5 .rw1c 0x0]⟩,
  -- GLB_HOST_EVENT_EN: EN
  ⟨0xA8, [], [fA 5 0 .rw 0x3C]⟩,
  -- GLB_REJ_LOG_0: OFFSET CAUSE VALID
  ⟨0xB0, [], [fA 23 0 .ro 0x0, fA 27 24 .ro 0x0, fA 31 31 .rw1c 0x0]⟩,
  -- GLB_REJ_LOG_1: VALUE
  ⟨0xB4, [], [fA 31 0 .ro 0x0]⟩,
  -- GLB_REJ_LOG_2: TICK
  ⟨0xB8, [], [fA 31 0 .ro 0x0]⟩,
  -- GLB_ACC_LOG_0: OFFSET KIND VALID
  ⟨0xC0, [], [fA 21 0 .ro 0x0, fA 23 22 .ro 0x0, fA 31 31 .rw1c 0x0]⟩,
  -- GLB_ACC_LOG_1: TICK
  ⟨0xC4, [], [fA 31 0 .ro 0x0]⟩,
  -- MSIX_ADDR_LO: ADDR
  ⟨0x2000, [(64, 16)], [fA 31 0 .rw 0x0]⟩,
  -- MSIX_ADDR_HI: ADDR
  ⟨0x2004, [(64, 16)], [fA 31 0 .rw 0x0]⟩,
  -- MSIX_DATA: DATA
  ⟨0x2008, [(64, 16)], [fA 31 0 .rw 0x0]⟩,
  -- MSIX_CTL: MASK
  ⟨0x200C, [(64, 16)], [fA 0 0 .rw 0x1]⟩,
  -- MSIX_PBA: PEND
  ⟨0x3000, [(2, 4)], [fA 31 0 .ro 0x0]⟩]

/-- CFG registers, part 1. -/
def regsCFG0 : List RegDesc := [
  -- CFG_INFO: HW_CLASS
  ⟨0x10000, [], [fA 7 0 .ro 0xC]⟩,
  -- CFG_STATUS: RUN_SLOT SAFE HEALTH_RUN PROVEN ROLLED_BACK OVR_UNLOCKED COMMIT NVM_WIDTH HDR_COPY
  ⟨0x10010, [], [fA 1 0 .ro 0x0, fA 2 2 .ro 0x0, fA 3 3 .ro 0x0, fA 4 4 .ro 0x0, fA 5 5 .ro 0x0, fA 6 6 .ro 0x0, fA 8 7 .ro 0x0, fA 10 9 .ro 0x0, fA 11 11 .ro 0x0]⟩,
  -- CFG_EVENT: IMAGE_BAD SAFE_MODE HEALTH_PASS HEALTH_FAIL ROLLBACK CMD_DONE CMD_ERR COMMIT_DONE COMMIT_ABANDON OVERRIDE NVM_TIMEOUT REPAIR_FULL EPOCH_WRAP MARKER_FAIL
  ⟨0x10014, [], [fA 0 0 .rw1c 0x0, fA 1 1 .rw1c 0x0, fA 2 2 .rw1c 0x0, fA 3 3 .rw1c 0x0, fA 4 4 .rw1c 0x0, fA 5 5 .rw1c 0x0, fA 6 6 .rw1c 0x0, fA 7 7 .rw1c 0x0, fA 8 8 .rw1c 0x0, fA 9 9 .rw1c 0x0, fA 10 10 .rw1c 0x0, fA 11 11 .rw1c 0x0, fA 12 12 .rw1c 0x0, fA 13 13 .rw1c 0x0]⟩,
  -- CFG_EVENT_EN: EN
  ⟨0x10018, [], [fA 13 0 .rw 0x2D1B]⟩,
  -- CFG_IMAGE_VER: VER
  ⟨0x10020, [], [fA 31 0 .ro 0x0]⟩,
  -- CFG_EPOCH: EPOCH
  ⟨0x10024, [], [fA 31 0 .ro 0x0]⟩,
  -- CFG_MIN_VER: MIN_VER
  ⟨0x10028, [], [fA 31 0 .ro 0x0]⟩,
  -- CFG_SLOT: HDR_OK STAGED COMMITTED PROVEN BAD ATTEMPTS BAD_CAUSE
  ⟨0x10030, [(4, 4)], [fA 0 0 .ro 0x0, fA 1 1 .ro 0x0, fA 2 2 .ro 0x0, fA 3 3 .ro 0x0, fA 4 4 .ro 0x0, fA 6 5 .ro 0x0, fA 11 8 .ro 0x0]⟩,
  -- CFG_SLOT_VER: VER
  ⟨0x10040, [(4, 4)], [fA 31 0 .ro 0x0]⟩,
  -- CFG_HEALTH: ACK REMAIN
  ⟨0x10050, [], [fA 0 0 .rw 0x0, fA 31 16 .ro 0x0]⟩,
  -- CFG_HEALTH_FAIL: FAILED
  ⟨0x10054, [], [fA 15 0 .ro 0x0]⟩,
  -- CFG_CMD: OP SLOT GO
  ⟨0x10060, [], [⟨3, 0, .rw, 0x1, .rng 1 9⟩, fA 5 4 .rw 0x0, fA 6 6 .rw 0x0]⟩,
  -- CFG_CMD_SRC: OFFSET
  ⟨0x10064, [], [⟨21, 0, .rw, 0x0, .mult 16⟩]⟩,
  -- CFG_CMD_DST: OFFSET
  ⟨0x10068, [], [⟨23, 0, .rw, 0x0, .multRng 16 0 12578800⟩]⟩,
  -- CFG_CMD_LEN: LEN
  ⟨0x1006C, [], [⟨22, 0, .rw, 0x10, .multRng 16 16 4194304⟩]⟩,
  -- CFG_CMD_RESULT: CODE REC
  ⟨0x10070, [], [fA 3 0 .ro 0x0, fA 31 16 .ro 0x0]⟩,
  -- CFG_ACT_TICK_LO: TICK
  ⟨0x10080, [], [fA 31 0 .rw 0x0]⟩,
  -- CFG_ACT_TICK_HI: TICK
  ⟨0x10084, [], [fA 31 0 .rw 0x0]⟩,
  -- CFG_ACT_TXF_LO: F
  ⟨0x10090, [(2, 16)], [fA 31 0 .rw 0x0]⟩,
  -- CFG_ACT_TXF_HI: F
  ⟨0x10094, [(2, 16)], [fA 31 0 .rw 0x0]⟩,
  -- CFG_ACT_RXF_LO: F
  ⟨0x10098, [(2, 16)], [fA 31 0 .rw 0x0]⟩,
  -- CFG_ACT_RXF_HI: F
  ⟨0x1009C, [(2, 16)], [fA 31 0 .rw 0x0]⟩,
  -- CFG_OVR: KEY UNLOCK
  ⟨0x100C0, [], [fA 15 0 .wo 0x0, fA 16 16 .rw 0x0]⟩,
  -- CFG_OVR_CNT: CNT
  ⟨0x100C4, [], [fA 31 0 .ro 0x0]⟩]

/-- CFG registers, part 2. -/
def regsCFG1 : List RegDesc := [
  -- CFG_BOOT_TIME: TICKS
  ⟨0x100C8, [], [fA 31 0 .ro 0x0]⟩]

/-- CFG registers. -/
def regsCFG : List RegDesc := regsCFG0 ++ regsCFG1

/-- FLT registers. -/
def regsFLT : List RegDesc := [
  -- FLT_CTL: WDOG_REBOOT
  ⟨0x20000, [], [fA 0 0 .rwo 0x1]⟩,
  -- FLT_STATUS: DEGRADED POOLS SERVICE FAULT THERM LINE_HELD SEQ_HARD XO_FAIL MOR_OK
  ⟨0x20010, [], [fA 0 0 .ro 0x0, fA 4 1 .ro 0x0, fA 5 5 .ro 0x0, fA 6 6 .ro 0x0, fA 7 7 .ro 0x0, fA 9 8 .ro 0x0, fA 10 10 .ro 0x0, fA 11 11 .ro 0x0, fA 12 12 .ro 0x0]⟩,
  -- FLT_EVENT: DEGRADED SEQ_FAULT WDOG XO_FAIL MOR_FAIL MOR_LOST MOR_RD_DONE SERVICE_ON
  ⟨0x20014, [], [fA 0 0 .rw1c 0x0, fA 1 1 .rw1c 0x0, fA 2 2 .rw1c 0x0, fA 3 3 .rw1c 0x0, fA 4 4 .rw1c 0x0, fA 5 5 .rw1c 0x0, fA 6 6 .rw1c 0x0, fA 7 7 .rw1c 0x0]⟩,
  -- FLT_EVENT_EN: EN
  ⟨0x20018, [], [fA 7 0 .rw 0xBF]⟩,
  -- FLT_SUMMARY: BLOCKS LNA LNB
  ⟨0x20020, [], [fA 13 0 .ro 0x0, fA 21 16 .ro 0x0, fA 29 24 .ro 0x0]⟩,
  -- FLT_RESET_CAUSE: CAUSE
  ⟨0x20024, [], [fA 2 0 .ro 0x0]⟩,
  -- FLT_MOR_IDX: IDX
  ⟨0x20028, [], [fA 15 0 .ro 0x0]⟩,
  -- FLT_MOR_SEQ: SEQ
  ⟨0x2002C, [], [fA 31 0 .ro 0x0]⟩,
  -- FLT_MOR_LOST: LOST QUEUED
  ⟨0x20030, [], [fA 15 0 .ro 0x0, fA 22 16 .ro 0x0]⟩,
  -- FLT_MOR_RD_IDX: IDX
  ⟨0x20040, [], [fA 15 0 .rw 0x0]⟩,
  -- FLT_MOR_RD_CNT: CNT
  ⟨0x20044, [], [⟨8, 0, .rw, 0x1, .rng 1 256⟩]⟩,
  -- FLT_MOR_RD_DST: OFFSET
  ⟨0x20048, [], [⟨21, 0, .rw, 0x0, .mult 64⟩]⟩,
  -- FLT_MOR_RD_CTL: GO
  ⟨0x2004C, [], [fA 0 0 .rw 0x0]⟩,
  -- FLT_SEQ_CNT: CNT
  ⟨0x20050, [], [fA 15 0 .ro 0x0]⟩]

/-- THM registers. -/
def regsTHM : List RegDesc := [
  -- THM_CTL: WARN_PIN
  ⟨0x30000, [], [fA 0 0 .rwo 0x0]⟩,
  -- THM_STATUS: CORE_BAND TILE_A_BAND TILE_B_BAND CAP_THERM HOT SHUTDOWN GATE ALL_FULL
  ⟨0x30010, [], [fA 2 0 .ro 0x0, fA 5 3 .ro 0x0, fA 8 6 .ro 0x0, fA 13 9 .ro 0x14, fA 14 14 .ro 0x0, fA 15 15 .ro 0x0, fA 16 16 .ro 0x0, fA 17 17 .ro 0x0]⟩,
  -- THM_EVENT: BAND_CHG HOT_ON HOT_OFF SHUTDOWN SENSOR_FAULT NO_PAIR GATE_CLEAR
  ⟨0x30014, [], [fA 0 0 .rw1c 0x0, fA 1 1 .rw1c 0x0, fA 2 2 .rw1c 0x0, fA 3 3 .rw1c 0x0, fA 4 4 .rw1c 0x0, fA 5 5 .rw1c 0x0, fA 6 6 .rw1c 0x0]⟩,
  -- THM_EVENT_EN: EN
  ⟨0x30018, [], [fA 6 0 .rw 0x3A]⟩,
  -- THM_SENS_FLT: FAULTY
  ⟨0x30020, [], [fA 23 0 .ro 0x0]⟩,
  -- THM_TEMPS: T_J T_CORE
  ⟨0x30024, [], [fA 15 0 .ro 0x0, fA 31 16 .ro 0x0]⟩,
  -- THM_T: FILT RAW
  ⟨0x30100, [(24, 4)], [fA 15 0 .ro 0x0, fA 31 16 .ro 0x0]⟩]

/-- MON registers. -/
def regsMON : List RegDesc := [
  -- MON_CTL: EN REF LEN RETEST
  ⟨0x38000, [(3, 4)], [fA 0 0 .rwo 0x1, ⟨2, 1, .rwo, 0x0, .rng 0 2⟩, ⟨9, 3, .rwo, 0x9, .rng 1 64⟩, fA 10 10 .rw 0x0]⟩,
  -- MON_VREF: VREF_MV
  ⟨0x3800C, [], [⟨11, 0, .rwo, 0x4B0, .rng 1000 1250⟩]⟩,
  -- MON_STATUS: SETTLED ISOLATED
  ⟨0x38010, [], [fA 2 0 .ro 0x0, fA 5 3 .ro 0x0]⟩,
  -- MON_EVENT: EXCURSION EXC_CLEAR MON_FAULT XCHK_UNDET URG_DROP URG_REJECT URG_DONE REF_SETTLED
  ⟨0x38014, [], [fA 0 0 .rw1c 0x0, fA 1 1 .rw1c 0x0, fA 2 2 .rw1c 0x0, fA 3 3 .rw1c 0x0, fA 4 4 .rw1c 0x0, fA 5 5 .rw1c 0x0, fA 6 6 .rw1c 0x0, fA 7 7 .rw1c 0x0]⟩,
  -- MON_EVENT_EN: EN
  ⟨0x38018, [], [fA 7 0 .rw 0xD]⟩,
  -- MON_URG: ENTRY UNIT GO
  ⟨0x38020, [], [fA 5 0 .rw 0x0, ⟨7, 6, .rw, 0x0, .rng 0 2⟩, fA 8 8 .rw 0x0]⟩,
  -- MON_XCHK: VALUE
  ⟨0x38030, [(3, 4)], [fA 15 0 .ro 0x0]⟩,
  -- MON_LIST: SRC DEB VALID
  ⟨0x38100, [(3, 256), (64, 4)], [fA 7 0 .rwo 0x0, ⟨11, 8, .rwo, 0x3, .rng 1 15⟩, fA 31 31 .rwo 0x1]⟩,
  -- MON_LIM: LO HI
  ⟨0x38400, [(3, 256), (64, 4)], [fA 15 0 .rwo 0x0, fA 31 16 .rwo 0xFFFF]⟩,
  -- MON_RES: VALUE CODE SETTLED OUT ISO VALID
  ⟨0x38800, [(3, 256), (64, 4)], [fA 15 0 .ro 0x0, fA 27 16 .ro 0x0, fA 28 28 .ro 0x0, fA 29 29 .ro 0x0, fA 30 30 .ro 0x0, fA 31 31 .ro 0x0]⟩]

/-- CLK registers. -/
def regsCLK : List RegDesc := [
  -- CLK_CTL: WTR_S DIS_LIM
  ⟨0x40000, [], [⟨11, 0, .rwo, 0x12C, .rng 0 3600⟩, ⟨23, 16, .rwo, 0x32, .rng 1 255⟩]⟩,
  -- CLK_QUAL: FREQ_LIM FSLEW
  ⟨0x40004, [], [⟨6, 0, .rwo, 0x2E, .rng 1 100⟩, ⟨17, 8, .rwo, 0xA, .rng 1 1000⟩]⟩,
  -- CLK_XO: XO_KHZ
  ⟨0x40008, [], [⟨16, 0, .rwo, 0x61A8, .rng 10000 100000⟩]⟩,
  -- CLK_REFOUT: FREQ SQUELCH
  ⟨0x4000C, [], [fA 1 0 .rwo 0x0, fA 2 2 .rwo 0x1]⟩,
  -- CLK_BW: BW
  ⟨0x40010, [(4, 4)], [fA 19 0 .rwo 0x64]⟩,
  -- CLK_REFIN_KHZ: FREQ
  ⟨0x40020, [(2, 4)], [⟨17, 0, .rwo, 0x2710, .rng 10000 156250⟩]⟩,
  -- CLK_IN_CFG: RANK LANE PHIT
  ⟨0x40040, [(14, 4)], [fA 3 0 .rw 0x0, fA 9 4 .rwo 0x0, ⟨23, 16, .rwo, 0x19, .rng 1 255⟩]⟩,
  -- CLK_IN_STATUS: ACTIVE FREQ_OK QUALIFIED WTR_RUN DISPUTED OUTLIER SELECTED FOFS
  ⟨0x40080, [(14, 4)], [fA 0 0 .ro 0x0, fA 1 1 .ro 0x0, fA 2 2 .ro 0x0, fA 3 3 .ro 0x0, fA 4 4 .ro 0x0, fA 5 5 .ro 0x0, fA 6 6 .ro 0x0, fA 31 8 .ro 0x800000]⟩,
  -- CLK_STATUS: STATE SEL HOLD_QUAL
  ⟨0x400C0, [], [fA 1 0 .ro 0x0, fA 5 2 .ro 0xF, fA 6 6 .ro 0x0]⟩,
  -- CLK_EVENT: SWITCH HOLDOVER_ON HOLDOVER_OFF DISQUAL QUAL DISPUTE OUTLIER REDIRECT PHASE_HIT LOCKED
  ⟨0x400C4, [], [fA 0 0 .rw1c 0x0, fA 1 1 .rw1c 0x0, fA 2 2 .rw1c 0x0, fA 3 3 .rw1c 0x0, fA 4 4 .rw1c 0x0, fA 5 5 .rw1c 0x0, fA 6 6 .rw1c 0x0, fA 7 7 .rw1c 0x0, fA 8 8 .rw1c 0x0, fA 9 9 .rw1c 0x0]⟩,
  -- CLK_EVENT_EN: EN
  ⟨0x400C8, [], [fA 9 0 .rw 0x4B]⟩,
  -- CLK_OUT_FREQ: FREQ
  ⟨0x400D0, [], [fA 31 0 .ro 0x0]⟩,
  -- CLK_HOLD_FREQ: FREQ
  ⟨0x400D4, [], [fA 31 0 .ro 0x0]⟩,
  -- CLK_NUM_FREQ: FREQ
  ⟨0x400E0, [], [⟨31, 0, .rw, 0x0, .srng 32 100000000⟩]⟩,
  -- CLK_NUM_SLEW: SLEW
  ⟨0x400E4, [], [⟨19, 0, .rw, 0x64, .rng 1 1000000⟩]⟩,
  -- CLK_NUM_APPLIED: FREQ
  ⟨0x400E8, [], [fA 31 0 .ro 0x0]⟩]

/-- TIM registers, part 1. -/
def regsTIM0 : List RegDesc := [
  -- TIM_NOW_LO: NOW
  ⟨0x50000, [], [fA 31 0 .ro 0x0]⟩,
  -- TIM_NOW_HI: NOW
  ⟨0x50004, [], [fA 31 0 .ro 0x0]⟩,
  -- TIM_NOW_FRAC: NOW
  ⟨0x50008, [], [fA 31 0 .ro 0x0]⟩,
  -- TIM_INCR_ADJ: ADJ
  ⟨0x50010, [], [⟨31, 0, .rw, 0x0, .srng 32 8589934⟩]⟩,
  -- TIM_ACT_TICK_LO: TICK
  ⟨0x50018, [], [fA 31 0 .rw 0x0]⟩,
  -- TIM_ACT_TICK_HI: TICK
  ⟨0x5001C, [], [fA 31 0 .rw 0x0]⟩,
  -- TIM_STEP_NS: STEP
  ⟨0x50020, [], [fA 31 0 .rw 0x0]⟩,
  -- TIM_SET_LO: SET
  ⟨0x50024, [], [fA 31 0 .rw 0x0]⟩,
  -- TIM_SET_HI: SET
  ⟨0x50028, [], [fA 31 0 .rw 0x0]⟩,
  -- TIM_ADJ_CTL: STEP SET
  ⟨0x5002C, [], [fA 0 0 .rw 0x0, fA 1 1 .rw 0x0]⟩,
  -- TIM_STATUS: TOD_VALID LOADED ALIGNED TT_LOCK_A TT_LOCK_B
  ⟨0x50040, [], [fA 0 0 .ro 0x0, fA 1 1 .ro 0x0, fA 2 2 .ro 0x0, fA 3 3 .ro 0x0, fA 4 4 .ro 0x0]⟩,
  -- TIM_EVENT: TOD_MISS TOD_MISMATCH TOD_LOAD TT_LOCK TT_LOST TT_STEP ADJ_DONE ADJ_REJECT TC_UNALIGNED CMP
  ⟨0x50044, [], [fA 0 0 .rw1c 0x0, fA 1 1 .rw1c 0x0, fA 2 2 .rw1c 0x0, fA 3 3 .rw1c 0x0, fA 4 4 .rw1c 0x0, fA 5 5 .rw1c 0x0, fA 6 6 .rw1c 0x0, fA 7 7 .rw1c 0x0, fA 8 8 .rw1c 0x0, fA 12 9 .rw1c 0x0]⟩,
  -- TIM_EVENT_EN: EN
  ⟨0x50048, [], [fA 12 0 .rw 0x93]⟩,
  -- TIM_PPS_CFG: IN_DLY TOD_REQ BAUD TOD_OUT
  ⟨0x50050, [], [fA 15 0 .rwo 0x0, fA 16 16 .rwo 0x1, fA 17 17 .rwo 0x1, fA 18 18 .rwo 0x0]⟩,
  -- TIM_PPS_OUT: OFS WIDTH SQUELCH
  ⟨0x50054, [], [fA 15 0 .rwo 0x0, ⟨23, 16, .rwo, 0x64, .rng 1 200⟩, fA 24 24 .rwo 0x1]⟩,
  -- TIM_TOD_LO: SEC
  ⟨0x50058, [], [fA 31 0 .ro 0x0]⟩,
  -- TIM_TOD_HI: SEC
  ⟨0x5005C, [], [fA 31 0 .ro 0x0]⟩,
  -- TIM_CMP_LO: T
  ⟨0x50080, [(4, 16)], [fA 31 0 .rw 0x0]⟩,
  -- TIM_CMP_HI: T
  ⟨0x50084, [(4, 16)], [fA 31 0 .rw 0x0]⟩,
  -- TIM_CMP_CTL: ARM
  ⟨0x50088, [(4, 16)], [fA 0 0 .rw 0x0]⟩,
  -- TIM_TC_CFG: EN UDP4
  ⟨0x500C0, [], [fA 0 0 .rwo 0x0, fA 1 1 .rwo 0x1]⟩,
  -- TIM_PORT_ASYM: ING EGR
  ⟨0x50100, [(64, 4)], [fA 15 0 .rwo 0x0, fA 31 16 .rwo 0x0]⟩,
  -- TIM_TC_CH: MAP
  ⟨0x50200, [(16, 4)], [fA 31 0 .rwo 0x0]⟩,
  -- TIM_TT_CFG: ROLE CD_CORR AVG_LOG2
  ⟨0x50300, [(2, 64)], [⟨1, 0, .rwo, 0x0, .rng 0 2⟩, fA 2 2 .rwo 0x1, ⟨7, 4, .rwo, 0xA, .rng 0 12⟩]⟩]

/-- TIM registers, part 2. -/
def regsTIM1 : List RegDesc := [
  -- TIM_TT_TXCAR: FREQ
  ⟨0x50304, [(2, 64)], [⟨20, 0, .rwo, 0x1D8A80, .rng 1840000 2000000⟩]⟩,
  -- TIM_TT_ASYM: ASYM
  ⟨0x50308, [(2, 64)], [fA 31 0 .rwo 0x0]⟩,
  -- TIM_TT_OFS: OFS
  ⟨0x50310, [(2, 64)], [fA 31 0 .ro 0x80000000]⟩,
  -- TIM_TT_RTT: RTT
  ⟨0x50314, [(2, 64)], [fA 31 0 .ro 0xFFFFFFFF]⟩,
  -- TIM_TT_CDASYM: CDASYM
  ⟨0x50318, [(2, 64)], [fA 31 0 .ro 0x80000000]⟩,
  -- TIM_TT_FARCD: FARCD
  ⟨0x5031C, [(2, 64)], [fA 31 0 .ro 0x80000000]⟩]

/-- TIM registers. -/
def regsTIM : List RegDesc := regsTIM0 ++ regsTIM1

/-- CPH registers. -/
def regsCPH : List RegDesc := [
  -- CPH_EPOCH: EPOCH
  ⟨0x60000, [], [fA 31 0 .ro 0x0]⟩,
  -- CPH_EPOCH_STATUS: STATE TRIES
  ⟨0x60004, [], [fA 1 0 .ro 0x0, fA 4 2 .ro 0x0]⟩,
  -- CPH_EPOCH_CTL: RETRY
  ⟨0x60008, [], [fA 0 0 .rw 0x0]⟩,
  -- CPH_KEY_STATE: USAGE LOCKED IN_USE
  ⟨0x60100, [(64, 4)], [fA 2 0 .ro 0x0, fA 3 3 .ro 0x0, fA 4 4 .ro 0x0]⟩,
  -- CPH_KEY_WRAP: WRAP
  ⟨0x60200, [(10, 4)], [fA 31 0 .wo 0x0]⟩,
  -- CPH_KEY_LOAD: SLOT USAGE GO ZERO
  ⟨0x60230, [], [fA 5 0 .wo 0x0, fA 10 8 .wo 0x0, fA 11 11 .wo 0x0, fA 12 12 .wo 0x0]⟩,
  -- CPH_KEY_RESULT: CODE
  ⟨0x60234, [], [fA 2 0 .ro 0x0]⟩,
  -- CPH_HQ_CFG: LOG2 EN
  ⟨0x60300, [], [⟨3, 0, .rw, 0x4, .rng 4 12⟩, fA 4 4 .rw 0x0]⟩,
  -- CPH_HQ_DESC_BASE: BASE
  ⟨0x60304, [], [⟨21, 0, .rw, 0x0, .mult 64⟩]⟩,
  -- CPH_HQ_CPL_BASE: BASE
  ⟨0x60308, [], [⟨21, 0, .rw, 0x0, .mult 32⟩]⟩,
  -- CPH_HQ_WR: IDX
  ⟨0x6030C, [], [fA 15 0 .rw 0x0]⟩,
  -- CPH_HQ_RD: IDX
  ⟨0x60310, [], [fA 15 0 .ro 0x0]⟩,
  -- CPH_HQ_CPL_WR: IDX
  ⟨0x60314, [], [fA 15 0 .ro 0x0]⟩,
  -- CPH_HQ_CPL_RD: IDX
  ⟨0x60318, [], [fA 15 0 .rw 0x0]⟩,
  -- CPH_Q_DEPTH: DEPTH
  ⟨0x60320, [], [fA 31 0 .ro 0x0]⟩,
  -- CPH_DEVCTR: N
  ⟨0x60400, [(64, 4)], [fA 31 0 .ro 0x0]⟩,
  -- CPH_EVENT: EPOCH_FAIL KEY_LOAD_FAIL REQ_ERR KAT_FAIL
  ⟨0x60334, [], [fA 0 0 .rw1c 0x0, fA 1 1 .rw1c 0x0, fA 2 2 .rw1c 0x0, fA 3 3 .rw1c 0x0]⟩,
  -- CPH_EVENT_EN: EN
  ⟨0x60338, [], [fA 3 0 .rw 0xB]⟩]

/-- RIM registers, part 1. -/
def regsRIM0 : List RegDesc := [
  -- RIM_CTL: EN AUTH_EN REQUIRE_AUTH RESPOND_TRACE TXF_SEL SYNC_ERR CAPTURE AUTH_SLOT
  ⟨0x70000, [], [fA 0 0 .rwo 0x0, fA 1 1 .rwo 0x0, fA 2 2 .rwo 0x0, fA 3 3 .rwo 0x1, fA 4 4 .rwo 0x0, fA 10 8 .rwo 0x3, ⟨15, 12, .rwo, 0x6, .rng 3 12⟩, ⟨21, 16, .rwo, 0x0, .rng 0 62⟩]⟩,
  -- RIM_ID: SHORT_ID
  ⟨0x70004, [], [⟨15, 0, .rwo, 0x0, .rng 0 0xFFFE⟩]⟩,
  -- RIM_PORT_CFG: RX_EN TX_EN TX_CH TX_LINES CS_THR
  ⟨0x70008, [(2, 4)], [fA 0 0 .rwo 0x0, fA 1 1 .rwo 0x0, fA 4 2 .rwo 0x0, fA 6 5 .rwo 0x1, ⟨15, 8, .rwo, 0x14, .rng 6 60⟩]⟩,
  -- RIM_TIMING: ID_PERIOD BACKOFF_MAX TRACE_SPREAD
  ⟨0x70010, [], [⟨3, 0, .rwo, 0x4, .rng 2 15⟩, ⟨7, 4, .rwo, 0x6, .rng 2 8⟩, ⟨15, 8, .rwo, 0xA, .rng 1 100⟩]⟩,
  -- RIM_STATUS: NB_COUNT MASK_BAD_0 MASK_BAD_1 CAN_SEND_0 CAN_SEND_1 TXQ_0 TXQ_1
  ⟨0x70020, [], [fA 8 0 .ro 0x0, fA 9 9 .ro 0x0, fA 10 10 .ro 0x0, fA 11 11 .ro 0x0, fA 12 12 .ro 0x0, fA 17 13 .ro 0x0, fA 22 18 .ro 0x0]⟩,
  -- RIM_EVENT: NEIGH_NEW NEIGH_LOST NEIGH_CHANGE NEIGH_CFG ID_CLASH AUTH_FAIL TX_DROP TX_CUT MASK_BAD RX_RING_FULL AUTH_TIMEOUT NEIGH_EVICT TRACE_DONE
  ⟨0x70024, [], [fA 0 0 .rw1c 0x0, fA 1 1 .rw1c 0x0, fA 2 2 .rw1c 0x0, fA 3 3 .rw1c 0x0, fA 4 4 .rw1c 0x0, fA 5 5 .rw1c 0x0, fA 6 6 .rw1c 0x0, fA 7 7 .rw1c 0x0, fA 8 8 .rw1c 0x0, fA 9 9 .rw1c 0x0, fA 10 10 .rw1c 0x0, fA 11 11 .rw1c 0x0, fA 12 12 .rw1c 0x0]⟩,
  -- RIM_EVENT_EN: EN
  ⟨0x70028, [], [fA 12 0 .rw 0x512]⟩,
  -- RIM_RING_CFG: TX_EN RX_EN RX_CLASS TX_LOG2 RX_LOG2
  ⟨0x70040, [], [fA 0 0 .rw 0x0, fA 1 1 .rw 0x0, fA 7 4 .rw 0xF, ⟨11, 8, .rw, 0x4, .rng 4 10⟩, ⟨15, 12, .rw, 0x4, .rng 4 10⟩]⟩,
  -- RIM_TX_BASE: BASE
  ⟨0x70044, [], [⟨21, 0, .rw, 0x0, .mult 256⟩]⟩,
  -- RIM_RX_BASE: BASE
  ⟨0x70048, [], [⟨21, 0, .rw, 0x0, .mult 256⟩]⟩,
  -- RIM_TX_WR: IDX
  ⟨0x7004C, [], [fA 15 0 .rw 0x0]⟩,
  -- RIM_TX_RD: IDX
  ⟨0x70050, [], [fA 15 0 .ro 0x0]⟩,
  -- RIM_RX_WR: IDX
  ⟨0x70054, [], [fA 15 0 .ro 0x0]⟩,
  -- RIM_RX_RD: IDX
  ⟨0x70058, [], [fA 15 0 .rw 0x0]⟩,
  -- RIM_TRACE_CTL: TRACE_ID PORT START ACTIVE
  ⟨0x70060, [], [fA 15 0 .rw 0x0, fA 16 16 .rw 0x0, fA 17 17 .rw 0x0, fA 18 18 .ro 0x0]⟩,
  -- RIM_TXF_TAP: TAP
  ⟨0x70100, [(64, 4)], [fA 15 0 .rwo 0x0]⟩,
  -- RIM_MASK: LIMIT
  ⟨0x70200, [(64, 4)], [fA 7 0 .rwo 0x0]⟩,
  -- RIM_NB_0: SRC PORT CHANNEL VALID STALE AUTH
  ⟨0x71000, [(256, 32)], [fA 15 0 .ro 0x0, fA 16 16 .ro 0x0, fA 19 17 .ro 0x0, fA 20 20 .ro 0x0, fA 21 21 .ro 0x0, fA 22 22 .ro 0x0]⟩,
  -- RIM_NB_1: DEVICE_ID
  ⟨0x71004, [(256, 32)], [fA 31 0 .ro 0x0]⟩,
  -- RIM_NB_2: DEVICE_ID
  ⟨0x71008, [(256, 32)], [fA 31 0 .ro 0x0]⟩,
  -- RIM_NB_3: IMAGE_VER
  ⟨0x7100C, [(256, 32)], [fA 31 0 .ro 0x0]⟩,
  -- RIM_NB_4: CFG_EPOCH
  ⟨0x71010, [(256, 32)], [fA 31 0 .ro 0x0]⟩,
  -- RIM_NB_5: EVM PEAK LEVEL
  ⟨0x71014, [(256, 32)], [fA 15 0 .ro 0x0, fA 23 16 .ro 0x0, fA 31 24 .ro 0x0]⟩,
  -- RIM_NB_6: AGE_MS FLAGS
  ⟨0x71018, [(256, 32)], [fA 13 0 .ro 0x0, fA 31 24 .ro 0x0]⟩]

/-- RIM registers, part 2. -/
def regsRIM1 : List RegDesc := [
  -- RIM_NB_7: LAST_SEQ MISSED
  ⟨0x7101C, [(256, 32)], [fA 7 0 .ro 0x0, fA 15 8 .ro 0x0]⟩]

/-- RIM registers. -/
def regsRIM : List RegDesc := regsRIM0 ++ regsRIM1

/-- MEM registers. -/
def regsMEM : List RegDesc := [
  -- MEM_CTL: AUTO_REPAIR THRESH
  ⟨0x80000, [], [fA 8 0 .rwo 0x1FF, ⟨23, 16, .rwo, 0x8, .rng 1 255⟩]⟩,
  -- MEM_TRACK_CFG: DECAY_S
  ⟨0x80004, [], [⟨15, 0, .rwo, 0xE10, .zrng 60 65535⟩]⟩,
  -- MEM_STATUS: SWEEP_DONE EXHAUSTED PEND SPARES_MIN
  ⟨0x80010, [], [fA 0 0 .ro 0x0, fA 1 1 .ro 0x0, fA 2 2 .ro 0x0, fA 5 3 .ro 0x0]⟩,
  -- MEM_EVENT: CORR UNCORR POISON HEALED WRITE_ERR REPEAT REPAIRED REPAIR_PEND NO_SPARE EXHAUSTED INJECTED MAP_WR_FAIL
  ⟨0x80014, [], [fA 0 0 .rw1c 0x0, fA 1 1 .rw1c 0x0, fA 2 2 .rw1c 0x0, fA 3 3 .rw1c 0x0, fA 4 4 .rw1c 0x0, fA 5 5 .rw1c 0x0, fA 6 6 .rw1c 0x0, fA 7 7 .rw1c 0x0, fA 8 8 .rw1c 0x0, fA 9 9 .rw1c 0x0, fA 10 10 .rw1c 0x0, fA 11 11 .rw1c 0x0]⟩,
  -- MEM_EVENT_EN: EN
  ⟨0x80018, [], [fA 11 0 .rw 0xB12]⟩,
  -- MEM_ERR_LOG_0: INSTANCE LANE SYNDROME POISON WRITE VALID
  ⟨0x80020, [], [fA 10 0 .ro 0x0, fA 12 11 .ro 0x0, fA 19 13 .ro 0x0, fA 20 20 .ro 0x0, fA 21 21 .ro 0x0, fA 31 31 .rw1c 0x0]⟩,
  -- MEM_ERR_LOG_1: WORD
  ⟨0x80024, [], [fA 11 0 .ro 0x0]⟩,
  -- MEM_ERR_LOG_2: TICK
  ⟨0x80028, [], [fA 31 0 .ro 0x0]⟩,
  -- MEM_INJ_MASK_LO: DATA
  ⟨0x80040, [], [fA 31 0 .rw 0x0]⟩,
  -- MEM_INJ_MASK_HI: CHECK
  ⟨0x80044, [], [fA 6 0 .rw 0x0]⟩,
  -- MEM_INJ_CTL: INSTANCE LANE ARM
  ⟨0x80048, [], [⟨10, 0, .rw, 0x0, .rng 0 1271⟩, fA 12 11 .rw 0x0, fA 13 13 .rw 0x0]⟩,
  -- MEM_TRACK: INSTANCE WORD COUNT VALID
  ⟨0x80100, [(9, 128), (32, 4)], [fA 10 0 .ro 0x0, fA 22 11 .ro 0x0, fA 30 23 .ro 0x0, fA 31 31 .ro 0x0]⟩,
  -- MEM_MACRO: FUSED FIELD_USED FREE PEND
  ⟨0x81000, [(1272, 4)], [fA 1 0 .ro 0x0, fA 4 2 .ro 0x0, fA 7 5 .ro 0x0, fA 8 8 .ro 0x0]⟩]

/-- D2D registers. -/
def regsD2D : List RegDesc := [
  -- D2D_CTL: AUTO_SPARE ERR_THR
  ⟨0x90000, [], [fA 0 0 .rwo 0x1, ⟨15, 8, .rwo, 0x38, .rng 1 255⟩]⟩,
  -- D2D_ERR_WIN: WIN
  ⟨0x90004, [], [⟨19, 0, .rwo, 0xF4240, .rng 1000 1000000⟩]⟩,
  -- D2D_STATUS: TRAINED SPARES_MIN EXHAUSTED SUB_DOWN
  ⟨0x90010, [], [fA 3 0 .ro 0x0, fA 5 4 .ro 0x0, fA 6 6 .ro 0x0, fA 7 7 .ro 0x0]⟩,
  -- D2D_EVENT: TRAIN_FAIL ERASURE LANE_SPARED LANE_FAILED SUSPECT DIAG EXHAUSTED SUB_DOWN LAT_FAULT CTL_LATE
  ⟨0x90014, [], [fA 0 0 .rw1c 0x0, fA 1 1 .rw1c 0x0, fA 2 2 .rw1c 0x0, fA 3 3 .rw1c 0x0, fA 4 4 .rw1c 0x0, fA 5 5 .rw1c 0x0, fA 6 6 .rw1c 0x0, fA 7 7 .rw1c 0x0, fA 8 8 .rw1c 0x0, fA 9 9 .rw1c 0x0]⟩,
  -- D2D_EVENT_EN: EN
  ⟨0x90018, [], [fA 9 0 .rw 0x1C9]⟩,
  -- D2D_LAT: L
  ⟨0x90040, [(4, 4)], [fA 6 0 .ro 0x0]⟩,
  -- D2D_SUB: UP DIAG EPOCH
  ⟨0x90080, [(64, 4)], [fA 0 0 .ro 0x0, fA 1 1 .ro 0x0, fA 4 2 .ro 0x0]⟩,
  -- D2D_LANE: STATE FUSED STALE POS ERR
  ⟨0x91000, [(1056, 4)], [fA 1 0 .ro 0x0, fA 2 2 .ro 0x0, fA 3 3 .ro 0x0, fA 9 4 .ro 0x0, fA 31 16 .ro 0x0]⟩]

/-- HST registers. -/
def regsHST : List RegDesc := [
  -- HST_STATUS: FXG_LOCK
  ⟨0xA0010, [], [fA 15 0 .ro 0x0]⟩,
  -- HST_EVENT: LINK_DOWN LINK_UP FXG_DEFECT CAL_SWITCH CAL_FAIL
  ⟨0xA0014, [], [fA 0 0 .rw1c 0x0, fA 1 1 .rw1c 0x0, fA 2 2 .rw1c 0x0, fA 3 3 .rw1c 0x0, fA 4 4 .rw1c 0x0]⟩,
  -- HST_EVENT_EN: EN
  ⟨0xA0018, [], [fA 4 0 .rw 0x15]⟩,
  -- HST_PORT_CFG: TYPE LT_EN
  ⟨0xA0100, [(64, 4)], [⟨2, 0, .rwo, 0x0, .rng 0 5⟩, fA 3 3 .rwo 0x1]⟩,
  -- HST_PORT_STATUS: LINK_UP PCS_LOCK FEC_LOCK LT_DONE
  ⟨0xA0200, [(64, 4)], [fA 0 0 .ro 0x0, fA 1 1 .ro 0x0, fA 2 2 .ro 0x0, fA 3 3 .ro 0x0]⟩,
  -- HST_FXG_CFG: EN GROUP_NUM
  ⟨0xA0400, [(16, 64)], [fA 0 0 .rwo 0x0, ⟨27, 8, .rwo, 0x1, .rng 1 1048574⟩]⟩,
  -- HST_FXG_PHY: PORT PHY_NUM VALID
  ⟨0xA0404, [(16, 64), (8, 4)], [fA 5 0 .rwo 0x0, ⟨15, 8, .rwo, 0x1, .rng 1 254⟩, fA 31 31 .rwo 0x0]⟩,
  -- HST_FXG_CTL: CAL_REQ
  ⟨0xA0424, [(16, 64)], [fA 0 0 .rw 0x0]⟩,
  -- HST_FXG_STATUS: LOCK TX_CAL RX_CAL
  ⟨0xA0428, [(16, 64)], [fA 0 0 .ro 0x0, fA 1 1 .ro 0x0, fA 2 2 .ro 0x0]⟩,
  -- HST_FXG_CAL: CLIENT
  ⟨0xB0000, [(16, 4096), (2, 2048), (160, 4)], [fA 15 0 .rw 0x0]⟩]

/-- FLO registers. -/
def regsFLO : List RegDesc := [
  -- FLO_STATUS: CAL_PEND_A CAL_PEND_B ANY_UNPROT
  ⟨0x100010, [], [fA 0 0 .ro 0x0, fA 1 1 .ro 0x0, fA 2 2 .ro 0x0]⟩,
  -- FLO_EVENT: TX_DROP BLK_CRC BLK_HDR RX_DISCARD SEQ_LOST SEQ_RESYNC TWIN_UNPROT TWIN_LATE TWIN_REANCHOR CAL_SWAP CAL_REJECT EGR_DROP MERGE_FULL
  ⟨0x100014, [], [fA 0 0 .rw1c 0x0, fA 1 1 .rw1c 0x0, fA 2 2 .rw1c 0x0, fA 3 3 .rw1c 0x0, fA 4 4 .rw1c 0x0, fA 5 5 .rw1c 0x0, fA 6 6 .rw1c 0x0, fA 7 7 .rw1c 0x0, fA 8 8 .rw1c 0x0, fA 9 9 .rw1c 0x0, fA 10 10 .rw1c 0x0, fA 11 11 .rw1c 0x0, fA 12 12 .rw1c 0x0]⟩,
  -- FLO_EVENT_EN: EN
  ⟨0x100018, [], [fA 12 0 .rw 0x50]⟩,
  -- FLO_CAL_SEL: ACTIVE
  ⟨0x100100, [(2, 4)], [fA 0 0 .ro 0x0]⟩,
  -- FLO_CAL_FRAME_LO: FRAME_LO
  ⟨0x100110, [(2, 16)], [fA 31 0 .rw 0x0]⟩,
  -- FLO_CAL_FRAME_HI: FRAME_HI
  ⟨0x100114, [(2, 16)], [fA 31 0 .rw 0x0]⟩,
  -- FLO_CAL_CTL: ARM
  ⟨0x100118, [(2, 16)], [fA 0 0 .rw 0x0]⟩,
  -- FLO_PORT_CFG: MODE STAG UNMATCHED_DROP DEF_CHAN MAX_LEN
  ⟨0x100400, [(64, 4)], [fA 1 0 .rwo 0x0, fA 2 2 .rwo 0x0, fA 3 3 .rwo 0x0, fA 12 4 .rwo 0x0, ⟨29, 16, .rwo, 0x2400, .rng 1518 16000⟩]⟩,
  -- FLO_CH_CFG: TX_EN RX_EN TWIN TX_LINE RX_LINE EGR_FLEXE EGR_PORT EGR_FXC LABEL
  ⟨0x101000, [(512, 4)], [fA 0 0 .rwo 0x0, fA 1 1 .rwo 0x0, fA 2 2 .rwo 0x0, fA 3 3 .rwo 0x0, fA 4 4 .rwo 0x0, fA 5 5 .rwo 0x0, fA 11 6 .rwo 0x0, fA 19 12 .rwo 0x0, fA 27 20 .rwo 0x0]⟩,
  -- FLO_CH_TWIN: PLAYOUT_MF
  ⟨0x101800, [(512, 4)], [⟨11, 0, .rwo, 0x10, .rng 2 4095⟩]⟩,
  -- FLO_CH_STATUS: TWIN_STATE ANCHOR UNPROTECTED TXQ_KIB
  ⟨0x102000, [(512, 4)], [fA 1 0 .ro 0x0, fA 2 2 .ro 0x0, fA 3 3 .ro 0x0, fA 31 16 .ro 0x0]⟩,
  -- FLO_CH_SKEW: SKEW
  ⟨0x102800, [(512, 4)], [fA 31 0 .ro 0x80000000]⟩,
  -- FLO_CAL: CHAN VALID
  ⟨0x110000, [(2, 32768), (2, 16384), (3200, 4)], [fA 8 0 .rw 0x0, fA 15 15 .rw 0x0]⟩,
  -- FLO_VLAN: PORT VID CHAN VALID
  ⟨0x120000, [(2048, 4)], [fA 5 0 .rwo 0x0, ⟨17, 6, .rwo, 0x1, .rng 1 4094⟩, fA 26 18 .rwo 0x0, fA 31 31 .rwo 0x0]⟩,
  -- FLO_FXC: CLIENT_ID GROUP CHAN VALID
  ⟨0x122000, [(256, 4)], [⟨15, 0, .rwo, 0x1, .rng 1 65534⟩, fA 19 16 .rwo 0x0, fA 28 20 .rwo 0x0, fA 31 31 .rwo 0x0]⟩]

/-- PMC registers, part 1. -/
def regsPMC0 : List RegDesc := [
  -- PMC_SNAP_CFG: PERIOD
  ⟨0x400000, [], [⟨23, 0, .rw, 0xF4240, .rng 1 16777215⟩]⟩,
  -- PMC_SNAP_CTL: FREEZE NOW
  ⟨0x400004, [], [fA 0 0 .rw 0x0, fA 1 1 .rw 0x0]⟩,
  -- PMC_STATUS: FROZEN TEL_RUN
  ⟨0x400010, [], [fA 0 0 .ro 0x0, fA 1 1 .ro 0x0]⟩,
  -- PMC_EVENT: WRAP SNAP_MISS TEL_DROP TEL_ERR MIRROR_DENIED PRESET
  ⟨0x400014, [], [fA 0 0 .rw1c 0x0, fA 1 1 .rw1c 0x0, fA 2 2 .rw1c 0x0, fA 3 3 .rw1c 0x0, fA 4 4 .rw1c 0x0, fA 5 5 .rw1c 0x0]⟩,
  -- PMC_EVENT_EN: EN
  ⟨0x400018, [], [fA 5 0 .rw 0xA]⟩,
  -- PMC_SNAP_GEN: GEN
  ⟨0x400020, [], [fA 31 0 .ro 0x0]⟩,
  -- PMC_SNAP_TICK_LO: TICK
  ⟨0x400024, [], [fA 31 0 .ro 0x0]⟩,
  -- PMC_SNAP_TICK_HI: TICK
  ⟨0x400028, [], [fA 31 0 .ro 0x0]⟩,
  -- PMC_SNAP_TIME_LO: TIME
  ⟨0x40002C, [], [fA 31 0 .ro 0x0]⟩,
  -- PMC_SNAP_TIME_HI: TIME
  ⟨0x400030, [], [fA 31 0 .ro 0x0]⟩,
  -- PMC_SNAP_MISS: MISSED SKIPPED
  ⟨0x400034, [], [fA 15 0 .ro 0x0, fA 31 16 .ro 0x0]⟩,
  -- PMC_USER_EN: EN
  ⟨0x400040, [], [fA 0 0 .rw 0x0]⟩,
  -- PMC_MIR_LOG: OFFSET VALID
  ⟨0x400044, [], [fA 19 0 .ro 0x0, fA 31 31 .rw1c 0x0]⟩,
  -- PMC_MIR_DENY_CNT: CNT
  ⟨0x400048, [], [fA 31 0 .ro 0x0]⟩,
  -- PMC_WRAP_LOG: INDEX VALID
  ⟨0x40004C, [], [fA 13 0 .ro 0x0, fA 31 31 .rw1c 0x0]⟩,
  -- PMC_PRESET_IDX: INDEX GO
  ⟨0x400050, [], [fA 13 0 .rw 0x0, fA 14 14 .rw 0x0]⟩,
  -- PMC_PRESET_LO: VALUE
  ⟨0x400054, [], [fA 31 0 .rw 0x0]⟩,
  -- PMC_PRESET_HI: VALUE
  ⟨0x400058, [], [fA 31 0 .rw 0x0]⟩,
  -- PMC_TEL_CTL: EN IRQ DIV
  ⟨0x400080, [], [fA 0 0 .rw 0x0, fA 1 1 .rw 0x0, ⟨31, 16, .rw, 0x1, .rng 1 65535⟩]⟩,
  -- PMC_TEL_CFG: LOG2
  ⟨0x400084, [], [⟨3, 0, .rw, 0x4, .rng 4 12⟩]⟩,
  -- PMC_TEL_BASE_LO: ADDR
  ⟨0x400088, [], [⟨31, 0, .rw, 0x0, .mult 4096⟩]⟩,
  -- PMC_TEL_BASE_HI: ADDR
  ⟨0x40008C, [], [fA 31 0 .rw 0x0]⟩,
  -- PMC_TEL_WR: IDX
  ⟨0x400090, [], [fA 15 0 .ro 0x0]⟩,
  -- PMC_TEL_RD: IDX
  ⟨0x400094, [], [fA 15 0 .rw 0x0]⟩]

/-- PMC registers, part 2. -/
def regsPMC1 : List RegDesc := [
  -- PMC_TEL_SLOT: BYTES
  ⟨0x400098, [], [fA 17 0 .ro 0x40]⟩,
  -- PMC_TEL_SEQ: SEQ
  ⟨0x40009C, [], [fA 31 0 .ro 0x0]⟩,
  -- PMC_TEL_DROP: DROP
  ⟨0x4000A0, [], [fA 31 0 .ro 0x0]⟩,
  -- PMC_TEL_SEL: SEL
  ⟨0x401000, [(512, 4)], [fA 31 0 .rw 0x0]⟩,
  -- PMC_MODE: MODE
  ⟨0x410000, [(16384, 4)], [fA 1 0 .rw 0x0]⟩,
  -- PMC_CAT: KIND BOTH SRC EVBIT INSTANCE
  ⟨0x420000, [(16384, 4)], [fA 1 0 .ro 0x0, fA 2 2 .ro 0x0, fA 8 4 .ro 0x0, fA 14 9 .ro 0x0, fA 31 16 .ro 0x0]⟩,
  -- PMC_CNT_LO: V
  ⟨0x500000, [(16384, 16)], [fA 31 0 .ro 0x0]⟩,
  -- PMC_CNT_HI: V
  ⟨0x500004, [(16384, 16)], [fA 31 0 .ro 0x0]⟩,
  -- PMC_CNT_WRAP: WRAP_CNT WRAP
  ⟨0x500008, [(16384, 16)], [fA 7 0 .ro 0x0, fA 8 8 .rw1c 0x0]⟩,
  -- PMC_SNAP_LO: V
  ⟨0x540000, [(16384, 16)], [fA 31 0 .ro 0x0]⟩,
  -- PMC_SNAP_HI: V
  ⟨0x540004, [(16384, 16)], [fA 31 0 .ro 0x0]⟩,
  -- PMC_SNAP_WRAP: WRAP_CNT WRAP
  ⟨0x540008, [(16384, 16)], [fA 7 0 .ro 0x0, fA 8 8 .ro 0x0]⟩,
  -- PMC_WIN_LEN: LEN_M1
  ⟨0x600000, [(1152, 64)], [fA 31 0 .rw 0xF423F]⟩,
  -- PMC_WIN_CTL: EN CLR_MM
  ⟨0x600004, [(1152, 64)], [fA 0 0 .rw 0x0, fA 1 1 .rw 0x0]⟩,
  -- PMC_WIN_BYTES_LO: B
  ⟨0x600008, [(1152, 64)], [fA 31 0 .ro 0x0]⟩,
  -- PMC_WIN_BYTES_HI: B
  ⟨0x60000C, [(1152, 64)], [fA 31 0 .ro 0x0]⟩,
  -- PMC_WIN_UNITS_LO: U
  ⟨0x600010, [(1152, 64)], [fA 31 0 .ro 0x0]⟩,
  -- PMC_WIN_UNITS_HI: U
  ⟨0x600014, [(1152, 64)], [fA 31 0 .ro 0x0]⟩,
  -- PMC_WIN_RATE: R
  ⟨0x600018, [(1152, 64)], [fA 31 0 .ro 0x0]⟩,
  -- PMC_WIN_MIN: MIN_RATE
  ⟨0x60001C, [(1152, 64)], [fA 31 0 .ro 0xFFFFFFFF]⟩,
  -- PMC_WIN_MAX: MAX_RATE
  ⟨0x600020, [(1152, 64)], [fA 31 0 .ro 0x0]⟩,
  -- PMC_WIN_END_LO: TICK
  ⟨0x600024, [(1152, 64)], [fA 31 0 .ro 0x0]⟩,
  -- PMC_WIN_END_HI: TICK
  ⟨0x600028, [(1152, 64)], [fA 31 0 .ro 0x0]⟩,
  -- PMC_WIN_CNT: WIN_CNT
  ⟨0x60002C, [(1152, 64)], [fA 31 0 .ro 0x0]⟩]

/-- PMC registers, part 3. -/
def regsPMC2 : List RegDesc := [
  -- PMC_WIN_INFO: IRREG
  ⟨0x600030, [(1152, 64)], [fA 0 0 .ro 0x0]⟩]

/-- PMC registers. -/
def regsPMC : List RegDesc := regsPMC0 ++ regsPMC1 ++ regsPMC2

/-- CNV registers. -/
def regsCNV : List RegDesc := [
  -- CNV_CTL: BG_EN AUTO_MASK SKEW_EN DELTA_T START
  ⟨0x200000, [], [fA 0 0 .rwo 0x1, fA 1 1 .rwo 0x1, fA 2 2 .rwo 0x1, ⟨13, 8, .rwo, 0xC, .rng 4 40⟩, fA 16 16 .rw 0x0]⟩,
  -- CNV_CAL_CFG: STEP_TICKS PERIOD_S
  ⟨0x200004, [], [⟨15, 0, .rwo, 0x1000, .rng 1024 65535⟩, ⟨31, 16, .rwo, 0xE10, .zrng 60 65535⟩]⟩,
  -- CNV_FAIL_CFG: MEAN_LIM PWR_LIM
  ⟨0x200008, [], [⟨4, 0, .rwo, 0x8, .rng 2 31⟩, ⟨12, 8, .rwo, 0xC, .rng 4 24⟩]⟩,
  -- CNV_STATUS: FG_DONE PASS_RUN SUSPEND SETS ADC_SPARES_MIN DAC_SPARES_MIN EXHAUSTED UNMASKED STALE
  ⟨0x200010, [], [fA 0 0 .ro 0x0, fA 1 1 .ro 0x0, fA 4 2 .ro 0x0, fA 8 5 .ro 0x0, fA 10 9 .ro 0x2, fA 14 11 .ro 0x9, fA 15 15 .ro 0x0, fA 16 16 .ro 0x0, fA 17 17 .ro 0x0]⟩,
  -- CNV_EVENT: FG_FAIL PASS_DONE PASS_UNSTORED ADC_FAIL DAC_FAIL SPARE_USED EXHAUSTED UNMASKED SET_WR_FAIL STALE SETS_DISCARDED
  ⟨0x200014, [], [fA 0 0 .rw1c 0x0, fA 1 1 .rw1c 0x0, fA 2 2 .rw1c 0x0, fA 3 3 .rw1c 0x0, fA 4 4 .rw1c 0x0, fA 5 5 .rw1c 0x0, fA 6 6 .rw1c 0x0, fA 7 7 .rw1c 0x0, fA 8 8 .rw1c 0x0, fA 9 9 .rw1c 0x0, fA 10 10 .rw1c 0x0]⟩,
  -- CNV_EVENT_EN: EN
  ⟨0x200018, [], [fA 10 0 .rw 0x1D9]⟩,
  -- CNV_TEMP: T_TILE T_LAST
  ⟨0x200020, [], [fA 15 0 .ro 0x0, fA 31 16 .ro 0x8000]⟩,
  -- CNV_PASS_INFO: STEP PASS_CNT
  ⟨0x200024, [], [fA 4 0 .ro 0x0, fA 31 16 .ro 0x0]⟩,
  -- CNV_SET: TEMP BAND NVM VALID
  ⟨0x200040, [(8, 4)], [fA 15 0 .ro 0x0, fA 18 16 .ro 0x0, fA 19 19 .ro 0x0, fA 31 31 .ro 0x0]⟩,
  -- CNV_SKEW: TAP
  ⟨0x200080, [(32, 4)], [fA 6 0 .ro 0x40]⟩,
  -- CNV_DAC: SPARES FAILED MEAS_CELL BIN_FAIL
  ⟨0x200100, [(4, 4)], [fA 3 0 .ro 0x9, fA 10 4 .ro 0x0, fA 17 11 .ro 0x7F, fA 21 18 .ro 0x0]⟩,
  -- CNV_UNIT: ROLE STALE SLOT OFFSET GAIN
  ⟨0x201000, [(576, 4)], [fA 2 0 .ro 0x0, fA 3 3 .ro 0x0, fA 7 4 .ro 0x0, fA 15 8 .ro 0x0, fA 31 16 .ro 0x4000]⟩]

/-- TXP registers. -/
def regsTXP : List RegDesc := [
  -- TXP_CTL: MUTE RIME_EN RIME_DEPTH PS_SEL PE_EN DPD_EN PILOT_BOOST HOLD
  ⟨0x220000, [], [fA 0 0 .rw 0x0, fA 1 1 .rwo 0x0, ⟨6, 2, .rwo, 0x4, .rng 1 16⟩, fA 9 8 .rwo 0x0, fA 10 10 .rw 0x0, fA 11 11 .rw 0x0, ⟨15, 12, .rwo, 0x0, .rng 0 12⟩, fA 16 16 .rw 0x0]⟩,
  -- TXP_STATUS: MUTE_SRC MUTED MASK_VIOL HOLD_PEND
  ⟨0x220010, [], [fA 6 0 .ro 0x2, fA 7 7 .ro 0x1, fA 8 8 .ro 0x0, fA 9 9 .ro 0x0]⟩,
  -- TXP_EVENT: MUTE_ON MUTE_OFF MASK_VIOL MASK_CLEAR CLIP RELOCK_DONE
  ⟨0x220014, [], [fA 0 0 .rw1c 0x0, fA 1 1 .rw1c 0x0, fA 2 2 .rw1c 0x0, fA 3 3 .rw1c 0x0, fA 4 4 .rw1c 0x0, fA 5 5 .rw1c 0x0]⟩,
  -- TXP_EVENT_EN: EN
  ⟨0x220018, [], [fA 5 0 .rw 0x5]⟩,
  -- TXP_GAIN: GAIN
  ⟨0x220020, [], [⟨11, 0, .rw, 0x280, .rng 64 2032⟩]⟩,
  -- TXP_CLIP_CNT: CLIP
  ⟨0x220024, [], [fA 31 0 .ro 0x0]⟩,
  -- TXP_MASK_CFG: DEBOUNCE
  ⟨0x220030, [], [⟨3, 0, .rwo, 0x3, .rng 1 15⟩]⟩,
  -- TXP_PAS_INFO: U S
  ⟨0x220040, [], [fA 19 0 .ro 0x0, fA 25 20 .ro 0x0]⟩,
  -- TXP_INFO_BITS: I
  ⟨0x220044, [], [fA 19 0 .ro 0x0]⟩,
  -- TXP_PAS_COMP: N
  ⟨0x220050, [(8, 4)], [fA 9 0 .ro 0x0]⟩,
  -- TXP_PS_TAP: RE IM
  ⟨0x221000, [(2, 512), (128, 4)], [fA 15 0 .rwo 0x4000, fA 31 16 .rwo 0x0]⟩,
  -- TXP_PE_TAP: TAP
  ⟨0x221400, [(4, 256), (33, 4)], [fA 15 0 .rw 0x0]⟩,
  -- TXP_DPD: A3 A5
  ⟨0x221800, [(4, 32), (5, 4)], [fA 15 0 .rw 0x0, fA 31 16 .rw 0x0]⟩,
  -- TXP_SKEW: SKEW
  ⟨0x221900, [(4, 4)], [⟨12, 0, .rw, 0x0, .srng 13 4095⟩]⟩,
  -- TXP_IQ_A: M11 M12
  ⟨0x221910, [(2, 8)], [fA 15 0 .rw 0x4000, fA 31 16 .rw 0x0]⟩,
  -- TXP_IQ_B: M21 M22
  ⟨0x221914, [(2, 8)], [fA 15 0 .rw 0x0, fA 31 16 .rw 0x4000]⟩,
  -- TXP_MASK: LIMIT REF CHECK
  ⟨0x222000, [(64, 4)], [fA 7 0 .rwo 0x0, fA 8 8 .rwo 0x0, fA 9 9 .rwo 0x0]⟩,
  -- TXP_PSD: LEVEL
  ⟨0x222100, [(64, 4)], [fA 15 0 .ro 0x8000]⟩]

/-- RXP registers, part 1. -/
def regsRXP0 : List RegDesc := [
  -- RXP_CTL: ACQ_RESTART DITHER_RM CD_TRACK PH_JOINT NLC_STEPS NLC_PAIR LOOP_TRUST
  ⟨0x240000, [], [fA 0 0 .rw 0x0, fA 1 1 .rwo 0x1, fA 2 2 .rwo 0x1, fA 3 3 .rwo 0x1, ⟨6, 4, .rwo, 0x0, .rng 0 4⟩, fA 7 7 .rwo 0x0, fA 8 8 .rwo 0x0]⟩,
  -- RXP_CARRIER: FREQ
  ⟨0x240004, [], [⟨20, 0, .rwo, 0x1D8A80, .rng 1840000 2000000⟩]⟩,
  -- RXP_CD_CFG: CD_MODE
  ⟨0x240008, [], [⟨1, 0, .rwo, 0x0, .rng 0 2⟩]⟩,
  -- RXP_CD_SET: CD_SET
  ⟨0x24000C, [], [⟨19, 0, .rwo, 0x0, .srng 20 524287⟩]⟩,
  -- RXP_CD_WIN: CD_WIN
  ⟨0x240010, [], [⟨15, 0, .rwo, 0x3E8, .rng 100 65535⟩]⟩,
  -- RXP_CLK_CFG: CLK_BW
  ⟨0x240014, [], [⟨4, 0, .rwo, 0x4, .rng 1 32⟩]⟩,
  -- RXP_EQ_CTL: NTAPS MU_ACQ MU_TRK MU_LOOP
  ⟨0x240020, [], [⟨5, 0, .rwo, 0x3F, .odd 25 63⟩, ⟨11, 8, .rw, 0x8, .rng 4 14⟩, ⟨15, 12, .rw, 0xA, .rng 4 14⟩, ⟨19, 16, .rwo, 0x9, .rng 4 14⟩]⟩,
  -- RXP_CR_CFG: PH_WIN LOCK_SNR
  ⟨0x240024, [], [⟨7, 0, .rwo, 0x20, .rng 8 128⟩, ⟨15, 8, .rwo, 0x30, .rng 16 160⟩]⟩,
  -- RXP_METRIC: SCALE
  ⟨0x240028, [], [⟨7, 0, .rwo, 0x20, .rng 8 128⟩]⟩,
  -- RXP_NLC_LINK_0: SPANS SPAN_KM
  ⟨0x240030, [], [fA 7 0 .rwo 0x0, ⟨15, 8, .rwo, 0x50, .rng 1 255⟩]⟩,
  -- RXP_NLC_LINK_1: GAMMA ALPHA LAUNCH
  ⟨0x240034, [], [⟨10, 0, .rwo, 0x514, .rng 100 2000⟩, ⟨20, 11, .rwo, 0xC8, .rng 100 400⟩, ⟨28, 21, .rwo, 0x0, .srng 8 40⟩]⟩,
  -- RXP_NLC_XI: XI
  ⟨0x240038, [], [fA 7 0 .rwo 0xC0]⟩,
  -- RXP_PAIR_CFG: CD_TOL
  ⟨0x24003C, [], [⟨5, 0, .rwo, 0x8, .rng 1 40⟩]⟩,
  -- RXP_STATUS: ACQ_STATE CLK_LOCK EQ_CONV FREQ_LOCK LOCK POL_SWAP NLC_MODE DD_ACTIVE ATTEMPT
  ⟨0x240040, [], [fA 2 0 .ro 0x0, fA 3 3 .ro 0x0, fA 4 4 .ro 0x0, fA 5 5 .ro 0x0, fA 6 6 .ro 0x0, fA 7 7 .ro 0x0, fA 9 8 .ro 0x0, fA 10 10 .ro 0x0, fA 11 11 .ro 0x0]⟩,
  -- RXP_EVENT: ACQ_DONE ACQ_FAIL LOCK_LOSS SINGULAR FREQ_RANGE CD_STEP PAIR_ON PAIR_DROP CAP_DONE CAP_MISS SNR_LOW DGD_HIGH MEM_ERASE
  ⟨0x240044, [], [fA 0 0 .rw1c 0x0, fA 1 1 .rw1c 0x0, fA 2 2 .rw1c 0x0, fA 3 3 .rw1c 0x0, fA 4 4 .rw1c 0x0, fA 5 5 .rw1c 0x0, fA 6 6 .rw1c 0x0, fA 7 7 .rw1c 0x0, fA 8 8 .rw1c 0x0, fA 9 9 .rw1c 0x0, fA 10 10 .rw1c 0x0, fA 11 11 .rw1c 0x0, fA 12 12 .rw1c 0x0]⟩,
  -- RXP_EVENT_EN: EN
  ⟨0x240048, [], [fA 12 0 .rw 0x1C16]⟩,
  -- RXP_MON_LIM: SNR_MIN DGD_MAX DEB
  ⟨0x24004C, [], [⟨11, 0, .rw, 0xA0, .rng 0 800⟩, ⟨19, 12, .rw, 0x96, .rng 1 255⟩, ⟨23, 20, .rw, 0x3, .rng 1 15⟩]⟩,
  -- RXP_MON_SNR: SNR
  ⟨0x240080, [], [fA 15 0 .ro 0x0]⟩,
  -- RXP_MON_EVM: EVM
  ⟨0x240084, [], [fA 15 0 .ro 0xFFFF]⟩,
  -- RXP_MON_CD: CD
  ⟨0x240088, [], [fA 19 0 .ro 0x80000]⟩,
  -- RXP_MON_CD_AVG: CD_AVG
  ⟨0x24008C, [], [fA 19 0 .ro 0x80000]⟩,
  -- RXP_MON_DGD: DGD
  ⟨0x240090, [], [fA 15 0 .ro 0xFFFF]⟩,
  -- RXP_MON_PDL: PDL
  ⟨0x240094, [], [fA 15 0 .ro 0xFFFF]⟩,
  -- RXP_MON_FOFS: FOFS
  ⟨0x240098, [], [fA 15 0 .ro 0x8000]⟩]

/-- RXP registers, part 2. -/
def regsRXP1 : List RegDesc := [
  -- RXP_MON_CLKOFS: CLKOFS
  ⟨0x24009C, [], [fA 31 0 .ro 0x80000000]⟩,
  -- RXP_MON_PWR: PWR
  ⟨0x2400A0, [], [fA 7 0 .ro 0xFF]⟩,
  -- RXP_MON_FRAMES: N
  ⟨0x2400A4, [], [fA 3 0 .ro 0x0]⟩,
  -- RXP_MON_SLICE: SNR
  ⟨0x2400C0, [(8, 4)], [fA 15 0 .ro 0x0]⟩,
  -- RXP_CAP_FRAME_LO: F
  ⟨0x240100, [], [fA 31 0 .rw 0x0]⟩,
  -- RXP_CAP_FRAME_HI: F
  ⟨0x240104, [], [fA 31 0 .rw 0x0]⟩,
  -- RXP_CAP_CTL: ARM
  ⟨0x240108, [], [fA 0 0 .rw 0x0]⟩,
  -- RXP_CAP_SNR: VALUE
  ⟨0x240110, [], [fA 15 0 .ro 0x0]⟩,
  -- RXP_CAP_EVM: VALUE
  ⟨0x240114, [], [fA 15 0 .ro 0xFFFF]⟩,
  -- RXP_CAP_FOFS: VALUE
  ⟨0x240118, [], [fA 15 0 .ro 0x8000]⟩,
  -- RXP_CAP_SLICE: SNR
  ⟨0x240120, [(8, 4)], [fA 15 0 .ro 0x0]⟩,
  -- RXP_SKEW: SKEW
  ⟨0x240200, [(4, 4)], [⟨12, 0, .rw, 0x0, .srng 13 4095⟩]⟩]

/-- RXP registers. -/
def regsRXP : List RegDesc := regsRXP0 ++ regsRXP1

/-- FEC registers. -/
def regsFEC : List RegDesc := [
  -- FEC_DEC_CFG: ITER_CAP LOOP_EN OFFSET
  ⟨0x260000, [], [⟨4, 0, .rwo, 0xE, .rng 6 20⟩, fA 5 5 .rwo 0x0, fA 9 8 .rwo 0x1]⟩,
  -- FEC_DEC_STATUS: CAP_THERM CAP_IN_FORCE THROTTLED LOOP_SUSP
  ⟨0x260010, [], [fA 4 0 .ro 0x14, fA 9 5 .ro 0xE, fA 10 10 .ro 0x0, fA 11 11 .ro 0x0]⟩,
  -- FEC_EVENT: UNCORR CUTOFF SLOT_DISCARD THROTTLE_ON THROTTLE_OFF LOOP_SUSP ERASURE STORE_ERR
  ⟨0x260014, [], [fA 0 0 .rw1c 0x0, fA 1 1 .rw1c 0x0, fA 2 2 .rw1c 0x0, fA 3 3 .rw1c 0x0, fA 4 4 .rw1c 0x0, fA 5 5 .rw1c 0x0, fA 6 6 .rw1c 0x0, fA 7 7 .rw1c 0x0]⟩,
  -- FEC_EVENT_EN: EN
  ⟨0x260018, [], [fA 7 0 .rw 0x86]⟩,
  -- FEC_CW_CNT: CW
  ⟨0x260020, [], [fA 31 0 .ro 0x0]⟩,
  -- FEC_ITER_SUM: SUM
  ⟨0x260024, [], [fA 31 0 .ro 0x0]⟩,
  -- FEC_ITER_MAX: MAX
  ⟨0x260028, [], [fA 4 0 .ro 0x0]⟩,
  -- FEC_UNCORR_CNT: UNCORR
  ⟨0x26002C, [], [fA 31 0 .ro 0x0]⟩,
  -- FEC_BIT_CNT: BITS
  ⟨0x260030, [], [fA 31 0 .ro 0x0]⟩,
  -- FEC_FLIP_CNT: FLIPS
  ⟨0x260034, [], [fA 31 0 .ro 0x0]⟩,
  -- FEC_ERASED_CNT: ERASED
  ⟨0x260038, [], [fA 31 0 .ro 0x0]⟩,
  -- FEC_PREBER: BER_LOG
  ⟨0x260044, [], [fA 15 0 .ro 0xFFFF]⟩,
  -- FEC_MARGIN: MARGIN
  ⟨0x260048, [], [fA 15 0 .ro 0x7FFF]⟩]

/-- FRM registers, part 1. -/
def regsFRM0 : List RegDesc := [
  -- FRM_CTL: COMPAT FOLLOW ACCEPT_REMOTE RDI TX_PSL EXP_PSL TIM_MODE
  ⟨0x280000, [], [fA 0 0 .rwo 0x0, fA 1 1 .rwo 0x1, fA 2 2 .rwo 0x1, fA 3 3 .rw 0x0, ⟨15, 8, .rwo, 0x0, .oneOf [0x00, 0x10, 0x11]⟩, ⟨23, 16, .rwo, 0x0, .oneOf [0x00, 0x10, 0x11]⟩, fA 25 24 .rwo 0x0]⟩,
  -- FRM_STATUS: DEF OOF OOM RX_FMT TX_FMT
  ⟨0x280010, [], [fA 10 0 .ro 0x6, fA 11 11 .ro 0x1, fA 12 12 .ro 0x1, fA 19 16 .ro 0x0, fA 23 20 .ro 0x0]⟩,
  -- FRM_EVENT: DEF_CHG ALIGN_GAIN ALIGN_LOSS HUNT_OVF SHIFT_DONE SHIFT_FAIL SHIFT_REJECT FOLLOW TAG_MISSING FN_JUMP SHIFT_LATE GCC_LOSS
  ⟨0x280014, [], [fA 10 0 .rw1c 0x0, fA 11 11 .rw1c 0x0, fA 12 12 .rw1c 0x0, fA 13 13 .rw1c 0x0, fA 14 14 .rw1c 0x0, fA 15 15 .rw1c 0x0, fA 16 16 .rw1c 0x0, fA 17 17 .rw1c 0x0, fA 18 18 .rw1c 0x0, fA 19 19 .rw1c 0x0, fA 20 20 .rw1c 0x0, fA 21 21 .rw1c 0x0]⟩,
  -- FRM_EVENT_EN: EN
  ⟨0x280018, [], [fA 21 0 .rw 0x860B]⟩,
  -- FRM_HUNT_CFG: SYNC_THR COMPAT_N COMPAT_M
  ⟨0x280020, [], [⟨7, 0, .rwo, 0x80, .rng 64 240⟩, ⟨10, 8, .rwo, 0x3, .rng 2 7⟩, ⟨15, 12, .rwo, 0x5, .rng 2 15⟩]⟩,
  -- FRM_DEG_CFG: DEG_INT DEG_M
  ⟨0x280024, [], [⟨19, 0, .rwo, 0xF4240, .rng 1000 1000000⟩, ⟨23, 20, .rwo, 0x7, .rng 2 10⟩]⟩,
  -- FRM_DEG_THR: MANT EXP
  ⟨0x280028, [], [⟨6, 0, .rwo, 0x2, .rng 1 99⟩, ⟨11, 8, .rwo, 0x2, .rng 1 15⟩]⟩,
  -- FRM_LOS_THR: LOS_THR
  ⟨0x28002C, [], [⟨7, 0, .rwo, 0x78, .rng 8 200⟩]⟩,
  -- FRM_TX_FN_LO: TX_FN
  ⟨0x280030, [], [fA 31 0 .ro 0x0]⟩,
  -- FRM_TX_FN_HI: TX_FN
  ⟨0x280034, [], [fA 31 0 .ro 0x0]⟩,
  -- FRM_RX_FN_LO: RX_FN
  ⟨0x280038, [], [fA 31 0 .ro 0x0]⟩,
  -- FRM_RX_FN_HI: RX_FN
  ⟨0x28003C, [], [fA 31 0 .ro 0x0]⟩,
  -- FRM_FMT_SEL: TX_IDX RX_IDX
  ⟨0x280040, [], [fA 3 0 .rwo 0x0, fA 7 4 .rwo 0x0]⟩,
  -- FRM_SHIFT_CTL: NEW_IDX START
  ⟨0x280050, [], [fA 3 0 .rw 0x0, fA 4 4 .rw 0x0]⟩,
  -- FRM_SHIFT_ACT_LO: ACT
  ⟨0x280054, [], [fA 31 0 .rw 0x0]⟩,
  -- FRM_SHIFT_ACT_HI: ACT
  ⟨0x280058, [], [fA 31 0 .rw 0x0]⟩,
  -- FRM_SHIFT_STATUS: TX_STATE ROLE RX_ARMED NEW_IDX FAIL_CAUSE
  ⟨0x28005C, [], [fA 1 0 .ro 0x0, fA 2 2 .ro 0x0, fA 3 3 .ro 0x0, fA 7 4 .ro 0x0, fA 10 8 .ro 0x0]⟩,
  -- FRM_SHIFT_RXACT_LO: RXACT
  ⟨0x280060, [], [fA 31 0 .ro 0x0]⟩,
  -- FRM_SHIFT_RXACT_HI: RXACT
  ⟨0x280064, [], [fA 31 0 .ro 0x0]⟩,
  -- FRM_GCC_CTL: TX_EN RX_EN TX_LOG2 RX_LOG2
  ⟨0x280080, [], [fA 0 0 .rw 0x0, fA 1 1 .rw 0x0, ⟨19, 16, .rw, 0x4, .rng 4 16⟩, ⟨23, 20, .rw, 0x4, .rng 4 16⟩]⟩,
  -- FRM_GCC_TX_BASE: BASE
  ⟨0x280084, [], [⟨21, 0, .rw, 0x0, .mult 32⟩]⟩,
  -- FRM_GCC_RX_BASE: BASE
  ⟨0x280088, [], [⟨21, 0, .rw, 0x0, .mult 32⟩]⟩,
  -- FRM_GCC_TX_WR: IDX
  ⟨0x28008C, [], [fA 15 0 .rw 0x0]⟩,
  -- FRM_GCC_TX_RD: IDX
  ⟨0x280090, [], [fA 15 0 .ro 0x0]⟩]

/-- FRM registers, part 2. -/
def regsFRM1 : List RegDesc := [
  -- FRM_GCC_RX_WR: IDX
  ⟨0x280094, [], [fA 15 0 .ro 0x0]⟩,
  -- FRM_GCC_RX_RD: IDX
  ⟨0x280098, [], [fA 15 0 .rw 0x0]⟩,
  -- FRM_FMT: RS_CODE M_CODE RATE H_64 VALID
  ⟨0x280100, [(16, 4)], [fA 11 0 .rwo 0x0, fA 13 12 .rwo 0x0, fA 15 14 .rwo 0x0, fA 25 16 .rwo 0x0, fA 31 31 .rwo 0x0]⟩,
  -- FRM_TTI_TX: TTI
  ⟨0x280200, [(16, 4)], [fA 31 0 .rwo 0x0]⟩,
  -- FRM_TTI_EXP: TTI
  ⟨0x280240, [(16, 4)], [fA 31 0 .rwo 0x0]⟩,
  -- FRM_TTI_ACC: TTI
  ⟨0x280280, [(16, 4)], [fA 31 0 .ro 0x0]⟩,
  -- FRM_CLM: MISMATCH
  ⟨0x280300, [(16, 4)], [fA 31 0 .ro 0x0]⟩,
  -- FRM_CLM_RX: ENTRY
  ⟨0x281000, [(512, 4)], [fA 31 0 .ro 0x0]⟩]

/-- FRM registers. -/
def regsFRM : List RegDesc := regsFRM0 ++ regsFRM1

/-- LCY registers. -/
def regsLCY : List RegDesc := [
  -- LCY_CTL: EN AUTO_ROT ROT_HOURS
  ⟨0x2A0000, [], [fA 0 0 .rwo 0x0, fA 1 1 .rwo 0x1, ⟨15, 8, .rwo, 0x18, .rng 1 168⟩]⟩,
  -- LCY_TX_KEY: SLOT_0 VALID_0 SLOT_1 VALID_1 PHASE
  ⟨0x2A0010, [], [⟨5, 0, .rw, 0x0, .rng 0 62⟩, fA 6 6 .rw 0x0, ⟨13, 8, .rw, 0x0, .rng 0 62⟩, fA 14 14 .rw 0x0, fA 16 16 .ro 0x0]⟩,
  -- LCY_RX_KEY: SLOT_0 VALID_0 SLOT_1 VALID_1 PHASE
  ⟨0x2A0014, [], [⟨5, 0, .rw, 0x0, .rng 0 62⟩, fA 6 6 .rw 0x0, ⟨13, 8, .rw, 0x0, .rng 0 62⟩, fA 14 14 .rw 0x0, fA 16 16 .ro 0x0]⟩,
  -- LCY_FLIP_FRAME_LO: F
  ⟨0x2A0018, [], [fA 31 0 .rw 0x0]⟩,
  -- LCY_FLIP_FRAME_HI: F
  ⟨0x2A001C, [], [fA 31 0 .rw 0x0]⟩,
  -- LCY_FLIP_CTL: ARM
  ⟨0x2A0020, [], [fA 0 0 .rw 0x0]⟩,
  -- LCY_STATUS: TX_RUN MUTE_CAUSE SEARCH PIPES_OK PIPES_NEED TEST_PIPE
  ⟨0x2A0030, [], [fA 0 0 .ro 0x0, fA 3 1 .ro 0x0, fA 4 4 .ro 0x0, fA 9 5 .ro 0x11, fA 14 10 .ro 0x0, fA 20 16 .ro 0x11]⟩,
  -- LCY_EVENT: FLIP_DONE FLIP_REJECT ROT_DUE KEY_AGE_WARN KEY_EXPIRED TAG_FAIL AAD_UNKNOWN EPOCH_FOUND EPOCH_NOT_FOUND PIPE_FAIL PIPE_SHORT TX_MUTE
  ⟨0x2A0034, [], [fA 0 0 .rw1c 0x0, fA 1 1 .rw1c 0x0, fA 2 2 .rw1c 0x0, fA 3 3 .rw1c 0x0, fA 4 4 .rw1c 0x0, fA 5 5 .rw1c 0x0, fA 6 6 .rw1c 0x0, fA 7 7 .rw1c 0x0, fA 8 8 .rw1c 0x0, fA 9 9 .rw1c 0x0, fA 10 10 .rw1c 0x0, fA 11 11 .rw1c 0x0]⟩,
  -- LCY_EVENT_EN: EN
  ⟨0x2A0038, [], [fA 11 0 .rw 0xF1C]⟩,
  -- LCY_KEY_AGE_LO: AGE
  ⟨0x2A0040, [], [fA 31 0 .ro 0x0]⟩,
  -- LCY_KEY_AGE_HI: AGE
  ⟨0x2A0044, [], [fA 31 0 .ro 0x0]⟩,
  -- LCY_RX_EPOCH: EPOCH
  ⟨0x2A0048, [], [fA 31 0 .rw 0x0]⟩,
  -- LCY_PIPE_FAIL: FAILED
  ⟨0x2A004C, [], [fA 17 0 .ro 0x0]⟩]

/-- The offset at which the table describes a register: line engine LNB's sub-blocks are laid out as LNA's (R497). -/
def localOff (off : Nat) : Nat := if 0x300000 ≤ off ∧ off < 0x400000 then off - 0x100000 else off

/-- The register descriptions of the block an offset lies in (R497). -/
def blockRegs (off : Nat) : List RegDesc :=
  if off < 0x10000 then regsGLB else if off < 0x20000 then regsCFG else if off < 0x30000 then regsFLT
  else if off < 0x38000 then regsTHM else if off < 0x40000 then regsMON else if off < 0x50000 then regsCLK
  else if off < 0x60000 then regsTIM else if off < 0x70000 then regsCPH else if off < 0x80000 then regsRIM
  else if off < 0x90000 then regsMEM else if off < 0xA0000 then regsD2D else if off < 0x100000 then regsHST
  else if off < 0x200000 then regsFLO else if off < 0x220000 then regsCNV else if off < 0x240000 then regsTXP
  else if off < 0x260000 then regsRXP else if off < 0x280000 then regsFEC else if off < 0x2A0000 then regsFRM
  else if off < 0x300000 then regsLCY else if off < 0x800000 then regsPMC else []

/-- The register at an offset, if the map has one there. -/
def regDesc (off : Nat) : Option RegDesc := (blockRegs (localOff off)).find? (·.hit (localOff off))

end Sys2Proof.Machine
end

