-- ==== Sys2Proof/Machine/Reg.lean ====
section
/-! DEFINITION. The names of the BAR0 registers and of their fields, as the spec's tables spell them.
A name `Reg.X` is the register's offset (a function of its indices); `Reg.X.F` is the field F of it. -/

namespace Sys2Proof.Machine

/-- A field of a register: the register's offset and the field's bits. -/
structure Fr where
  off : Nat
  hi : Nat
  lo : Nat
  deriving DecidableEq, Repr

@[reducible] def Reg.GLB_TICK_CNT_LO : Nat := 0x80
@[reducible] def Reg.GLB_TICK_CNT_LO.TICK_LO : Fr := ⟨Reg.GLB_TICK_CNT_LO, 31, 0⟩
@[reducible] def Reg.GLB_TICK_CNT_HI : Nat := 0x84
@[reducible] def Reg.GLB_TICK_CNT_HI.TICK_HI : Fr := ⟨Reg.GLB_TICK_CNT_HI, 31, 0⟩
@[reducible] def Reg.GLB_TICK_STATUS : Nat := 0x88
@[reducible] def Reg.GLB_TICK_STATUS.TB_LOCKED : Fr := ⟨Reg.GLB_TICK_STATUS, 0, 0⟩
@[reducible] def Reg.GLB_TICK_STATUS.HOLDOVER : Fr := ⟨Reg.GLB_TICK_STATUS, 1, 1⟩
@[reducible] def Reg.GLB_TICK_STATUS.OVERRUN_CNT : Fr := ⟨Reg.GLB_TICK_STATUS, 31, 16⟩
@[reducible] def Reg.GLB_TICK_EVENT : Nat := 0x8C
@[reducible] def Reg.GLB_TICK_EVENT.OVERRUN : Fr := ⟨Reg.GLB_TICK_EVENT, 0, 0⟩
@[reducible] def Reg.GLB_TICK_EVENT.LATE_ACTION : Fr := ⟨Reg.GLB_TICK_EVENT, 1, 1⟩
@[reducible] def Reg.GLB_TICK_EVENT.FRAME_REJECT : Fr := ⟨Reg.GLB_TICK_EVENT, 2, 2⟩
@[reducible] def Reg.GLB_TICK_EVENT_EN : Nat := 0x90
@[reducible] def Reg.GLB_TICK_EVENT_EN.EN : Fr := ⟨Reg.GLB_TICK_EVENT_EN, 2, 0⟩
@[reducible] def Reg.GLB_LINE_CTL : Nat := 0x94
@[reducible] def Reg.GLB_LINE_CTL.ENG_EN_0 : Fr := ⟨Reg.GLB_LINE_CTL, 0, 0⟩
@[reducible] def Reg.GLB_LINE_CTL.TX_EN_0 : Fr := ⟨Reg.GLB_LINE_CTL, 1, 1⟩
@[reducible] def Reg.GLB_LINE_CTL.RX_EN_0 : Fr := ⟨Reg.GLB_LINE_CTL, 2, 2⟩
@[reducible] def Reg.GLB_LINE_CTL.ENG_EN_1 : Fr := ⟨Reg.GLB_LINE_CTL, 4, 4⟩
@[reducible] def Reg.GLB_LINE_CTL.TX_EN_1 : Fr := ⟨Reg.GLB_LINE_CTL, 5, 5⟩
@[reducible] def Reg.GLB_LINE_CTL.RX_EN_1 : Fr := ⟨Reg.GLB_LINE_CTL, 6, 6⟩
@[reducible] def Reg.GLB_LINE_STATUS : Nat := 0x98
@[reducible] def Reg.GLB_LINE_STATUS.STATE_0 : Fr := ⟨Reg.GLB_LINE_STATUS, 1, 0⟩
@[reducible] def Reg.GLB_LINE_STATUS.STATE_1 : Fr := ⟨Reg.GLB_LINE_STATUS, 3, 2⟩
@[reducible] def Reg.FLO_STATUS : Nat := 0x100010
@[reducible] def Reg.FLO_STATUS.CAL_PEND_A : Fr := ⟨Reg.FLO_STATUS, 0, 0⟩
@[reducible] def Reg.FLO_STATUS.CAL_PEND_B : Fr := ⟨Reg.FLO_STATUS, 1, 1⟩
@[reducible] def Reg.FLO_STATUS.ANY_UNPROT : Fr := ⟨Reg.FLO_STATUS, 2, 2⟩
@[reducible] def Reg.FLO_EVENT : Nat := 0x100014
@[reducible] def Reg.FLO_EVENT.TX_DROP : Fr := ⟨Reg.FLO_EVENT, 0, 0⟩
@[reducible] def Reg.FLO_EVENT.BLK_CRC : Fr := ⟨Reg.FLO_EVENT, 1, 1⟩
@[reducible] def Reg.FLO_EVENT.BLK_HDR : Fr := ⟨Reg.FLO_EVENT, 2, 2⟩
@[reducible] def Reg.FLO_EVENT.RX_DISCARD : Fr := ⟨Reg.FLO_EVENT, 3, 3⟩
@[reducible] def Reg.FLO_EVENT.SEQ_LOST : Fr := ⟨Reg.FLO_EVENT, 4, 4⟩
@[reducible] def Reg.FLO_EVENT.SEQ_RESYNC : Fr := ⟨Reg.FLO_EVENT, 5, 5⟩
@[reducible] def Reg.FLO_EVENT.TWIN_UNPROT : Fr := ⟨Reg.FLO_EVENT, 6, 6⟩
@[reducible] def Reg.FLO_EVENT.TWIN_LATE : Fr := ⟨Reg.FLO_EVENT, 7, 7⟩
@[reducible] def Reg.FLO_EVENT.TWIN_REANCHOR : Fr := ⟨Reg.FLO_EVENT, 8, 8⟩
@[reducible] def Reg.FLO_EVENT.CAL_SWAP : Fr := ⟨Reg.FLO_EVENT, 9, 9⟩
@[reducible] def Reg.FLO_EVENT.CAL_REJECT : Fr := ⟨Reg.FLO_EVENT, 10, 10⟩
@[reducible] def Reg.FLO_EVENT.EGR_DROP : Fr := ⟨Reg.FLO_EVENT, 11, 11⟩
@[reducible] def Reg.FLO_EVENT.MERGE_FULL : Fr := ⟨Reg.FLO_EVENT, 12, 12⟩
@[reducible] def Reg.FLO_EVENT_EN : Nat := 0x100018
@[reducible] def Reg.FLO_EVENT_EN.EN : Fr := ⟨Reg.FLO_EVENT_EN, 12, 0⟩
@[reducible] def Reg.FLO_CAL_SEL (l : Nat) : Nat := 0x100100 + 0x4 * l
@[reducible] def Reg.FLO_CAL_SEL.ACTIVE (l : Nat) : Fr := ⟨Reg.FLO_CAL_SEL l, 0, 0⟩
@[reducible] def Reg.FLO_CAL_FRAME_LO (l : Nat) : Nat := 0x100110 + 0x10 * l
@[reducible] def Reg.FLO_CAL_FRAME_LO.FRAME_LO (l : Nat) : Fr := ⟨Reg.FLO_CAL_FRAME_LO l, 31, 0⟩
@[reducible] def Reg.FLO_CAL_FRAME_HI (l : Nat) : Nat := 0x100114 + 0x10 * l
@[reducible] def Reg.FLO_CAL_FRAME_HI.FRAME_HI (l : Nat) : Fr := ⟨Reg.FLO_CAL_FRAME_HI l, 31, 0⟩
@[reducible] def Reg.FLO_CAL_CTL (l : Nat) : Nat := 0x100118 + 0x10 * l
@[reducible] def Reg.FLO_CAL_CTL.ARM (l : Nat) : Fr := ⟨Reg.FLO_CAL_CTL l, 0, 0⟩
@[reducible] def Reg.FLO_PORT_CFG (p : Nat) : Nat := 0x100400 + 0x4 * p
@[reducible] def Reg.FLO_PORT_CFG.MODE (p : Nat) : Fr := ⟨Reg.FLO_PORT_CFG p, 1, 0⟩
@[reducible] def Reg.FLO_PORT_CFG.STAG (p : Nat) : Fr := ⟨Reg.FLO_PORT_CFG p, 2, 2⟩
@[reducible] def Reg.FLO_PORT_CFG.UNMATCHED_DROP (p : Nat) : Fr := ⟨Reg.FLO_PORT_CFG p, 3, 3⟩
@[reducible] def Reg.FLO_PORT_CFG.DEF_CHAN (p : Nat) : Fr := ⟨Reg.FLO_PORT_CFG p, 12, 4⟩
@[reducible] def Reg.FLO_PORT_CFG.MAX_LEN (p : Nat) : Fr := ⟨Reg.FLO_PORT_CFG p, 29, 16⟩
@[reducible] def Reg.FLO_CH_CFG (n : Nat) : Nat := 0x101000 + 0x4 * n
@[reducible] def Reg.FLO_CH_CFG.TX_EN (n : Nat) : Fr := ⟨Reg.FLO_CH_CFG n, 0, 0⟩
@[reducible] def Reg.FLO_CH_CFG.RX_EN (n : Nat) : Fr := ⟨Reg.FLO_CH_CFG n, 1, 1⟩
@[reducible] def Reg.FLO_CH_CFG.TWIN (n : Nat) : Fr := ⟨Reg.FLO_CH_CFG n, 2, 2⟩
@[reducible] def Reg.FLO_CH_CFG.TX_LINE (n : Nat) : Fr := ⟨Reg.FLO_CH_CFG n, 3, 3⟩
@[reducible] def Reg.FLO_CH_CFG.RX_LINE (n : Nat) : Fr := ⟨Reg.FLO_CH_CFG n, 4, 4⟩
@[reducible] def Reg.FLO_CH_CFG.EGR_FLEXE (n : Nat) : Fr := ⟨Reg.FLO_CH_CFG n, 5, 5⟩
@[reducible] def Reg.FLO_CH_CFG.EGR_PORT (n : Nat) : Fr := ⟨Reg.FLO_CH_CFG n, 11, 6⟩
@[reducible] def Reg.FLO_CH_CFG.EGR_FXC (n : Nat) : Fr := ⟨Reg.FLO_CH_CFG n, 19, 12⟩
@[reducible] def Reg.FLO_CH_CFG.LABEL (n : Nat) : Fr := ⟨Reg.FLO_CH_CFG n, 27, 20⟩
@[reducible] def Reg.FLO_CH_TWIN (n : Nat) : Nat := 0x101800 + 0x4 * n
@[reducible] def Reg.FLO_CH_TWIN.PLAYOUT_MF (n : Nat) : Fr := ⟨Reg.FLO_CH_TWIN n, 11, 0⟩
@[reducible] def Reg.FLO_CH_STATUS (n : Nat) : Nat := 0x102000 + 0x4 * n
@[reducible] def Reg.FLO_CH_STATUS.TWIN_STATE (n : Nat) : Fr := ⟨Reg.FLO_CH_STATUS n, 1, 0⟩
@[reducible] def Reg.FLO_CH_STATUS.ANCHOR (n : Nat) : Fr := ⟨Reg.FLO_CH_STATUS n, 2, 2⟩
@[reducible] def Reg.FLO_CH_STATUS.UNPROTECTED (n : Nat) : Fr := ⟨Reg.FLO_CH_STATUS n, 3, 3⟩
@[reducible] def Reg.FLO_CH_STATUS.TXQ_KIB (n : Nat) : Fr := ⟨Reg.FLO_CH_STATUS n, 31, 16⟩
@[reducible] def Reg.FLO_CH_SKEW (n : Nat) : Nat := 0x102800 + 0x4 * n
@[reducible] def Reg.FLO_CH_SKEW.SKEW (n : Nat) : Fr := ⟨Reg.FLO_CH_SKEW n, 31, 0⟩
@[reducible] def Reg.FLO_CAL (l b i : Nat) : Nat := 0x110000 + 0x8000 * l + 0x4000 * b + 0x4 * i
@[reducible] def Reg.FLO_CAL.CHAN (l b i : Nat) : Fr := ⟨Reg.FLO_CAL l b i, 8, 0⟩
@[reducible] def Reg.FLO_CAL.VALID (l b i : Nat) : Fr := ⟨Reg.FLO_CAL l b i, 15, 15⟩
@[reducible] def Reg.FLO_VLAN (k : Nat) : Nat := 0x120000 + 0x4 * k
@[reducible] def Reg.FLO_VLAN.PORT (k : Nat) : Fr := ⟨Reg.FLO_VLAN k, 5, 0⟩
@[reducible] def Reg.FLO_VLAN.VID (k : Nat) : Fr := ⟨Reg.FLO_VLAN k, 17, 6⟩
@[reducible] def Reg.FLO_VLAN.CHAN (k : Nat) : Fr := ⟨Reg.FLO_VLAN k, 26, 18⟩
@[reducible] def Reg.FLO_VLAN.VALID (k : Nat) : Fr := ⟨Reg.FLO_VLAN k, 31, 31⟩
@[reducible] def Reg.FLO_FXC (k : Nat) : Nat := 0x122000 + 0x4 * k
@[reducible] def Reg.FLO_FXC.CLIENT_ID (k : Nat) : Fr := ⟨Reg.FLO_FXC k, 15, 0⟩
@[reducible] def Reg.FLO_FXC.GROUP (k : Nat) : Fr := ⟨Reg.FLO_FXC k, 19, 16⟩
@[reducible] def Reg.FLO_FXC.CHAN (k : Nat) : Fr := ⟨Reg.FLO_FXC k, 28, 20⟩
@[reducible] def Reg.FLO_FXC.VALID (k : Nat) : Fr := ⟨Reg.FLO_FXC k, 31, 31⟩
@[reducible] def Reg.FRM_CTL (l : Nat) : Nat := 0x280000 + 0x100000 * l
@[reducible] def Reg.FRM_CTL.COMPAT (l : Nat) : Fr := ⟨Reg.FRM_CTL l, 0, 0⟩
@[reducible] def Reg.FRM_CTL.FOLLOW (l : Nat) : Fr := ⟨Reg.FRM_CTL l, 1, 1⟩
@[reducible] def Reg.FRM_CTL.ACCEPT_REMOTE (l : Nat) : Fr := ⟨Reg.FRM_CTL l, 2, 2⟩
@[reducible] def Reg.FRM_CTL.RDI (l : Nat) : Fr := ⟨Reg.FRM_CTL l, 3, 3⟩
@[reducible] def Reg.FRM_CTL.TX_PSL (l : Nat) : Fr := ⟨Reg.FRM_CTL l, 15, 8⟩
@[reducible] def Reg.FRM_CTL.EXP_PSL (l : Nat) : Fr := ⟨Reg.FRM_CTL l, 23, 16⟩
@[reducible] def Reg.FRM_CTL.TIM_MODE (l : Nat) : Fr := ⟨Reg.FRM_CTL l, 25, 24⟩
@[reducible] def Reg.FRM_STATUS (l : Nat) : Nat := 0x280010 + 0x100000 * l
@[reducible] def Reg.FRM_STATUS.DEF (l : Nat) : Fr := ⟨Reg.FRM_STATUS l, 10, 0⟩
@[reducible] def Reg.FRM_STATUS.OOF (l : Nat) : Fr := ⟨Reg.FRM_STATUS l, 11, 11⟩
@[reducible] def Reg.FRM_STATUS.OOM (l : Nat) : Fr := ⟨Reg.FRM_STATUS l, 12, 12⟩
@[reducible] def Reg.FRM_STATUS.RX_FMT (l : Nat) : Fr := ⟨Reg.FRM_STATUS l, 19, 16⟩
@[reducible] def Reg.FRM_STATUS.TX_FMT (l : Nat) : Fr := ⟨Reg.FRM_STATUS l, 23, 20⟩
@[reducible] def Reg.FRM_EVENT (l : Nat) : Nat := 0x280014 + 0x100000 * l
@[reducible] def Reg.FRM_EVENT.DEF_CHG (l : Nat) : Fr := ⟨Reg.FRM_EVENT l, 10, 0⟩
@[reducible] def Reg.FRM_EVENT.ALIGN_GAIN (l : Nat) : Fr := ⟨Reg.FRM_EVENT l, 11, 11⟩
@[reducible] def Reg.FRM_EVENT.ALIGN_LOSS (l : Nat) : Fr := ⟨Reg.FRM_EVENT l, 12, 12⟩
@[reducible] def Reg.FRM_EVENT.HUNT_OVF (l : Nat) : Fr := ⟨Reg.FRM_EVENT l, 13, 13⟩
@[reducible] def Reg.FRM_EVENT.SHIFT_DONE (l : Nat) : Fr := ⟨Reg.FRM_EVENT l, 14, 14⟩
@[reducible] def Reg.FRM_EVENT.SHIFT_FAIL (l : Nat) : Fr := ⟨Reg.FRM_EVENT l, 15, 15⟩
@[reducible] def Reg.FRM_EVENT.SHIFT_REJECT (l : Nat) : Fr := ⟨Reg.FRM_EVENT l, 16, 16⟩
@[reducible] def Reg.FRM_EVENT.FOLLOW (l : Nat) : Fr := ⟨Reg.FRM_EVENT l, 17, 17⟩
@[reducible] def Reg.FRM_EVENT.TAG_MISSING (l : Nat) : Fr := ⟨Reg.FRM_EVENT l, 18, 18⟩
@[reducible] def Reg.FRM_EVENT.FN_JUMP (l : Nat) : Fr := ⟨Reg.FRM_EVENT l, 19, 19⟩
@[reducible] def Reg.FRM_EVENT.SHIFT_LATE (l : Nat) : Fr := ⟨Reg.FRM_EVENT l, 20, 20⟩
@[reducible] def Reg.FRM_EVENT.GCC_LOSS (l : Nat) : Fr := ⟨Reg.FRM_EVENT l, 21, 21⟩
@[reducible] def Reg.FRM_EVENT_EN (l : Nat) : Nat := 0x280018 + 0x100000 * l
@[reducible] def Reg.FRM_EVENT_EN.EN (l : Nat) : Fr := ⟨Reg.FRM_EVENT_EN l, 21, 0⟩
@[reducible] def Reg.FRM_HUNT_CFG (l : Nat) : Nat := 0x280020 + 0x100000 * l
@[reducible] def Reg.FRM_HUNT_CFG.SYNC_THR (l : Nat) : Fr := ⟨Reg.FRM_HUNT_CFG l, 7, 0⟩
@[reducible] def Reg.FRM_HUNT_CFG.COMPAT_N (l : Nat) : Fr := ⟨Reg.FRM_HUNT_CFG l, 10, 8⟩
@[reducible] def Reg.FRM_HUNT_CFG.COMPAT_M (l : Nat) : Fr := ⟨Reg.FRM_HUNT_CFG l, 15, 12⟩
@[reducible] def Reg.FRM_DEG_CFG (l : Nat) : Nat := 0x280024 + 0x100000 * l
@[reducible] def Reg.FRM_DEG_CFG.DEG_INT (l : Nat) : Fr := ⟨Reg.FRM_DEG_CFG l, 19, 0⟩
@[reducible] def Reg.FRM_DEG_CFG.DEG_M (l : Nat) : Fr := ⟨Reg.FRM_DEG_CFG l, 23, 20⟩
@[reducible] def Reg.FRM_DEG_THR (l : Nat) : Nat := 0x280028 + 0x100000 * l
@[reducible] def Reg.FRM_DEG_THR.MANT (l : Nat) : Fr := ⟨Reg.FRM_DEG_THR l, 6, 0⟩
@[reducible] def Reg.FRM_DEG_THR.EXP (l : Nat) : Fr := ⟨Reg.FRM_DEG_THR l, 11, 8⟩
@[reducible] def Reg.FRM_LOS_THR (l : Nat) : Nat := 0x28002C + 0x100000 * l
@[reducible] def Reg.FRM_LOS_THR.LOS_THR (l : Nat) : Fr := ⟨Reg.FRM_LOS_THR l, 7, 0⟩
@[reducible] def Reg.FRM_TX_FN_LO (l : Nat) : Nat := 0x280030 + 0x100000 * l
@[reducible] def Reg.FRM_TX_FN_LO.TX_FN (l : Nat) : Fr := ⟨Reg.FRM_TX_FN_LO l, 31, 0⟩
@[reducible] def Reg.FRM_TX_FN_HI (l : Nat) : Nat := 0x280034 + 0x100000 * l
@[reducible] def Reg.FRM_TX_FN_HI.TX_FN (l : Nat) : Fr := ⟨Reg.FRM_TX_FN_HI l, 31, 0⟩
@[reducible] def Reg.FRM_RX_FN_LO (l : Nat) : Nat := 0x280038 + 0x100000 * l
@[reducible] def Reg.FRM_RX_FN_LO.RX_FN (l : Nat) : Fr := ⟨Reg.FRM_RX_FN_LO l, 31, 0⟩
@[reducible] def Reg.FRM_RX_FN_HI (l : Nat) : Nat := 0x28003C + 0x100000 * l
@[reducible] def Reg.FRM_RX_FN_HI.RX_FN (l : Nat) : Fr := ⟨Reg.FRM_RX_FN_HI l, 31, 0⟩
@[reducible] def Reg.FRM_FMT_SEL (l : Nat) : Nat := 0x280040 + 0x100000 * l
@[reducible] def Reg.FRM_FMT_SEL.TX_IDX (l : Nat) : Fr := ⟨Reg.FRM_FMT_SEL l, 3, 0⟩
@[reducible] def Reg.FRM_FMT_SEL.RX_IDX (l : Nat) : Fr := ⟨Reg.FRM_FMT_SEL l, 7, 4⟩
@[reducible] def Reg.FRM_SHIFT_CTL (l : Nat) : Nat := 0x280050 + 0x100000 * l
@[reducible] def Reg.FRM_SHIFT_CTL.NEW_IDX (l : Nat) : Fr := ⟨Reg.FRM_SHIFT_CTL l, 3, 0⟩
@[reducible] def Reg.FRM_SHIFT_CTL.START (l : Nat) : Fr := ⟨Reg.FRM_SHIFT_CTL l, 4, 4⟩
@[reducible] def Reg.FRM_SHIFT_ACT_LO (l : Nat) : Nat := 0x280054 + 0x100000 * l
@[reducible] def Reg.FRM_SHIFT_ACT_LO.ACT (l : Nat) : Fr := ⟨Reg.FRM_SHIFT_ACT_LO l, 31, 0⟩
@[reducible] def Reg.FRM_SHIFT_ACT_HI (l : Nat) : Nat := 0x280058 + 0x100000 * l
@[reducible] def Reg.FRM_SHIFT_ACT_HI.ACT (l : Nat) : Fr := ⟨Reg.FRM_SHIFT_ACT_HI l, 31, 0⟩
@[reducible] def Reg.FRM_SHIFT_STATUS (l : Nat) : Nat := 0x28005C + 0x100000 * l
@[reducible] def Reg.FRM_SHIFT_STATUS.TX_STATE (l : Nat) : Fr := ⟨Reg.FRM_SHIFT_STATUS l, 1, 0⟩
@[reducible] def Reg.FRM_SHIFT_STATUS.ROLE (l : Nat) : Fr := ⟨Reg.FRM_SHIFT_STATUS l, 2, 2⟩
@[reducible] def Reg.FRM_SHIFT_STATUS.RX_ARMED (l : Nat) : Fr := ⟨Reg.FRM_SHIFT_STATUS l, 3, 3⟩
@[reducible] def Reg.FRM_SHIFT_STATUS.NEW_IDX (l : Nat) : Fr := ⟨Reg.FRM_SHIFT_STATUS l, 7, 4⟩
@[reducible] def Reg.FRM_SHIFT_STATUS.FAIL_CAUSE (l : Nat) : Fr := ⟨Reg.FRM_SHIFT_STATUS l, 10, 8⟩
@[reducible] def Reg.FRM_SHIFT_RXACT_LO (l : Nat) : Nat := 0x280060 + 0x100000 * l
@[reducible] def Reg.FRM_SHIFT_RXACT_LO.RXACT (l : Nat) : Fr := ⟨Reg.FRM_SHIFT_RXACT_LO l, 31, 0⟩
@[reducible] def Reg.FRM_SHIFT_RXACT_HI (l : Nat) : Nat := 0x280064 + 0x100000 * l
@[reducible] def Reg.FRM_SHIFT_RXACT_HI.RXACT (l : Nat) : Fr := ⟨Reg.FRM_SHIFT_RXACT_HI l, 31, 0⟩
@[reducible] def Reg.FRM_GCC_CTL (l : Nat) : Nat := 0x280080 + 0x100000 * l
@[reducible] def Reg.FRM_GCC_CTL.TX_EN (l : Nat) : Fr := ⟨Reg.FRM_GCC_CTL l, 0, 0⟩
@[reducible] def Reg.FRM_GCC_CTL.RX_EN (l : Nat) : Fr := ⟨Reg.FRM_GCC_CTL l, 1, 1⟩
@[reducible] def Reg.FRM_GCC_CTL.TX_LOG2 (l : Nat) : Fr := ⟨Reg.FRM_GCC_CTL l, 19, 16⟩
@[reducible] def Reg.FRM_GCC_CTL.RX_LOG2 (l : Nat) : Fr := ⟨Reg.FRM_GCC_CTL l, 23, 20⟩
@[reducible] def Reg.FRM_GCC_TX_BASE (l : Nat) : Nat := 0x280084 + 0x100000 * l
@[reducible] def Reg.FRM_GCC_TX_BASE.BASE (l : Nat) : Fr := ⟨Reg.FRM_GCC_TX_BASE l, 21, 0⟩
@[reducible] def Reg.FRM_GCC_RX_BASE (l : Nat) : Nat := 0x280088 + 0x100000 * l
@[reducible] def Reg.FRM_GCC_RX_BASE.BASE (l : Nat) : Fr := ⟨Reg.FRM_GCC_RX_BASE l, 21, 0⟩
@[reducible] def Reg.FRM_GCC_TX_WR (l : Nat) : Nat := 0x28008C + 0x100000 * l
@[reducible] def Reg.FRM_GCC_TX_WR.IDX (l : Nat) : Fr := ⟨Reg.FRM_GCC_TX_WR l, 15, 0⟩
@[reducible] def Reg.FRM_GCC_TX_RD (l : Nat) : Nat := 0x280090 + 0x100000 * l
@[reducible] def Reg.FRM_GCC_TX_RD.IDX (l : Nat) : Fr := ⟨Reg.FRM_GCC_TX_RD l, 15, 0⟩
@[reducible] def Reg.FRM_GCC_RX_WR (l : Nat) : Nat := 0x280094 + 0x100000 * l
@[reducible] def Reg.FRM_GCC_RX_WR.IDX (l : Nat) : Fr := ⟨Reg.FRM_GCC_RX_WR l, 15, 0⟩
@[reducible] def Reg.FRM_GCC_RX_RD (l : Nat) : Nat := 0x280098 + 0x100000 * l
@[reducible] def Reg.FRM_GCC_RX_RD.IDX (l : Nat) : Fr := ⟨Reg.FRM_GCC_RX_RD l, 15, 0⟩
@[reducible] def Reg.FRM_FMT (l k : Nat) : Nat := 0x280100 + 0x100000 * l + 0x4 * k
@[reducible] def Reg.FRM_FMT.RS_CODE (l k : Nat) : Fr := ⟨Reg.FRM_FMT l k, 11, 0⟩
@[reducible] def Reg.FRM_FMT.M_CODE (l k : Nat) : Fr := ⟨Reg.FRM_FMT l k, 13, 12⟩
@[reducible] def Reg.FRM_FMT.RATE (l k : Nat) : Fr := ⟨Reg.FRM_FMT l k, 15, 14⟩
@[reducible] def Reg.FRM_FMT.H_64 (l k : Nat) : Fr := ⟨Reg.FRM_FMT l k, 25, 16⟩
@[reducible] def Reg.FRM_FMT.VALID (l k : Nat) : Fr := ⟨Reg.FRM_FMT l k, 31, 31⟩
@[reducible] def Reg.FRM_TTI_TX (l w : Nat) : Nat := 0x280200 + 0x100000 * l + 0x4 * w
@[reducible] def Reg.FRM_TTI_TX.TTI (l w : Nat) : Fr := ⟨Reg.FRM_TTI_TX l w, 31, 0⟩
@[reducible] def Reg.FRM_TTI_EXP (l w : Nat) : Nat := 0x280240 + 0x100000 * l + 0x4 * w
@[reducible] def Reg.FRM_TTI_EXP.TTI (l w : Nat) : Fr := ⟨Reg.FRM_TTI_EXP l w, 31, 0⟩
@[reducible] def Reg.FRM_TTI_ACC (l w : Nat) : Nat := 0x280280 + 0x100000 * l + 0x4 * w
@[reducible] def Reg.FRM_TTI_ACC.TTI (l w : Nat) : Fr := ⟨Reg.FRM_TTI_ACC l w, 31, 0⟩
@[reducible] def Reg.FRM_CLM (l w : Nat) : Nat := 0x280300 + 0x100000 * l + 0x4 * w
@[reducible] def Reg.FRM_CLM.MISMATCH (l w : Nat) : Fr := ⟨Reg.FRM_CLM l w, 31, 0⟩
@[reducible] def Reg.FRM_CLM_RX (l n : Nat) : Nat := 0x281000 + 0x100000 * l + 0x4 * n
@[reducible] def Reg.FRM_CLM_RX.ENTRY (l n : Nat) : Fr := ⟨Reg.FRM_CLM_RX l n, 31, 0⟩
@[reducible] def Reg.LCY_CTL (l : Nat) : Nat := 0x2A0000 + 0x100000 * l
@[reducible] def Reg.LCY_CTL.EN (l : Nat) : Fr := ⟨Reg.LCY_CTL l, 0, 0⟩
@[reducible] def Reg.LCY_CTL.AUTO_ROT (l : Nat) : Fr := ⟨Reg.LCY_CTL l, 1, 1⟩
@[reducible] def Reg.LCY_CTL.ROT_HOURS (l : Nat) : Fr := ⟨Reg.LCY_CTL l, 15, 8⟩
@[reducible] def Reg.LCY_TX_KEY (l : Nat) : Nat := 0x2A0010 + 0x100000 * l
@[reducible] def Reg.LCY_TX_KEY.SLOT_0 (l : Nat) : Fr := ⟨Reg.LCY_TX_KEY l, 5, 0⟩
@[reducible] def Reg.LCY_TX_KEY.VALID_0 (l : Nat) : Fr := ⟨Reg.LCY_TX_KEY l, 6, 6⟩
@[reducible] def Reg.LCY_TX_KEY.SLOT_1 (l : Nat) : Fr := ⟨Reg.LCY_TX_KEY l, 13, 8⟩
@[reducible] def Reg.LCY_TX_KEY.VALID_1 (l : Nat) : Fr := ⟨Reg.LCY_TX_KEY l, 14, 14⟩
@[reducible] def Reg.LCY_TX_KEY.PHASE (l : Nat) : Fr := ⟨Reg.LCY_TX_KEY l, 16, 16⟩
@[reducible] def Reg.LCY_RX_KEY (l : Nat) : Nat := 0x2A0014 + 0x100000 * l
@[reducible] def Reg.LCY_RX_KEY.SLOT_0 (l : Nat) : Fr := ⟨Reg.LCY_RX_KEY l, 5, 0⟩
@[reducible] def Reg.LCY_RX_KEY.VALID_0 (l : Nat) : Fr := ⟨Reg.LCY_RX_KEY l, 6, 6⟩
@[reducible] def Reg.LCY_RX_KEY.SLOT_1 (l : Nat) : Fr := ⟨Reg.LCY_RX_KEY l, 13, 8⟩
@[reducible] def Reg.LCY_RX_KEY.VALID_1 (l : Nat) : Fr := ⟨Reg.LCY_RX_KEY l, 14, 14⟩
@[reducible] def Reg.LCY_RX_KEY.PHASE (l : Nat) : Fr := ⟨Reg.LCY_RX_KEY l, 16, 16⟩
@[reducible] def Reg.LCY_FLIP_FRAME_LO (l : Nat) : Nat := 0x2A0018 + 0x100000 * l
@[reducible] def Reg.LCY_FLIP_FRAME_LO.F (l : Nat) : Fr := ⟨Reg.LCY_FLIP_FRAME_LO l, 31, 0⟩
@[reducible] def Reg.LCY_FLIP_FRAME_HI (l : Nat) : Nat := 0x2A001C + 0x100000 * l
@[reducible] def Reg.LCY_FLIP_FRAME_HI.F (l : Nat) : Fr := ⟨Reg.LCY_FLIP_FRAME_HI l, 31, 0⟩
@[reducible] def Reg.LCY_FLIP_CTL (l : Nat) : Nat := 0x2A0020 + 0x100000 * l
@[reducible] def Reg.LCY_FLIP_CTL.ARM (l : Nat) : Fr := ⟨Reg.LCY_FLIP_CTL l, 0, 0⟩
@[reducible] def Reg.LCY_STATUS (l : Nat) : Nat := 0x2A0030 + 0x100000 * l
@[reducible] def Reg.LCY_STATUS.TX_RUN (l : Nat) : Fr := ⟨Reg.LCY_STATUS l, 0, 0⟩
@[reducible] def Reg.LCY_STATUS.MUTE_CAUSE (l : Nat) : Fr := ⟨Reg.LCY_STATUS l, 3, 1⟩
@[reducible] def Reg.LCY_STATUS.SEARCH (l : Nat) : Fr := ⟨Reg.LCY_STATUS l, 4, 4⟩
@[reducible] def Reg.LCY_STATUS.PIPES_OK (l : Nat) : Fr := ⟨Reg.LCY_STATUS l, 9, 5⟩
@[reducible] def Reg.LCY_STATUS.PIPES_NEED (l : Nat) : Fr := ⟨Reg.LCY_STATUS l, 14, 10⟩
@[reducible] def Reg.LCY_STATUS.TEST_PIPE (l : Nat) : Fr := ⟨Reg.LCY_STATUS l, 20, 16⟩
@[reducible] def Reg.LCY_EVENT (l : Nat) : Nat := 0x2A0034 + 0x100000 * l
@[reducible] def Reg.LCY_EVENT.FLIP_DONE (l : Nat) : Fr := ⟨Reg.LCY_EVENT l, 0, 0⟩
@[reducible] def Reg.LCY_EVENT.FLIP_REJECT (l : Nat) : Fr := ⟨Reg.LCY_EVENT l, 1, 1⟩
@[reducible] def Reg.LCY_EVENT.ROT_DUE (l : Nat) : Fr := ⟨Reg.LCY_EVENT l, 2, 2⟩
@[reducible] def Reg.LCY_EVENT.KEY_AGE_WARN (l : Nat) : Fr := ⟨Reg.LCY_EVENT l, 3, 3⟩
@[reducible] def Reg.LCY_EVENT.KEY_EXPIRED (l : Nat) : Fr := ⟨Reg.LCY_EVENT l, 4, 4⟩
@[reducible] def Reg.LCY_EVENT.TAG_FAIL (l : Nat) : Fr := ⟨Reg.LCY_EVENT l, 5, 5⟩
@[reducible] def Reg.LCY_EVENT.AAD_UNKNOWN (l : Nat) : Fr := ⟨Reg.LCY_EVENT l, 6, 6⟩
@[reducible] def Reg.LCY_EVENT.EPOCH_FOUND (l : Nat) : Fr := ⟨Reg.LCY_EVENT l, 7, 7⟩
@[reducible] def Reg.LCY_EVENT.EPOCH_NOT_FOUND (l : Nat) : Fr := ⟨Reg.LCY_EVENT l, 8, 8⟩
@[reducible] def Reg.LCY_EVENT.PIPE_FAIL (l : Nat) : Fr := ⟨Reg.LCY_EVENT l, 9, 9⟩
@[reducible] def Reg.LCY_EVENT.PIPE_SHORT (l : Nat) : Fr := ⟨Reg.LCY_EVENT l, 10, 10⟩
@[reducible] def Reg.LCY_EVENT.TX_MUTE (l : Nat) : Fr := ⟨Reg.LCY_EVENT l, 11, 11⟩
@[reducible] def Reg.LCY_EVENT_EN (l : Nat) : Nat := 0x2A0038 + 0x100000 * l
@[reducible] def Reg.LCY_EVENT_EN.EN (l : Nat) : Fr := ⟨Reg.LCY_EVENT_EN l, 11, 0⟩
@[reducible] def Reg.LCY_KEY_AGE_LO (l : Nat) : Nat := 0x2A0040 + 0x100000 * l
@[reducible] def Reg.LCY_KEY_AGE_LO.AGE (l : Nat) : Fr := ⟨Reg.LCY_KEY_AGE_LO l, 31, 0⟩
@[reducible] def Reg.LCY_KEY_AGE_HI (l : Nat) : Nat := 0x2A0044 + 0x100000 * l
@[reducible] def Reg.LCY_KEY_AGE_HI.AGE (l : Nat) : Fr := ⟨Reg.LCY_KEY_AGE_HI l, 31, 0⟩
@[reducible] def Reg.LCY_RX_EPOCH (l : Nat) : Nat := 0x2A0048 + 0x100000 * l
@[reducible] def Reg.LCY_RX_EPOCH.EPOCH (l : Nat) : Fr := ⟨Reg.LCY_RX_EPOCH l, 31, 0⟩
@[reducible] def Reg.LCY_PIPE_FAIL (l : Nat) : Nat := 0x2A004C + 0x100000 * l
@[reducible] def Reg.LCY_PIPE_FAIL.FAILED (l : Nat) : Fr := ⟨Reg.LCY_PIPE_FAIL l, 17, 0⟩
@[reducible] def Reg.CPH_EPOCH : Nat := 0x60000
@[reducible] def Reg.CPH_EPOCH.EPOCH : Fr := ⟨Reg.CPH_EPOCH, 31, 0⟩
@[reducible] def Reg.CPH_EPOCH_STATUS : Nat := 0x60004
@[reducible] def Reg.CPH_EPOCH_STATUS.STATE : Fr := ⟨Reg.CPH_EPOCH_STATUS, 1, 0⟩
@[reducible] def Reg.CPH_EPOCH_STATUS.TRIES : Fr := ⟨Reg.CPH_EPOCH_STATUS, 4, 2⟩
@[reducible] def Reg.CPH_EPOCH_CTL : Nat := 0x60008
@[reducible] def Reg.CPH_EPOCH_CTL.RETRY : Fr := ⟨Reg.CPH_EPOCH_CTL, 0, 0⟩
@[reducible] def Reg.CPH_KEY_STATE (k : Nat) : Nat := 0x60100 + 0x4 * k
@[reducible] def Reg.CPH_KEY_STATE.USAGE (k : Nat) : Fr := ⟨Reg.CPH_KEY_STATE k, 2, 0⟩
@[reducible] def Reg.CPH_KEY_STATE.LOCKED (k : Nat) : Fr := ⟨Reg.CPH_KEY_STATE k, 3, 3⟩
@[reducible] def Reg.CPH_KEY_STATE.IN_USE (k : Nat) : Fr := ⟨Reg.CPH_KEY_STATE k, 4, 4⟩
@[reducible] def Reg.CPH_KEY_WRAP (w : Nat) : Nat := 0x60200 + 0x4 * w
@[reducible] def Reg.CPH_KEY_WRAP.WRAP (w : Nat) : Fr := ⟨Reg.CPH_KEY_WRAP w, 31, 0⟩
@[reducible] def Reg.CPH_KEY_LOAD : Nat := 0x60230
@[reducible] def Reg.CPH_KEY_LOAD.SLOT : Fr := ⟨Reg.CPH_KEY_LOAD, 5, 0⟩
@[reducible] def Reg.CPH_KEY_LOAD.USAGE : Fr := ⟨Reg.CPH_KEY_LOAD, 10, 8⟩
@[reducible] def Reg.CPH_KEY_LOAD.GO : Fr := ⟨Reg.CPH_KEY_LOAD, 11, 11⟩
@[reducible] def Reg.CPH_KEY_LOAD.ZERO : Fr := ⟨Reg.CPH_KEY_LOAD, 12, 12⟩
@[reducible] def Reg.CPH_KEY_RESULT : Nat := 0x60234
@[reducible] def Reg.CPH_KEY_RESULT.CODE : Fr := ⟨Reg.CPH_KEY_RESULT, 2, 0⟩
@[reducible] def Reg.CPH_HQ_CFG : Nat := 0x60300
@[reducible] def Reg.CPH_HQ_CFG.LOG2 : Fr := ⟨Reg.CPH_HQ_CFG, 3, 0⟩
@[reducible] def Reg.CPH_HQ_CFG.EN : Fr := ⟨Reg.CPH_HQ_CFG, 4, 4⟩
@[reducible] def Reg.CPH_HQ_DESC_BASE : Nat := 0x60304
@[reducible] def Reg.CPH_HQ_DESC_BASE.BASE : Fr := ⟨Reg.CPH_HQ_DESC_BASE, 21, 0⟩
@[reducible] def Reg.CPH_HQ_CPL_BASE : Nat := 0x60308
@[reducible] def Reg.CPH_HQ_CPL_BASE.BASE : Fr := ⟨Reg.CPH_HQ_CPL_BASE, 21, 0⟩
@[reducible] def Reg.CPH_HQ_WR : Nat := 0x6030C
@[reducible] def Reg.CPH_HQ_WR.IDX : Fr := ⟨Reg.CPH_HQ_WR, 15, 0⟩
@[reducible] def Reg.CPH_HQ_RD : Nat := 0x60310
@[reducible] def Reg.CPH_HQ_RD.IDX : Fr := ⟨Reg.CPH_HQ_RD, 15, 0⟩
@[reducible] def Reg.CPH_HQ_CPL_WR : Nat := 0x60314
@[reducible] def Reg.CPH_HQ_CPL_WR.IDX : Fr := ⟨Reg.CPH_HQ_CPL_WR, 15, 0⟩
@[reducible] def Reg.CPH_HQ_CPL_RD : Nat := 0x60318
@[reducible] def Reg.CPH_HQ_CPL_RD.IDX : Fr := ⟨Reg.CPH_HQ_CPL_RD, 15, 0⟩
@[reducible] def Reg.CPH_Q_DEPTH : Nat := 0x60320
@[reducible] def Reg.CPH_Q_DEPTH.DEPTH : Fr := ⟨Reg.CPH_Q_DEPTH, 31, 0⟩
@[reducible] def Reg.CPH_DEVCTR (k : Nat) : Nat := 0x60400 + 0x4 * k
@[reducible] def Reg.CPH_DEVCTR.N (k : Nat) : Fr := ⟨Reg.CPH_DEVCTR k, 31, 0⟩
@[reducible] def Reg.CPH_EVENT : Nat := 0x60334
@[reducible] def Reg.CPH_EVENT.EPOCH_FAIL : Fr := ⟨Reg.CPH_EVENT, 0, 0⟩
@[reducible] def Reg.CPH_EVENT.KEY_LOAD_FAIL : Fr := ⟨Reg.CPH_EVENT, 1, 1⟩
@[reducible] def Reg.CPH_EVENT.REQ_ERR : Fr := ⟨Reg.CPH_EVENT, 2, 2⟩
@[reducible] def Reg.CPH_EVENT.KAT_FAIL : Fr := ⟨Reg.CPH_EVENT, 3, 3⟩
@[reducible] def Reg.CPH_EVENT_EN : Nat := 0x60338
@[reducible] def Reg.CPH_EVENT_EN.EN : Fr := ⟨Reg.CPH_EVENT_EN, 3, 0⟩
@[reducible] def Reg.FEC_DEC_CFG (l : Nat) : Nat := 0x260000 + 0x100000 * l
@[reducible] def Reg.FEC_DEC_CFG.ITER_CAP (l : Nat) : Fr := ⟨Reg.FEC_DEC_CFG l, 4, 0⟩
@[reducible] def Reg.FEC_DEC_CFG.LOOP_EN (l : Nat) : Fr := ⟨Reg.FEC_DEC_CFG l, 5, 5⟩
@[reducible] def Reg.FEC_DEC_CFG.OFFSET (l : Nat) : Fr := ⟨Reg.FEC_DEC_CFG l, 9, 8⟩
@[reducible] def Reg.FEC_DEC_STATUS (l : Nat) : Nat := 0x260010 + 0x100000 * l
@[reducible] def Reg.FEC_DEC_STATUS.CAP_THERM (l : Nat) : Fr := ⟨Reg.FEC_DEC_STATUS l, 4, 0⟩
@[reducible] def Reg.FEC_DEC_STATUS.CAP_IN_FORCE (l : Nat) : Fr := ⟨Reg.FEC_DEC_STATUS l, 9, 5⟩
@[reducible] def Reg.FEC_DEC_STATUS.THROTTLED (l : Nat) : Fr := ⟨Reg.FEC_DEC_STATUS l, 10, 10⟩
@[reducible] def Reg.FEC_DEC_STATUS.LOOP_SUSP (l : Nat) : Fr := ⟨Reg.FEC_DEC_STATUS l, 11, 11⟩
@[reducible] def Reg.FEC_EVENT (l : Nat) : Nat := 0x260014 + 0x100000 * l
@[reducible] def Reg.FEC_EVENT.UNCORR (l : Nat) : Fr := ⟨Reg.FEC_EVENT l, 0, 0⟩
@[reducible] def Reg.FEC_EVENT.CUTOFF (l : Nat) : Fr := ⟨Reg.FEC_EVENT l, 1, 1⟩
@[reducible] def Reg.FEC_EVENT.SLOT_DISCARD (l : Nat) : Fr := ⟨Reg.FEC_EVENT l, 2, 2⟩
@[reducible] def Reg.FEC_EVENT.THROTTLE_ON (l : Nat) : Fr := ⟨Reg.FEC_EVENT l, 3, 3⟩
@[reducible] def Reg.FEC_EVENT.THROTTLE_OFF (l : Nat) : Fr := ⟨Reg.FEC_EVENT l, 4, 4⟩
@[reducible] def Reg.FEC_EVENT.LOOP_SUSP (l : Nat) : Fr := ⟨Reg.FEC_EVENT l, 5, 5⟩
@[reducible] def Reg.FEC_EVENT.ERASURE (l : Nat) : Fr := ⟨Reg.FEC_EVENT l, 6, 6⟩
@[reducible] def Reg.FEC_EVENT.STORE_ERR (l : Nat) : Fr := ⟨Reg.FEC_EVENT l, 7, 7⟩
@[reducible] def Reg.FEC_EVENT_EN (l : Nat) : Nat := 0x260018 + 0x100000 * l
@[reducible] def Reg.FEC_EVENT_EN.EN (l : Nat) : Fr := ⟨Reg.FEC_EVENT_EN l, 7, 0⟩
@[reducible] def Reg.FEC_CW_CNT (l : Nat) : Nat := 0x260020 + 0x100000 * l
@[reducible] def Reg.FEC_CW_CNT.CW (l : Nat) : Fr := ⟨Reg.FEC_CW_CNT l, 31, 0⟩
@[reducible] def Reg.FEC_ITER_SUM (l : Nat) : Nat := 0x260024 + 0x100000 * l
@[reducible] def Reg.FEC_ITER_SUM.SUM (l : Nat) : Fr := ⟨Reg.FEC_ITER_SUM l, 31, 0⟩
@[reducible] def Reg.FEC_ITER_MAX (l : Nat) : Nat := 0x260028 + 0x100000 * l
@[reducible] def Reg.FEC_ITER_MAX.MAX (l : Nat) : Fr := ⟨Reg.FEC_ITER_MAX l, 4, 0⟩
@[reducible] def Reg.FEC_UNCORR_CNT (l : Nat) : Nat := 0x26002C + 0x100000 * l
@[reducible] def Reg.FEC_UNCORR_CNT.UNCORR (l : Nat) : Fr := ⟨Reg.FEC_UNCORR_CNT l, 31, 0⟩
@[reducible] def Reg.FEC_BIT_CNT (l : Nat) : Nat := 0x260030 + 0x100000 * l
@[reducible] def Reg.FEC_BIT_CNT.BITS (l : Nat) : Fr := ⟨Reg.FEC_BIT_CNT l, 31, 0⟩
@[reducible] def Reg.FEC_FLIP_CNT (l : Nat) : Nat := 0x260034 + 0x100000 * l
@[reducible] def Reg.FEC_FLIP_CNT.FLIPS (l : Nat) : Fr := ⟨Reg.FEC_FLIP_CNT l, 31, 0⟩
@[reducible] def Reg.FEC_ERASED_CNT (l : Nat) : Nat := 0x260038 + 0x100000 * l
@[reducible] def Reg.FEC_ERASED_CNT.ERASED (l : Nat) : Fr := ⟨Reg.FEC_ERASED_CNT l, 31, 0⟩
@[reducible] def Reg.FEC_PREBER (l : Nat) : Nat := 0x260044 + 0x100000 * l
@[reducible] def Reg.FEC_PREBER.BER_LOG (l : Nat) : Fr := ⟨Reg.FEC_PREBER l, 15, 0⟩
@[reducible] def Reg.FEC_MARGIN (l : Nat) : Nat := 0x260048 + 0x100000 * l
@[reducible] def Reg.FEC_MARGIN.MARGIN (l : Nat) : Fr := ⟨Reg.FEC_MARGIN l, 15, 0⟩
@[reducible] def Reg.TXP_CTL (l : Nat) : Nat := 0x220000 + 0x100000 * l
@[reducible] def Reg.TXP_CTL.MUTE (l : Nat) : Fr := ⟨Reg.TXP_CTL l, 0, 0⟩
@[reducible] def Reg.TXP_CTL.RIME_EN (l : Nat) : Fr := ⟨Reg.TXP_CTL l, 1, 1⟩
@[reducible] def Reg.TXP_CTL.RIME_DEPTH (l : Nat) : Fr := ⟨Reg.TXP_CTL l, 6, 2⟩
@[reducible] def Reg.TXP_CTL.PS_SEL (l : Nat) : Fr := ⟨Reg.TXP_CTL l, 9, 8⟩
@[reducible] def Reg.TXP_CTL.PE_EN (l : Nat) : Fr := ⟨Reg.TXP_CTL l, 10, 10⟩
@[reducible] def Reg.TXP_CTL.DPD_EN (l : Nat) : Fr := ⟨Reg.TXP_CTL l, 11, 11⟩
@[reducible] def Reg.TXP_CTL.PILOT_BOOST (l : Nat) : Fr := ⟨Reg.TXP_CTL l, 15, 12⟩
@[reducible] def Reg.TXP_CTL.HOLD (l : Nat) : Fr := ⟨Reg.TXP_CTL l, 16, 16⟩
@[reducible] def Reg.TXP_STATUS (l : Nat) : Nat := 0x220010 + 0x100000 * l
@[reducible] def Reg.TXP_STATUS.MUTE_SRC (l : Nat) : Fr := ⟨Reg.TXP_STATUS l, 6, 0⟩
@[reducible] def Reg.TXP_STATUS.MUTED (l : Nat) : Fr := ⟨Reg.TXP_STATUS l, 7, 7⟩
@[reducible] def Reg.TXP_STATUS.MASK_VIOL (l : Nat) : Fr := ⟨Reg.TXP_STATUS l, 8, 8⟩
@[reducible] def Reg.TXP_STATUS.HOLD_PEND (l : Nat) : Fr := ⟨Reg.TXP_STATUS l, 9, 9⟩
@[reducible] def Reg.TXP_EVENT (l : Nat) : Nat := 0x220014 + 0x100000 * l
@[reducible] def Reg.TXP_EVENT.MUTE_ON (l : Nat) : Fr := ⟨Reg.TXP_EVENT l, 0, 0⟩
@[reducible] def Reg.TXP_EVENT.MUTE_OFF (l : Nat) : Fr := ⟨Reg.TXP_EVENT l, 1, 1⟩
@[reducible] def Reg.TXP_EVENT.MASK_VIOL (l : Nat) : Fr := ⟨Reg.TXP_EVENT l, 2, 2⟩
@[reducible] def Reg.TXP_EVENT.MASK_CLEAR (l : Nat) : Fr := ⟨Reg.TXP_EVENT l, 3, 3⟩
@[reducible] def Reg.TXP_EVENT.CLIP (l : Nat) : Fr := ⟨Reg.TXP_EVENT l, 4, 4⟩
@[reducible] def Reg.TXP_EVENT.RELOCK_DONE (l : Nat) : Fr := ⟨Reg.TXP_EVENT l, 5, 5⟩
@[reducible] def Reg.TXP_EVENT_EN (l : Nat) : Nat := 0x220018 + 0x100000 * l
@[reducible] def Reg.TXP_EVENT_EN.EN (l : Nat) : Fr := ⟨Reg.TXP_EVENT_EN l, 5, 0⟩
@[reducible] def Reg.TXP_GAIN (l : Nat) : Nat := 0x220020 + 0x100000 * l
@[reducible] def Reg.TXP_GAIN.GAIN (l : Nat) : Fr := ⟨Reg.TXP_GAIN l, 11, 0⟩
@[reducible] def Reg.TXP_CLIP_CNT (l : Nat) : Nat := 0x220024 + 0x100000 * l
@[reducible] def Reg.TXP_CLIP_CNT.CLIP (l : Nat) : Fr := ⟨Reg.TXP_CLIP_CNT l, 31, 0⟩
@[reducible] def Reg.TXP_MASK_CFG (l : Nat) : Nat := 0x220030 + 0x100000 * l
@[reducible] def Reg.TXP_MASK_CFG.DEBOUNCE (l : Nat) : Fr := ⟨Reg.TXP_MASK_CFG l, 3, 0⟩
@[reducible] def Reg.TXP_PAS_INFO (l : Nat) : Nat := 0x220040 + 0x100000 * l
@[reducible] def Reg.TXP_PAS_INFO.U (l : Nat) : Fr := ⟨Reg.TXP_PAS_INFO l, 19, 0⟩
@[reducible] def Reg.TXP_PAS_INFO.S (l : Nat) : Fr := ⟨Reg.TXP_PAS_INFO l, 25, 20⟩
@[reducible] def Reg.TXP_INFO_BITS (l : Nat) : Nat := 0x220044 + 0x100000 * l
@[reducible] def Reg.TXP_INFO_BITS.I (l : Nat) : Fr := ⟨Reg.TXP_INFO_BITS l, 19, 0⟩
@[reducible] def Reg.TXP_PAS_COMP (l i : Nat) : Nat := 0x220050 + 0x100000 * l + 0x4 * i
@[reducible] def Reg.TXP_PAS_COMP.N (l i : Nat) : Fr := ⟨Reg.TXP_PAS_COMP l i, 9, 0⟩
@[reducible] def Reg.TXP_PS_TAP (l p t : Nat) : Nat := 0x221000 + 0x100000 * l + 0x200 * p + 0x4 * t
@[reducible] def Reg.TXP_PS_TAP.RE (l p t : Nat) : Fr := ⟨Reg.TXP_PS_TAP l p t, 15, 0⟩
@[reducible] def Reg.TXP_PS_TAP.IM (l p t : Nat) : Fr := ⟨Reg.TXP_PS_TAP l p t, 31, 16⟩
@[reducible] def Reg.TXP_PE_TAP (l c t : Nat) : Nat := 0x221400 + 0x100000 * l + 0x100 * c + 0x4 * t
@[reducible] def Reg.TXP_PE_TAP.TAP (l c t : Nat) : Fr := ⟨Reg.TXP_PE_TAP l c t, 15, 0⟩
@[reducible] def Reg.TXP_DPD (l c q : Nat) : Nat := 0x221800 + 0x100000 * l + 0x20 * c + 0x4 * q
@[reducible] def Reg.TXP_DPD.A3 (l c q : Nat) : Fr := ⟨Reg.TXP_DPD l c q, 15, 0⟩
@[reducible] def Reg.TXP_DPD.A5 (l c q : Nat) : Fr := ⟨Reg.TXP_DPD l c q, 31, 16⟩
@[reducible] def Reg.TXP_SKEW (l c : Nat) : Nat := 0x221900 + 0x100000 * l + 0x4 * c
@[reducible] def Reg.TXP_SKEW.SKEW (l c : Nat) : Fr := ⟨Reg.TXP_SKEW l c, 12, 0⟩
@[reducible] def Reg.TXP_IQ_A (l p : Nat) : Nat := 0x221910 + 0x100000 * l + 0x8 * p
@[reducible] def Reg.TXP_IQ_A.M11 (l p : Nat) : Fr := ⟨Reg.TXP_IQ_A l p, 15, 0⟩
@[reducible] def Reg.TXP_IQ_A.M12 (l p : Nat) : Fr := ⟨Reg.TXP_IQ_A l p, 31, 16⟩
@[reducible] def Reg.TXP_IQ_B (l p : Nat) : Nat := 0x221914 + 0x100000 * l + 0x8 * p
@[reducible] def Reg.TXP_IQ_B.M21 (l p : Nat) : Fr := ⟨Reg.TXP_IQ_B l p, 15, 0⟩
@[reducible] def Reg.TXP_IQ_B.M22 (l p : Nat) : Fr := ⟨Reg.TXP_IQ_B l p, 31, 16⟩
@[reducible] def Reg.TXP_MASK (l b : Nat) : Nat := 0x222000 + 0x100000 * l + 0x4 * b
@[reducible] def Reg.TXP_MASK.LIMIT (l b : Nat) : Fr := ⟨Reg.TXP_MASK l b, 7, 0⟩
@[reducible] def Reg.TXP_MASK.REF (l b : Nat) : Fr := ⟨Reg.TXP_MASK l b, 8, 8⟩
@[reducible] def Reg.TXP_MASK.CHECK (l b : Nat) : Fr := ⟨Reg.TXP_MASK l b, 9, 9⟩
@[reducible] def Reg.TXP_PSD (l b : Nat) : Nat := 0x222100 + 0x100000 * l + 0x4 * b
@[reducible] def Reg.TXP_PSD.LEVEL (l b : Nat) : Fr := ⟨Reg.TXP_PSD l b, 15, 0⟩
@[reducible] def Reg.CNV_CTL (l : Nat) : Nat := 0x200000 + 0x100000 * l
@[reducible] def Reg.CNV_CTL.BG_EN (l : Nat) : Fr := ⟨Reg.CNV_CTL l, 0, 0⟩
@[reducible] def Reg.CNV_CTL.AUTO_MASK (l : Nat) : Fr := ⟨Reg.CNV_CTL l, 1, 1⟩
@[reducible] def Reg.CNV_CTL.SKEW_EN (l : Nat) : Fr := ⟨Reg.CNV_CTL l, 2, 2⟩
@[reducible] def Reg.CNV_CTL.DELTA_T (l : Nat) : Fr := ⟨Reg.CNV_CTL l, 13, 8⟩
@[reducible] def Reg.CNV_CTL.START (l : Nat) : Fr := ⟨Reg.CNV_CTL l, 16, 16⟩
@[reducible] def Reg.CNV_CAL_CFG (l : Nat) : Nat := 0x200004 + 0x100000 * l
@[reducible] def Reg.CNV_CAL_CFG.STEP_TICKS (l : Nat) : Fr := ⟨Reg.CNV_CAL_CFG l, 15, 0⟩
@[reducible] def Reg.CNV_CAL_CFG.PERIOD_S (l : Nat) : Fr := ⟨Reg.CNV_CAL_CFG l, 31, 16⟩
@[reducible] def Reg.CNV_FAIL_CFG (l : Nat) : Nat := 0x200008 + 0x100000 * l
@[reducible] def Reg.CNV_FAIL_CFG.MEAN_LIM (l : Nat) : Fr := ⟨Reg.CNV_FAIL_CFG l, 4, 0⟩
@[reducible] def Reg.CNV_FAIL_CFG.PWR_LIM (l : Nat) : Fr := ⟨Reg.CNV_FAIL_CFG l, 12, 8⟩
@[reducible] def Reg.CNV_STATUS (l : Nat) : Nat := 0x200010 + 0x100000 * l
@[reducible] def Reg.CNV_STATUS.FG_DONE (l : Nat) : Fr := ⟨Reg.CNV_STATUS l, 0, 0⟩
@[reducible] def Reg.CNV_STATUS.PASS_RUN (l : Nat) : Fr := ⟨Reg.CNV_STATUS l, 1, 1⟩
@[reducible] def Reg.CNV_STATUS.SUSPEND (l : Nat) : Fr := ⟨Reg.CNV_STATUS l, 4, 2⟩
@[reducible] def Reg.CNV_STATUS.SETS (l : Nat) : Fr := ⟨Reg.CNV_STATUS l, 8, 5⟩
@[reducible] def Reg.CNV_STATUS.ADC_SPARES_MIN (l : Nat) : Fr := ⟨Reg.CNV_STATUS l, 10, 9⟩
@[reducible] def Reg.CNV_STATUS.DAC_SPARES_MIN (l : Nat) : Fr := ⟨Reg.CNV_STATUS l, 14, 11⟩
@[reducible] def Reg.CNV_STATUS.EXHAUSTED (l : Nat) : Fr := ⟨Reg.CNV_STATUS l, 15, 15⟩
@[reducible] def Reg.CNV_STATUS.UNMASKED (l : Nat) : Fr := ⟨Reg.CNV_STATUS l, 16, 16⟩
@[reducible] def Reg.CNV_STATUS.STALE (l : Nat) : Fr := ⟨Reg.CNV_STATUS l, 17, 17⟩
@[reducible] def Reg.CNV_EVENT (l : Nat) : Nat := 0x200014 + 0x100000 * l
@[reducible] def Reg.CNV_EVENT.FG_FAIL (l : Nat) : Fr := ⟨Reg.CNV_EVENT l, 0, 0⟩
@[reducible] def Reg.CNV_EVENT.PASS_DONE (l : Nat) : Fr := ⟨Reg.CNV_EVENT l, 1, 1⟩
@[reducible] def Reg.CNV_EVENT.PASS_UNSTORED (l : Nat) : Fr := ⟨Reg.CNV_EVENT l, 2, 2⟩
@[reducible] def Reg.CNV_EVENT.ADC_FAIL (l : Nat) : Fr := ⟨Reg.CNV_EVENT l, 3, 3⟩
@[reducible] def Reg.CNV_EVENT.DAC_FAIL (l : Nat) : Fr := ⟨Reg.CNV_EVENT l, 4, 4⟩
@[reducible] def Reg.CNV_EVENT.SPARE_USED (l : Nat) : Fr := ⟨Reg.CNV_EVENT l, 5, 5⟩
@[reducible] def Reg.CNV_EVENT.EXHAUSTED (l : Nat) : Fr := ⟨Reg.CNV_EVENT l, 6, 6⟩
@[reducible] def Reg.CNV_EVENT.UNMASKED (l : Nat) : Fr := ⟨Reg.CNV_EVENT l, 7, 7⟩
@[reducible] def Reg.CNV_EVENT.SET_WR_FAIL (l : Nat) : Fr := ⟨Reg.CNV_EVENT l, 8, 8⟩
@[reducible] def Reg.CNV_EVENT.STALE (l : Nat) : Fr := ⟨Reg.CNV_EVENT l, 9, 9⟩
@[reducible] def Reg.CNV_EVENT.SETS_DISCARDED (l : Nat) : Fr := ⟨Reg.CNV_EVENT l, 10, 10⟩
@[reducible] def Reg.CNV_EVENT_EN (l : Nat) : Nat := 0x200018 + 0x100000 * l
@[reducible] def Reg.CNV_EVENT_EN.EN (l : Nat) : Fr := ⟨Reg.CNV_EVENT_EN l, 10, 0⟩
@[reducible] def Reg.CNV_TEMP (l : Nat) : Nat := 0x200020 + 0x100000 * l
@[reducible] def Reg.CNV_TEMP.T_TILE (l : Nat) : Fr := ⟨Reg.CNV_TEMP l, 15, 0⟩
@[reducible] def Reg.CNV_TEMP.T_LAST (l : Nat) : Fr := ⟨Reg.CNV_TEMP l, 31, 16⟩
@[reducible] def Reg.CNV_PASS_INFO (l : Nat) : Nat := 0x200024 + 0x100000 * l
@[reducible] def Reg.CNV_PASS_INFO.STEP (l : Nat) : Fr := ⟨Reg.CNV_PASS_INFO l, 4, 0⟩
@[reducible] def Reg.CNV_PASS_INFO.PASS_CNT (l : Nat) : Fr := ⟨Reg.CNV_PASS_INFO l, 31, 16⟩
@[reducible] def Reg.CNV_SET (l k : Nat) : Nat := 0x200040 + 0x100000 * l + 0x4 * k
@[reducible] def Reg.CNV_SET.TEMP (l k : Nat) : Fr := ⟨Reg.CNV_SET l k, 15, 0⟩
@[reducible] def Reg.CNV_SET.BAND (l k : Nat) : Fr := ⟨Reg.CNV_SET l k, 18, 16⟩
@[reducible] def Reg.CNV_SET.NVM (l k : Nat) : Fr := ⟨Reg.CNV_SET l k, 19, 19⟩
@[reducible] def Reg.CNV_SET.VALID (l k : Nat) : Fr := ⟨Reg.CNV_SET l k, 31, 31⟩
@[reducible] def Reg.CNV_SKEW (l ab : Nat) : Nat := 0x200080 + 0x100000 * l + 0x4 * ab
@[reducible] def Reg.CNV_SKEW.TAP (l ab : Nat) : Fr := ⟨Reg.CNV_SKEW l ab, 6, 0⟩
@[reducible] def Reg.CNV_DAC (l d : Nat) : Nat := 0x200100 + 0x100000 * l + 0x4 * d
@[reducible] def Reg.CNV_DAC.SPARES (l d : Nat) : Fr := ⟨Reg.CNV_DAC l d, 3, 0⟩
@[reducible] def Reg.CNV_DAC.FAILED (l d : Nat) : Fr := ⟨Reg.CNV_DAC l d, 10, 4⟩
@[reducible] def Reg.CNV_DAC.MEAS_CELL (l d : Nat) : Fr := ⟨Reg.CNV_DAC l d, 17, 11⟩
@[reducible] def Reg.CNV_DAC.BIN_FAIL (l d : Nat) : Fr := ⟨Reg.CNV_DAC l d, 21, 18⟩
@[reducible] def Reg.CNV_UNIT (l abu : Nat) : Nat := 0x201000 + 0x100000 * l + 0x4 * abu
@[reducible] def Reg.CNV_UNIT.ROLE (l abu : Nat) : Fr := ⟨Reg.CNV_UNIT l abu, 2, 0⟩
@[reducible] def Reg.CNV_UNIT.STALE (l abu : Nat) : Fr := ⟨Reg.CNV_UNIT l abu, 3, 3⟩
@[reducible] def Reg.CNV_UNIT.SLOT (l abu : Nat) : Fr := ⟨Reg.CNV_UNIT l abu, 7, 4⟩
@[reducible] def Reg.CNV_UNIT.OFFSET (l abu : Nat) : Fr := ⟨Reg.CNV_UNIT l abu, 15, 8⟩
@[reducible] def Reg.CNV_UNIT.GAIN (l abu : Nat) : Fr := ⟨Reg.CNV_UNIT l abu, 31, 16⟩
@[reducible] def Reg.RXP_CTL (l : Nat) : Nat := 0x240000 + 0x100000 * l
@[reducible] def Reg.RXP_CTL.ACQ_RESTART (l : Nat) : Fr := ⟨Reg.RXP_CTL l, 0, 0⟩
@[reducible] def Reg.RXP_CTL.DITHER_RM (l : Nat) : Fr := ⟨Reg.RXP_CTL l, 1, 1⟩
@[reducible] def Reg.RXP_CTL.CD_TRACK (l : Nat) : Fr := ⟨Reg.RXP_CTL l, 2, 2⟩
@[reducible] def Reg.RXP_CTL.PH_JOINT (l : Nat) : Fr := ⟨Reg.RXP_CTL l, 3, 3⟩
@[reducible] def Reg.RXP_CTL.NLC_STEPS (l : Nat) : Fr := ⟨Reg.RXP_CTL l, 6, 4⟩
@[reducible] def Reg.RXP_CTL.NLC_PAIR (l : Nat) : Fr := ⟨Reg.RXP_CTL l, 7, 7⟩
@[reducible] def Reg.RXP_CTL.LOOP_TRUST (l : Nat) : Fr := ⟨Reg.RXP_CTL l, 8, 8⟩
@[reducible] def Reg.RXP_CARRIER (l : Nat) : Nat := 0x240004 + 0x100000 * l
@[reducible] def Reg.RXP_CARRIER.FREQ (l : Nat) : Fr := ⟨Reg.RXP_CARRIER l, 20, 0⟩
@[reducible] def Reg.RXP_CD_CFG (l : Nat) : Nat := 0x240008 + 0x100000 * l
@[reducible] def Reg.RXP_CD_CFG.CD_MODE (l : Nat) : Fr := ⟨Reg.RXP_CD_CFG l, 1, 0⟩
@[reducible] def Reg.RXP_CD_SET (l : Nat) : Nat := 0x24000C + 0x100000 * l
@[reducible] def Reg.RXP_CD_SET.CD_SET (l : Nat) : Fr := ⟨Reg.RXP_CD_SET l, 19, 0⟩
@[reducible] def Reg.RXP_CD_WIN (l : Nat) : Nat := 0x240010 + 0x100000 * l
@[reducible] def Reg.RXP_CD_WIN.CD_WIN (l : Nat) : Fr := ⟨Reg.RXP_CD_WIN l, 15, 0⟩
@[reducible] def Reg.RXP_CLK_CFG (l : Nat) : Nat := 0x240014 + 0x100000 * l
@[reducible] def Reg.RXP_CLK_CFG.CLK_BW (l : Nat) : Fr := ⟨Reg.RXP_CLK_CFG l, 4, 0⟩
@[reducible] def Reg.RXP_EQ_CTL (l : Nat) : Nat := 0x240020 + 0x100000 * l
@[reducible] def Reg.RXP_EQ_CTL.NTAPS (l : Nat) : Fr := ⟨Reg.RXP_EQ_CTL l, 5, 0⟩
@[reducible] def Reg.RXP_EQ_CTL.MU_ACQ (l : Nat) : Fr := ⟨Reg.RXP_EQ_CTL l, 11, 8⟩
@[reducible] def Reg.RXP_EQ_CTL.MU_TRK (l : Nat) : Fr := ⟨Reg.RXP_EQ_CTL l, 15, 12⟩
@[reducible] def Reg.RXP_EQ_CTL.MU_LOOP (l : Nat) : Fr := ⟨Reg.RXP_EQ_CTL l, 19, 16⟩
@[reducible] def Reg.RXP_CR_CFG (l : Nat) : Nat := 0x240024 + 0x100000 * l
@[reducible] def Reg.RXP_CR_CFG.PH_WIN (l : Nat) : Fr := ⟨Reg.RXP_CR_CFG l, 7, 0⟩
@[reducible] def Reg.RXP_CR_CFG.LOCK_SNR (l : Nat) : Fr := ⟨Reg.RXP_CR_CFG l, 15, 8⟩
@[reducible] def Reg.RXP_METRIC (l : Nat) : Nat := 0x240028 + 0x100000 * l
@[reducible] def Reg.RXP_METRIC.SCALE (l : Nat) : Fr := ⟨Reg.RXP_METRIC l, 7, 0⟩
@[reducible] def Reg.RXP_NLC_LINK_0 (l : Nat) : Nat := 0x240030 + 0x100000 * l
@[reducible] def Reg.RXP_NLC_LINK_0.SPANS (l : Nat) : Fr := ⟨Reg.RXP_NLC_LINK_0 l, 7, 0⟩
@[reducible] def Reg.RXP_NLC_LINK_0.SPAN_KM (l : Nat) : Fr := ⟨Reg.RXP_NLC_LINK_0 l, 15, 8⟩
@[reducible] def Reg.RXP_NLC_LINK_1 (l : Nat) : Nat := 0x240034 + 0x100000 * l
@[reducible] def Reg.RXP_NLC_LINK_1.GAMMA (l : Nat) : Fr := ⟨Reg.RXP_NLC_LINK_1 l, 10, 0⟩
@[reducible] def Reg.RXP_NLC_LINK_1.ALPHA (l : Nat) : Fr := ⟨Reg.RXP_NLC_LINK_1 l, 20, 11⟩
@[reducible] def Reg.RXP_NLC_LINK_1.LAUNCH (l : Nat) : Fr := ⟨Reg.RXP_NLC_LINK_1 l, 28, 21⟩
@[reducible] def Reg.RXP_NLC_XI (l : Nat) : Nat := 0x240038 + 0x100000 * l
@[reducible] def Reg.RXP_NLC_XI.XI (l : Nat) : Fr := ⟨Reg.RXP_NLC_XI l, 7, 0⟩
@[reducible] def Reg.RXP_PAIR_CFG (l : Nat) : Nat := 0x24003C + 0x100000 * l
@[reducible] def Reg.RXP_PAIR_CFG.CD_TOL (l : Nat) : Fr := ⟨Reg.RXP_PAIR_CFG l, 5, 0⟩
@[reducible] def Reg.RXP_STATUS (l : Nat) : Nat := 0x240040 + 0x100000 * l
@[reducible] def Reg.RXP_STATUS.ACQ_STATE (l : Nat) : Fr := ⟨Reg.RXP_STATUS l, 2, 0⟩
@[reducible] def Reg.RXP_STATUS.CLK_LOCK (l : Nat) : Fr := ⟨Reg.RXP_STATUS l, 3, 3⟩
@[reducible] def Reg.RXP_STATUS.EQ_CONV (l : Nat) : Fr := ⟨Reg.RXP_STATUS l, 4, 4⟩
@[reducible] def Reg.RXP_STATUS.FREQ_LOCK (l : Nat) : Fr := ⟨Reg.RXP_STATUS l, 5, 5⟩
@[reducible] def Reg.RXP_STATUS.LOCK (l : Nat) : Fr := ⟨Reg.RXP_STATUS l, 6, 6⟩
@[reducible] def Reg.RXP_STATUS.POL_SWAP (l : Nat) : Fr := ⟨Reg.RXP_STATUS l, 7, 7⟩
@[reducible] def Reg.RXP_STATUS.NLC_MODE (l : Nat) : Fr := ⟨Reg.RXP_STATUS l, 9, 8⟩
@[reducible] def Reg.RXP_STATUS.DD_ACTIVE (l : Nat) : Fr := ⟨Reg.RXP_STATUS l, 10, 10⟩
@[reducible] def Reg.RXP_STATUS.ATTEMPT (l : Nat) : Fr := ⟨Reg.RXP_STATUS l, 11, 11⟩
@[reducible] def Reg.RXP_EVENT (l : Nat) : Nat := 0x240044 + 0x100000 * l
@[reducible] def Reg.RXP_EVENT.ACQ_DONE (l : Nat) : Fr := ⟨Reg.RXP_EVENT l, 0, 0⟩
@[reducible] def Reg.RXP_EVENT.ACQ_FAIL (l : Nat) : Fr := ⟨Reg.RXP_EVENT l, 1, 1⟩
@[reducible] def Reg.RXP_EVENT.LOCK_LOSS (l : Nat) : Fr := ⟨Reg.RXP_EVENT l, 2, 2⟩
@[reducible] def Reg.RXP_EVENT.SINGULAR (l : Nat) : Fr := ⟨Reg.RXP_EVENT l, 3, 3⟩
@[reducible] def Reg.RXP_EVENT.FREQ_RANGE (l : Nat) : Fr := ⟨Reg.RXP_EVENT l, 4, 4⟩
@[reducible] def Reg.RXP_EVENT.CD_STEP (l : Nat) : Fr := ⟨Reg.RXP_EVENT l, 5, 5⟩
@[reducible] def Reg.RXP_EVENT.PAIR_ON (l : Nat) : Fr := ⟨Reg.RXP_EVENT l, 6, 6⟩
@[reducible] def Reg.RXP_EVENT.PAIR_DROP (l : Nat) : Fr := ⟨Reg.RXP_EVENT l, 7, 7⟩
@[reducible] def Reg.RXP_EVENT.CAP_DONE (l : Nat) : Fr := ⟨Reg.RXP_EVENT l, 8, 8⟩
@[reducible] def Reg.RXP_EVENT.CAP_MISS (l : Nat) : Fr := ⟨Reg.RXP_EVENT l, 9, 9⟩
@[reducible] def Reg.RXP_EVENT.SNR_LOW (l : Nat) : Fr := ⟨Reg.RXP_EVENT l, 10, 10⟩
@[reducible] def Reg.RXP_EVENT.DGD_HIGH (l : Nat) : Fr := ⟨Reg.RXP_EVENT l, 11, 11⟩
@[reducible] def Reg.RXP_EVENT.MEM_ERASE (l : Nat) : Fr := ⟨Reg.RXP_EVENT l, 12, 12⟩
@[reducible] def Reg.RXP_EVENT_EN (l : Nat) : Nat := 0x240048 + 0x100000 * l
@[reducible] def Reg.RXP_EVENT_EN.EN (l : Nat) : Fr := ⟨Reg.RXP_EVENT_EN l, 12, 0⟩
@[reducible] def Reg.RXP_MON_LIM (l : Nat) : Nat := 0x24004C + 0x100000 * l
@[reducible] def Reg.RXP_MON_LIM.SNR_MIN (l : Nat) : Fr := ⟨Reg.RXP_MON_LIM l, 11, 0⟩
@[reducible] def Reg.RXP_MON_LIM.DGD_MAX (l : Nat) : Fr := ⟨Reg.RXP_MON_LIM l, 19, 12⟩
@[reducible] def Reg.RXP_MON_LIM.DEB (l : Nat) : Fr := ⟨Reg.RXP_MON_LIM l, 23, 20⟩
@[reducible] def Reg.RXP_MON_SNR (l : Nat) : Nat := 0x240080 + 0x100000 * l
@[reducible] def Reg.RXP_MON_SNR.SNR (l : Nat) : Fr := ⟨Reg.RXP_MON_SNR l, 15, 0⟩
@[reducible] def Reg.RXP_MON_EVM (l : Nat) : Nat := 0x240084 + 0x100000 * l
@[reducible] def Reg.RXP_MON_EVM.EVM (l : Nat) : Fr := ⟨Reg.RXP_MON_EVM l, 15, 0⟩
@[reducible] def Reg.RXP_MON_CD (l : Nat) : Nat := 0x240088 + 0x100000 * l
@[reducible] def Reg.RXP_MON_CD.CD (l : Nat) : Fr := ⟨Reg.RXP_MON_CD l, 19, 0⟩
@[reducible] def Reg.RXP_MON_CD_AVG (l : Nat) : Nat := 0x24008C + 0x100000 * l
@[reducible] def Reg.RXP_MON_CD_AVG.CD_AVG (l : Nat) : Fr := ⟨Reg.RXP_MON_CD_AVG l, 19, 0⟩
@[reducible] def Reg.RXP_MON_DGD (l : Nat) : Nat := 0x240090 + 0x100000 * l
@[reducible] def Reg.RXP_MON_DGD.DGD (l : Nat) : Fr := ⟨Reg.RXP_MON_DGD l, 15, 0⟩
@[reducible] def Reg.RXP_MON_PDL (l : Nat) : Nat := 0x240094 + 0x100000 * l
@[reducible] def Reg.RXP_MON_PDL.PDL (l : Nat) : Fr := ⟨Reg.RXP_MON_PDL l, 15, 0⟩
@[reducible] def Reg.RXP_MON_FOFS (l : Nat) : Nat := 0x240098 + 0x100000 * l
@[reducible] def Reg.RXP_MON_FOFS.FOFS (l : Nat) : Fr := ⟨Reg.RXP_MON_FOFS l, 15, 0⟩
@[reducible] def Reg.RXP_MON_CLKOFS (l : Nat) : Nat := 0x24009C + 0x100000 * l
@[reducible] def Reg.RXP_MON_CLKOFS.CLKOFS (l : Nat) : Fr := ⟨Reg.RXP_MON_CLKOFS l, 31, 0⟩
@[reducible] def Reg.RXP_MON_PWR (l : Nat) : Nat := 0x2400A0 + 0x100000 * l
@[reducible] def Reg.RXP_MON_PWR.PWR (l : Nat) : Fr := ⟨Reg.RXP_MON_PWR l, 7, 0⟩
@[reducible] def Reg.RXP_MON_FRAMES (l : Nat) : Nat := 0x2400A4 + 0x100000 * l
@[reducible] def Reg.RXP_MON_FRAMES.N (l : Nat) : Fr := ⟨Reg.RXP_MON_FRAMES l, 3, 0⟩
@[reducible] def Reg.RXP_MON_SLICE (l i : Nat) : Nat := 0x2400C0 + 0x100000 * l + 0x4 * i
@[reducible] def Reg.RXP_MON_SLICE.SNR (l i : Nat) : Fr := ⟨Reg.RXP_MON_SLICE l i, 15, 0⟩
@[reducible] def Reg.RXP_CAP_FRAME_LO (l : Nat) : Nat := 0x240100 + 0x100000 * l
@[reducible] def Reg.RXP_CAP_FRAME_LO.F (l : Nat) : Fr := ⟨Reg.RXP_CAP_FRAME_LO l, 31, 0⟩
@[reducible] def Reg.RXP_CAP_FRAME_HI (l : Nat) : Nat := 0x240104 + 0x100000 * l
@[reducible] def Reg.RXP_CAP_FRAME_HI.F (l : Nat) : Fr := ⟨Reg.RXP_CAP_FRAME_HI l, 31, 0⟩
@[reducible] def Reg.RXP_CAP_CTL (l : Nat) : Nat := 0x240108 + 0x100000 * l
@[reducible] def Reg.RXP_CAP_CTL.ARM (l : Nat) : Fr := ⟨Reg.RXP_CAP_CTL l, 0, 0⟩
@[reducible] def Reg.RXP_CAP_SNR (l : Nat) : Nat := 0x240110 + 0x100000 * l
@[reducible] def Reg.RXP_CAP_SNR.VALUE (l : Nat) : Fr := ⟨Reg.RXP_CAP_SNR l, 15, 0⟩
@[reducible] def Reg.RXP_CAP_EVM (l : Nat) : Nat := 0x240114 + 0x100000 * l
@[reducible] def Reg.RXP_CAP_EVM.VALUE (l : Nat) : Fr := ⟨Reg.RXP_CAP_EVM l, 15, 0⟩
@[reducible] def Reg.RXP_CAP_FOFS (l : Nat) : Nat := 0x240118 + 0x100000 * l
@[reducible] def Reg.RXP_CAP_FOFS.VALUE (l : Nat) : Fr := ⟨Reg.RXP_CAP_FOFS l, 15, 0⟩
@[reducible] def Reg.RXP_CAP_SLICE (l i : Nat) : Nat := 0x240120 + 0x100000 * l + 0x4 * i
@[reducible] def Reg.RXP_CAP_SLICE.SNR (l i : Nat) : Fr := ⟨Reg.RXP_CAP_SLICE l i, 15, 0⟩
@[reducible] def Reg.RXP_SKEW (l c : Nat) : Nat := 0x240200 + 0x100000 * l + 0x4 * c
@[reducible] def Reg.RXP_SKEW.SKEW (l c : Nat) : Fr := ⟨Reg.RXP_SKEW l c, 12, 0⟩
@[reducible] def Reg.D2D_CTL : Nat := 0x90000
@[reducible] def Reg.D2D_CTL.AUTO_SPARE : Fr := ⟨Reg.D2D_CTL, 0, 0⟩
@[reducible] def Reg.D2D_CTL.ERR_THR : Fr := ⟨Reg.D2D_CTL, 15, 8⟩
@[reducible] def Reg.D2D_ERR_WIN : Nat := 0x90004
@[reducible] def Reg.D2D_ERR_WIN.WIN : Fr := ⟨Reg.D2D_ERR_WIN, 19, 0⟩
@[reducible] def Reg.D2D_STATUS : Nat := 0x90010
@[reducible] def Reg.D2D_STATUS.TRAINED : Fr := ⟨Reg.D2D_STATUS, 3, 0⟩
@[reducible] def Reg.D2D_STATUS.SPARES_MIN : Fr := ⟨Reg.D2D_STATUS, 5, 4⟩
@[reducible] def Reg.D2D_STATUS.EXHAUSTED : Fr := ⟨Reg.D2D_STATUS, 6, 6⟩
@[reducible] def Reg.D2D_STATUS.SUB_DOWN : Fr := ⟨Reg.D2D_STATUS, 7, 7⟩
@[reducible] def Reg.D2D_EVENT : Nat := 0x90014
@[reducible] def Reg.D2D_EVENT.TRAIN_FAIL : Fr := ⟨Reg.D2D_EVENT, 0, 0⟩
@[reducible] def Reg.D2D_EVENT.ERASURE : Fr := ⟨Reg.D2D_EVENT, 1, 1⟩
@[reducible] def Reg.D2D_EVENT.LANE_SPARED : Fr := ⟨Reg.D2D_EVENT, 2, 2⟩
@[reducible] def Reg.D2D_EVENT.LANE_FAILED : Fr := ⟨Reg.D2D_EVENT, 3, 3⟩
@[reducible] def Reg.D2D_EVENT.SUSPECT : Fr := ⟨Reg.D2D_EVENT, 4, 4⟩
@[reducible] def Reg.D2D_EVENT.DIAG : Fr := ⟨Reg.D2D_EVENT, 5, 5⟩
@[reducible] def Reg.D2D_EVENT.EXHAUSTED : Fr := ⟨Reg.D2D_EVENT, 6, 6⟩
@[reducible] def Reg.D2D_EVENT.SUB_DOWN : Fr := ⟨Reg.D2D_EVENT, 7, 7⟩
@[reducible] def Reg.D2D_EVENT.LAT_FAULT : Fr := ⟨Reg.D2D_EVENT, 8, 8⟩
@[reducible] def Reg.D2D_EVENT.CTL_LATE : Fr := ⟨Reg.D2D_EVENT, 9, 9⟩
@[reducible] def Reg.D2D_EVENT_EN : Nat := 0x90018
@[reducible] def Reg.D2D_EVENT_EN.EN : Fr := ⟨Reg.D2D_EVENT_EN, 9, 0⟩
@[reducible] def Reg.D2D_LAT (s : Nat) : Nat := 0x90040 + 0x4 * s
@[reducible] def Reg.D2D_LAT.L (s : Nat) : Fr := ⟨Reg.D2D_LAT s, 6, 0⟩
@[reducible] def Reg.D2D_SUB (j : Nat) : Nat := 0x90080 + 0x4 * j
@[reducible] def Reg.D2D_SUB.UP (j : Nat) : Fr := ⟨Reg.D2D_SUB j, 0, 0⟩
@[reducible] def Reg.D2D_SUB.DIAG (j : Nat) : Fr := ⟨Reg.D2D_SUB j, 1, 1⟩
@[reducible] def Reg.D2D_SUB.EPOCH (j : Nat) : Fr := ⟨Reg.D2D_SUB j, 4, 2⟩
@[reducible] def Reg.D2D_LANE (k : Nat) : Nat := 0x91000 + 0x4 * k
@[reducible] def Reg.D2D_LANE.STATE (k : Nat) : Fr := ⟨Reg.D2D_LANE k, 1, 0⟩
@[reducible] def Reg.D2D_LANE.FUSED (k : Nat) : Fr := ⟨Reg.D2D_LANE k, 2, 2⟩
@[reducible] def Reg.D2D_LANE.STALE (k : Nat) : Fr := ⟨Reg.D2D_LANE k, 3, 3⟩
@[reducible] def Reg.D2D_LANE.POS (k : Nat) : Fr := ⟨Reg.D2D_LANE k, 9, 4⟩
@[reducible] def Reg.D2D_LANE.ERR (k : Nat) : Fr := ⟨Reg.D2D_LANE k, 31, 16⟩
@[reducible] def Reg.RIM_CTL : Nat := 0x70000
@[reducible] def Reg.RIM_CTL.EN : Fr := ⟨Reg.RIM_CTL, 0, 0⟩
@[reducible] def Reg.RIM_CTL.AUTH_EN : Fr := ⟨Reg.RIM_CTL, 1, 1⟩
@[reducible] def Reg.RIM_CTL.REQUIRE_AUTH : Fr := ⟨Reg.RIM_CTL, 2, 2⟩
@[reducible] def Reg.RIM_CTL.RESPOND_TRACE : Fr := ⟨Reg.RIM_CTL, 3, 3⟩
@[reducible] def Reg.RIM_CTL.TXF_SEL : Fr := ⟨Reg.RIM_CTL, 4, 4⟩
@[reducible] def Reg.RIM_CTL.SYNC_ERR : Fr := ⟨Reg.RIM_CTL, 10, 8⟩
@[reducible] def Reg.RIM_CTL.CAPTURE : Fr := ⟨Reg.RIM_CTL, 15, 12⟩
@[reducible] def Reg.RIM_CTL.AUTH_SLOT : Fr := ⟨Reg.RIM_CTL, 21, 16⟩
@[reducible] def Reg.RIM_ID : Nat := 0x70004
@[reducible] def Reg.RIM_ID.SHORT_ID : Fr := ⟨Reg.RIM_ID, 15, 0⟩
@[reducible] def Reg.RIM_PORT_CFG (k : Nat) : Nat := 0x70008 + 0x4 * k
@[reducible] def Reg.RIM_PORT_CFG.RX_EN (k : Nat) : Fr := ⟨Reg.RIM_PORT_CFG k, 0, 0⟩
@[reducible] def Reg.RIM_PORT_CFG.TX_EN (k : Nat) : Fr := ⟨Reg.RIM_PORT_CFG k, 1, 1⟩
@[reducible] def Reg.RIM_PORT_CFG.TX_CH (k : Nat) : Fr := ⟨Reg.RIM_PORT_CFG k, 4, 2⟩
@[reducible] def Reg.RIM_PORT_CFG.TX_LINES (k : Nat) : Fr := ⟨Reg.RIM_PORT_CFG k, 6, 5⟩
@[reducible] def Reg.RIM_PORT_CFG.CS_THR (k : Nat) : Fr := ⟨Reg.RIM_PORT_CFG k, 15, 8⟩
@[reducible] def Reg.RIM_TIMING : Nat := 0x70010
@[reducible] def Reg.RIM_TIMING.ID_PERIOD : Fr := ⟨Reg.RIM_TIMING, 3, 0⟩
@[reducible] def Reg.RIM_TIMING.BACKOFF_MAX : Fr := ⟨Reg.RIM_TIMING, 7, 4⟩
@[reducible] def Reg.RIM_TIMING.TRACE_SPREAD : Fr := ⟨Reg.RIM_TIMING, 15, 8⟩
@[reducible] def Reg.RIM_STATUS : Nat := 0x70020
@[reducible] def Reg.RIM_STATUS.NB_COUNT : Fr := ⟨Reg.RIM_STATUS, 8, 0⟩
@[reducible] def Reg.RIM_STATUS.MASK_BAD_0 : Fr := ⟨Reg.RIM_STATUS, 9, 9⟩
@[reducible] def Reg.RIM_STATUS.MASK_BAD_1 : Fr := ⟨Reg.RIM_STATUS, 10, 10⟩
@[reducible] def Reg.RIM_STATUS.CAN_SEND_0 : Fr := ⟨Reg.RIM_STATUS, 11, 11⟩
@[reducible] def Reg.RIM_STATUS.CAN_SEND_1 : Fr := ⟨Reg.RIM_STATUS, 12, 12⟩
@[reducible] def Reg.RIM_STATUS.TXQ_0 : Fr := ⟨Reg.RIM_STATUS, 17, 13⟩
@[reducible] def Reg.RIM_STATUS.TXQ_1 : Fr := ⟨Reg.RIM_STATUS, 22, 18⟩
@[reducible] def Reg.RIM_EVENT : Nat := 0x70024
@[reducible] def Reg.RIM_EVENT.NEIGH_NEW : Fr := ⟨Reg.RIM_EVENT, 0, 0⟩
@[reducible] def Reg.RIM_EVENT.NEIGH_LOST : Fr := ⟨Reg.RIM_EVENT, 1, 1⟩
@[reducible] def Reg.RIM_EVENT.NEIGH_CHANGE : Fr := ⟨Reg.RIM_EVENT, 2, 2⟩
@[reducible] def Reg.RIM_EVENT.NEIGH_CFG : Fr := ⟨Reg.RIM_EVENT, 3, 3⟩
@[reducible] def Reg.RIM_EVENT.ID_CLASH : Fr := ⟨Reg.RIM_EVENT, 4, 4⟩
@[reducible] def Reg.RIM_EVENT.AUTH_FAIL : Fr := ⟨Reg.RIM_EVENT, 5, 5⟩
@[reducible] def Reg.RIM_EVENT.TX_DROP : Fr := ⟨Reg.RIM_EVENT, 6, 6⟩
@[reducible] def Reg.RIM_EVENT.TX_CUT : Fr := ⟨Reg.RIM_EVENT, 7, 7⟩
@[reducible] def Reg.RIM_EVENT.MASK_BAD : Fr := ⟨Reg.RIM_EVENT, 8, 8⟩
@[reducible] def Reg.RIM_EVENT.RX_RING_FULL : Fr := ⟨Reg.RIM_EVENT, 9, 9⟩
@[reducible] def Reg.RIM_EVENT.AUTH_TIMEOUT : Fr := ⟨Reg.RIM_EVENT, 10, 10⟩
@[reducible] def Reg.RIM_EVENT.NEIGH_EVICT : Fr := ⟨Reg.RIM_EVENT, 11, 11⟩
@[reducible] def Reg.RIM_EVENT.TRACE_DONE : Fr := ⟨Reg.RIM_EVENT, 12, 12⟩
@[reducible] def Reg.RIM_EVENT_EN : Nat := 0x70028
@[reducible] def Reg.RIM_EVENT_EN.EN : Fr := ⟨Reg.RIM_EVENT_EN, 12, 0⟩
@[reducible] def Reg.RIM_RING_CFG : Nat := 0x70040
@[reducible] def Reg.RIM_RING_CFG.TX_EN : Fr := ⟨Reg.RIM_RING_CFG, 0, 0⟩
@[reducible] def Reg.RIM_RING_CFG.RX_EN : Fr := ⟨Reg.RIM_RING_CFG, 1, 1⟩
@[reducible] def Reg.RIM_RING_CFG.RX_CLASS : Fr := ⟨Reg.RIM_RING_CFG, 7, 4⟩
@[reducible] def Reg.RIM_RING_CFG.TX_LOG2 : Fr := ⟨Reg.RIM_RING_CFG, 11, 8⟩
@[reducible] def Reg.RIM_RING_CFG.RX_LOG2 : Fr := ⟨Reg.RIM_RING_CFG, 15, 12⟩
@[reducible] def Reg.RIM_TX_BASE : Nat := 0x70044
@[reducible] def Reg.RIM_TX_BASE.BASE : Fr := ⟨Reg.RIM_TX_BASE, 21, 0⟩
@[reducible] def Reg.RIM_RX_BASE : Nat := 0x70048
@[reducible] def Reg.RIM_RX_BASE.BASE : Fr := ⟨Reg.RIM_RX_BASE, 21, 0⟩
@[reducible] def Reg.RIM_TX_WR : Nat := 0x7004C
@[reducible] def Reg.RIM_TX_WR.IDX : Fr := ⟨Reg.RIM_TX_WR, 15, 0⟩
@[reducible] def Reg.RIM_TX_RD : Nat := 0x70050
@[reducible] def Reg.RIM_TX_RD.IDX : Fr := ⟨Reg.RIM_TX_RD, 15, 0⟩
@[reducible] def Reg.RIM_RX_WR : Nat := 0x70054
@[reducible] def Reg.RIM_RX_WR.IDX : Fr := ⟨Reg.RIM_RX_WR, 15, 0⟩
@[reducible] def Reg.RIM_RX_RD : Nat := 0x70058
@[reducible] def Reg.RIM_RX_RD.IDX : Fr := ⟨Reg.RIM_RX_RD, 15, 0⟩
@[reducible] def Reg.RIM_TRACE_CTL : Nat := 0x70060
@[reducible] def Reg.RIM_TRACE_CTL.TRACE_ID : Fr := ⟨Reg.RIM_TRACE_CTL, 15, 0⟩
@[reducible] def Reg.RIM_TRACE_CTL.PORT : Fr := ⟨Reg.RIM_TRACE_CTL, 16, 16⟩
@[reducible] def Reg.RIM_TRACE_CTL.START : Fr := ⟨Reg.RIM_TRACE_CTL, 17, 17⟩
@[reducible] def Reg.RIM_TRACE_CTL.ACTIVE : Fr := ⟨Reg.RIM_TRACE_CTL, 18, 18⟩
@[reducible] def Reg.RIM_TXF_TAP (t : Nat) : Nat := 0x70100 + 0x4 * t
@[reducible] def Reg.RIM_TXF_TAP.TAP (t : Nat) : Fr := ⟨Reg.RIM_TXF_TAP t, 15, 0⟩
@[reducible] def Reg.RIM_MASK (b : Nat) : Nat := 0x70200 + 0x4 * b
@[reducible] def Reg.RIM_MASK.LIMIT (b : Nat) : Fr := ⟨Reg.RIM_MASK b, 7, 0⟩
@[reducible] def Reg.RIM_NB_0 (n : Nat) : Nat := 0x71000 + 0x20 * n
@[reducible] def Reg.RIM_NB_0.SRC (n : Nat) : Fr := ⟨Reg.RIM_NB_0 n, 15, 0⟩
@[reducible] def Reg.RIM_NB_0.PORT (n : Nat) : Fr := ⟨Reg.RIM_NB_0 n, 16, 16⟩
@[reducible] def Reg.RIM_NB_0.CHANNEL (n : Nat) : Fr := ⟨Reg.RIM_NB_0 n, 19, 17⟩
@[reducible] def Reg.RIM_NB_0.VALID (n : Nat) : Fr := ⟨Reg.RIM_NB_0 n, 20, 20⟩
@[reducible] def Reg.RIM_NB_0.STALE (n : Nat) : Fr := ⟨Reg.RIM_NB_0 n, 21, 21⟩
@[reducible] def Reg.RIM_NB_0.AUTH (n : Nat) : Fr := ⟨Reg.RIM_NB_0 n, 22, 22⟩
@[reducible] def Reg.RIM_NB_1 (n : Nat) : Nat := 0x71004 + 0x20 * n
@[reducible] def Reg.RIM_NB_1.DEVICE_ID (n : Nat) : Fr := ⟨Reg.RIM_NB_1 n, 31, 0⟩
@[reducible] def Reg.RIM_NB_2 (n : Nat) : Nat := 0x71008 + 0x20 * n
@[reducible] def Reg.RIM_NB_2.DEVICE_ID (n : Nat) : Fr := ⟨Reg.RIM_NB_2 n, 31, 0⟩
@[reducible] def Reg.RIM_NB_3 (n : Nat) : Nat := 0x7100C + 0x20 * n
@[reducible] def Reg.RIM_NB_3.IMAGE_VER (n : Nat) : Fr := ⟨Reg.RIM_NB_3 n, 31, 0⟩
@[reducible] def Reg.RIM_NB_4 (n : Nat) : Nat := 0x71010 + 0x20 * n
@[reducible] def Reg.RIM_NB_4.CFG_EPOCH (n : Nat) : Fr := ⟨Reg.RIM_NB_4 n, 31, 0⟩
@[reducible] def Reg.RIM_NB_5 (n : Nat) : Nat := 0x71014 + 0x20 * n
@[reducible] def Reg.RIM_NB_5.EVM (n : Nat) : Fr := ⟨Reg.RIM_NB_5 n, 15, 0⟩
@[reducible] def Reg.RIM_NB_5.PEAK (n : Nat) : Fr := ⟨Reg.RIM_NB_5 n, 23, 16⟩
@[reducible] def Reg.RIM_NB_5.LEVEL (n : Nat) : Fr := ⟨Reg.RIM_NB_5 n, 31, 24⟩
@[reducible] def Reg.RIM_NB_6 (n : Nat) : Nat := 0x71018 + 0x20 * n
@[reducible] def Reg.RIM_NB_6.AGE_MS (n : Nat) : Fr := ⟨Reg.RIM_NB_6 n, 13, 0⟩
@[reducible] def Reg.RIM_NB_6.FLAGS (n : Nat) : Fr := ⟨Reg.RIM_NB_6 n, 31, 24⟩
@[reducible] def Reg.RIM_NB_7 (n : Nat) : Nat := 0x7101C + 0x20 * n
@[reducible] def Reg.RIM_NB_7.LAST_SEQ (n : Nat) : Fr := ⟨Reg.RIM_NB_7 n, 7, 0⟩
@[reducible] def Reg.RIM_NB_7.MISSED (n : Nat) : Fr := ⟨Reg.RIM_NB_7 n, 15, 8⟩
@[reducible] def Reg.CLK_CTL : Nat := 0x40000
@[reducible] def Reg.CLK_CTL.WTR_S : Fr := ⟨Reg.CLK_CTL, 11, 0⟩
@[reducible] def Reg.CLK_CTL.DIS_LIM : Fr := ⟨Reg.CLK_CTL, 23, 16⟩
@[reducible] def Reg.CLK_QUAL : Nat := 0x40004
@[reducible] def Reg.CLK_QUAL.FREQ_LIM : Fr := ⟨Reg.CLK_QUAL, 6, 0⟩
@[reducible] def Reg.CLK_QUAL.FSLEW : Fr := ⟨Reg.CLK_QUAL, 17, 8⟩
@[reducible] def Reg.CLK_XO : Nat := 0x40008
@[reducible] def Reg.CLK_XO.XO_KHZ : Fr := ⟨Reg.CLK_XO, 16, 0⟩
@[reducible] def Reg.CLK_REFOUT : Nat := 0x4000C
@[reducible] def Reg.CLK_REFOUT.FREQ : Fr := ⟨Reg.CLK_REFOUT, 1, 0⟩
@[reducible] def Reg.CLK_REFOUT.SQUELCH : Fr := ⟨Reg.CLK_REFOUT, 2, 2⟩
@[reducible] def Reg.CLK_BW (t : Nat) : Nat := 0x40010 + 0x4 * t
@[reducible] def Reg.CLK_BW.BW (t : Nat) : Fr := ⟨Reg.CLK_BW t, 19, 0⟩
@[reducible] def Reg.CLK_REFIN_KHZ (k : Nat) : Nat := 0x40020 + 0x4 * k
@[reducible] def Reg.CLK_REFIN_KHZ.FREQ (k : Nat) : Fr := ⟨Reg.CLK_REFIN_KHZ k, 17, 0⟩
@[reducible] def Reg.CLK_IN_CFG (i : Nat) : Nat := 0x40040 + 0x4 * i
@[reducible] def Reg.CLK_IN_CFG.RANK (i : Nat) : Fr := ⟨Reg.CLK_IN_CFG i, 3, 0⟩
@[reducible] def Reg.CLK_IN_CFG.LANE (i : Nat) : Fr := ⟨Reg.CLK_IN_CFG i, 9, 4⟩
@[reducible] def Reg.CLK_IN_CFG.PHIT (i : Nat) : Fr := ⟨Reg.CLK_IN_CFG i, 23, 16⟩
@[reducible] def Reg.CLK_IN_STATUS (i : Nat) : Nat := 0x40080 + 0x4 * i
@[reducible] def Reg.CLK_IN_STATUS.ACTIVE (i : Nat) : Fr := ⟨Reg.CLK_IN_STATUS i, 0, 0⟩
@[reducible] def Reg.CLK_IN_STATUS.FREQ_OK (i : Nat) : Fr := ⟨Reg.CLK_IN_STATUS i, 1, 1⟩
@[reducible] def Reg.CLK_IN_STATUS.QUALIFIED (i : Nat) : Fr := ⟨Reg.CLK_IN_STATUS i, 2, 2⟩
@[reducible] def Reg.CLK_IN_STATUS.WTR_RUN (i : Nat) : Fr := ⟨Reg.CLK_IN_STATUS i, 3, 3⟩
@[reducible] def Reg.CLK_IN_STATUS.DISPUTED (i : Nat) : Fr := ⟨Reg.CLK_IN_STATUS i, 4, 4⟩
@[reducible] def Reg.CLK_IN_STATUS.OUTLIER (i : Nat) : Fr := ⟨Reg.CLK_IN_STATUS i, 5, 5⟩
@[reducible] def Reg.CLK_IN_STATUS.SELECTED (i : Nat) : Fr := ⟨Reg.CLK_IN_STATUS i, 6, 6⟩
@[reducible] def Reg.CLK_IN_STATUS.FOFS (i : Nat) : Fr := ⟨Reg.CLK_IN_STATUS i, 31, 8⟩
@[reducible] def Reg.CLK_STATUS : Nat := 0x400C0
@[reducible] def Reg.CLK_STATUS.STATE : Fr := ⟨Reg.CLK_STATUS, 1, 0⟩
@[reducible] def Reg.CLK_STATUS.SEL : Fr := ⟨Reg.CLK_STATUS, 5, 2⟩
@[reducible] def Reg.CLK_STATUS.HOLD_QUAL : Fr := ⟨Reg.CLK_STATUS, 6, 6⟩
@[reducible] def Reg.CLK_EVENT : Nat := 0x400C4
@[reducible] def Reg.CLK_EVENT.SWITCH : Fr := ⟨Reg.CLK_EVENT, 0, 0⟩
@[reducible] def Reg.CLK_EVENT.HOLDOVER_ON : Fr := ⟨Reg.CLK_EVENT, 1, 1⟩
@[reducible] def Reg.CLK_EVENT.HOLDOVER_OFF : Fr := ⟨Reg.CLK_EVENT, 2, 2⟩
@[reducible] def Reg.CLK_EVENT.DISQUAL : Fr := ⟨Reg.CLK_EVENT, 3, 3⟩
@[reducible] def Reg.CLK_EVENT.QUAL : Fr := ⟨Reg.CLK_EVENT, 4, 4⟩
@[reducible] def Reg.CLK_EVENT.DISPUTE : Fr := ⟨Reg.CLK_EVENT, 5, 5⟩
@[reducible] def Reg.CLK_EVENT.OUTLIER : Fr := ⟨Reg.CLK_EVENT, 6, 6⟩
@[reducible] def Reg.CLK_EVENT.REDIRECT : Fr := ⟨Reg.CLK_EVENT, 7, 7⟩
@[reducible] def Reg.CLK_EVENT.PHASE_HIT : Fr := ⟨Reg.CLK_EVENT, 8, 8⟩
@[reducible] def Reg.CLK_EVENT.LOCKED : Fr := ⟨Reg.CLK_EVENT, 9, 9⟩
@[reducible] def Reg.CLK_EVENT_EN : Nat := 0x400C8
@[reducible] def Reg.CLK_EVENT_EN.EN : Fr := ⟨Reg.CLK_EVENT_EN, 9, 0⟩
@[reducible] def Reg.CLK_OUT_FREQ : Nat := 0x400D0
@[reducible] def Reg.CLK_OUT_FREQ.FREQ : Fr := ⟨Reg.CLK_OUT_FREQ, 31, 0⟩
@[reducible] def Reg.CLK_HOLD_FREQ : Nat := 0x400D4
@[reducible] def Reg.CLK_HOLD_FREQ.FREQ : Fr := ⟨Reg.CLK_HOLD_FREQ, 31, 0⟩
@[reducible] def Reg.CLK_NUM_FREQ : Nat := 0x400E0
@[reducible] def Reg.CLK_NUM_FREQ.FREQ : Fr := ⟨Reg.CLK_NUM_FREQ, 31, 0⟩
@[reducible] def Reg.CLK_NUM_SLEW : Nat := 0x400E4
@[reducible] def Reg.CLK_NUM_SLEW.SLEW : Fr := ⟨Reg.CLK_NUM_SLEW, 19, 0⟩
@[reducible] def Reg.CLK_NUM_APPLIED : Nat := 0x400E8
@[reducible] def Reg.CLK_NUM_APPLIED.FREQ : Fr := ⟨Reg.CLK_NUM_APPLIED, 31, 0⟩
@[reducible] def Reg.TIM_NOW_LO : Nat := 0x50000
@[reducible] def Reg.TIM_NOW_LO.NOW : Fr := ⟨Reg.TIM_NOW_LO, 31, 0⟩
@[reducible] def Reg.TIM_NOW_HI : Nat := 0x50004
@[reducible] def Reg.TIM_NOW_HI.NOW : Fr := ⟨Reg.TIM_NOW_HI, 31, 0⟩
@[reducible] def Reg.TIM_NOW_FRAC : Nat := 0x50008
@[reducible] def Reg.TIM_NOW_FRAC.NOW : Fr := ⟨Reg.TIM_NOW_FRAC, 31, 0⟩
@[reducible] def Reg.TIM_INCR_ADJ : Nat := 0x50010
@[reducible] def Reg.TIM_INCR_ADJ.ADJ : Fr := ⟨Reg.TIM_INCR_ADJ, 31, 0⟩
@[reducible] def Reg.TIM_ACT_TICK_LO : Nat := 0x50018
@[reducible] def Reg.TIM_ACT_TICK_LO.TICK : Fr := ⟨Reg.TIM_ACT_TICK_LO, 31, 0⟩
@[reducible] def Reg.TIM_ACT_TICK_HI : Nat := 0x5001C
@[reducible] def Reg.TIM_ACT_TICK_HI.TICK : Fr := ⟨Reg.TIM_ACT_TICK_HI, 31, 0⟩
@[reducible] def Reg.TIM_STEP_NS : Nat := 0x50020
@[reducible] def Reg.TIM_STEP_NS.STEP : Fr := ⟨Reg.TIM_STEP_NS, 31, 0⟩
@[reducible] def Reg.TIM_SET_LO : Nat := 0x50024
@[reducible] def Reg.TIM_SET_LO.SET : Fr := ⟨Reg.TIM_SET_LO, 31, 0⟩
@[reducible] def Reg.TIM_SET_HI : Nat := 0x50028
@[reducible] def Reg.TIM_SET_HI.SET : Fr := ⟨Reg.TIM_SET_HI, 31, 0⟩
@[reducible] def Reg.TIM_ADJ_CTL : Nat := 0x5002C
@[reducible] def Reg.TIM_ADJ_CTL.STEP : Fr := ⟨Reg.TIM_ADJ_CTL, 0, 0⟩
@[reducible] def Reg.TIM_ADJ_CTL.SET : Fr := ⟨Reg.TIM_ADJ_CTL, 1, 1⟩
@[reducible] def Reg.TIM_STATUS : Nat := 0x50040
@[reducible] def Reg.TIM_STATUS.TOD_VALID : Fr := ⟨Reg.TIM_STATUS, 0, 0⟩
@[reducible] def Reg.TIM_STATUS.LOADED : Fr := ⟨Reg.TIM_STATUS, 1, 1⟩
@[reducible] def Reg.TIM_STATUS.ALIGNED : Fr := ⟨Reg.TIM_STATUS, 2, 2⟩
@[reducible] def Reg.TIM_STATUS.TT_LOCK_A : Fr := ⟨Reg.TIM_STATUS, 3, 3⟩
@[reducible] def Reg.TIM_STATUS.TT_LOCK_B : Fr := ⟨Reg.TIM_STATUS, 4, 4⟩
@[reducible] def Reg.TIM_EVENT : Nat := 0x50044
@[reducible] def Reg.TIM_EVENT.TOD_MISS : Fr := ⟨Reg.TIM_EVENT, 0, 0⟩
@[reducible] def Reg.TIM_EVENT.TOD_MISMATCH : Fr := ⟨Reg.TIM_EVENT, 1, 1⟩
@[reducible] def Reg.TIM_EVENT.TOD_LOAD : Fr := ⟨Reg.TIM_EVENT, 2, 2⟩
@[reducible] def Reg.TIM_EVENT.TT_LOCK : Fr := ⟨Reg.TIM_EVENT, 3, 3⟩
@[reducible] def Reg.TIM_EVENT.TT_LOST : Fr := ⟨Reg.TIM_EVENT, 4, 4⟩
@[reducible] def Reg.TIM_EVENT.TT_STEP : Fr := ⟨Reg.TIM_EVENT, 5, 5⟩
@[reducible] def Reg.TIM_EVENT.ADJ_DONE : Fr := ⟨Reg.TIM_EVENT, 6, 6⟩
@[reducible] def Reg.TIM_EVENT.ADJ_REJECT : Fr := ⟨Reg.TIM_EVENT, 7, 7⟩
@[reducible] def Reg.TIM_EVENT.TC_UNALIGNED : Fr := ⟨Reg.TIM_EVENT, 8, 8⟩
@[reducible] def Reg.TIM_EVENT.CMP : Fr := ⟨Reg.TIM_EVENT, 12, 9⟩
@[reducible] def Reg.TIM_EVENT_EN : Nat := 0x50048
@[reducible] def Reg.TIM_EVENT_EN.EN : Fr := ⟨Reg.TIM_EVENT_EN, 12, 0⟩
@[reducible] def Reg.TIM_PPS_CFG : Nat := 0x50050
@[reducible] def Reg.TIM_PPS_CFG.IN_DLY : Fr := ⟨Reg.TIM_PPS_CFG, 15, 0⟩
@[reducible] def Reg.TIM_PPS_CFG.TOD_REQ : Fr := ⟨Reg.TIM_PPS_CFG, 16, 16⟩
@[reducible] def Reg.TIM_PPS_CFG.BAUD : Fr := ⟨Reg.TIM_PPS_CFG, 17, 17⟩
@[reducible] def Reg.TIM_PPS_CFG.TOD_OUT : Fr := ⟨Reg.TIM_PPS_CFG, 18, 18⟩
@[reducible] def Reg.TIM_PPS_OUT : Nat := 0x50054
@[reducible] def Reg.TIM_PPS_OUT.OFS : Fr := ⟨Reg.TIM_PPS_OUT, 15, 0⟩
@[reducible] def Reg.TIM_PPS_OUT.WIDTH : Fr := ⟨Reg.TIM_PPS_OUT, 23, 16⟩
@[reducible] def Reg.TIM_PPS_OUT.SQUELCH : Fr := ⟨Reg.TIM_PPS_OUT, 24, 24⟩
@[reducible] def Reg.TIM_TOD_LO : Nat := 0x50058
@[reducible] def Reg.TIM_TOD_LO.SEC : Fr := ⟨Reg.TIM_TOD_LO, 31, 0⟩
@[reducible] def Reg.TIM_TOD_HI : Nat := 0x5005C
@[reducible] def Reg.TIM_TOD_HI.SEC : Fr := ⟨Reg.TIM_TOD_HI, 31, 0⟩
@[reducible] def Reg.TIM_CMP_LO (k : Nat) : Nat := 0x50080 + 0x10 * k
@[reducible] def Reg.TIM_CMP_LO.T (k : Nat) : Fr := ⟨Reg.TIM_CMP_LO k, 31, 0⟩
@[reducible] def Reg.TIM_CMP_HI (k : Nat) : Nat := 0x50084 + 0x10 * k
@[reducible] def Reg.TIM_CMP_HI.T (k : Nat) : Fr := ⟨Reg.TIM_CMP_HI k, 31, 0⟩
@[reducible] def Reg.TIM_CMP_CTL (k : Nat) : Nat := 0x50088 + 0x10 * k
@[reducible] def Reg.TIM_CMP_CTL.ARM (k : Nat) : Fr := ⟨Reg.TIM_CMP_CTL k, 0, 0⟩
@[reducible] def Reg.TIM_TC_CFG : Nat := 0x500C0
@[reducible] def Reg.TIM_TC_CFG.EN : Fr := ⟨Reg.TIM_TC_CFG, 0, 0⟩
@[reducible] def Reg.TIM_TC_CFG.UDP4 : Fr := ⟨Reg.TIM_TC_CFG, 1, 1⟩
@[reducible] def Reg.TIM_PORT_ASYM (p : Nat) : Nat := 0x50100 + 0x4 * p
@[reducible] def Reg.TIM_PORT_ASYM.ING (p : Nat) : Fr := ⟨Reg.TIM_PORT_ASYM p, 15, 0⟩
@[reducible] def Reg.TIM_PORT_ASYM.EGR (p : Nat) : Fr := ⟨Reg.TIM_PORT_ASYM p, 31, 16⟩
@[reducible] def Reg.TIM_TC_CH (w : Nat) : Nat := 0x50200 + 0x4 * w
@[reducible] def Reg.TIM_TC_CH.MAP (w : Nat) : Fr := ⟨Reg.TIM_TC_CH w, 31, 0⟩
@[reducible] def Reg.TIM_TT_CFG (l : Nat) : Nat := 0x50300 + 0x40 * l
@[reducible] def Reg.TIM_TT_CFG.ROLE (l : Nat) : Fr := ⟨Reg.TIM_TT_CFG l, 1, 0⟩
@[reducible] def Reg.TIM_TT_CFG.CD_CORR (l : Nat) : Fr := ⟨Reg.TIM_TT_CFG l, 2, 2⟩
@[reducible] def Reg.TIM_TT_CFG.AVG_LOG2 (l : Nat) : Fr := ⟨Reg.TIM_TT_CFG l, 7, 4⟩
@[reducible] def Reg.TIM_TT_TXCAR (l : Nat) : Nat := 0x50304 + 0x40 * l
@[reducible] def Reg.TIM_TT_TXCAR.FREQ (l : Nat) : Fr := ⟨Reg.TIM_TT_TXCAR l, 20, 0⟩
@[reducible] def Reg.TIM_TT_ASYM (l : Nat) : Nat := 0x50308 + 0x40 * l
@[reducible] def Reg.TIM_TT_ASYM.ASYM (l : Nat) : Fr := ⟨Reg.TIM_TT_ASYM l, 31, 0⟩
@[reducible] def Reg.TIM_TT_OFS (l : Nat) : Nat := 0x50310 + 0x40 * l
@[reducible] def Reg.TIM_TT_OFS.OFS (l : Nat) : Fr := ⟨Reg.TIM_TT_OFS l, 31, 0⟩
@[reducible] def Reg.TIM_TT_RTT (l : Nat) : Nat := 0x50314 + 0x40 * l
@[reducible] def Reg.TIM_TT_RTT.RTT (l : Nat) : Fr := ⟨Reg.TIM_TT_RTT l, 31, 0⟩
@[reducible] def Reg.TIM_TT_CDASYM (l : Nat) : Nat := 0x50318 + 0x40 * l
@[reducible] def Reg.TIM_TT_CDASYM.CDASYM (l : Nat) : Fr := ⟨Reg.TIM_TT_CDASYM l, 31, 0⟩
@[reducible] def Reg.TIM_TT_FARCD (l : Nat) : Nat := 0x5031C + 0x40 * l
@[reducible] def Reg.TIM_TT_FARCD.FARCD (l : Nat) : Fr := ⟨Reg.TIM_TT_FARCD l, 31, 0⟩
@[reducible] def Reg.MEM_CTL : Nat := 0x80000
@[reducible] def Reg.MEM_CTL.AUTO_REPAIR : Fr := ⟨Reg.MEM_CTL, 8, 0⟩
@[reducible] def Reg.MEM_CTL.THRESH : Fr := ⟨Reg.MEM_CTL, 23, 16⟩
@[reducible] def Reg.MEM_TRACK_CFG : Nat := 0x80004
@[reducible] def Reg.MEM_TRACK_CFG.DECAY_S : Fr := ⟨Reg.MEM_TRACK_CFG, 15, 0⟩
@[reducible] def Reg.MEM_STATUS : Nat := 0x80010
@[reducible] def Reg.MEM_STATUS.SWEEP_DONE : Fr := ⟨Reg.MEM_STATUS, 0, 0⟩
@[reducible] def Reg.MEM_STATUS.EXHAUSTED : Fr := ⟨Reg.MEM_STATUS, 1, 1⟩
@[reducible] def Reg.MEM_STATUS.PEND : Fr := ⟨Reg.MEM_STATUS, 2, 2⟩
@[reducible] def Reg.MEM_STATUS.SPARES_MIN : Fr := ⟨Reg.MEM_STATUS, 5, 3⟩
@[reducible] def Reg.MEM_EVENT : Nat := 0x80014
@[reducible] def Reg.MEM_EVENT.CORR : Fr := ⟨Reg.MEM_EVENT, 0, 0⟩
@[reducible] def Reg.MEM_EVENT.UNCORR : Fr := ⟨Reg.MEM_EVENT, 1, 1⟩
@[reducible] def Reg.MEM_EVENT.POISON : Fr := ⟨Reg.MEM_EVENT, 2, 2⟩
@[reducible] def Reg.MEM_EVENT.HEALED : Fr := ⟨Reg.MEM_EVENT, 3, 3⟩
@[reducible] def Reg.MEM_EVENT.WRITE_ERR : Fr := ⟨Reg.MEM_EVENT, 4, 4⟩
@[reducible] def Reg.MEM_EVENT.REPEAT : Fr := ⟨Reg.MEM_EVENT, 5, 5⟩
@[reducible] def Reg.MEM_EVENT.REPAIRED : Fr := ⟨Reg.MEM_EVENT, 6, 6⟩
@[reducible] def Reg.MEM_EVENT.REPAIR_PEND : Fr := ⟨Reg.MEM_EVENT, 7, 7⟩
@[reducible] def Reg.MEM_EVENT.NO_SPARE : Fr := ⟨Reg.MEM_EVENT, 8, 8⟩
@[reducible] def Reg.MEM_EVENT.EXHAUSTED : Fr := ⟨Reg.MEM_EVENT, 9, 9⟩
@[reducible] def Reg.MEM_EVENT.INJECTED : Fr := ⟨Reg.MEM_EVENT, 10, 10⟩
@[reducible] def Reg.MEM_EVENT.MAP_WR_FAIL : Fr := ⟨Reg.MEM_EVENT, 11, 11⟩
@[reducible] def Reg.MEM_EVENT_EN : Nat := 0x80018
@[reducible] def Reg.MEM_EVENT_EN.EN : Fr := ⟨Reg.MEM_EVENT_EN, 11, 0⟩
@[reducible] def Reg.MEM_ERR_LOG_0 : Nat := 0x80020
@[reducible] def Reg.MEM_ERR_LOG_0.INSTANCE : Fr := ⟨Reg.MEM_ERR_LOG_0, 10, 0⟩
@[reducible] def Reg.MEM_ERR_LOG_0.LANE : Fr := ⟨Reg.MEM_ERR_LOG_0, 12, 11⟩
@[reducible] def Reg.MEM_ERR_LOG_0.SYNDROME : Fr := ⟨Reg.MEM_ERR_LOG_0, 19, 13⟩
@[reducible] def Reg.MEM_ERR_LOG_0.POISON : Fr := ⟨Reg.MEM_ERR_LOG_0, 20, 20⟩
@[reducible] def Reg.MEM_ERR_LOG_0.WRITE : Fr := ⟨Reg.MEM_ERR_LOG_0, 21, 21⟩
@[reducible] def Reg.MEM_ERR_LOG_0.VALID : Fr := ⟨Reg.MEM_ERR_LOG_0, 31, 31⟩
@[reducible] def Reg.MEM_ERR_LOG_1 : Nat := 0x80024
@[reducible] def Reg.MEM_ERR_LOG_1.WORD : Fr := ⟨Reg.MEM_ERR_LOG_1, 11, 0⟩
@[reducible] def Reg.MEM_ERR_LOG_2 : Nat := 0x80028
@[reducible] def Reg.MEM_ERR_LOG_2.TICK : Fr := ⟨Reg.MEM_ERR_LOG_2, 31, 0⟩
@[reducible] def Reg.MEM_INJ_MASK_LO : Nat := 0x80040
@[reducible] def Reg.MEM_INJ_MASK_LO.DATA : Fr := ⟨Reg.MEM_INJ_MASK_LO, 31, 0⟩
@[reducible] def Reg.MEM_INJ_MASK_HI : Nat := 0x80044
@[reducible] def Reg.MEM_INJ_MASK_HI.CHECK : Fr := ⟨Reg.MEM_INJ_MASK_HI, 6, 0⟩
@[reducible] def Reg.MEM_INJ_CTL : Nat := 0x80048
@[reducible] def Reg.MEM_INJ_CTL.INSTANCE : Fr := ⟨Reg.MEM_INJ_CTL, 10, 0⟩
@[reducible] def Reg.MEM_INJ_CTL.LANE : Fr := ⟨Reg.MEM_INJ_CTL, 12, 11⟩
@[reducible] def Reg.MEM_INJ_CTL.ARM : Fr := ⟨Reg.MEM_INJ_CTL, 13, 13⟩
@[reducible] def Reg.MEM_TRACK (c e : Nat) : Nat := 0x80100 + 0x80 * c + 0x4 * e
@[reducible] def Reg.MEM_TRACK.INSTANCE (c e : Nat) : Fr := ⟨Reg.MEM_TRACK c e, 10, 0⟩
@[reducible] def Reg.MEM_TRACK.WORD (c e : Nat) : Fr := ⟨Reg.MEM_TRACK c e, 22, 11⟩
@[reducible] def Reg.MEM_TRACK.COUNT (c e : Nat) : Fr := ⟨Reg.MEM_TRACK c e, 30, 23⟩
@[reducible] def Reg.MEM_TRACK.VALID (c e : Nat) : Fr := ⟨Reg.MEM_TRACK c e, 31, 31⟩
@[reducible] def Reg.MEM_MACRO (m : Nat) : Nat := 0x81000 + 0x4 * m
@[reducible] def Reg.MEM_MACRO.FUSED (m : Nat) : Fr := ⟨Reg.MEM_MACRO m, 1, 0⟩
@[reducible] def Reg.MEM_MACRO.FIELD_USED (m : Nat) : Fr := ⟨Reg.MEM_MACRO m, 4, 2⟩
@[reducible] def Reg.MEM_MACRO.FREE (m : Nat) : Fr := ⟨Reg.MEM_MACRO m, 7, 5⟩
@[reducible] def Reg.MEM_MACRO.PEND (m : Nat) : Fr := ⟨Reg.MEM_MACRO m, 8, 8⟩
@[reducible] def Reg.THM_CTL : Nat := 0x30000
@[reducible] def Reg.THM_CTL.WARN_PIN : Fr := ⟨Reg.THM_CTL, 0, 0⟩
@[reducible] def Reg.THM_STATUS : Nat := 0x30010
@[reducible] def Reg.THM_STATUS.CORE_BAND : Fr := ⟨Reg.THM_STATUS, 2, 0⟩
@[reducible] def Reg.THM_STATUS.TILE_A_BAND : Fr := ⟨Reg.THM_STATUS, 5, 3⟩
@[reducible] def Reg.THM_STATUS.TILE_B_BAND : Fr := ⟨Reg.THM_STATUS, 8, 6⟩
@[reducible] def Reg.THM_STATUS.CAP_THERM : Fr := ⟨Reg.THM_STATUS, 13, 9⟩
@[reducible] def Reg.THM_STATUS.HOT : Fr := ⟨Reg.THM_STATUS, 14, 14⟩
@[reducible] def Reg.THM_STATUS.SHUTDOWN : Fr := ⟨Reg.THM_STATUS, 15, 15⟩
@[reducible] def Reg.THM_STATUS.GATE : Fr := ⟨Reg.THM_STATUS, 16, 16⟩
@[reducible] def Reg.THM_STATUS.ALL_FULL : Fr := ⟨Reg.THM_STATUS, 17, 17⟩
@[reducible] def Reg.THM_EVENT : Nat := 0x30014
@[reducible] def Reg.THM_EVENT.BAND_CHG : Fr := ⟨Reg.THM_EVENT, 0, 0⟩
@[reducible] def Reg.THM_EVENT.HOT_ON : Fr := ⟨Reg.THM_EVENT, 1, 1⟩
@[reducible] def Reg.THM_EVENT.HOT_OFF : Fr := ⟨Reg.THM_EVENT, 2, 2⟩
@[reducible] def Reg.THM_EVENT.SHUTDOWN : Fr := ⟨Reg.THM_EVENT, 3, 3⟩
@[reducible] def Reg.THM_EVENT.SENSOR_FAULT : Fr := ⟨Reg.THM_EVENT, 4, 4⟩
@[reducible] def Reg.THM_EVENT.NO_PAIR : Fr := ⟨Reg.THM_EVENT, 5, 5⟩
@[reducible] def Reg.THM_EVENT.GATE_CLEAR : Fr := ⟨Reg.THM_EVENT, 6, 6⟩
@[reducible] def Reg.THM_EVENT_EN : Nat := 0x30018
@[reducible] def Reg.THM_EVENT_EN.EN : Fr := ⟨Reg.THM_EVENT_EN, 6, 0⟩
@[reducible] def Reg.THM_SENS_FLT : Nat := 0x30020
@[reducible] def Reg.THM_SENS_FLT.FAULTY : Fr := ⟨Reg.THM_SENS_FLT, 23, 0⟩
@[reducible] def Reg.THM_TEMPS : Nat := 0x30024
@[reducible] def Reg.THM_TEMPS.T_J : Fr := ⟨Reg.THM_TEMPS, 15, 0⟩
@[reducible] def Reg.THM_TEMPS.T_CORE : Fr := ⟨Reg.THM_TEMPS, 31, 16⟩
@[reducible] def Reg.THM_T (s : Nat) : Nat := 0x30100 + 0x4 * s
@[reducible] def Reg.THM_T.FILT (s : Nat) : Fr := ⟨Reg.THM_T s, 15, 0⟩
@[reducible] def Reg.THM_T.RAW (s : Nat) : Fr := ⟨Reg.THM_T s, 31, 16⟩
@[reducible] def Reg.MON_CTL (u : Nat) : Nat := 0x38000 + 0x4 * u
@[reducible] def Reg.MON_CTL.EN (u : Nat) : Fr := ⟨Reg.MON_CTL u, 0, 0⟩
@[reducible] def Reg.MON_CTL.REF (u : Nat) : Fr := ⟨Reg.MON_CTL u, 2, 1⟩
@[reducible] def Reg.MON_CTL.LEN (u : Nat) : Fr := ⟨Reg.MON_CTL u, 9, 3⟩
@[reducible] def Reg.MON_CTL.RETEST (u : Nat) : Fr := ⟨Reg.MON_CTL u, 10, 10⟩
@[reducible] def Reg.MON_VREF : Nat := 0x3800C
@[reducible] def Reg.MON_VREF.VREF_MV : Fr := ⟨Reg.MON_VREF, 11, 0⟩
@[reducible] def Reg.MON_STATUS : Nat := 0x38010
@[reducible] def Reg.MON_STATUS.SETTLED : Fr := ⟨Reg.MON_STATUS, 2, 0⟩
@[reducible] def Reg.MON_STATUS.ISOLATED : Fr := ⟨Reg.MON_STATUS, 5, 3⟩
@[reducible] def Reg.MON_EVENT : Nat := 0x38014
@[reducible] def Reg.MON_EVENT.EXCURSION : Fr := ⟨Reg.MON_EVENT, 0, 0⟩
@[reducible] def Reg.MON_EVENT.EXC_CLEAR : Fr := ⟨Reg.MON_EVENT, 1, 1⟩
@[reducible] def Reg.MON_EVENT.MON_FAULT : Fr := ⟨Reg.MON_EVENT, 2, 2⟩
@[reducible] def Reg.MON_EVENT.XCHK_UNDET : Fr := ⟨Reg.MON_EVENT, 3, 3⟩
@[reducible] def Reg.MON_EVENT.URG_DROP : Fr := ⟨Reg.MON_EVENT, 4, 4⟩
@[reducible] def Reg.MON_EVENT.URG_REJECT : Fr := ⟨Reg.MON_EVENT, 5, 5⟩
@[reducible] def Reg.MON_EVENT.URG_DONE : Fr := ⟨Reg.MON_EVENT, 6, 6⟩
@[reducible] def Reg.MON_EVENT.REF_SETTLED : Fr := ⟨Reg.MON_EVENT, 7, 7⟩
@[reducible] def Reg.MON_EVENT_EN : Nat := 0x38018
@[reducible] def Reg.MON_EVENT_EN.EN : Fr := ⟨Reg.MON_EVENT_EN, 7, 0⟩
@[reducible] def Reg.MON_URG : Nat := 0x38020
@[reducible] def Reg.MON_URG.ENTRY : Fr := ⟨Reg.MON_URG, 5, 0⟩
@[reducible] def Reg.MON_URG.UNIT : Fr := ⟨Reg.MON_URG, 7, 6⟩
@[reducible] def Reg.MON_URG.GO : Fr := ⟨Reg.MON_URG, 8, 8⟩
@[reducible] def Reg.MON_XCHK (u : Nat) : Nat := 0x38030 + 0x4 * u
@[reducible] def Reg.MON_XCHK.VALUE (u : Nat) : Fr := ⟨Reg.MON_XCHK u, 15, 0⟩
@[reducible] def Reg.MON_LIST (u n : Nat) : Nat := 0x38100 + 0x100 * u + 0x4 * n
@[reducible] def Reg.MON_LIST.SRC (u n : Nat) : Fr := ⟨Reg.MON_LIST u n, 7, 0⟩
@[reducible] def Reg.MON_LIST.DEB (u n : Nat) : Fr := ⟨Reg.MON_LIST u n, 11, 8⟩
@[reducible] def Reg.MON_LIST.VALID (u n : Nat) : Fr := ⟨Reg.MON_LIST u n, 31, 31⟩
@[reducible] def Reg.MON_LIM (u n : Nat) : Nat := 0x38400 + 0x100 * u + 0x4 * n
@[reducible] def Reg.MON_LIM.LO (u n : Nat) : Fr := ⟨Reg.MON_LIM u n, 15, 0⟩
@[reducible] def Reg.MON_LIM.HI (u n : Nat) : Fr := ⟨Reg.MON_LIM u n, 31, 16⟩
@[reducible] def Reg.MON_RES (u n : Nat) : Nat := 0x38800 + 0x100 * u + 0x4 * n
@[reducible] def Reg.MON_RES.VALUE (u n : Nat) : Fr := ⟨Reg.MON_RES u n, 15, 0⟩
@[reducible] def Reg.MON_RES.CODE (u n : Nat) : Fr := ⟨Reg.MON_RES u n, 27, 16⟩
@[reducible] def Reg.MON_RES.SETTLED (u n : Nat) : Fr := ⟨Reg.MON_RES u n, 28, 28⟩
@[reducible] def Reg.MON_RES.OUT (u n : Nat) : Fr := ⟨Reg.MON_RES u n, 29, 29⟩
@[reducible] def Reg.MON_RES.ISO (u n : Nat) : Fr := ⟨Reg.MON_RES u n, 30, 30⟩
@[reducible] def Reg.MON_RES.VALID (u n : Nat) : Fr := ⟨Reg.MON_RES u n, 31, 31⟩
@[reducible] def Reg.CFG_INFO : Nat := 0x10000
@[reducible] def Reg.CFG_INFO.HW_CLASS : Fr := ⟨Reg.CFG_INFO, 7, 0⟩
@[reducible] def Reg.CFG_STATUS : Nat := 0x10010
@[reducible] def Reg.CFG_STATUS.RUN_SLOT : Fr := ⟨Reg.CFG_STATUS, 1, 0⟩
@[reducible] def Reg.CFG_STATUS.SAFE : Fr := ⟨Reg.CFG_STATUS, 2, 2⟩
@[reducible] def Reg.CFG_STATUS.HEALTH_RUN : Fr := ⟨Reg.CFG_STATUS, 3, 3⟩
@[reducible] def Reg.CFG_STATUS.PROVEN : Fr := ⟨Reg.CFG_STATUS, 4, 4⟩
@[reducible] def Reg.CFG_STATUS.ROLLED_BACK : Fr := ⟨Reg.CFG_STATUS, 5, 5⟩
@[reducible] def Reg.CFG_STATUS.OVR_UNLOCKED : Fr := ⟨Reg.CFG_STATUS, 6, 6⟩
@[reducible] def Reg.CFG_STATUS.COMMIT : Fr := ⟨Reg.CFG_STATUS, 8, 7⟩
@[reducible] def Reg.CFG_STATUS.NVM_WIDTH : Fr := ⟨Reg.CFG_STATUS, 10, 9⟩
@[reducible] def Reg.CFG_STATUS.HDR_COPY : Fr := ⟨Reg.CFG_STATUS, 11, 11⟩
@[reducible] def Reg.CFG_EVENT : Nat := 0x10014
@[reducible] def Reg.CFG_EVENT.IMAGE_BAD : Fr := ⟨Reg.CFG_EVENT, 0, 0⟩
@[reducible] def Reg.CFG_EVENT.SAFE_MODE : Fr := ⟨Reg.CFG_EVENT, 1, 1⟩
@[reducible] def Reg.CFG_EVENT.HEALTH_PASS : Fr := ⟨Reg.CFG_EVENT, 2, 2⟩
@[reducible] def Reg.CFG_EVENT.HEALTH_FAIL : Fr := ⟨Reg.CFG_EVENT, 3, 3⟩
@[reducible] def Reg.CFG_EVENT.ROLLBACK : Fr := ⟨Reg.CFG_EVENT, 4, 4⟩
@[reducible] def Reg.CFG_EVENT.CMD_DONE : Fr := ⟨Reg.CFG_EVENT, 5, 5⟩
@[reducible] def Reg.CFG_EVENT.CMD_ERR : Fr := ⟨Reg.CFG_EVENT, 6, 6⟩
@[reducible] def Reg.CFG_EVENT.COMMIT_DONE : Fr := ⟨Reg.CFG_EVENT, 7, 7⟩
@[reducible] def Reg.CFG_EVENT.COMMIT_ABANDON : Fr := ⟨Reg.CFG_EVENT, 8, 8⟩
@[reducible] def Reg.CFG_EVENT.OVERRIDE : Fr := ⟨Reg.CFG_EVENT, 9, 9⟩
@[reducible] def Reg.CFG_EVENT.NVM_TIMEOUT : Fr := ⟨Reg.CFG_EVENT, 10, 10⟩
@[reducible] def Reg.CFG_EVENT.REPAIR_FULL : Fr := ⟨Reg.CFG_EVENT, 11, 11⟩
@[reducible] def Reg.CFG_EVENT.EPOCH_WRAP : Fr := ⟨Reg.CFG_EVENT, 12, 12⟩
@[reducible] def Reg.CFG_EVENT.MARKER_FAIL : Fr := ⟨Reg.CFG_EVENT, 13, 13⟩
@[reducible] def Reg.CFG_EVENT_EN : Nat := 0x10018
@[reducible] def Reg.CFG_EVENT_EN.EN : Fr := ⟨Reg.CFG_EVENT_EN, 13, 0⟩
@[reducible] def Reg.CFG_IMAGE_VER : Nat := 0x10020
@[reducible] def Reg.CFG_IMAGE_VER.VER : Fr := ⟨Reg.CFG_IMAGE_VER, 31, 0⟩
@[reducible] def Reg.CFG_EPOCH : Nat := 0x10024
@[reducible] def Reg.CFG_EPOCH.EPOCH : Fr := ⟨Reg.CFG_EPOCH, 31, 0⟩
@[reducible] def Reg.CFG_MIN_VER : Nat := 0x10028
@[reducible] def Reg.CFG_MIN_VER.MIN_VER : Fr := ⟨Reg.CFG_MIN_VER, 31, 0⟩
@[reducible] def Reg.CFG_SLOT (s : Nat) : Nat := 0x10030 + 0x4 * s
@[reducible] def Reg.CFG_SLOT.HDR_OK (s : Nat) : Fr := ⟨Reg.CFG_SLOT s, 0, 0⟩
@[reducible] def Reg.CFG_SLOT.STAGED (s : Nat) : Fr := ⟨Reg.CFG_SLOT s, 1, 1⟩
@[reducible] def Reg.CFG_SLOT.COMMITTED (s : Nat) : Fr := ⟨Reg.CFG_SLOT s, 2, 2⟩
@[reducible] def Reg.CFG_SLOT.PROVEN (s : Nat) : Fr := ⟨Reg.CFG_SLOT s, 3, 3⟩
@[reducible] def Reg.CFG_SLOT.BAD (s : Nat) : Fr := ⟨Reg.CFG_SLOT s, 4, 4⟩
@[reducible] def Reg.CFG_SLOT.ATTEMPTS (s : Nat) : Fr := ⟨Reg.CFG_SLOT s, 6, 5⟩
@[reducible] def Reg.CFG_SLOT.BAD_CAUSE (s : Nat) : Fr := ⟨Reg.CFG_SLOT s, 11, 8⟩
@[reducible] def Reg.CFG_SLOT_VER (s : Nat) : Nat := 0x10040 + 0x4 * s
@[reducible] def Reg.CFG_SLOT_VER.VER (s : Nat) : Fr := ⟨Reg.CFG_SLOT_VER s, 31, 0⟩
@[reducible] def Reg.CFG_HEALTH : Nat := 0x10050
@[reducible] def Reg.CFG_HEALTH.ACK : Fr := ⟨Reg.CFG_HEALTH, 0, 0⟩
@[reducible] def Reg.CFG_HEALTH.REMAIN : Fr := ⟨Reg.CFG_HEALTH, 31, 16⟩
@[reducible] def Reg.CFG_HEALTH_FAIL : Nat := 0x10054
@[reducible] def Reg.CFG_HEALTH_FAIL.FAILED : Fr := ⟨Reg.CFG_HEALTH_FAIL, 15, 0⟩
@[reducible] def Reg.CFG_CMD : Nat := 0x10060
@[reducible] def Reg.CFG_CMD.OP : Fr := ⟨Reg.CFG_CMD, 3, 0⟩
@[reducible] def Reg.CFG_CMD.SLOT : Fr := ⟨Reg.CFG_CMD, 5, 4⟩
@[reducible] def Reg.CFG_CMD.GO : Fr := ⟨Reg.CFG_CMD, 6, 6⟩
@[reducible] def Reg.CFG_CMD_SRC : Nat := 0x10064
@[reducible] def Reg.CFG_CMD_SRC.OFFSET : Fr := ⟨Reg.CFG_CMD_SRC, 21, 0⟩
@[reducible] def Reg.CFG_CMD_DST : Nat := 0x10068
@[reducible] def Reg.CFG_CMD_DST.OFFSET : Fr := ⟨Reg.CFG_CMD_DST, 23, 0⟩
@[reducible] def Reg.CFG_CMD_LEN : Nat := 0x1006C
@[reducible] def Reg.CFG_CMD_LEN.LEN : Fr := ⟨Reg.CFG_CMD_LEN, 22, 0⟩
@[reducible] def Reg.CFG_CMD_RESULT : Nat := 0x10070
@[reducible] def Reg.CFG_CMD_RESULT.CODE : Fr := ⟨Reg.CFG_CMD_RESULT, 3, 0⟩
@[reducible] def Reg.CFG_CMD_RESULT.REC : Fr := ⟨Reg.CFG_CMD_RESULT, 31, 16⟩
@[reducible] def Reg.CFG_ACT_TICK_LO : Nat := 0x10080
@[reducible] def Reg.CFG_ACT_TICK_LO.TICK : Fr := ⟨Reg.CFG_ACT_TICK_LO, 31, 0⟩
@[reducible] def Reg.CFG_ACT_TICK_HI : Nat := 0x10084
@[reducible] def Reg.CFG_ACT_TICK_HI.TICK : Fr := ⟨Reg.CFG_ACT_TICK_HI, 31, 0⟩
@[reducible] def Reg.CFG_ACT_TXF_LO (l : Nat) : Nat := 0x10090 + 0x10 * l
@[reducible] def Reg.CFG_ACT_TXF_LO.F (l : Nat) : Fr := ⟨Reg.CFG_ACT_TXF_LO l, 31, 0⟩
@[reducible] def Reg.CFG_ACT_TXF_HI (l : Nat) : Nat := 0x10094 + 0x10 * l
@[reducible] def Reg.CFG_ACT_TXF_HI.F (l : Nat) : Fr := ⟨Reg.CFG_ACT_TXF_HI l, 31, 0⟩
@[reducible] def Reg.CFG_ACT_RXF_LO (l : Nat) : Nat := 0x10098 + 0x10 * l
@[reducible] def Reg.CFG_ACT_RXF_LO.F (l : Nat) : Fr := ⟨Reg.CFG_ACT_RXF_LO l, 31, 0⟩
@[reducible] def Reg.CFG_ACT_RXF_HI (l : Nat) : Nat := 0x1009C + 0x10 * l
@[reducible] def Reg.CFG_ACT_RXF_HI.F (l : Nat) : Fr := ⟨Reg.CFG_ACT_RXF_HI l, 31, 0⟩
@[reducible] def Reg.CFG_OVR : Nat := 0x100C0
@[reducible] def Reg.CFG_OVR.KEY : Fr := ⟨Reg.CFG_OVR, 15, 0⟩
@[reducible] def Reg.CFG_OVR.UNLOCK : Fr := ⟨Reg.CFG_OVR, 16, 16⟩
@[reducible] def Reg.CFG_OVR_CNT : Nat := 0x100C4
@[reducible] def Reg.CFG_OVR_CNT.CNT : Fr := ⟨Reg.CFG_OVR_CNT, 31, 0⟩
@[reducible] def Reg.CFG_BOOT_TIME : Nat := 0x100C8
@[reducible] def Reg.CFG_BOOT_TIME.TICKS : Fr := ⟨Reg.CFG_BOOT_TIME, 31, 0⟩
@[reducible] def Reg.FLT_CTL : Nat := 0x20000
@[reducible] def Reg.FLT_CTL.WDOG_REBOOT : Fr := ⟨Reg.FLT_CTL, 0, 0⟩
@[reducible] def Reg.FLT_STATUS : Nat := 0x20010
@[reducible] def Reg.FLT_STATUS.DEGRADED : Fr := ⟨Reg.FLT_STATUS, 0, 0⟩
@[reducible] def Reg.FLT_STATUS.POOLS : Fr := ⟨Reg.FLT_STATUS, 4, 1⟩
@[reducible] def Reg.FLT_STATUS.SERVICE : Fr := ⟨Reg.FLT_STATUS, 5, 5⟩
@[reducible] def Reg.FLT_STATUS.FAULT : Fr := ⟨Reg.FLT_STATUS, 6, 6⟩
@[reducible] def Reg.FLT_STATUS.THERM : Fr := ⟨Reg.FLT_STATUS, 7, 7⟩
@[reducible] def Reg.FLT_STATUS.LINE_HELD : Fr := ⟨Reg.FLT_STATUS, 9, 8⟩
@[reducible] def Reg.FLT_STATUS.SEQ_HARD : Fr := ⟨Reg.FLT_STATUS, 10, 10⟩
@[reducible] def Reg.FLT_STATUS.XO_FAIL : Fr := ⟨Reg.FLT_STATUS, 11, 11⟩
@[reducible] def Reg.FLT_STATUS.MOR_OK : Fr := ⟨Reg.FLT_STATUS, 12, 12⟩
@[reducible] def Reg.FLT_EVENT : Nat := 0x20014
@[reducible] def Reg.FLT_EVENT.DEGRADED : Fr := ⟨Reg.FLT_EVENT, 0, 0⟩
@[reducible] def Reg.FLT_EVENT.SEQ_FAULT : Fr := ⟨Reg.FLT_EVENT, 1, 1⟩
@[reducible] def Reg.FLT_EVENT.WDOG : Fr := ⟨Reg.FLT_EVENT, 2, 2⟩
@[reducible] def Reg.FLT_EVENT.XO_FAIL : Fr := ⟨Reg.FLT_EVENT, 3, 3⟩
@[reducible] def Reg.FLT_EVENT.MOR_FAIL : Fr := ⟨Reg.FLT_EVENT, 4, 4⟩
@[reducible] def Reg.FLT_EVENT.MOR_LOST : Fr := ⟨Reg.FLT_EVENT, 5, 5⟩
@[reducible] def Reg.FLT_EVENT.MOR_RD_DONE : Fr := ⟨Reg.FLT_EVENT, 6, 6⟩
@[reducible] def Reg.FLT_EVENT.SERVICE_ON : Fr := ⟨Reg.FLT_EVENT, 7, 7⟩
@[reducible] def Reg.FLT_EVENT_EN : Nat := 0x20018
@[reducible] def Reg.FLT_EVENT_EN.EN : Fr := ⟨Reg.FLT_EVENT_EN, 7, 0⟩
@[reducible] def Reg.FLT_SUMMARY : Nat := 0x20020
@[reducible] def Reg.FLT_SUMMARY.BLOCKS : Fr := ⟨Reg.FLT_SUMMARY, 13, 0⟩
@[reducible] def Reg.FLT_SUMMARY.LNA : Fr := ⟨Reg.FLT_SUMMARY, 21, 16⟩
@[reducible] def Reg.FLT_SUMMARY.LNB : Fr := ⟨Reg.FLT_SUMMARY, 29, 24⟩
@[reducible] def Reg.FLT_RESET_CAUSE : Nat := 0x20024
@[reducible] def Reg.FLT_RESET_CAUSE.CAUSE : Fr := ⟨Reg.FLT_RESET_CAUSE, 2, 0⟩
@[reducible] def Reg.FLT_MOR_IDX : Nat := 0x20028
@[reducible] def Reg.FLT_MOR_IDX.IDX : Fr := ⟨Reg.FLT_MOR_IDX, 15, 0⟩
@[reducible] def Reg.FLT_MOR_SEQ : Nat := 0x2002C
@[reducible] def Reg.FLT_MOR_SEQ.SEQ : Fr := ⟨Reg.FLT_MOR_SEQ, 31, 0⟩
@[reducible] def Reg.FLT_MOR_LOST : Nat := 0x20030
@[reducible] def Reg.FLT_MOR_LOST.LOST : Fr := ⟨Reg.FLT_MOR_LOST, 15, 0⟩
@[reducible] def Reg.FLT_MOR_LOST.QUEUED : Fr := ⟨Reg.FLT_MOR_LOST, 22, 16⟩
@[reducible] def Reg.FLT_MOR_RD_IDX : Nat := 0x20040
@[reducible] def Reg.FLT_MOR_RD_IDX.IDX : Fr := ⟨Reg.FLT_MOR_RD_IDX, 15, 0⟩
@[reducible] def Reg.FLT_MOR_RD_CNT : Nat := 0x20044
@[reducible] def Reg.FLT_MOR_RD_CNT.CNT : Fr := ⟨Reg.FLT_MOR_RD_CNT, 8, 0⟩
@[reducible] def Reg.FLT_MOR_RD_DST : Nat := 0x20048
@[reducible] def Reg.FLT_MOR_RD_DST.OFFSET : Fr := ⟨Reg.FLT_MOR_RD_DST, 21, 0⟩
@[reducible] def Reg.FLT_MOR_RD_CTL : Nat := 0x2004C
@[reducible] def Reg.FLT_MOR_RD_CTL.GO : Fr := ⟨Reg.FLT_MOR_RD_CTL, 0, 0⟩
@[reducible] def Reg.FLT_SEQ_CNT : Nat := 0x20050
@[reducible] def Reg.FLT_SEQ_CNT.CNT : Fr := ⟨Reg.FLT_SEQ_CNT, 15, 0⟩
@[reducible] def Reg.PMC_SNAP_CFG : Nat := 0x400000
@[reducible] def Reg.PMC_SNAP_CFG.PERIOD : Fr := ⟨Reg.PMC_SNAP_CFG, 23, 0⟩
@[reducible] def Reg.PMC_SNAP_CTL : Nat := 0x400004
@[reducible] def Reg.PMC_SNAP_CTL.FREEZE : Fr := ⟨Reg.PMC_SNAP_CTL, 0, 0⟩
@[reducible] def Reg.PMC_SNAP_CTL.NOW : Fr := ⟨Reg.PMC_SNAP_CTL, 1, 1⟩
@[reducible] def Reg.PMC_STATUS : Nat := 0x400010
@[reducible] def Reg.PMC_STATUS.FROZEN : Fr := ⟨Reg.PMC_STATUS, 0, 0⟩
@[reducible] def Reg.PMC_STATUS.TEL_RUN : Fr := ⟨Reg.PMC_STATUS, 1, 1⟩
@[reducible] def Reg.PMC_EVENT : Nat := 0x400014
@[reducible] def Reg.PMC_EVENT.WRAP : Fr := ⟨Reg.PMC_EVENT, 0, 0⟩
@[reducible] def Reg.PMC_EVENT.SNAP_MISS : Fr := ⟨Reg.PMC_EVENT, 1, 1⟩
@[reducible] def Reg.PMC_EVENT.TEL_DROP : Fr := ⟨Reg.PMC_EVENT, 2, 2⟩
@[reducible] def Reg.PMC_EVENT.TEL_ERR : Fr := ⟨Reg.PMC_EVENT, 3, 3⟩
@[reducible] def Reg.PMC_EVENT.MIRROR_DENIED : Fr := ⟨Reg.PMC_EVENT, 4, 4⟩
@[reducible] def Reg.PMC_EVENT.PRESET : Fr := ⟨Reg.PMC_EVENT, 5, 5⟩
@[reducible] def Reg.PMC_EVENT_EN : Nat := 0x400018
@[reducible] def Reg.PMC_EVENT_EN.EN : Fr := ⟨Reg.PMC_EVENT_EN, 5, 0⟩
@[reducible] def Reg.PMC_SNAP_GEN : Nat := 0x400020
@[reducible] def Reg.PMC_SNAP_GEN.GEN : Fr := ⟨Reg.PMC_SNAP_GEN, 31, 0⟩
@[reducible] def Reg.PMC_SNAP_TICK_LO : Nat := 0x400024
@[reducible] def Reg.PMC_SNAP_TICK_LO.TICK : Fr := ⟨Reg.PMC_SNAP_TICK_LO, 31, 0⟩
@[reducible] def Reg.PMC_SNAP_TICK_HI : Nat := 0x400028
@[reducible] def Reg.PMC_SNAP_TICK_HI.TICK : Fr := ⟨Reg.PMC_SNAP_TICK_HI, 31, 0⟩
@[reducible] def Reg.PMC_SNAP_TIME_LO : Nat := 0x40002C
@[reducible] def Reg.PMC_SNAP_TIME_LO.TIME : Fr := ⟨Reg.PMC_SNAP_TIME_LO, 31, 0⟩
@[reducible] def Reg.PMC_SNAP_TIME_HI : Nat := 0x400030
@[reducible] def Reg.PMC_SNAP_TIME_HI.TIME : Fr := ⟨Reg.PMC_SNAP_TIME_HI, 31, 0⟩
@[reducible] def Reg.PMC_SNAP_MISS : Nat := 0x400034
@[reducible] def Reg.PMC_SNAP_MISS.MISSED : Fr := ⟨Reg.PMC_SNAP_MISS, 15, 0⟩
@[reducible] def Reg.PMC_SNAP_MISS.SKIPPED : Fr := ⟨Reg.PMC_SNAP_MISS, 31, 16⟩
@[reducible] def Reg.PMC_USER_EN : Nat := 0x400040
@[reducible] def Reg.PMC_USER_EN.EN : Fr := ⟨Reg.PMC_USER_EN, 0, 0⟩
@[reducible] def Reg.PMC_MIR_LOG : Nat := 0x400044
@[reducible] def Reg.PMC_MIR_LOG.OFFSET : Fr := ⟨Reg.PMC_MIR_LOG, 19, 0⟩
@[reducible] def Reg.PMC_MIR_LOG.VALID : Fr := ⟨Reg.PMC_MIR_LOG, 31, 31⟩
@[reducible] def Reg.PMC_MIR_DENY_CNT : Nat := 0x400048
@[reducible] def Reg.PMC_MIR_DENY_CNT.CNT : Fr := ⟨Reg.PMC_MIR_DENY_CNT, 31, 0⟩
@[reducible] def Reg.PMC_WRAP_LOG : Nat := 0x40004C
@[reducible] def Reg.PMC_WRAP_LOG.INDEX : Fr := ⟨Reg.PMC_WRAP_LOG, 13, 0⟩
@[reducible] def Reg.PMC_WRAP_LOG.VALID : Fr := ⟨Reg.PMC_WRAP_LOG, 31, 31⟩
@[reducible] def Reg.PMC_PRESET_IDX : Nat := 0x400050
@[reducible] def Reg.PMC_PRESET_IDX.INDEX : Fr := ⟨Reg.PMC_PRESET_IDX, 13, 0⟩
@[reducible] def Reg.PMC_PRESET_IDX.GO : Fr := ⟨Reg.PMC_PRESET_IDX, 14, 14⟩
@[reducible] def Reg.PMC_PRESET_LO : Nat := 0x400054
@[reducible] def Reg.PMC_PRESET_LO.VALUE : Fr := ⟨Reg.PMC_PRESET_LO, 31, 0⟩
@[reducible] def Reg.PMC_PRESET_HI : Nat := 0x400058
@[reducible] def Reg.PMC_PRESET_HI.VALUE : Fr := ⟨Reg.PMC_PRESET_HI, 31, 0⟩
@[reducible] def Reg.PMC_TEL_CTL : Nat := 0x400080
@[reducible] def Reg.PMC_TEL_CTL.EN : Fr := ⟨Reg.PMC_TEL_CTL, 0, 0⟩
@[reducible] def Reg.PMC_TEL_CTL.IRQ : Fr := ⟨Reg.PMC_TEL_CTL, 1, 1⟩
@[reducible] def Reg.PMC_TEL_CTL.DIV : Fr := ⟨Reg.PMC_TEL_CTL, 31, 16⟩
@[reducible] def Reg.PMC_TEL_CFG : Nat := 0x400084
@[reducible] def Reg.PMC_TEL_CFG.LOG2 : Fr := ⟨Reg.PMC_TEL_CFG, 3, 0⟩
@[reducible] def Reg.PMC_TEL_BASE_LO : Nat := 0x400088
@[reducible] def Reg.PMC_TEL_BASE_LO.ADDR : Fr := ⟨Reg.PMC_TEL_BASE_LO, 31, 0⟩
@[reducible] def Reg.PMC_TEL_BASE_HI : Nat := 0x40008C
@[reducible] def Reg.PMC_TEL_BASE_HI.ADDR : Fr := ⟨Reg.PMC_TEL_BASE_HI, 31, 0⟩
@[reducible] def Reg.PMC_TEL_WR : Nat := 0x400090
@[reducible] def Reg.PMC_TEL_WR.IDX : Fr := ⟨Reg.PMC_TEL_WR, 15, 0⟩
@[reducible] def Reg.PMC_TEL_RD : Nat := 0x400094
@[reducible] def Reg.PMC_TEL_RD.IDX : Fr := ⟨Reg.PMC_TEL_RD, 15, 0⟩
@[reducible] def Reg.PMC_TEL_SLOT : Nat := 0x400098
@[reducible] def Reg.PMC_TEL_SLOT.BYTES : Fr := ⟨Reg.PMC_TEL_SLOT, 17, 0⟩
@[reducible] def Reg.PMC_TEL_SEQ : Nat := 0x40009C
@[reducible] def Reg.PMC_TEL_SEQ.SEQ : Fr := ⟨Reg.PMC_TEL_SEQ, 31, 0⟩
@[reducible] def Reg.PMC_TEL_DROP : Nat := 0x4000A0
@[reducible] def Reg.PMC_TEL_DROP.DROP : Fr := ⟨Reg.PMC_TEL_DROP, 31, 0⟩
@[reducible] def Reg.PMC_TEL_SEL (w : Nat) : Nat := 0x401000 + 0x4 * w
@[reducible] def Reg.PMC_TEL_SEL.SEL (w : Nat) : Fr := ⟨Reg.PMC_TEL_SEL w, 31, 0⟩
@[reducible] def Reg.PMC_MODE (k : Nat) : Nat := 0x410000 + 0x4 * k
@[reducible] def Reg.PMC_MODE.MODE (k : Nat) : Fr := ⟨Reg.PMC_MODE k, 1, 0⟩
@[reducible] def Reg.PMC_CAT (k : Nat) : Nat := 0x420000 + 0x4 * k
@[reducible] def Reg.PMC_CAT.KIND (k : Nat) : Fr := ⟨Reg.PMC_CAT k, 1, 0⟩
@[reducible] def Reg.PMC_CAT.BOTH (k : Nat) : Fr := ⟨Reg.PMC_CAT k, 2, 2⟩
@[reducible] def Reg.PMC_CAT.SRC (k : Nat) : Fr := ⟨Reg.PMC_CAT k, 8, 4⟩
@[reducible] def Reg.PMC_CAT.EVBIT (k : Nat) : Fr := ⟨Reg.PMC_CAT k, 14, 9⟩
@[reducible] def Reg.PMC_CAT.INSTANCE (k : Nat) : Fr := ⟨Reg.PMC_CAT k, 31, 16⟩
@[reducible] def Reg.PMC_CNT_LO (k : Nat) : Nat := 0x500000 + 0x10 * k
@[reducible] def Reg.PMC_CNT_LO.V (k : Nat) : Fr := ⟨Reg.PMC_CNT_LO k, 31, 0⟩
@[reducible] def Reg.PMC_CNT_HI (k : Nat) : Nat := 0x500004 + 0x10 * k
@[reducible] def Reg.PMC_CNT_HI.V (k : Nat) : Fr := ⟨Reg.PMC_CNT_HI k, 31, 0⟩
@[reducible] def Reg.PMC_CNT_WRAP (k : Nat) : Nat := 0x500008 + 0x10 * k
@[reducible] def Reg.PMC_CNT_WRAP.WRAP_CNT (k : Nat) : Fr := ⟨Reg.PMC_CNT_WRAP k, 7, 0⟩
@[reducible] def Reg.PMC_CNT_WRAP.WRAP (k : Nat) : Fr := ⟨Reg.PMC_CNT_WRAP k, 8, 8⟩
@[reducible] def Reg.PMC_SNAP_LO (k : Nat) : Nat := 0x540000 + 0x10 * k
@[reducible] def Reg.PMC_SNAP_LO.V (k : Nat) : Fr := ⟨Reg.PMC_SNAP_LO k, 31, 0⟩
@[reducible] def Reg.PMC_SNAP_HI (k : Nat) : Nat := 0x540004 + 0x10 * k
@[reducible] def Reg.PMC_SNAP_HI.V (k : Nat) : Fr := ⟨Reg.PMC_SNAP_HI k, 31, 0⟩
@[reducible] def Reg.PMC_SNAP_WRAP (k : Nat) : Nat := 0x540008 + 0x10 * k
@[reducible] def Reg.PMC_SNAP_WRAP.WRAP_CNT (k : Nat) : Fr := ⟨Reg.PMC_SNAP_WRAP k, 7, 0⟩
@[reducible] def Reg.PMC_SNAP_WRAP.WRAP (k : Nat) : Fr := ⟨Reg.PMC_SNAP_WRAP k, 8, 8⟩
@[reducible] def Reg.PMC_WIN_LEN (w : Nat) : Nat := 0x600000 + 0x40 * w
@[reducible] def Reg.PMC_WIN_LEN.LEN_M1 (w : Nat) : Fr := ⟨Reg.PMC_WIN_LEN w, 31, 0⟩
@[reducible] def Reg.PMC_WIN_CTL (w : Nat) : Nat := 0x600004 + 0x40 * w
@[reducible] def Reg.PMC_WIN_CTL.EN (w : Nat) : Fr := ⟨Reg.PMC_WIN_CTL w, 0, 0⟩
@[reducible] def Reg.PMC_WIN_CTL.CLR_MM (w : Nat) : Fr := ⟨Reg.PMC_WIN_CTL w, 1, 1⟩
@[reducible] def Reg.PMC_WIN_BYTES_LO (w : Nat) : Nat := 0x600008 + 0x40 * w
@[reducible] def Reg.PMC_WIN_BYTES_LO.B (w : Nat) : Fr := ⟨Reg.PMC_WIN_BYTES_LO w, 31, 0⟩
@[reducible] def Reg.PMC_WIN_BYTES_HI (w : Nat) : Nat := 0x60000C + 0x40 * w
@[reducible] def Reg.PMC_WIN_BYTES_HI.B (w : Nat) : Fr := ⟨Reg.PMC_WIN_BYTES_HI w, 31, 0⟩
@[reducible] def Reg.PMC_WIN_UNITS_LO (w : Nat) : Nat := 0x600010 + 0x40 * w
@[reducible] def Reg.PMC_WIN_UNITS_LO.U (w : Nat) : Fr := ⟨Reg.PMC_WIN_UNITS_LO w, 31, 0⟩
@[reducible] def Reg.PMC_WIN_UNITS_HI (w : Nat) : Nat := 0x600014 + 0x40 * w
@[reducible] def Reg.PMC_WIN_UNITS_HI.U (w : Nat) : Fr := ⟨Reg.PMC_WIN_UNITS_HI w, 31, 0⟩
@[reducible] def Reg.PMC_WIN_RATE (w : Nat) : Nat := 0x600018 + 0x40 * w
@[reducible] def Reg.PMC_WIN_RATE.R (w : Nat) : Fr := ⟨Reg.PMC_WIN_RATE w, 31, 0⟩
@[reducible] def Reg.PMC_WIN_MIN (w : Nat) : Nat := 0x60001C + 0x40 * w
@[reducible] def Reg.PMC_WIN_MIN.MIN_RATE (w : Nat) : Fr := ⟨Reg.PMC_WIN_MIN w, 31, 0⟩
@[reducible] def Reg.PMC_WIN_MAX (w : Nat) : Nat := 0x600020 + 0x40 * w
@[reducible] def Reg.PMC_WIN_MAX.MAX_RATE (w : Nat) : Fr := ⟨Reg.PMC_WIN_MAX w, 31, 0⟩
@[reducible] def Reg.PMC_WIN_END_LO (w : Nat) : Nat := 0x600024 + 0x40 * w
@[reducible] def Reg.PMC_WIN_END_LO.TICK (w : Nat) : Fr := ⟨Reg.PMC_WIN_END_LO w, 31, 0⟩
@[reducible] def Reg.PMC_WIN_END_HI (w : Nat) : Nat := 0x600028 + 0x40 * w
@[reducible] def Reg.PMC_WIN_END_HI.TICK (w : Nat) : Fr := ⟨Reg.PMC_WIN_END_HI w, 31, 0⟩
@[reducible] def Reg.PMC_WIN_CNT (w : Nat) : Nat := 0x60002C + 0x40 * w
@[reducible] def Reg.PMC_WIN_CNT.WIN_CNT (w : Nat) : Fr := ⟨Reg.PMC_WIN_CNT w, 31, 0⟩
@[reducible] def Reg.PMC_WIN_INFO (w : Nat) : Nat := 0x600030 + 0x40 * w
@[reducible] def Reg.PMC_WIN_INFO.IRREG (w : Nat) : Fr := ⟨Reg.PMC_WIN_INFO w, 0, 0⟩
@[reducible] def Reg.GLB_ID : Nat := 0x0
@[reducible] def Reg.GLB_ID.REV : Fr := ⟨Reg.GLB_ID, 7, 0⟩
@[reducible] def Reg.GLB_ID.PART : Fr := ⟨Reg.GLB_ID, 31, 16⟩
@[reducible] def Reg.GLB_DEVICE_ID_LO : Nat := 0x8
@[reducible] def Reg.GLB_DEVICE_ID_LO.ID : Fr := ⟨Reg.GLB_DEVICE_ID_LO, 31, 0⟩
@[reducible] def Reg.GLB_DEVICE_ID_HI : Nat := 0xC
@[reducible] def Reg.GLB_DEVICE_ID_HI.ID : Fr := ⟨Reg.GLB_DEVICE_ID_HI, 31, 0⟩
@[reducible] def Reg.GLB_SCRATCH : Nat := 0x10
@[reducible] def Reg.GLB_SCRATCH.DATA : Fr := ⟨Reg.GLB_SCRATCH, 31, 0⟩
@[reducible] def Reg.GLB_HOST_STATUS : Nat := 0xA0
@[reducible] def Reg.GLB_HOST_STATUS.BOOT_STEP : Fr := ⟨Reg.GLB_HOST_STATUS, 2, 0⟩
@[reducible] def Reg.GLB_HOST_STATUS.READY : Fr := ⟨Reg.GLB_HOST_STATUS, 3, 3⟩
@[reducible] def Reg.GLB_HOST_STATUS.LINK_GEN : Fr := ⟨Reg.GLB_HOST_STATUS, 7, 4⟩
@[reducible] def Reg.GLB_HOST_STATUS.LINK_WIDTH : Fr := ⟨Reg.GLB_HOST_STATUS, 10, 8⟩
@[reducible] def Reg.GLB_HOST_EVENT : Nat := 0xA4
@[reducible] def Reg.GLB_HOST_EVENT.WR_REJ : Fr := ⟨Reg.GLB_HOST_EVENT, 0, 0⟩
@[reducible] def Reg.GLB_HOST_EVENT.ACC_ERR : Fr := ⟨Reg.GLB_HOST_EVENT, 1, 1⟩
@[reducible] def Reg.GLB_HOST_EVENT.DMA_ERR : Fr := ⟨Reg.GLB_HOST_EVENT, 2, 2⟩
@[reducible] def Reg.GLB_HOST_EVENT.DMA_TIMEOUT : Fr := ⟨Reg.GLB_HOST_EVENT, 3, 3⟩
@[reducible] def Reg.GLB_HOST_EVENT.LINK_DOWN : Fr := ⟨Reg.GLB_HOST_EVENT, 4, 4⟩
@[reducible] def Reg.GLB_HOST_EVENT.PCIE_RESET : Fr := ⟨Reg.GLB_HOST_EVENT, 5, 5⟩
@[reducible] def Reg.GLB_HOST_EVENT_EN : Nat := 0xA8
@[reducible] def Reg.GLB_HOST_EVENT_EN.EN : Fr := ⟨Reg.GLB_HOST_EVENT_EN, 5, 0⟩
@[reducible] def Reg.GLB_REJ_LOG_0 : Nat := 0xB0
@[reducible] def Reg.GLB_REJ_LOG_0.OFFSET : Fr := ⟨Reg.GLB_REJ_LOG_0, 23, 0⟩
@[reducible] def Reg.GLB_REJ_LOG_0.CAUSE : Fr := ⟨Reg.GLB_REJ_LOG_0, 27, 24⟩
@[reducible] def Reg.GLB_REJ_LOG_0.VALID : Fr := ⟨Reg.GLB_REJ_LOG_0, 31, 31⟩
@[reducible] def Reg.GLB_REJ_LOG_1 : Nat := 0xB4
@[reducible] def Reg.GLB_REJ_LOG_1.VALUE : Fr := ⟨Reg.GLB_REJ_LOG_1, 31, 0⟩
@[reducible] def Reg.GLB_REJ_LOG_2 : Nat := 0xB8
@[reducible] def Reg.GLB_REJ_LOG_2.TICK : Fr := ⟨Reg.GLB_REJ_LOG_2, 31, 0⟩
@[reducible] def Reg.GLB_ACC_LOG_0 : Nat := 0xC0
@[reducible] def Reg.GLB_ACC_LOG_0.OFFSET : Fr := ⟨Reg.GLB_ACC_LOG_0, 21, 0⟩
@[reducible] def Reg.GLB_ACC_LOG_0.KIND : Fr := ⟨Reg.GLB_ACC_LOG_0, 23, 22⟩
@[reducible] def Reg.GLB_ACC_LOG_0.VALID : Fr := ⟨Reg.GLB_ACC_LOG_0, 31, 31⟩
@[reducible] def Reg.GLB_ACC_LOG_1 : Nat := 0xC4
@[reducible] def Reg.GLB_ACC_LOG_1.TICK : Fr := ⟨Reg.GLB_ACC_LOG_1, 31, 0⟩
@[reducible] def Reg.HST_STATUS : Nat := 0xA0010
@[reducible] def Reg.HST_STATUS.FXG_LOCK : Fr := ⟨Reg.HST_STATUS, 15, 0⟩
@[reducible] def Reg.HST_EVENT : Nat := 0xA0014
@[reducible] def Reg.HST_EVENT.LINK_DOWN : Fr := ⟨Reg.HST_EVENT, 0, 0⟩
@[reducible] def Reg.HST_EVENT.LINK_UP : Fr := ⟨Reg.HST_EVENT, 1, 1⟩
@[reducible] def Reg.HST_EVENT.FXG_DEFECT : Fr := ⟨Reg.HST_EVENT, 2, 2⟩
@[reducible] def Reg.HST_EVENT.CAL_SWITCH : Fr := ⟨Reg.HST_EVENT, 3, 3⟩
@[reducible] def Reg.HST_EVENT.CAL_FAIL : Fr := ⟨Reg.HST_EVENT, 4, 4⟩
@[reducible] def Reg.HST_EVENT_EN : Nat := 0xA0018
@[reducible] def Reg.HST_EVENT_EN.EN : Fr := ⟨Reg.HST_EVENT_EN, 4, 0⟩
@[reducible] def Reg.HST_PORT_CFG (p : Nat) : Nat := 0xA0100 + 0x4 * p
@[reducible] def Reg.HST_PORT_CFG.TYPE (p : Nat) : Fr := ⟨Reg.HST_PORT_CFG p, 2, 0⟩
@[reducible] def Reg.HST_PORT_CFG.LT_EN (p : Nat) : Fr := ⟨Reg.HST_PORT_CFG p, 3, 3⟩
@[reducible] def Reg.HST_PORT_STATUS (p : Nat) : Nat := 0xA0200 + 0x4 * p
@[reducible] def Reg.HST_PORT_STATUS.LINK_UP (p : Nat) : Fr := ⟨Reg.HST_PORT_STATUS p, 0, 0⟩
@[reducible] def Reg.HST_PORT_STATUS.PCS_LOCK (p : Nat) : Fr := ⟨Reg.HST_PORT_STATUS p, 1, 1⟩
@[reducible] def Reg.HST_PORT_STATUS.FEC_LOCK (p : Nat) : Fr := ⟨Reg.HST_PORT_STATUS p, 2, 2⟩
@[reducible] def Reg.HST_PORT_STATUS.LT_DONE (p : Nat) : Fr := ⟨Reg.HST_PORT_STATUS p, 3, 3⟩
@[reducible] def Reg.HST_FXG_CFG (g : Nat) : Nat := 0xA0400 + 0x40 * g
@[reducible] def Reg.HST_FXG_CFG.EN (g : Nat) : Fr := ⟨Reg.HST_FXG_CFG g, 0, 0⟩
@[reducible] def Reg.HST_FXG_CFG.GROUP_NUM (g : Nat) : Fr := ⟨Reg.HST_FXG_CFG g, 27, 8⟩
@[reducible] def Reg.HST_FXG_PHY (g i : Nat) : Nat := 0xA0404 + 0x40 * g + 0x4 * i
@[reducible] def Reg.HST_FXG_PHY.PORT (g i : Nat) : Fr := ⟨Reg.HST_FXG_PHY g i, 5, 0⟩
@[reducible] def Reg.HST_FXG_PHY.PHY_NUM (g i : Nat) : Fr := ⟨Reg.HST_FXG_PHY g i, 15, 8⟩
@[reducible] def Reg.HST_FXG_PHY.VALID (g i : Nat) : Fr := ⟨Reg.HST_FXG_PHY g i, 31, 31⟩
@[reducible] def Reg.HST_FXG_CTL (g : Nat) : Nat := 0xA0424 + 0x40 * g
@[reducible] def Reg.HST_FXG_CTL.CAL_REQ (g : Nat) : Fr := ⟨Reg.HST_FXG_CTL g, 0, 0⟩
@[reducible] def Reg.HST_FXG_STATUS (g : Nat) : Nat := 0xA0428 + 0x40 * g
@[reducible] def Reg.HST_FXG_STATUS.LOCK (g : Nat) : Fr := ⟨Reg.HST_FXG_STATUS g, 0, 0⟩
@[reducible] def Reg.HST_FXG_STATUS.TX_CAL (g : Nat) : Fr := ⟨Reg.HST_FXG_STATUS g, 1, 1⟩
@[reducible] def Reg.HST_FXG_STATUS.RX_CAL (g : Nat) : Fr := ⟨Reg.HST_FXG_STATUS g, 2, 2⟩
@[reducible] def Reg.HST_FXG_CAL (g c s : Nat) : Nat := 0xB0000 + 0x1000 * g + 0x800 * c + 0x4 * s
@[reducible] def Reg.HST_FXG_CAL.CLIENT (g c s : Nat) : Fr := ⟨Reg.HST_FXG_CAL g c s, 15, 0⟩
@[reducible] def Reg.MSIX_ADDR_LO (v : Nat) : Nat := 0x2000 + 0x10 * v
@[reducible] def Reg.MSIX_ADDR_LO.ADDR (v : Nat) : Fr := ⟨Reg.MSIX_ADDR_LO v, 31, 0⟩
@[reducible] def Reg.MSIX_ADDR_HI (v : Nat) : Nat := 0x2004 + 0x10 * v
@[reducible] def Reg.MSIX_ADDR_HI.ADDR (v : Nat) : Fr := ⟨Reg.MSIX_ADDR_HI v, 31, 0⟩
@[reducible] def Reg.MSIX_DATA (v : Nat) : Nat := 0x2008 + 0x10 * v
@[reducible] def Reg.MSIX_DATA.DATA (v : Nat) : Fr := ⟨Reg.MSIX_DATA v, 31, 0⟩
@[reducible] def Reg.MSIX_CTL (v : Nat) : Nat := 0x200C + 0x10 * v
@[reducible] def Reg.MSIX_CTL.MASK (v : Nat) : Fr := ⟨Reg.MSIX_CTL v, 0, 0⟩
@[reducible] def Reg.MSIX_PBA (w : Nat) : Nat := 0x3000 + 0x4 * w
@[reducible] def Reg.MSIX_PBA.PEND (w : Nat) : Fr := ⟨Reg.MSIX_PBA w, 31, 0⟩

end Sys2Proof.Machine
end

