-- ==== Sys2Proof/Machine/RegReset.lean ====
section
/-! DEFINITION. What every BAR0 register reads as after RESET_N release (R18): the Reset column of its table. -/

namespace Sys2Proof.Machine

/-- The sum of the fields' reset values at their places. -/
def fldsReset (fs : List Fld) : Nat := fs.foldl (fun a f => a + f.reset * 2 ^ f.lo) 0

/-- The default list of a monitor unit (R398): entry `n` of unit `u`. -/
def monDefaultSrc (u n : Nat) : Nat :=
  if u = 0 then [0x00, 0x10, 0x11, 0x12, 0x13, 0x14, 0x17, 0x18, 0x01].getD n 0
  else [0x00, 0x12, 0x15, 0x16, 0x17, 0x01].getD n 0

/-- The default length of a monitor unit's list (R398). -/
def monDefaultLen (u : Nat) : Nat := if u = 0 then 9 else 6

/-- The reset words that depend on the index in a register array, where a table says so. -/
def regResetIndexed (off : Nat) : Option Nat :=
  let o := localOff off
  if o = 0x221440 ∨ o = 0x221540 ∨ o = 0x221640 ∨ o = 0x221740 then some 0x4000
  else if 0x201000 ≤ o ∧ o < 0x201900 then
    let u := ((o - 0x201000) / 4) % 18
    some (0x40000000 + (if u < 16 then u * 16 else if u = 16 then 1 else 2))
  else if 0x91000 ≤ off ∧ off < 0x92080 then
    let i := ((off - 0x91000) / 4) % 66
    some (if i < 64 then i * 16 else 1)
  else if off = 0x70008 then some (0x1400 + 0x20)
  else if off = 0x7000C then some (0x1400 + 0x40)
  else if 0x40010 ≤ off ∧ off < 0x40020 then some ([0x64, 0xA, 0x3E8, 0x2710].getD ((off - 0x40010) / 4) 0)
  else if 0x38000 ≤ off ∧ off < 0x3800C then some (1 + 8 * monDefaultLen ((off - 0x38000) / 4))
  else if 0x38100 ≤ off ∧ off < 0x38400 then
    let u := (off - 0x38100) / 0x100
    let n := ((off - 0x38100) % 0x100) / 4
    some (monDefaultSrc u n + 0x300 + (if n < monDefaultLen u then 0x80000000 else 0))
  else if 0x410000 ≤ off ∧ off < 0x420000 then some (Config.catMode ((off - 0x410000) / 4) % 4)
  else none

/-- The reset value of the register at an offset; zero where the map has none (R497). -/
def regReset (off : Nat) : Word :=
  match regDesc off with
  | none => 0
  | some r => BitVec.ofNat 32 ((regResetIndexed off).getD (fldsReset r.flds))

end Sys2Proof.Machine
end

