-- ==== Sys2Proof/Machine/StBase.lean ====
section
/-! DEFINITION. The parts of the state that belong to no single line engine: counters and windows, the Moraine
queue, the PCI Express function, the boot sequencer, a pending commit. -/

namespace Sys2Proof.Machine

open Sys2Proof (Fuses)

/-- What the block drives out while it takes one command: read data, messages, frames.  It is the last command's
output and is cleared when the next command starts. -/
inductive Out where
  /-- The data of a BAR read, with the EP bit of its completion (R487, R492). -/
  | readData (val : Nat) (ep : Bool)
  /-- One MSI-X message (R494). -/
  | msix (vector addr data : Nat)
  /-- Bytes an SMBus read returns (R496). -/
  | smb (bytes : List Byte)
  /-- The SMBus target does not acknowledge (R495). -/
  | smbNack
  /-- A DMA write to host memory (R485). -/
  | dmaWrite (addr : Nat) (bytes : List Byte)
  /-- A DMA read of host memory (R485). -/
  | dmaRead (addr len : Nat)
  /-- The head of a transmitted frame: line, frame number, its 128 bytes; muted frames send code 0 (R215). -/
  | txHead (line fn : Nat) (head : List Byte)
  /-- The rail values of a transmitted frame at its 40,960 positions, XI, XQ, YI, YQ in turn: ±(2i + 1) in the data
  region, ±1 elsewhere (R95, R197, R198). -/
  | txSymbols (line : Nat) (rails : List Int)
  /-- The values of 120 samples that a tile's DAC forms (R207, R222, R244, R294). -/
  | dac (line dac : Nat) (codes : List Int)
  /-- A DAC's cell map that a control flit carries: the unit cells at thermometer positions 1 to 63, the cell that serves of
  each binary pair (R232, R290). -/
  | dacMap (line dac : Nat) (units binary : List Nat)
  /-- A muted frame (R215). -/
  | txMuted (line fn : Nat)
  /-- A frame handed to a host port's transmitter, or to a FlexE client entry (R58). -/
  | egress (flexe : Bool) (port : Nat) (bytes : List Byte)
  /-- A frame that a decoder slot releases: line, frame number, its information bits. -/
  | decoded (line fn : Nat) (bits : List Bool)
  /-- A Rime packet's bytes on a port (R313). -/
  | rime (port : Nat) (bytes : List Byte)
  /-- A flit's payload delivered on a sub-link, and whether it is an erasure (R292, R294). -/
  | flit (sub : Nat) (bytes : List Byte) (erased : Bool)
  /-- Corrected samples of an ADC: tile, ADC, the number of the first, the values in 2^-18 LSB with their erasure flags
  (R221, R242, R253). -/
  | samples (tile adc first : Nat) (vals : List (Int × Bool))
  /-- The symbols a refinement pass works with: line, frame number, the rails as in `txSymbols`, 0 where a symbol is left
  out (R274). -/
  | refine (line fn : Nat) (rails : List Int)
  /-- The 128 bytes that a sub-link's sender puts into a slot, and the physical lanes of its 16 positions (R287, R291, R298). -/
  | flitSent (sub : Nat) (lanes : List Nat) (bytes : List Byte)
  /-- A PPS_OUT pulse of the given width in microseconds (R357). -/
  | pps (width : Nat)
  /-- A message on TOD_TX (R357). -/
  | tod (bytes : List Byte)
  deriving DecidableEq, Repr

/-- One counter of the array (R463): value, wrap count, wrap flag. -/
structure Ctr where
  v : Nat := 0
  w : Nat := 0
  wrap : Bool := false
  deriving DecidableEq, Repr

/-- A bandwidth window's accumulators (R473): the boundary its interval starts at and is due to end at. -/
structure Win where
  start : Nat := 0
  due : Nat := 0
  bytes : Nat := 0
  units : Nat := 0
  /-- A finished interval whose results are not published yet: bytes, units, length, end tick. -/
  fin : Option (Nat × Nat × Nat × Nat) := none
  deriving DecidableEq, Repr

/-- A captured snapshot that has not been formed yet (R470): tick, time in ns, every counter. -/
structure Snap where
  tick : Nat
  time : Nat
  ctrs : SMap Ctr
  deriving DecidableEq, Repr

/-- Telemetry's own state (R477-R479). -/
structure Tel where
  /-- Snapshots formed since EN was set. -/
  count : Nat := 0
  missed : Bool := false
  dropped : Bool := false
  /-- The wrap counts and flags at the previous record: counter, W. -/
  prevW : SMap Nat := []
  deriving DecidableEq, Repr

/-- A Moraine record before its SEQ and CRC are known (R451). -/
structure MorRec where
  kind : Nat
  sev : Nat
  src : Nat
  tick : Nat
  time : Nat
  cfgEpoch : Nat
  imageVer : Nat
  detail : List Byte
  deriving DecidableEq, Repr

/-- The Moraine writer (R453-R457). -/
structure Mor where
  queue : List MorRec := []
  /-- Whether Moraine holds a valid record, so that the next SEQ follows FLT_MOR_SEQ. -/
  any : Bool := false
  /-- Failed programs of the record at the head of the queue. -/
  fails : Nat := 0
  /-- Records lost since reset. -/
  lost : Nat := 0
  /-- The KIND and detail of the governing record, when the boot read found one (R454). -/
  governing : Option (Nat × List Byte) := none
  /-- The boot read has ended well. -/
  readOk : Bool := false
  /-- The tick of the next retry of a failed boot read. -/
  retryAt : Option Nat := none
  /-- Once a THERMAL_SHUTDOWN or ROLLBACK record is queued: how many records at the head may still be written before
  only kinds 0x0001 and 0x0010 are (R457). -/
  allow : Option Nat := none
  /-- The tick of the last FAULT record of an event bit, keyed 32 × EVENT offset + bit (R453). -/
  lastFault : SMap (Option Nat) := []
  deriving DecidableEq, Repr

/-- The PCI Express function (R482, R484-R486, R494). -/
structure Pcie where
  bme : Bool := false
  d3hot : Bool := false
  ctoValue : Nat := 0
  ctoDisable : Bool := false
  maxPayload : Nat := 128
  maxRead : Nat := 512
  msixMask : Bool := false
  aspmL1 : Bool := false
  /-- BAR addresses as the host assigned them. -/
  bars : SMap Nat := []
  /-- Other configuration registers a host wrote: offset and value. -/
  cfg : SMap Nat := []
  /-- Spread-spectrum modulation deeper than 100 ppm was found, so the reference clock is not used for R448 (R520). -/
  ssc : Bool := false
  /-- The reference clock is present. -/
  refclk : Bool := false
  deriving DecidableEq, Repr

/-- Pins the block drives (R508, R393-R396, R441, R442): the levels that no register shows. -/
structure Pins where
  nvmCsHigh : Bool := true
  hostLanesIdle : Bool := true
  /-- Every DAC of tile A / of tile B carries zero (R508, R515). -/
  dacZeroA : Bool := true
  dacZeroB : Bool := true
  smbAddr : Nat := 0x5A
  /-- The clock on REFOUT in kHz, 0 while it is held low (R357). -/
  refout : Nat := 0
  deriving DecidableEq, Repr

/-- A marker that the device programs into a slot's status sector by itself (R409). -/
structure MarkerJob where
  slot : Nat
  /-- 0 COMMITTED, 1 PROVEN, 2 BAD. -/
  kind : Nat
  cause : Nat
  running : Bool
  nextTry : Nat
  deriving DecidableEq, Repr

/-- A repair-log entry waiting to be written (R378, R436): bytes 0–11, and when a failed write is tried again. -/
structure MapJob where
  entry : List Byte
  waitUntil : Option Nat
  deriving DecidableEq, Repr

/-- A lane whose copy on a spare row differs from the old copy, by 4 × (4096 × instance + word) + lane. -/
structure LaneCopy where
  lane : Nat
  data : Nat
  syn : Nat
  deriving DecidableEq, Repr

/-- A hitless row move copied in this tick: instance, row, spare, and the lanes that differ on the spare (R377). -/
structure RowMove where
  inst : Nat
  row : Nat
  spare : Nat
  lanes : List LaneCopy
  deriving DecidableEq, Repr

/-- The protected memories (chapter 12).  Only the staging memory's contents can be reached from outside; what the other
macros hold is the state of the units that own them. -/
structure MemSt where
  /-- Staging data, by byte. -/
  data : SMap Byte := []
  /-- The syndrome each lane of every macro would read with, where it is not zero (R368), by 4 × (4096 × instance + word) + lane;
  `moveLost` marks one that was in flight when its row moved (R377). -/
  syn : SMap Nat := []
  /-- By 4096 × instance + word, where a correction has been counted at the word: 16 + the lanes written since (R375). -/
  trkWr : SMap Nat := []
  /-- The order in which tracker entries were made. -/
  trkAge : SMap Nat := []
  trkNext : Nat := 1
  /-- Spare rows, by 4 × instance + spare: 0 free, 1 fuse map, 2 field, 3 field and failed, 4 reserved for a pending move, 5 fuse map
  and failed (R377, R378). -/
  spare : SMap Nat := []
  /-- Rows that lie on a spare, by 512 × instance + row: 1 + the spare. -/
  rowMap : SMap Nat := []
  /-- Pending moves: instance, row, the spare reserved. -/
  pend : List (Nat × Nat × Nat) := []
  /-- What MEM_MACRO_m showed before this tick's repairs, of the macros they concern (R31). -/
  was : SMap (Option Nat) := []
  /-- Rows named for repair in this tick: instance and row. -/
  named : List (Nat × Nat) := []
  /-- Moves copied in this tick, published at the next boundary. -/
  moving : List RowMove := []
  /-- Repair-log entries to write. -/
  mapQ : List MapJob := []
  /-- The next free entry of the repair log (R436). -/
  mapNext : Nat := 1
  decayDone : Nat := 0
  /-- The read-assist level of every macro; the band fields read 0 before the first evaluation, whose band has level 2 (R390-R392). -/
  assist : Nat := 2
  deriving DecidableEq, Repr

/-- The boot sequencer and the health window (R417-R425). -/
structure Boot where
  /-- Step 3 has to run again (R421). -/
  reselect : Bool := false
  /-- The slot step 3 chose. -/
  cand : Option Nat := none
  /-- The slot headers read at step 2. -/
  slotHdr : List (List Byte) := [[], [], [], []]
  /-- CFG_HEALTH.ACK has been written 1 during the health window (R423). -/
  acked : Bool := false
  /-- Slots not eligible for the rest of this boot (R409). -/
  dead : List Nat := []
  /-- E as the epoch read took it (R134 step 1). -/
  epochE : Option Nat := none
  /-- The boot header copy in use and its SEQ (R408). -/
  hdr : Option (Nat × Nat) := none
  markers : List MarkerJob := []
  /-- The running image's health conditions and window length. -/
  health : List (List Byte) := []
  healthS : Nat := 0
  /-- The tick whose phase 8 ends the health window. -/
  healthEnd : Option Nat := none
  healthDegraded : Bool := false
  /-- A rollback waits for its writes: the tick of the failure (R424). -/
  rollbackFrom : Option Nat := none
  /-- How often the low half of CFG_EPOCH has wrapped (R434). -/
  epochGen : Nat := 0
  /-- The device is traffic-ready (R419). -/
  ready : Bool := false
  /-- The tick at which the gate began to hold. -/
  gateFrom : Nat := 0
  /-- Rime node name of the running image (R413). -/
  nodeName : List Byte := []
  carrierA : Nat := 0
  carrierB : Nat := 0
  /-- Details of pool exhaustions found before the end of boot, whose alarms are sent there (R450). -/
  poolAlarms : List Nat := []
  deriving DecidableEq, Repr

/-- The values an image carries (R413). -/
structure ImageVals where
  regs : List (Nat × Word) := []
  /-- CALENDAR records: line and entries. -/
  cals : List (Nat × List Nat) := []
  /-- KEY records: slot, usage, 40 wrapped bytes. -/
  keys : List (Nat × Nat × List Byte) := []
  rimeId : Option (List Byte) := none
  health : List (List Byte) := []
  deriving DecidableEq, Repr

/-- A pending commit (R428-R430). -/
structure Commit where
  slot : Nat
  ver : Nat
  actTick : Nat
  actTx : List Nat
  actRx : List Nat
  /-- Transmit frame numbers captured at acceptance. -/
  capTx : List Nat
  /-- Received frame numbers captured at acceptance, where the receiver was in multiframe. -/
  capRx : List (Option Nat)
  /-- The sides enabled at acceptance. -/
  enTx : List Bool
  enRx : List Bool
  prepared : Bool
  vals : ImageVals
  healthS : Nat
  keysLoaded : List Nat
  doneTick : Bool
  doneTx : List Bool
  doneRx : List Bool
  deriving DecidableEq, Repr

/-- A change of an alarm that the Rime channel announces (R325): code, severity, raised or cleared, tick, detail. -/
structure AlarmEv where
  code : Nat
  sev : Nat
  raised : Bool
  tick : Nat
  detail : Nat
  deriving DecidableEq, Repr

/-- A request the cipher request engine is running (R159-R163). -/
structure Req where
  /-- 2 Rime, 3 internal, 4 host. -/
  queue : Nat
  mode : Nat := 0
  dec : Bool := false
  ivDev : Bool := false
  srcHost : Bool := false
  dstHost : Bool := false
  irq : Bool := false
  slot : Nat := 0
  macLen : Nat := 0
  len : Nat := 0
  src : Nat := 0
  dst : Nat := 0
  iv : List Byte := []
  tag : List Byte := []
  /-- A status decided before the end: refused, or ended by a DMA or memory error. -/
  status : Option Nat := none
  /-- Host data received so far. -/
  got : List Byte := []
  /-- Rime: the packet's number, and whether it is being signed. -/
  rimeId : Nat := 0
  rimeSign : Bool := false
  deriving DecidableEq, Repr

/-- A CMAC the Rime transceiver asks for (R327): a packet's number, whether it signs, the key slot, the message, the MAC
to compare with, and the tick it was made. -/
structure RimeReq where
  id : Nat
  sign : Bool
  slot : Nat
  msg : List Byte
  mac : List Byte
  made : Nat
  deriving DecidableEq, Repr

/-- The key slots and the request engine (R155-R163). -/
structure CphSt where
  /-- The keys, by slot. -/
  keys : SMap (List Byte) := []
  running : Option Req := none
  rimeQ : List RimeReq := []
  /-- The known-answer test waits in the internal queue. -/
  kat : Bool := false
  deriving DecidableEq, Repr

end Sys2Proof.Machine
end

