-- ==== Sys2Proof/Machine/LineSt.lean ====
section
/-! DEFINITION. The state of a line engine and of the other families that no register shows. -/

namespace Sys2Proof.Machine

/-- What a line's time transfer holds (R359, R362-R365).  Times are in 2^-16 ns. -/
structure TtSt where
  /-- The newest good far TX head: its frame number [47:0], its receive time t4, the transmit time t3 it carries. -/
  far : Option (Nat × Nat × Nat) := none
  /-- The far head that the running pair of RX and ECHO records names (R362). -/
  snap : Option (Nat × Nat × Nat) := none
  /-- The far end's RX record: frame number [47:0] of a local head, and t2. -/
  rx : Option (Nat × Nat) := none
  /-- Matching RX and ECHO records: t1 and t2. -/
  echo : Option (Nat × Nat) := none
  farRole : Nat := 0
  /-- The far end's dispersion, receive carrier and transmit carrier. -/
  farCd : Option Int := none
  farRxCar : Nat := 0
  farTxCar : Nat := 0
  /-- Valid samples, newest first: θ and RTT. -/
  samples : List (Int × Int) := []
  /-- The tick of the last valid sample. -/
  last : Nat := 0
  lock : Bool := false
  /-- TT_LOST has been raised since the last valid sample. -/
  lost : Bool := false
  /-- A step of the counter at the next boundary, in 2^-16 ns. -/
  step : Option Int := none
  deriving DecidableEq, Repr

/-- The values of one sub-converter: offset in 1/8 LSB, gain in Q2.14, selections (R219, R221). -/
structure UnitVal where
  o : Int := 0
  g : Nat := 16384
  cmp : Nat := 0
  cap : Nat := 0
  deriving DecidableEq, Repr

/-- One calibration set (R237, R238). -/
structure CalSet where
  temp : Int
  band : Nat
  ver : Nat
  /-- The tick it was made, or read from NVM. -/
  tick : Nat
  units : SMap UnitVal
  failed : List Nat
  taps : SMap Nat
  cells : SMap Int
  deriving DecidableEq, Repr

/-- Sums over some samples: how many, their sum, the sum of their squares. -/
structure Sums where
  n : Nat := 0
  s : Int := 0
  q : Nat := 0
  deriving DecidableEq, Repr

/-- What a tile runs on, and the core's corrections of the same units (R221, R290): the unit of each slot (16 × branch + slot; one more
than its index, 0 for none), the units' values, the skew taps, the slots that no unit serves, the unit and binary cells of each DAC's
map. -/
structure TileCfg where
  slots : SMap Nat := []
  units : SMap UnitVal := []
  taps : SMap Nat := []
  unmasked : List Nat := []
  maps : List (List Nat × List Nat) := []
  deriving DecidableEq, Repr

/-- A priority step (R242): the branch, the failed slot, the unit, and the ticks left. -/
structure PrioStep where
  branch : Nat
  slot : Nat
  unit : Nat
  left : Nat
  /-- Its length. -/
  len : Nat
  deriving DecidableEq, Repr

/-- A tile's converters (R219-R249). -/
structure CnvSt where
  units : SMap UnitVal := []
  /-- Units that run on the values of their own step: the temperature it was taken at, 1/16 °C. -/
  own : SMap (Option Int) := []
  /-- Consecutive failing windows of a unit. -/
  fails : SMap Nat := []
  sets : List (Option CalSet) := List.replicate 8 none
  /-- Positions waiting to be written to NVM, oldest first, and the tick of the last write. -/
  pend : List Nat := []
  lastWr : Option Nat := none
  /-- The newer copy of a position in NVM: 1 + 2 × SEQ + copy; 0 when no copy is valid. -/
  seqs : SMap Nat := []
  /-- Positions whose set was lost on die, to be read again from NVM (R374). -/
  reload : List Nat := []
  /-- Ticks counted of the running step, its length, and T_tile at each step's first tick, newest first. -/
  stepTicks : Nat := 0
  stepLen : Nat := 0
  temps : List Int := []
  /-- A pass is due after a return to service. -/
  want : Bool := false
  passBand : Nat := 0
  passRate : Nat := 0
  /-- The tick at which the last pass completed. -/
  lastDone : Nat := 0
  /-- Slots without a working unit: 16 × branch + slot. -/
  unmasked : List Nat := []
  prio : List PrioStep := []
  /-- Measured deviations and failed cells of the DACs, by 76 × DAC + cell. -/
  cells : SMap Int := []
  cellBad : SMap Bool := []
  /-- The cell of each DAC under measurement, and the ticks it has been. -/
  cell : List Nat := [0, 0, 0, 0]
  cellTicks : List Nat := [0, 0, 0, 0]
  /-- The temperature that the working values were last interpolated at; the temperature and DELTA_T that the spares' age was last judged
  by. -/
  memoT : Option Int := none
  staleAt : Option (Int × Nat) := none
  /-- The usable units of each branch at the start of the running step (R230, R241). -/
  stepN : List Nat := []
  winTick : Option Nat := none
  /-- One more than the candidate that part 1 of each unit's step chose (R229). -/
  pick : SMap Nat := []
  /-- The histograms of a running step: of the measured unit, and of its ADC's active units in the same ticks, by
  256 × (12 × unit + candidate) + code + 128; and of its part 2 by unit: codes of the unit, corrected samples of the ADC in 2^-18 LSB. -/
  histR : SMap Nat := []
  histA : SMap Nat := []
  sumR : SMap Sums := []
  sumA : SMap Sums := []
  /-- Branches whose step in progress is abandoned (R241). -/
  skip : List Nat := []
  /-- The running 256-tick window: corrected samples of each active unit, samples of it excluded; products and squares of successive
  samples by branch of the first; the last sample of each ADC that was not excluded (R231, R240). -/
  win : SMap Sums := []
  winX : SMap Nat := []
  cor : SMap (Int × Nat × Nat) := []
  prev : SMap (Option Int) := []
  /-- The band whose clock-tree preset the tile has loaded (R225, R249). -/
  preset : Option Nat := none
  /-- The ADC inputs are on the loopback from the DACs (R225). -/
  loop : Bool := false
  /-- Whether the skew loop ran when the taps were last interpolated (R236). -/
  memoRun : Bool := false
  /-- What the tile runs on; something of it has been decided anew; what has been published and waits for its head, each with
  the tick of its publication (R221, R295). -/
  tile : TileCfg := {}
  dirty : Bool := false
  due : List (Nat × TileCfg) := []
  deriving DecidableEq, Repr

/-- One end's side of the shift handshake (R121-R126). -/
structure ShiftSt where
  /-- 0 idle, 1 announcing, 2 committed. -/
  tx : Nat := 0
  responder : Bool := false
  /-- The format of the shift, and this end's activation frame. -/
  idx : Nat := 0
  act : Nat := 0
  /-- The armed far-end activation frame. -/
  rx : Option Nat := none
  cause : Nat := 0
  txDone : Bool := false
  rxDone : Bool := false
  /-- The run of good heads with one far announcement: NEW_FMT, ACT_MF, length. -/
  far : Nat × Nat × Nat := (0, 0, 0)
  /-- Runs of good heads: acknowledging this end; showing a withdrawal or another announcement. -/
  acks : Nat := 0
  gone : Nat := 0
  deriving DecidableEq, Repr

/-- A line's framer (R95-R128). -/
structure FrmSt where
  /-- Out of frame; the last 16 heads, newest first; candidates: check position and confirmation count. -/
  oof : Bool := true
  hist : List Bool := []
  cands : List (Nat × Nat) := []
  /-- Errored heads in a row (R115). -/
  bad : Nat := 0
  /-- The frame number of the last head, when it was good. -/
  prevGood : Option Nat := none
  /-- Disagreeing good heads in a row, and whether multiframe has been entered since alignment. -/
  disagree : Nat := 0
  /-- The count of received symbol periods at which a received frame number that ran was lost with alignment (R283). -/
  lostAt : Option Nat := none
  hadMf : Bool := false
  /-- Declared defects as in FRM_STATUS.DEF; the integration of each one's set and clear condition. -/
  defects : Nat := 6
  up : SMap Nat := []
  dn : SMap Nat := []
  /-- The parts of the running TTI cycle; the last complete cycle and how often it came in a row (R105). -/
  tti : List (Option (List Byte)) := []
  ttiLast : List Byte := []
  ttiRun : Nat := 0
  ttiAcc : Option (List Byte) := none
  /-- Reads in a row of a channel's entry that differ (odd) or match (even): 2 × length + (1 when differing). -/
  clm : SMap Nat := []
  /-- One more than the multiframe of a channel's last read (R116). -/
  clmAt : SMap Nat := []
  /-- Channels in mismatch. -/
  clmBad : SMap Bool := []
  /-- A descriptor that differs from the receive format: its value and run; a follow to be taken: index, frames left. -/
  desc : Nat := 0
  descRun : Nat := 0
  follow : Option (Nat × Nat) := none
  /-- Bytes 0 to 11 of the last good head. -/
  last : List Byte := []
  gccTx : Nat := 0
  gccRx : Nat := 0
  shift : ShiftSt := {}
  /-- The running DEG_INT interval: its first tick, flips, bits, whether the line was out of frame. -/
  degAt : Nat := 0
  degFlips : Nat := 0
  degBits : Nat := 0
  degOof : Bool := false
  /-- Frames since LOCK was last present, and since it was in frame (R278), in symbol periods. -/
  noLock : Nat := 0
  noFrame : Nat := 0
  deriving DecidableEq, Repr

/-- A running epoch search (R149): T ⊕ G, the frame number, the receive phase and its slot, candidates tested. -/
structure Search where
  tg : List Byte
  fn : Nat
  phase : Nat
  slot : Nat
  done : Nat
  deriving DecidableEq, Repr

/-- A line's cipher (R130-R154). -/
structure LcySt where
  txPhase : Nat := 0
  rxPhase : Nat := 0
  /-- The armed flip's frame. -/
  flip : Option Nat := none
  age : Nat := 0
  warned : Bool := false
  expired : Bool := false
  /-- Ticks the active key has been in force, and the next time ROT_DUE repeats. -/
  inForce : Nat := 0
  rotNext : Nat := 0
  /-- The tag of the frame before. -/
  tag : List Byte := []
  cause : Nat := 0
  running : Bool := false
  /-- The far epoch in use; a new one and the first tick of its use. -/
  rxEpoch : Nat := 0
  rxNext : Option (Nat × Nat) := none
  search : Option Search := none
  fails : Nat := 0
  /-- The record of the last failed frame with a good head. -/
  lastFail : Option Search := none
  /-- The pipeline out of service and the tick it went out. -/
  out : Option Nat := some 17
  outAt : Nat := 0
  tested : Bool := false
  deriving DecidableEq, Repr

/-- One sample on its way through the receive DSP: both polarisations, whether it is erased, and the weight of R260 in
2^-32. -/
structure Smp where
  x : Cx := {}
  y : Cx := {}
  erased : Bool := false
  wt : Nat := 0
  deriving DecidableEq, Repr

/-- What one polarisation's IQ balance averages: mean I², mean Q², mean IQ, in LSB² × 2^-36 (R252). -/
structure IqEst where
  ii : Nat := 0
  qq : Nat := 0
  iq : Int := 0
  deriving DecidableEq, Repr

/-- The tap sets of the equaliser: output X from X and Y, output Y from X and Y (R263). -/
structure EqTaps where
  xx : List Cx := []
  xy : List Cx := []
  yx : List Cx := []
  yy : List Cx := []
  deriving DecidableEq, Repr

/-- The carrier recovery of R268 and R269: the offset in 2^-48 turns per symbol, the phase of X and of Y at the last
reference, the gain of the data symbols and that of the references. -/
structure Carrier where
  fo : Int := 0
  phX : Int := 0
  phY : Int := 0
  gX : Cx := Cx.one
  gY : Cx := Cx.one
  rX : Cx := Cx.one
  rY : Cx := Cx.one
  deriving DecidableEq, Repr

/-- The signal path of a receive DSP (R251-R274). -/
structure DspSt where
  /-- Corrected samples of the ADCs XI, XQ, YI, YQ that the next step has not taken, and the 48 of each before them: values in
  2^-18 LSB with their erasure flags. -/
  inQ : List (List (Int × Bool)) := [[], [], [], []]
  /-- The IQ averages of X and Y, and the sums of the running tick (R252). -/
  iqX : IqEst := {}
  iqY : IqEst := {}
  sumX : IqEst := {}
  sumY : IqEst := {}
  /-- Samples taken in the running tick. -/
  taken : Nat := 0
  /-- The interpolator: samples waiting, how many it has consumed and given out, the time of the next output after the first that waits
  in 2^-48 samples, the loop's frequency in 2^-48 (R254). -/
  ibuf : List Smp := []
  nIn : Nat := 0
  nOut : Nat := 0
  time : Int := 2 ^ 48
  freq : Int := 0
  /-- Datapath cycles done, and how many samples of the last one were valid (R254). -/
  cycle : Nat := 0
  valid : Nat := 0
  /-- The loop's filtered timing error and its last 16 values, in 2^-32 samples (R255). -/
  err : Int := 0
  errs : List Int := []
  /-- The gain of step 3, and the power at its output in the running tick. -/
  gain : Nat := 2 ^ 32
  gainSum : Nat := 0
  gainN : Nat := 0
  /-- The input of the dispersion compensator, and its last four blocks, newest first (R256, R258). -/
  cdBuf : List Smp := []
  blocks : List (List Smp) := []
  /-- The envelope normaliser: the filtered power, its sum over the running tick, the means of the last 1,000 ticks (R262). -/
  env : Int := 0
  envSum : Int := 0
  envN : Nat := 0
  envHist : List Int := []
  /-- The equaliser's input, and the number of its first sample; the next symbol (R263). -/
  eqBuf : List Smp := []
  eqAt : Nat := 0
  symN : Nat := 0
  taps : EqTaps := {}
  /-- The outputs' cross-correlation and powers over the frame period so far (R266). -/
  cross : Cx := {}
  powX : Nat := 0
  powY : Nat := 0
  crossN : Nat := 0
  /-- SINGULAR fell in the running tick; the constant-modulus cost of the tick, summed, and its symbols. -/
  singular : Bool := false
  costSum : Nat := 0
  costN : Nat := 0
  car : Carrier := {}
  /-- The equaliser outputs of the running fourth-power block (R268). -/
  foBuf : List (Cx × Cx) := []
  /-- The last 64 symbols in frame at the phases of their references, with whether they may be used (R269). -/
  lined : List (Cx × Cx × Bool) := []
  /-- The symbols after step 7, and the number of the first (R251). -/
  out : List Smp := []
  outAt : Nat := 0
  /-- The symbol number of the next head's position 0, once the framer has set it (R110). -/
  head : Option Nat := none
  /-- That of the last head, and the nonlinearity compensation of its frame. -/
  prev : Option (Nat × Nat) := none
  /-- The scores of R258's coarse candidates so far, in their order, and of the fine ones. -/
  scan : List Nat := []
  fine : List Nat := []
  deriving DecidableEq, Repr

/-- What the registers and the framer set of a line's signal path. -/
structure DspCfg where
  /-- The symbol rate in 1/8 GBd; the receive format; compatibility framing. -/
  rs : Nat := 0
  fmt : Word := 0#32
  compat : Bool := false
  /-- RX_SKEW of the rails (R252). -/
  skew : List Int := []
  clkBw : Nat := 0
  /-- D_a, the spread of 1 ps/nm, h of R260. -/
  da : Int := 0
  unit : Nat × Nat := (0, 0)
  h : Nat := 0
  dither : Bool := false
  ntaps : Nat := 0
  muAcq : Nat := 0
  muTrk : Nat := 0
  joint : Bool := false
  phWin : Nat := 0
  /-- The equaliser adapts: acquisition has reached EQ_BLIND. -/
  eqOn : Bool := false
  /-- The framer is in frame, and decisions are in force (R263). -/
  inFrame : Bool := false
  dd : Bool := false
  deriving DecidableEq, Repr

/-- The link that nonlinearity compensation works through. -/
structure NlcCfg where
  steps : Nat := 0
  spans : Nat := 0
  km : Nat := 0
  gamma : Nat := 0
  alpha : Nat := 0
  launch : Int := 0
  xi : Nat := 0
  deriving DecidableEq, Repr

/-- What is in force for a received frame from its head on: SCALE, MU_LOOP and LOOP_TRUST, its signal path and the link that nonlinearity
compensation works through, its carrier's place in paired mode in bins of 73,728 (R271-R274, R284). -/
structure FrameSet where
  scale : Nat := 0
  muLoop : Nat := 0
  trust : Bool := false
  path : DspCfg := {}
  nlc : NlcCfg := {}
  shift : Int := 0
  deriving DecidableEq, Repr

/-- A received frame on its way from the head decoder to the demapper (R22). -/
structure RxFrame where
  /-- The received frame number, when the framer was in multiframe. -/
  fn : Option Nat
  good : Bool
  /-- The bytes of its own head, when good. -/
  head : List Byte
  /-- The flags byte of the last good head. -/
  flags : Byte
  fmt : Word
  iterCap : Nat
  loop : Bool
  /-- The decoder's cap in force for it, and when it entered, in received symbol periods (R179, R180). -/
  cap : Nat := 0
  entry : Nat := 0
  /-- The symbol number of its position 0 and the mode of nonlinearity compensation in force for it; decisions were in force; the taps and
  the carrier at its head (R273, R274). -/
  at_ : Option (Nat × Nat) := none
  dd : Bool := false
  taps : EqTaps := {}
  car : Carrier := {}
  force : FrameSet := {}
  /-- Its equaliser input from a sample number on, the symbols around it and the partner's in paired mode, held for a refinement pass. -/
  eq : List Smp := []
  eqAt : Nat := 0
  around : List Smp := []
  other : List Smp := []
  /-- 0 waits for its metrics, 1 has ended pass 1, 2 is decoded, 3 is released. -/
  stage : Nat := 0
  /-- The channel metrics; those of pass 2; OFFSET and the store values lost in the pass that decides (R176, R181). -/
  metrics : Array Int := #[]
  metrics2 : Array Int := #[]
  offset : Nat := 0
  lost : List StoreErr := []
  cws : List CwDec := []
  /-- Iterations of pass 1, by codeword. -/
  first : List Nat := []
  info : List Bool := []
  /-- Pipelines were short at its head (R154). -/
  short : Bool := false
  /-- The next frame's head: good, and its TAG. -/
  succ : Option (Bool × List Byte) := none
  deriving DecidableEq, Repr

/-- A frame ready for the demapper: its blocks, and whether they are marked errored. -/
structure RxReady where
  blocks : List (List Byte)
  errored : Bool
  deriving DecidableEq, Repr

/-- A line's decoder statistics (R184, R185). -/
structure FecSt where
  cws : Nat := 0
  iterSum : Nat := 0
  iterMax : Nat := 0
  uncorr : Nat := 0
  bits : Nat := 0
  flips : Nat := 0
  erased : Nat := 0
  /-- Flips and bits of the last ticks, newest first, at most 1,000. -/
  hist : List (Nat × Nat) := []
  deriving DecidableEq, Repr

/-- A line's receive DSP (R251-R284). -/
structure RxpSt where
  state : Nat := 0
  attempt : Bool := false
  /-- Ticks in the state; consecutive ticks of light in POWER; consecutive ticks of the blind criterion. -/
  ticks : Nat := 0
  light : Nat := 0
  calm : Nat := 0
  /-- The attempt scanned; a scan is running; the candidates left to evaluate. -/
  scanned : Bool := false
  scanLeft : Nat := 0
  /-- D_a in ps/nm, and the second-best coarse candidate. -/
  da : Int := 0
  second : Int := 0
  /-- Consecutive ticks below, and above, each lock's limit. -/
  clkLow : Nat := 0
  clkHigh : Nat := 0
  clkLock : Bool := false
  /-- The frequency estimates of the last 16 ticks, newest first, 1/4 MHz. -/
  freqs : List Int := []
  freqLock : Bool := false
  cost : Bool := false
  eqConv : Bool := false
  lock : Bool := false
  polSwap : Bool := false
  swapDue : Bool := false
  dd : Bool := false
  /-- Good heads in a row whose descriptor equals the receive format. -/
  ddRun : Nat := 0
  nlc : Nat := 0
  /-- Paired mode as decided, and as published; ticks its conditions have held (in LNA's). -/
  paired : Bool := false
  pairedPub : Bool := false
  pairRun : Nat := 0
  /-- A due restart: 0 POWER, 1 CD_SCAN, 2 CLOCK, 3 EQ_BLIND. -/
  restart : Option Nat := none
  /-- Consecutive ticks with the residual above 4 symbol periods, and the residual. -/
  resRun : Nat := 0
  residual : Int := 0
  cdStep : Option Int := none
  /-- Valid dispersion readings, newest first, at most 1,000. -/
  cds : List Int := []
  /-- Frame monitors of the heads of this tick: SNR in 2^-16, EVM, slices in 2^-16. -/
  frames : List (Nat × Nat × List Nat) := []
  fofs : Int := 0
  /-- Ticks in a row with the SNR low and not low, the DGD high and not high; which have been raised. -/
  snrRun : Nat := 0
  snrCalm : Nat := 0
  snrUp : Bool := false
  dgdRun : Nat := 0
  dgdCalm : Nat := 0
  dgdUp : Bool := false
  cap : Option Nat := none
  /-- The frame that begins at this head is to be captured; that of the last head is, when it has ended. -/
  capNext : Bool := false
  capNow : Bool := false
  /-- What is in force for the frame that began at the last head. -/
  now : FrameSet := {}
  /-- RXP_MON_SNR, as last published, is valid (R280, R282). -/
  snrOk : Bool := false
  acquired : Nat := 0
  deriving DecidableEq, Repr

/-- What tells the frames of a data block: its number, its BPTR, the frames that begin in it (R59, R94). -/
structure BlockMark where
  seq : Nat
  bptr : Nat
  begins : Nat
  deriving DecidableEq, Repr

/-- A published register that a frame head is to adopt: the bits that changed, and its value when it was published (R31, R208). -/
structure Adoption where
  off : Nat
  mask : Word
  val : Word
  deriving DecidableEq, Repr

/-- A word with the bits of an adoption laid over it. -/
def Adoption.lay (a : Adoption) (w : Word) : Word := (w &&& ~~~a.mask) ||| (a.val &&& a.mask)

/-- One line engine. -/
structure Line where
  /-- The tile's analogue circuits are powered (R45, R247). -/
  power : Bool := false
  /-- The mute causes in force (R214). -/
  mute : Nat := 2
  /-- Accepted changes that name frames, in their order: 0 a commit, 1 a calendar swap, 2 a key flip, 3 and 4 a format
  shift's transmitter and receiver, 5 a capture (R38). -/
  order : List Nat := []
  /-- Published registers that the next transmit frame head, and the next received one, adopt (R31, R41). -/
  adoptTx : List Adoption := []
  adoptRx : List Adoption := []
  /-- The tick whose boundary published the line engine's disabling (R45). -/
  offAt : Option Nat := none
  /-- The channels and marks of the data blocks in the frame that leaves (R215). -/
  placed : List (Nat × BlockMark) := []
  /-- The calendar bank in use (R68). -/
  bank : Nat := 0
  /-- The number of the current transmit frame, and of the next (R100). -/
  txFn : Nat := 0
  txNext : Nat := 0
  /-- Transmit and receive formats in use. -/
  txFmt : Nat := 0
  rxFmt : Nat := 0
  /-- Compatibility framing in force in each direction. -/
  compatTx : Bool := false
  compatRx : Bool := false
  /-- The tile clock relocks after a rate change of a direction, from a tick; the first frame after it is due. -/
  txRelock : Option Nat := none
  rxRelock : Option Nat := none
  relocked : Bool := false
  /-- The tile clock's relock has failed (R217). -/
  relockBad : Bool := false
  /-- The rail values of the last frame sent, in 2^-32. -/
  rails : List Int := []
  /-- The densities of the frames sent in this tick, summed over their 64 bins (R211). -/
  psd : List Nat := []
  clips : Nat := 0
  /-- The line was muted at some time in this tick. -/
  wasMuted : Bool := true
  /-- Consecutive ticks of excess of each bin; ticks without any; the mask is violated. -/
  maskRun : SMap Nat := []
  maskCalm : Nat := 0
  maskBad : Bool := false
  frm : FrmSt := {}
  lcy : LcySt := {}
  fec : FecSt := {}
  rxp : RxpSt := {}
  dsp : DspSt := {}
  rxq : List RxFrame := []
  ready : List RxReady := []
  /-- The number of the current received frame (R112). -/
  rxFn : Nat := 0
  /-- Out of multiframe (R112). -/
  oom : Bool := true
  /-- Received symbol periods since bring-up, counted at heads and, out of frame, by ticks (R180, R183). -/
  rxSym : Nat := 0
  tt : TtSt := {}
  cnv : CnvSt := {}
  /-- The tile clock is locked (R217, R225). -/
  tileLock : Bool := false
  /-- The receive symbol rate in use, RS_CODE. -/
  rxRate : Nat := 0
  /-- The PSL of the last good head (R228). -/
  psl : Nat := 0
  /-- A change sent to the tile is withheld for want of an acknowledgement (R295). -/
  ctlHeld : Bool := false
  /-- The sample of the tile's DACs, counted from training, at which the last frame head stood; its tick and time-base cycle (R290). -/
  headSmp : Nat := 0
  headAt : Nat × Nat := (0, 0)
  deriving DecidableEq, Repr

/-- The thermal unit (R386-R396).  Temperatures are exact: in units of 1/(16 · `thmUnit`) °C. -/
structure ThmSt where
  /-- The last readings, 1/16 °C. -/
  raw : List Int := List.replicate 24 0
  /-- The readings entered into each mean, newest first, at most 64. -/
  bufs : List (List Int) := List.replicate 24 []
  /-- Consecutive readings out of range. -/
  outs : List Nat := List.replicate 24 0
  /-- Consecutive ticks of disagreement of each location. -/
  dis : List Nat := List.replicate 12 0
  /-- Sensors found faulty and not flagged yet. -/
  due : List Nat := []
  tj : Option Int := none
  /-- T_core, and T_tile of tiles A and B. -/
  dieT : List (Option Int) := [none, none, none]
  bands : List (Option Nat) := [none, none, none]
  /-- The thermal cap in force at the last phase 4. -/
  cap : Nat := 20
  hot : Bool := false
  /-- The cooling gate's test held in this tick (R396). -/
  gateOk : Bool := false
  deriving DecidableEq, Repr

/-- One result of a monitor entry: value, converter code, whether the reference was settled. -/
structure MonRes where
  value : Nat
  code : Nat
  settled : Bool
  deriving DecidableEq, Repr

/-- A monitor converter (R397-R403). -/
structure MonUnit where
  on : Bool := false
  pos : Nat := 0
  /-- The reference in force, and the tick at which it is settled. -/
  ref : Nat := 0
  settleAt : Nat := 50
  /-- The entry of an accepted urgent conversion that is next; and of one whose result is not published yet. -/
  urg : Option Nat := none
  urgDone : Option Nat := none
  /-- Results not published yet: entry and result, newest last. -/
  fresh : List (Nat × MonRes) := []
  /-- Runs of results out of limits / within limits by entry: 2 × length + (1 when out). -/
  runs : SMap Nat := []
  /-- OUT bits. -/
  out : SMap Bool := []
  /-- The newest settled XCHK result; whether it is newer than the last comparison, and than the last re-admission one. -/
  x : Nat := 0
  xNew : Bool := false
  xNewR : Bool := false
  fails : Nat := 0
  passes : Nat := 0
  deriving DecidableEq, Repr

/-- One reference input (R336-R343). -/
structure RefIn where
  active : Bool := false
  /-- The sum of the offsets from XO_IN in the last 1,000,000 ticks, ppt; none where the input is disabled or has fewer (R338). -/
  tot : Option Int := none
  rank : Nat := 0
  qualified : Bool := false
  /-- Whether it has been qualified since reset or since its rank left 0. -/
  again : Bool := false
  /-- Consecutive ticks in which the conditions have held. -/
  held : Nat := 0
  outlier : Bool := false
  /-- The offsets of the last 1,000,000 ticks, newest first, ppt (R255, R338). -/
  recs : List Int := []
  /-- The arbiter that made it an outlier. -/
  arbiter : Nat := 0
  deriving DecidableEq, Repr

/-- A disputed pair and the consecutive ticks its difference has stayed within the limit. -/
structure Dispute where
  a : Nat
  b : Nat
  calm : Nat
  deriving DecidableEq, Repr

/-- The reference selector and the DPLL (R336-R350).  Frequencies of the output are in 10^-3 ppt. -/
structure ClkSt where
  ins : List RefIn := List.replicate 14 {}
  disputes : List Dispute := []
  /-- The choice of the last phase 3, and the one published. -/
  sel : Option Nat := none
  pub : Option Nat := none
  out : Int := 0
  /-- The loop filter (R347): the phase that the input has gained on the output since LOCKED began, in ticks of 10^-3 ppt, and the integral
  part of the output, in 2^-96 of 10^-3 ppt. -/
  phase : Int := 0
  integ : Int := 0
  /-- The first acquisition runs, which knows no slew limit; the output has reached the selected input's frequency (R345). -/
  first : Bool := false
  there : Bool := false
  /-- The holdover value at the last entry into HOLDOVER (R349). -/
  hold : Int := 0
  /-- The numeric source's applied value, ppt. -/
  num : Int := 0
  /-- The running second: sum of the output over its ticks, whether LOCKED throughout. -/
  sum : Int := 0
  all : Bool := true
  /-- A finished second that is not recorded yet. -/
  due : Option (Int × Bool) := none
  /-- The last 65 seconds, newest first. -/
  recs : List (Int × Bool) := []
  deriving DecidableEq, Repr

/-- The time block's own state (R351-R357). -/
structure TimSt where
  /-- The increment adjustment in force, and the slew of this tick, both in 2^-32 ns. -/
  adj : Int := 0
  /-- Phase error of PPS_IN still to be removed, 2^-32 ns. -/
  ppsErr : Int := 0
  /-- The tick of the last PPS_IN edge, and the edge on the time base, in 1/16 ns. -/
  ppsTick : Option Nat := none
  ppsAt : Nat := 0
  ppsHit : Bool := false
  /-- A valid message not used yet: seconds, and the time-base cycle in which its last bit ended. -/
  tod : Option (Nat × Nat) := none
  /-- A host step or load that a boundary has applied and ADJ_DONE has not told of, and whether it was late (R352). -/
  done : Option Bool := none
  /-- Pulses in a row that had a valid message before them. -/
  todRun : Nat := 0
  mismatch : Nat := 0
  /-- Seconds of PPS_OUT passed, and the tick at which TOD_TX is due. -/
  outMark : Int := 0
  todOut : Option Nat := none
  deriving DecidableEq, Repr

/-- A packet waiting to be sent (R323). -/
structure RimePkt where
  /-- The message type without the AUTH bit. -/
  type : Nat
  payload : List Byte
  /-- 0 ALARM, 1 CONFIG_VER, 2 TRACE_REPLY, 3 IDENTITY, 4 TRACE_REQ, 5 host ring. -/
  pri : Nat
  made : Nat
  /-- Busy encounters, and the drawn backoff in slots. -/
  busy : Nat := 0
  slots : Nat := 0
  /-- Cut once and queued again (R322). -/
  cut : Bool := false
  deriving DecidableEq, Repr

/-- A packet's signature: not asked for, asked for under a number, done. -/
inductive Sig where
  | none
  | asked (id : Nat)
  | done (mac : List Byte)
  deriving DecidableEq, Repr

/-- A packet being received: level in −1/2 dBFS, correlation peak, and its header once passed (R315, R316). -/
structure RimeRx where
  level : Nat
  peak : Nat
  hdr : Option (List Byte)
  deriving DecidableEq, Repr

/-- A delivered packet: port, channel, header bytes, payload without a code, EVM, peak, level, verified. -/
structure RimeMsg where
  port : Nat
  chan : Nat
  hdr : List Byte
  payload : List Byte
  /-- The eight bytes of the code of an authenticated packet (R319). -/
  mac : List Byte := []
  evm : Nat
  peak : Nat
  level : Nat
  auth : Bool
  deriving DecidableEq, Repr

/-- One Rime port. -/
structure RimePort where
  queue : List RimePkt := []
  /-- The packet whose access has begun, its signature, and whether it is on the air. -/
  cur : Option RimePkt := none
  sig : Sig := .none
  onAir : Bool := false
  /-- The bytes of the packet on the air, and the tick in which it has begun. -/
  air : List Byte := []
  airAt : Nat := 0
  seq : Nat := 0
  /-- Channel receivers: the active packet and the pending candidate. -/
  act : SMap (Option RimeRx) := []
  cand : SMap (Option RimeRx) := []
  /-- The tick up to which a channel is busy after a body (R320). -/
  bodyEnd : SMap Nat := []
  idDue : Option Nat := none
  /-- CONFIG_VER transmissions left, and the next one's tick. -/
  cvLeft : Nat := 0
  cvDue : Nat := 0
  /-- Alarms with the transmissions left and the next one's tick. -/
  alarms : List (AlarmEv × Nat × Nat) := []
  deriving DecidableEq, Repr

/-- A TRACE_REPLY that waits for its delay (R326). -/
structure TraceReply where
  id : Nat
  src : Nat
  level : Nat
  peak : Nat
  evm : Nat
  due : Nat
  deriving DecidableEq, Repr

/-- The Rime transceiver (R307-R335). -/
structure RimSt where
  p0 : RimePort := {}
  p1 : RimePort := {}
  nextId : Nat := 0
  /-- Received packets whose verification runs, by number. -/
  verify : List (Nat × RimeMsg × Nat) := []
  /-- The tick at which a neighbour entry was last heard. -/
  heard : SMap Nat := []
  /-- Entries whose identity has been received, and whose version has. -/
  known : SMap Bool := []
  versed : SMap Bool := []
  replies : List TraceReply := []
  /-- The tick of the last reply to each SRC. -/
  replied : SMap (Option Nat) := []
  traceEnd : Option Nat := none
  /-- The configuration epoch the entries were last compared with. -/
  epoch : Nat := 0
  deriving DecidableEq, Repr

/-- A flit in a delay store (R293): the good copy's TYPE and payload, or the bytes of the first failed copy with the
physical lanes that carried it. -/
structure FlitSlot where
  good : Option (Nat × List Byte)
  bad : Option (List Byte × List Nat)
  deriving DecidableEq, Repr

/-- One sub-link's receiver (R293-R298). -/
structure SubLink where
  /-- The physical lanes of its 16 positions, as the receiver decodes. -/
  map : List Nat := []
  epoch : Nat := 0
  /-- Published maps that the receiver has not adopted: epoch and lanes. -/
  next : List (Nat × List Nat) := []
  slots : SMap (Option FlitSlot) := []
  /-- The SEQ of the last flit delivered: copies of it and of those before it come too late. -/
  last : Option Nat := none
  /-- Sample flits delivered since training. -/
  num : Nat := 0
  /-- Consecutive erased flits. -/
  run : Nat := 0
  diagFrom : Nat := 0
  deriving DecidableEq, Repr

/-- What a control flit writes, or a status flit says (R290, R298): the tile registers of a group's converters with the sample index at
which they take effect, a sub-link's lane map with its epoch, the SEQ of a control flit that is acknowledged with the tile's status. -/
inductive Ctl where
  | tile (group at_ : Nat) (cfg : List Nat)
  | lane (sub epoch : Nat)
  | ack (sub seq : Nat) (status : List Nat)
  deriving DecidableEq, Repr

/-- One sub-link's sender (R290-R293). -/
structure SendSub where
  /-- Slots filled since training, the next SEQ, the epoch of the map it sends under. -/
  cyc : Nat := 0
  seq : Nat := 0
  epoch : Nat := 0
  /-- The replay buffer: SEQ, TYPE and payload of the last 256 flits, newest first. -/
  replay : List (Nat × Nat × List Byte) := []
  /-- Resends asked for, oldest first; the flits resent. -/
  resend : List Nat := []
  resent : List Nat := []
  /-- Requests that its flits have still to carry, each with how many times (R293). -/
  ask : List (Nat × Nat) := []
  /-- Sample flits with the slot at which each is ready; control or status flits; observation and calibration flits. -/
  smp : List (Nat × List Byte) := []
  ctl : List Ctl := []
  obs : List (List Byte) := []
  cal : List (List Byte) := []
  /-- Control and status flits sent and not settled: SEQ and what each carries. -/
  sent : List (Nat × Ctl) := []
  deriving DecidableEq, Repr

/-- Stored equaliser settings of a direction (R303): epoch generation and epoch, band, tick. -/
structure LaneSet where
  epoch : Nat × Nat
  band : Nat
  tick : Nat
  deriving DecidableEq, Repr

/-- The die-to-die links (R286-R306). -/
structure D2dSt where
  subs : SMap SubLink := []
  send : SMap SendSub := []
  /-- Errors counted against each lane in the window, which the next phase 2 shows (R42, R296). -/
  err : SMap Nat := []
  /-- Lane maps that the next boundary publishes: sub-link and epoch. -/
  laneQ : List (Nat × Nat) := []
  /-- The DACs' codes that make no whole flit yet, by 4 × tile + DAC (R288). -/
  dacRest : SMap (List Byte) := []
  /-- By 8 × tile + 4 × direction + group (R288): the number of the next sample flit at the sender, and of the next one that the far side
  takes; the flits there that wait for an earlier one, with their payload, none where erased. -/
  outN : SMap Nat := []
  smp : SMap Nat := []
  wait : SMap (List (Nat × Option (List Byte))) := []
  /-- Each ADC's last two corrected samples: value, erased, not served. -/
  tail : SMap (List (Int × Bool × Bool)) := []
  /-- The last intact sample flit of each DAC, by 4 × tile + converter. -/
  dac : SMap (List Byte) := []
  /-- The result of the observation sampler of each DAC that an observation flit has brought and no measurement has used (R290). -/
  obs : SMap (Option (List Byte)) := []
  sets : SMap (Option LaneSet) := []
  /-- Lanes that have been suspect before. -/
  was : SMap Bool := []
  winFrom : Nat := 0
  /-- The tick in which ERASURE was last raised. -/
  eraTick : Option Nat := none
  /-- Lanes that became suspect or failed and that phase 6 has still to serve (R298). -/
  laneDue : List Nat := []
  /-- The temperature band whose preset a direction's lanes were last given (R303, R305). -/
  preset : SMap (Option Nat) := []
  /-- From which tick and until which a group retrains, by 8 × tile + 4 × direction + group (R305). -/
  retrain : SMap (Nat × Nat) := []
  deriving DecidableEq, Repr

/-- A channel's transmit side (R62-R64, R79). -/
structure ChTx where
  /-- Accepted frames not yet begun, oldest first, and the rest of the one in progress. -/
  pkts : List (List Byte) := []
  rest : List Byte := []
  seq : Nat := 0
  /-- Built blocks that wait for line A and for line B, without CRC. -/
  qA : List (List Byte) := []
  qB : List (List Byte) := []
  /-- The last block on each line up to whose end the frames that are dropped have been counted (R94). -/
  dropA : Option Nat := none
  dropB : Option Nat := none
  deriving DecidableEq, Repr

/-- A block held by the merge (R83). -/
structure Cell where
  seq : Nat
  line : Nat
  at_ : Nat
  block : List Byte
  deriving DecidableEq, Repr

/-- A channel's receive side (R74-R76, R82-R89).  Times are in ns since RESET_N release. -/
structure ChRx where
  /-- The expected sequence number; none after a reset. -/
  next : Option Nat := none
  /-- The time of the last intact data block, overall and on each line. -/
  last : Nat := 0
  lastA : Option Nat := none
  lastB : Option Nat := none
  old : Nat := 0
  /-- The packet in progress; none while rebuild waits for a prefix. -/
  part : Option (List Byte) := none
  anchor : Option Nat := none
  held : List Cell := []
  /-- The release time of the last released block. -/
  relAt : Nat := 0
  /-- Recent intact arrivals: sequence number, line, time; newest first. -/
  arr : List (Nat × Nat × Nat) := []
  /-- The skew in force, and the one measured for the next publication (R82, R87). -/
  skew : Option Int := none
  meas : Option Int := none
  /-- UNPROTECTED, and its two conditions that raise TWIN_UNPROT (R88): a path silent, the skew out of reach. -/
  unprot : Bool := false
  quiet : Bool := false
  far : Bool := false
  deriving DecidableEq, Repr

/-- The FLO block (R50-R94). -/
structure FloSt where
  tx : SMap ChTx := []
  rx : SMap ChRx := []
  /-- Egress queues by point (0-63 ports, 64 + k FlexE client entries): channel and frame, oldest first. -/
  egr : SMap (List (Nat × List Byte)) := []
  /-- Armed bank swaps by line. -/
  swapA : Option Nat := none
  swapB : Option Nat := none
  /-- Bytes served at an egress point to a channel that has kept a frame there, by 512 × point + channel (R58). -/
  served : SMap Nat := []
  deriving DecidableEq, Repr

end Sys2Proof.Machine
end

