-- ==== Sys2Proof/Machine/RxDsp.lean ====
section
/-! DEFINITION. The signal path of the receive DSP, step by step (R251-R274). -/

namespace Sys2Proof.Machine

/-! ### Step 1: skew, IQ balance, erasures (R252, R253) -/

/-- Rail `c` at place `i` of its queue, delayed; the 16 places on either side are there. -/
def railAt (q : Array (Int × Bool)) (d : Int) (i : Nat) : Int × Bool :=
  let k := (i : Int) - (d + 255) / 256
  (delayed (fun n => (q.getD n.toNat (0, false)).1) d i, (q.getD k.toNat (0, false)).2)

/-- The balance of one polarisation: the correlation of Q with I removed, Q scaled to the mean power of I. -/
def IqEst.balance (e : IqEst) (i q : Int) : Int × Int :=
  if e.ii = 0 then (i, q)
  else
    let r := (e.qq : Int) - e.iq * e.iq / e.ii
    let u := q - e.iq * i / e.ii
    if r ≤ 0 then (i, u) else (i, u * isqrt (e.ii * 2 ^ 64 / r.toNat) / 2 ^ 32)

/-- Add a sample to a tick's sums. -/
def IqEst.add (e : IqEst) (i q : Int) : IqEst := ⟨e.ii + (i * i).toNat, e.qq + (q * q).toNat, e.iq + i * q⟩

/-- The averages move by 1/1,000 of the way to the last tick's means. -/
def IqEst.settle (e t : IqEst) (n : Nat) : IqEst :=
  if n = 0 then e
  else
    let mv (a b : Int) : Int := a + (b - a) / 1000
    ⟨(mv e.ii (t.ii / n : Nat)).toNat, (mv e.qq (t.qq / n : Nat)).toNat, mv e.iq (t.iq / n)⟩

/-- A sample of both polarisations from its four rails; one erased rail erases it.  LSB become 2^-32 of the chain's unit by a
factor 2^7. -/
def DspSt.sample (x : DspSt) (v : List (Int × Bool)) : DspSt × Smp :=
  let r (c : Nat) : Int := (v.getD c (0, true)).1
  let a := x.iqX.balance (r 0) (r 1)
  let b := x.iqY.balance (r 2) (r 3)
  let era := v.any (·.2)
  let x := { x with taken := x.taken + 1, sumX := x.sumX.add (r 0) (r 1), sumY := x.sumY.add (r 2) (r 3) }
  (x, if era then { erased := true } else { x := ⟨a.1 * 128, a.2 * 128⟩, y := ⟨b.1 * 128, b.2 * 128⟩ })

/-- Converter correction hands over what all four rails have, but for the 16 samples that the delays may still need. -/
def DspSt.take (c : DspCfg) (x : DspSt) : DspSt :=
  let n := (x.inQ.map List.length).foldl min ((x.inQ.getD 0 []).length)
  if n ≤ 64 then x
  else
    let qs := x.inQ.map List.toArray
    let r := (List.range (n - 64)).foldl (fun (a : DspSt × List Smp) i =>
      let p := a.1.sample ((List.range 4).map fun k => railAt (qs.getD k #[]) (c.skew.getD k 0) (48 + i))
      (p.1, p.2 :: a.2)) (x, [])
    { r.1 with inQ := x.inQ.map (·.drop (n - 64)), ibuf := x.ibuf ++ r.2.reverse }

/-! ### Steps 2 and 3: clock recovery and gain (R251, R254, R255) -/

/-- One output of the interpolator; a flag on any of its four samples flags it. -/
def interpOut (b : Array Smp) (t : Int) (gain : Nat) : Smp :=
  let n := t / 2 ^ 48
  let m := t % 2 ^ 48 / 2 ^ 16
  let at_ (i : Int) : Smp := b.getD i.toNat {}
  { x := (cubicCx (fun i => (at_ i).x) n m).scale gain, y := (cubicCx (fun i => (at_ i).y) n m).scale gain,
    erased := (List.range 4).any fun i => (at_ (n + i - 1)).erased }

/-- The outputs that fall before input `n`; at most `f` of them. -/
def interpRun (b : Array Smp) (step : Int) (gain n : Nat) : Nat → Int → List Smp × Int
  | 0, t => ([], t)
  | f + 1, t => if t < (n : Int) * 2 ^ 48 then
      let r := interpRun b step gain n f (t + step)
      (interpOut b t gain :: r.1, r.2)
    else ([], t)

/-- One datapath cycle: rs ÷ 10 input samples on the whole; at most one output more or fewer than nominal is valid. -/
def DspSt.resample (c : DspCfg) (x : DspSt) : DspSt :=
  let n := (x.cycle + 1) * c.rs / 10 - x.cycle * c.rs / 10
  let r := interpRun x.ibuf.toArray (2 ^ 48 + x.freq) x.gain (n + 1) (n + 1) x.time
  { x with cycle := x.cycle + 1, valid := r.1.length, ibuf := x.ibuf.drop n, nIn := x.nIn + n, time := r.2 - n * 2 ^ 48, nOut := x.nOut + r.1.length,
           gainSum := x.gainSum + (r.1.foldl (fun a s => a + s.x.pow + s.y.pow) 0), gainN := x.gainN + 2 * r.1.length, cdBuf := x.cdBuf ++ r.1 }

/-- The clock tone of samples from number `k` on: the power at the symbol rate, 4/5 of a turn a sample (DEDUCED: R254 and R258 name it). -/
def clockTone (k : Nat) (xs : List Smp) : Cx :=
  Cx.sum (xs.zipIdx.map fun p => (cis (-(4 * ((k + p.2) % 5) : Nat) * 2 ^ 32 / 5)).scale (p.1.x.pow + p.1.y.pow))

/-- The timing error that a tone shows, in 2^-32 samples. -/
def toneError (z : Cx) : Int := -(5 * z.arg / 4)

/-- The loop takes one block's error: the frequency stays within ±100 ppm (R254). -/
def DspSt.steer (c : DspCfg) (x : DspSt) (e : Int) : DspSt :=
  let g := Config.clkGain c.clkBw c.rs 45056
  let lim : Int := 2 ^ 48 / 10000
  let f := x.err + g.1 * (e - x.err) / 2 ^ 32
  { x with err := f, errs := (f :: x.errs).take 16, freq := clampI (-lim) lim (x.freq + g.2 * e / 2 ^ 16), time := x.time + g.1 * e / 2 ^ 16 }

/-- The variance of the loop's filtered timing error is below 1/64 of a sample squared (R255): that of its last 16 values, one a block, the error
filtered by the loop's proportional gain.  DESIGN CHOICE: the spec names neither the filter nor the span of the variance. -/
def DspSt.clockOk (x : DspSt) : Bool :=
  let n : Int := x.errs.length
  let s := x.errs.foldl (· + ·) 0
  decide (64 * (n * (x.errs.foldl (fun a e => a + e * e) 0) - s * s) < n * n * 2 ^ 64)

/-! ### Step 4: dispersion compensation (R256-R260) -/

/-- A block of 65,536 samples compensated for `d`. -/
def compensate (u : Nat × Nat) (d : Int) (b : List Smp) : List Smp :=
  let f (g : Smp → Cx) : Array Cx := allPass (cdPhase u d 5 4 65536) (b.map g).toArray
  let xs := f (·.x)
  let ys := f (·.y)
  b.zipIdx.map fun p => { p.1 with x := xs.getD p.2 {}, y := ys.getD p.2 {} }

/-- The weights of R260 over a block, for a half reach `h`. -/
def weigh (h : Nat) (b : List Smp) : List Smp :=
  let fl := (b.map (·.erased)).toArray
  let r := 2 * h + 1
  if !b.any (·.erased) then b
  else b.zipIdx.map fun p =>
    let k := ((List.range r).filter fun i => decide (h ≤ p.2 + i) && fl.getD (p.2 + i - h) false).length
    { p.1 with erased := decide (r < 16 * k), wt := if r < 16 * k then 0 else k * 2 ^ 32 / r }

/-- Compensate the next block: 65,536 samples in, the middle 45,056 out, 45,056 on; its tone steers the clock. -/
def DspSt.cdBlock (c : DspCfg) (x : DspSt) : DspSt :=
  let b := x.cdBuf.take 65536
  let y := ((weigh c.h (compensate c.unit c.da b)).drop 10240).take 45056
  let x := x.steer c (toneError (clockTone (x.eqAt + x.eqBuf.length) y))
  { x with cdBuf := x.cdBuf.drop 45056, blocks := (b :: x.blocks).take 4, eqBuf := x.eqBuf ++ y }

/-- The strength of the clock tone after compensation of `d`, averaged over the last four blocks (R258). -/
def DspSt.score (x : DspSt) (u : Nat × Nat) (d : Int) : Nat :=
  (x.blocks.map fun b => (clockTone 0 (((compensate u d b).drop 10240).take 45056)).abs).foldl (· + ·) 0 / max 1 x.blocks.length

/-! ### Step 5: the envelope normaliser (R262) -/

/-- The mean of the filtered power over 1,000 ticks. -/
def DspSt.envMean (x : DspSt) : Int := if x.envHist.isEmpty then 2 ^ 33 else x.envHist.foldl (· + ·) 0 / x.envHist.length

/-- The coefficient of a low-pass filter of 40 MHz at 1.25 samples a symbol: 1 − e^(−2π × 40 MHz ÷ Fs), the rate in GBd × 8 (R262).  DESIGN
CHOICE: a filter of first order; the spec gives the bandwidth only. -/
def envCoef (rs : Nat) : Int := 2 ^ 32 - expFix (-((piFix 32 * 512 / (1000 * max 1 rs) : Nat) : Int))

/-- One sample through the filter, and divided by the envelope when `on`. -/
def DspSt.normalise (c : DspCfg) (mean : Int) (x : DspSt) (s : Smp) : DspSt × Smp :=
  let e := if s.erased then x.env else x.env + envCoef c.rs * ((s.x.pow + s.y.pow : Nat) - x.env) / 2 ^ 32
  let x := { x with env := e, envSum := x.envSum + e, envN := x.envN + 1 }
  if !c.dither || e ≤ 0 then (x, s)
  else let k : Int := isqrt (mean.toNat * 2 ^ 64 / e.toNat); (x, { s with x := s.x.scale k, y := s.y.scale k })

/-- Compensated samples reach the equaliser's input through the normaliser. -/
def DspSt.envelope (c : DspCfg) (x : DspSt) (old : Nat) : DspSt :=
  let m := x.envMean
  let r := (x.eqBuf.drop old).foldl (fun (a : DspSt × List Smp) s => let p := a.1.normalise c m s; (p.1, p.2 :: a.2)) (x, [])
  { r.1 with eqBuf := x.eqBuf.take old ++ r.2.reverse }

/-! ### Step 6: the equaliser (R263-R267) -/

/-- The taps that pass each polarisation through. -/
def EqTaps.spike (n : Nat) : EqTaps :=
  let d := (List.replicate n ({} : Cx)).set (n / 2) Cx.one
  let z := List.replicate n ({} : Cx)
  ⟨d, z, z, d⟩

/-- Taps kept about their centre, truncated or padded with zeros (R267). -/
def EqTaps.resize (t : EqTaps) (n : Nat) : EqTaps :=
  let f (w : List Cx) : List Cx := (List.range n).map fun i => if n / 2 ≤ i + w.length / 2 then w.getD (i + w.length / 2 - n / 2) {} else {}
  ⟨f t.xx, f t.xy, f t.yx, f t.yy⟩

/-- The two outputs exchanged (R266). -/
def EqTaps.swap (t : EqTaps) : EqTaps := ⟨t.yx, t.yy, t.xx, t.xy⟩

/-- Y's taps as the orthogonal complement of X's (R266). -/
def EqTaps.ortho (t : EqTaps) : EqTaps :=
  { t with yx := (t.xy.map fun a => a.conj.neg).reverse, yy := (t.xx.map Cx.conj).reverse }

/-- The sample nearest to the time of symbol `n`, and four times how far the symbol lies after it. -/
def nearSmp (n : Nat) : Int × Int := let c : Int := (5 * n + 2) / 4; (c, 5 * n - 4 * c)

/-- A filter interpolated to centre `q` ÷ 4 of a sample later. -/
def shifted (w : List Cx) (q : Int) : List Cx :=
  let a := w.toArray
  if q = 0 then w
  else (List.range w.length).map fun (j : Nat) =>
    let p := 4 * (j : Int) - q
    cubicCx (fun i => if 0 ≤ i then a.getD i.toNat {} else {}) (p / 4) (p % 4 * 2 ^ 30)

/-- The samples that the taps of symbol `n` read. -/
def tapSmps (g : Int → Smp) (nt n : Nat) : List Smp := (List.range nt).map fun (j : Nat) => g ((nearSmp n).1 + j - nt / 2)

/-- Symbol `n` of both polarisations, with its erasure and weight (R260, R263). -/
def eqSym (t : EqTaps) (g : Int → Smp) (n : Nat) : Smp :=
  let q := (nearSmp n).2
  let ss := tapSmps g t.xx.length n
  let f (w : List Cx) (p : Smp → Cx) : Cx := Cx.sum ((shifted w q).zip ss |>.map fun a => a.1.mul (p a.2))
  { x := (f t.xx (·.x)).add (f t.xy (·.y)), y := (f t.yx (·.x)).add (f t.yy (·.y)), erased := ss.any (·.erased),
    wt := ss.foldl (fun a s => max a s.wt) 0 }

/-- Whether a symbol may be used to adapt and to estimate (R261). -/
def Smp.clean (s : Smp) : Bool := !s.erased && decide (s.wt ≤ 2 ^ 24)

/-- The taps after one update: the gradient of some symbols with their errors, times 2^-mu. -/
def EqTaps.update (t : EqTaps) (g : Int → Smp) (mu : Nat) (es : List (Nat × Cx × Cx)) : EqTaps :=
  let nt := t.xx.length
  let grad (w : List Cx) (e : Nat × Cx × Cx → Cx) (p : Smp → Cx) : List Cx :=
    w.zipIdx.map fun a => a.1.add ((Cx.sum (es.map fun s => (e s).mul (p (g ((nearSmp s.1).1 + a.2 - nt / 2))).conj)).shr mu)
  ⟨grad t.xx (·.2.1) (·.x), grad t.xy (·.2.1) (·.y), grad t.yx (·.2.2) (·.x), grad t.yy (·.2.2) (·.y)⟩

/-- The constant-modulus error y × (R − |y|²) ÷ R against the mean R of |y|². -/
def cmaError (r : Nat) (y : Cx) : Cx := if r = 0 then {} else y.scale (((r : Int) - y.pow) * 2 ^ 32 / r)

/-! ### Step 7: frequency and phase (R268, R269) -/

/-- The reference symbol at a frame position: sync or pilot, of mean power 1 (R96, R199). -/
def refSym (compat : Bool) (pol pos : Nat) : Option Cx :=
  let k : Int := isqrt (2 ^ 63)
  let c (bits : List Bool) (i : Nat) : Cx := ⟨if bits.getD (2 * i) false then -k else k, if bits.getD (2 * i + 1) false then -k else k⟩
  if pos < 128 then some (c (syncBits compat pol) pos)
  else if 640 ≤ pos ∧ (pos - 640) % 64 = 0 then some (c (pilotBits pol) ((pos - 640) / 64))
  else none

/-- The first reference position at or after a frame position; the next frame's first where there is none. -/
def nextRef (pos : Nat) : Nat := if pos < 128 then pos else if pos ≤ 640 then 640 else min 40960 (640 + (pos - 640 + 63) / 64 * 64)

/-- A symbol with the carrier's offset and a phase taken off. -/
def derotate (fo : Int) (n : Nat) (ph : Int) (y : Cx) : Cx := y.mul (cis (turn (-(fo * n / 2 ^ 16) - ph)))

/-- The strength of the fourth-power spectrum of some symbols at an offset. -/
def fourth (ys : List (Cx × Cx)) (fo : Int) : Nat :=
  let p4 (a : Cx) : Cx := let b := a.mul a; b.mul b
  let z := Cx.sum (ys.zipIdx.map fun p => ((p4 p.1.1).add (p4 p.1.2)).mul (cis (turn (-(4 * fo * p.2 / 2 ^ 16)))))
  z.abs

/-- The best of some offsets. -/
def bestFo (ys : List (Cx × Cx)) (cs : List Int) (d : Int) : Int :=
  (cs.foldl (fun (a : Int × Nat) f => let k := fourth ys f; if a.2 < k then (f, k) else a) (d, 0)).1

/-- The spacing of the offsets tried, in 2^-48 turns per symbol: 1 ÷ (4 × 4,096); and ±5 GHz in those steps. -/
def foStep : Int := 2 ^ 34
def foSpan (rs : Nat) : Nat := 16384 * 40 / max 1 rs

/-- The frame position of a symbol. -/
def DspSt.posOf (x : DspSt) (n : Nat) : Nat := match x.head with | some h => (n + 40960 - h % 40960) % 40960 | none => 0

/-- How far before a frame position its last reference lies (R269). -/
def lastRef (pos : Nat) : Nat := if pos = 0 then 64 else if pos ≤ 128 then 1 else if pos ≤ 640 then pos - 127 else (pos - 641) % 64 + 1

/-- Another offset from symbol `n` on, whose phases stand at `back` symbols before it: the carrier runs on without a step. -/
def Carrier.tune (x : Carrier) (n back : Nat) (fo : Int) : Carrier :=
  let d := (x.fo - fo) * ((n : Int) - back) / 2 ^ 16
  { x with fo := fo, phX := x.phX + d, phY := x.phY + d }

/-- A block of 4,096 symbols re-estimates the offset: over ±5 GHz until it has one, then around it (DEDUCED: R268 names the
fourth-power spectrum and a loop). -/
def DspSt.carrierBlock (c : DspCfg) (x : DspSt) : DspSt :=
  if x.foBuf.length < 4096 then x
  else
    let ys := x.foBuf.take 4096
    let w := if x.car.fo = 0 then foSpan c.rs else 2
    let cs := (List.range (2 * w + 1)).map fun (i : Nat) => x.car.fo + ((i : Int) - w) * foStep
    { x with foBuf := x.foBuf.drop 4096, car := x.car.tune x.symN (if c.inFrame && x.head.isSome then lastRef (x.posOf x.symN) else 0) (bestFo ys cs x.car.fo) }

/-- The carrier offset in 1/4 MHz. -/
def DspSt.fofs (x : DspSt) (rs : Nat) : Int := roundDiv (x.car.fo * rs * 500) (2 ^ 48)

/-- A phase known only modulo `m` brought next to another. -/
def nearPhase (m p q : Int) : Int := q + ((p - q + m / 2) % m - m / 2)

/-- The phases of X and Y that a reference symbol gives, next to those before; one for both with PH_JOINT. -/
def refPhase (c : DspCfg) (car : Carrier) (n pos : Nat) (s : Smp) : Int × Int :=
  let z (pol : Nat) (y : Cx) : Cx := match refSym c.compat pol pos with | some r => (derotate car.fo n 0 y).mul r.conj | none => {}
  if !s.clean then (car.phX, car.phY)
  else if c.joint then
    let p := ((z 0 s.x).add (z 1 s.y)).arg
    (nearPhase (2 ^ 32) p car.phX, nearPhase (2 ^ 32) p car.phY)
  else (nearPhase (2 ^ 32) (z 0 s.x).arg car.phX, nearPhase (2 ^ 32) (z 1 s.y).arg car.phY)

/-- The decided rail value nearest to a value in units of the data gain. -/
def decideRail (w : Word) (v : Int) : Int :=
  let g : Int := gainFix w
  let h := 2 ^ (fmtM w / 2 - 1)
  let cs := ((List.range h).filter fun i => !fmtShaped w || (fmtComp w).getD i 0 != 0).flatMap fun (i : Nat) => [(2 * (i : Int) + 1) * g, -(2 * (i : Int) + 1) * g]
  cs.foldl (fun a b => if (b - v).natAbs < (a - v).natAbs then b else a) (cs.getD 0 0)

/-- The decided symbol, on the received scale. -/
def decideSym (w : Word) (gain z : Cx) : Cx := let u := z.div gain; (⟨decideRail w u.re, decideRail w u.im⟩ : Cx).mul gain

/-- The decision-directed refinement of a symbol's phase: the angle against the decisions over a window of PH_WIN symbols around it, at most π/4
(R269), from symbols and whether they may be used (R261). -/
def refinePhase (c : DspCfg) (gain : Cx) (zs : List (Cx × Bool)) : List Int :=
  let ds := zs.map fun z => if z.2 then z.1.mul (decideSym c.fmt gain z.1).conj else {}
  (List.range zs.length).map fun i => clampI (-(2 ^ 29)) (2 ^ 29) (Cx.sum ((ds.drop (i - c.phWin / 2)).take (c.phWin - (c.phWin / 2 - i)))).arg

/-- Blind phase of a run: a quarter of the angle of the fourth powers, next to the phase before. -/
def blindPhase (fo : Int) (n : Nat) (old : Int) (ys : List Cx) : Int :=
  let z := Cx.sum (ys.zipIdx.map fun p => let a := derotate fo (n + p.2) 0 p.1; let b := a.mul a; (b.mul b).neg)
  nearPhase (2 ^ 30) (z.arg / 4) old

/-- The phases of the symbols `pos`, `pos` + 1, …, interpolated between two references (R269). -/
def linePhase (p0 p1 : Int) (pos0 pos1 : Nat) (pos : Nat) : Int :=
  if pos1 ≤ pos0 then p1 else p0 + (p1 - p0) * ((pos : Int) - pos0) / ((pos1 - pos0 : Nat) : Int)

/-! ### A run of symbols -/

/-- What the taps of 64 symbols that begin at symbol `n` need: the 64 symbols behind them and the next reference's (R269). -/
def DspSt.needs (c : DspCfg) (x : DspSt) : Nat :=
  if c.inFrame && x.head.isSome then let p := (x.posOf x.symN + 128) % 40960; x.symN + 128 + (nextRef p - p) else x.symN + 64

/-- The sum and count that the cost of R275 averages: (|y|² − R)² ÷ R². -/
def cmaCost (r : Nat) (y : Cx) : Nat := if r = 0 then 2 ^ 32 else let d := ((y.pow : Int) - r).natAbs; d * d * 2 ^ 32 / (r * r)

/-- 64 symbols in blind mode: output, constant-modulus update, fourth-power phase; SINGULAR over a frame period. -/
def DspSt.blindRun (c : DspCfg) (x : DspSt) (g : Int → Smp) : DspSt :=
  let ns := (List.range 64).map (x.symN + ·)
  let ys := ns.map fun n => (n, eqSym x.taps g n)
  let ok := ys.filter (·.2.clean)
  let mean (f : Smp → Cx) : Nat := (ok.foldl (fun a p => a + (f p.2).pow) 0) / max 1 ok.length
  let rx := mean (·.x)
  let ry := mean (·.y)
  let taps := if c.eqOn then x.taps.update g c.muAcq (ok.map fun p => (p.1, cmaError rx p.2.x, cmaError ry p.2.y)) else x.taps
  let pX := blindPhase x.car.fo x.symN x.car.phX (ok.map (·.2.x))
  let pY := blindPhase x.car.fo x.symN x.car.phY (ok.map (·.2.y))
  let zs := ys.map fun p => { p.2 with x := derotate x.car.fo p.1 pX p.2.x, y := derotate x.car.fo p.1 pY p.2.y }
  let x : DspSt := { x with
    taps := taps, car := { x.car with phX := pX, phY := pY }, lined := [], out := x.out ++ zs, symN := x.symN + 64, foBuf := x.foBuf ++ ok.map fun p => (p.2.x, p.2.y),
    costSum := x.costSum + ok.foldl (fun a p => a + cmaCost rx p.2.x + cmaCost ry p.2.y) 0, costN := x.costN + 2 * ok.length,
    cross := x.cross.add (Cx.sum (ok.map fun p => p.2.x.mul p.2.y.conj)), powX := x.powX + rx * ok.length, powY := x.powY + ry * ok.length, crossN := x.crossN + 64 }
  if x.crossN < 40960 then x
  else
    let sing := c.eqOn && decide (81 * (x.powX * x.powY) < 100 * (x.cross.abs * x.cross.abs))
    { x with taps := if sing then x.taps.ortho else x.taps, singular := x.singular || sing, cross := {}, powX := 0, powY := 0, crossN := 0 }

/-- Symbol `n` at frame position `p` with the phases of its references: its own, or the line between the last and the next (R269). -/
def DspSt.lineSym (c : DspCfg) (x : DspSt) (g : Int → Smp) (car : Carrier) (n p : Nat) : Carrier × Smp × Int × Int :=
  let y := eqSym x.taps g n
  if (refSym c.compat 0 p).isSome then
    let q := refPhase c car n p y
    ({ car with phX := q.1, phY := q.2 }, y, q.1, q.2)
  else
    let r := nextRef p
    let m := n + (r - p)
    let q := refPhase c car m (r % 40960) (eqSym x.taps g m)
    let p0 := if p < 640 then 127 else 640 + (p - 640) / 64 * 64
    (car, y, linePhase car.phX q.1 p0 r p, linePhase car.phY q.2 p0 r p)

/-- `k` symbols from symbol `n` on, by their numbers, and the carrier behind them. -/
def DspSt.lineRun (c : DspCfg) (x : DspSt) (g : Int → Smp) (n k : Nat) (car : Carrier) : Carrier × List (Nat × Smp × Int × Int) :=
  let r := (List.range k).foldl (fun (a : Carrier × List (Nat × Smp × Int × Int)) i =>
    let q := x.lineSym c g a.1 (n + i) (x.posOf (n + i))
    (q.1, (n + i, q.2) :: a.2)) (car, [])
  (r.1, r.2.reverse)

/-- The symbols of a run at the phases of their references. -/
def linedUp (car : Carrier) (ys : List (Nat × Smp × Int × Int)) : List (Cx × Cx × Bool) :=
  ys.map fun a => (derotate car.fo a.1 a.2.2.1 a.2.1.x, derotate car.fo a.1 a.2.2.2 a.2.1.y, a.2.1.clean)

/-- 64 symbols in frame: phases from the references on either side, refined while decisions are in force by the symbols around them; errors
against the known or decided symbols, turned back to the equaliser's output (R263, R269). -/
def DspSt.frameRun (c : DspCfg) (x : DspSt) (g : Int → Smp) : DspSt :=
  let r := x.lineRun c g x.symN 64 x.car
  let ys := r.2
  let car := r.1
  let now := linedUp car ys
  let all := x.lined ++ now ++ linedUp car (x.lineRun c g (x.symN + 64) 64 car).2
  let turns (gain : Cx) (f : Cx × Cx × Bool → Cx) : List Int :=
    if c.dd then ((refinePhase c gain (all.map fun a => (f a, a.2.2))).drop x.lined.length).take 64 else List.replicate 64 0
  let rs := (turns car.gX (·.1)).zip (turns car.gY (·.2.1))
  let zs := (now.zip rs).map fun a => (a.1.1.mul (cis (-a.2.1)), a.1.2.1.mul (cis (-a.2.2)))
  let known (pol n : Nat) (ref gain z : Cx) : Option Cx := match refSym c.compat pol (x.posOf n) with
    | some s => some (s.mul ref)
    | none => if c.dd then some (decideSym c.fmt gain z) else none
  let back (n : Nat) (ph : Int) (e : Cx) : Cx := e.mul (cis (turn (car.fo * n / 2 ^ 16 + ph)))
  let es := (ys.zip (zs.zip rs)).filterMap fun a =>
    let n := a.1.1
    match known 0 n car.rX car.gX a.2.1.1, known 1 n car.rY car.gY a.2.1.2 with
    | some u, some v => if a.1.2.1.clean then
        some (n, back n (a.1.2.2.1 + a.2.2.1) (u.sub a.2.1.1), back n (a.1.2.2.2 + a.2.2.2) (v.sub a.2.1.2))
      else none
    | _, _ => none
  let out := (ys.zip zs).map fun a => { a.1.2.1 with x := a.2.1, y := a.2.2 }
  let ok := ys.filter (·.2.1.clean)
  { x with car := car, taps := x.taps.update g c.muTrk es, lined := now, out := x.out ++ out, symN := x.symN + 64, foBuf := x.foBuf ++ ok.map fun a => (a.2.1.x, a.2.1.y) }

/-- The next 64 symbols, where the samples that they need are there. -/
def DspSt.symRun (c : DspCfg) (x : DspSt) : DspSt :=
  let b := x.eqBuf.toArray
  let g (i : Int) : Smp := if (x.eqAt : Int) ≤ i then b.getD (i - x.eqAt).toNat {} else {}
  if x.eqAt + x.eqBuf.length < 5 * x.needs c / 4 + 34 then x
  else
    let x := if c.inFrame && x.head.isSome then x.frameRun c g else x.blindRun c g
    let x := x.carrierBlock c
    let d := min x.eqBuf.length (5 * x.symN / 4 - 163904 - x.eqAt)
    { x with eqBuf := x.eqBuf.drop d, eqAt := x.eqAt + d, out := x.out.drop (x.out.length - 131072), outAt := x.outAt + (x.out.length - 131072) }

/-- One round of the chain behind converter correction. -/
def DspSt.round (c : DspCfg) (x : DspSt) : DspSt :=
  let x := if x.ibuf.length < c.rs / 10 + 4 ∨ c.rs < 10 then x else x.resample c
  let x := if x.cdBuf.length < 65536 then x else let old := x.eqBuf.length; (x.cdBlock c).envelope c old
  x.symRun c

def DspSt.rounds (c : DspCfg) : Nat → DspSt → DspSt
  | 0, x => x
  | n + 1, x => DspSt.rounds c n (x.round c)

/-- New corrected samples of one ADC run the chain as far as it goes; four rails' worth of 120 samples is at most 12 cycles
and 16 runs of symbols. -/
def DspSt.feed (c : DspCfg) (x : DspSt) (a : Nat) (v : List (Int × Bool)) : DspSt :=
  DspSt.rounds c 1024 ({ x with inQ := x.inQ.modify a (· ++ v) }.take c)

/-! ### A tick (R252, R255, R262, R280) -/

/-- The chain's part of a tick: averages move, the running tick's sums start again. -/
def DspSt.tick (x : DspSt) : DspSt :=
  { x with
    iqX := x.iqX.settle x.sumX x.taken, iqY := x.iqY.settle x.sumY x.taken, sumX := {}, sumY := {}, taken := 0,
    gain := if x.gainN = 0 then x.gain else Config.agcGain x.gain (x.gainSum / x.gainN), gainSum := 0, gainN := 0,
    envHist := if x.envN = 0 then x.envHist else (x.envSum / x.envN :: x.envHist).take 1000, envSum := 0, envN := 0,
    singular := false, costSum := 0, costN := 0 }

/-- The input power as RXP_MON_PWR: 10 × log10(127² ÷ mean of x²) over all four rails, in 1/4 dB (R280). -/
def DspSt.power (x : DspSt) : Nat :=
  let sum := x.sumX.ii + x.sumX.qq + x.sumY.ii + x.sumY.qq
  if sum = 0 then 0xFF else min 0xFF (logRatio 40 (127 * 127 * (4 * x.taken) * 2 ^ 36) sum).toNat

/-- The constant-modulus cost of the tick is below its limit. -/
def DspSt.costOk (x : DspSt) : Bool := x.costN != 0 && decide (x.costSum < Config.cmaLimit * x.costN)

/-- The loop's frequency in ppb: the far symbol clock against the local time base (R255). -/
def DspSt.clkOfs (x : DspSt) : Int := roundDiv (-x.freq * 1000000000) (2 ^ 48)

/-! ### The monitors of the taps (R259, R280) -/

/-- A filter's response at `f` ÷ 1,024 of the sample rate. -/
def response (w : List Cx) (f : Int) : Cx := Cx.sum (w.zipIdx.map fun p => p.1.mul (cis (turn (-(f * ((p.2 : Int) - w.length / 2) * 2 ^ 22)))))

/-- The equaliser's response at a frequency: rows X and Y. -/
def EqTaps.at_ (t : EqTaps) (f : Int) : (Cx × Cx) × Cx × Cx := ((response t.xx f, response t.xy f), (response t.yx f, response t.yy f))

def matDet (m : (Cx × Cx) × Cx × Cx) : Cx := (m.1.1.mul m.2.2).sub (m.1.2.mul m.2.1)
/-- The adjugate. -/
def matAdj (m : (Cx × Cx) × Cx × Cx) : (Cx × Cx) × Cx × Cx := ((m.2.2, m.1.2.neg), (m.2.1.neg, m.1.1))
def matMul (a b : (Cx × Cx) × Cx × Cx) : (Cx × Cx) × Cx × Cx :=
  (((a.1.1.mul b.1.1).add (a.1.2.mul b.2.1), (a.1.1.mul b.1.2).add (a.1.2.mul b.2.2)),
   ((a.2.1.mul b.1.1).add (a.2.2.mul b.2.1), (a.2.1.mul b.1.2).add (a.2.2.mul b.2.2)))

/-- The central 80 % of the band of ±Rs ÷ 2: steps of 8 of 1,024 of the sample rate. -/
def bandSteps : List Int := (List.range 82).map fun (i : Nat) => 8 * ((i : Int) - 41)

/-- The residual dispersion in ps/nm: the curvature of half the angle of the response's determinant, against −spread × (f ÷ Rs)²
÷ 2 (R259). -/
def EqTaps.residual (t : EqTaps) (u : Nat × Nat) : Int :=
  if t.xx.isEmpty ∨ u.1 = 0 then 0
  else
    let a := (bandSteps.map fun f => (matDet (t.at_ f)).arg).toArray
    let d := (List.range 80).map fun i => turn (turn (a.getD (i + 2) 0 - a.getD (i + 1) 0) - turn (a.getD (i + 1) 0 - a.getD i 0))
    let sum := d.foldl (· + ·) 0
    -- The mean second difference of the determinant's angle is −2 × spread × (8 ÷ 1,024 × 5 ÷ 4)² turns.
    roundDiv (-(sum * 16384 * 16 * u.2)) (80 * 2 * 25 * 2 ^ 32 * u.1)

/-- The two eigenvalues' angle apart. -/
def eigenTurn (m : (Cx × Cx) × Cx × Cx) : Nat :=
  let tr := m.1.1.add m.2.2
  let r := ((tr.mul tr).sub ((matDet m).scale (4 * 2 ^ 32))).sqrt
  (turn ((tr.add r).arg - (tr.sub r).arg)).natAbs

/-- The differential group delay in 1/16 ps, of the inverse of the response, averaged over the band (R280). -/
def EqTaps.dgd (t : EqTaps) (rs : Nat) : Nat :=
  let fs := bandSteps.take 81
  let sum := fs.foldl (fun a f => a + eigenTurn (matMul (matAdj (t.at_ (f + 8))) (t.at_ f))) 0
  -- turns over 8 ÷ 1,024 of the sample rate 1.25 × rs ÷ 8 GHz.
  min 0xFFFE (sum * 128 * 8 * 4 * 16 * 1000 / (81 * 2 ^ 32 * 5 * max 1 rs))

/-- The polarisation-dependent loss in 1/16 dB: the ratio of the singular values, averaged in dB over the band (R280). -/
def EqTaps.pdl (t : EqTaps) : Nat :=
  let one (f : Int) : Nat :=
    let m := t.at_ f
    let p := m.1.1.pow + m.1.2.pow + m.2.1.pow + m.2.2.pow
    let q := 2 * (matDet m).abs
    -- The squares of the singular values are (p ± √(p² − q²)) ÷ 2.
    let r := isqrt (p * p - q * q)
    if p ≤ r then 0xFFFE else (logRatio 160 (p + r) (p - r)).toNat
  min 0xFFFE ((bandSteps.foldl (fun a f => a + one f) 0) / 82)

/-! ### Frame positions and frames (R228, R273, R280) -/

/-- The samples of an ADC that have entered the chain. -/
def DspSt.fed (x : DspSt) (a : Nat) : Nat := x.nIn + x.ibuf.length + (x.inQ.getD a []).length

/-- The frame position of an ADC's sample `k` as they enter the chain, once the framer has set one: samples, interpolator outputs, compensated samples and symbols
follow one another at their nominal rates (DEDUCED). -/
def DspSt.posAt (x : DspSt) (k : Int) : Option Nat :=
  match x.head with
  | none => none
  | some h =>
    let m : Int := x.nOut + ((k - 48 - x.nIn) * 2 ^ 48 - x.time) / (2 ^ 48 + x.freq)
    some (((m - 10240) * 4 / 5 - (h : Int)) % 40960).toNat

/-- Whether a frame position is a head's or a pilot's. -/
def fixedPos (p : Nat) : Bool := decide (p < 640) || (p - 640) % 64 == 0

/-- `len` symbols from symbol `n` on; one that never came, or has gone, counts as erased. -/
def DspSt.symsAt (x : DspSt) (n : Int) (len : Nat) : List Smp :=
  let b := x.out.toArray
  (List.range len).map fun (i : Nat) => if (x.outAt : Int) ≤ n + i then b.getD (n + i - x.outAt).toNat { erased := true } else { erased := true }

/-- The 40,960 symbols from symbol `n` on. -/
def DspSt.frame (x : DspSt) (n : Nat) : Array Smp := (x.symsAt n 40960).toArray

/-- The gain that maps the references of a polarisation onto the symbols, and the mean squared residual (R280). -/
def refFit (compat : Bool) (pol : Nat) (zs : Array Smp) : Cx × Nat :=
  let pick (s : Smp) : Cx := if pol = 0 then s.x else s.y
  let ps := (List.range 40960).filterMap fun p => match refSym compat pol p with
    | some r => let s := zs.getD p { erased := true }; if s.clean then some (pick s, r) else none
    | none => none
  let n : Int := max 1 ps.length
  let g := Cx.sum (ps.map fun p => p.1.mul p.2.conj)
  let g : Cx := ⟨g.re / n, g.im / n⟩
  (g, (ps.foldl (fun a p => a + (p.1.sub (p.2.mul g)).pow) 0) / n.toNat)

/-- The data symbols of a polarisation that may be used. -/
def dataSyms (pol : Nat) (zs : Array Smp) : List Cx :=
  (List.range 39690).filterMap fun d =>
    let s := zs.getD (641 + 64 * (d / 63) + d % 63) { erased := true }
    if s.clean then some (if pol = 0 then s.x else s.y) else none

/-- The gain of the data symbols: the references' gain by the measured amplitude of the data against theirs (R269). -/
def dataGain (compat : Bool) (pol : Nat) (zs : Array Smp) : Cx × Nat :=
  let f := refFit compat pol zs
  let ds := dataSyms pol zs
  let p := ds.foldl (fun a z => a + z.pow) 0 / max 1 ds.length
  if f.1.pow = 0 then (f.1, f.2) else (f.1.scale (isqrt ((p - f.2) * 2 ^ 64 / f.1.pow)), f.2)

/-- The monitors of a frame: SNR in 2^-16, EVM in 0.01 %, slice SNRs in 2^-16, from the symbols after step 7 and after step 8 (R280). -/
def frameMonitors (w : Word) (compat : Bool) (zs ys : Array Smp) : Nat × Nat × List Nat :=
  let gs := [0, 1].map fun p => dataGain compat p zs
  let sig := gs.foldl (fun a g => a + g.1.pow) 0
  let noise := gs.foldl (fun a g => a + g.2) 0
  let ks := [0, 1].map fun p => dataGain compat p ys
  let pair (pol : Nat) : List (Cx × Cx) := let k := (ks.getD pol ({}, 0)).1; (dataSyms pol ys).map fun z => let d := decideSym w k z; (d, z.sub d)
  let all := pair 0 ++ pair 1
  let ps := all.foldl (fun a p => a + p.1.pow) 0
  let es := all.foldl (fun a p => a + p.2.pow) 0
  let spec (f : Cx × Cx → Cx) (pol : Nat) : Array Cx := dft (-1) ((pair pol).map f).toArray
  let slice (a : Array Cx) (i : Nat) : Nat := a.zipIdx.foldl (fun t p =>
    let k := binFreq a.size p.2
    if ((i : Int) - 4) * a.size ≤ 8 * k ∧ 8 * k < ((i : Int) - 3) * a.size then t + p.1.pow else t) 0
  let ds := [0, 1].map (spec (·.1))
  let ns := [0, 1].map (spec (·.2))
  (sig * 65536 / max 1 noise, if ps = 0 then 0xFFFE else min 0xFFFE (isqrt (es * 100000000 / ps)),
   (List.range 8).map fun i => (ds.foldl (fun t a => t + slice a i) 0) * 65536 / max 1 (ns.foldl (fun t a => t + slice a i) 0))

/-! ### Step 8: nonlinearity compensation (R271, R272) -/

/-- L_eff of a step's spans in km, × 2^32. -/
def NlcCfg.leff (c : NlcCfg) : Int :=
  let al := (c.alpha * c.km : Nat) * lnFix 10 / 10000
  if al ≤ 0 then 0 else (2 ^ 32 - expFix (-al)) * 2 ^ 32 / al * c.km * c.spans / (max 1 c.steps : Nat)

/-- The phase of a step in 2^-32 turns at the launch power: XI ÷ 256 × γ × L_eff × P. -/
def NlcCfg.phase (c : NlcCfg) : Int :=
  let mw := expFix (lnFix 10 * c.launch / 40)
  c.xi * c.gamma * (c.leff * mw / 2 ^ 32) / 256000000 * 2 ^ 64 / (2 * piFix 64 : Nat)

/-- A field of both polarisations back through the link: dispersion re-applied, then in each step a part of it removed and the phase
applied; `mean` is the power of one carrier at launch, `m` the samples per symbol. -/
def NlcCfg.back (c : NlcCfg) (u : Nat × Nat) (da : Int) (m mean : Nat) (f : Array Cx × Array Cx) : Array Cx × Array Cx :=
  let n := f.1.size
  let both (ph : Int → Int) (f : Array Cx × Array Cx) : Array Cx × Array Cx := (allPass ph f.1, allPass ph f.2)
  let f := both (fun k => -(cdPhase u da m 1 n k)) f
  (List.range c.steps).foldl (fun f _ =>
    let f := both (cdPhase (u.1, u.2 * c.steps) da m 1 n) f
    let ph := f.1.zip f.2 |>.map fun p => cis (turn (c.phase * (p.1.pow + p.2.pow : Nat) / (max 1 mean : Nat)))
    ((f.1.zip ph).map fun p => p.1.mul p.2, (f.2.zip ph).map fun p => p.1.mul p.2)) f

/-- A carrier `sh` bins up, at `m` samples per symbol; and back. -/
def shiftUp (m : Nat) (sh : Int) (xs : Array Cx) : Array Cx :=
  let n := xs.size
  let y := (dft (-1) xs).zipIdx.foldl (fun (a : Array Cx) p => a.setIfInBounds ((binFreq n p.2 + sh) % (m * n : Nat)).toNat (p.1.scale (m * 2 ^ 32))) (Array.replicate (m * n) {})
  invDft y
def shiftDown (m : Nat) (sh : Int) (ys : Array Cx) : Array Cx :=
  let n := ys.size / max 1 m
  let y := dft (-1) ys
  invDft ((List.range n).map fun k => let a := y.getD ((binFreq n k + sh) % (ys.size : Nat)).toNat {}; (⟨a.re / m, a.im / m⟩ : Cx)).toArray

/-- The rule of R260 once more at the stage's own input: its weight is added to the noise beside the first one's. -/
def weighAgain (h : Nat) (b : List Smp) : List Smp :=
  (b.zip (weigh h b)).map fun p => { p.1 with erased := p.1.erased || p.2.erased, wt := p.1.wt + p.2.wt }

/-- The mean power of a block of symbols. -/
def meanPow (b : List Smp) : Nat := b.foldl (fun a s => a + s.x.pow + s.y.pow) 0 / max 1 b.length

/-- A block of symbols through the stage; `pair` is the other carrier's block in paired mode with this carrier's place in bins.  With
XI = 0 the values pass unchanged. -/
def NlcCfg.run (c : NlcCfg) (u : Nat × Nat) (da : Int) (h : Nat) (pair : Option (List Smp × Int)) (b : List Smp) : List Smp :=
  let b := weighAgain h b
  if c.steps = 0 ∨ c.xi = 0 then b
  else
    let fld (b : List Smp) : Array Cx × Array Cx := ((b.map (·.x)).toArray, (b.map (·.y)).toArray)
    let f := match pair with
      | none => c.back u da 1 (meanPow b) (fld b)
      | some (o, sh) =>
        let up (sh : Int) (b : List Smp) : Array Cx × Array Cx := let f := fld b; (shiftUp 4 sh f.1, shiftUp 4 sh f.2)
        let a := up sh b
        let d := up (-sh) o
        let r := c.back u da 4 ((meanPow b + meanPow o) / 2) (Array.zipWith Cx.add a.1 d.1, Array.zipWith Cx.add a.2 d.2)
        (shiftDown 4 sh r.1, shiftDown 4 sh r.2)
    b.zipIdx.map fun p => { p.1 with x := f.1.getD p.2 {}, y := f.2.getD p.2 {} }

/-- The final correction: the common phase of a frame's references is removed. -/
def pilotFix (compat : Bool) (zs : Array Smp) : Array Smp :=
  let z := Cx.sum ((List.range 40960).map fun p =>
    let s := zs.getD p { erased := true }
    match refSym compat 0 p, refSym compat 1 p with
    | some a, some b => if s.clean then (s.x.mul a.conj).add (s.y.mul b.conj) else {}
    | _, _ => {})
  let r := cis (-z.arg)
  zs.map fun s => { s with x := s.x.mul r, y := s.y.mul r }

/-! ### Noise (R273) -/

/-- σ² of a symbol's polarisation, 2^-32: the mean squared error over the 1,024 symbol periods around it, or over the frame where they
hold none; a free value where the frame holds none. -/
def noiseAt (errs : Array (Option Nat)) (p : Nat) : Nat :=
  let mean (l : List (Option Nat)) : Option Nat := let v := l.filterMap id; if v.isEmpty then none else some (v.foldl (· + ·) 0 / v.length)
  match mean ((List.range 1024).map fun i => if 512 ≤ p + i then errs.getD (p + i - 512) none else none) with
  | some v => v
  | none => match mean errs.toList with | some v => v | none => Config.noNoise p

/-! ### The refinement pass (R274) -/

/-- The phase of a run of symbols against known ones, turns. -/
def knownPhase (ps : List (Cx × Option Cx)) : Int := (Cx.sum (ps.map fun p => match p.2 with | some t => p.1.mul t.conj | none => {})).arg

/-- One data-aided run of 64 symbols: `t` gives the known symbols of X and Y by frame position, on the received scale. -/
def loopRun (mu : Nat) (fo : Int) (g : Int → Smp) (n0 : Nat) (t : Nat → Option Cx × Option Cx) (w : EqTaps) (r : Nat) : EqTaps :=
  let ns := (List.range 64).map (64 * r + ·)
  let ys := ns.map fun p => (p, eqSym w g (n0 + p))
  let rot (p : Nat) (y : Cx) : Cx := derotate fo (n0 + p) 0 y
  let ok := ys.filter fun a => a.2.clean
  let px := knownPhase (ok.map fun a => (rot a.1 a.2.x, (t a.1).1))
  let py := knownPhase (ok.map fun a => (rot a.1 a.2.y, (t a.1).2))
  let err (p : Nat) (y : Cx) (ph : Int) (k : Option Cx) : Cx := match k with
    | some k => (k.sub (derotate fo (n0 + p) ph y)).mul (cis (turn (fo * (n0 + p : Nat) / 2 ^ 16 + ph)))
    | none => {}
  w.update g mu (ok.map fun a => (n0 + a.1, err a.1 a.2.x px (t a.1).1, err a.1 a.2.y py (t a.1).2))

/-- The frame equalised again with refined taps, its phase estimated against the known symbols over windows. -/
def loopFrame (c : DspCfg) (mu : Nat) (fo : Int) (g : Int → Smp) (n0 : Nat) (t : Nat → Option Cx × Option Cx) (w : EqTaps) : List Smp :=
  let w := (List.range 1280).foldl (fun w i => loopRun mu fo g n0 t w (i % 640)) w
  let ys := (List.range 40960).map fun p => let y := eqSym w g (n0 + p); { y with x := derotate fo (n0 + p) 0 y.x, y := derotate fo (n0 + p) 0 y.y }
  let wx := (ys.zipIdx.map fun a => (a.1.x, if a.1.clean then (t a.2).1 else none)).toArray
  let wy := (ys.zipIdx.map fun a => (a.1.y, if a.1.clean then (t a.2).2 else none)).toArray
  let win (b : Array (Cx × Option Cx)) (p : Nat) : List (Cx × Option Cx) := (List.range c.phWin).map fun i => if c.phWin / 2 ≤ p + i then b.getD (p + i - c.phWin / 2) ({}, none) else ({}, none)
  ys.zipIdx.map fun a => { a.1 with x := a.1.x.mul (cis (-(knownPhase (win wx a.2)))), y := a.1.y.mul (cis (-(knownPhase (win wy a.2)))) }

/-! ### Acquisition's part (R258, R259, R278) -/

/-- The taps corrected by the inverse of `d` more dispersion in the compensator (R259). -/
def EqTaps.undo (t : EqTaps) (u : Nat × Nat) (d : Int) : EqTaps :=
  let f (w : List Cx) : List Cx := (allPass (fun k => -(cdPhase u d 5 4 w.length k)) w.toArray).toList
  ⟨f t.xx, f t.xy, f t.yx, f t.yy⟩

/-- The frequency estimate at another symbol rate (R278). -/
def DspSt.retune (x : DspSt) (old new : Nat) : DspSt := { x with car := { x.car with fo := x.car.fo * old / (max 1 new : Nat) } }

/-- What a restart at an acquisition state keeps of the signal path (R278): the samples in the converter's queues stay aligned. -/
def DspSt.restart (x : DspSt) (st : Nat) (again : Bool) : DspSt :=
  if st = 1 then { inQ := x.inQ, cycle := x.cycle }
  else if st = 2 then { x with eqBuf := [], eqAt := x.eqAt + x.eqBuf.length, symN := 4 * (x.eqAt + x.eqBuf.length) / 5 + 64, out := [], outAt := 4 * (x.eqAt + x.eqBuf.length) / 5 + 64, taps := {}, car := {}, foBuf := [], head := none, scan := [], fine := [] }
  else if st = 3 then { x with freq := 0, err := 0, errs := [], taps := {}, head := none }
  else if st = 4 then { x with car := if again then {} else x.car, foBuf := if again then [] else x.foBuf, cross := {}, powX := 0, powY := 0, crossN := 0, head := none }
  else x

end Sys2Proof.Machine
end

