-- ==== Sys2Proof/Machine/Head.lean ====
section
/-! DEFINITION. What the correlator and the head decoder read at the output of the receive DSP's step 7 (R97, R98, R109, R110, R251). -/

namespace Sys2Proof.Machine

open Sys2Proof (HeadIn)

/-! ### The correlator (R109) -/

/-- A polarisation of a symbol, as received or exchanged. -/
def Smp.pol (s : Smp) (exch : Bool) (p : Nat) : Cx := if (p == 0) != exch then s.x else s.y

/-- The correlation of 128 symbols with a polarisation's sync word. -/
def syncCorr (compat exch : Bool) (pol : Nat) (ss : List Smp) : Cx :=
  Cx.sum (ss.zipIdx.map fun p => match refSym compat pol p.2 with | some r => (p.1.pol exch pol).mul r.conj | none => {})

/-- ρ of 128 symbols in 2^-16.  DEDUCED: the magnitudes of both polarisations are added, since each has its own fourfold ambiguity before
alignment (R269), and divided by the greatest value that their powers allow. -/
def rhoOf (compat exch : Bool) (ss : List Smp) : Nat :=
  let c := (syncCorr compat exch 0 ss).abs + (syncCorr compat exch 1 ss).abs
  isqrt (c * c / max 1 (256 * ss.foldl (fun a s => a + s.x.pow + s.y.pow) 0))

/-- Whether the signal path still holds `n` symbols from a symbol number on. -/
def DspSt.holds (x : DspSt) (k n : Nat) : Bool := decide (x.outAt ≤ k) && decide (k + n ≤ x.outAt + x.out.length)

/-- ρ at a symbol, as received or exchanged, and the greater of both. -/
def DspSt.rhoAs (x : DspSt) (compat exch : Bool) (k : Nat) : Nat := rhoOf compat exch (x.symsAt k 128)
def DspSt.rhoAt (x : DspSt) (compat : Bool) (k : Nat) : Nat := max (x.rhoAs compat false k) (x.rhoAs compat true k)

/-- The greatest ρ of the eight positions on either side. -/
def DspSt.sideAt (x : DspSt) (compat : Bool) (k : Nat) : Nat :=
  ((List.range 17).filter (· != 8)).foldl (fun a i => max a (x.rhoAt compat (k + i - 8))) 0

/-! ### The head decoder (R97, R98) -/

/-- The 2,048 values of the overhead field in the order of their positions, turned to the sync word's phase; zero where erased (R98). -/
def headSoft (compat exch : Bool) (ss : List Smp) : Array Int :=
  let c := [0, 1].map fun p => syncCorr compat exch p (ss.take 128)
  (((ss.drop 128).take 512).flatMap fun s => [0, 1].flatMap fun p =>
    let z := if s.erased then {} else (s.pol exch p).mul (c.getD p {}).conj
    [z.re, z.im]).toArray

/-- One step of the decoder's 64 states, each with its metric and the bits that led to it, newest first: the values of a coded pair. -/
def headStep (st : Array (Int × List Bool)) (v : Int × Int) : Array (Int × List Bool) :=
  let sgn (b : Bool) (x : Int) : Int := if b then -x else x
  ((List.range 64).map fun n =>
    let go (k : Nat) : Int × List Bool :=
      let m := 64 * (n / 32) + 2 * (n % 32) + k
      let p := st.getD (2 * (n % 32) + k) (0, [])
      (p.1 + sgn (convTap 0o171 m) v.1 + sgn (convTap 0o133 m) v.2, decide (32 ≤ n) :: p.2)
    if (go 0).1 < (go 1).1 then go 1 else go 0).toArray

/-- The overhead bytes that the field's values most likely carry.  DESIGN CHOICE: R97 gives the code and R98 the quality of its decoder, not the
decoder: the best of the tail-biting paths. -/
def headDecode (soft : Array Int) : List Byte :=
  let at_ (k : Nat) : Int := soft.getD (32 * (k % 64) + k / 64) 0
  let vs := (List.range 1024).map fun i => (at_ (2 * i), at_ (2 * i + 1))
  let run (s : Nat) : Int × List Bool :=
    (vs.foldl headStep ((List.range 64).map fun i => (if i = s then 0 else -(2 ^ 200), [])).toArray).getD s (0, [])
  let best := (List.range 64).foldl (fun (b : Int × List Bool) s => let r := run s; if b.1 < r.1 then r else b) (-(2 ^ 201), [])
  bitsBytes 128 best.2.reverse

/-! ### What is heard -/

/-- What a head at a symbol gives: ρ, ρ beside it and its bytes from the symbols after step 7 (R251).  Where the signal path holds none of them,
as when no samples were given to it, the command's own values stand. -/
def DspSt.hear (x : DspSt) (compat exch : Bool) (k : Nat) (h : HeadIn) : HeadIn :=
  if 8 ≤ k ∧ x.holds (k - 8) 648 then
    { h with rho := x.rhoAt compat k, side := x.sideAt compat k, bytes := headDecode (headSoft compat exch (x.symsAt k 640)) }
  else h

/-- ρ at a symbol and beside it, for the correlator alone. -/
def DspSt.matchAt (x : DspSt) (compat : Bool) (k : Nat) (r : Nat × Nat) : Nat × Nat :=
  if 8 ≤ k ∧ x.holds (k - 8) 144 then (x.rhoAt compat k, x.sideAt compat k) else r

/-- Whether a match is of the exchanged polarisations (R109). -/
def DspSt.exchanged (x : DspSt) (compat : Bool) (k : Nat) (e : Bool) : Bool :=
  if x.holds k 128 then decide (x.rhoAs compat false k < x.rhoAs compat true k) else e

end Sys2Proof.Machine
end

