-- ==== Sys2Proof/Machine/State.lean ====
section
/-! DEFINITION. The state of the block, and what it is right after reset (R18, R417). -/

namespace Sys2Proof.Machine

/-- Reasons a step stops with a fault: there is none.  The spec gives every command an effect. -/
inductive Fault where
  deriving DecidableEq, Repr

/-- Reasons a step refuses a command. -/
inductive Refusal where
  /-- Raised by a dispatch arm whose meaning is not written; safe: the machine stops where the hardware goes on. -/
  | notModelled (mnemonic : String)
  deriving DecidableEq, Repr

/-- The state of the block. -/
structure State where
  /-- Every BAR0 register; unlisted offsets hold their reset values. -/
  regs : SMap Word := []
  /-- The datapath's shadow copies of control-plane registers, as last published (R31, R41). -/
  shadow : SMap Word := []
  /-- Offsets of registers written since the last publication. -/
  shadowDue : List Nat := []
  /-- Results of the running tick, published at the next boundary (R31): field and value. -/
  pubQ : List (Fr × Nat) := []
  /-- Datapath events that the next phase 2 latches (R42). -/
  evQ : List Fr := []
  /-- Ticks since RESET_N release (R43). -/
  tick : Nat := 0
  /-- The commands that are waiting, first in, first out. -/
  pending : List Instr := []
  out : List Out := []
  /-- The model's own: how many free values have been drawn. -/
  freeCtr : Nat := 0
  /-- FLT_SUMMARY bits whose blocks had an enabled event bit newly set since their last phase 8 (R443). -/
  newEv : Nat := 0
  /-- Vectors that have sent their message in this tick (R443, R494). -/
  msixSent : Nat := 0
  ctrs : SMap Ctr := []
  /-- Counters that wrapped and whose WRAP has not been raised yet (R467). -/
  wrapQ : List Nat := []
  /-- The shadow bank (R470). -/
  bank : SMap Ctr := []
  bankTick : Nat := 0
  bankTime : Nat := 0
  snapPend : Option Snap := none
  /-- Captured companions of latching reads through BAR0 and through BAR2 (R15, R468). -/
  lat0 : SMap (Option Word) := []
  lat2 : SMap (Option Word) := []
  wins : SMap Win := []
  /-- The windows whose EN is 1. -/
  winOn : List Nat := []
  tel : Tel := {}
  mor : Mor := {}
  pcie : Pcie := {}
  pins : Pins := {}
  fuses : Fuses := {}
  boot : Boot := {}
  commit : Option Commit := none
  /-- Pools found exhausted whose degraded steps phase 8 has still to take: pool and alarm detail (R449). -/
  poolQ : List (Nat × Nat) := []
  /-- Alarm changes that the Rime channel has not taken up yet (R325). -/
  alarmQ : List AlarmEv := []
  /-- Dies without a sensor pair: bit 0 core, 1 tile A, 2 tile B (R388). -/
  noPair : Nat := 0
  /-- The NVM; erased bytes are unlisted. -/
  nvm : SMap Byte := []
  mem : MemSt := {}
  lnA : Line := {}
  lnB : Line := {}
  thm : ThmSt := {}
  mon0 : MonUnit := {}
  mon1 : MonUnit := {}
  mon2 : MonUnit := {}
  clk : ClkSt := {}
  tim : TimSt := {}
  rim : RimSt := {}
  d2d : D2dSt := {}
  flo : FloSt := {}
  /-- Datapath status that the next phase 2 latches (R42): field and value. -/
  latQ : List (Fr × Nat) := []
  /-- Failed comparisons in a row that name no unit (R401). -/
  monUndet : Nat := 0
  cph : CphSt := {}
  /-- RESET_N is accepted as asserted. -/
  held : Bool := false
  /-- The sequencer or the time base has stopped: no tick runs (R446-R448). -/
  stalled : Bool := false
  /-- The running tick is one that an overrun consumed: none of its phases runs (R34). -/
  consumed : Bool := false
  /-- A commit has taken effect in phase 7 of the running tick (R33). -/
  acted : Bool := false
  /-- The tick of the last lockstep mismatch (R446). -/
  lockTick : Option Nat := none
  /-- The watchdog has expired (R447). -/
  wdogDone : Bool := false
  /-- Elastic stores reported to the fault manager: crossing and tick (R40). -/
  esFaults : List (Nat × Nat) := []
  /-- Failed tile relocks reported to the fault manager, which the spec gives no event: line and tick (R217). -/
  relockFaults : List (Nat × Nat) := []
  /-- The SMBus status page as last refreshed (R496). -/
  page : List Byte := [0xB0#8] ++ List.replicate 23 0#8 ++ [0x02#8, 0x02#8, 0x3C#8] ++ List.replicate 5 0#8
  /-- The time counter: nanoseconds and 2^-32 ns (R351). -/
  timeNs : Nat := 0
  timeFrac : Nat := 0
  deriving DecidableEq, Repr

/-- The machine right after RESET_N release: every register at the Reset column of its table, memory with nothing
listed, no command waiting. -/
def State.reset : State := {}

end Sys2Proof.Machine
end

