-- ==== Sys2Proof/Machine/Ops.lean ====
section
/-! DEFINITION. The named operations over registers, counters, NVM and outputs that every command is built from. -/

namespace Sys2Proof.Machine

/-! ### Registers -/

/-- A BAR0 register's stored value. -/
def State.reg (s : State) (off : Nat) : Word := s.regs.get regReset off

/-- Store a BAR0 register. -/
def State.setReg (s : State) (off : Nat) (w : Word) : State := { s with regs := s.regs.set regReset off w }

/-- A field of a register. -/
def State.fld (s : State) (f : Fr) : Nat := getBits (s.reg f.off) f.hi f.lo

/-- Whether a one-bit field is 1. -/
def State.bit (s : State) (f : Fr) : Bool := s.fld f == 1

/-- Set a field of a register. -/
def State.setFld (s : State) (f : Fr) (v : Nat) : State := s.setReg f.off (setBits (s.reg f.off) f.hi f.lo v)

/-- Set a field when a condition holds. -/
def State.setFldIf (s : State) (c : Bool) (f : Fr) (v : Nat) : State := if c then s.setFld f v else s

/-- The 64-bit value of a _LO and _HI pair. -/
def State.reg64 (s : State) (lo hi : Nat) : Nat := (s.reg lo).toNat + (s.reg hi).toNat * 2 ^ 32

/-- Set a _LO and _HI pair. -/
def State.setReg64 (s : State) (lo hi v : Nat) : State :=
  (s.setReg lo (BitVec.ofNat 32 v)).setReg hi (BitVec.ofNat 32 (v / 2 ^ 32))

/-- A field as the datapath sees it: the published shadow copy (R31, R41). -/
def State.sh (s : State) (f : Fr) : Nat := getBits (s.shadow.get regReset f.off) f.hi f.lo

/-- Whether a one-bit field is 1 in the datapath's copy. -/
def State.shBit (s : State) (f : Fr) : Bool := s.sh f == 1

/-- Load a register's shadow copy at once (R41: at the frame head named for the change). -/
def State.loadShadow (s : State) (off : Nat) : State := { s with shadow := s.shadow.set regReset off (s.reg off) }

/-- Note that a register's new value is to be published at the next boundary. -/
def State.dueShadow (s : State) (off : Nat) : State :=
  if s.shadowDue.contains off then s else { s with shadowDue := s.shadowDue ++ [off] }

/-- A result of the running tick, published at the boundary that starts the next (R31). -/
def State.publish (s : State) (f : Fr) (v : Nat) : State := { s with pubQ := s.pubQ ++ [(f, v)] }

/-- What a published field shows from the next boundary on. -/
def State.nextFld (s : State) (f : Fr) : Nat := match s.pubQ.reverse.find? fun p => p.1 == f with | some p => p.2 | none => s.fld f

/-- Publish a whole 32-bit register. -/
def State.publishReg (s : State) (off v : Nat) : State := s.publish ⟨off, 31, 0⟩ v

/-- Datapath status for the next phase 2 latch (R42). -/
def State.latch (s : State) (f : Fr) (v : Nat) : State := { s with latQ := s.latQ ++ [(f, v)] }

/-- What a latched field shows from the next phase 2 on. -/
def State.nextLat (s : State) (f : Fr) : Nat := match s.latQ.reverse.find? fun p => p.1 == f with | some p => p.2 | none => s.fld f

/-- A register as the datapath holds it. -/
def State.shReg (s : State) (off : Nat) : Word := s.shadow.get regReset off

/-- Latch a whole 32-bit register. -/
def State.latchReg (s : State) (off v : Nat) : State := s.latch ⟨off, 31, 0⟩ v

/-! ### Lines -/

/-- A line engine's state. -/
def State.ln (s : State) (l : Nat) : Line := if l = 0 then s.lnA else s.lnB
/-- Set a line engine's state. -/
def State.setLn (s : State) (l : Nat) (x : Line) : State := if l = 0 then { s with lnA := x } else { s with lnB := x }
/-- Change a line engine's state. -/
def State.modLn (s : State) (l : Nat) (f : Line → Line) : State := s.setLn l (f (s.ln l))

/-- A change of a line that names a frame is accepted: it comes behind those accepted before it (R38). -/
def State.accepted (s : State) (l code : Nat) : State :=
  s.modLn l fun x => { x with order := x.order.filter (· != code) ++ [code] }

/-- The pending changes among `codes`, in order of acceptance. -/
def Line.inOrder (x : Line) (codes : List Nat) : List Nat :=
  x.order.filter codes.contains ++ codes.filter fun c => !x.order.contains c

/-! ### Outputs and free values -/

/-- Drive something out. -/
def State.emit (s : State) (o : Out) : State := { s with out := s.out ++ [o] }

/-- A free value below a bound, and the state with one more drawn. -/
def State.draw (s : State) (bound : Nat) : Nat × State :=
  (Config.free s.freeCtr % bound, { s with freeCtr := s.freeCtr + 1 })

/-! ### Counters (R463-R467) -/

/-- The FLT_SUMMARY bit of the block an offset lies in (R462). -/
def summaryBit (off : Nat) : Nat :=
  if off < 0x10000 then 0 else if off < 0x20000 then 1 else if off < 0x30000 then 2 else if off < 0x38000 then 3
  else if off < 0x40000 then 4 else if off < 0x50000 then 5 else if off < 0x60000 then 6 else if off < 0x70000 then 7
  else if off < 0x80000 then 8 else if off < 0x90000 then 9 else if off < 0xA0000 then 10 else if off < 0x100000 then 11
  else if off < 0x200000 then 12 else if 0x400000 ≤ off then 13
  else (if off < 0x300000 then 16 else 24) + (off % 0x100000) / 0x20000

/-- The key of the counter of an event bit and instance whose index only the catalogue gives (R465). -/
def evCtrKey (f : Fr) (inst : Nat) : Nat :=
  16384 + ((summaryBit f.off * 64 + (if f.off = Reg.GLB_HOST_EVENT then f.lo + 32 else f.lo)) * 65536 + inst)

/-- The key of a counted quantity that has no event bit and whose index only the catalogue gives: block and number. -/
def miscCtr (blk n : Nat) : Nat := 2 ^ 40 + blk * 65536 + n

/-- A counter. -/
def State.ctr (s : State) (k : Nat) : Ctr := s.ctrs.get (fun _ => {}) k

/-- Add to a counter; a carry past 2^64 − 1 wraps it (R467). -/
def State.count (s : State) (k n : Nat) : State :=
  let c := s.ctr k
  if c.v + n < 2 ^ 64 then { s with ctrs := s.ctrs.set (fun _ => {}) k { c with v := c.v + n } }
  else { s with ctrs := s.ctrs.set (fun _ => {}) k ⟨(c.v + n) % 2 ^ 64, satAdd 255 c.w 1, true⟩, wrapQ := s.wrapQ ++ [k] }

/-! ### Rings (R106) -/

/-- The index after one, in a ring of `size` entries. -/
def ringNext (size i : Nat) : Nat := (i + 1) % size

/-- A ring is empty when its two indices are equal. -/
def ringEmpty (wr rd : Nat) : Bool := wr == rd

/-- A ring is full when the write index is one record behind the read index. -/
def ringFull (size wr rd : Nat) : Bool := ringNext size wr == rd % size

/-! ### NVM (R405-R407) -/

/-- What unlisted NVM bytes hold: the erased value. -/
def nvmErased : Nat → Byte := fun _ => 0xFF#8

/-- The bytes of NVM from an address. -/
def State.nvmBytes (s : State) (a n : Nat) : List Byte := (List.range n).map fun i => s.nvm.get nvmErased (a + i)

/-- Program bytes: programming clears bits and never sets one. -/
def nvmProgram (m : SMap Byte) : Nat → List Byte → SMap Byte
  | _, [] => m
  | a, b :: bs => nvmProgram (m.set nvmErased a (m.get nvmErased a &&& b)) (a + 1) bs

/-- Erase a range. -/
def nvmErase (m : SMap Byte) (a n : Nat) : SMap Byte := m.filter fun p => decide (p.1 < a) || decide (a + n ≤ p.1)

end Sys2Proof.Machine
end

