-- ==== Sys2Proof/Machine/Flags.lean ====
section
/-! DEFINITION. Event bits, the records and messages they cause, and the fault manager's phase 8 (R440-R443, R449,
R453, R493, R494, R496). -/

namespace Sys2Proof.Machine

/-! ### What an event bit is -/

/-- The key under which an event bit's last FAULT record is remembered. -/
def evKey (f : Fr) : Nat := 32 * f.off + f.lo

/-- Whether the event's EVENT_EN bit is 1 (R493: EVENT_EN follows EVENT). -/
def State.evEn (s : State) (f : Fr) : Bool := (s.reg (f.off + 4)).getLsbD f.lo

/-- Set an event bit; note a newly set enabled bit for the block's next message (R443). -/
def State.setEvent (s : State) (f : Fr) : State :=
  let fresh := s.evEn f && !(s.bit f)
  let s' := s.setFld f 1
  if fresh then { s' with newEv := s'.newEv ||| 2 ^ summaryBit f.off } else s'

/-- Whether the event bit has had a FAULT record in the last 1,000,000 ticks (R453). -/
def State.recentFault (s : State) (f : Fr) : Bool :=
  match s.mor.lastFault.get (fun _ => none) (evKey f) with
  | some t => decide (s.tick < t + 1000000)
  | none => false

/-- Note the tick of an event bit's FAULT record (R453). -/
def State.noteFault (s : State) (f : Fr) : State :=
  { s with mor := { s.mor with lastFault := s.mor.lastFault.set (fun _ => none) (evKey f) (some s.tick) } }

/-! ### Records for Moraine -/

/-- A record is lost: it is counted, and MOR_LOST is raised (R455). -/
def State.loseOne (s : State) : State :=
  (({ s with mor := { s.mor with lost := satAdd 0xFFFF s.mor.lost 1 } }).count (evCtrKey Reg.FLT_EVENT.MOR_LOST 0) 1).setEvent Reg.FLT_EVENT.MOR_LOST

/-- A record finds the queue full: it is lost, and so is the FAULT record that MOR_LOST would then have (R453, R455). -/
def State.loseRec (s : State) : State :=
  let s := s.loseOne
  if !s.evEn Reg.FLT_EVENT.MOR_LOST then s
  else
    let k := 256 + 32 * summaryBit Reg.FLT_EVENT + Reg.FLT_EVENT.MOR_LOST.lo
    if s.recentFault Reg.FLT_EVENT.MOR_LOST then s.count k 1 else (s.noteFault Reg.FLT_EVENT.MOR_LOST).loseOne.count k 1

/-- A record as it is queued (R451). -/
def State.record (s : State) (kind sev src : Nat) (detail : List Byte) : MorRec :=
  ⟨kind, sev, src, s.tick, s.timeNs, (s.reg Reg.CFG_EPOCH).toNat, (s.reg Reg.CFG_IMAGE_VER).toNat, padTo 28 detail⟩

/-- Queue a record for Moraine; a full queue loses it (R455). -/
def State.queueRec (s : State) (kind sev src : Nat) (detail : List Byte) : State :=
  if s.mor.queue.length < 64 then
    let q := s.mor.queue ++ [s.record kind sev src detail]
    { s with mor := { s.mor with queue := q, allow := if kind = 1 ∨ kind = 3 then some (s.mor.allow.getD q.length) else s.mor.allow } }
  else s.loseRec

/-- Thermal shutdown has taken effect. -/
def State.down (s : State) : Bool := s.bit Reg.THM_STATUS.SHUTDOWN

/-- The THERM_N pin is asserted (R393-R396). -/
def State.thermPin (s : State) : Bool := s.down || s.bit Reg.THM_STATUS.GATE || (s.bit Reg.THM_CTL.WARN_PIN && s.thm.hot)

/-- A block's STATUS register as it reads. -/
def State.statusWord (s : State) (off : Nat) : Word :=
  if off = Reg.FLT_STATUS then setBits (s.reg off) Reg.FLT_STATUS.THERM.hi Reg.FLT_STATUS.THERM.lo (b2n s.thermPin) else s.reg off

/-- A FAULT record of an event is queued (R452). -/
def State.faultQueue (s : State) (f : Fr) : State :=
  (s.noteFault f).queueRec 0x000E 1 (summaryBit f.off)
    (leBytes 4 f.off ++ leBytes 4 (s.reg f.off).toNat ++ leBytes 4 (s.statusWord (f.off - 4)).toNat)

/-- The FAULT record of an enabled event, at most one in any 1,000,000 ticks for one bit (R453). -/
def State.faultRec (s : State) (f : Fr) : State :=
  if s.recentFault f then s.count (256 + 32 * summaryBit f.off + f.lo) 1 else s.faultQueue f

/-! ### Raising events -/

/-- Set an event bit and write its FAULT record, but count nothing. -/
def State.latchEvent (s : State) (f : Fr) : State :=
  let s' := s.setEvent f
  if s.evEn f then s'.faultRec f else s'

/-- Raise an event of an instance: count it, set its bit, write its FAULT record (R453, R465, R493). -/
def State.raiseAt (s : State) (f : Fr) (inst : Nat) : State := (s.count (evCtrKey f inst) 1).latchEvent f

/-- Raise an event. -/
def State.raise (s : State) (f : Fr) : State := s.raiseAt f 0

/-- Raise an event whose owning rule writes a record of another kind, so that it makes no FAULT record (R453). -/
def State.raiseOwn (s : State) (f : Fr) : State := (s.count (evCtrKey f 0) 1).setEvent f

/-- Raise an event when a condition holds. -/
def State.raiseIf (s : State) (c : Bool) (f : Fr) : State := if c then s.raise f else s

/-- A request that names a frame too near the current one, or past, is counted as rejected (R13, R36, R43). -/
def State.frameReject (s : State) (now f : Nat) : State := s.raiseIf (decide (f < now + 64)) Reg.GLB_TICK_EVENT.FRAME_REJECT

/-- Raise a datapath event: it is counted now, and its bit is set by the next phase 2 latch (R42, R465). -/
def State.raiseDpAt (s : State) (f : Fr) (inst : Nat) : State :=
  let s' := s.count (evCtrKey f inst) 1
  { s' with evQ := s'.evQ ++ [f] }

/-- The same for an event of one instance. -/
def State.raiseDp (s : State) (f : Fr) : State := s.raiseDpAt f 0

/-- Raise a datapath event when a condition holds. -/
def State.raiseDpIf (s : State) (c : Bool) (f : Fr) : State := if c then s.raiseDp f else s

/-! ### DMA (R484, R485) -/

/-- Whether the device may issue DMA: Bus Master Enable is 1, the link is up, the function is not in D3hot. -/
def State.dmaOpen (s : State) : Bool := s.pcie.bme && s.fld Reg.GLB_HOST_STATUS.LINK_GEN != 0 && !s.pcie.d3hot

/-- The pieces of a transfer of `len` bytes at most `m` bytes long: offset and length; `n` bounds their number. -/
def dmaCuts (m : Nat) : Nat → Nat → Nat → List (Nat × Nat)
  | 0, _, _ => []
  | n + 1, at_, len => if len = 0 then [] else (at_, min m len) :: dmaCuts m n (at_ + min m len) (len - min m len)

/-- Write to host memory in pieces of the Max Payload Size. -/
def State.dmaWrite (s : State) (addr : Nat) (bs : List Byte) : State :=
  (dmaCuts s.pcie.maxPayload bs.length 0 bs.length).foldl (fun s p => s.emit (.dmaWrite (addr + p.1) ((bs.drop p.1).take p.2))) s

/-- Ask for host memory in pieces of the Max Read Request Size. -/
def State.dmaRead (s : State) (addr len : Nat) : State :=
  (dmaCuts s.pcie.maxRead len 0 len).foldl (fun s p => s.emit (.dmaRead (addr + p.1) p.2)) s

/-! ### Messages -/

/-- Send a vector's MSI-X message, or set its pending bit while it is masked or Bus Master Enable is 0; a message due
while the link is down is lost (R494). -/
def State.msix (s : State) (v : Nat) : State :=
  if s.fld Reg.GLB_HOST_STATUS.LINK_GEN == 0 || s.pcie.d3hot then s
  else if s.bit (Reg.MSIX_CTL.MASK v) || s.pcie.msixMask || !s.pcie.bme then
    s.setFld ⟨Reg.MSIX_PBA (v / 32), v % 32, v % 32⟩ 1
  else s.emit (.msix v (s.reg64 (Reg.MSIX_ADDR_LO v) (Reg.MSIX_ADDR_HI v)) (s.reg (Reg.MSIX_DATA v)).toNat)

/-! ### Wrap (R467) -/

/-- Whether the index layout of R465 and R466 itself says what counter k counts. -/
def ctrLaidOut (k : Nat) : Bool :=
  (decide (192 ≤ k) && decide (k < 1216)) || (decide (2240 ≤ k) && decide (k < 2256)) ||
  (decide (3072 ≤ k) && decide (k < 4384)) || decide (7168 ≤ k)

/-- The array slot that counter index k names: the layout's own, the event the catalogue word names, or a quantity of its
block that has no event (R465). -/
def ctrSlot (k : Nat) : Nat :=
  if ctrLaidOut k then k
  else
    let c := Config.catWord k
    if natBits c 14 9 = 63 then miscCtr (natBits c 8 4) (Config.catQty k % 65536)
    else 16384 + ((natBits c 8 4 * 64 + natBits c 14 9) * 65536 + natBits c 31 16)

/-- The counter index whose value an array slot holds. -/
def ctrIndex (key : Nat) : Nat := if ctrLaidOut key then key else ((List.range 16384).find? fun k => ctrSlot k == key).getD key

/-- Raise WRAP for one counter and log the first. -/
def State.wrapOne (s : State) (k : Nat) : State :=
  let s := s.raise Reg.PMC_EVENT.WRAP
  if s.bit Reg.PMC_WRAP_LOG.VALID then s
  else (s.setFld Reg.PMC_WRAP_LOG.INDEX (ctrIndex k)).setFld Reg.PMC_WRAP_LOG.VALID 1

/-- Raise WRAP for every counter that wrapped. -/
def State.wraps (s : State) : State := s.wrapQ.foldl State.wrapOne { s with wrapQ := [] }

/-! ### The status page (R393-R396, R496) -/

/-- The status byte of a line: in frame, muted, dLOS, dDEG. -/
def State.lineByte (s : State) (l : Nat) : Nat :=
  let d := s.fld (Reg.FRM_STATUS.DEF l)
  b2n (s.fld ⟨Reg.GLB_LINE_STATUS, 2 * l + 1, 2 * l⟩ == 2 && !s.bit (Reg.FRM_STATUS.OOF l)) + 2 * b2n (s.bit (Reg.TXP_STATUS.MUTED l)) +
    4 * b2n (d.testBit 0) + 8 * b2n (d.testBit 8)

/-- The 32 bytes of the page. -/
def State.pageNow (s : State) : List Byte :=
  let f := s.fld Reg.FLT_STATUS.FAULT + 2 * s.fld Reg.FLT_STATUS.SERVICE + 4 * b2n s.thermPin + 8 * s.fld Reg.FLT_STATUS.DEGRADED +
    16 * s.fld Reg.CFG_STATUS.SAFE + 32 * b2n s.down + 64 * s.fld Reg.THM_STATUS.GATE + 128 * b2n s.boot.ready
  let r := s.fld Reg.CFG_STATUS.RUN_SLOT + 4 * s.fld Reg.CFG_STATUS.HEALTH_RUN + 8 * s.fld Reg.CFG_STATUS.PROVEN +
    16 * s.fld Reg.CFG_STATUS.ROLLED_BACK + 32 * s.fld Reg.GLB_HOST_STATUS.BOOT_STEP
  leBytes 1 0xB0 ++ leBytes 1 f ++ leBytes 1 r ++ leBytes 1 (s.fld Reg.FLT_STATUS.POOLS + 16 * s.fld Reg.FLT_STATUS.LINE_HELD) ++
    leBytes 2 (s.fld Reg.THM_TEMPS.T_J) ++ leBytes 2 (s.fld Reg.THM_TEMPS.T_CORE) ++ leBytes 4 (s.fld Reg.CFG_IMAGE_VER.VER) ++
    leBytes 8 s.fuses.deviceId ++ leBytes 4 (s.tick / 1000000) ++ leBytes 1 (s.lineByte 0) ++ leBytes 1 (s.lineByte 1) ++
    leBytes 1 (s.fld Reg.CLK_STATUS.STATE + 4 * s.fld Reg.CLK_STATUS.SEL) ++ List.replicate 5 0#8

/-- The page is refreshed at the end of phase 8. -/
def State.refreshPage (s : State) : State := { s with page := s.pageNow }

/-! ### The fault manager's phase 8 -/

/-- The event groups: FLT_SUMMARY bit and EVENT offset (R462, R493). -/
def eventGroups : List (Nat × Nat) :=
  [(0, Reg.GLB_TICK_EVENT), (0, Reg.GLB_HOST_EVENT), (1, Reg.CFG_EVENT), (2, Reg.FLT_EVENT), (3, Reg.THM_EVENT),
   (4, Reg.MON_EVENT), (5, Reg.CLK_EVENT), (6, Reg.TIM_EVENT), (7, Reg.CPH_EVENT), (8, Reg.RIM_EVENT),
   (9, Reg.MEM_EVENT), (10, Reg.D2D_EVENT), (11, Reg.HST_EVENT), (12, Reg.FLO_EVENT), (13, Reg.PMC_EVENT),
   (16, Reg.CNV_EVENT 0), (17, Reg.TXP_EVENT 0), (18, Reg.RXP_EVENT 0), (19, Reg.FEC_EVENT 0), (20, Reg.FRM_EVENT 0),
   (21, Reg.LCY_EVENT 0), (24, Reg.CNV_EVENT 1), (25, Reg.TXP_EVENT 1), (26, Reg.RXP_EVENT 1), (27, Reg.FEC_EVENT 1),
   (28, Reg.FRM_EVENT 1), (29, Reg.LCY_EVENT 1)]

/-- Whether a group has an enabled event bit set. -/
def State.groupOn (s : State) (off : Nat) : Bool := (s.reg off &&& s.reg (off + 4)) != 0

/-- The value of FLT_SUMMARY (R440). -/
def State.summary (s : State) : Nat :=
  eventGroups.foldl (fun a g => if s.groupOn g.2 then a ||| 2 ^ g.1 else a) 0

/-- The conditions under which SERVICE_N is asserted (R442). -/
def State.serviceDue (s : State) : Bool :=
  s.bit Reg.FLT_STATUS.DEGRADED || s.bit Reg.CFG_STATUS.SAFE || s.fld Reg.FLT_STATUS.LINE_HELD != 0 ||
  s.bit Reg.FLT_STATUS.SEQ_HARD || s.bit Reg.FLT_STATUS.XO_FAIL || s.noPair != 0 || s.fld Reg.MON_STATUS.ISOLATED != 0

/-- Assert SERVICE_N, raising SERVICE_ON the first time (R442). -/
def State.assertService (s : State) : State :=
  if s.bit Reg.FLT_STATUS.SERVICE then s else (s.setFld Reg.FLT_STATUS.SERVICE 1).raise Reg.FLT_EVENT.SERVICE_ON

/-- Announce an alarm's change on the Rime channel (R325). -/
def State.alarm (s : State) (code sev : Nat) (raised : Bool) (detail : Nat) : State :=
  { s with alarmQ := s.alarmQ ++ [⟨code, sev, raised, s.tick, detail⟩] }

/-- The degraded steps for one exhausted pool; its alarm waits for the end of boot (R449, R450). -/
def State.degradePool (s : State) (p : Nat × Nat) : State :=
  let s := (s.setFld Reg.FLT_STATUS.DEGRADED 1).setFld ⟨Reg.FLT_STATUS, p.1, p.1⟩ 1
  let s := (s.raiseOwn Reg.FLT_EVENT.DEGRADED).assertService.queueRec 0x000D 2 2 (leBytes 2 p.2)
  let s := if s.fld Reg.GLB_HOST_STATUS.BOOT_STEP = 7 then s.alarm 0x0001 2 true p.2
    else { s with boot := { s.boot with poolAlarms := s.boot.poolAlarms ++ [p.2] } }
  { s with boot := { s.boot with healthDegraded := true } }

/-- Take the degraded steps that are due (R449). -/
def State.degrade (s : State) : State := s.poolQ.foldl State.degradePool { s with poolQ := [] }

/-- FLT_SUMMARY and FAULT_N (R440, R441); a block whose bit rose owes a message (R443). -/
def State.aggregate (s : State) : State :=
  let v := s.summary
  let s := { s with newEv := s.newEv ||| (v ^^^ (v &&& (s.reg Reg.FLT_SUMMARY).toNat)) }
  let s := s.setReg Reg.FLT_SUMMARY (BitVec.ofNat 32 v)
  s.setFld Reg.FLT_STATUS.FAULT (b2n (v != 0 || s.bit Reg.FLT_STATUS.SEQ_HARD))

/-- One block's message: sent when an enabled bit of it was newly set, at most once in a tick (R443). -/
def State.blockMsg (s : State) (v : Nat) : State :=
  if s.newEv.testBit v && !s.msixSent.testBit v then
    ({ s with newEv := s.newEv - 2 ^ v, msixSent := s.msixSent ||| 2 ^ v }).msix v
  else s

/-- The vectors of the blocks (R494). -/
def blockVectors : List Nat := [0, 1, 2, 3, 4, 5, 6, 7, 8, 9, 10, 11, 12, 13, 16, 17, 18, 19, 20, 21, 24, 25, 26, 27, 28, 29]

/-- The messages of R443. -/
def State.blockMsgs (s : State) : State := blockVectors.foldl State.blockMsg s

/-- Phase 8: the degraded steps, SERVICE_N, FLT_SUMMARY and FAULT_N, the messages, the status page. -/
def State.phase8 (s : State) : State :=
  let s := s.degrade
  let s := if s.serviceDue then s.assertService else s
  s.aggregate.blockMsgs.refreshPage

/-! ### How a command runs -/

/-- A state as a command finds it: the last command's output is gone. -/
def State.cleared (s : State) : State := { s with out := [] }

/-- A command of the outside world: it does nothing while RESET_N is asserted (R508), and never touches the queue. -/
def State.cmd (s : State) (f : State → State) : State :=
  if s.held then s.cleared else { (f s.cleared).wraps with pending := s.pending }

/-- A step of the running tick's phases 2 to 7 that is a command of its own: phase 8 follows it (R30).  It does not
happen while no tick runs (R446, R448), nor in a tick that an overrun consumed (R34). -/
def State.cmdTick (s : State) (f : State → State) : State :=
  s.cmd fun s => if s.stalled || s.consumed then s else (f s).wraps.phase8

/-- The same for the phases, the datapath and the units that a thermal shutdown stops (R32, R395). -/
def State.cmdLive (s : State) (f : State → State) : State := s.cmdTick fun s => if s.down then s else f s

/-- A decision of phases 3 to 6, which comes before phase 7: none is made once a commit has taken effect in the running tick, so that each
is made under the configuration before it (R33). -/
def State.cmdDecide (s : State) (f : State → State) : State := s.cmdTick fun s => if s.acted then s else f s

/-- The same for what a thermal shutdown stops. -/
def State.cmdDecideLive (s : State) (f : State → State) : State := s.cmdLive fun s => if s.acted then s else f s

/-- A command of the datapath, which does nothing once a thermal shutdown has stopped the datapath's clocks (R395). -/
def State.cmdRun (s : State) (f : State → State) : State := s.cmd fun s => if s.down then s else f s

end Sys2Proof.Machine
end

