-- ==== Sys2Proof/Machine/Pmc.lean ====
section
/-! DEFINITION. Performance counters, snapshots, bandwidth windows, telemetry (chapter 16: R463-R480). -/

namespace Sys2Proof.Machine

/-! ### Indices -/

/-- The kind of counter k (R464): 0 unused, 1 event, 2 level, 3 amount. -/
def ctrKind (k : Nat) : Nat :=
  if (2688 ≤ k ∧ k < 3072) ∨ (4384 ≤ k ∧ k < 5120) then 0
  else if 192 ≤ k ∧ k < 1216 then 1
  else if 7168 ≤ k ∧ k < 8192 then [1, 3, 1, 1, 1, 1, 1, 3, 3, 1, 3, 1, 1, 1, 2, 0].getD (k % 16) 0
  else if 8192 ≤ k then [3, 1, 1, 1, 1, 1, 1, 1, 3, 1, 1, 1, 1, 1, 1, 2].getD (k % 16) 0
  else natBits (Config.catWord k) 1 0

/-- Whether counter k offers both counting styles. -/
def ctrBoth (k : Nat) : Nat :=
  if 7168 ≤ k ∧ k < 8192 then b2n (k % 16 == 14) else if 8192 ≤ k then b2n (k % 16 == 15) else natBits (Config.catWord k) 2 2

/-- The word PMC_CAT_k reads as: the catalogue's, with what R466 itself fixes. -/
def catRead (k : Nat) : Nat :=
  let c := Config.catWord k
  let src := if 7168 ≤ k ∧ k < 8192 then 11 else if 8192 ≤ k then 12 else natBits c 8 4
  let inst := if 7168 ≤ k ∧ k < 8192 then (k - 7168) / 16 else if 8192 ≤ k then (k - 8192) / 16 else natBits c 31 16
  ctrKind k + 4 * ctrBoth k + 16 * src + 512 * natBits c 14 9 + 65536 * inst

/-- The modes PMC_MODE_k accepts (R464). -/
def ctrModeOk (k v : Nat) : Bool :=
  match ctrKind k with
  | 1 => v == 0 || (ctrBoth k == 1 && v != 3)
  | 2 => v == 1 || v == 2 || (v == 0 && ctrBoth k == 1)
  | _ => v == 0

/-- Port p's counter at offset o, and channel n's (R466). -/
def portCtr (p o : Nat) : Nat := 7168 + 16 * p + o
def chanCtr (n o : Nat) : Nat := 8192 + 16 * n + o

/-- Add the time of one tick to a level counter by its mode: a rising edge, a tick, or 500 time-base cycles (R464). -/
def State.countLevel (s : State) (k : Nat) (rose : Bool) : State :=
  match s.sh (Reg.PMC_MODE.MODE k) with
  | 0 => if rose then s.count k 1 else s
  | 1 => s.count k 1
  | 2 => s.count k 500
  | _ => s

/-! ### Telemetry (R477-R479) -/

/-- The selected counters, in ascending order (R477). -/
def State.telSelected (s : State) : List Nat :=
  (s.regs.filter fun p => decide (0x401000 ≤ p.1) && decide (p.1 < 0x401800)).flatMap fun p =>
    (idxWhere 32 fun i => p.2.getLsbD i).map fun i => 8 * (p.1 - 0x401000) + i

/-- The bytes of one slot: 64 + 8n, rounded up to a multiple of 64 (R477). -/
def telSlotBytes (n : Nat) : Nat := (64 + 8 * n + 63) / 64 * 64

/-- The bytes of a record (R478). -/
def State.telRecord (s : State) (sn : Snap) (flags : Nat) : List Byte :=
  let sel := s.telSelected
  padTo (telSlotBytes sel.length)
    (leBytes 4 (s.fld Reg.PMC_TEL_SEQ.SEQ) ++ leBytes 2 sel.length ++ leBytes 1 flags ++ [0#8] ++ leBytes 8 sn.tick ++
     leBytes 8 sn.time ++ leBytes 4 (s.fld Reg.CFG_EPOCH.EPOCH) ++ leBytes 4 (s.fld Reg.PMC_TEL_DROP.DROP) ++
     List.replicate 32 0#8 ++ sel.flatMap fun k => leBytes 8 (sn.ctrs.get (fun _ => ({} : Ctr)) (ctrSlot k)).v)

/-- The wrap counts of the selected counters in a snapshot. -/
def State.telWraps (s : State) (sn : Snap) : List Nat := s.telSelected.map fun k => (sn.ctrs.get (fun _ => ({} : Ctr)) (ctrSlot k)).w

/-- Drop a record (R479). -/
def State.telDrop (s : State) : State :=
  let s := s.setFld Reg.PMC_TEL_DROP.DROP (satAdd 0xFFFFFFFF (s.fld Reg.PMC_TEL_DROP.DROP) 1)
  { s.raise Reg.PMC_EVENT.TEL_DROP with tel := { s.tel with dropped := true } }

/-- Produce the telemetry record of a formed snapshot: write it to the ring, or drop it; `busy` says that writes of the
previous record are still outstanding (R479). -/
def State.telemetry (s : State) (sn : Snap) (busy : Bool) : State :=
  if !(s.bit Reg.PMC_TEL_CTL.EN) then s
  else
    let s := { s with tel := { s.tel with count := s.tel.count + 1 } }
    if s.tel.count % (max 1 (s.fld Reg.PMC_TEL_CTL.DIV)) != 0 then s
    else
      let seq := s.fld Reg.PMC_TEL_SEQ.SEQ
      let size := 2 ^ s.fld Reg.PMC_TEL_CFG.LOG2
      let wr := s.fld Reg.PMC_TEL_WR.IDX
      let wrapped := decide (s.telWraps sn ≠ s.telSelected.map fun k => s.tel.prevW.get (fun _ => 0) k)
      let s' :=
        if !s.dmaOpen then
          ((s.telDrop).raise Reg.PMC_EVENT.TEL_ERR).setFld Reg.PMC_TEL_CTL.EN 0 |>.setFld Reg.PMC_STATUS.TEL_RUN 0
        else if ringFull size wr (s.fld Reg.PMC_TEL_RD.IDX) || busy then s.telDrop
        else
          let flags := b2n s.tel.missed + 2 * b2n wrapped + 4 * b2n s.tel.dropped
          let r := s.telRecord sn flags
          let s := s.dmaWrite (s.reg64 Reg.PMC_TEL_BASE_LO Reg.PMC_TEL_BASE_HI + wr * r.length) r
          let s := s.setFld Reg.PMC_TEL_WR.IDX (ringNext size wr)
          let s := { s with tel := { s.tel with missed := false, dropped := false } }
          if s.bit Reg.PMC_TEL_CTL.IRQ && !s.msixSent.testBit 13 then
            ({ s with msixSent := s.msixSent ||| 2 ^ 13 }).msix 13 else s
      let pw := (s.telSelected.zip (s.telWraps sn)).foldl (fun m p => SMap.set (fun _ => 0) m p.1 p.2) ([] : SMap Nat)
      ({ s' with tel := { s'.tel with prevW := pw } }).setFld Reg.PMC_TEL_SEQ.SEQ (seq + 1)

/-! ### Snapshots (R470, R471) -/

/-- Form a captured snapshot: the shadow bank, unless frozen, and telemetry. -/
def State.formSnap (s : State) (busy : Bool) : State :=
  match s.snapPend with
  | none => s
  | some sn =>
    let s := { s with snapPend := none }
    let s :=
      if s.bit Reg.PMC_SNAP_CTL.FREEZE then
        s.setFld Reg.PMC_SNAP_MISS.SKIPPED (satAdd 0xFFFF (s.fld Reg.PMC_SNAP_MISS.SKIPPED) 1)
      else
        ({ s with bank := sn.ctrs, bankTick := sn.tick, bankTime := sn.time }).setFld Reg.PMC_SNAP_GEN.GEN (s.fld Reg.PMC_SNAP_GEN.GEN + 1)
    s.telemetry sn busy

/-- Whether a snapshot is due at the boundary that starts the current tick by its period (R470). -/
def State.snapScheduled (s : State) : Bool :=
  s.tick != 0 && s.tick % (max 1 (s.fld Reg.PMC_SNAP_CFG.PERIOD)) == 0

/-- Whether a snapshot is due at the boundary that starts the current tick (R470). -/
def State.snapDue (s : State) : Bool := s.snapScheduled || s.bit Reg.PMC_SNAP_CTL.NOW

/-- Phase 1: capture a due snapshot of the counters as the last tick left them. -/
def State.captureSnap (s : State) (ctrs : SMap Ctr) : State :=
  if s.snapDue then
    ({ s with snapPend := some ⟨s.tick, s.timeNs, ctrs⟩ }).setFld Reg.PMC_SNAP_CTL.NOW 0
  else s

/-- A due snapshot on a consumed tick is missed (R471).  DESIGN CHOICE: one that NOW asked for is missed too, and NOW clears: R470 makes it
due at that boundary alone. -/
def State.missSnap (s : State) : State :=
  if s.snapDue then
    let s := (s.setFld Reg.PMC_SNAP_CTL.NOW 0).setFld Reg.PMC_SNAP_MISS.MISSED (satAdd 0xFFFF (s.fld Reg.PMC_SNAP_MISS.MISSED) 1)
    { s.raise Reg.PMC_EVENT.SNAP_MISS with tel := { s.tel with missed := true } }
  else s

/-- A preset clears a counter's wrap count; whether it wrapped since the last telemetry record stays known (R469, R478). -/
def State.presetWrap (s : State) (slot : Nat) : State :=
  let w := (s.ctr slot).w
  let at_ := s.telSelected.filter fun k => ctrSlot k == slot
  { s with tel := { s.tel with prevW := at_.foldl (fun m k => m.set (fun _ => 0) k (b2n (m.get (fun _ => 0) k != w))) s.tel.prevW } }

/-- Apply a requested preset at the boundary, after the capture; `ctrs` are the counters as the last tick left them, and what the new tick
has counted since is added after the preset (R469). -/
def State.applyPreset (s : State) (ctrs : SMap Ctr) : State :=
  if s.bit Reg.PMC_PRESET_IDX.GO then
    let k := ctrSlot (s.fld Reg.PMC_PRESET_IDX.INDEX)
    let c := s.ctr k
    let s := s.presetWrap k
    let s := { s with ctrs := s.ctrs.set (fun _ => {}) k { c with v := s.reg64 Reg.PMC_PRESET_LO Reg.PMC_PRESET_HI, w := 0 } }
    let s := s.count k ((c.v + 2 ^ 64 - (ctrs.get (fun _ => ({} : Ctr)) k).v) % 2 ^ 64)
    (s.setFld Reg.PMC_PRESET_IDX.GO 0).raise Reg.PMC_EVENT.PRESET
  else s

/-! ### Windows (R472-R474) -/

/-- A window. -/
def State.win (s : State) (w : Nat) : Win := s.wins.get (fun _ => {}) w
def State.setWin (s : State) (w : Nat) (x : Win) : State := { s with wins := s.wins.set (fun _ => {}) w x }

/-- The interval length L in ticks. -/
def State.winLen (s : State) (w : Nat) : Nat := s.fld (Reg.PMC_WIN_LEN.LEN_M1 w) + 1

/-- Add traffic to a window whose interval has begun. -/
def State.winAdd (s : State) (w bytes units : Nat) : State :=
  let x := s.win w
  if s.winOn.contains w && decide (x.start ≤ s.tick) then s.setWin w { x with bytes := x.bytes + bytes, units := x.units + units } else s

/-- The first boundary after the current tick that is a multiple of L. -/
def nextMultiple (t l : Nat) : Nat := (t / l + 1) * l

/-- Start a window afresh, once what it had finished is published: its first interval begins at the next boundary that is a multiple of L
(R473). -/
def State.winStart (s : State) (w : Nat) : State :=
  let l := s.winLen w
  let b := nextMultiple s.tick l
  s.setWin w { start := b, due := b + l }

/-- Publish a finished interval (R473). -/
def State.winPublish (s : State) (w : Nat) : State :=
  match (s.win w).fin with
  | none => s
  | some (b, u, t, e) =>
    let r := b * 8000 / (max 1 t)
    let s := s.setWin w { s.win w with fin := none }
    let s := s.setReg64 (Reg.PMC_WIN_BYTES_LO w) (Reg.PMC_WIN_BYTES_HI w) b
    let s := s.setReg64 (Reg.PMC_WIN_UNITS_LO w) (Reg.PMC_WIN_UNITS_HI w) u
    let s := s.setFld (Reg.PMC_WIN_RATE.R w) r
    let s := s.setFld (Reg.PMC_WIN_MIN.MIN_RATE w) (min (s.fld (Reg.PMC_WIN_MIN.MIN_RATE w)) (r % 2 ^ 32))
    let s := s.setFld (Reg.PMC_WIN_MAX.MAX_RATE w) (max (s.fld (Reg.PMC_WIN_MAX.MAX_RATE w)) (r % 2 ^ 32))
    let s := s.setReg64 (Reg.PMC_WIN_END_LO w) (Reg.PMC_WIN_END_HI w) e
    let s := s.setFld (Reg.PMC_WIN_CNT.WIN_CNT w) (s.fld (Reg.PMC_WIN_CNT.WIN_CNT w) + 1)
    s.setFld (Reg.PMC_WIN_INFO.IRREG w) (b2n (t != s.winLen w))

/-- Phase 1: close a window's interval whose end has come; the next begins at once (R473, R474). -/
def State.winBoundary (s : State) (w : Nat) : State :=
  let s := s.winPublish w
  let x := s.win w
  if x.due ≤ s.tick ∧ x.due ≠ 0 then
    s.setWin w { start := s.tick, due := nextMultiple s.tick (s.winLen w), fin := some (x.bytes, x.units, s.tick - x.start, s.tick) }
  else s

/-! ### Meanings -/

/-- SNAPSHOT (R470): the due snapshot captured in phase 1 is formed. -/
def execSnapshot (busy : Bool) (s : State) : Host.Outcome State Fault Refusal := .next (s.cmdTick (·.formSnap busy))

/-- WINDOW_INTERVAL_END (R473). -/
def execWindowIntervalEnd (w : Nat) (s : State) : Host.Outcome State Fault Refusal := .next (s.cmdTick (·.winPublish w))

end Sys2Proof.Machine
end

