-- ==== Sys2Proof/Machine/Flt.lean ====
section
/-! DEFINITION. The fault manager: Moraine, lockstep and watchdog, XO_IN, reset and reboot (chapter 15). -/

namespace Sys2Proof.Machine

open Sys2Proof (Rd Pg)

/-! ### Reset and reboot -/

/-- The block as a reset leaves it: what lies outside the reset (NVM, fuses, waiting commands) stays, and
FLT_RESET_CAUSE tells the cause (R425, R462). -/
def State.resetTo (s : State) (cause : Nat) : State :=
  ({ State.reset with nvm := s.nvm, fuses := s.fuses, pending := s.pending, freeCtr := s.freeCtr, pins := { smbAddr := s.pins.smbAddr } }).setFld
    Reg.FLT_RESET_CAUSE.CAUSE cause

/-- A reboot (R425). -/
def State.reboot (s : State) (cause : Nat) : State := s.resetTo cause

/-! ### NVM operations (R406) -/

/-- A read: the bytes, or none when it fails or times out. -/
def State.nvmRead (s : State) (a n : Nat) (r : Rd) : Option (List Byte) :=
  match r with
  | .ok => some (s.nvmBytes a n)
  | .flip i m => some ((s.nvmBytes a n).modify i (· ^^^ m))
  | .fail => none
  | .timeout => none

/-- Raise NVM_TIMEOUT when an operation timed out (R406). -/
def State.rdTimeout (s : State) (r : Rd) : State := s.raiseIf (r == .timeout) Reg.CFG_EVENT.NVM_TIMEOUT

/-- A program: NVM afterwards, and whether it succeeded.  A failed one leaves its first bytes programmed. -/
def State.nvmWrite (s : State) (a : Nat) (bs : List Byte) (p : Pg) : State × Bool :=
  match p with
  | .ok => ({ s with nvm := nvmProgram s.nvm a bs }, true)
  | .fail n => ({ s with nvm := nvmProgram s.nvm a (bs.take n) }, false)
  | .timeout n => (({ s with nvm := nvmProgram s.nvm a (bs.take n) }).raise Reg.CFG_EVENT.NVM_TIMEOUT, false)

/-- An erase of a range. -/
def State.nvmWipe (s : State) (a n : Nat) (p : Pg) : State × Bool :=
  match p with
  | .ok => ({ s with nvm := nvmErase s.nvm a n }, true)
  | .fail _ => (s, false)
  | .timeout _ => (s.raise Reg.CFG_EVENT.NVM_TIMEOUT, false)

/-! ### Moraine (R451-R458) -/

def morBase : Nat := 0x3100000

/-- The stored bytes of a record (R451). -/
def morBytes (seq : Nat) (r : MorRec) : List Byte :=
  let b := leBytes 4 seq ++ leBytes 2 r.kind ++ leBytes 1 r.sev ++ leBytes 1 r.src ++ leBytes 8 r.tick ++ leBytes 8 r.time ++
    leBytes 4 r.cfgEpoch ++ leBytes 4 r.imageVer ++ padTo 28 r.detail
  b ++ leBytes 4 (crc32 b)

/-- A stored record's SEQ, KIND and detail when its CRC is correct (R451). -/
def morParse (b : List Byte) : Option (Nat × Nat × List Byte) :=
  if ofLe (b.drop 60) = crc32 (b.take 60) ∧ b.length = 64 then
    some (ofLe (b.take 4), ofLe ((b.drop 4).take 2), (b.drop 32).take 28) else none

/-- Whether SEQ a is newer than SEQ b (R454). -/
def seqNewer (a b : Nat) : Bool :=
  let d := (a + 2 ^ 32 - b % 2 ^ 32) % 2 ^ 32
  decide (1 ≤ d) && decide (d < 2 ^ 31)

/-- The record indices with a programmed byte, ascending; every other record is erased. -/
def State.morIdxs (s : State) : List Nat :=
  ((s.nvm.filter fun p => decide (morBase ≤ p.1) && decide (p.1 < morBase + 0x400000)).map fun p => (p.1 - morBase) / 64).eraseDups

/-- The record at an index. -/
def State.morAt (s : State) (i : Nat) : Option (Nat × Nat × List Byte) := morParse (s.nvmBytes (morBase + 64 * i) 64)

/-- The valid records of a list of indices: index, SEQ, KIND, detail. -/
def State.morValid (s : State) (is : List Nat) : List (Nat × Nat × Nat × List Byte) :=
  is.filterMap fun i => (s.morAt i).map fun r => (i, r.1, r.2.1, r.2.2)

/-- The newest of a list of records (R454). -/
def morNewest (rs : List (Nat × Nat × Nat × List Byte)) : Option (Nat × Nat × Nat × List Byte) :=
  rs.foldl (fun best r => match best with
    | none => some r
    | some b => if seqNewer r.2.1 b.2.1 then some r else some b) none

/-- The records the boot read looks at: the first record of every sector, the sector of the newest first record in full,
and every sector whose first record is not valid (R454). -/
def State.morReadSet (s : State) : List (Nat × Nat × Nat × List Byte) :=
  let all := s.morValid s.morIdxs
  let firsts := all.filter fun r => r.1 % 64 == 0
  let lead := (morNewest firsts).map fun r => r.1 / 64
  all.filter fun r => r.1 % 64 == 0 || lead == some (r.1 / 64) || !(firsts.any fun f => f.1 / 64 == r.1 / 64)

/-- The governing record, reading back from the newest: the newest valid record whose KIND is not SEQUENCER (R454). -/
def State.morGoverning (s : State) (newest : Nat) : Option (Nat × List Byte) :=
  let back (i : Nat) : Nat := (newest + 65536 - i) % 65536
  let rs := (s.morValid s.morIdxs).filter fun r => r.2.2.1 != 0x0010
  (rs.foldl (fun best r => match best with
    | none => some r
    | some b => if back r.1 < back b.1 then some r else some b) none).map fun r => (r.2.2.1, r.2.2.2)

/-- The governing record of this boot is known: of kind rollback, it tells that a rollback was completed (R425).  ROLLBACK is raised and
announced at step 7; DEDUCED: at once where the read succeeds only later. -/
def State.rolledBack (s : State) : State :=
  if s.mor.governing.map (·.1) = some 3 then
    let s := s.setFld Reg.CFG_STATUS.ROLLED_BACK 1
    if s.fld Reg.GLB_HOST_STATUS.BOOT_STEP = 7 ∧ s.bit Reg.CFG_STATUS.SAFE = false then
      (s.raise Reg.CFG_EVENT.ROLLBACK).alarm 2 2 true (s.fld Reg.CFG_IMAGE_VER.VER)
    else s
  else s

/-- The read of R454, at boot step 6 and at each retry. -/
def State.morRead (s : State) (r : Rd) : State :=
  if (s.nvmRead morBase 0 r).isNone then
    let s := (s.rdTimeout r).raise Reg.FLT_EVENT.MOR_FAIL
    { s with mor := { s.mor with retryAt := some (s.tick + 1000000) } }
  else
    let s := (s.setFld Reg.FLT_STATUS.MOR_OK 1)
    match morNewest s.morReadSet with
    | none => { s with mor := { s.mor with readOk := true, retryAt := none, any := false } }
    | some n =>
      let s := { s with mor := { s.mor with readOk := true, retryAt := none, any := true, governing := s.morGoverning n.1 } }
      ((s.setFld Reg.FLT_MOR_IDX.IDX ((n.1 + 1) % 65536)).setFld Reg.FLT_MOR_SEQ.SEQ n.2.1).rolledBack

/-- Whether Moraine writes may run: the boot read has succeeded, the BOOT record is queued (which step 7 does, and the
records of steps 1 to 6 follow it), and the cooling gate does not hold (R457). -/
def State.morOpen (s : State) : Bool :=
  s.mor.readOk && !(s.bit Reg.THM_STATUS.GATE) && s.fld Reg.GLB_HOST_STATUS.BOOT_STEP == 7

/-- The position in the queue of the record to write next (R455, R457). -/
def State.morNext (s : State) : Option Nat :=
  match s.mor.allow with
  | some 0 => s.mor.queue.findIdx? fun r => r.kind == 1 || r.kind == 0x10
  | _ => if s.mor.queue.isEmpty then none else some 0

/-- Take a record out of the queue. -/
def State.morTake (s : State) (i : Nat) : State :=
  { s with mor := { s.mor with queue := s.mor.queue.eraseIdx i, fails := 0, allow := s.mor.allow.map (· - 1) } }

/-- The erase ahead after an attempt at the first index of sector k (R455). -/
def State.morErase (s : State) (i : Nat) (e : Pg) : State :=
  if i % 64 = 0 then (s.nvmWipe (morBase + 4096 * ((i / 64 + 1) % 1024)) 4096 e).1 else s

/-- How an attempt to write the record at position `qi` to index `i` ends: IDX moves on; success stores its SEQ and counts
it, a failure is tried again at the next index, and after four the record is lost (R455, R456). -/
def State.morEnd (s : State) (qi i seq kind : Nat) (good : Bool) : State :=
  let s := s.setFld Reg.FLT_MOR_IDX.IDX ((i + 1) % 65536)
  if good then
    let s := (s.morTake qi).setFld Reg.FLT_MOR_SEQ.SEQ seq
    ({ s with mor := { s.mor with any := true } }).count (208 + kind) 1
  else
    let s := s.raise Reg.FLT_EVENT.MOR_FAIL
    if s.mor.fails + 1 < 4 then { s with mor := { s.mor with fails := s.mor.fails + 1 } }
    else
      let s := s.morTake qi
      ({ s with mor := { s.mor with lost := satAdd 0xFFFF s.mor.lost 1 } }).raise Reg.FLT_EVENT.MOR_LOST

/-- One attempt to write the next record (R455, R456). -/
def State.morWrite (s : State) (p : Pg) (back : Bool) (e : Pg) : State :=
  match s.morOpen, s.morNext with
  | true, some qi =>
    match s.mor.queue[qi]? with
    | none => s
    | some r =>
      let i := s.fld Reg.FLT_MOR_IDX.IDX
      let seq := if s.mor.any then (s.fld Reg.FLT_MOR_SEQ.SEQ + 1) % 2 ^ 32 else 0
      let bs := morBytes seq r
      let w := s.nvmWrite (morBase + 64 * i) bs p
      (w.1.morEnd qi i seq r.kind (w.2 && back && w.1.nvmBytes (morBase + 64 * i) 64 == bs)).morErase i e
  | _, _ => s

/-- Put a record at the head of the queue (R457); a full queue loses it (R455). -/
def State.queueFirst (s : State) (kind sev src : Nat) (detail : List Byte) : State :=
  if s.mor.queue.length < 64 then
    { s with mor := { s.mor with queue := s.record kind sev src detail :: s.mor.queue, allow := s.mor.allow.map (· + 1) } }
  else s.loseRec

/-! ### The sequencer, the watchdog and XO_IN (R446-R448) -/

/-- The watchdog's steps: pins, WDOG, the SEQUENCER record (R447). -/
def State.wdogFire (s : State) (cause : Nat) : State :=
  let s := { s with stalled := true, wdogDone := true }
  let s := (s.setFld Reg.FLT_STATUS.FAULT 1).assertService
  (s.raiseOwn Reg.FLT_EVENT.WDOG).queueRec 0x0010 2 2 ([BitVec.ofNat 8 cause, 0#8, 0#8, 0#8] ++ leBytes 4 (s.fld Reg.FLT_SEQ_CNT.CNT))

/-- One lockstep mismatch: counted and raised; the tick's work is discarded and run again from its checkpoint, so that
nothing of it shows; a second mismatch in the tick sets SEQ_HARD (R446). -/
def State.lockstep (s : State) : State :=
  if s.stalled then s
  else
    let s := s.setFld Reg.FLT_SEQ_CNT.CNT (satAdd 0xFFFF (s.fld Reg.FLT_SEQ_CNT.CNT) 1)
    let s := s.raise Reg.FLT_EVENT.SEQ_FAULT
    if s.lockTick == some s.tick then (s.setFld Reg.FLT_STATUS.SEQ_HARD 1).wdogFire 1
    else { s with lockTick := some s.tick }

/-- The watchdog expires 64 µs or more after the last phase 8 (R447). -/
def State.wdog (s : State) (us : Nat) : State := if 64 ≤ us ∧ s.wdogDone = false then s.wdogFire 2 else s

/-- The reboot of R447 step 3: the SEQUENCER record is written, or 10 ms have passed since expiry. -/
def State.wdogReboot (s : State) (ms : Nat) : State :=
  if s.wdogDone && s.bit Reg.FLT_CTL.WDOG_REBOOT && (decide (10 ≤ ms) || !(s.mor.queue.any fun r => r.kind == 0x10)) then s.reboot 3 else s

/-- Whether some reference input is qualified. -/
def State.anyQualified (s : State) : Bool := (List.range 14).any fun i => s.bit (Reg.CLK_IN_STATUS.QUALIFIED i)

/-- The time base has no source: XO_IN is failed and no input is qualified (R448). -/
def State.noSource (s : State) : Bool := s.bit Reg.FLT_STATUS.XO_FAIL && !s.anyQualified

/-- XO_IN is failed: raised when it is found so; with no qualified input the time base has no source and ticks stop (R448).
`edgeUs` microseconds without an edge, or `offUs` microseconds at more than 50 ppm from `vs` (true: the selected input
while LOCKED; false: the PCI Express reference clock while it is present and usable). -/
def State.xoFail (s : State) (edgeUs offUs : Nat) (vsInput : Bool) : State :=
  let usable := if vsInput then s.fld Reg.CLK_STATUS.STATE == 1 else s.pcie.refclk && !s.pcie.ssc
  if s.bit Reg.FLT_STATUS.XO_FAIL = false ∧ (10 ≤ edgeUs ∨ (100 ≤ offUs ∧ usable = true)) then
    let s := (s.setFld Reg.FLT_STATUS.XO_FAIL 1).raise Reg.FLT_EVENT.XO_FAIL
    { s with stalled := s.stalled || s.noSource }
  else s

/-! ### Meanings -/

/-- LOCKSTEP_MISMATCH (R446). -/
def execLockstepMismatch (s : State) : Host.Outcome State Fault Refusal := .next (s.cmd State.lockstep)
/-- WDOG (R447). -/
def execWdog (us : Nat) (s : State) : Host.Outcome State Fault Refusal := .next (s.cmd (·.wdog us))
/-- WATCHDOG_REBOOT (R447). -/
def execWatchdogReboot (ms : Nat) (s : State) : Host.Outcome State Fault Refusal := .next (s.cmd (·.wdogReboot ms))
/-- XO_FAIL (R448). -/
def execXoFail (edgeUs offUs : Nat) (vsInput : Bool) (s : State) : Host.Outcome State Fault Refusal :=
  .next (s.cmd (·.xoFail edgeUs offUs vsInput))
/-- ELASTIC_STORE_FAULT (R40): reported to the fault manager; the spec names no EVENT bit for it. -/
def execElasticStoreFault (crossing : Nat) (s : State) : Host.Outcome State Fault Refusal :=
  .next (s.cmd fun s => { s with esFaults := s.esFaults ++ [(crossing, s.tick)] })
/-- MORAINE_WRITE (R455). -/
def execMoraineWrite (p : Pg) (back : Bool) (e : Pg) (s : State) : Host.Outcome State Fault Refusal :=
  .next (s.cmd (·.morWrite p back e))
/-- MORAINE_READ_RETRY (R454). -/
def execMoraineReadRetry (r : Rd) (s : State) : Host.Outcome State Fault Refusal :=
  .next (s.cmd fun s => match s.mor.retryAt with
    | some t => if t ≤ s.tick then s.morRead r else s
    | none => s)

end Sys2Proof.Machine
end

