-- ==== Sys2Proof/Machine/Mem.lean ====
section
/-! DEFINITION. Protected memory: the lane code, the staging memory, the repeat tracker, row repair, fault injection
(chapter 12: R367-R384). -/

namespace Sys2Proof.Machine

/-! ### The lane code (R368) -/

/-- The parity-check columns of data bits 0 to 31. -/
def hsiaoCols : List Nat :=
  [0x07, 0x0B, 0x0D, 0x0E, 0x13, 0x15, 0x16, 0x19, 0x1A, 0x1C, 0x23, 0x25, 0x26, 0x29, 0x2A, 0x2C,
   0x31, 0x32, 0x34, 0x38, 0x43, 0x45, 0x46, 0x49, 0x4A, 0x4C, 0x51, 0x52, 0x54, 0x58, 0x61, 0x62]

/-- The check bits of 32 bits of data. -/
def hsiaoCheck (d : Nat) : Nat := (idxWhere 32 d.testBit).foldl (fun a j => a ^^^ hsiaoCols.getD j 0) 0

/-- What a read's syndrome says (R368). -/
inductive LaneRead where
  | clean
  /-- One data bit in error, or a check bit (none). -/
  | corrected (bit : Option Nat)
  | uncorr
  deriving DecidableEq, Repr

def laneRead (syn : Nat) : LaneRead :=
  if syn = 0 then .clean
  else match hsiaoCols.findIdx? (· == syn) with
    | some j => .corrected (some j)
    | none => if [1, 2, 4, 8, 16, 32, 64].contains syn then .corrected none else .uncorr

/-- The data after correction. -/
def laneFix (d : Nat) : LaneRead → Nat
  | .corrected (some j) => d ^^^ 2 ^ j
  | _ => d

/-! ### Classes and macros (R367) -/

/-- The class of a macro. -/
def memClass (inst : Nat) : Nat :=
  if inst < 512 then 0 else if inst < 768 then 1 else if inst < 960 then 2 else if inst < 1088 then 3
  else if inst < 1120 then 4 else if inst < 1184 then 5 else if inst < 1248 then 6 else if inst < 1264 then 7 else 8

/-- The line engine that owns a macro of class 2 to 4: each class lists LNA's or tile A's macros first. -/
def memLine (inst : Nat) : Nat :=
  if inst < 864 then 0 else if inst < 960 then 1 else if inst < 1024 then 0 else if inst < 1088 then 1
  else if inst < 1104 then 0 else 1

/-- The macro, word and lane of a staging lane number (byte offset ÷ 4). -/
def laneInst (lane : Nat) : Nat := 1120 + lane / 16384
def laneWord (lane : Nat) : Nat := lane % 16384 / 4
def laneSub (lane : Nat) : Nat := lane % 4

/-- The number of a lane among those of all macros, and the first of the staging memory's. -/
def laneKey (inst word lane : Nat) : Nat := 4 * (4096 * inst + word) + lane
def stFirst : Nat := 18350080

/-! ### Staging memory as stored -/

def memZero : Nat → Byte := fun _ => 0#8
def synZero : Nat → Nat := fun _ => 0

/-- A staging byte as stored. -/
def State.stByte (s : State) (a : Nat) : Byte := s.mem.data.get memZero a

/-- A lane's stored data and the syndrome it reads with. -/
def State.laneData (s : State) (lane : Nat) : Nat := ofLe ((List.range 4).map fun i => s.stByte (4 * lane + i))
def State.laneSyn (s : State) (lane : Nat) : Nat := s.mem.syn.get synZero (stFirst + lane)

/-- Store bytes of staging data. -/
def putBytes (m : SMap Byte) : Nat → List Byte → SMap Byte
  | _, [] => m
  | a, b :: bs => putBytes (m.set memZero a b) (a + 1) bs

/-- Store a lane's codeword: its data, and the syndrome it will read with. -/
def State.putLane (s : State) (lane d syn : Nat) : State :=
  { s with mem := { s.mem with data := putBytes s.mem.data (4 * lane) (leBytes 4 d), syn := s.mem.syn.set synZero (stFirst + lane) syn } }

/-- The change of a lane's syndrome by a 39-bit mask over its codeword. -/
def maskSyn (mask : Nat) : Nat := hsiaoCheck (mask % 2 ^ 32) ^^^ (mask / 2 ^ 32) % 128

/-- Set the syndrome that a lane of any macro reads with. -/
def State.setSyn (s : State) (key syn : Nat) : State := { s with mem := { s.mem with syn := s.mem.syn.set synZero key syn } }

/-- Flip bits of a stored codeword by a 39-bit mask (an upset, or R381's injection). -/
def State.flipLane (s : State) (lane mask : Nat) : State :=
  s.putLane lane (s.laneData lane ^^^ mask % 2 ^ 32) (s.laneSyn lane ^^^ maskSyn mask)

/-! ### The repair log (R378, R436) -/

/-- Record a repair in Moraine and queue its repair-log entry: KIND, STATE, location bytes. -/
def State.logRepair (s : State) (src kind st : Nat) (loc : List Byte) : State :=
  let e := leBytes 2 kind ++ leBytes 1 st ++ [0#8] ++ padTo 8 loc
  let s := s.queueRec 0x0009 1 src e
  { s with mem := { s.mem with mapQ := s.mem.mapQ ++ [MapJob.mk e none] } }

/-! ### Row repair (R377-R380) -/

def natZero : Nat → Nat := fun _ => 0

def State.spareState (s : State) (inst i : Nat) : Nat := s.mem.spare.get natZero (4 * inst + i)

/-- A macro's free spare rows. -/
def State.freeSpares (s : State) (inst : Nat) : List Nat := idxWhere 4 fun i => s.spareState inst i == 0

/-- Fewest free spare rows in any macro. -/
def State.sparesMin (s : State) : Nat :=
  (s.mem.spare.map fun p => (s.freeSpares (p.1 / 4)).length).foldl min 4

/-- A macro's spare rows as MEM_MACRO_m shows them (R384).  DEDUCED: a failed spare stays counted with those that took it, and
one reserved for a pending move is used. -/
def State.macroNow (s : State) (m : Nat) : Nat :=
  let n (k : Nat) := (idxWhere 4 fun i => s.spareState m i == k).length
  n 1 + n 5 + 4 * (n 2 + n 3 + n 4) + (if s.bit Reg.MEM_STATUS.SWEEP_DONE then 32 * (s.freeSpares m).length else 0) +
    256 * b2n (s.mem.pend.any fun p => p.1 == m)

/-- The word MEM_MACRO_m reads as: what a tick's repairs change shows from the next boundary on (R31). -/
def State.macroWord (s : State) (m : Nat) : Nat := (s.mem.was.get (fun _ => none) m).getD (s.macroNow m)

/-- A macro's spare rows are about to change in this tick. -/
def State.noteMacro (s : State) (m : Nat) : State := { s with mem := { s.mem with was := s.mem.was.set (fun _ => none) m (some (s.macroWord m)) } }

/-- The lanes of a row. -/
def rowLanes (inst row : Nat) : List Nat := (List.range 32).map fun i => laneKey inst (8 * row) i

/-- The lanes of a row whose copy on the spare differs from the old copy: correctable lanes are written fresh,
uncorrectable lanes poisoned (R377). -/
def State.rowCopy (s : State) (inst row : Nat) : List LaneCopy :=
  ((rowLanes inst row).filter fun k => s.mem.syn.get synZero k != 0).map fun k =>
    let d := if stFirst ≤ k then s.laneData (k - stFirst) else 0
    match laneRead (s.mem.syn.get synZero k) with
    | .uncorr => LaneCopy.mk k d 3
    | r => LaneCopy.mk k (laneFix d r) 0

/-- A spare is marked failed. -/
def failSpare (m : SMap Nat) (k : Nat) : SMap Nat := m.set natZero k (if m.get natZero k = 1 ∨ m.get natZero k = 5 then 5 else 3)

/-- Take a spare for a row: the spare the row lay on is marked failed (R377). -/
def State.takeSpare (s : State) (inst row i : Nat) : State :=
  let old := s.mem.rowMap.get natZero (512 * inst + row)
  let s := s.noteMacro inst
  let sp := s.mem.spare.set natZero (4 * inst + i) 2
  let sp := if old = 0 then sp else failSpare sp (4 * inst + (old - 1))
  { s with mem := { s.mem with spare := sp, rowMap := s.mem.rowMap.set natZero (512 * inst + row) (i + 1) } }

/-- The first exhaustion of the spare-row pool: some macro has no free spare (R380). -/
def State.checkRowPool (s : State) (inst : Nat) : State :=
  if (s.freeSpares inst).isEmpty && !(s.bit Reg.MEM_STATUS.EXHAUSTED) then
    let s := (s.setFld Reg.MEM_STATUS.EXHAUSTED 1).raise Reg.MEM_EVENT.EXHAUSTED
    { s with poolQ := s.poolQ ++ [(3, 3 + 0xFF00)] }
  else s

/-- Record a row's move, with the spare it left when it had one. -/
def State.logRow (s : State) (inst row i st old : Nat) : State :=
  let s := s.logRepair 9 0x0004 st (leBytes 2 inst ++ leBytes 2 row ++ leBytes 1 i)
  if old = 0 then s else s.logRepair 9 0x0005 0x02 (leBytes 2 inst ++ [0#8, 0#8] ++ leBytes 1 (old - 1))

/-- A named row is moved hitlessly, marked pending with a spare reserved, or left where it is (R377, R380). -/
def State.repairRow (s : State) (r : Nat × Nat) : State :=
  let inst := r.1
  let row := r.2
  let c := memClass inst
  match s.freeSpares inst with
  | [] => s.raise Reg.MEM_EVENT.NO_SPARE
  | i :: _ =>
    let old := s.mem.rowMap.get natZero (512 * inst + row)
    if 2 ≤ c ∧ c ≤ 4 then
      let s := s.noteMacro inst
      let s := { s with mem := { s.mem with pend := s.mem.pend ++ [(inst, row, i)], spare := s.mem.spare.set natZero (4 * inst + i) 4 } }
      let s := (s.publish Reg.MEM_STATUS.PEND 1).raise Reg.MEM_EVENT.REPAIR_PEND
      (s.logRepair 9 0x0004 0x01 (leBytes 2 inst ++ leBytes 2 row ++ leBytes 1 i)).checkRowPool inst
    else
      let cp := s.rowCopy inst row
      let s := s.takeSpare inst row i
      let s := { s with mem := { s.mem with moving := s.mem.moving ++ [RowMove.mk inst row i cp] } }
      (s.logRow inst row i 0x02 old).checkRowPool inst

/-- Put a named row into its place: rows of one macro in increasing order (R377). -/
def nameRow (r : Nat × Nat) : List (Nat × Nat) → List (Nat × Nat)
  | [] => [r]
  | x :: xs => if r.1 < x.1 ∨ (r.1 = x.1 ∧ r.2 ≤ x.2) then r :: x :: xs else x :: nameRow r xs

/-- Phase 6: the rows named in the tick are repaired, in increasing order (R377). -/
def State.repairRows (s : State) : State := s.mem.named.foldl State.repairRow { s with mem := { s.mem with named := [] } }

/-- Free the tracker entries of a row. -/
def State.freeRow (s : State) (inst row : Nat) : State :=
  (List.range 32).foldl (fun s e =>
    let c := memClass inst
    if s.bit (Reg.MEM_TRACK.VALID c e) && s.fld (Reg.MEM_TRACK.INSTANCE c e) == inst && s.fld (Reg.MEM_TRACK.WORD c e) / 8 == row then
      s.setReg (Reg.MEM_TRACK c e) 0 else s) s

/-- Every lane of a row has been written: its next correction counts (R375). -/
def State.rowWritten (s : State) (inst row : Nat) : State :=
  { s with mem := { s.mem with trkWr := (List.range 8).foldl (fun m i => m.set natZero (4096 * inst + 8 * row + i) 0) s.mem.trkWr } }

/-- A lane's copy on the spare becomes the row's. -/
def State.putCopy (s : State) (l : LaneCopy) : State :=
  if stFirst ≤ l.lane ∧ l.lane < stFirst + 1048576 then s.putLane (l.lane - stFirst) l.data l.syn else s.setSyn l.lane l.syn

/-- At a boundary, publish one move: the spare's copies become the row's (R377). -/
def State.publishMove (s : State) (m : RowMove) : State :=
  let s := (m.lanes.foldl State.putCopy s).rowWritten m.inst m.row
  (s.freeRow m.inst m.row).raiseAt Reg.MEM_EVENT.REPAIRED (memClass m.inst)

/-- At a boundary, publish the moves of the tick before. -/
def State.publishMoves (s : State) : State :=
  let ms := s.mem.moving
  let s := ms.foldl State.publishMove { s with mem := { s.mem with moving := [], was := [] } }
  s.setFldIf (!ms.isEmpty && s.bit Reg.MEM_STATUS.SWEEP_DONE) Reg.MEM_STATUS.SPARES_MIN s.sparesMin

/-- The mark of a lane whose row moved while frames were in flight: what was written before the switch reads as uncorrectable,
until the lane is written (R377). -/
def moveLost : Nat := 128

/-- Apply one pending move (R377, R382): the row moves to the spare reserved for it. -/
def State.applyPend (s : State) (p : Nat × Nat × Nat) : State :=
  let old := s.mem.rowMap.get natZero (512 * p.1 + p.2.1)
  let s := { s.noteMacro p.1 with mem := { (s.noteMacro p.1).mem with pend := s.mem.pend.erase p } }.takeSpare p.1 p.2.1 p.2.2
  let s := ((rowLanes p.1 p.2.1).foldl (fun (s : State) k => s.setSyn k moveLost) s).rowWritten p.1 p.2.1
  ((s.logRow p.1 p.2.1 p.2.2 0x02 old).freeRow p.1 p.2.1).raiseAt Reg.MEM_EVENT.REPAIRED (memClass p.1)

/-- Apply the pending moves of a line engine's macros. -/
def State.applyPendLine (s : State) (l : Nat) : State :=
  let s := (s.mem.pend.filter fun p => memLine p.1 == l).foldl State.applyPend s
  let s := s.publish Reg.MEM_STATUS.PEND (b2n (!s.mem.pend.isEmpty))
  if s.bit Reg.MEM_STATUS.SWEEP_DONE then s.publish Reg.MEM_STATUS.SPARES_MIN s.sparesMin else s

/-- The macros of classes 2 to 4 of a line engine. -/
def lineMacro (l inst : Nat) : Bool := decide (2 ≤ memClass inst) && decide (memClass inst ≤ 4) && memLine inst == l

/-- A line engine that becomes enabled has its macros of classes 2 to 4 swept, their pending moves applied first: every word is written
with zero data and valid check bits (R45, R382). -/
def State.sweepLine (s : State) (l : Nat) : State :=
  let s := s.applyPendLine l
  { s with mem := { s.mem with syn := s.mem.syn.filter fun p => !lineMacro l (p.1 / 16384), trkWr := s.mem.trkWr.filter fun p => !lineMacro l (p.1 / 4096) } }

/-! ### The repeat tracker (R375, R376) -/

/-- The tracker entry of a word, if it has one. -/
def State.trkFind (s : State) (c inst word : Nat) : Option Nat :=
  (List.range 32).find? fun e =>
    s.bit (Reg.MEM_TRACK.VALID c e) && s.fld (Reg.MEM_TRACK.INSTANCE c e) == inst && s.fld (Reg.MEM_TRACK.WORD c e) == word

/-- The entry a new word takes: a free one, or the one with the smallest count, the oldest among equals (R375). -/
def State.trkVictim (s : State) (c : Nat) : Nat :=
  match (List.range 32).find? fun e => !(s.bit (Reg.MEM_TRACK.VALID c e)) with
  | some e => e
  | none =>
    let key (e : Nat) : Nat := s.fld (Reg.MEM_TRACK.COUNT c e) * 2 ^ 64 + s.mem.trkAge.get natZero (32 * c + e)
    (List.range 32).foldl (fun b e => if key e < key b then e else b) 0

/-- The value of a MEM_TRACK register that is in use (R375). -/
def trkWord (inst word n : Nat) : Word := BitVec.ofNat 32 (inst + 2 ^ 11 * word + 2 ^ 23 * (min n 255) + 2 ^ 31)

/-- Set an entry's count and note that the correction was counted. -/
def State.trkSet (s : State) (c e inst word n : Nat) (fresh : Bool) : State :=
  let s := s.setReg (Reg.MEM_TRACK c e) (trkWord inst word n)
  let s := { s with mem := { s.mem with trkWr := s.mem.trkWr.set natZero (4096 * inst + word) 16 } }
  if fresh then { s with mem := { s.mem with trkAge := s.mem.trkAge.set natZero (32 * c + e) s.mem.trkNext, trkNext := s.mem.trkNext + 1 } }
  else s

/-- Offer a correction, or an uncorrectable read (which counts at once as reaching the threshold, R373), to the
tracker of its class. -/
def State.trkOffer (s : State) (inst word lane : Nat) (hard : Bool) : State :=
  let c := memClass inst
  let th := s.fld Reg.MEM_CTL.THRESH
  let found := s.trkFind c inst word
  let e := found.getD (s.trkVictim c)
  let cnt := if found.isSome then s.fld (Reg.MEM_TRACK.COUNT c e) else 0
  let wr := s.mem.trkWr.get natZero (4096 * inst + word)
  let counted := hard || wr == 0 || wr.testBit lane
  if !counted then s
  else
    let n := if hard then max th (cnt + 1) else cnt + 1
    let n := if (s.reg Reg.MEM_CTL).getLsbD c then n else min n th
    let s := s.trkSet c e inst word n found.isNone
    let row := (inst, word / 8)
    let busy := s.mem.named.contains row || (s.mem.pend.any fun p => (p.1, p.2.1) == row) || s.mem.moving.any fun m => (m.inst, m.row) == row
    if n < th || (busy && !hard && decide (th ≤ cnt)) then s
    else
      let s := s.raise Reg.MEM_EVENT.REPEAT
      if (s.reg Reg.MEM_CTL).getLsbD c && !busy then { s with mem := { s.mem with named := nameRow row s.mem.named } } else s

/-- Note that a lane was written (R375). -/
def State.trkWrote (s : State) (inst word lane : Nat) : State :=
  let k := 4096 * inst + word
  let wr := s.mem.trkWr.get natZero k
  if wr = 0 then s else { s with mem := { s.mem with trkWr := s.mem.trkWr.set natZero k (wr ||| 2 ^ lane) } }

/-! ### Reporting (R370-R373) -/

/-- Log the first uncorrectable read or write since VALID was cleared, with the tick of the access. -/
def State.logUncorr (s : State) (inst word lane syn : Nat) (rmw : Bool) (at_ : Nat) : State :=
  if s.bit Reg.MEM_ERR_LOG_0.VALID then s
  else
    let s := s.setReg Reg.MEM_ERR_LOG_0
      (BitVec.ofNat 32 (inst + 2 ^ 11 * lane + 2 ^ 13 * syn + 2 ^ 20 * b2n (syn == 3) + 2 ^ 21 * b2n rmw + 2 ^ 31))
    (s.setFld Reg.MEM_ERR_LOG_1.WORD word).setFld Reg.MEM_ERR_LOG_2.TICK at_

/-- A correctable error was found: by a read (R370), or healed by a read-modify-write (R371). -/
def State.reportCorr (s : State) (inst word lane : Nat) (rmw : Bool) : State :=
  let s := if rmw then s.raiseAt Reg.MEM_EVENT.HEALED (memClass inst) else s.raiseAt Reg.MEM_EVENT.CORR (memClass inst)
  s.trkOffer inst word lane false

/-- An uncorrectable or poison read was found (R373). -/
def State.reportUncorr (s : State) (inst word lane syn : Nat) (rmw : Bool) (at_ : Nat) : State :=
  let s := s.raiseAt Reg.MEM_EVENT.UNCORR (memClass inst)
  let s := s.logUncorr inst word lane syn rmw at_
  if syn = 3 then s.raiseAt Reg.MEM_EVENT.POISON (memClass inst) else s.trkOffer inst word lane true

/-- The mask of an armed injection (R381). -/
def State.injMask (s : State) : Nat := s.fld Reg.MEM_INJ_MASK_LO.DATA + 2 ^ 32 * s.fld Reg.MEM_INJ_MASK_HI.CHECK

/-- A unit wrote a lane of a macro of its own, leaving it with a syndrome; an injection armed for it is spent on it (R375, R381). -/
def State.memWrote (s : State) (inst word lane syn : Nat) : State :=
  let k := laneKey inst word lane
  let s := { s with mem := { s.mem with moving := s.mem.moving.map fun (m : RowMove) => { m with lanes := m.lanes.filter fun x => x.lane != k } } }
  let s := (s.trkWrote inst word lane).setSyn k syn
  if s.bit Reg.MEM_INJ_CTL.ARM && s.fld Reg.MEM_INJ_CTL.INSTANCE == inst && s.fld Reg.MEM_INJ_CTL.LANE == lane then
    ((s.setSyn k (syn ^^^ maskSyn s.injMask)).setFld Reg.MEM_INJ_CTL.ARM 0).raiseAt Reg.MEM_EVENT.INJECTED (memClass inst)
  else s

/-- One error a unit met in a macro of its own during the last tick; a read-modify-write stores the lane again (R371, R372).  DEDUCED:
a read that a row's switch made uncorrectable has R374's consequence and is no error of the memory to report (R377). -/
def State.memErr (s : State) (e : MemErr) : State :=
  if e.syn = moveLost then (if e.rmw then s.memWrote e.inst e.word e.lane 3 else s)
  else match laneRead e.syn with
  | .clean => s
  | .corrected _ =>
    let s := s.reportCorr e.inst e.word e.lane e.rmw
    if e.rmw then s.memWrote e.inst e.word e.lane 0 else s
  | .uncorr =>
    let s := s.reportUncorr e.inst e.word e.lane e.syn e.rmw (s.tick - 1)
    if e.rmw then (s.memWrote e.inst e.word e.lane 3).raiseAt Reg.MEM_EVENT.WRITE_ERR (memClass e.inst) else s

/-- What a unit's read of a lane meets: the error that the lane holds. -/
def State.heldErr (s : State) (inst word lane : Nat) (rmw : Bool) (set : Nat) : MemErr :=
  ⟨inst, word, lane, s.mem.syn.get synZero (laneKey inst word lane), rmw, set⟩

/-- One access of a unit, as phase 2 latches it. -/
def State.memAcc (s : State) (a : MemAcc) : State :=
  match a with
  | .wrote inst word lane => s.memWrote inst word lane 0
  | .read inst word lane set => s.memErr (s.heldErr inst word lane false set)
  | .merge inst word lane set =>
    let e := s.heldErr inst word lane true set
    if e.syn = 0 then s.memWrote inst word lane 0 else s.memErr e
  | .err e => (s.setSyn (laneKey e.inst e.word e.lane) e.syn).memErr e

/-! ### Staging accesses -/

/-- Store a lane, with the armed injection when it aims at this write (R381). -/
def State.storeLane (s : State) (lane d syn : Nat) : State :=
  let inst := laneInst lane
  let s := { s with mem := { s.mem with moving := s.mem.moving.map fun (m : RowMove) => { m with lanes := m.lanes.filter fun l => l.lane != stFirst + lane } } }
  let s := (s.putLane lane d syn).trkWrote inst (laneWord lane) (laneSub lane)
  if s.bit Reg.MEM_INJ_CTL.ARM && s.fld Reg.MEM_INJ_CTL.INSTANCE == inst && s.fld Reg.MEM_INJ_CTL.LANE == laneSub lane then
    let s := s.flipLane lane s.injMask
    (s.setFld Reg.MEM_INJ_CTL.ARM 0).raiseAt Reg.MEM_EVENT.INJECTED 5
  else s

/-- Read one lane: its data as the reader gets it, whether it is uncorrectable, and the reports. -/
def State.readLane (s : State) (lane : Nat) : Nat × Bool × State :=
  let d := s.laneData lane
  let syn := s.laneSyn lane
  match laneRead syn with
  | .clean => (d, false, s)
  | .uncorr => (d, true, s.reportUncorr (laneInst lane) (laneWord lane) (laneSub lane) syn false s.tick)
  | r => (laneFix d r, false, s.reportCorr (laneInst lane) (laneWord lane) (laneSub lane) false)

/-- Merge bytes into a lane by a read-modify-write: `mask` has bit i set for byte i (R369, R371, R372).  The flag says
that the lane was left poisoned. -/
def State.mergeLane (s : State) (lane mask d : Nat) : Bool × State :=
  let old := s.laneData lane
  let syn := s.laneSyn lane
  let inst := laneInst lane
  let w := laneWord lane
  let mix (base : Nat) : Nat :=
    (List.range 4).foldl (fun a i => a + ((if mask.testBit i then natBits d (8 * i + 7) (8 * i) else natBits base (8 * i + 7) (8 * i)) * 2 ^ (8 * i))) 0
  match laneRead syn with
  | .clean => (false, s.storeLane lane (mix old) 0)
  | .uncorr =>
    let s := (s.reportUncorr inst w (laneSub lane) syn true s.tick).storeLane lane (mix old) 3
    (true, s.raiseAt Reg.MEM_EVENT.WRITE_ERR 5)
  | r => (false, (s.reportCorr inst w (laneSub lane) true).storeLane lane (mix (laneFix old r)) 0)

/-- The lanes an access of `n` bytes at offset `a` touches. -/
def lanesOf (a n : Nat) : List Nat := if n = 0 then [] else (List.range ((a + n - 1) / 4 - a / 4 + 1)).map (a / 4 + ·)

/-- Read bytes of staging: the bytes, the first uncorrectable lane, and the reports. -/
def State.stRead (s : State) (a n : Nat) : List Byte × Option Nat × State :=
  let r := (lanesOf a n).foldl (fun (acc : List Byte × Option Nat × State) lane =>
    let x := acc.2.2.readLane lane
    (acc.1 ++ leBytes 4 x.1, if acc.2.1.isNone && x.2.1 then some lane else acc.2.1, x.2.2)) ([], none, s)
  ((r.1.drop (a % 4)).take n, r.2.1, r.2.2)

/-- Write bytes of staging: whole lanes are stored, parts of lanes merged (R369).  The first lane left poisoned is told. -/
def State.stWrite (s : State) (a : Nat) (bs : List Byte) : Option Nat × State :=
  (lanesOf a bs.length).foldl (fun (acc : Option Nat × State) lane =>
    let byteAt (i : Nat) : Option Byte := if a ≤ 4 * lane + i then bs[4 * lane + i - a]? else none
    let mask := (List.range 4).foldl (fun m i => if (byteAt i).isSome then m + 2 ^ i else m) 0
    let d := ofLe ((List.range 4).map fun i => (byteAt i).getD 0#8)
    if mask = 15 then (acc.1, acc.2.storeLane lane d 0)
    else
      let r := acc.2.mergeLane lane mask d
      (if acc.1.isNone && r.1 then some lane else acc.1, r.2)) (none, s)

/-- Upsets of staging cells that happened before an access: lane and 39-bit mask. -/
def State.upsets (s : State) (us : List (Nat × Nat)) : State := us.foldl (fun s u => s.flipLane u.1 u.2) s

/-! ### BAR4 (R383, R492) -/

def stBytes : Nat := 4194304

/-- Log the first access error of R492. -/
def State.accErr (s : State) (off kind : Nat) : State :=
  let s := s.raise Reg.GLB_HOST_EVENT.ACC_ERR
  if s.bit Reg.GLB_ACC_LOG_0.VALID then s
  else (s.setReg Reg.GLB_ACC_LOG_0 (BitVec.ofNat 32 (off % 2 ^ 22 + 2 ^ 22 * kind + 2 ^ 31))).setFld Reg.GLB_ACC_LOG_1.TICK s.tick

/-- A host read of staging memory: data, poisoned on an uncorrectable lane, or zero before SWEEP_DONE. -/
def State.bar4Read (s : State) (a n : Nat) : State :=
  if s.pcie.d3hot || decide (stBytes < a + n) then s
  else if s.bit Reg.MEM_STATUS.SWEEP_DONE then
    let r := s.stRead a n
    let s' := r.2.2.emit (.readData (ofLe r.1) r.2.1.isSome)
    match r.2.1 with
    | some lane => s'.accErr (max a (4 * lane)) 0
    | none => s'
  else ((s.emit (.readData 0 false)).accErr a 2).count (miscCtr 9 0) 1

/-- A host write to staging memory; discarded before SWEEP_DONE. -/
def State.bar4Write (s : State) (a : Nat) (bs : List Byte) : State :=
  if s.pcie.d3hot || decide (stBytes < a + bs.length) then s
  else if s.bit Reg.MEM_STATUS.SWEEP_DONE then
    let r := s.stWrite a bs
    match r.1 with
    | some lane => r.2.accErr (max a (4 * lane)) 1
    | none => r.2
  else (s.accErr a 2).count (miscCtr 9 1) 1

/-! ### The sweep (R382) -/

/-- The initialisation sweep of boot: every word zero with valid check bits. -/
def State.sweep (s : State) : State :=
  let s := { s with mem := { s.mem with data := [], syn := [] } }
  (s.setFld Reg.MEM_STATUS.SWEEP_DONE 1).setFld Reg.MEM_STATUS.SPARES_MIN s.sparesMin

/-! ### Other steps -/

/-- Halve one entry's count; an emptied entry is freed. -/
def State.halveTrack (s : State) (i : Nat) : State :=
  let off := 0x80100 + 4 * i
  let n := s.fld ⟨off, 30, 23⟩ / 2
  if n = 0 then s.setReg off 0 else s.setFld ⟨off, 30, 23⟩ n

/-- Every DECAY_S seconds all counts are halved and emptied entries freed (R376). -/
def State.trackerDecay (s : State) : State :=
  let d := s.fld Reg.MEM_TRACK_CFG.DECAY_S
  if d = 0 ∨ s.tick = 0 ∨ s.tick % (d * 1000000) ≠ 0 ∨ s.mem.decayDone = s.tick then s
  else
    let s := { s with mem := { s.mem with decayDone := s.tick } }
    (List.range 288).foldl State.halveTrack s

/-- The address of an entry of the repair log (R436). -/
def mapAddr (i : Nat) : Nat := 0x3520000 + 16 * i

/-- The program of a repair-log entry ends (R378, R436). -/
def State.mapWrite (s : State) (p : Pg) : State :=
  match s.mem.mapQ.findIdx? (·.waitUntil.isNone) with
  | none => s
  | some qi =>
    match s.mem.mapQ[qi]? with
    | none => s
    | some j =>
      if 8192 ≤ s.mem.mapNext then
        ({ s with mem := { s.mem with mapQ := s.mem.mapQ.eraseIdx qi } }).raise Reg.CFG_EVENT.REPAIR_FULL
      else
        let b := padTo 12 j.entry
        let bs := b ++ leBytes 4 (crc32 b)
        let w := s.nvmWrite (mapAddr s.mem.mapNext) bs p
        if w.2 then { w.1 with mem := { w.1.mem with mapQ := s.mem.mapQ.eraseIdx qi, mapNext := s.mem.mapNext + 1 } }
        else
          let q := s.mem.mapQ.set qi { j with waitUntil := some (s.tick + 1000000) }
          ({ w.1 with mem := { w.1.mem with mapQ := q, mapNext := s.mem.mapNext + 1 } }).raise Reg.MEM_EVENT.MAP_WR_FAIL

/-- A failed repair-map write is tried again every second (R378). -/
def State.mapRetry (s : State) : State :=
  { s with mem := { s.mem with mapQ := s.mem.mapQ.map fun j =>
      match j.waitUntil with
      | some t => if t ≤ s.tick then { j with waitUntil := none } else j
      | none => j } }

/-! ### Meanings -/

/-- BAR4_READ (R370, R383, R492); `ups` are the upsets that struck staging cells since the last access. -/
def execBar4Read (a n : Nat) (ups : List (Nat × Nat)) (s : State) : Host.Outcome State Fault Refusal :=
  .next (s.cmd fun s => (s.upsets ups).bar4Read a n)
/-- BAR4_WRITE (R369, R371, R372). -/
def execBar4Write (a : Nat) (bs : List Byte) (ups : List (Nat × Nat)) (s : State) : Host.Outcome State Fault Refusal :=
  .next (s.cmd fun s => (s.upsets ups).bar4Write a bs)
/-- TRACKER_DECAY (R376). -/
def execTrackerDecay (s : State) : Host.Outcome State Fault Refusal := .next (s.cmdDecide State.trackerDecay)
/-- REPAIR_MAP_WRITE (R378). -/
def execRepairMapWrite (p : Pg) (s : State) : Host.Outcome State Fault Refusal := .next (s.cmd (·.mapWrite p))
/-- MAP_WRITE_RETRY (R378). -/
def execMapWriteRetry (s : State) : Host.Outcome State Fault Refusal := .next (s.cmd State.mapRetry)

end Sys2Proof.Machine
end

