-- ==== Sys2Proof/Machine/Rules.lean ====
section
/-! DEFINITION. Acceptance rules of register values: legal ranges (R17), self-clearing bits, and the owning chapters'
own rules, stated over any reader of registers so that a host write and an image are judged alike (R414, R491). -/

namespace Sys2Proof.Machine

/-- The fields of the register at an offset. -/
def regFlds (off : Nat) : List Fld := match regDesc off with | some r => r.flds | none => []

/-- The mask of a field's bits. -/
def fldMask (f : Fld) : Nat := (2 ^ (f.hi + 1 - f.lo) - 1) * 2 ^ f.lo

/-- The bits of a register that some field of the given kinds covers. -/
def maskOf (off : Nat) (p : Fld → Bool) : Nat := ((regFlds off).filter p).foldl (fun a f => a ||| fldMask f) 0

/-- Whether a field can be written by the host. -/
def Acc.writable : Acc → Bool
  | .rw => true
  | .wo => true
  | .rwo => true
  | _ => false

/-- The bits that clear themselves (R490): offset in LNA's layout, mask. -/
def selfClearMask (off : Nat) : Nat :=
  let o := localOff off
  if o = 0x100118 ∨ o = 0x100128 then 1 else if o = 0x280050 then 0x10 else if o = 0x2A0020 then 1
  else if o = 0x60008 then 1 else if o = 0x60230 then 0x1800 else if o = 0x200000 then 0x10000
  else if o = 0x240000 then 1 else if o = 0x240108 then 1 else if o = 0x70060 then 0x20000
  else if o = 0x5002C then 3 else if o = 0x50088 ∨ o = 0x50098 ∨ o = 0x500A8 ∨ o = 0x500B8 then 1
  else if o = 0x80048 then 0x2000 else if o = 0x38000 ∨ o = 0x38004 ∨ o = 0x38008 then 0x400
  else if o = 0x38020 then 0x100 else if o = 0x10060 then 0x40 else if o = 0x2004C then 1
  else if o = 0x400004 then 2 else if o = 0x400050 then 0x4000
  else if 0x600000 ≤ o ∧ o < 0x612000 ∧ (o - 0x600000) % 64 = 4 then 2
  else if 0xA0424 ≤ o ∧ o < 0xA0800 ∧ (o - 0xA0424) % 0x40 = 0 then 1
  else 0

/-- A field of a register read through a given reader. -/
def lookFld (look : Nat → Word) (f : Fr) : Nat := getBits (look f.off) f.hi f.lo

/-- The bandwidth range of CLK_BW_t in mHz (R347). -/
def clkBwOk (t v : Nat) : Bool :=
  match t with
  | 0 => decide (10 ≤ v) && decide (v ≤ 10000)
  | 1 => decide (1 ≤ v) && decide (v ≤ 100)
  | 2 => decide (100 ≤ v) && decide (v ≤ 10000)
  | _ => decide (1000 ≤ v) && decide (v ≤ 1000000)

/-- The sources a monitor unit's list may name (R398). -/
def monSrcOk (u src : Nat) : Bool :=
  src ≤ 2 || (if u = 0 then (decide (0x10 ≤ src) && decide (src ≤ 0x14)) || src == 0x17 || src == 0x18 || (decide (0x40 ≤ src) && decide (src ≤ 0x43))
    else src == 0x12 || (decide (0x15 ≤ src) && decide (src ≤ 0x17)))
  || (if u = 0 then decide (0x20 ≤ src) && decide (src < 0x30) else if u = 1 then decide (0x30 ≤ src) && decide (src < 0x34)
      else decide (0x34 ≤ src) && decide (src < 0x38))

/-- Whether a channel label is not reserved (R77). -/
def labelOk (v : Nat) : Bool := decide (v ≤ 4) || v == 0x10 || v == 0x20 || decide (0x80 ≤ v)

/-- Legal values that depend on the index of a register or on a second field, or lie in several ranges (R17, R77, R190, R347, R352,
R398, R431, R464). -/
def legalExtra (off : Nat) (v : Word) : Bool :=
  if 0x40010 ≤ off ∧ off < 0x40020 then clkBwOk ((off - 0x40010) / 4) (getBits v 19 0)
  else if 0x38100 ≤ off ∧ off < 0x38400 then monSrcOk ((off - 0x38100) / 0x100) (getBits v 7 0)
  else if 0x101000 ≤ off ∧ off < 0x101800 then labelOk (getBits v 27 20)
  else if 0x410000 ≤ off ∧ off < 0x420000 then ctrModeOk ((off - 0x410000) / 4) (getBits v 1 0)
  else if 0x280100 ≤ localOff off ∧ localOff off < 0x280140 then fmtLegal v
  else if off = 0x5002C then !(v.getLsbD 0 && v.getLsbD 1)
  else if off = 0x100C0 then !v.getLsbD 16 || getBits v 15 0 == 0xA5C3
  else true

/-- Whether every writable field of a register would hold a legal value (R17). -/
def legalWord (off : Nat) (v : Word) : Bool :=
  ((regFlds off).all fun f => !f.acc.writable || f.legal.ok (getBits v f.hi f.lo)) && legalExtra off v

/-- Whether reserved bits are zero (R16). -/
def reservedZero (off : Nat) (v : Word) : Bool := (v.toNat &&& (0xFFFFFFFF ^^^ maskOf off fun _ => true)) == 0

end Sys2Proof.Machine
end

