-- ==== Sys2Proof/Machine/ChapRules.lean ====
section
/-! DEFINITION. The owning chapters' acceptance rules for register values, over any reader of registers (R414, R491). -/

namespace Sys2Proof.Machine

/-! ### Host ports and FlexE groups (R50, R54, R500) -/

/-- The lanes of a port type. -/
def portLanes (t : Nat) : Nat := [0, 1, 2, 4, 8, 1].getD t 0

def portType (look : Nat → Word) (p : Nat) : Nat := lookFld look (Reg.HST_PORT_CFG.TYPE p)

/-- Whether a valid PHY entry of a group names a port of the FlexE type, and shares neither port nor number with
another (R500). -/
def phyOk (look : Nat → Word) (g i : Nat) : Bool :=
  let valid (j : Nat) : Bool := lookFld look (Reg.HST_FXG_PHY.VALID g j) == 1
  let port (j : Nat) : Nat := lookFld look (Reg.HST_FXG_PHY.PORT g j)
  let num (j : Nat) : Nat := lookFld look (Reg.HST_FXG_PHY.PHY_NUM g j)
  !valid i || (portType look (port i) == 5 && (List.range 8).all fun j => j == i || !valid j || (port j != port i && num j != num i))

/-- Whether port p of a new type takes lanes that no other port has, and every PHY that names it stays a FlexE PHY. -/
def portOk (look : Nat → Word) (p : Nat) : Bool :=
  let t := portType look p
  let k := portLanes t
  (k == 0 || (p % k == 0 && ((List.range k).all fun i => i == 0 || portType look (p + i) == 0) &&
    ((List.range 64).all fun q => decide (p ≤ q) || decide (q + portLanes (portType look q) ≤ p)))) &&
  (t == 5 || (List.range 16).all fun g => (List.range 8).all fun i =>
    lookFld look (Reg.HST_FXG_PHY.VALID g i) == 0 || lookFld look (Reg.HST_FXG_PHY.PORT g i) != p)

/-- Whether a FlexE group has a client in the client map (R500). -/
def hasClient (look : Nat → Word) (g c : Nat) : Bool :=
  (List.range 256).any fun k => lookFld look (Reg.FLO_FXC.VALID k) == 1 && lookFld look (Reg.FLO_FXC.GROUP k) == g && lookFld look (Reg.FLO_FXC.CLIENT_ID k) == c

/-- Whether a calendar entry's client appears in the client map. -/
def calOk (look : Nat → Word) (g c s : Nat) : Bool :=
  let v := lookFld look (Reg.HST_FXG_CAL.CLIENT g c s)
  v == 0 || hasClient look g v

/-! ### VLAN and client maps (R93) -/

/-- Whether a valid VLAN entry shares PORT and VID with no other valid one. -/
def vlanOk (look : Nat → Word) (k : Nat) : Bool :=
  lookFld look (Reg.FLO_VLAN.VALID k) == 0 || (List.range 2048).all fun j => j == k || lookFld look (Reg.FLO_VLAN.VALID j) == 0 ||
    lookFld look (Reg.FLO_VLAN.PORT j) != lookFld look (Reg.FLO_VLAN.PORT k) || lookFld look (Reg.FLO_VLAN.VID j) != lookFld look (Reg.FLO_VLAN.VID k)

/-- Whether a valid client entry shares GROUP and CLIENT_ID with no other valid one. -/
def fxcOk (look : Nat → Word) (k : Nat) : Bool :=
  lookFld look (Reg.FLO_FXC.VALID k) == 0 || (List.range 256).all fun j => j == k || lookFld look (Reg.FLO_FXC.VALID j) == 0 ||
    lookFld look (Reg.FLO_FXC.GROUP j) != lookFld look (Reg.FLO_FXC.GROUP k) || lookFld look (Reg.FLO_FXC.CLIENT_ID j) != lookFld look (Reg.FLO_FXC.CLIENT_ID k)

/-- Whether the calendars of the group an entry named before still name clients of the map only. -/
def fxcLeft (old look : Nat → Word) (k : Nat) : Bool :=
  lookFld old (Reg.FLO_FXC.VALID k) == 0 || (
    let g := lookFld old (Reg.FLO_FXC.GROUP k)
    let c := lookFld old (Reg.FLO_FXC.CLIENT_ID k)
    hasClient look g c || (List.range 2).all fun b => (List.range 160).all fun s => lookFld look (Reg.HST_FXG_CAL.CLIENT g b s) != c)

/-! ### Key slots (R145) -/

/-- The slots that a key register names, by phase. -/
def namedKeys (look : Nat → Word) (off : Nat) : List Nat :=
  [0, 1].filterMap fun p => if lookFld look ⟨off, 8 * p + 6, 8 * p + 6⟩ == 1 then some (lookFld look ⟨off, 8 * p + 5, 8 * p⟩) else none

/-- Whether every slot a key register names has the usage, and no slot is named by the transmit fields of both lines. -/
def keysOk (look : Nat → Word) (l : Nat) (tx : Bool) : Bool :=
  let off := if tx then Reg.LCY_TX_KEY l else Reg.LCY_RX_KEY l
  let ks := namedKeys look off
  (ks.all fun k => lookFld look (Reg.CPH_KEY_STATE.USAGE k) == (if tx then 1 else 2)) &&
  (!tx || ks.all fun k => !((namedKeys look (Reg.LCY_TX_KEY (1 - l))).contains k))

/-! ### The rule of a register -/

/-- Whether the owning chapter accepts the value `look` reads at a register, `old` reading what stood before. -/
def chapterRule (old look : Nat → Word) (off : Nat) : Bool :=
  if 0xA0100 ≤ off ∧ off < 0xA0200 then portOk look ((off - 0xA0100) / 4)
  else if 0xA0400 ≤ off ∧ off < 0xA0800 then
    let g := (off - 0xA0400) / 0x40
    let i := (off - 0xA0400) % 0x40 / 4
    i == 0 || decide (9 ≤ i) || phyOk look g (i - 1)
  else if 0xB0000 ≤ off ∧ off < 0xC0000 then calOk look ((off - 0xB0000) / 0x1000) ((off - 0xB0000) % 0x1000 / 0x800) ((off - 0xB0000) % 0x800 / 4)
  else if 0x120000 ≤ off ∧ off < 0x122000 then vlanOk look ((off - 0x120000) / 4)
  else if 0x122000 ≤ off ∧ off < 0x122400 then fxcOk look ((off - 0x122000) / 4) && fxcLeft old look ((off - 0x122000) / 4)
  else if localOff off = 0x2A0010 then keysOk look (off / 0x100000 - 2) true
  else if localOff off = 0x2A0014 then keysOk look (off / 0x100000 - 2) false
  else if off = 0x80048 then lookFld look Reg.MEM_INJ_CTL.ARM == 0 || look Reg.MEM_INJ_MASK_LO != 0 || look Reg.MEM_INJ_MASK_HI != 0
  else if off = 0x2004C then
    lookFld look Reg.FLT_MOR_RD_CTL.GO == 0 || decide (lookFld look Reg.FLT_MOR_RD_DST.OFFSET + 64 * lookFld look Reg.FLT_MOR_RD_CNT.CNT ≤ stBytes)
  else if off = 0x400050 then lookFld look Reg.PMC_PRESET_IDX.GO == 0 || ctrKind (lookFld look Reg.PMC_PRESET_IDX.INDEX) != 0
  else true

/-- Whether the owning chapter accepts a value for a register, the other registers being as `look` reads them. -/
def chapterOk (look : Nat → Word) (off : Nat) (w : Word) : Bool :=
  chapterRule look (fun o => if o = off then w else look o) off

end Sys2Proof.Machine
end

