-- ==== Sys2Proof/Machine/Image.lean ====
section
/-! DEFINITION. Rosoa images: header, records, change classes, authentication (R410-R416, R423). -/

namespace Sys2Proof.Machine

/-! ### Slots and headers -/

/-- The address of a slot's status sector, and of its image region (R407). -/
def slotBase (s : Nat) : Nat := 0x100000 + 0xC00000 * s
def imageBase (s : Nat) : Nat := slotBase s + 0x1000
def imageRegion : Nat := 12578816

/-- Little-endian fields of a byte list. -/
def le (b : List Byte) (at_ n : Nat) : Nat := ofLe ((b.drop at_).take n)

/-- Whether a 64-byte image header is valid (R411). -/
def headerOk (minVer : Nat) (h : List Byte) : Bool :=
  h.length == 64 && le h 0 4 == 0x414F534F && le h 4 2 == 1 && le h 6 2 == 0 && le h 34 14 == 0 &&
  decide (1 ≤ le h 8 4) && decide (le h 8 4 ≤ 0xFFFFFFFE) && decide (minVer ≤ le h 8 4) && (le h 20 4).testBit 12 &&
  decide (64 ≤ le h 24 4) && decide (le h 24 4 ≤ imageRegion) && le h 24 4 % 4 == 0 &&
  (le h 32 2 == 0 || (decide (5 ≤ le h 32 2) && decide (le h 32 2 ≤ 600)))

def imgVer (h : List Byte) : Nat := le h 8 4
def imgLen (h : List Byte) : Nat := le h 24 4
def imgRecs (h : List Byte) : Nat := le h 28 4
def imgHealthS (h : List Byte) : Nat := le h 32 2

/-- Whether the CMAC of a whole image matches (R410). -/
def imageCmacOk (key img : List Byte) : Bool := aesCmac key (img.take 48 ++ img.drop 64) == (img.drop 48).take 16

/-! ### Records (R412, R413) -/

structure ImgRec where
  type : Nat
  cls : Nat
  opt : Bool
  val : List Byte
  deriving DecidableEq, Repr

/-- Cut the records out of an image: those cut, and whether they fill it exactly.  `n` bounds their number. -/
def cutRecords : Nat → List Byte → List ImgRec × Bool
  | 0, b => ([], b.isEmpty)
  | n + 1, b =>
    if b.isEmpty then ([], true)
    else
      let len := le b 4 4
      let padded := (len + 3) / 4 * 4
      let c := le b 2 1
      let o := le b 3 1
      if decide (b.length < 8 + padded) || decide (3 ≤ c) || decide (2 ≤ o) || le b (8 + len) (padded - len) != 0 then ([], false)
      else
        let rs := cutRecords n (b.drop (8 + padded))
        (⟨le b 0 2, c, o == 1, (b.drop 8).take len⟩ :: rs.1, rs.2)

/-- Words of a byte list, four bytes each. -/
def wordsOf : Nat → List Byte → List Word
  | 0, _ => []
  | n + 1, b => if b.length < 4 then [] else BitVec.ofNat 32 (le b 0 4) :: wordsOf n (b.drop 4)

/-- Offset and value pairs of a REGS value. -/
def pairsOf : Nat → List Byte → List (Nat × Word)
  | 0, _ => []
  | n + 1, b => if b.length < 8 then [] else (le b 0 4, BitVec.ofNat 32 (le b 4 4)) :: pairsOf n (b.drop 8)

/-- The register writes of a REGS or BLOCK record. -/
def recRegs (r : ImgRec) : List (Nat × Word) :=
  if r.type = 1 then pairsOf r.val.length r.val
  else if r.type = 2 then
    (wordsOf r.val.length (r.val.drop 4)).zipIdx.map fun p => (le r.val 0 4 + 4 * p.2, p.1)
  else []

/-! ### Change classes (R415) -/

/-- What an RWO field's change waits for: the activation tick, a transmit frame, a received frame, or both frames. -/
inductive Side where
  | tick | tx (l : Nat) | rx (l : Nat) | both (l : Nat)
  deriving DecidableEq, Repr

/-- The class (0 hitless, 1 channel-affecting, 2 line-affecting) and side of an RWO field. -/
def rwoClass (off lo : Nat) : Nat × Side :=
  if 0x200000 ≤ off ∧ off < 0x400000 then
    let l := if off < 0x300000 then 0 else 1
    let o := localOff off
    if o = 0x280000 then (if lo = 8 then (2, .tx l) else if lo = 16 then (2, .rx l) else if lo = 0 then (2, .both l) else (0, .tick))
    else if o = 0x280040 then (if lo = 0 then (2, .tx l) else (2, .rx l))
    else if o = 0x2A0000 then (2, .tx l)
    else if o = 0x220000 then (if lo = 8 ∨ lo = 12 then (2, .tx l) else (0, .tick))
    else if 0x221000 ≤ o ∧ o < 0x221400 then (2, .tx l)
    else if o = 0x260000 then (2, .rx l)
    else if 0x240000 ≤ o ∧ o < 0x260000 then (2, .rx l)
    else (0, .tick)
  else if (0x100000 ≤ off ∧ off < 0x200000) ∨ (0xA0000 ≤ off ∧ off < 0x100000) then (1, .tick)
  else if off = 0x94 then (2, .tick)
  else (0, .tick)

/-- The highest class among the RWO fields of a register. -/
def regClass (off : Nat) : Nat := ((regFlds off).filter fun f => f.acc == .rwo).foldl (fun a f => max a (rwoClass off f.lo).1) 0

/-! ### Judging records (R414) -/

/-- Whether a register value an image carries is valid by itself. -/
def imgRegOk (look : Nat → Word) (p : Nat × Word) : Bool :=
  p.1 % 4 == 0 && (regDesc p.1).isSome && (regFlds p.1).any (fun f => f.acc == .rw || f.acc == .rwo) &&
  (p.2.toNat &&& (0xFFFFFFFF ^^^ maskOf p.1 fun f => f.acc == .rw || f.acc == .rwo)) == 0 &&
  !(decide (0x10000 ≤ p.1) && decide (p.1 < 0x20000)) && !(decide (0x60100 ≤ p.1) && decide (p.1 ≤ 0x60234)) &&
  !(decide (0x110000 ≤ p.1) && decide (p.1 < 0x120000)) && (p.2.toNat &&& selfClearMask p.1) == 0 &&
  legalWord p.1 p.2 && chapterOk look p.1 p.2

/-- Whether a health condition is legal (R423). -/
def condOk (c : List Byte) : Bool :=
  let code := le c 0 2
  let par := le c 2 1
  let th := le c 4 4
  le c 3 1 == 0 &&
  (match code with
   | 1 | 2 => decide (par ≤ 1) && th == 0
   | 3 => decide (par ≤ 1) && decide (-32768 ≤ sx 32 th) && decide (sx 32 th ≤ 32767)
   | 5 => par == 0 && decide (th ≤ 256)
   | 4 | 6 | 7 => par == 0 && th == 0
   | _ => false)

/-- The conditions of a HEALTH record. -/
def condsOf : Nat → List Byte → List (List Byte)
  | 0, _ => []
  | n + 1, b => if b.length < 8 then [] else b.take 8 :: condsOf n (b.drop 8)

/-- Whether one record is valid, its register values judged with `look` reading the other registers.  A KEY record's usage and the integrity
of its key are judged when it is loaded (R158, R429). -/
def recOk (look : Nat → Word) (r : ImgRec) : Bool :=
  match r.type with
  | 1 => r.val.length % 8 == 0 && (recRegs r).all fun p => imgRegOk look p && decide (regClass p.1 ≤ r.cls)
  | 2 => r.val.length % 4 == 0 && decide (4 ≤ r.val.length) && le r.val 0 4 % 4 == 0 && (regDesc (le r.val 0 4)).isSome && (recRegs r).all fun p => imgRegOk look p && decide (regClass p.1 ≤ r.cls)
  | 3 => r.val.length == 6404 && decide (le r.val 0 1 ≤ 1) && le r.val 1 3 == 0 && decide (1 ≤ r.cls) &&
      (List.range 3200).all fun i => natBits (le r.val (4 + 2 * i) 2) 14 9 == 0
  | 4 => r.val.length == 44 && decide (le r.val 0 1 ≤ 62) && le r.val 2 2 == 0
  | 5 => r.val.length == 24 && le r.val 22 2 == 0
  | 6 => r.val.length % 8 == 0 && decide (8 ≤ r.val.length) && decide (r.val.length ≤ 128) && (condsOf 16 r.val).all condOk
  | _ => r.opt

/-- The values the records carry. -/
def recVals (rs : List ImgRec) : ImageVals :=
  { regs := rs.flatMap recRegs,
    cals := (rs.filter fun r => r.type == 3).map fun r => (le r.val 0 1, (List.range 3200).map fun i => le r.val (4 + 2 * i) 2),
    keys := (rs.filter fun r => r.type == 4).map fun r => (le r.val 0 1, le r.val 1 1, r.val.drop 4),
    rimeId := ((rs.find? fun r => r.type == 5).map (·.val)),
    health := ((rs.find? fun r => r.type == 6).map fun r => condsOf 16 r.val).getD [] }

/-- The verdict on an image's records: its values, or the index of the record at fault. -/
inductive Verdict where
  | good (v : ImageVals)
  | bad (rec_ : Nat)
  deriving DecidableEq, Repr

/-- Judge the records of an image whose header is `h` (R412-R415); `base` reads what the image does not write, and its KEY
records give their slots' usage.  The record at fault is the first that is invalid, the first that does not fit or is beyond
REC_COUNT, or the second HEALTH record. -/
def judge (h img : List Byte) (base : Nat → Word) : Verdict :=
  let cut := cutRecords (imgRecs h + 1) (img.drop 64)
  let rs := cut.1
  let vals := recVals rs
  let look (off : Nat) : Word :=
    match vals.regs.reverse.find? fun p => p.1 == off, vals.keys.find? fun k => Reg.CPH_KEY_STATE k.1 == off with
    | some p, _ => p.2
    | none, some k => setBits (base off) 2 0 k.2.1
    | none, none => base off
  match rs.findIdx? fun r => !(recOk look r) with
  | some i => .bad i
  | none =>
    if !cut.2 || rs.length != imgRecs h then .bad (min rs.length (imgRecs h))
    else match (rs.zipIdx.filter fun r => r.1.type == 6).drop 1 with
      | r :: _ => .bad r.2
      | [] => .good vals

/-! ### Laying an image's values over registers -/

/-- A register with the fields a selection names taken from an image: an RWO field from the image or, where no record
writes it, its reset value (R433); an RW field from the image, where a record writes its register. -/
def mergeWord (off : Nat) (sel : Fld → Bool) (img : Option Word) (cur : Word) : Word :=
  (regFlds off).foldl (fun w f =>
    if !sel f then w
    else match f.acc, img with
      | .rwo, some v => setBits w f.hi f.lo (getBits v f.hi f.lo)
      | .rwo, none => setBits w f.hi f.lo (getBits (regReset off) f.hi f.lo)
      | .rw, some v => setBits w f.hi f.lo (getBits v f.hi f.lo)
      | _, _ => w) cur

/-- The offsets an image can change: those it writes, and those that differ from reset. -/
def State.touched (s : State) (v : ImageVals) : List Nat := ((s.regs.map (·.1)) ++ v.regs.map (·.1)).eraseDups

/-- The image's word for a register. -/
def imgWord (v : ImageVals) (off : Nat) : Option Word := (v.regs.reverse.find? fun p => p.1 == off).map (·.2)

/-- Lay the fields of a selection over the registers, and note each change for publication (R31, R41). -/
def State.layRegs (s : State) (v : ImageVals) (sel : Nat → Fld → Bool) : State :=
  (s.touched v).foldl (fun s off =>
    let w := mergeWord off (sel off) (imgWord v off) (s.reg off)
    if w = s.reg off then s else (s.setReg off w).dueShadow off) s

end Sys2Proof.Machine
end

