-- ==== Sys2Proof/Machine/Cph.lean ====
section
/-! DEFINITION. The boot epoch, the key slots and the cipher request engine (R133-R137, R155-R163, R486). -/

namespace Sys2Proof.Machine

/-! ### The boot epoch (R133-R137) -/

def epochBase : Nat := 0x3540000

/-- A valid epoch record's EPOCH (R133). -/
def epochParse (b : List Byte) : Option Nat :=
  if ofLe (b.drop 12) = crc32 (b.take 12) ∧ le b 4 4 = 0xFFFFFFFF - le b 0 4 ∧ b.length = 16 then some (le b 0 4) else none

/-- The indices of epoch records with a programmed byte; every other record is erased. -/
def State.epochIdxs (s : State) : List Nat :=
  ((s.nvm.filter fun p => decide (epochBase ≤ p.1) && decide (p.1 < epochBase + 0x40000)).map fun p => (p.1 - epochBase) / 16).eraseDups

def State.epochAt (s : State) (i : Nat) : List Byte := s.nvmBytes (epochBase + 16 * i) 16

/-- Whether an epoch record is erased. -/
def State.epochErased (s : State) (i : Nat) : Bool := !(s.epochIdxs.contains i)

/-- E: the largest EPOCH among the valid records, 0 when none is (R134 step 1). -/
def State.epochMax (s : State) : Nat := (s.epochIdxs.filterMap fun i => epochParse (s.epochAt i)).foldl max 0

/-- Whether a sector of the epoch area is fully erased. -/
def State.epochSectorErased (s : State) (k : Nat) : Bool := !(s.epochIdxs.any fun i => i / 256 == k)

/-- The reference record of R134: the valid record holding E; of several, the one that lies fewest records before the
first record of a fully erased sector, or the one with the highest index when there is none. -/
def State.epochRef (s : State) : Option Nat :=
  let e := s.epochMax
  let holders := s.epochIdxs.filter fun i => epochParse (s.epochAt i) == some e
  let gap (i : Nat) : Nat :=
    ((List.range 64).filter s.epochSectorErased).foldl (fun a k => min a ((k * 256 + 16384 - i) % 16384)) 16384
  holders.foldl (fun best i => match best with
    | none => some i
    | some b => if gap i < gap b ∨ (gap i = gap b ∧ b < i) then some i else some b) none

/-- The first erased record from an index on, in ring order. -/
@[irreducible]
def State.epochFree (s : State) (from_ : Nat) : Option Nat :=
  (((List.range 16384).map fun d => (from_ + d) % 16384).find? s.epochErased)

/-- How a run of R134 ended. -/
inductive EpochEnd where
  | written (idx tries : Nat)
  /-- All attempts failed; the last record attempted, if any. -/
  | failed (last : Option Nat) (tries : Nat)
  /-- An erase needed for an attempt failed: its sector. -/
  | eraseFailed (sector tries : Nat)
  deriving DecidableEq, Repr

/-- The ring order of the epoch records and of their 64 sectors (R134). -/
def epochNext (i : Nat) : Nat := (i + 1) % 16384
def epochSec (i : Nat) : Nat := (i / 256 + 1) % 64

/-- Program an epoch record; whether it reads back as written. -/
def State.epochPut (s : State) (i : Nat) (bs : List Byte) (p : Pg) (back : Bool) : State × Bool :=
  let w := s.nvmWrite (epochBase + 16 * i) bs p
  (w.1, w.2 && back && w.1.epochAt i == bs)

/-- Erase a sector of the epoch area. -/
def State.epochWipe (s : State) (k : Nat) (p : Pg) : State × Bool := s.nvmWipe (epochBase + 4096 * k) 4096 p

/-- The record the next attempt takes: the first erased one from an index on, after an erase of sector `sec` where there is
none; false when that erase failed (R134). -/
def State.epochRoom (s : State) (at_ sec : Nat) (er : Pg) : State × Bool × Option Nat :=
  match s.epochFree at_ with
  | some i => (s, true, some i)
  | none =>
    let w := s.epochWipe sec er
    (w.1, w.2, if w.2 then w.1.epochFree at_ else none)

/-- The attempts of R134 step 2: `at_` is where the search for an erased record starts, `sec` the sector to erase when
there is none. -/
def epochTries (bs : List Byte) : List (Pg × Bool × Pg) → Nat → Nat → Nat → Option Nat → State → State × EpochEnd
  | [], _, _, tries, last, s => (s, .failed last tries)
  | t :: rest, at_, sec, tries, last, s =>
    let r := s.epochRoom at_ sec t.2.2
    match r.2.2 with
    | some i =>
      let w := r.1.epochPut i bs t.1 t.2.1
      if w.2 then (w.1, .written i (tries + 1)) else epochTries bs rest (epochNext i) (epochSec i) (tries + 1) (some i) w.1
    | none => (r.1, if r.2.1 then .failed last tries else .eraseFailed sec tries)

/-- The bytes of an epoch record (R133). -/
def epochRec (e ver : Nat) : List Byte :=
  let b := leBytes 4 e ++ leBytes 4 (0xFFFFFFFF - e) ++ leBytes 4 ver
  b ++ leBytes 4 (crc32 b)

/-- A run of R134 that wrote E. -/
def State.epochWon (s : State) (e n : Nat) : State :=
  ((s.setFld Reg.CPH_EPOCH.EPOCH e).setFld Reg.CPH_EPOCH_STATUS.STATE 1).setFld Reg.CPH_EPOCH_STATUS.TRIES n

/-- A run of R134 that failed: EPOCH_FAIL and its record. -/
def State.epochLost (s : State) (n : Nat) (detail : List Byte) : State :=
  let s := ((s.setFld Reg.CPH_EPOCH_STATUS.STATE 2).setFld Reg.CPH_EPOCH_STATUS.TRIES n).raiseOwn Reg.CPH_EVENT.EPOCH_FAIL
  s.queueRec 0x0008 2 7 detail

/-- The erase ahead after a record at the start of a sector (R134). -/
def State.epochAhead (s : State) (i : Nat) (after : Pg) : State :=
  let k := epochSec i
  if i % 256 = 0 ∧ s.epochSectorErased k = false then
    let w := s.epochWipe k after
    if w.2 then w.1 else w.1.queueRec 0x0008 2 7 [2#8, BitVec.ofNat 8 k]
  else s

/-- A run of R134 steps 2 and 3 from E, with R135 to R137: `tries` are the outcomes of its attempts, those left out ending
well; `after` is the outcome of the erase ahead. -/
def State.epochRun (s : State) (tries : List (Pg × Bool × Pg)) (after : Pg) : State :=
  let e := s.epochMax
  let ref := s.epochRef
  if e = 0xFFFFFFFF then
    (s.setFld Reg.CPH_EPOCH_STATUS.STATE 3).queueRec 0x0008 2 7 [3#8, BitVec.ofNat 8 ((ref.getD 0) / 256)]
  else
    let at_ := match ref with | some i => epochNext i | none => 0
    let sec := match ref with | some i => epochSec i | none => 0
    let r := epochTries (epochRec (e + 1) (s.fld Reg.CFG_IMAGE_VER.VER)) ((tries ++ List.replicate 4 (Pg.ok, true, Pg.ok)).take 4) at_ sec 0 none s
    match r.2 with
    | .written i n => (r.1.epochWon (e + 1) n).epochAhead i after
    | .failed last n => r.1.epochLost n [1#8, match last with | some i => BitVec.ofNat 8 (i / 256) | none => 0xFF#8]
    | .eraseFailed k n => r.1.epochLost n [2#8, BitVec.ofNat 8 k]

/-- The epoch read failed at step 6 as well (R135). -/
def State.epochReadFailed (s : State) : State :=
  ((s.setFld Reg.CPH_EPOCH_STATUS.STATE 2).setFld Reg.CPH_EPOCH_STATUS.TRIES 0 |>.raiseOwn Reg.CPH_EVENT.EPOCH_FAIL).queueRec 0x0008 2 7 [1#8, 0xFF#8]

/-! ### Key slots (R155-R158) -/

def noKey : Nat → List Byte := fun _ => []

def State.key (s : State) (k : Nat) : List Byte := s.cph.keys.get noKey k
def State.setKey (s : State) (k : Nat) (v : List Byte) : State := { s with cph := { s.cph with keys := s.cph.keys.set noKey k v } }
def State.keyUsage (s : State) (k : Nat) : Nat := s.fld (Reg.CPH_KEY_STATE.USAGE k)

/-- The ring entries of the host queue that wait: their indices. -/
def State.hqWaiting (s : State) : List Nat :=
  let size := 2 ^ s.fld Reg.CPH_HQ_CFG.LOG2
  let rd := s.fld Reg.CPH_HQ_RD.IDX % size
  (List.range ((s.fld Reg.CPH_HQ_WR.IDX % size + size - rd) % size)).map fun d => (rd + d) % size

/-- The image authentications that wait in the configuration queue: boot's, of a VERIFY, of a commit that is not prepared yet
(R159, R416, R427, R429).  DEDUCED: they wait from the candidate's choice and from the command's acceptance, and run in one with the row
that ends them. -/
def State.cfgWaits (s : State) : Nat :=
  b2n (s.fld Reg.GLB_HOST_STATUS.BOOT_STEP == 3 && s.boot.cand.isSome && !s.boot.reselect) +
    b2n (s.bit Reg.CFG_CMD.GO && s.fld Reg.CFG_CMD.OP == 3) + b2n (s.commit.any fun c => !c.prepared && !c.doneTick)

/-- Whether a slot is named in any LCY key field, or by a request that is queued or running (R158). -/
def State.keyInUse (s : State) (k : Nat) : Bool :=
  ((List.range 2).any fun l =>
    (s.bit (Reg.LCY_TX_KEY.VALID_0 l) && s.fld (Reg.LCY_TX_KEY.SLOT_0 l) == k) || (s.bit (Reg.LCY_TX_KEY.VALID_1 l) && s.fld (Reg.LCY_TX_KEY.SLOT_1 l) == k) ||
    (s.bit (Reg.LCY_RX_KEY.VALID_0 l) && s.fld (Reg.LCY_RX_KEY.SLOT_0 l) == k) || (s.bit (Reg.LCY_RX_KEY.VALID_1 l) && s.fld (Reg.LCY_RX_KEY.SLOT_1 l) == k)) ||
  (k == 63 && s.cfgWaits != 0) || (s.cph.running.any fun r => r.slot == k && r.queue != 3) || (s.cph.rimeQ.any fun r => r.slot == k) ||
  (s.hqWaiting.any fun i => (s.stByte (s.fld Reg.CPH_HQ_DESC_BASE.BASE + 64 * i + 2)).toNat == k)

/-- Load a wrapped key, or clear a slot: the CODE of CPH_KEY_RESULT, and the state (R157, R158). -/
def State.loadKey (s : State) (k usage : Nat) (wrapped : List Byte) : Nat × State :=
  if k = 63 ∨ s.bit (Reg.CPH_KEY_STATE.LOCKED k) ∨ s.keyInUse k then (3, s)
  else if usage = 0 ∨ 4 < usage then (4, s)
  else match keyUnwrap s.fuses.kek wrapped with
    | none => (2, s)
    | some v => (0, (s.setKey k v).setFld (Reg.CPH_KEY_STATE.USAGE k) usage)

/-- Clear a slot to usage empty (R158).  DESIGN CHOICE: USAGE, which a clear does not use, is not judged. -/
def State.zeroKey (s : State) (k : Nat) : Nat × State :=
  if k = 63 ∨ s.bit (Reg.CPH_KEY_STATE.LOCKED k) ∨ s.keyInUse k then (3, s)
  else (0, (s.setKey k []).setFld (Reg.CPH_KEY_STATE.USAGE k) 0)

/-- Load an image's key: a refused load raises KEY_LOAD_FAIL as a host's does (R158, R429). -/
def State.imageKey (s : State) (k : Nat × Nat × List Byte) : Nat × State :=
  let r := s.loadKey k.1 k.2.1 k.2.2
  (r.1, r.2.raiseIf (r.1 != 0) Reg.CPH_EVENT.KEY_LOAD_FAIL)

/-- The 40 bytes of CPH_KEY_WRAP. -/
def State.wrapBytes (s : State) : List Byte := (List.range 10).flatMap fun w => leBytes 4 (s.reg (Reg.CPH_KEY_WRAP w)).toNat

/-- Clear CPH_KEY_WRAP. -/
def State.clearWrap (s : State) : State := (List.range 10).foldl (fun s w => s.setReg (Reg.CPH_KEY_WRAP w) 0) s

/-- The key load or clear that a write of CPH_KEY_LOAD asks for, carried to its end. -/
def State.keyLoad (s : State) (k usage : Nat) (zero : Bool) : State :=
  let r := if zero then s.zeroKey k else s.loadKey k usage s.wrapBytes
  let s := r.2.clearWrap.setFld Reg.CPH_KEY_RESULT.CODE r.1
  s.raiseIf (r.1 != 0) Reg.CPH_EVENT.KEY_LOAD_FAIL

/-! ### The request engine (R159-R163) -/

/-- A host descriptor (R160). -/
def parseReq (d : List Byte) : Req :=
  let fl := le d 1 1
  { queue := 4, mode := le d 0 1, dec := fl.testBit 0, ivDev := fl.testBit 1, srcHost := fl.testBit 2, dstHost := fl.testBit 3,
    irq := fl.testBit 4, slot := le d 2 1, macLen := le d 3 1, len := le d 4 4, src := le d 8 8, dst := le d 16 8,
    iv := (d.drop 24).take 16, tag := (d.drop 40).take 8 }

/-- The bytes a request would write (R161). -/
def Req.outLen (r : Req) : Nat := if 4 ≤ r.mode then 0 else if r.mode = 0 && !r.dec then 16 * (r.len / 16 + 1) else r.len

/-- Whether two byte ranges meet. -/
def overlap (a n b m : Nat) : Bool := decide (a < b + m) && decide (b < a + n)

/-- Why a request is refused, in the order of the status table (R162, R163).  DESIGN CHOICE: a MAC_LEN outside 8 to 16 is refused as
BAD_LENGTH, which the table gives for L only. -/
def State.reqRefused (s : State) (r : Req) : Option Nat :=
  let u := if r.slot ≤ 62 then s.keyUsage r.slot else 0
  if !(u == 3 || (u == 4 && 4 ≤ r.mode)) then some 0x10
  else if 6 ≤ r.mode || (r.ivDev && (r.dec || 4 ≤ r.mode)) then some 0x11
  else if r.len = 0 ∨ 2 ^ 24 < r.len ∨ (r.mode = 0 ∧ r.dec = true ∧ r.len % 16 ≠ 0) ∨ (4 ≤ r.mode ∧ (r.macLen < 8 ∨ 16 < r.macLen)) then some 0x12
  else if (!r.srcHost && decide (stBytes < r.src + r.len)) || (decide (r.mode < 4) && !r.dstHost && decide (stBytes < r.dst + r.outLen)) ||
      (decide (r.mode < 4) && r.srcHost == r.dstHost && r.src != r.dst && overlap r.src r.len r.dst r.outLen) then some 0x13
  else if r.ivDev && s.fld (Reg.CPH_DEVCTR.N r.slot) == 0xFFFFFFFF then some 0x14
  else if r.ivDev && s.fld Reg.CPH_EPOCH_STATUS.STATE != 1 then some 0x15
  else none

/-- The IV drawn from a slot's counter (R162). -/
def State.devIv (s : State) (r : Req) : List Byte :=
  let c := beBytes 8 (s.fld Reg.CPH_EPOCH.EPOCH * 2 ^ 32 + s.fld (Reg.CPH_DEVCTR.N r.slot)) ++ List.replicate 8 0#8
  if r.mode = 1 ∨ r.mode = 3 then c else aesEnc (s.key r.slot) c

/-- Start a host request: its descriptor is read, refused or accepted, its IV drawn, its host data asked for. -/
def State.startHost (s : State) : State :=
  let size := 2 ^ s.fld Reg.CPH_HQ_CFG.LOG2
  let rd := s.fld Reg.CPH_HQ_RD.IDX % size
  let d := s.stRead (s.fld Reg.CPH_HQ_DESC_BASE.BASE + 64 * rd) 64
  let r := parseReq d.1
  let s := d.2.2.setFld Reg.CPH_HQ_RD.IDX (ringNext size rd)
  let st := if d.2.1.isSome then some 0x22 else s.reqRefused r
  if st.isSome then { s with cph := { s.cph with running := some { r with status := st, len := if st = some 0x22 then 0 else r.len } } }
  else
    let iv := if r.ivDev then s.devIv r else r.iv
    let s := if r.ivDev then s.setFld (Reg.CPH_DEVCTR.N r.slot) (s.fld (Reg.CPH_DEVCTR.N r.slot) + 1) else s
    let s := { s with cph := { s.cph with running := some { r with iv := iv } } }
    if r.srcHost then
      if s.dmaOpen then s.dmaRead r.src r.len
      else { s with cph := { s.cph with running := some { r with iv := iv, status := some 0x20 } } }
    else s

/-- REQUEST_START: the idle engine serves the highest-priority queue that is not empty (R159); the configuration queue's
requests are the rows APPLICATION, VERIFY and COMMIT_PREPARED. -/
def State.reqStart (s : State) : State :=
  if s.cph.running.isSome ∨ s.cfgWaits ≠ 0 then s
  else match s.cph.rimeQ with
    | q :: rest =>
      let r : Req := { queue := 2, mode := 4, slot := q.slot, iv := q.mac, got := q.msg, rimeId := q.id, rimeSign := q.sign, len := q.made }
      { s with cph := { s.cph with rimeQ := rest, running := some r } }
    | [] =>
      if s.cph.kat then { s with cph := { s.cph with kat := false, running := some { queue := 3 } } }
      else
        let size := 2 ^ s.fld Reg.CPH_HQ_CFG.LOG2
        if s.bit Reg.CPH_HQ_CFG.EN && !(ringEmpty (s.fld Reg.CPH_HQ_WR.IDX % size) (s.fld Reg.CPH_HQ_RD.IDX % size)) &&
            !(ringFull size (s.fld Reg.CPH_HQ_CPL_WR.IDX) (s.fld Reg.CPH_HQ_CPL_RD.IDX)) then s.startHost else s

/-- The result of a request on its input: status, output, MAC (R161, R163). -/
def State.reqResult (s : State) (r : Req) (inp : List Byte) : Nat × List Byte × List Byte :=
  let k := s.key r.slot
  match r.mode with
  | 0 => if r.dec then (match aesCbcDec k r.iv inp with | some m => (0, m, []) | none => (1, List.replicate r.len 0#8, []))
         else (0, aesCbcEnc k r.iv inp, [])
  | 1 => (0, aesCtr k r.iv inp, [])
  | 2 => (0, aesCfb (!r.dec) k r.iv inp, [])
  | 3 => (0, aesOfb k r.iv inp, [])
  | 4 => (0, [], (aesCmac k inp).take r.macLen)
  | _ => (if (aesCmac k inp).take r.macLen = r.iv.take r.macLen then 0 else 2, [], [])

/-- Write a request's output where its descriptor says; whether a partial write left a lane poisoned (R372). -/
def State.reqOut (s : State) (r : Req) (bs : List Byte) : Bool × State :=
  if bs.isEmpty then (false, s)
  else if r.dstHost then (false, if s.dmaOpen then s.dmaWrite r.dst bs else s)
  else let w := s.stWrite r.dst bs; (w.1.isSome, w.2)

/-- The completion record, its interrupt and its event (R163, R494). -/
def State.reqRecord (s : State) (r : Req) (status outLen : Nat) (ivMac : List Byte) : State :=
  let size := 2 ^ s.fld Reg.CPH_HQ_CFG.LOG2
  let wr := s.fld Reg.CPH_HQ_CPL_WR.IDX % size
  let rec_ := r.tag ++ leBytes 2 status ++ [0#8, 0#8] ++ leBytes 4 outLen ++ padTo 16 ivMac
  let s := (s.stWrite (s.fld Reg.CPH_HQ_CPL_BASE.BASE + 32 * wr) rec_).2
  let s := s.setFld Reg.CPH_HQ_CPL_WR.IDX (ringNext size wr)
  let s := s.raiseIf (status != 0) Reg.CPH_EVENT.REQ_ERR
  let s := s.count (miscCtr 7 (256 + status)) 1
  let s := { s with cph := { s.cph with running := none } }
  if r.irq && !s.msixSent.testBit 32 then ({ s with msixSent := s.msixSent ||| 2 ^ 32 }).msix 32 else s

/-- Bytes that the spec leaves undefined: free values. -/
def State.freeBytes (s : State) (n : Nat) : List Byte × State :=
  ((List.range n).map fun i => BitVec.ofNat 8 (Config.free (s.freeCtr + i)), { s with freeCtr := s.freeCtr + n })

/-- Whether the interval of host input a running request waits for has arrived. -/
def Req.waits (r : Req) : Bool := r.srcHost && decide (r.got.length < r.len)

/-- REQUEST_COMPLETE (R163): a host request ends.  After an error its output is undefined over OUT_LEN. -/
def State.reqComplete (s : State) : State :=
  match s.cph.running with
  | none => s
  | some r =>
    if r.queue ≠ 4 then s
    else match r.status with
      | some st =>
        if 0x20 ≤ st ∧ r.mode < 4 ∧ 0 < r.len then
          let f := s.freeBytes r.outLen
          (f.2.reqOut r f.1).2.reqRecord r st r.outLen (if r.ivDev then r.iv else [])
        else s.reqRecord r st 0 (if r.ivDev ∧ 0x20 ≤ st then r.iv else [])
      | none =>
        if r.waits then s
        else
          let d := if r.srcHost then (r.got.take r.len, none, s) else s.stRead r.src r.len
          if d.2.1.isSome then
            let f := d.2.2.freeBytes r.outLen
            (f.2.reqOut r f.1).2.reqRecord r 0x22 r.outLen (if r.ivDev then r.iv else [])
          else
            let res := if r.dstHost && decide (r.mode < 4) && !s.dmaOpen then (0x20, [], []) else s.reqResult r d.1
            let o := d.2.2.reqOut r res.2.1
            let st := if o.1 then 0x22 else res.1
            o.2.reqRecord r st (if st = 0 then res.2.1.length else if 0x20 ≤ st then r.outLen else 0)
              (if r.mode = 4 then res.2.2 else if r.ivDev then r.iv else [])

/-- The request in progress, of whichever queue, met an uncorrectable read of cipher scratch: it ends with MEM_ERROR (R374). -/
def State.scratchLost (s : State) : State :=
  match s.cph.running with
  | some r => if r.status.isNone then { s with cph := { s.cph with running := some { r with status := some 0x22 } } } else s
  | none => s

/-- DMA_COMPLETION (R486): read data arrives; an error status ends the request with DMA_ERROR, and so do completions that
add up to more than the length asked for. -/
def State.dmaDone (s : State) (bs : List Byte) (ok : Bool) : State :=
  match s.cph.running with
  | none => s
  | some r =>
    if !(r.srcHost && r.status.isNone) then s
    else if ok && decide (r.got.length + bs.length ≤ r.len) then { s with cph := { s.cph with running := some { r with got := r.got ++ bs } } }
    else ({ s with cph := { s.cph with running := some { r with status := some 0x20 } } }).raise Reg.GLB_HOST_EVENT.DMA_ERR

/-- The completion timeout in microseconds (R486); the upper bounds are those PCI Express gives the ranges of Device
Control 2 (PRESUMED). -/
def Pcie.ctoUs (p : Pcie) : Nat :=
  if p.ctoDisable then 4000000
  else match p.ctoValue with
    | 0 => 50000 | 1 => 100 | 2 => 10000 | 5 => 55000 | 6 => 210000 | 9 => 900000 | 10 => 3500000 | _ => 50000

/-- DMA_TIMEOUT (R486): the completions of a read have not arrived within the completion timeout. -/
def State.dmaTimeout (s : State) (us : Nat) : State :=
  match s.cph.running with
  | none => s
  | some r =>
    if r.waits && r.status.isNone && decide (s.pcie.ctoUs ≤ us) then
      ({ s with cph := { s.cph with running := some { r with status := some 0x21 } } }).raise Reg.GLB_HOST_EVENT.DMA_TIMEOUT
    else s

/-- The known-answer test ends (R159).  DEDUCED: one that ended with MEM_ERROR has not passed (R374). -/
def State.katDone (s : State) (pass : Bool) : State :=
  match s.cph.running with
  | some r => if r.queue = 3 then ({ s with cph := { s.cph with running := none } }).raiseIf (!pass || r.status.isSome) Reg.CPH_EVENT.KAT_FAIL else s
  | none => s

/-- The word CPH_Q_DEPTH reads as. -/
def State.qDepth (s : State) : Nat :=
  min 255 s.hqWaiting.length + 256 * min 255 s.cph.rimeQ.length + 65536 * s.cfgWaits + 2 ^ 24 * b2n s.cph.kat

/-! ### Meanings -/

/-- REQUEST_START (R159). -/
def execRequestStart (s : State) : Host.Outcome State Fault Refusal := .next (s.cmd State.reqStart)
/-- REQUEST_COMPLETE (R163). -/
def execRequestComplete (s : State) : Host.Outcome State Fault Refusal := .next (s.cmd State.reqComplete)
/-- KAT_FAIL (R159). -/
def execKatFail (pass : Bool) (s : State) : Host.Outcome State Fault Refusal := .next (s.cmd (·.katDone pass))
/-- DMA_COMPLETION (R486). -/
def execDmaCompletion (bs : List Byte) (ok : Bool) (s : State) : Host.Outcome State Fault Refusal := .next (s.cmd (·.dmaDone bs ok))
/-- DMA_TIMEOUT (R486). -/
def execDmaTimeout (us : Nat) (s : State) : Host.Outcome State Fault Refusal := .next (s.cmd (·.dmaTimeout us))

end Sys2Proof.Machine
end

