-- ==== Sys2Proof/Machine/Cfg.lean ====
section
/-! DEFINITION. Slots, commands, markers, the health window, the configuration epoch (R405-R409, R423-R436). -/

namespace Sys2Proof.Machine

open Sys2Proof (Rd Pg)

/-! ### Slot status (R409, R420, R426) -/

/-- What a slot's status sector says. -/
structure SlotSt where
  staged : Bool
  committed : Bool
  proven : Bool
  bad : Bool
  attempts : Nat
  cause : Nat
  deriving DecidableEq, Repr

/-- Read a status sector's markers (R409). -/
def State.slotSt (s : State) (k : Nat) : SlotSt :=
  let b := s.nvmBytes (slotBase k) 23
  let bad := le b 12 4 != 0xFFFFFFFF
  { staged := le b 0 4 == 0, committed := le b 4 4 == 0, proven := le b 8 4 == 0, bad := bad,
    attempts := ((b.drop 20).filter (· != 0xFF#8)).length, cause := if bad then le b 16 1 % 16 else 0 }

/-- A slot's image header as the NVM holds it. -/
def State.slotHeader (s : State) (k : Nat) : List Byte := s.nvmBytes (imageBase k) 64

def State.minVer (s : State) : Nat := s.fld Reg.CFG_MIN_VER.MIN_VER
def State.runVer (s : State) : Nat := s.fld Reg.CFG_IMAGE_VER.VER

/-- Whether a slot's header is valid (R411). -/
def State.hdrOk (s : State) (k : Nat) : Bool := headerOk s.minVer (s.slotHeader k)

/-- Whether an image runs: outside safe mode, from step 4 on. -/
def State.hasImage (s : State) : Bool := s.runVer != 0

/-- Whether a slot holds the running image. -/
def State.isRunning (s : State) (k : Nat) : Bool := s.hasImage && s.fld Reg.CFG_STATUS.RUN_SLOT == k

/-- Bring CFG_SLOT, CFG_SLOT_VER and CFG_STATUS.PROVEN up to date with a slot. -/
def State.slotRefresh (s : State) (k : Nat) : State :=
  let t := s.slotSt k
  let ok := s.hdrOk k
  let w := b2n ok + 2 * b2n t.staged + 4 * b2n t.committed + 8 * b2n t.proven + 16 * b2n t.bad + 32 * min 3 t.attempts + 256 * t.cause
  let s := (s.setReg (Reg.CFG_SLOT k) (BitVec.ofNat 32 w)).setFld (Reg.CFG_SLOT_VER.VER k) (if ok then imgVer (s.slotHeader k) else 0)
  s.setFldIf (s.isRunning k) Reg.CFG_STATUS.PROVEN (b2n t.proven)

/-- Whether a slot is eligible (R420). -/
def State.eligible (s : State) (k : Nat) : Bool :=
  let t := s.slotSt k
  s.hdrOk k && t.committed && !t.bad && (t.proven || decide (t.attempts < 3)) && !(s.boot.dead.contains k)

/-- Among the slots that pass a test, the one of highest version, the lower number on a tie (R420). -/
@[irreducible]
def State.bestSlot (s : State) (p : Nat → Bool) : Option Nat :=
  ((List.range 4).filter p).foldl (fun b k => match b with
    | none => some k
    | some j => if imgVer (s.slotHeader j) < imgVer (s.slotHeader k) then some k else some j) none

/-- The rollback target (R426). -/
def State.rollbackTarget (s : State) : Option Nat :=
  s.bestSlot fun k => s.eligible k && decide (imgVer (s.slotHeader k) < s.runVer)

/-- Whether a slot belongs to a pending commit. -/
def State.inCommit (s : State) (k : Nat) : Bool := match s.commit with | some c => c.slot == k | none => false

/-- Whether a slot is free (R426). -/
def State.slotFree (s : State) (k : Nat) : Bool :=
  s.bit Reg.CFG_STATUS.SAFE || !(s.isRunning k || s.rollbackTarget == some k || s.inCommit k)

/-! ### Markers (R409) -/

/-- Where a marker lies and the bytes it is programmed with: 0 COMMITTED, 1 PROVEN, 2 BAD, 3 STAGED. -/
def markerBytes (kind cause : Nat) : Nat × List Byte :=
  match kind with
  | 0 => (4, List.replicate 4 0#8)
  | 1 => (8, List.replicate 4 0#8)
  | 2 => (12, List.replicate 4 0#8 ++ leBytes 4 (0xFFFFFFF0 + cause % 16))
  | _ => (0, List.replicate 4 0#8)

/-- The address of a byte of a slot's status sector (R409). -/
def markAddr (k i : Nat) : Nat := slotBase (k % 4) + i

/-- Program a marker of one of the four slots: the state, and whether it succeeded; a failure raises MARKER_FAIL. -/
def State.markWrite (s : State) (k kind cause : Nat) (p : Pg) : State × Bool :=
  let m := markerBytes kind cause
  let w := s.nvmWrite (markAddr k m.1) m.2 p
  ((w.1.raiseIf (!w.2) Reg.CFG_EVENT.MARKER_FAIL).slotRefresh k, w.2)

/-- Start the program of a marker that the device writes by itself. -/
def State.markStart (s : State) (k kind cause : Nat) : State :=
  { s with boot := { s.boot with markers := s.boot.markers ++ [⟨k, kind, cause, true, 0⟩] } }

/-- MARKER_PROGRAMMED: the first running marker program ends; a failed one is tried again every 1,000,000 ticks. -/
def State.markDone (s : State) (p : Pg) : State :=
  match s.boot.markers.findIdx? (·.running) with
  | none => s
  | some i =>
    match s.boot.markers[i]? with
    | none => s
    | some j =>
      let w := s.markWrite j.slot j.kind j.cause p
      let ms := if w.2 then w.1.boot.markers.eraseIdx i else w.1.boot.markers.set i { j with running := false, nextTry := s.tick + 1000000 }
      { w.1 with boot := { w.1.boot with markers := ms } }

/-- MARKER_RETRY: every second a failed marker program starts again. -/
def State.markRetry (s : State) : State :=
  { s with boot := { s.boot with markers := s.boot.markers.map fun j => if !j.running && decide (j.nextTry ≤ s.tick) then { j with running := true } else j } }

/-! ### Abandoning a commit (R430) -/

/-- Abandon the pending commit, with the cause of R452; the key slots it loaded are cleared. -/
def State.abandonCommit (s : State) (cause : Nat) : State :=
  match s.commit with
  | none => s
  | some c =>
    let s := c.keysLoaded.foldl (fun s k => (s.setKey k []).setFld (Reg.CPH_KEY_STATE.USAGE k) 0) s
    let s := ({ s with commit := none }.setFld Reg.CFG_STATUS.COMMIT 0).raiseOwn Reg.CFG_EVENT.COMMIT_ABANDON
    s.queueRec 0x0007 1 1 ([BitVec.ofNat 8 c.slot, BitVec.ofNat 8 cause, 0#8, 0#8] ++ leBytes 4 c.ver)

/-- Whether some part of a commit has taken effect. -/
def Commit.begun (c : Commit) : Bool := c.doneTick || c.doneTx.any id || c.doneRx.any id

/-! ### The health window (R423, R424) -/

/-- Start the health window of the running image in this tick. -/
def State.startHealth (s : State) : State :=
  let n := if s.boot.health.isEmpty then 0 else s.boot.healthS * 1000000
  let s := (s.setFld Reg.CFG_STATUS.HEALTH_RUN 1).setFld Reg.CFG_HEALTH.ACK 0
  { s with boot := { s.boot with healthEnd := some (if n = 0 then s.tick else s.tick + n - 1), healthDegraded := false, acked := false } }

/-- Stop the health window without evaluation. -/
def State.stopHealth (s : State) : State :=
  { s.setFld Reg.CFG_STATUS.HEALTH_RUN 0 with boot := { s.boot with healthEnd := none } }

/-- Whether a health condition passes (R423). -/
def State.condPass (s : State) (c : List Byte) : Bool :=
  let l := le c 2 1
  let th := le c 4 4
  let inFrame := !(s.bit (Reg.FRM_STATUS.OOF l))
  match le c 0 2 with
  | 1 => inFrame && !((s.fld (Reg.FRM_STATUS.DEF l)).testBit 1)
  | 2 => !(s.bit (Reg.TXP_STATUS.MUTED l))
  | 3 => let m := s.fld (Reg.FEC_MARGIN.MARGIN l)
         if m = 0x7FFF then inFrame else decide (sx 32 th ≤ sx 16 m)
  | 4 => s.bit Reg.GLB_TICK_STATUS.TB_LOCKED
  | 5 => decide (th ≤ s.fld Reg.RIM_STATUS.NB_COUNT)
  | 6 => s.boot.acked
  | _ => !s.boot.healthDegraded

/-- The mask of failed conditions. -/
def State.condFails (s : State) : Nat :=
  (s.boot.health.zipIdx.filter fun p => !(s.condPass p.1)).foldl (fun a p => a + 2 ^ p.2) 0

/-- HEALTH_EVALUATION: the window ends in phase 8 of its last tick.  Every failure writes a Moraine record: of kind rollback where the image
is not PROVEN, else (DESIGN CHOICE: R424 names no kind) of kind FAULT, whatever the event's enable is. -/
def State.evalHealth (s : State) : State :=
  match s.boot.healthEnd with
  | none => s
  | some t =>
    if s.tick < t ∨ s.bit Reg.THM_STATUS.SHUTDOWN then s
    else
      let k := s.fld Reg.CFG_STATUS.RUN_SLOT
      let tested := !(s.boot.healthS == 0 || s.boot.health.isEmpty)
      let fails := if tested then s.condFails else 0
      let s := s.stopHealth
      if fails = 0 then
        let s := s.setFldIf tested Reg.CFG_HEALTH_FAIL.FAILED 0
        let s := if (s.slotSt k).proven then s else s.markStart k 1 0
        s.raise Reg.CFG_EVENT.HEALTH_PASS
      else
        let s := s.setFld Reg.CFG_HEALTH_FAIL.FAILED fails
        if (s.slotSt k).proven then (s.raiseOwn Reg.CFG_EVENT.HEALTH_FAIL).faultQueue Reg.CFG_EVENT.HEALTH_FAIL
        else
          let s := (s.raiseOwn Reg.CFG_EVENT.HEALTH_FAIL).markStart k 2 5
          let s := s.queueRec 0x0003 2 1 ([BitVec.ofNat 8 k, 0#8, 0#8, 0#8] ++ leBytes 4 s.runVer ++ leBytes 2 fails)
          { s with boot := { s.boot with rollbackFrom := some s.tick } }

/-- ROLLBACK_REBOOT: in the tick after both writes complete, or 1,000,000 ticks after the failure (R424). -/
def State.rollback (s : State) : State :=
  match s.boot.rollbackFrom with
  | none => s
  | some t =>
    let waits := (s.boot.markers.any fun j => j.kind == 2 && j.slot == s.fld Reg.CFG_STATUS.RUN_SLOT) || s.mor.queue.any fun r => r.kind == 3
    if t < s.tick ∧ (waits = false ∨ t + 1000000 ≤ s.tick) then s.reboot 2 else s

/-! ### The configuration epoch and overrides (R431-R434) -/

/-- Advance CFG_EPOCH; a wrap of its low half makes every recorded unit epoch stale (R434). -/
def State.epochStep (s : State) : State :=
  let e := s.fld Reg.CFG_EPOCH.EPOCH
  if e % 65536 = 65535 then
    let s := (s.setFld Reg.CFG_EPOCH.EPOCH (e - 65535)).raise Reg.CFG_EVENT.EPOCH_WRAP
    { s with boot := { s.boot with epochGen := s.boot.epochGen + 1 } }
  else s.setFld Reg.CFG_EPOCH.EPOCH (e + 1)

/-- The configuration epoch with how often its low half has wrapped: what units record (R435). -/
def State.epochNow (s : State) : Nat × Nat := (s.boot.epochGen, s.fld Reg.CFG_EPOCH.EPOCH)

/-- What an accepted override does beside its write (R432). -/
def State.overrode (s : State) (off old new : Nat) : State :=
  let s := s.raiseOwn Reg.CFG_EVENT.OVERRIDE
  let s := s.setFld Reg.CFG_OVR_CNT.CNT (s.fld Reg.CFG_OVR_CNT.CNT + 1)
  (s.queueRec 0x0006 1 1 (leBytes 4 off ++ leBytes 4 old ++ leBytes 4 new)).epochStep

/-! ### Commands (R427) -/

/-- Whether CFG_CMD runs the operation named. -/
def State.cmdIs (s : State) (op : Nat) : Bool := s.bit Reg.CFG_CMD.GO && s.fld Reg.CFG_CMD.OP == op

/-- A command ends with a CODE, and the index of a record at fault. -/
def State.cmdEnd (s : State) (code rec_ : Nat) : State :=
  let op := s.fld Reg.CFG_CMD.OP
  let s := ((s.setFld Reg.CFG_CMD_RESULT.CODE code).setFld Reg.CFG_CMD_RESULT.REC rec_).setFld Reg.CFG_CMD.GO 0
  ((s.count (miscCtr 1 op) 1).count (miscCtr 1 (16 + s.fld Reg.CFG_CMD.SLOT)) 1).raise (if code = 0 then Reg.CFG_EVENT.CMD_DONE else Reg.CFG_EVENT.CMD_ERR)

/-- The CODE of a program or erase. -/
def Pg.code : Pg → Nat
  | .ok => 0
  | .fail _ => 3
  | .timeout _ => 4

/-- The CODE of a read. -/
def Rd.code : Rd → Nat
  | .ok => 0
  | .flip _ _ => 0
  | .fail => 3
  | .timeout => 4

/-- Erase a slot block by block; a failure after `n` bytes leaves the blocks before it erased (R406). -/
def State.eraseSlot (s : State) (k : Nat) (p : Pg) : State :=
  match p with
  | .ok => { s with nvm := nvmErase s.nvm (slotBase k) 0xC00000 }
  | .fail n => { s with nvm := nvmErase s.nvm (slotBase k) (min 0xC00000 (n / 65536 * 65536)) }
  | .timeout n => { s with nvm := nvmErase s.nvm (slotBase k) (min 0xC00000 (n / 65536 * 65536)) }.raise Reg.CFG_EVENT.NVM_TIMEOUT

/-- ERASE.  DEDUCED: what made the slot's image ineligible in this boot goes with it (R409, R426). -/
def State.doErase (s : State) (p : Pg) : State :=
  if !s.cmdIs 1 then s
  else
    let k := s.fld Reg.CFG_CMD.SLOT
    if !s.slotFree k then s.cmdEnd 2 0
    else
      let s := if Pg.code p = 0 then { s with boot := { s.boot with dead := s.boot.dead.filter (· != k) } } else s
      ((s.eraseSlot k p).slotRefresh k).cmdEnd (Pg.code p) 0

/-- Program staging data page by page: `n` bounds the pages, `budget` is how many bytes program well.  The answer is 0,
3 for a failed program, 11 for an uncorrectable staging lane. -/
def State.writePages : Nat → Nat → Nat → Nat → Option Nat → State → State × Nat
  | 0, _, _, _, _, s => (s, 0)
  | n + 1, src, dst, len, budget, s =>
    if len = 0 then (s, 0)
    else
      let m := min len (256 - dst % 256)
      let d := s.stRead src m
      if d.2.1.isSome then (d.2.2, 11)
      else match budget with
        | none => writePages n (src + m) (dst + m) (len - m) none { d.2.2 with nvm := nvmProgram s.nvm dst d.1 }
        | some b =>
          if b < m then ({ d.2.2 with nvm := nvmProgram s.nvm dst (d.1.take b) }, 3)
          else writePages n (src + m) (dst + m) (len - m) (some (b - m)) { d.2.2 with nvm := nvmProgram s.nvm dst d.1 }

/-- The bytes that program well. -/
def Pg.budget : Pg → Option Nat
  | .ok => none
  | .fail n => some n
  | .timeout n => some n

/-- WRITE: program, then read back. -/
def State.doWrite (s : State) (p : Pg) (back : Rd) : State :=
  if !s.cmdIs 2 then s
  else
    let k := s.fld Reg.CFG_CMD.SLOT
    let src := s.fld Reg.CFG_CMD_SRC.OFFSET
    let dst := s.fld Reg.CFG_CMD_DST.OFFSET
    let len := s.fld Reg.CFG_CMD_LEN.LEN
    if !s.slotFree k then s.cmdEnd 2 0
    else if stBytes < src + len ∨ imageRegion < dst + len then s.cmdEnd 12 0
    else
      let w := s.writePages (len / 16 + 1) src (imageBase k + dst) len (Pg.budget p)
      if w.2 = 11 then (w.1.slotRefresh k).cmdEnd 11 0
      else if w.2 = 3 then
        ((w.1.raiseIf (Pg.code p == 4) Reg.CFG_EVENT.NVM_TIMEOUT).slotRefresh k).cmdEnd (Pg.code p) 0
      else match w.1.nvmRead (imageBase k + dst) len back with
        | none => ((w.1.rdTimeout back).slotRefresh k).cmdEnd (Rd.code back) 0
        | some b =>
          let want := (s.stRead src len).1
          (w.1.slotRefresh k).cmdEnd (if b = want then 0 else 3) 0

/-- The verdict on a slot's image: a CODE with the record's index, or the image's values (R411-R415). -/
def State.judgeSlot (s : State) (k : Nat) (r : Rd) : Nat × Nat × ImageVals :=
  match s.nvmRead (imageBase k) (min imageRegion (max 64 (imgLen (s.slotHeader k)))) r with
  | none => (Rd.code r, 0, {})
  | some img =>
    let h := img.take 64
    if !headerOk s.minVer h ∨ imgLen h ≠ img.length then (5, 0, {})
    else if !imageCmacOk s.fuses.key63 img then (6, 0, {})
    else match judge h img regReset with
      | .bad i => (7, i, {})
      | .good v => (0, 0, v)

/-- VERIFY. -/
def State.doVerify (s : State) (r : Rd) (p : Pg) : State :=
  if !s.cmdIs 3 then s
  else
    let k := s.fld Reg.CFG_CMD.SLOT
    if !s.slotFree k then s.cmdEnd 2 0
    else if s.cph.running.isSome then s
    else
      let j := s.judgeSlot k r
      let s := s.rdTimeout r
      if j.1 ≠ 0 then (s.slotRefresh k).cmdEnd j.1 j.2.1
      else
        let w := s.markWrite k 3 0 p
        w.1.cmdEnd (Pg.code p) 0

/-- COMMIT: acceptance (R428). -/
def State.doCommit (s : State) : State :=
  if !s.cmdIs 4 then s
  else
    let k := s.fld Reg.CFG_CMD.SLOT
    let t := s.reg64 Reg.CFG_ACT_TICK_LO Reg.CFG_ACT_TICK_HI
    let st := s.slotSt k
    let h := s.slotHeader k
    if s.bit Reg.CFG_STATUS.SAFE ∨ s.commit.isSome ∨ s.bit Reg.CFG_STATUS.HEALTH_RUN then s.cmdEnd 10 0
    else if !st.staged ∨ st.bad then s.cmdEnd 9 0
    else if imgVer h ≤ s.runVer then s.cmdEnd 8 0
    else if t ≤ s.tick then s.cmdEnd 9 0
    else
      let en (b : Nat) (l : Nat) : Bool := (s.fld ⟨Reg.GLB_LINE_CTL, 31, 0⟩).testBit (4 * l) && (s.fld ⟨Reg.GLB_LINE_CTL, 31, 0⟩).testBit (4 * l + b)
      let c : Commit := {
        slot := k, ver := imgVer h, actTick := t,
        actTx := [s.reg64 (Reg.CFG_ACT_TXF_LO 0) (Reg.CFG_ACT_TXF_HI 0), s.reg64 (Reg.CFG_ACT_TXF_LO 1) (Reg.CFG_ACT_TXF_HI 1)],
        actRx := [s.reg64 (Reg.CFG_ACT_RXF_LO 0) (Reg.CFG_ACT_RXF_HI 0), s.reg64 (Reg.CFG_ACT_RXF_LO 1) (Reg.CFG_ACT_RXF_HI 1)],
        capTx := [s.lnA.txFn, s.lnB.txFn],
        capRx := [if s.lnA.oom then none else some s.lnA.rxFn, if s.lnB.oom then none else some s.lnB.rxFn],
        enTx := [en 1 0, en 1 1], enRx := [en 2 0, en 2 1], prepared := false, vals := {}, healthS := imgHealthS h, keysLoaded := [],
        doneTick := false, doneTx := [false, false], doneRx := [false, false] }
      ((({ s with commit := some c }.accepted 0 0).accepted 1 0).setFld Reg.CFG_STATUS.COMMIT 1).cmdEnd 0 0

/-- CANCEL (R430). -/
def State.doCancel (s : State) : State :=
  if !s.cmdIs 5 then s
  else match s.commit with
    | none => s.cmdEnd 10 0
    | some c => if c.begun then s.cmdEnd 10 0 else (s.abandonCommit 3).cmdEnd 0 0

/-- INSTALL (R427): in safe mode only, on a staged slot. -/
def State.doInstall (s : State) (p : Pg) : State :=
  if !s.cmdIs 6 then s
  else
    let k := s.fld Reg.CFG_CMD.SLOT
    if !s.bit Reg.CFG_STATUS.SAFE then s.cmdEnd 10 0
    else if !(s.slotSt k).staged then s.cmdEnd 2 0
    else (s.markWrite k 0 0 p).1.cmdEnd (Pg.code p) 0

/-- MARK_BAD (R427). -/
def State.doMarkBad (s : State) (p : Pg) : State :=
  if !s.cmdIs 7 then s
  else
    let k := s.fld Reg.CFG_CMD.SLOT
    if s.isRunning k ∨ s.inCommit k then s.cmdEnd 2 0
    else (s.markWrite k 2 6 p).1.cmdEnd (Pg.code p) 0

/-- The bytes of a boot header (R408). -/
def bootHeader (seq ver : Nat) : List Byte :=
  let b := leBytes 4 0x48464C46 ++ leBytes 2 1 ++ leBytes 2 0 ++ leBytes 4 seq ++ leBytes 4 ver ++ List.replicate 44 0#8
  b ++ leBytes 4 (crc32 b)

/-- RAISE_MIN: the other copy is erased, programmed and read back; only a matching read-back takes effect (R408). -/
def State.doRaiseMin (s : State) (e p : Pg) (back : Rd) : State :=
  if !s.cmdIs 8 then s
  else if !(s.hasImage && (s.slotSt (s.fld Reg.CFG_STATUS.RUN_SLOT)).proven) then s.cmdEnd 10 0
  else
    let tgt := match s.boot.hdr with | some (c, q) => (1 - c, (q + 1) % 2 ^ 32) | none => (0, 1)
    let bs := bootHeader tgt.2 s.runVer
    let w := s.nvmWipe (0x80000 * tgt.1) 4096 e
    if !w.2 then w.1.cmdEnd (Pg.code e) 0
    else
      let w := w.1.nvmWrite (0x80000 * tgt.1) bs p
      if !w.2 then w.1.cmdEnd (Pg.code p) 0
      else match w.1.nvmRead (0x80000 * tgt.1) 64 back with
        | none => (w.1.rdTimeout back).cmdEnd (Rd.code back) 0
        | some b =>
          if b = bs then
            let s := (w.1.setFld Reg.CFG_MIN_VER.MIN_VER s.runVer).setFld Reg.CFG_STATUS.HDR_COPY tgt.1
            let s := { s with boot := { s.boot with hdr := some tgt } }
            ((List.range 4).foldl State.slotRefresh s).cmdEnd 0 0
          else w.1.cmdEnd 3 0

/-- REBOOT. -/
def State.doReboot (s : State) : State := if s.cmdIs 9 then s.reboot 1 else s

/-! ### Meanings -/

/-- HEALTH_EVALUATION (R424). -/
def execHealthEvaluation (s : State) : Host.Outcome State Fault Refusal := .next (s.cmdTick State.evalHealth)
/-- ROLLBACK_REBOOT (R424, R425). -/
def execRollbackReboot (s : State) : Host.Outcome State Fault Refusal := .next (s.cmd State.rollback)
/-- MARKER_RETRY (R409). -/
def execMarkerRetry (s : State) : Host.Outcome State Fault Refusal := .next (s.cmd State.markRetry)
/-- MARKER_PROGRAMMED (R409). -/
def execMarkerProgrammed (p : Pg) (s : State) : Host.Outcome State Fault Refusal := .next (s.cmd (·.markDone p))

end Sys2Proof.Machine
end

