-- ==== Sys2Proof/Machine/Thm.lean ====
section
/-! DEFINITION. The thermal unit: sensors, bands, the thermal cap, shutdown and the cooling gate (R385-R396). -/

namespace Sys2Proof.Machine

/-! ### Exact temperatures -/

/-- 12 × the least common multiple of 1 to 64: means of up to 64 readings, means of up to 4 of those and halves of
their sums are whole numbers of 1/(16 · `thmUnit`) °C. -/
def thmUnit : Nat := 12 * 1182266884102822267511361600

/-- A temperature in °C, exact. -/
def degC (t : Int) : Int := t * 16 * (thmUnit : Int)

/-- The register value of an exact temperature: rounded to 1/16 °C, ties away from zero. -/
def thmReg (t : Int) : Int := roundDiv t thmUnit

/-- A sensor's filtered reading: the mean of the readings entered (R386). -/
def ThmSt.filt (t : ThmSt) (i : Nat) : Option Int :=
  match t.bufs[i]? with
  | none => none
  | some [] => none
  | some b => some (b.foldl (· + ·) 0 * ((thmUnit / b.length : Nat) : Int))

/-- Enter one tick's readings (R386). -/
def ThmSt.latch (t : ThmSt) (r : List Int) : ThmSt :=
  let v (i : Nat) : Int := r.getD i 0
  let inRange (i : Nat) : Bool := decide (-640 ≤ v i) && decide (v i ≤ 2400)
  { t with
    raw := (List.range 24).map v
    bufs := t.bufs.zipIdx.map fun p => if inRange p.2 then (v p.2 :: p.1).take 64 else p.1
    outs := t.outs.zipIdx.map fun p => if inRange p.2 then 0 else min 16 (p.1 + 1) }

/-! ### Sensor faults (R387, R388) -/

/-- The first sensor and the sensor after the last of a die: 0 core, 1 tile A, 2 tile B. -/
def dieSensors (d : Nat) : Nat × Nat := if d = 0 then (0, 16) else if d = 1 then (16, 20) else (20, 24)

def dieOf (i : Nat) : Nat := if i < 16 then 0 else if i < 20 then 1 else 2

/-- Whether a sensor is valid: not faulty. -/
def State.sensorOk (s : State) (i : Nat) : Bool := !((s.fld Reg.THM_SENS_FLT.FAULTY).testBit i) && !(s.thm.due.contains i)

/-- A valid sensor's filtered reading. -/
def State.filtOk (s : State) (i : Nat) : Option Int := if s.sensorOk i then s.thm.filt i else none

/-- The valid filtered readings of a die. -/
def State.dieFilts (s : State) (d : Nat) : List Int :=
  ((List.range 24).filter fun i => dieOf i == d).filterMap s.filtOk

/-- The median. -/
def median (xs : List Int) : Option Int :=
  let ys := xs.mergeSort (fun a b => decide (a ≤ b))
  let n := ys.length
  if n = 0 then none
  else if n % 2 = 1 then ys[n / 2]?
  else match ys[n / 2 - 1]?, ys[n / 2]? with
    | some a, some b => some ((a + b) / 2)
    | _, _ => none

/-- The magnitude of a number. -/
def absI (i : Int) : Nat := i.natAbs

/-- The sensors of a disagreeing location to flag: the one farther from the median of the die's other valid sensors, or
both (R387). -/
def State.disputed (s : State) (loc : Nat) : List Nat :=
  let a := 2 * loc
  match s.filtOk a, s.filtOk (a + 1) with
  | some fa, some fb =>
    let others := ((List.range 24).filter fun i => dieOf i == dieOf a && i != a && i != a + 1).filterMap s.filtOk
    match median others with
    | none => [a, a + 1]
    | some m =>
      if absI (fb - m) < absI (fa - m) then [a] else if absI (fa - m) < absI (fb - m) then [a + 1] else [a, a + 1]
  | _, _ => []

/-- Whether the two sensors of a location disagree. -/
def State.disagree (s : State) (loc : Nat) : Bool :=
  match s.filtOk (2 * loc), s.filtOk (2 * loc + 1) with
  | some a, some b => decide ((degC 3).natAbs < absI (a - b))
  | _, _ => false

/-- Phase 4: count disagreements and find the sensors to flag. -/
def State.sensorCheck (s : State) : State :=
  let dis := s.thm.dis.zipIdx.map fun p => if s.disagree p.2 then min 16 (p.1 + 1) else 0
  let pairs := ((List.range 12).filter fun l => dis.getD l 0 == 16).flatMap s.disputed
  let outs := (List.range 24).filter fun i => s.thm.outs.getD i 0 == 16 && s.sensorOk i
  { s with thm := { s.thm with dis := dis, due := (s.thm.due ++ outs ++ pairs).eraseDups } }

/-- Flag one sensor. -/
def State.flagSensor (s : State) (i : Nat) : State :=
  (s.setFld ⟨Reg.THM_SENS_FLT, i, i⟩ 1).raiseAt Reg.THM_EVENT.SENSOR_FAULT i

/-- Raise NO_PAIR for a die none of whose locations still has two valid sensors (R388). -/
def State.pairCheck (s : State) (d : Nat) : State :=
  let r := dieSensors d
  let some2 := (List.range 12).any fun loc => decide (r.1 ≤ 2 * loc) && decide (2 * loc < r.2) && s.sensorOk (2 * loc) && s.sensorOk (2 * loc + 1)
  if some2 || s.noPair.testBit d then s else { s with noPair := s.noPair + 2 ^ d }.raiseAt Reg.THM_EVENT.NO_PAIR d

/-- SENSOR_FAULT: the sensors found faulty in this tick are flagged. -/
def State.sensorFault (s : State) : State :=
  if s.thm.due.isEmpty then s
  else
    let s' := s.thm.due.foldl State.flagSensor s
    [0, 1, 2].foldl State.pairCheck { s' with thm := { s'.thm with due := [] } }

/-! ### Bands and the cap (R389-R393) -/

/-- The lower boundaries B_1 to B_7, °C. -/
def bandLow : List Int := [0, 20, 40, 60, 80, 95, 110]

/-- The band that contains a temperature. -/
def bandOf (t : Int) : Nat := (bandLow.filter fun b => decide (degC b ≤ t)).length

/-- The band after one evaluation (R391). -/
def bandNext (k : Nat) (t : Int) : Nat :=
  let up := k < 7 ∧ degC (bandLow.getD k 0) ≤ t
  let down := 1 ≤ k ∧ t < degC (bandLow.getD (k - 1) 0 - 2)
  if up then bandOf t else if down then bandOf (t + degC 2) else k

/-- The SRAM read-assist level of a core band (R390). -/
def readAssist (b : Nat) : Nat := [2, 1, 0, 0, 0, 0, 1, 2].getD b 0

/-- The thermal cap (R179). -/
def thermalCap (t : Int) : Nat :=
  if t < degC 110 then 20
  else
    let steps := (2 * (t - degC 110).toNat) / (3 * 16 * thmUnit)
    max 6 (14 - steps)

/-- A mean of filtered readings. -/
def meanT (xs : List Int) : Option Int := if xs.isEmpty then none else some (xs.foldl (· + ·) 0 / (xs.length : Int))

/-- The highest of a list. -/
def maxT (xs : List Int) : Option Int := xs.foldl (fun m x => match m with | none => some x | some y => some (max x y)) none

def bandField (d : Nat) : Fr := if d = 0 then Reg.THM_STATUS.CORE_BAND else if d = 1 then Reg.THM_STATUS.TILE_A_BAND else Reg.THM_STATUS.TILE_B_BAND

/-- One die's band: the first evaluation initialises it, a later change is published and raises BAND_CHG (R391, R392). -/
def State.bandEval (s : State) (d : Nat) : State :=
  match s.thm.dieT.getD d none with
  | none => s
  | some t =>
    let setB (s : State) (b : Nat) : State := { s with thm := { s.thm with bands := s.thm.bands.set d (some b) } }.publish (bandField d) b
    match s.thm.bands.getD d none with
    | none => setB s (bandOf t)
    | some k => if bandNext k t = k then s else (setB s (bandNext k t)).raiseAt Reg.THM_EVENT.BAND_CHG d

/-- Keep a value that is missing now (R49). -/
def orLast (new old : Option Int) : Option Int := match new with | some v => some v | none => old

/-- Every sensor that is in order has a full buffer. -/
def State.allFull (s : State) : Bool := (List.range 24).all fun i => !(s.sensorOk i) || (s.thm.bufs.getD i []).length == 64

/-- The sensor means and what follows from them in this tick: temperatures, HOT, the thermal cap, the gate's condition. -/
def State.thermalNow (s : State) : ThmSt :=
  let core := s.dieFilts 0
  let a := s.dieFilts 1
  let b := s.dieFilts 2
  let tj := orLast (maxT (core ++ a ++ b)) s.thm.tj
  let dt := [orLast (maxT core) (s.thm.dieT.getD 0 none), orLast (meanT a) (s.thm.dieT.getD 1 none), orLast (meanT b) (s.thm.dieT.getD 2 none)]
  let hot := match tj with | some t => decide (degC 110 ≤ t) | none => false
  let cap := match tj with | some t => thermalCap t | none => 20
  let cool := (List.range 24).all fun i => match s.filtOk i with | some t => decide (t < degC 105) | none => true
  { s.thm with tj := tj, dieT := dt, hot := hot, cap := cap, gateOk := s.allFull && cool }

/-- Publish a temperature, when there is one. -/
def State.publishT (s : State) (f : Fr) (t : Option Int) : State :=
  match t with | some t => s.publish f (twos 16 (thmReg t)) | none => s

/-- Publish one sensor's readings. -/
def State.publishSensor (s : State) (i : Nat) : State :=
  (s.publish (Reg.THM_T.RAW i) (twos 16 (s.thm.raw.getD i 0))).publishT (Reg.THM_T.FILT i) (s.thm.filt i)

/-- Publish the thermal registers. -/
def State.thermalShow (s : State) : State :=
  let s := ((s.publish Reg.THM_STATUS.CAP_THERM s.thm.cap).publish (Reg.FEC_DEC_STATUS.CAP_THERM 0) s.thm.cap).publish
    (Reg.FEC_DEC_STATUS.CAP_THERM 1) s.thm.cap
  let s := (s.publish Reg.THM_STATUS.HOT (b2n s.thm.hot)).publish Reg.THM_STATUS.ALL_FULL (b2n s.allFull)
  let s := (s.publishT Reg.THM_TEMPS.T_J s.thm.tj).publishT Reg.THM_TEMPS.T_CORE (s.thm.dieT.getD 0 none)
  let s := (s.publishT (Reg.CNV_TEMP.T_TILE 0) (s.thm.dieT.getD 1 none)).publishT (Reg.CNV_TEMP.T_TILE 1) (s.thm.dieT.getD 2 none)
  (List.range 24).foldl State.publishSensor s

/-- Phase 4 up to the shutdown check: derived temperatures, bands, cap, HOT. -/
def State.thermal (s : State) : State :=
  let s := s.sensorCheck
  let old := s.thm
  let s := { s with thm := s.thermalNow }
  let s := [0, 1, 2].foldl State.bandEval s
  let s := if old.cap != s.thm.cap then s.count (miscCtr 3 0) 1 else s
  let s := (s.raiseIf (s.thm.hot && !old.hot) Reg.THM_EVENT.HOT_ON).raiseIf (!s.thm.hot && old.hot) Reg.THM_EVENT.HOT_OFF
  s.thermalShow

/-! ### Shutdown and the gate (R394-R396) -/

/-- The first location that confirms a shutdown, with its two filtered readings (R394). -/
def State.confirms (s : State) : Option (Nat × Int × Int) :=
  (List.range 12).findSome? fun loc =>
    match s.filtOk (2 * loc), s.filtOk (2 * loc + 1) with
    | some a, some b => if degC 125 ≤ max a b ∧ absI (a - b) ≤ (degC 3).natAbs then some (loc, a, b) else none
    | _, _ => none

/-- The actions of R395. -/
def State.shutdown (s : State) (loc : Nat) (a b : Int) : State :=
  let mute (x : Line) : Line := { x with mute := x.mute ||| 64 }
  let s := (s.modLn 0 mute).modLn 1 mute
  let s := ((s.setFld (Reg.TXP_STATUS.MUTE_SRC 0) s.lnA.mute).setFld (Reg.TXP_STATUS.MUTE_SRC 1) s.lnB.mute)
  let s := ((s.setFld (Reg.TXP_STATUS.MUTED 0) 1).setFld (Reg.TXP_STATUS.MUTED 1) 1)
  let s := { s with pins := { s.pins with hostLanesIdle := true, dacZeroA := true, dacZeroB := true } }
  let s := s.setFld Reg.THM_STATUS.SHUTDOWN 1
  let s := match s.commit with
    | some c => s.abandonCommit (if c.actTick = s.tick then 5 else 2)
    | none => s
  let s := s.raiseOwn Reg.THM_EVENT.SHUTDOWN
  let s := s.queueRec 0x0001 2 3 ([BitVec.ofNat 8 loc, 0#8] ++ leBytes 2 (twos 16 (thmReg a)) ++ leBytes 2 (twos 16 (thmReg b)))
  if s.boot.healthEnd.isSome then s.stopHealth else s

/-- Phase 4's shutdown check. -/
def State.shutdownCheck (s : State) : State :=
  if s.down then s
  else match s.confirms with
    | some (loc, a, b) => s.shutdown loc a b
    | none => s

/-- The gate opens (R396). -/
def State.gateClear (s : State) : State :=
  if s.bit Reg.THM_STATUS.GATE && s.thm.gateOk then
    let s := (s.setFld Reg.THM_STATUS.GATE 0).raiseOwn Reg.THM_EVENT.GATE_CLEAR
    s.queueFirst 0x0002 0 3 (leBytes 2 (twos 16 (thmReg (s.thm.tj.getD 0))) ++ [0#8, 0#8] ++ leBytes 8 (s.tick - s.boot.gateFrom))
  else s

/-- GATE_CLEAR (R396). -/
def execGateClear (s : State) : Host.Outcome State Fault Refusal := .next (s.cmdDecide State.gateClear)
/-- SENSOR_FAULT (R387, R388). -/
def execSensorFault (s : State) : Host.Outcome State Fault Refusal := .next (s.cmdDecide State.sensorFault)

end Sys2Proof.Machine
end

