-- ==== Sys2Proof/Machine/Mon.lean ====
section
/-! DEFINITION. The monitor converters (R397-R403). -/

namespace Sys2Proof.Machine

/-! ### Units -/

def State.mon (s : State) (u : Nat) : MonUnit := if u = 0 then s.mon0 else if u = 1 then s.mon1 else s.mon2
def State.setMon (s : State) (u : Nat) (x : MonUnit) : State :=
  if u = 0 then { s with mon0 := x } else if u = 1 then { s with mon1 := x } else { s with mon2 := x }

def State.monSettled (s : State) (u : Nat) : Bool := (s.fld Reg.MON_STATUS.SETTLED).testBit u
def State.monIsolated (s : State) (u : Nat) : Bool := (s.fld Reg.MON_STATUS.ISOLATED).testBit u

/-- Whether a unit converts: enabled, and its tile powered (R397). -/
def State.monRuns (s : State) (u : Nat) : Bool := s.bit (Reg.MON_CTL.EN u) && (u == 0 || ((s.ln (u - 1)).power && !s.down))

/-- Settling times in ticks (R399). -/
def settleTicks (ref : Nat) : Nat := if ref = 0 then 50 else if ref = 1 then 200 else 10

/-- Stop or restart a unit whose conditions changed, and take a change of REF (R397, R399, R402). -/
def State.monFollow (s : State) (u : Nat) : State :=
  let x := s.mon u
  let runs := s.monRuns u
  let s :=
    if x.on && !runs then
      (List.range 64).foldl (fun s n => (s.setFld (Reg.MON_RES.VALID u n) 0).publish (Reg.MON_RES.VALID u n) 0)
        (s.setMon u { x with on := false, fails := 0, fresh := [], xNew := false, xNewR := false, urg := none, urgDone := none })
    else if !x.on && runs then s.setMon u { x with on := true, pos := 0 }
    else s
  let r := s.fld (Reg.MON_CTL.REF u)
  if r = (s.mon u).ref then s
  else (s.setFld ⟨Reg.MON_STATUS, u, u⟩ 0).setMon u { s.mon u with ref := r, settleAt := s.tick + settleTicks r }

def State.monFollows (s : State) : State := [0, 1, 2].foldl State.monFollow s

/-- A conversion of unit `u` ends with a code and the value at the source (R397); an accepted urgent conversion is the
next one (R403). -/
def State.monConvert (s : State) (u code value : Nat) : State :=
  let x := s.mon u
  if !(x.on && s.monRuns u) then s
  else
    let n := match x.urg with | some n => n | none => x.pos
    let r : MonRes := ⟨value % 65536, code % 4096, s.monSettled u⟩
    let next := if x.urg.isSome then x.pos else if s.fld (Reg.MON_CTL.LEN u) ≤ x.pos + 1 then 0 else x.pos + 1
    let valid := s.bit (Reg.MON_LIST.VALID u n)
    let isX := valid && s.fld (Reg.MON_LIST.SRC u n) == 0 && r.settled
    let x := { x with pos := next, urg := none, urgDone := if x.urg.isSome then x.urg else x.urgDone,
                      fresh := if valid then x.fresh ++ [(n, r)] else x.fresh }
    s.setMon u (if isX then { x with x := r.value, xNew := true, xNewR := true } else x)

/-! ### Publication, limits, debounce (R400) -/

/-- One result's effect on its entry's run; an unchecked entry, an unsettled result and an isolated unit do not count. -/
def State.monRun (s : State) (u n : Nat) (r : MonRes) (x : MonUnit) : MonUnit :=
  let lo := s.fld (Reg.MON_LIM.LO u n)
  let hi := s.fld (Reg.MON_LIM.HI u n)
  if !r.settled || s.monIsolated u || (lo == 0 && hi == 0xFFFF) then x
  else
    let o := b2n (decide (r.value < lo) || decide (hi < r.value))
    let q := x.runs.get (fun _ => 0) n
    { x with runs := x.runs.set (fun _ => 0) n (if q % 2 = o then 2 * min 15 (q / 2 + 1) + o else 2 + o) }

/-- Publish one entry's newest result. -/
def State.monPublish1 (s : State) (u : Nat) (p : Nat × MonRes) : State :=
  let s := s.setMon u (s.monRun u p.1 p.2 (s.mon u))
  let s := (s.publish (Reg.MON_RES.VALUE u p.1) p.2.value).publish (Reg.MON_RES.CODE u p.1) p.2.code
  (s.publish (Reg.MON_RES.SETTLED u p.1) (b2n p.2.settled)).publish (Reg.MON_RES.VALID u p.1) 1

/-- Phase 5: each entry publishes its newest result. -/
def State.monPublish (s : State) (u : Nat) : State :=
  let x := s.mon u
  let s := x.fresh.foldl (fun s p => s.monPublish1 u p) s
  let s := if x.xNew then s.publish (Reg.MON_XCHK.VALUE u) x.x else s
  let s := s.raiseIf x.urgDone.isSome Reg.MON_EVENT.URG_DONE
  s.setMon u { s.mon u with fresh := [], urgDone := none }

/-- EXCURSION: an entry whose run reached DEB changes its OUT bit; an isolated unit's hold (R400, R401). -/
def State.excursion (s : State) (u n : Nat) : State :=
  let x := s.mon u
  let q := x.runs.get (fun _ => 0) n
  let out := x.out.get (fun _ => false) n
  if u < 3 ∧ n < 64 ∧ s.monIsolated u = false ∧ s.fld (Reg.MON_LIST.DEB u n) ≤ q / 2 ∧ 0 < q / 2 ∧ (q % 2 == 1) ≠ out then
    let s := s.setMon u { x with out := x.out.set (fun _ => false) n (q % 2 == 1) }
    (s.publish (Reg.MON_RES.OUT u n) (q % 2)).raiseAt (if q % 2 = 1 then Reg.MON_EVENT.EXCURSION else Reg.MON_EVENT.EXC_CLEAR) (64 * u + n)
  else s

/-! ### The cross-check (R401, R402) -/

/-- The middle of three values. -/
def mid3 (a b c : Nat) : Nat := max (min a b) (min (max a b) c)

/-- Whether two results agree: they differ by at most 0.5 % of the median of the three. -/
def agree3 (m a b : Nat) : Bool := decide (200 * absDiff a b ≤ m)

/-- Whether two results agree when two are compared; their median is their mean. -/
def agree2 (a b : Nat) : Bool := decide (400 * absDiff a b ≤ a + b)

/-- The outcome of a comparison of three: 3 all agree, 0 to 2 the one that disagrees with two that agree, 4 otherwise. -/
def compare3 (a b c : Nat) : Nat :=
  let m := mid3 a b c
  let ab := agree3 m a b
  let bc := agree3 m b c
  let ac := agree3 m a c
  if ab && bc && ac then 3
  else if bc && !ab && !ac then 0
  else if ac && !ab && !bc then 1
  else if ab && !ac && !bc then 2
  else 4

/-- Take a comparison's outcome into the counts: `o` names a unit, 3 is a pass, 4 names none. -/
def State.monOutcome (s : State) (o : Nat) : State :=
  let f (u : Nat) (x : MonUnit) : MonUnit := { x with fails := if o = u then min 3 (x.fails + 1) else 0 }
  let s := { s with mon0 := f 0 s.mon0, mon1 := f 1 s.mon1, mon2 := f 2 s.mon2 }
  let s := if o = 3 then s else s.count (miscCtr 4 0) 1
  let n := if o = 4 then s.monUndet + 1 else 0
  ({ s with monUndet := min 4 n }).raiseIf (n == 3) Reg.MON_EVENT.XCHK_UNDET

/-- Mark results as compared. -/
def State.monUsed (s : State) (us : List Nat) : State := us.foldl (fun s u => s.setMon u { s.mon u with xNew := false }) s

/-- The re-admission of an isolated unit: 64 comparisons in a row with the other two in which all agree (R401). -/
def State.monReadmit (s : State) (u : Nat) : State :=
  let others := [0, 1, 2].filter (· != u)
  if s.monIsolated u && s.bit (Reg.MON_CTL.RETEST u) && others.all (fun v => (s.mon v).on && !s.monIsolated v) &&
      [0, 1, 2].all (fun v => (s.mon v).xNewR) && (s.mon u).on then
    let o := compare3 s.mon0.x s.mon1.x s.mon2.x
    let s := [0, 1, 2].foldl (fun s v => s.setMon v { s.mon v with xNewR := false }) s
    let n := if o = 3 then (s.mon u).passes + 1 else 0
    if n = 64 then
      ((s.setFld ⟨Reg.MON_STATUS, 3 + u, 3 + u⟩ 0).setFld (Reg.MON_CTL.RETEST u) 0).setMon u { s.mon u with passes := 0, fails := 0, xNew := false }
    else s.setMon u { s.mon u with passes := n }
  else s

/-- Phase 5's comparison. -/
def State.monCompare (s : State) : State :=
  let act := [0, 1, 2].filter fun u => (s.mon u).on && !s.monIsolated u
  let ready := !act.isEmpty && act.all fun u => (s.mon u).xNew
  let s :=
    if !ready then s
    else match act with
      | [_, _, _] => (s.monOutcome (compare3 s.mon0.x s.mon1.x s.mon2.x)).monUsed act
      | [a, b] => (s.monOutcome (if agree2 (s.mon a).x (s.mon b).x then 3 else 4)).monUsed act
      | [a] => (s.monOutcome (if absDiff (s.mon a).x 6000 ≤ 120 then 3 else a)).monUsed act
      | _ => s
  [0, 1, 2].foldl State.monReadmit s

/-- MON_FAULT: the unit against which three comparisons in a row failed is isolated. -/
def State.monFault (s : State) (u : Nat) : State :=
  if u < 3 ∧ 3 ≤ (s.mon u).fails ∧ s.monIsolated u = false then
    (((s.setFld ⟨Reg.MON_STATUS, 3 + u, 3 + u⟩ 1).setFld (Reg.MON_CTL.RETEST u) 0).setMon u
      { s.mon u with fails := 0, passes := 0 }).raiseAt Reg.MON_EVENT.MON_FAULT u
  else s

/-- REF_SETTLED (R399). -/
def State.refSettled (s : State) (u : Nat) : State :=
  if u < 3 ∧ s.monSettled u = false ∧ (s.mon u).settleAt ≤ s.tick then (s.setFld ⟨Reg.MON_STATUS, u, u⟩ 1).raiseAt Reg.MON_EVENT.REF_SETTLED u
  else s

/-- An urgent request reaches its unit; `last` says that this is the last clock cycle of a conversion (R403). -/
def State.urgent (s : State) (last : Bool) : State :=
  let u := s.fld Reg.MON_URG.UNIT
  let n := s.fld Reg.MON_URG.ENTRY
  let s := s.setFld Reg.MON_URG.GO 0
  if !s.bit (Reg.MON_LIST.VALID u n) || s.monIsolated u || !s.monSettled u || !(s.mon u).on then s.raise Reg.MON_EVENT.URG_REJECT
  else if last then s.setMon u { s.mon u with urg := some n }
  else s.raise Reg.MON_EVENT.URG_DROP

/-- Phase 5 of a tick. -/
def State.phase5 (s : State) : State := ((s.monPublish 0).monPublish 1 |>.monPublish 2).monCompare

/-! ### Meanings -/

/-- MON_CONVERSION (R397). -/
def execMonConversion (u code value : Nat) (s : State) : Host.Outcome State Fault Refusal := .next (s.cmd (·.monConvert u code value))
/-- REF_SETTLED (R399). -/
def execRefSettled (u : Nat) (s : State) : Host.Outcome State Fault Refusal := .next (s.cmdDecide (·.refSettled u))
/-- EXCURSION (R400). -/
def execExcursion (u n : Nat) (s : State) : Host.Outcome State Fault Refusal := .next (s.cmdDecide (·.excursion u n))
/-- MON_FAULT (R401, R402). -/
def execMonFault (u : Nat) (s : State) : Host.Outcome State Fault Refusal := .next (s.cmdDecide (·.monFault u))

end Sys2Proof.Machine
end

