-- ==== Sys2Proof/Machine/Clk.lean ====
section
/-! DEFINITION. The reference selector and the DPLL (R336-R350). -/

namespace Sys2Proof.Machine

open Sys2Proof (TickIn)

/-! ### Inputs -/

def State.refIn (s : State) (i : Nat) : RefIn := s.clk.ins.getD i {}
def State.setRefIn (s : State) (i : Nat) (x : RefIn) : State := { s with clk := { s.clk with ins := s.clk.ins.set i x } }

/-- Whether an input carries a disputed mark. -/
def State.refDisputed (s : State) (i : Nat) : Bool := s.clk.disputes.any fun d => d.a == i || d.b == i

/-- The mean frequency offset of an input from XO_IN over 1,000,000 ticks, ppt (R338). -/
def RefIn.fofs (x : RefIn) : Option Int := x.tot.map fun t => roundDiv t 1000000

/-- FREQ_OK (R338). -/
def State.refFreqOk (s : State) (i : Nat) : Bool :=
  match (s.refIn i).tot with
  | some f => decide (f.natAbs ≤ s.fld Reg.CLK_QUAL.FREQ_LIM * 10 ^ 11)
  | none => false

/-- Show an input's status, published at the next boundary. -/
def State.refShow (s : State) (i : Nat) : State :=
  let x := s.refIn i
  let ok := s.refFreqOk i
  let wtr := x.again && !x.qualified && !x.outlier && decide (0 < x.held)
  let w := b2n x.active + 2 * b2n ok + 4 * b2n x.qualified + 8 * b2n wtr + 16 * b2n (s.refDisputed i) + 32 * b2n x.outlier +
    64 * b2n (s.clk.sel == some i) + 256 * (match x.fofs with | some f => twos 24 (roundDiv f 1000) | none => 0x800000)
  s.publishReg (Reg.CLK_IN_STATUS i) w

/-- The index numbers of the inputs. -/
def refAll : List Nat := List.range 14

/-- Disqualify an input: its wait starts anew. -/
def State.refDrop (s : State) (i : Nat) : State :=
  let x := s.refIn i
  let s := s.setRefIn i { x with qualified := false, held := 0 }
  { s with clk := { s.clk with disputes := s.clk.disputes.filter fun d => !(d.a == i || d.b == i) } }.raiseAt Reg.CLK_EVENT.DISQUAL i

/-- The magnitude of the mean of two inputs' frequency difference over 1,000,000 ticks, in 10^-6 ppt; none when one is not measured. -/
def State.refDiff (s : State) (i j : Nat) : Option Nat :=
  match (s.refIn i).tot, (s.refIn j).tot with
  | some a, some b => some (a - b).natAbs
  | _, _ => none

/-- Whether two inputs' difference is at or below DIS_LIM. -/
def State.refNear (s : State) (i j : Nat) : Bool :=
  match s.refDiff i j with
  | some d => decide (d ≤ s.fld Reg.CLK_CTL.DIS_LIM * 10 ^ 9)
  | none => false

/-- Whether two inputs' difference exceeds DIS_LIM. -/
def State.refFar (s : State) (i j : Nat) : Bool :=
  match s.refDiff i j with
  | some d => decide (s.fld Reg.CLK_CTL.DIS_LIM * 10 ^ 9 < d)
  | none => false

/-- The source of an input: inputs 5 to 12 take the recovered clock of the host lane that LANE names (R336). -/
def State.refSrc (s : State) (i : Nat) : Nat := if 5 ≤ i ∧ i ≤ 12 then 16 + s.fld (Reg.CLK_IN_CFG.LANE i) else i

/-- The activity of an input in the last tick (R336, R340). -/
def State.refActive (s : State) (t : TickIn) (i : Nat) : Bool :=
  if i = 2 then
    (match s.tim.ppsTick with
     | some p => decide (s.tick ≤ p + 1000000 + 9000)
     | none => false) && (!s.bit Reg.TIM_PPS_CFG.TOD_REQ || decide (2 ≤ s.tim.todRun))
  else if i = 3 ∨ i = 4 then s.bit (Reg.RXP_STATUS.CLK_LOCK (i - 3)) && !((s.fld (Reg.FRM_STATUS.DEF (i - 3))).testBit 0)
  else if i = 13 then true
  else t.refOn.contains (s.refSrc i)

/-- An input's offset from XO_IN in one tick, ppt: a line's is its published clock offset, which is against the time base, and the time
base's own; the numeric source's is its applied value (R255, R338, R350). -/
def State.refOfs (s : State) (t : TickIn) (i : Nat) : Option Int :=
  if i = 3 ∨ i = 4 then some (1000 * sx 32 (s.fld (Reg.RXP_MON_CLKOFS.CLKOFS (i - 3))) + roundDiv s.clk.out 1000)
  else if i = 13 then some s.clk.num
  else (t.refFofs.find? fun p => p.1 == s.refSrc i).map (·.2)

/-- The offsets of an active input in the last 1,000,000 ticks. -/
def State.refRecs (s : State) (t : TickIn) (i : Nat) : List Int :=
  match s.refOfs t i with
  | some o => if s.refActive t i then (o :: (s.refIn i).recs).take 1000000 else []
  | none => []

/-- Phase 2 for one input: its activity and mean frequency are latched (R337, R338, R340). -/
def State.refLatch (s : State) (t : TickIn) (i : Nat) : State :=
  let x := s.refIn i
  let rank := s.fld (Reg.CLK_IN_CFG.RANK i)
  let recs := s.refRecs t i
  s.setRefIn i { x with
    recs := recs, active := s.refActive t i, tot := if rank != 0 && recs.length == 1000000 then some (recs.foldl (· + ·) 0) else none
    again := x.again && rank != 0, rank := rank, outlier := x.outlier && rank != 0 }

/-- A phase hit of an input in the tick (R338). -/
def State.refHit (s : State) (t : TickIn) (i : Nat) : Bool :=
  i != 13 && (if i = 2 then s.tim.ppsHit else t.refMoves.any fun p => p.1 == s.refSrc i && decide (4 * s.fld (Reg.CLK_IN_CFG.PHIT i) < p.2))

/-- Whether an input is in order, a hit left out (R339).  The qualified numeric source is so while its applied value is within FREQ_LIM
(R350). -/
def State.refGood (s : State) (i : Nat) : Bool :=
  let x := s.refIn i
  x.rank != 0 && x.active && (if i = 13 ∧ x.qualified = true then decide (s.clk.num.natAbs ≤ s.fld Reg.CLK_QUAL.FREQ_LIM * 100000) else s.refFreqOk i)

/-- Step 1 of phase 3 for one input: disqualified, or its wait counted; `sel` is the selection of the last tick (R339-R343). -/
def State.refJudge (s : State) (t : TickIn) (sel : Option Nat) (i : Nat) : State :=
  let x := s.refIn i
  let hit := s.refHit t i
  let s := if hit && x.rank != 0 then s.raiseAt Reg.CLK_EVENT.PHASE_HIT i else s
  let good := s.refGood i && !hit
  if x.qualified then (if good then s else s.refDrop i)
  else
    let freed := x.outlier && s.refNear i x.arbiter && (match sel with | some j => s.refNear i j | none => true)
    let x := if freed then { x with outlier := false } else x
    s.setRefIn i (if good && !x.outlier then { x with held := min 5000000000 (x.held + 1) } else { x with held := 0 })

/-! ### Disputes (R342, R343) -/

/-- The best-ranked of a list of inputs, the lowest index on a tie. -/
def State.refBest (s : State) (is : List Nat) : Option Nat :=
  is.foldl (fun b i => match b with
    | none => some i
    | some j => if (s.refIn i).rank < (s.refIn j).rank then some i else some j) none

/-- Mark the pairs of qualified inputs of equal rank that disagree. -/
def State.findDisputes (s : State) : State :=
  let pairs := refAll.flatMap fun i => (refAll.filter fun j => decide (i < j)).map fun j => (i, j)
  pairs.foldl (fun s p =>
    let x := s.refIn p.1
    let y := s.refIn p.2
    if x.qualified && y.qualified && x.rank == y.rank && s.refFar p.1 p.2 && !(s.clk.disputes.any fun d => d.a == p.1 && d.b == p.2) then
      ({ s with clk := { s.clk with disputes := s.clk.disputes ++ [Dispute.mk p.1 p.2 0] } }).raiseAt Reg.CLK_EVENT.DISPUTE p.1
    else s) s

/-- Make an input the outlier. -/
def State.makeOutlier (s : State) (i arb : Nat) : State :=
  let s := s.refDrop i
  (s.setRefIn i { s.refIn i with outlier := true, arbiter := arb }).raiseAt Reg.CLK_EVENT.OUTLIER i

/-- The arbiter's judgement of one disputed pair (R343). -/
def State.arbitrate (s : State) (d : Dispute) : State :=
  if !(s.clk.disputes.any fun e => e.a == d.a && e.b == d.b) then s
  else match s.refBest (refAll.filter fun i => (s.refIn i).qualified && i != d.a && i != d.b && !s.refDisputed i) with
    | none => s
    | some r =>
      if s.refNear r d.a && s.refFar r d.b then s.makeOutlier d.b r
      else if s.refNear r d.b && s.refFar r d.a then s.makeOutlier d.a r
      else s

/-- Step 2 of phase 3. -/
def State.disputeStep (s : State) : State := let s := s.findDisputes; s.clk.disputes.foldl State.arbitrate s

/-- DISPUTE_CLEAR (R342). -/
def State.disputeClear (s : State) : State :=
  { s with clk := { s.clk with disputes := s.clk.disputes.filter fun d => decide (d.calm < 10000000) } }

/-! ### Choice and publication (R341, R344-R346, R349) -/

/-- Step 3 of phase 3. -/
def State.refChoose (s : State) : State :=
  let q := refAll.filter fun i => (s.refIn i).qualified
  match s.refBest q with
  | none => { s with clk := { s.clk with sel := none } }
  | some b =>
    let rank := (s.refIn b).rank
    let stays := match s.clk.sel with | some i => q.contains i && (s.refIn i).rank == rank | none => false
    if stays then s
    else
      let top := q.filter fun i => (s.refIn i).rank == rank
      let calm := top.filter fun i => !s.refDisputed i
      match (if calm.isEmpty then top else calm) with
      | [] => s
      | i :: _ => ({ s with clk := { s.clk with sel := some i } }).raiseAt Reg.CLK_EVENT.SWITCH i

/-- Show every input and the selection. -/
def State.refShowAll (s : State) : State :=
  (refAll.foldl State.refShow s).publish Reg.CLK_STATUS.SEL (match s.clk.sel with | some i => i | none => 15)

/-- Steps 2 and 3. -/
def State.refDecide (s : State) : State := s.disputeStep.refChoose.refShowAll

def State.dpll (s : State) : Nat := s.fld Reg.CLK_STATUS.STATE

/-- Enter a DPLL state, with the tick status it shows (R344). -/
def State.setDpll (s : State) (v : Nat) : State :=
  ((s.setFld Reg.CLK_STATUS.STATE v).setFld Reg.GLB_TICK_STATUS.TB_LOCKED (b2n (v == 1))).setFld Reg.GLB_TICK_STATUS.HOLDOVER (b2n (v == 0 || v == 3))

/-- The measured frequency of an input, 10^-3 ppt; the numeric source's is the applied one. -/
def State.refFreq (s : State) (i : Nat) : Int := if i = 13 then 1000 * s.clk.num else roundDiv ((s.refIn i).tot.getD 0) 1000

/-- The holdover value, 10^-3 ppt (R348). -/
def State.holdValue (s : State) : Int :=
  let old := (s.clk.recs.drop 5).take 60
  let good := old.filter fun r => r.2
  if 10 ≤ good.length then roundDiv (good.foldl (fun a r => a + r.1) 0) (1000000 * good.length)
  else match good with
    | [] => 0
    | r :: _ => roundDiv r.1 1000000

/-- A tick boundary publishes the choice; a selection out of FREERUN acquires with no slew limit, and HOLDOVER holds the value that it
begins with (R345, R346, R349). -/
def State.selPublish (s : State) : State :=
  if s.clk.pub = s.clk.sel then s
  else
    let old := s.dpll
    let s := { s with clk := { s.clk with pub := s.clk.sel, first := old == 0, there := false } }
    match s.clk.sel with
    | none => ({ s with clk := { s.clk with hold := s.holdValue } }.setDpll 3).raise Reg.CLK_EVENT.HOLDOVER_ON
    | some _ => (if old = 3 then s.raise Reg.CLK_EVENT.HOLDOVER_OFF else if old = 2 then s.raise Reg.CLK_EVENT.REDIRECT else s).setDpll 2

/-- Move a value toward a target by at most a step. -/
def toward (v target : Int) (step : Nat) : Int := if target < v then max target (v - step) else min target (v + step)

/-- The loop bandwidth of an input's type. -/
def State.refBw (s : State) (i : Nat) : Nat :=
  s.fld (Reg.CLK_BW.BW (if i ≤ 1 then 0 else if i = 2 then 1 else if i = 3 ∨ i = 4 then 3 else 2))

/-- The selected input's frequency in the last tick as the phase detector sees it, 10^-3 ppt: none from the first missing edge on (R340). -/
def State.refNow (s : State) (t : TickIn) (i : Nat) : Option Int :=
  let here := s.refActive t i && (i != 2 || (match s.tim.ppsTick with | some p => decide (s.tick ≤ p + 1000001) | none => false))
  if here then (s.refOfs t i).map (1000 * ·) else none

/-- The damping of the loop in 1/16: any with which its peaking is at most 0.1 dB, 70 or more (R347; free). -/
def loopDamp : Nat := max 70 Config.loopDamp

/-- The proportional and the integral gain of a tick of a second-order loop of a 3 dB bandwidth in mHz, in 2^-48 and 2^-96: with the damping
ζ, the natural frequency ω is the bandwidth ÷ √(2ζ² + 1 + √((2ζ² + 1)² + 1)); the gains are 2ζωT and (ωT)² (R347). -/
def loopGains (bw : Nat) : Nat × Nat :=
  let q := 2 * loopDamp ^ 2 + 256
  let ki := (2 * (piFix 32 : Nat) * bw) ^ 2 * 2 ^ 40 / (10 ^ 18 * (q + isqrt (q ^ 2 + 65536)))
  (loopDamp * isqrt ki / 8, ki)

/-- A LOCKED tick of the loop filter: the phase detector adds what the input gains on the output. -/
def ClkSt.loop (c : ClkSt) (bw : Nat) (f : Int) : ClkSt :=
  let e := c.phase + (f - c.out)
  let g := loopGains bw
  let i := c.integ + g.2 * e
  { c with phase := e, integ := i, out := i / 2 ^ 96 + g.1 * e / 2 ^ 48 }

/-- The output frequency's part of a tick: LOCKED follows, SLEWING moves toward the selected input's frequency, HOLDOVER to its value. -/
def State.dpllMove (s : State) (t : TickIn) : ClkSt :=
  let c := s.clk
  let step := s.fld Reg.CLK_QUAL.FSLEW
  match s.dpll, c.pub with
  | 1, some i => if i = 13 then { c with out := 1000 * c.num } else match s.refNow t i with | some f => c.loop (s.refBw i) f | none => c
  | 2, some i =>
    let v := if c.first then s.refFreq i else toward c.out (s.refFreq i) step
    { c with out := v, there := v == s.refFreq i }
  | 3, _ => { c with out := toward c.out c.hold step }
  | _, _ => c

/-- The output frequency in one tick. -/
def State.dpllTick (s : State) (t : TickIn) : State :=
  let c := s.dpllMove t
  let s := { s with clk := { c with sum := c.sum + c.out, all := c.all && s.dpll == 1 } }
  s.publishReg Reg.CLK_OUT_FREQ (twos 32 (roundDiv c.out 1000))

/-- At a boundary the numeric source's applied value moves (R350). -/
def State.numStep (s : State) : State :=
  let v := toward s.clk.num (sx 32 (s.fld Reg.CLK_NUM_FREQ.FREQ)) (s.fld Reg.CLK_NUM_SLEW.SLEW)
  { s with clk := { s.clk with num := v } }.setFld Reg.CLK_NUM_APPLIED.FREQ (twos 32 v)

/-- At a multiple of 1,000,000 ticks the running second ends (R348). -/
def State.secondEnd (s : State) : State :=
  if s.tick % 1000000 = 0 then { s with clk := { s.clk with due := some (s.clk.sum, s.clk.all), sum := 0, all := true } } else s

/-- The REFOUT pin carries its clock (R357). -/
def State.refoutOn (s : State) : Bool :=
  s.fld Reg.CLK_REFOUT.FREQ != 3 && !(s.bit Reg.CLK_REFOUT.SQUELCH && (s.dpll == 0 || s.dpll == 3))

/-- REFOUT in a tick (R357). -/
def State.refoutShow (s : State) : State :=
  { s with pins := { s.pins with refout := if s.refoutOn then (if s.fld Reg.CLK_REFOUT.FREQ = 0 then 10000 else if s.fld Reg.CLK_REFOUT.FREQ = 1 then 25000 else 156250) else 0 } }

/-- The tick boundary's part: publication, numeric source, slew. -/
def State.clkBoundary (s : State) (t : TickIn) : State := (s.selPublish.numStep.secondEnd.dpllTick t).refoutShow

/-- GLB_TICK_STATUS shows free-run on XO_IN as holdover too, from the first tick on (R43). -/
def State.showFree (s : State) : State := s.setFld Reg.GLB_TICK_STATUS.HOLDOVER (b2n (s.dpll == 0 || s.dpll == 3))

/-- Phases 2 and 3. -/
def State.clkPhase3 (s : State) (t : TickIn) : State :=
  let s := s.showFree
  let s := refAll.foldl (fun s i => s.refLatch t i) s
  let s := refAll.foldl (fun (a : State) i => a.refJudge t s.clk.sel i) s
  let s := { s with tim := { s.tim with ppsHit := false } }
  let s := { s with clk := { s.clk with disputes := s.clk.disputes.map fun (d : Dispute) => { d with calm := if s.refNear d.a d.b then min 10000000 (d.calm + 1) else 0 } } }
  s.refDecide

/-! ### Meanings -/

/-- How long an input's conditions must hold beyond the tick in which they begin to (R339 and the worked example, where a wait of
300,000,000 ticks that starts at tick 1,001,700,000 completes at tick 1,301,700,000). -/
def State.refWait (s : State) (i : Nat) : Nat := if (s.refIn i).again then s.fld Reg.CLK_CTL.WTR_S * 1000000 else 2000000

/-- QUAL: an input whose period is complete becomes qualified, and the decisions of the tick take it in (R339, R341). -/
def State.qual (s : State) (i : Nat) : State :=
  let x := s.refIn i
  if i < 14 ∧ x.qualified = false ∧ x.rank ≠ 0 ∧ s.refWait i < x.held then
    (s.setRefIn i { x with qualified := true, again := true } |>.raiseAt Reg.CLK_EVENT.QUAL i).refDecide
  else s

/-- LOCKED: the output has reached the selected input's frequency (R345). -/
def State.lockedRow (s : State) : State :=
  match s.dpll, s.clk.pub with
  | 2, some _ =>
    if s.clk.there then
      ({ s with clk := { s.clk with phase := 0, integ := s.clk.out * 2 ^ 96, first := false, there := false } }.setDpll 1).raise Reg.CLK_EVENT.LOCKED
    else s
  | _, _ => s

/-- HOLDOVER_RECORD (R348). -/
def State.holdRecord (s : State) : State :=
  match s.clk.due with
  | none => s
  | some r =>
    let s := { s with clk := { s.clk with due := none, recs := (r :: s.clk.recs).take 65 } }
    let n := (((s.clk.recs.drop 5).take 60).filter fun r => r.2).length
    (s.publish Reg.CLK_STATUS.HOLD_QUAL (b2n (decide (10 ≤ n)))).publishReg Reg.CLK_HOLD_FREQ (twos 32 (roundDiv s.holdValue 1000))

/-- QUAL (R339). -/
def execQual (i : Nat) (s : State) : Host.Outcome State Fault Refusal := .next (s.cmdDecide (·.qual i))
/-- DISPUTE_CLEAR (R342). -/
def execDisputeClear (s : State) : Host.Outcome State Fault Refusal := .next (s.cmdDecide fun s => s.disputeClear.refShowAll)
/-- LOCKED (R344, R345). -/
def execLocked (s : State) : Host.Outcome State Fault Refusal := .next (s.cmdDecide State.lockedRow)
/-- HOLDOVER_RECORD (R348). -/
def execHoldoverRecord (s : State) : Host.Outcome State Fault Refusal := .next (s.cmdTick State.holdRecord)

end Sys2Proof.Machine
end

