-- ==== Sys2Proof/Machine/Tim.lean ====
section
/-! DEFINITION. The time counter, compares, PPS and time of day, line time transfer (R351-R365). -/

namespace Sys2Proof.Machine

/-! ### The counter (R351-R353) -/

/-- The counter in 2^-32 ns. -/
def State.time (s : State) : Nat := s.timeNs * 2 ^ 32 + s.timeFrac

/-- Set the counter, modulo 2^96. -/
def State.setTime (s : State) (t : Int) : State :=
  let n := (t % (2 ^ 96 : Nat)).toNat
  { s with timeNs := n / 2 ^ 32, timeFrac := n % 2 ^ 32 }

/-- The counter `cyc` time-base cycles after the last tick boundary. -/
def State.timeAt (s : State) (cyc : Nat) : Nat :=
  (((s.time : Int) + cyc * (2 ^ 33 + s.tim.adj)) % (2 ^ 96 : Nat)).toNat

/-- The integer and fraction that software reads. -/
def State.nowNs (s : State) (cyc : Nat) : Nat := s.timeAt cyc / 2 ^ 32
def State.nowFrac (s : State) (cyc : Nat) : Nat := s.timeAt cyc % 2 ^ 32

/-- Seconds of PPS_OUT at a counter value (R357). -/
def State.outSecond (s : State) (t : Nat) : Int :=
  ((t : Int) * 16 / (2 ^ 32 : Nat) - sx 16 (s.fld Reg.TIM_PPS_OUT.OFS)) / 16000000000

/-- A line's time-transfer stamps are void after the counter has jumped, and so is a step made of them. -/
def TtSt.jumped (t : TtSt) (follower : Bool) : TtSt :=
  { t with far := none, snap := none, rx := none, echo := none, step := none, samples := if follower then [] else t.samples, lock := t.lock && !follower }

/-- The counter jumps: stamps taken before are void, a follower's samples are discarded (R352, R365), and PPS_OUT
seconds passed are told from the new value. -/
def State.timeJump (s : State) (t : Int) : State :=
  let s := s.setTime t
  let f (l : Nat) (x : Line) : Line := { x with tt := x.tt.jumped (s.fld (Reg.TIM_TT_CFG.ROLE l) == 2) }
  let s := (s.modLn 0 (f 0)).modLn 1 (f 1)
  { s with tim := { s.tim with outMark := min s.tim.outMark (s.outSecond s.time) } }

/-- TIM_STATUS.ALIGNED (R361). -/
def State.aligned (s : State) : Bool :=
  (s.clk.pub == some 2 && s.bit Reg.TIM_STATUS.LOADED) ||
  [0, 1].any fun l => s.fld (Reg.TIM_TT_CFG.ROLE l) == 1 || (s.fld (Reg.TIM_TT_CFG.ROLE l) == 2 && (s.ln l).tt.lock)

/-- The most a slew moves the counter in one tick: 1 ns per 1,000 ticks, in 2^-32 ns. -/
def slewStep : Nat := 2 ^ 32 / 1000

/-- Whether a step or load is armed for this tick. -/
def State.adjDue (s : State) : Bool :=
  (s.bit Reg.TIM_ADJ_CTL.STEP || s.bit Reg.TIM_ADJ_CTL.SET) && decide (s.reg64 Reg.TIM_ACT_TICK_LO Reg.TIM_ACT_TICK_HI ≤ s.tick)

/-- An armed step or load is applied at the boundary that starts its tick; in a later tick than the one it was named for it is late
(R34, R352). -/
def State.adjApply (s : State) : State :=
  if !s.adjDue then s
  else
    let late := s.reg64 Reg.TIM_ACT_TICK_LO Reg.TIM_ACT_TICK_HI != s.tick
    let s :=
      if s.bit Reg.TIM_ADJ_CTL.STEP then s.timeJump ((s.time : Int) + sx 32 (s.fld Reg.TIM_STEP_NS.STEP) * (2 ^ 32 : Nat))
      else s.timeJump ((s.reg64 Reg.TIM_SET_LO Reg.TIM_SET_HI * 2 ^ 32 : Nat) : Int)
    let s := (s.setFld Reg.TIM_ADJ_CTL.STEP 0).setFld Reg.TIM_ADJ_CTL.SET 0
    { s with tim := { s.tim with done := some late } }

/-- A time-transfer step at the boundary (R365); a host adjustment there has abandoned it (R352). -/
def State.ttStepNow (s : State) (l : Nat) : State :=
  match (s.ln l).tt.step with
  | none => s
  | some d => s.timeJump (s.time + d * 65536)

/-- The boundary's part: the counter advances by a tick, a new increment takes effect, a step or slew is applied. -/
def State.timBoundary (s : State) : State :=
  let s := s.setTime (s.time + 500 * (2 ^ 33 + s.tim.adj))
  let s := { s with tim := { s.tim with adj := sx 32 (s.fld Reg.TIM_INCR_ADJ.ADJ) } }
  let s := (s.adjApply.ttStepNow 0).ttStepNow 1
  if s.clk.pub == some 2 then
    let m := toward s.tim.ppsErr 0 slewStep
    let s := s.setTime ((s.time : Int) - (s.tim.ppsErr - m))
    { s with tim := { s.tim with ppsErr := m } }
  else s

/-- ADJ_DONE: a step or load has been applied (R352). -/
def State.adjDone (s : State) : State :=
  match s.tim.done with
  | none => s
  | some late => ({ s with tim := { s.tim with done := none } }.raise Reg.TIM_EVENT.ADJ_DONE).raiseIf late Reg.GLB_TICK_EVENT.LATE_ACTION

/-- Arming a step or load: a tick that has passed is rejected (R352). -/
def State.adjArm (s : State) : State :=
  if s.reg64 Reg.TIM_ACT_TICK_LO Reg.TIM_ACT_TICK_HI ≤ s.tick then
    ((s.setFld Reg.TIM_ADJ_CTL.STEP 0).setFld Reg.TIM_ADJ_CTL.SET 0).raise Reg.TIM_EVENT.ADJ_REJECT
  else s

/-- CMP: an armed compare unit whose value the counter has reached, as a signed 64-bit difference, fires (R353). -/
def State.cmp (s : State) (k cyc : Nat) : State :=
  let d := sx 64 (twos 64 ((s.nowNs cyc : Int) - s.reg64 (Reg.TIM_CMP_LO k) (Reg.TIM_CMP_HI k)))
  if k < 4 ∧ s.bit (Reg.TIM_CMP_CTL.ARM k) = true ∧ 0 ≤ d then
    (s.setFld (Reg.TIM_CMP_CTL.ARM k) 0).raise ⟨Reg.TIM_EVENT, 9 + k, 9 + k⟩
  else s

/-! ### PPS and time of day (R354-R357) -/

/-- The value of an upper-case hexadecimal digit. -/
def hexDigit (b : Byte) : Option Nat :=
  let n := b.toNat
  if 48 ≤ n ∧ n ≤ 57 then some (n - 48) else if 65 ≤ n ∧ n ≤ 70 then some (n - 55) else none

/-- A byte from two hexadecimal digits. -/
def hexByte (b : List Byte) : Option Nat :=
  match b with
  | [x, y] => match hexDigit x, hexDigit y with | some a, some c => some (16 * a + c) | _, _ => none
  | _ => none

/-- A number from decimal digits. -/
def decimal (b : List Byte) : Option Nat :=
  b.foldl (fun a d => match a with
    | some n => if 48 ≤ d.toNat ∧ d.toNat ≤ 57 then some (10 * n + (d.toNat - 48)) else none
    | none => none) (some 0)

/-- The seconds of a valid ToD message (R355). -/
def todParse (m : List Byte) : Option Nat :=
  if m.length = 24 ∧ m.take 4 = [0x54#8, 0x4F#8, 0x44#8, 0x20#8] ∧ (m.drop 16).take 1 = [0x20#8] ∧ (m.drop 19).take 1 = [0x20#8] ∧
      m.drop 22 = [0x0D#8, 0x0A#8] ∧ hexByte ((m.drop 20).take 2) = some ((m.take 20).foldl (· ^^^ ·) 0#8).toNat then
    match hexByte ((m.drop 17).take 2), decimal ((m.drop 4).take 12) with
    | some st, some n => if st % 2 = 1 then some n else none
    | _, _ => none
  else none

/-- An upper-case hexadecimal digit. -/
def hexChar (n : Nat) : Byte := BitVec.ofNat 8 (if n < 10 then 48 + n else 55 + n)

/-- A ToD message. -/
def todMessage (secs status : Nat) : List Byte :=
  let ds := (List.range 12).map fun i => BitVec.ofNat 8 (48 + secs / 10 ^ (11 - i) % 10)
  let b : List Byte := [0x54#8, 0x4F#8, 0x44#8, 0x20#8] ++ ds ++ [0x20#8, hexChar (status / 16 % 16), hexChar (status % 16), 0x20#8]
  let x := (b.foldl (· ^^^ ·) 0#8).toNat
  b ++ [hexChar (x / 16), hexChar (x % 16), 0x0D#8, 0x0A#8]

/-- TOD_MESSAGE: its last bit ends at cycle `cyc` of the tick. -/
def State.todMsg (s : State) (m : List Byte) (cyc : Nat) : State :=
  match todParse m with
  | none => s
  | some n => { s.setReg64 Reg.TIM_TOD_LO Reg.TIM_TOD_HI n with tim := { s.tim with tod := some (n, 500 * s.tick + cyc) } }

/-- When the next pulse of PPS_IN is expected on the time base, in 1/16 ns: a second after the last, by the input's own measured
frequency (R338). -/
def State.ppsNext (s : State) : Int :=
  (s.tim.ppsAt : Int) + 16 * 10 ^ 9 + (if (s.refIn 2).tot.isSome then roundDiv (16 * (s.clk.out - s.refFreq 2)) 1000000 else 0)

/-- PPS_IN_EDGE: a pulse of `widthNs` ns whose edge lies at `cyc` cycles and `sub` sixteenths of a nanosecond after the
last tick boundary (R354, R356). -/
def State.ppsEdge (s : State) (widthNs cyc sub : Nat) : State :=
  if widthNs < 1000 then s.count 194 1
  else
    let edge : Int := (s.timeAt cyc + sub * 2 ^ 28 : Nat)
    let mark := edge + sx 16 (s.fld Reg.TIM_PPS_CFG.IN_DLY) * (2 ^ 28 : Nat)
    let sec : Int := (10 ^ 9 * 2 ^ 32 : Nat)
    let near := (mark + sec / 2) / sec
    let usable := match s.tim.tod with
      | some (n, t) => if t + 5 * 10 ^ 7 ≤ 500 * s.tick + cyc then some n else none
      | none => none
    let at_ := 16000 * s.tick + 32 * cyc + sub
    let early := s.tim.ppsTick.isSome && decide ((at_ : Int) + 64 * s.fld (Reg.CLK_IN_CFG.PHIT 2) < s.ppsNext)
    let tim := { s.tim with ppsTick := some s.tick, ppsAt := at_, ppsHit := s.tim.ppsHit || early, tod := none,
                            todRun := if usable.isSome then min 2 (s.tim.todRun + 1) else 0, ppsErr := mark - near * sec }
    let s := { s with tim := tim }.setFld Reg.TIM_STATUS.TOD_VALID (b2n usable.isSome)
    let load (s : State) (n : Nat) : State :=
      let s := (s.timeJump ((s.time : Int) + ((n : Int) * sec - mark))).setFld Reg.TIM_STATUS.LOADED 1
      { s with tim := { s.tim with mismatch := 0, ppsErr := 0 } }.raise Reg.TIM_EVENT.TOD_LOAD
    match usable with
    | none => s.raise Reg.TIM_EVENT.TOD_MISS
    | some n =>
      if !s.bit Reg.TIM_STATUS.LOADED then load s n
      else if 3 ≤ s.tim.mismatch then load s n
      else if (n : Int) ≠ near then ({ s with tim := { s.tim with mismatch := s.tim.mismatch + 1 } }).raise Reg.TIM_EVENT.TOD_MISMATCH
      else { s with tim := { s.tim with mismatch := 0 } }

/-- PPS_OUT_PULSE: the counter has crossed a second plus OFS by cycle `cyc`; several crossed at once send one pulse (R357). -/
def State.ppsPulse (s : State) (cyc : Nat) : State :=
  let m := s.outSecond (s.timeAt cyc)
  if m ≤ s.tim.outMark then s
  else
    let s := { s with tim := { s.tim with outMark := m } }
    if s.bit Reg.TIM_PPS_OUT.SQUELCH && !s.bit Reg.TIM_STATUS.LOADED then s
    else { s with tim := { s.tim with todOut := some (s.tick + 500000) } }.emit (.pps (s.fld Reg.TIM_PPS_OUT.WIDTH))

/-- TOD_OUT_SEND (R357). -/
def State.todSend (s : State) : State :=
  match s.tim.todOut with
  | none => s
  | some t =>
    if s.tick < t then s
    else
      let s := { s with tim := { s.tim with todOut := none } }
      if s.bit Reg.TIM_PPS_CFG.TOD_OUT then
        s.emit (.tod (todMessage (s.tim.outMark + 1).toNat (b2n (s.bit Reg.TIM_STATUS.LOADED))))
      else s

/-! ### Line time transfer (R362-R365) -/

/-- The head of an RX record fixes the far head that it and the ECHO record after it name (R362). -/
def State.ttSnap (s : State) (l fn : Nat) : State := if fn % 4 = 1 then s.modLn l fun x => { x with tt := { x.tt with snap := x.tt.far } } else s

/-- The time-transfer field of the head of frame `fn`, whose transmit time is `t` in 2^-16 ns (R362). -/
def State.ttField (s : State) (l fn t : Nat) : List Byte :=
  let x := (s.ln l).tt
  let stamp (v : Nat) : List Byte := beBytes 8 (v / 65536) ++ beBytes 2 (v % 65536)
  match fn % 4 with
  | 0 => stamp t ++ [BitVec.ofNat 8 (s.sh (Reg.TIM_TT_CFG.ROLE l)), BitVec.ofNat 8 (b2n (s.dpll == 1) + 2 * b2n s.aligned)] ++ List.replicate 4 0#8
  | 1 => match x.snap with | some f => stamp f.2.1 ++ beBytes 6 f.1 | none => List.replicate 16 0#8
  | 2 => match x.snap with | some f => stamp f.2.2 ++ beBytes 6 f.1 | none => List.replicate 16 0#8
  | _ =>
    let cd := s.fld (Reg.RXP_MON_CD_AVG.CD_AVG l)
    beBytes 4 (if cd = 0x80000 then 0x80000000 else twos 32 (sx 20 cd)) ++ beBytes 4 (s.sh (Reg.RXP_CARRIER.FREQ l)) ++
      beBytes 4 (s.sh (Reg.TIM_TT_TXCAR.FREQ l)) ++ List.replicate 4 0#8

/-- Take in the time-transfer field of a good head of frame `fn`, received at `t` in 2^-16 ns (R362). -/
def State.ttReceive (s : State) (l fn t : Nat) (b : List Byte) : State :=
  let be (at_ n : Nat) : Nat := ofBe ((b.drop at_).take n)
  let stamp := be 0 8 * 65536 + be 8 2
  let x := (s.ln l).tt
  let fn48 := be 10 6
  match fn % 4 with
  | 0 => s.modLn l fun y => { y with tt := { x with far := some (fn % 2 ^ 48, t, stamp), farRole := be 10 1 } }
  | 1 => s.modLn l fun y => { y with tt := { x with rx := some (fn48, stamp) } }
  | 2 =>
    match x.rx with
    | some (n, t2) => if n = fn48 then s.modLn l fun y => { y with tt := { x with echo := some (stamp, t2) } } else s
    | none => s
  | _ =>
    let cd := be 0 4
    let s := s.modLn l fun y => { y with tt := { x with farCd := if cd = 0x80000000 then none else some (sx 32 cd), farRxCar := be 4 4, farTxCar := be 8 4 } }
    s.publishReg (Reg.TIM_TT_FARCD l) cd

/-- The dispersion term of A in ps: (D_local + D_far) ÷ 2 × (λ_rx − λ_tx) (R363). -/
def cdTerm (dl df : Int) (nrx ntx : Nat) : Int :=
  roundDiv ((dl + df) * 2997924580 * ((ntx : Int) - (nrx : Int))) (2 * nrx * ntx)

/-- One tick's sample: θ and RTT in 2^-16 ns, and the dispersion term (R363). -/
def State.ttSample (s : State) (l : Nat) : Option (Int × Int × Int) :=
  let x := (s.ln l).tt
  let df := s.fld (Reg.FRM_STATUS.DEF l)
  let now := s.time / 65536
  let fresh (t : Nat) : Bool := decide (sx 80 (twos 80 ((now : Int) - t)) ≤ 1000 * 1000 * 65536)
  let cdl := s.fld (Reg.RXP_MON_CD_AVG.CD_AVG l)
  let corr := s.bit (Reg.TIM_TT_CFG.CD_CORR l)
  let nrx := s.fld (Reg.RXP_CARRIER.FREQ l)
  let ntx := s.fld (Reg.TIM_TT_TXCAR.FREQ l)
  if df.testBit 1 || df.testBit 2 || decide (10 < absDiff x.farRxCar ntx) || decide (10 < absDiff x.farTxCar nrx) ||
      (corr && (cdl == 0x80000 || x.farCd.isNone)) then none
  else match x.far, x.echo with
    | some f, some e =>
      if fresh f.2.1 && fresh e.1 then
        let cd := if corr then cdTerm (sx 20 cdl) (x.farCd.getD 0) nrx ntx else 0
        let a := roundDiv (cd * 65536) 1000 + sx 32 (s.fld (Reg.TIM_TT_ASYM.ASYM l)) * 4096
        let d (p q : Nat) : Int := sx 80 (twos 80 ((p : Int) - q))
        let up := d e.2 e.1
        let dn := d f.2.1 f.2.2
        some ((dn - up - a) / 2, up + dn, cd)
      else none
    | _, _ => none

/-- The mean of one part of the samples, in 1/16 ns. -/
def ttMean (xs : List Int) : Int := roundDiv (xs.foldl (· + ·) 0) (4096 * xs.length)

def ttLockFld (l : Nat) : Fr := if l = 0 then Reg.TIM_STATUS.TT_LOCK_A else Reg.TIM_STATUS.TT_LOCK_B

/-- Phase 3 of one line's time transfer (R363-R365). -/
def State.ttTick (s : State) (l : Nat) : State :=
  let role := s.fld (Reg.TIM_TT_CFG.ROLE l)
  let n := 2 ^ s.fld (Reg.TIM_TT_CFG.AVG_LOG2 l)
  if role = 0 then
    (s.modLn l fun y => { y with tt := { y.tt with samples := [], lock := false, last := s.tick, lost := false } }).publish (ttLockFld l) 0
  else match s.ttSample l with
    | none => s.publish (ttLockFld l) (b2n (s.ln l).tt.lock)
    | some (th, rtt, cd) =>
      let s := s.count (miscCtr 6 (2 * l)) 1
      let samples := ((th, rtt) :: (s.ln l).tt.samples).take n
      let full := samples.length == n
      let ofs := ttMean (samples.map (·.1))
      let lock := full && (role != 2 || decide (ofs.natAbs ≤ 1600))
      let was := (s.ln l).tt.lock
      let steer := role == 2 && (s.ln l).tt.farRole == 1 && s.clk.pub != some 2 && full
      let big := steer && decide (16000 < ofs.natAbs)
      let s := ((s.publishReg (Reg.TIM_TT_OFS l) (twos 32 ofs)).publishReg (Reg.TIM_TT_RTT l) (twos 32 (ttMean (samples.map (·.2))))).publishReg
        (Reg.TIM_TT_CDASYM l) (twos 32 cd)
      let s := s.modLn l fun y => { y with tt := { y.tt with samples := if big then [] else samples, lock := lock, last := s.tick, lost := false,
                                                             step := if big then some (-(ofs * 4096)) else y.tt.step } }
      let s := (s.publish (ttLockFld l) (b2n lock)).raiseIf (lock && !was) Reg.TIM_EVENT.TT_LOCK
      let s := if big then s.raiseAt Reg.TIM_EVENT.TT_STEP l else s
      if steer && !big then s.setTime ((s.time : Int) - clampI (-(slewStep : Int)) slewStep (ofs * 2 ^ 28)) else s

/-- TT_LOST (R364). -/
def State.ttLost (s : State) (l : Nat) : State :=
  let x := (s.ln l).tt
  if l < 2 ∧ x.last + 1000 ≤ s.tick ∧ x.lost = false then
    let s := s.modLn l fun y => { y with tt := { y.tt with samples := [], lock := false, lost := true } }
    let s := ((s.setReg (Reg.TIM_TT_OFS l) 0x80000000).setReg (Reg.TIM_TT_RTT l) 0xFFFFFFFF).setReg (Reg.TIM_TT_CDASYM l) 0x80000000
    (s.publish (ttLockFld l) 0).raiseAt Reg.TIM_EVENT.TT_LOST l
  else s

/-- Phase 3 of the time block. -/
def State.timPhase3 (s : State) : State :=
  let s := (s.ttTick 0).ttTick 1
  s.publish Reg.TIM_STATUS.ALIGNED (b2n s.aligned)

/-! ### Meanings -/

/-- ADJ_DONE (R352). -/
def execAdjDone (s : State) : Host.Outcome State Fault Refusal := .next (s.cmdTick State.adjDone)
/-- CMP (R353). -/
def execCmp (k cyc : Nat) (s : State) : Host.Outcome State Fault Refusal := .next (s.cmd (·.cmp k cyc))
/-- PPS_IN_EDGE (R354, R356, R459). -/
def execPpsInEdge (widthNs cyc sub : Nat) (s : State) : Host.Outcome State Fault Refusal := .next (s.cmd (·.ppsEdge widthNs cyc sub))
/-- TOD_MESSAGE (R355). -/
def execTodMessage (m : List Byte) (cyc : Nat) (s : State) : Host.Outcome State Fault Refusal := .next (s.cmd (·.todMsg m cyc))
/-- PPS_OUT_PULSE (R357). -/
def execPpsOutPulse (cyc : Nat) (s : State) : Host.Outcome State Fault Refusal := .next (s.cmd (·.ppsPulse cyc))
/-- TOD_OUT_SEND (R357). -/
def execTodOutSend (s : State) : Host.Outcome State Fault Refusal := .next (s.cmd State.todSend)
/-- TT_LOST (R364). -/
def execTtLost (l : Nat) (s : State) : Host.Outcome State Fault Refusal := .next (s.cmdDecide (·.ttLost l))

end Sys2Proof.Machine
end

