-- ==== Sys2Proof/Machine/TxDsp.lean ====
section
/-! DEFINITION. Signal arithmetic of the transmitters: the pulse shaper and the spectrum monitor (R198-R202, R211), and the Rime
waveform (R209-R311).  Real values are integers in units of 2^-32. -/

namespace Sys2Proof.Machine

/-! ### Amplitudes (R198, R199) -/

/-- A rail of head and pilot symbols: (1 ÷ √2) × 10^(boost ÷ 80). -/
def headAmp (boost : Nat) : Int := (isqrt (2 ^ 63) : Int) * expFix (boost * lnFix 10 / 80) / 2 ^ 32

/-- The values of a frame's rails, four a position: `rails` holds ±1 at head and pilots and ±(2i + 1) at data, `amp` and `g` their scales. -/
def railAmps (amp g : Int) (rails : List Int) : List Int :=
  rails.zipIdx.map fun p => p.1 * (if p.2 / 4 < 640 ∨ (p.2 / 4 - 640) % 64 = 0 then amp else g)

/-! ### The pulse shaper (R201, R202) -/

/-- A root-raised-cosine response at |f| = `x` ÷ 1,024 of the symbol rate, roll-off `b` ÷ 20. -/
def rrcAt (b x : Nat) : Int :=
  if 20 * x ≤ 512 * (20 - b) then 2 ^ 32
  else if 512 * (20 + b) ≤ 20 * x then 0
  else (cis ((20 * (x : Int) - 512 * (20 - b)) * 2 ^ 32 / (4096 * b))).re

/-- The ROM's response of roll-off `b` ÷ 20 at the 128 tap frequencies, before scaling. -/
def rrcTaps (b : Nat) : Array Cx := ((List.range 128).map fun (t : Nat) => (⟨rrcAt b (5 * (2 * (t : Int) - 127).natAbs), 0⟩ : Cx)).toArray

/-- H at frequency index `k` of `n`: linear between taps, held beyond the first and the last. -/
def tapResponse (taps : Array Cx) (n : Nat) (k : Int) : Cx :=
  let u := 256 * k + 127 * n
  let d : Int := 2 * n
  if u ≤ 0 then taps.getD 0 {}
  else if 127 * d ≤ u then taps.getD 127 {}
  else
    let a := taps.getD (u / d).toNat {}
    let b := taps.getD ((u / d).toNat + 1) {}
    ⟨a.re + (b.re - a.re) * (u % d) / d, a.im + (b.im - a.im) * (u % d) / d⟩

/-- A response scaled so that the shaped signal has the mean power of its symbols, over a block of `n` samples: the mean of |H|² over
the band, 1.25 symbol rates wide, becomes 1 ÷ 1.25. -/
def unitPower (n : Nat) (h : Int → Cx) : Int → Cx :=
  let p := (List.range n).foldl (fun (a : Nat) k => a + (h (binFreq n k)).pow) 0
  let g := isqrt (2 ^ 96 * 4 * n / max 1 (5 * p))
  fun k => (h k).scale g

/-- A block of symbols through a response: five samples for every four symbols, the block taken as periodic (DESIGN CHOICE). -/
def shapeBlock (h : Int → Cx) (xs : Array Cx) : Array Cx :=
  let n := xs.size * 5 / 4
  let sp := dft (-1) xs
  let ys := ((List.range n).map fun k => (sp.getD (binFreq n k % max 1 xs.size).toNat {}).mul (h (binFreq n k))).toArray
  (invDft ys).map fun a => ⟨a.re * 5 / 4, a.im * 5 / 4⟩

/-! ### The spectrum monitor (R211) -/

/-- The densities of a frame's DAC codes in the 64 bins, both polarisations summed. -/
def frameDensity (codes : List (List Int)) : List Nat :=
  let code (c i : Nat) : Int := (codes.getD c []).getD i 0
  let n := (codes.getD 0 []).length
  let sp := [0, 2].map fun c => dft (-1) ((List.range n).map fun i => (⟨code c i * 2 ^ 32, code (c + 1) i * 2 ^ 32⟩ : Cx)).toArray
  (List.range 64).map fun (b : Nat) => ((List.range n).filter fun (k : Nat) => ((b : Int) - 32) * n ≤ 64 * binFreq n k ∧ 64 * binFreq n k < ((b : Int) - 31) * n).foldl
    (fun a k => a + sp.foldl (fun a x => a + (x.getD k {}).pow) 0) 0

/-- Densities added, bin by bin. -/
def addDensity (a b : List Nat) : List Nat := (List.range 64).map fun i => a.getD i 0 + b.getD i 0

/-! ### The Rime waveform (R309-R311) -/

/-- Tap `t` of the ROM's filter: a root-raised cosine of roll-off 0.35 over 8 symbols of 8 samples; its scale is not in the spec. -/
def rimeRomTap (t : Nat) : Int :=
  let x : Int := 2 * t - 63
  let num := (cis (x * 65 * 2 ^ 32 / 3200)).im + 7 * x * (cis (x * 135 * 2 ^ 32 / 3200)).re / 80
  num * 102400 * 2 ^ 32 / ((piFix 32 : Int) * x * (6400 - 49 * x * x)) * Config.rimeGain / 2 ^ 32

/-- The filter in use: the ROM's, or the programmed taps. -/
def rimeTaps (sel : Bool) (prog : List Nat) : List Int :=
  if sel then prog.map fun v => sx 16 v * 2 ^ 18 else (List.range 64).map rimeRomTap

/-- A filter's power at a frequency, in 250 kHz, at a rate in MS/s. -/
def firPower (taps : List Int) (rate : Nat) (f : Int) : Nat :=
  (Cx.sum (taps.zipIdx.map fun p => (cis (-(f * p.2 * 2 ^ 30) / rate)).scale p.1)).pow

/-- Whether an interpolator by 16 suppresses the images of a channel by at least 50 dB: at each of 7 frequencies across ±0.75 MHz, the
eight images against the signal (R310). -/
def imagesLow (h : List Int) : Bool :=
  (List.range 7).all fun i => (List.range 8).all fun k => decide (firPower h 128 (32 * (k + 1) + i - 3) * 10 ^ 5 ≤ firPower h 128 (i - 3))

/-- Three sums over 16 samples: an interpolator that suppresses the images by more than 50 dB. -/
def sums16 : List Int :=
  let box (h : List Int) : List Int := (List.range (h.length + 15)).map fun n => ((List.range 16).filter fun j => j ≤ n).foldl (fun a j => a + h.getD (n - j) 0) 0
  (box (box (List.replicate 16 1))).map (2 ^ 24 * ·)

/-- The interpolator in the device: any that meets R310's 50 dB (free: `sums16` only stands for one where the free value meets it
not). -/
def rimeInterp : List Int := if imagesLow Config.rimeInterp then Config.rimeInterp else sums16

/-- The symbols of a packet: the reference, then one for each bit. -/
def rimeSymbols (bs : List Byte) : Array Int :=
  ((bytesBits bs).foldl (fun (a : List Int × Int) b => let v := if b then -a.2 else a.2; (v :: a.1, v)) ([1], 1)).1.reverse.toArray

/-- The filter's output at 8 MS/s. -/
def rimeShaped (taps : List Int) (syms : Array Int) (m : Int) : Int :=
  taps.zipIdx.foldl (fun a p => let n := m - p.2; if n % 8 = 0 ∧ 0 ≤ n then a + p.1 * syms.getD (n / 8).toNat 0 else a) 0

/-- The waveform at 128 MS/s on channel `c`, before and after the clip. -/
def rimeMixed (taps : List Int) (c : Nat) (syms : Array Int) (n : Int) : Int :=
  let y := rimeInterp.zipIdx.foldl (fun a p => let m := n - p.2; if m % 16 = 0 then a + p.1 * rimeShaped taps syms (m / 16) else a) 0 / 2 ^ 32
  y * (cis ((4 + 2 * c) * n * 2 ^ 25)).re / 2 ^ 32
def rimeWave (taps : List Int) (c : Nat) (syms : Array Int) (n : Int) : Int := clampI (-2 ^ 32) (2 ^ 32) (rimeMixed taps c syms n)

/-- Of the first samples of a packet, those that reach the clip. -/
def rimeClipped (taps : List Int) (c : Nat) (syms : Array Int) (len : Nat) : Nat :=
  ((List.range len).filter fun (n : Nat) => decide (2 ^ 32 ≤ (rimeMixed taps c syms n).natAbs)).length

/-- The power of the waveform of random symbols at the centre of each of 64 bins of 0.5 MHz (R311). -/
def rimeSpectrum (taps : List Int) (c : Nat) : List Nat :=
  let fc : Int := 4 * (4 + 2 * c)
  let p (f : Int) : Nat := firPower taps 8 f * firPower rimeInterp 128 f
  (List.range 64).map fun (b : Nat) => p (2 * b + 1 - fc) + p (2 * b + 1 + fc)

/-- Whether a bin with a limit lies above −LIMIT ÷ 2 dB of the largest (R311). -/
def rimeMaskBad (taps : List Int) (c : Nat) (lim : List Nat) : Bool :=
  let sp := rimeSpectrum taps c
  let top := sp.foldl max 0
  lim.zipIdx.any fun p => p.1 != 0 && decide (top ^ 20 < sp.getD p.2 0 ^ 20 * 10 ^ p.1)

end Sys2Proof.Machine
end

