-- ==== Sys2Proof/Machine/Rim.lean ====
section
/-! DEFINITION. The Rime supervisory channel (R307-R335). -/

namespace Sys2Proof.Machine

/-! ### Ports -/

def State.rp (s : State) (k : Nat) : RimePort := if k = 0 then s.rim.p0 else s.rim.p1
def State.setRp (s : State) (k : Nat) (x : RimePort) : State :=
  if k = 0 then { s with rim := { s.rim with p0 := x } } else { s with rim := { s.rim with p1 := x } }

/-- Count a Rime quantity of a port and channel (R334). -/
def State.rimCount (s : State) (k c what : Nat) : State := s.count (miscCtr 8 (16 * (8 * k + c) + what)) 1

def noRx : Nat → Option RimeRx := fun _ => none

/-- Whether some line of TX_LINES has RIME_EN = 1 and is unmuted (R321). -/
def State.rimLine (s : State) (k : Nat) : Bool :=
  [0, 1].any fun l => (s.fld (Reg.RIM_PORT_CFG.TX_LINES k)).testBit l && s.bit (Reg.TXP_CTL.RIME_EN l) && (s.ln l).mute == 0

def rimMaskFld (k : Nat) : Fr := if k = 0 then Reg.RIM_STATUS.MASK_BAD_0 else Reg.RIM_STATUS.MASK_BAD_1
def rimSendFld (k : Nat) : Fr := if k = 0 then Reg.RIM_STATUS.CAN_SEND_0 else Reg.RIM_STATUS.CAN_SEND_1
def rimDepthFld (k : Nat) : Fr := if k = 0 then Reg.RIM_STATUS.TXQ_0 else Reg.RIM_STATUS.TXQ_1

/-- Whether a port sends at all: on, enabled, with an assigned SRC and a legal spectrum (R311, R314). -/
def State.rimTx (s : State) (k : Nat) : Bool :=
  s.bit Reg.RIM_CTL.EN && s.bit (Reg.RIM_PORT_CFG.TX_EN k) && s.fld Reg.RIM_ID.SHORT_ID != 0 && !s.bit (rimMaskFld k)

/-- Whether a port can send now. -/
def State.rimCan (s : State) (k : Nat) : Bool := s.rimTx k && s.rimLine k

/-- A port's queue depth. -/
def RimePort.depth (x : RimePort) : Nat := x.queue.length + (if x.cur.isSome then 1 else 0)

/-- Show a port's status. -/
def State.rimShow (s : State) (k : Nat) : State :=
  (s.setFld (rimDepthFld k) (s.rp k).depth).setFld (rimSendFld k) (b2n (s.rimLine k))

/-- The taps of the transmit filter in use (R310). -/
def State.rimTaps (s : State) : List Int := rimeTaps (s.bit Reg.RIM_CTL.TXF_SEL) ((List.range 64).map fun t => s.fld (Reg.RIM_TXF_TAP.TAP t))

/-- The mask check of a port, at image application and at commits (R311). -/
def State.rimMask (s : State) (k : Nat) : State :=
  let lim := (List.range 64).map fun b => s.fld (Reg.RIM_MASK.LIMIT b)
  let bad := lim.any (· != 0) && rimeMaskBad s.rimTaps (s.fld (Reg.RIM_PORT_CFG.TX_CH k)) lim
  (s.setFld (rimMaskFld k) (b2n bad)).raiseIf bad Reg.RIM_EVENT.MASK_BAD

/-! ### The transmit queue (R323) -/

/-- Clear START, and note the sending of a TRACE_REQ (R326). -/
def State.rimTraceSent (s : State) (p : RimePkt) (sent : Bool) : State :=
  if p.type = 4 ∧ p.pri = 4 then
    let s := s.setFld Reg.RIM_TRACE_CTL.START 0
    if sent then { s.setFld Reg.RIM_TRACE_CTL.ACTIVE 1 with
      rim := { s.rim with traceEnd := some (s.tick + s.fld Reg.RIM_TIMING.TRACE_SPREAD * 10000 + 10000) } } else s
  else s

/-- A record is dropped. -/
def State.rimDrop (s : State) : State := s.raise Reg.RIM_EVENT.TX_DROP

/-- A queued packet is dropped; a dropped TRACE_REQ clears START (R323, R326, R334). -/
def State.rimLost (s : State) (p : RimePkt) : State := (s.rimTraceSent p false).rimDrop

/-- The largest priority number in a queue. -/
def worstPri (q : List RimePkt) : Nat := q.foldl (fun a p => max a p.pri) 0

/-- A port whose packet is not on the air yet: that packet stands in the queue again, ahead of those of its priority, and its signature
is void, since another packet may take its sequence number. -/
def RimePort.yield (x : RimePort) : RimePort :=
  match x.cur with
  | some p => if x.onAir then x else { x with queue := p :: x.queue, cur := none, sig := .none }
  | none => x

/-- Queue a packet; a full queue drops the oldest packet of the lowest priority below the new one's, or the new one.  The packet whose
access has begun is one of the sixteen until it is on the air. -/
def State.rimQueue (s : State) (k : Nat) (p : RimePkt) : State :=
  let x := s.rp k
  let y := x.yield
  let s :=
    if x.depth < 16 then s.setRp k { x with queue := x.queue ++ [p] }
    else if p.pri < worstPri y.queue then
      match y.queue.findIdx? fun q => q.pri == worstPri y.queue with
      | some i =>
        let lost := y.queue.getD i p
        if i = 0 ∧ y.cur ≠ x.cur then (s.setRp k { x with queue := x.queue ++ [p], cur := none, sig := .none }).rimLost lost
        else (s.setRp k { x with queue := (x.queue.eraseIdx (i - (if y.cur = x.cur then 0 else 1))) ++ [p] }).rimLost lost
      | none => s.rimLost p
    else s.rimLost p
  s.rimShow k

/-- A packet made now. -/
def State.rimPkt (s : State) (type pri : Nat) (payload : List Byte) : RimePkt := { type := type, payload := payload, pri := pri, made := s.tick }

/-- The position of the next packet: best priority, oldest first. -/
def rimNext (q : List RimePkt) : Option Nat :=
  q.foldl (fun (b : Option Nat × Nat) p => (match b.1 with
    | none => some b.2
    | some j => if p.pri < (q.getD j p).pri then some b.2 else some j, b.2 + 1)) (none, 0) |>.1

/-! ### Packet bytes (R312, R313, R327) -/

/-- The CRC-8 of a header (R313). -/
def rimHcrc (b : List Byte) : Nat := crcBits 8 0x07 0 (bytesBits b)

/-- Header bytes 0 to 4 of a packet a port sends. -/
def State.rimHead5 (s : State) (k : Nat) (p : RimePkt) : List Byte :=
  let auth := s.bit Reg.RIM_CTL.AUTH_EN
  [BitVec.ofNat 8 (p.type + 128 * b2n auth), BitVec.ofNat 8 (p.payload.length + 8 * b2n auth)] ++ beBytes 2 (s.fld Reg.RIM_ID.SHORT_ID) ++
    [BitVec.ofNat 8 (s.rp k).seq]

/-- The bytes of a packet from its preamble to its trailer. -/
def rimBytes (head5 payload mac : List Byte) : List Byte :=
  let h := head5 ++ [BitVec.ofNat 8 (rimHcrc head5)]
  let body := h ++ payload ++ mac
  [0xFF#8, 0xFF#8] ++ beBytes 4 0xE3D42B9C ++ body ++ beBytes 4 (crc32 body)

/-! ### Messages (R324) -/

/-- Whether a twin-path channel is enabled. -/
def State.twinOn (s : State) : Bool :=
  s.regs.any fun p => decide (0x101000 ≤ p.1) && decide (p.1 < 0x101800) && getBits p.2 2 2 == 1 && getBits p.2 1 0 != 0

/-- RS_CODE of the transmit format in use on a line, 0 when disabled. -/
def State.rimRs (s : State) (l : Nat) : Nat :=
  if getBits (s.reg Reg.GLB_LINE_CTL) (4 * l) (4 * l) = 1 ∧ getBits (s.reg Reg.GLB_LINE_CTL) (4 * l + 1) (4 * l + 1) = 1 then
    s.fld (Reg.FRM_FMT.RS_CODE l (s.fld (Reg.FRM_STATUS.TX_FMT l)))
  else 0

/-- The neighbours heard on a port, most recently heard first. -/
def State.rimHeard (s : State) (k : Nat) : List Nat :=
  ((List.range 256).filter fun n => s.bit (Reg.RIM_NB_0.VALID n) && s.fld (Reg.RIM_NB_0.PORT n) == k).mergeSort
    fun a b => decide (s.rim.heard.get (fun _ => 0) b ≤ s.rim.heard.get (fun _ => 0) a)

/-- The IDENTITY payload of a port. -/
def State.rimIdentity (s : State) (k : Nat) : List Byte :=
  let auth := s.bit Reg.RIM_CTL.AUTH_EN
  let ns := (s.rimHeard k).take (if auth then 46 else 48)
  beBytes 8 s.fuses.deviceId ++ padTo 16 s.boot.nodeName ++ beBytes 4 s.runVer ++ beBytes 4 (s.fld Reg.CFG_EPOCH.EPOCH) ++
    [BitVec.ofNat 8 k, BitVec.ofNat 8 (s.fld (Reg.RIM_PORT_CFG.TX_CH k))] ++ beBytes 2 (s.rimRs 0) ++ beBytes 2 (s.rimRs 1) ++
    beBytes 3 s.boot.carrierA ++ beBytes 3 s.boot.carrierB ++
    [BitVec.ofNat 8 (b2n (s.bit Reg.FLT_STATUS.DEGRADED) + 2 * b2n auth + 4 * b2n s.twinOn), BitVec.ofNat 8 ns.length, 0#8, 0#8] ++
    ns.flatMap fun n => beBytes 2 (s.fld (Reg.RIM_NB_0.SRC n)) ++
      [BitVec.ofNat 8 (s.fld (Reg.RIM_NB_5.LEVEL n)), BitVec.ofNat 8 (min 255 (s.fld (Reg.RIM_NB_5.EVM n) / 10))]

/-- The CONFIG_VER payload (R324, R450). -/
def State.rimConfigVer (s : State) : List Byte :=
  let st := if s.bit Reg.CFG_STATUS.HEALTH_RUN then 2 else if s.bit Reg.FLT_STATUS.DEGRADED then 1 else 0
  beBytes 4 s.runVer ++ beBytes 4 (s.fld Reg.CFG_EPOCH.EPOCH) ++ [BitVec.ofNat 8 st, 0#8, 0#8, 0#8]

/-- The ALARM payload. -/
def rimAlarm (a : AlarmEv) : List Byte :=
  beBytes 2 a.code ++ [BitVec.ofNat 8 a.sev, BitVec.ofNat 8 (b2n a.raised)] ++ beBytes 8 a.tick ++ beBytes 4 a.detail

/-- The next IDENTITY interval in ticks: ID_PERIOD × (0.75 + 0.5u). -/
def State.rimDrawId (s : State) : Nat × State :=
  let p := s.fld Reg.RIM_TIMING.ID_PERIOD * 500000
  let d := s.draw (p / 2 + 1)
  (p * 3 / 4 + d.1, d.2)

/-- A tick's upkeep of a port: its IDENTITY timer runs while it sends, and it takes up new alarms (R325). -/
def State.rimTick (s : State) (k : Nat) : State :=
  let on := s.bit Reg.RIM_CTL.EN && s.bit (Reg.RIM_PORT_CFG.TX_EN k)
  let s :=
    if !on then s.setRp k { s.rp k with idDue := none, cvLeft := 0, alarms := [] }
    else
      let s := s.setRp k { s.rp k with alarms := (s.rp k).alarms ++ s.alarmQ.map fun a => (a, 3, s.tick) }
      if (s.rp k).idDue.isSome then s
      else let d := s.rimDrawId; d.2.setRp k { d.2.rp k with idDue := some (s.tick + d.1) }
  s.rimShow k

/-- Announce the image version and epoch three times on both ports (R325). -/
def State.rimAnnounce (s : State) : State :=
  let f (x : RimePort) : RimePort := { x with cvLeft := 3, cvDue := s.tick }
  (s.setRp 0 (f s.rim.p0)).setRp 1 (f s.rim.p1)

/-- IDENTITY_DUE. -/
def State.rimIdentityDue (s : State) (k : Nat) : State :=
  match (s.rp k).idDue with
  | none => s
  | some t =>
    if s.tick < t then s
    else
      let s := s.rimQueue k (s.rimPkt 1 3 (s.rimIdentity k))
      let d := s.rimDrawId
      d.2.setRp k { d.2.rp k with idDue := some (s.tick + d.1) }

/-- CONFIG_VER_DUE. -/
def State.rimConfigDue (s : State) (k : Nat) : State :=
  let x := s.rp k
  if x.cvLeft = 0 ∨ s.tick < x.cvDue then s
  else (s.setRp k { x with cvLeft := x.cvLeft - 1, cvDue := s.tick + 1000000 }).rimQueue k (s.rimPkt 2 1 s.rimConfigVer)

/-- ALARM_DUE: the first alarm whose transmission is due. -/
def State.rimAlarmDue (s : State) (k : Nat) : State :=
  let x := s.rp k
  match x.alarms.findIdx? fun a => decide (a.2.2 ≤ s.tick) with
  | none => s
  | some i =>
    match x.alarms[i]? with
    | none => s
    | some a =>
      let rest := if a.2.1 ≤ 1 then x.alarms.eraseIdx i else x.alarms.set i (a.1, a.2.1 - 1, s.tick + 500000)
      (s.setRp k { x with alarms := rest }).rimQueue k (s.rimPkt 3 0 (rimAlarm a.1))

/-! ### Access (R320-R323) -/

/-- Ask for a packet's signature. -/
def State.rimSign (s : State) (k : Nat) (p : RimePkt) : State :=
  let id := s.rim.nextId
  let r : RimeReq := { id := id, sign := true, slot := s.fld Reg.RIM_CTL.AUTH_SLOT, msg := s.rimHead5 k p ++ p.payload, mac := [], made := s.tick }
  let s := s.setRp k { s.rp k with cur := some p, sig := .asked id }
  { s with rim := { s.rim with nextId := id + 1 }, cph := { s.cph with rimeQ := s.cph.rimeQ ++ [r] } }

/-- A packet whose access has begun, and that a packet of better priority has come to, lets that one go first (R323). -/
def State.rimYield (s : State) (k : Nat) : State :=
  let x := s.rp k
  match x.cur with
  | some p => if x.queue.any fun q => decide (q.pri < p.pri) then s.setRp k x.yield else s
  | none => s

/-- Begin the access of the next packet of the queue. -/
def State.rimBegin (s : State) (k : Nat) : State :=
  let x := s.rp k
  match rimNext x.queue with
  | none => s
  | some i =>
    match x.queue[i]? with
    | none => s
    | some p =>
      let s := s.setRp k { x with queue := x.queue.eraseIdx i, cur := some p, sig := .none }
      if s.bit Reg.RIM_CTL.AUTH_EN then s.rimSign k p else s

/-- The current packet leaves the port. -/
def State.rimLeave (s : State) (k : Nat) : State := (s.setRp k { s.rp k with cur := none, sig := .none, onAir := false, air := [] }).rimShow k

/-- Put the current packet on the air. -/
def State.rimSend (s : State) (k : Nat) (p : RimePkt) (mac : List Byte) : State :=
  let bs := rimBytes (s.rimHead5 k p) p.payload mac
  ((s.emit (.rime k bs)).setRp k { s.rp k with onAir := true, air := bs, airAt := s.tick, seq := ((s.rp k).seq + 1) % 256 }).rimTraceSent p true

/-- The air time of a packet in bit periods, which are ticks: 129 + 8L (R312). -/
def RimePort.airTime (x : RimePort) : Nat := 8 * x.air.length + 1

/-- The packet on the air ends, whole or cut: the samples formed of it that reached the clip are counted (R310). -/
def State.rimEnd (s : State) (k : Nat) : State :=
  let x := s.rp k
  (s.count (miscCtr 8 (256 + k)) (rimeClipped s.rimTaps (s.fld (Reg.RIM_PORT_CFG.TX_CH k)) (rimeSymbols x.air) (128 * min x.airTime (s.tick - x.airAt)))).rimLeave k

/-- Whether a packet of the sending channel is in its body phase, or ended it less than 4 bit periods ago (a bit period is a tick); or the
channel's power exceeds the noise floor estimate by more than CS_THR ÷ 2 dB, both in 1/256 dBFS (R320). -/
def State.rimBusy (s : State) (k : Nat) (power noise : Int) : Bool :=
  let c := s.fld (Reg.RIM_PORT_CFG.TX_CH k)
  decide ((128 * s.fld (Reg.RIM_PORT_CFG.CS_THR k) : Nat) < power - noise) || decide (s.tick < (s.rp k).bodyEnd.get (fun _ => 0) c) ||
    (match (s.rp k).act.get noRx c with | some r => r.hdr.isSome | none => false)

/-- One meeting with the channel: `idleUs` µs idle since the last one.  A busy channel costs an encounter and a drawn
backoff; sixteen drop the packet (R321). -/
def State.rimAttempt (s : State) (k : Nat) (power noise : Int) (idleUs : Nat) : State :=
  if !s.rimCan k || (s.rp k).onAir then s
  else
    let s := s.rimYield k
    let s := if (s.rp k).cur.isNone then s.rimBegin k else s
    let x := s.rp k
    let auth := s.bit Reg.RIM_CTL.AUTH_EN
    match x.cur, x.sig, auth with
    | none, _, _ => s
    | _, .asked _, true => s
    | some p, .none, true => s.rimSign k p
    | some p, sig, _ =>
      if s.rimBusy k power noise then
        let s := s.rimCount k (s.fld (Reg.RIM_PORT_CFG.TX_CH k)) 0
        if 16 ≤ p.busy + 1 then (s.rimLeave k).rimLost p
        else
          let d := s.draw (2 ^ (min (p.busy + 1) (s.fld Reg.RIM_TIMING.BACKOFF_MAX) + 3))
          d.2.setRp k { d.2.rp k with cur := some { p with busy := p.busy + 1, slots := d.1 } }
      else if idleUs < (if p.busy = 0 then 32 else 64 * p.slots) then s
      else s.rimSend k p (match auth, sig with | true, .done m => m | _, _ => [])

/-- RIME_PACKET_SENT: the air time is over. -/
def State.rimSent (s : State) (k : Nat) : State :=
  let x := s.rp k
  if x.onAir && decide (x.airAt + x.airTime ≤ s.tick) then s.rimEnd k else s

/-- A port that may no longer send cuts the packet on the air, and queues it again once: its last sending line became muted (R322), or its
spectrum became illegal (R311) or the port was turned off (DEDUCED: cut in the same way). -/
def State.rimCut (s : State) (k : Nat) : State :=
  let x := s.rp k
  match x.cur with
  | none => s
  | some p =>
    if x.onAir && !s.rimCan k then
      let s := (s.rimEnd k).rimCount k (s.fld (Reg.RIM_PORT_CFG.TX_CH k)) 1 |>.raise Reg.RIM_EVENT.TX_CUT
      if p.cut then s else s.rimQueue k { p with cut := true, busy := 0, slots := 0 }
    else s

/-- The waveform's parts, or the mask, take effect: the masks are checked, and a port that may no longer send stops (R311). -/
def State.rimWaves (s : State) : State := (((s.rimMask 0).rimMask 1).rimCut 0).rimCut 1

/-- RIME_QUEUE_EXPIRY: packets that have waited 1,000,000 ticks are dropped. -/
def State.rimExpire (s : State) (k : Nat) : State :=
  let x := s.rp k
  let old (p : RimePkt) : Bool := decide (p.made + 1000000 ≤ s.tick)
  let gone := x.queue.filter old
  let curOld := match x.cur with | some p => old p && !x.onAir | none => false
  let s := s.setRp k { x with queue := x.queue.filter fun p => !old p, cur := if curOld then none else x.cur, sig := if curOld then .none else x.sig }
  let drops := gone ++ (if curOld then x.cur.toList else [])
  (drops.foldl State.rimLost s).rimShow k

/-! ### Reception (R315-R319) -/

/-- Whether the middle of 129 correlations is the largest of them.  DESIGN CHOICE: of equal ones the earliest is. -/
def corrPeak (corr : List Nat) : Bool :=
  corr.length == 129 && (corr.take 64).all (fun v => decide (v < corr.getD 64 0)) && (corr.drop 65).all fun v => decide (v ≤ corr.getD 64 0)

/-- RIME_SYNC_DETECT: 32 detected bits close enough to the sync word, where the correlation is the largest around; their level and peak
(R315, R316). -/
def State.rimSync (s : State) (k c bits level : Nat) (corr : List Nat) : State :=
  if k < 2 ∧ c < 8 ∧ s.bit Reg.RIM_CTL.EN = true ∧ s.bit (Reg.RIM_PORT_CFG.RX_EN k) = true ∧ corrPeak corr = true ∧
      popCount 32 (bits ^^^ 0xE3D42B9C) ≤ s.fld Reg.RIM_CTL.SYNC_ERR then
    let x := s.rp k
    let new : RimeRx := ⟨level, corr.getD 64 0 / 256, none⟩
    match x.act.get noRx c with
    | none => s.setRp k { x with act := x.act.set noRx c (some new) }
    | some a =>
      if level + 2 * s.fld Reg.RIM_CTL.CAPTURE ≤ a.level then
        let s := s.rimCount k c 2
        let s := if (x.cand.get noRx c).isSome then s.rimCount k c 3 else s
        s.setRp k { s.rp k with act := x.act.set noRx c (some new), cand := x.cand.set noRx c none }
      else if a.hdr.isSome then s.rimCount k c 4
      else match x.cand.get noRx c with
        | none => s.setRp k { x with cand := x.cand.set noRx c (some new) }
        | some p =>
          let s := s.rimCount k c 3
          if level < p.level then s.setRp k { s.rp k with cand := x.cand.set noRx c (some new) } else s
  else s

/-- RIME_HEADER_END: the active packet's six header bytes (R317). -/
def State.rimHeader (s : State) (k c : Nat) (h : List Byte) : State :=
  let x := s.rp k
  match x.act.get noRx c with
  | none => s
  | some a =>
    if a.hdr.isSome ∨ 2 ≤ k ∨ 8 ≤ c ∨ h.length ≠ 6 then s
    else if ofBe (h.drop 5) = rimHcrc (h.take 5) ∧ ofBe ((h.drop 1).take 1) ≤ 240 then
      let s := if (x.cand.get noRx c).isSome then s.rimCount k c 3 else s
      s.setRp k { s.rp k with act := x.act.set noRx c (some { a with hdr := some h }), cand := x.cand.set noRx c none }
    else
      (s.rimCount k c 5).setRp k { x with act := x.act.set noRx c (x.cand.get noRx c), cand := x.cand.set noRx c none }

/-- Whether a payload's length fits its type, the code left out (R318, R324). -/
def rimLenOk (type : Nat) (auth : Bool) (p : List Byte) : Bool :=
  let n := p.length
  if 0x40 ≤ type ∧ type ≤ 0x7F then true
  else match type with
    | 1 => decide (48 ≤ n) && ofBe ((p.drop 45).take 1) * 4 + 48 == n && decide (ofBe ((p.drop 45).take 1) ≤ (if auth then 46 else 48))
    | 2 => n == 12
    | 3 => n == 16
    | 4 => n == 4
    | 5 => n == 10
    | _ => false

/-- The class of a message type (R333). -/
def rimClass (type : Nat) : Nat := if type = 1 ∨ type = 2 then 0 else if type = 3 then 1 else if type = 4 ∨ type = 5 then 2 else 3

def RimeMsg.type (m : RimeMsg) : Nat := ofBe (m.hdr.take 1) % 128
def RimeMsg.src (m : RimeMsg) : Nat := ofBe ((m.hdr.drop 2).take 2)
def RimeMsg.seq (m : RimeMsg) : Nat := ofBe ((m.hdr.drop 4).take 1)
def RimeMsg.be (m : RimeMsg) (at_ n : Nat) : Nat := ofBe ((m.payload.drop at_).take n)

/-! ### The neighbour table (R329-R332) -/

def nbAll : List Nat := List.range 256

/-- The entry of a source on a port. -/
def State.nbFind (s : State) (port src : Nat) : Option Nat :=
  nbAll.find? fun n => s.bit (Reg.RIM_NB_0.VALID n) && s.fld (Reg.RIM_NB_0.PORT n) == port && s.fld (Reg.RIM_NB_0.SRC n) == src

def State.nbHeard (s : State) (n : Nat) : Nat := s.rim.heard.get (fun _ => 0) n

/-- The entry heard least recently. -/
def State.nbOldest (s : State) : Nat := (nbAll.foldl (fun b n => if s.nbHeard n < s.nbHeard b then n else b) 0)

/-- Show the number of valid entries. -/
def State.nbCount (s : State) : State := s.setFld Reg.RIM_STATUS.NB_COUNT (nbAll.filter fun n => s.bit (Reg.RIM_NB_0.VALID n)).length

/-- Clear an entry's words. -/
def State.nbClear (s : State) (n : Nat) : State :=
  let s := (List.range 8).foldl (fun s w => s.setReg (Reg.RIM_NB_0 n + 4 * w) 0) s
  { s with rim := { s.rim with known := s.rim.known.set (fun _ => false) n false, versed := s.rim.versed.set (fun _ => false) n false } }

/-- Create an entry of a new source. -/
def State.nbNew (s : State) (port src seq : Nat) : Nat × State :=
  let free := nbAll.find? fun n => !s.bit (Reg.RIM_NB_0.VALID n)
  let n := free.getD s.nbOldest
  let s := if free.isNone then s.raise Reg.RIM_EVENT.NEIGH_EVICT else s
  let s := s.nbClear n
  let s := s.setReg (Reg.RIM_NB_0 n) (BitVec.ofNat 32 (src + 65536 * port + 2 ^ 20 + 2 ^ 21))
  (n, (s.setFld (Reg.RIM_NB_7.LAST_SEQ n) seq).raise Reg.RIM_EVENT.NEIGH_NEW)

/-- Set the version and epoch of an entry; a change of one it already held raises NEIGH_CFG (R330). -/
def State.nbVersion (s : State) (n ver epoch : Nat) : State :=
  let had := s.rim.versed.get (fun _ => false) n
  let moved := s.fld (Reg.RIM_NB_3.IMAGE_VER n) != ver || s.fld (Reg.RIM_NB_4.CFG_EPOCH n) != epoch
  let s := (s.setFld (Reg.RIM_NB_3.IMAGE_VER n) ver).setFld (Reg.RIM_NB_4.CFG_EPOCH n) epoch
  let s := { s with rim := { s.rim with versed := s.rim.versed.set (fun _ => false) n true } }
  s.raiseIf (had && moved) Reg.RIM_EVENT.NEIGH_CFG

/-- An IDENTITY packet's effect on its entry (R330). -/
def State.nbIdentity (s : State) (n : Nat) (m : RimeMsg) : State :=
  let id := m.be 0 8
  let had := s.rim.known.get (fun _ => false) n
  let old := s.fld (Reg.RIM_NB_1.DEVICE_ID n) + 2 ^ 32 * s.fld (Reg.RIM_NB_2.DEVICE_ID n)
  let s :=
    if had && old != id then
      let keep0 := s.reg (Reg.RIM_NB_0 n)
      let keep5 := s.reg (Reg.RIM_NB_5 n)
      let s := (((s.nbClear n).setReg (Reg.RIM_NB_0 n) keep0).setReg (Reg.RIM_NB_5 n) keep5).setFld (Reg.RIM_NB_7.LAST_SEQ n) m.seq
      s.raise Reg.RIM_EVENT.NEIGH_CHANGE
    else s
  let s := (s.setFld (Reg.RIM_NB_1.DEVICE_ID n) id).setFld (Reg.RIM_NB_2.DEVICE_ID n) (id / 2 ^ 32)
  let s := { s with rim := { s.rim with known := s.rim.known.set (fun _ => false) n true } }
  ((s.nbVersion n (m.be 24 4) (m.be 28 4)).setFld (Reg.RIM_NB_6.FLAGS n) (m.be 44 1)).setFld (Reg.RIM_NB_0.STALE n) 0

/-- A CONFIG_VER packet's effect on its entry (R330, R331). -/
def State.nbConfig (s : State) (n : Nat) (m : RimeMsg) : State :=
  let s := s.nbVersion n (m.be 0 4) (m.be 4 4)
  let fl := s.fld (Reg.RIM_NB_6.FLAGS n)
  let s := s.setFldIf (m.be 8 1 != 2) (Reg.RIM_NB_6.FLAGS n) (fl / 2 * 2 + b2n (m.be 8 1 == 1))
  s.setFldIf (s.rim.known.get (fun _ => false) n) (Reg.RIM_NB_0.STALE n) 0

/-- A delivered packet acts on the table (R329). -/
def State.nbUpdate (s : State) (m : RimeMsg) : State :=
  let r := match s.nbFind m.port m.src with
    | some n =>
      let g := (m.seq + 256 - s.fld (Reg.RIM_NB_7.LAST_SEQ n)) % 256
      let s := s.setFld (Reg.RIM_NB_7.MISSED n) (satAdd 255 (s.fld (Reg.RIM_NB_7.MISSED n)) (g - 1))
      (n, s.setFld (Reg.RIM_NB_7.LAST_SEQ n) m.seq)
    | none => s.nbNew m.port m.src m.seq
  let n := r.1
  let s := (r.2.setFld (Reg.RIM_NB_0.CHANNEL n) m.chan).setFld (Reg.RIM_NB_0.AUTH n) (b2n m.auth)
  let s := s.setReg (Reg.RIM_NB_5 n) (BitVec.ofNat 32 (min 65535 m.evm + 65536 * (m.peak % 256) + 2 ^ 24 * (m.level % 256)))
  let s := { s with rim := { s.rim with heard := s.rim.heard.set (fun _ => 0) n s.tick } }
  let s := if m.type = 1 then s.nbIdentity n m else if m.type = 2 then s.nbConfig n m else s
  s.nbCount

/-- NEIGH_LOST (R332). -/
def State.nbLost (s : State) : State :=
  let gone := nbAll.filter fun n => s.bit (Reg.RIM_NB_0.VALID n) && decide (s.nbHeard n + 10000000 ≤ s.tick)
  (gone.foldl (fun s n => (s.nbClear n).raise Reg.RIM_EVENT.NEIGH_LOST) s).nbCount

/-- The age RIM_NB_n_6 shows, in ms. -/
def State.nbAge (s : State) (n : Nat) : Nat := if s.bit (Reg.RIM_NB_0.VALID n) then min 0x3FFF ((s.tick - s.nbHeard n) / 1000) else 0

/-- Every entry becomes stale in a tick in which the local configuration epoch changes (R331). -/
def State.nbStale (s : State) : State :=
  if s.rim.epoch = s.fld Reg.CFG_EPOCH.EPOCH then s
  else
    let s := { s with rim := { s.rim with epoch := s.fld Reg.CFG_EPOCH.EPOCH } }
    (nbAll.filter fun n => s.bit (Reg.RIM_NB_0.VALID n)).foldl (fun s n => s.setFld (Reg.RIM_NB_0.STALE n) 1) s

/-! ### Delivery (R318, R326, R333) -/

/-- The staging address of a ring's record of 256 bytes; like the GCC rings', the rings wrap within staging (R106, R333). -/
def ringAddr (base i : Nat) : Nat := (base / 256 * 256 + 256 * i) % stBytes

/-- Write a delivered packet to the receive ring. -/
def State.rimRing (s : State) (m : RimeMsg) : State :=
  let mine := m.type == 5 && m.be 2 2 == s.fld Reg.RIM_ID.SHORT_ID && m.be 0 2 == s.fld Reg.RIM_TRACE_CTL.TRACE_ID && s.bit Reg.RIM_TRACE_CTL.ACTIVE
  if !s.bit Reg.RIM_RING_CFG.RX_EN || !((s.fld Reg.RIM_RING_CFG.RX_CLASS).testBit (rimClass m.type) || mine) then s
  else
    let size := 2 ^ s.fld Reg.RIM_RING_CFG.RX_LOG2
    let wr := s.fld Reg.RIM_RX_WR.IDX % size
    if ringFull size wr (s.fld Reg.RIM_RX_RD.IDX) then s.raise Reg.RIM_EVENT.RX_RING_FULL
    else
      let meta_ := [BitVec.ofNat 8 m.port, BitVec.ofNat 8 m.chan] ++ leBytes 2 m.evm ++
        [BitVec.ofNat 8 m.peak, BitVec.ofNat 8 m.level, BitVec.ofNat 8 (b2n m.auth), 0#8]
      let s := (s.stWrite (ringAddr (s.fld Reg.RIM_RX_BASE.BASE) wr) (padTo 256 (meta_ ++ m.hdr ++ m.payload ++ m.mac))).2
      s.setFld Reg.RIM_RX_WR.IDX (ringNext size wr)

/-- A TRACE_REQ is answered, at most once a second for one SRC (R326). -/
def State.rimTraced (s : State) (m : RimeMsg) : State :=
  let recent := match s.rim.replied.get (fun _ => none) m.src with | some t => decide (s.tick < t + 1000000) | none => false
  if m.type ≠ 4 ∨ s.bit Reg.RIM_CTL.RESPOND_TRACE = false ∨ recent = true then s
  else
    let d := s.draw (s.fld Reg.RIM_TIMING.TRACE_SPREAD * 10000 + 1)
    let r : TraceReply := ⟨m.be 0 2, m.src, m.level, m.peak, m.evm, s.tick + d.1⟩
    { d.2 with rim := { d.2.rim with replies := d.2.rim.replies ++ [r], replied := d.2.rim.replied.set (fun _ => none) m.src (some s.tick) } }

/-- Deliver a packet that passed every check. -/
def State.rimDeliver (s : State) (m : RimeMsg) : State := ((s.nbUpdate m).rimRing m).rimTraced m

/-- RIME_TRAILER_END: the active packet's payload and trailer, and its EVM. -/
def State.rimTrailer (s : State) (k c : Nat) (body : List Byte) (evm : Nat) : State :=
  let x := s.rp k
  match x.act.get noRx c with
  | none => s
  | some a =>
    match a.hdr with
    | none => s
    | some h =>
      let s := s.setRp k { x with act := x.act.set noRx c none, bodyEnd := x.bodyEnd.set (fun _ => 0) c (s.tick + 4) }
      let len := ofBe ((h.drop 1).take 1)
      let b0 := ofBe (h.take 1)
      let auth := decide (128 ≤ b0)
      let full := body.take len
      let payload := if auth then full.take (len - 8) else full
      let m : RimeMsg := { port := k, chan := c, hdr := h, payload := payload, mac := if auth then full.drop (len - 8) else [], evm := evm, peak := a.peak, level := a.level, auth := auth }
      if body.length ≠ len + 4 ∨ ofBe (body.drop len) ≠ crc32 (h ++ full) then s.rimCount k c 6
      else if (auth = true ∧ len < 8) ∨ rimLenOk (b0 % 128) auth payload = false then s.rimCount k c 7
      else if m.src = s.fld Reg.RIM_ID.SHORT_ID then
        if m.type = 1 ∧ m.be 0 8 ≠ s.fuses.deviceId then s.raise Reg.RIM_EVENT.ID_CLASH else s.rimCount k c 8
      else if auth then
        let id := s.rim.nextId
        let r : RimeReq := { id := id, sign := false, slot := s.fld Reg.RIM_CTL.AUTH_SLOT, msg := h.take 5 ++ payload, mac := full.drop (len - 8), made := s.tick }
        { s with rim := { s.rim with nextId := id + 1, verify := s.rim.verify ++ [(id, m, s.tick)] }, cph := { s.cph with rimeQ := s.cph.rimeQ ++ [r] } }
      else if s.bit Reg.RIM_CTL.REQUIRE_AUTH then s.rimCount k c 9
      else s.rimDeliver m

/-! ### Authentication (R327, R328) -/

/-- The current packet leaves the port unsent. -/
def State.rimGone (s : State) (k : Nat) : State :=
  match (s.rp k).cur with
  | some p => (s.rimLeave k).rimTraceSent p false
  | none => s.rimLeave k

/-- The port whose current packet waits for a signature of a number. -/
def State.rimSigner (s : State) (id : Nat) : Option Nat := [0, 1].find? fun k => (s.rp k).sig == .asked id

/-- RIME_AUTH_DONE: the request engine has done a Rime request.  DEDUCED: one that ended with MEM_ERROR (R374) signs nothing and verifies
nothing. -/
def State.rimAuthDone (s : State) : State :=
  match s.cph.running with
  | none => s
  | some r =>
    if r.queue ≠ 2 then s
    else
      let s := { s with cph := { s.cph with running := none } }
      let usable := r.status.isNone && (s.keyUsage r.slot == 3 || s.keyUsage r.slot == 4)
      let mac := (aesCmac (s.key r.slot) r.got).take 8
      if r.rimeSign then
        match s.rimSigner r.rimeId with
        | none => s
        | some k =>
          if usable then s.setRp k { s.rp k with sig := .done mac }
          else (s.rimGone k).raise Reg.RIM_EVENT.AUTH_FAIL
      else
        match s.rim.verify.find? fun v => v.1 == r.rimeId with
        | none => s
        | some v =>
          let s := { s with rim := { s.rim with verify := s.rim.verify.filter fun w => w.1 != r.rimeId } }
          if usable && mac == r.iv then s.rimDeliver v.2.1
          else (s.rimCount v.2.1.port v.2.1.chan 10).raise Reg.RIM_EVENT.AUTH_FAIL

/-- AUTH_TIMEOUT: Rime requests made 10,000 ticks ago and not completed; their packets are dropped. -/
def State.rimAuthTimeout (s : State) : State :=
  let late (t : Nat) : Bool := decide (t + 10000 ≤ s.tick)
  let queued := s.cph.rimeQ.filter fun r => late r.made
  let running := match s.cph.running with
    | some r => if r.queue = 2 ∧ late r.len = true then [r.rimeId] else []
    | none => []
  let ids := running ++ queued.map (·.id)
  let s := { s with cph := { s.cph with rimeQ := s.cph.rimeQ.filter fun r => !late r.made } }
  ids.foldl (fun s id =>
    match s.rimSigner id with
    | some k => (s.rimGone k).raise Reg.RIM_EVENT.AUTH_TIMEOUT
    | none =>
      if s.rim.verify.any fun v => v.1 == id then
        ({ s with rim := { s.rim with verify := s.rim.verify.filter fun v => v.1 != id } }).raise Reg.RIM_EVENT.AUTH_TIMEOUT
      else s) s

/-! ### Tracing and the transmit ring (R326, R333) -/

/-- START sends one TRACE_REQ, or drops it when the port cannot send. -/
def State.rimTraceReq (s : State) : State :=
  let k := s.fld Reg.RIM_TRACE_CTL.PORT
  if s.rimTx k then s.rimQueue k (s.rimPkt 4 4 (beBytes 2 (s.fld Reg.RIM_TRACE_CTL.TRACE_ID) ++ [0#8, 0#8]))
  else (s.setFld Reg.RIM_TRACE_CTL.START 0).rimDrop

/-- TRACE_REPLY_DUE. -/
def State.rimReplies (s : State) : State :=
  let due := s.rim.replies.filter fun r => decide (r.due ≤ s.tick)
  let s := { s with rim := { s.rim with replies := s.rim.replies.filter fun r => !decide (r.due ≤ s.tick) } }
  due.foldl (fun s r => [0, 1].foldl (fun s k =>
    if s.rimTx k then s.rimQueue k (s.rimPkt 5 2 (beBytes 2 r.id ++ beBytes 2 r.src ++ [BitVec.ofNat 8 r.level, BitVec.ofNat 8 r.peak] ++
      beBytes 2 r.evm ++ [BitVec.ofNat 8 k, 0#8]))
    else s) s) s

/-- TRACE_DONE. -/
def State.rimTraceDone (s : State) : State :=
  match s.rim.traceEnd with
  | none => s
  | some t =>
    if s.tick < t then s
    else ({ s with rim := { s.rim with traceEnd := none } }.setFld Reg.RIM_TRACE_CTL.ACTIVE 0).raise Reg.RIM_EVENT.TRACE_DONE

/-- Take one ring record. -/
def State.rimRecord (s : State) (b : List Byte) (bad : Bool) : State :=
  let k := ofLe (b.take 1)
  let type := ofLe ((b.drop 1).take 1)
  let len := ofLe ((b.drop 2).take 1)
  let payload := (b.drop 4).take len
  let auth := s.bit Reg.RIM_CTL.AUTH_EN
  if bad || !(type == 3 || (decide (0x40 ≤ type) && decide (type ≤ 0x7F))) || decide (2 ≤ k) || !s.rimCan k ||
      decide (240 < len + 8 * b2n auth) || (type == 3 && len != 16) then s.rimDrop
  else s.rimQueue k (s.rimPkt type 5 payload)

/-- Take the ring's records up to RIM_TX_WR; `n` bounds their number. -/
def rimTake : Nat → State → State
  | 0, s => s
  | n + 1, s =>
    let size := 2 ^ s.fld Reg.RIM_RING_CFG.TX_LOG2
    let rd := s.fld Reg.RIM_TX_RD.IDX % size
    if !s.bit Reg.RIM_RING_CFG.TX_EN || ringEmpty (s.fld Reg.RIM_TX_WR.IDX % size) rd then s
    else
      let d := s.stRead (ringAddr (s.fld Reg.RIM_TX_BASE.BASE) rd) 256
      rimTake n ((d.2.2.setFld Reg.RIM_TX_RD.IDX (ringNext size rd)).rimRecord d.1 d.2.1.isSome)

/-! ### Meanings -/

/-- RIME_SYNC_DETECT (R315, R316). -/
def execRimeSyncDetect (k c bits level : Nat) (corr : List Nat) (s : State) : Host.Outcome State Fault Refusal :=
  .next (s.cmd (·.rimSync k c bits level corr))
/-- RIME_HEADER_END (R317). -/
def execRimeHeaderEnd (k c : Nat) (h : List Byte) (s : State) : Host.Outcome State Fault Refusal := .next (s.cmd (·.rimHeader k c h))
/-- RIME_TRAILER_END (R318, R319). -/
def execRimeTrailerEnd (k c : Nat) (body : List Byte) (evm : Nat) (s : State) : Host.Outcome State Fault Refusal :=
  .next (s.cmd (·.rimTrailer k c body evm))
/-- RIME_AUTH_DONE (R327). -/
def execRimeAuthDone (s : State) : Host.Outcome State Fault Refusal := .next (s.cmd State.rimAuthDone)
/-- AUTH_TIMEOUT (R328). -/
def execAuthTimeout (s : State) : Host.Outcome State Fault Refusal := .next (s.cmd State.rimAuthTimeout)
/-- NEIGH_LOST (R332). -/
def execNeighLost (s : State) : Host.Outcome State Fault Refusal := .next (s.cmd State.nbLost)
/-- RIME_BACKOFF_END (R320, R321). -/
def execRimeBackoffEnd (k : Nat) (power noise : Int) (idleUs : Nat) (s : State) : Host.Outcome State Fault Refusal :=
  .next (s.cmd (·.rimAttempt k power noise idleUs))
/-- RIME_PACKET_SENT (R321). -/
def execRimePacketSent (k : Nat) (s : State) : Host.Outcome State Fault Refusal := .next (s.cmd (·.rimSent k))
/-- RIME_QUEUE_EXPIRY (R323). -/
def execRimeQueueExpiry (k : Nat) (s : State) : Host.Outcome State Fault Refusal := .next (s.cmd (·.rimExpire k))
/-- IDENTITY_DUE (R325). -/
def execIdentityDue (k : Nat) (s : State) : Host.Outcome State Fault Refusal := .next (s.cmd (·.rimIdentityDue k))
/-- CONFIG_VER_DUE (R325). -/
def execConfigVerDue (k : Nat) (s : State) : Host.Outcome State Fault Refusal := .next (s.cmd (·.rimConfigDue k))
/-- ALARM_DUE (R325). -/
def execAlarmDue (k : Nat) (s : State) : Host.Outcome State Fault Refusal := .next (s.cmd (·.rimAlarmDue k))
/-- TRACE_REPLY_DUE (R326). -/
def execTraceReplyDue (s : State) : Host.Outcome State Fault Refusal := .next (s.cmd State.rimReplies)
/-- TRACE_DONE (R326). -/
def execTraceDone (s : State) : Host.Outcome State Fault Refusal := .next (s.cmd State.rimTraceDone)

end Sys2Proof.Machine
end

