-- ==== Sys2Proof/Machine/D2d.lean ====
section
/-! DEFINITION. The die-to-die links (R286-R306). -/

namespace Sys2Proof.Machine

/-! ### Lanes and sub-links -/

/-- A lane's index from tile, direction, group and physical lane. -/
def laneIdx (t r g l : Nat) : Nat := 264 * (2 * t + r) + 66 * g + l
def laneTile (k : Nat) : Nat := k / 528
def laneDir (k : Nat) : Nat := k / 264 % 2
def laneGroup (k : Nat) : Nat := k / 66 % 4
def lanePhys (k : Nat) : Nat := k % 66
/-- The first lane of a sub-link's group. -/
def subBase (j : Nat) : Nat := 264 * (j / 16) + 66 * (j / 4 % 4)

def noSub : Nat → SubLink := fun _ => {}
def State.sub (s : State) (j : Nat) : SubLink := s.d2d.subs.get noSub j
def State.setSub (s : State) (j : Nat) (x : SubLink) : State := { s with d2d := { s.d2d with subs := s.d2d.subs.set noSub j x } }

def noSend : Nat → SendSub := fun _ => {}
def State.snd (s : State) (j : Nat) : SendSub := s.d2d.send.get noSend j
def State.modSnd (s : State) (j : Nat) (f : SendSub → SendSub) : State :=
  { s with d2d := { s.d2d with send := s.d2d.send.set noSend j (f (s.snd j)) } }

/-- A lane's state and position as decided; the registers show them from the next boundary on (R298). -/
def State.laneState (s : State) (k : Nat) : Nat := s.nextFld (Reg.D2D_LANE.STATE k)
def State.lanePos (s : State) (k : Nat) : Nat := s.nextFld (Reg.D2D_LANE.POS k)

/-- Count a quantity of a sub-link: 0 CRC failures, 1 resends, 2 erasures, 3 calibration discards (R465). -/
def State.subCount (s : State) (j n : Nat) : State := s.count (4128 + 4 * j + n) 1

/-- Whether a direction is in flit mode. -/
def State.trained (s : State) (d : Nat) : Bool := (s.fld Reg.D2D_STATUS.TRAINED).testBit d

/-- Usable spares of a group whose first lane is `base`. -/
def State.groupSpares (s : State) (base : Nat) : List Nat := ((List.range 66).map (base + ·)).filter fun k => s.laneState k == 1

/-- How many usable spares a group has.  DEDUCED: in a direction that is not in flit mode, the good lanes beyond the 64 that its
positions need. -/
def State.spareCount (s : State) (g : Nat) : Nat :=
  if s.trained (g / 4) then (s.groupSpares (66 * g)).length
  else (((List.range 66).map (66 * g + ·)).filter fun k => decide (s.laneState k ≤ 1)).length - 64

/-- The fewest usable spares of any trained group (none is trained: 0, the reset value; DESIGN CHOICE), and the first group of all that
has none (R301, R306). -/
def State.sparePool (s : State) : Nat × Option Nat :=
  let up := (List.range 16).filter fun g => s.trained (g / 4)
  (if up.isEmpty then 0 else up.foldl (fun m g => min m (s.spareCount g)) 2, (List.range 16).find? fun g => s.spareCount g == 0)

/-- Show the spare pool; its first exhaustion is raised (R301, R449). -/
def State.d2dPool (s : State) : State :=
  let p := s.sparePool
  let s := s.publish Reg.D2D_STATUS.SPARES_MIN p.1
  match p.2 with
  | none => s
  | some g =>
    if s.nextFld Reg.D2D_STATUS.EXHAUSTED = 1 then s
    else
      let s := (s.publish Reg.D2D_STATUS.EXHAUSTED 1).raise Reg.D2D_EVENT.EXHAUSTED
      { s with poolQ := s.poolQ ++ [(1, 1 + 256 * (g / 8))] }

/-- Record a lane in the repair log: suspect or failed. -/
def State.logLane (s : State) (k st : Nat) : State :=
  s.logRepair 10 0x0001 st [BitVec.ofNat 8 (laneTile k), BitVec.ofNat 8 (laneDir k), BitVec.ofNat 8 (laneGroup k), BitVec.ofNat 8 (lanePhys k)]

/-! ### Flits (R287) -/

/-- The bytes of a flit from the words of the group's 66 lanes, under a map of its 16 positions. -/
def flitBytes (map w : List Nat) : List Byte :=
  bitsBytes 128 ((List.range 1024).map fun b => (w.getD (map.getD (b % 16) 0) 0).testBit (63 - b / 16))

/-- Whether a flit's CRC is correct. -/
def flitOk (b : List Byte) : Bool := b.length == 128 && ofBe (b.drop 124) == crc32 (b.take 124)

def flitSeq (b : List Byte) : Nat := ofBe (b.take 2) / 16
def flitType (b : List Byte) : Nat := ofBe (b.take 2) % 16
def flitEpoch (b : List Byte) : Nat := ofBe ((b.drop 2).take 1) / 32
/-- The resend that a flit asks for, if any. -/
def flitRq (b : List Byte) : Option Nat := if (ofBe ((b.drop 2).take 1)).testBit 4 then some (ofBe ((b.drop 2).take 2) % 4096) else none
def flitPayload (b : List Byte) : List Byte := (b.drop 4).take 120

/-- The bytes of a flit; `bad` inverts its CRC (R293). -/
def flitMake (seq type epoch : Nat) (rq : Option Nat) (payload : List Byte) (bad : Bool) : List Byte :=
  let b := beBytes 2 (16 * (seq % 4096) + type % 16) ++ beBytes 2 (8192 * (epoch % 8) + (match rq with | some n => 4096 + n % 4096 | none => 0)) ++
    (payload ++ List.replicate (120 - payload.length) 0#8).take 120
  b ++ beBytes 4 (if bad then 2 ^ 32 - 1 - crc32 b else crc32 b)

/-- Count an error against a lane: in its window, and in the counter array (R296, R465). -/
def State.laneErr (s : State) (k : Nat) : State :=
  { s with d2d := { s.d2d with err := s.d2d.err.set natZero k (satAdd 0xFFFF (s.d2d.err.get natZero k) 1) } }.count (3072 + k) 1

/-- Count the bits in which two copies differ against the lanes that carried the first (R296). -/
def State.attribute (s : State) (j : Nat) (lanes : List Nat) (a b : List Byte) : State :=
  let diff := (bytesBits a).zip (bytesBits b) |>.zipIdx.filter fun p => p.1.1 != p.1.2
  diff.foldl (fun s p => s.laneErr (subBase j + lanes.getD (p.2 % 16) 0)) s

/-! ### Control and status (R290, R295) -/

/-- The sub-link of a direction's group that carries control, status and observation flits: sub-link 0, or the lowest that is up. -/
def State.carrier (s : State) (d g : Nat) : Nat :=
  match (List.range 4).find? fun k => s.bit (Reg.D2D_SUB.UP (16 * d + 4 * g + k)) with
  | some k => 16 * d + 4 * g + k
  | none => 16 * d + 4 * g

/-- A control or status flit waits at a group's sender. -/
def State.sendCtl (s : State) (d g : Nat) (c : Ctl) : State := s.modSnd (s.carrier d g) fun x => { x with ctl := x.ctl ++ [c] }

/-- What a control or status flit carries, as numbers. -/
def Ctl.words : Ctl → List Nat
  | .tile g n cfg => 0 :: g :: n :: cfg
  | .lane j e => [1, j, e]
  | .ack j q st => 2 :: j :: q :: st

/-- Whether it writes registers of the tile. -/
def Ctl.isTile : Ctl → Bool
  | .tile _ _ _ => true
  | .lane _ _ => false
  | .ack _ _ _ => false

/-- Its payload. -/
def Ctl.payload (c : Ctl) : List Byte := (List.range 120).map fun i => BitVec.ofNat 8 (Config.ctlPayload c.words i)

/-- Whether some write of a tile's registers is not acknowledged. -/
def State.ctlOpen (s : State) (t : Nat) : Bool :=
  (List.range 16).any fun i => let x := s.snd (32 * t + i); x.ctl.any Ctl.isTile || x.sent.any fun p => p.2.isTile

/-- What waits at the sender of a sub-link that is down moves to the one that carries it now (R290). -/
def State.ctlMove (s : State) (j : Nat) : State :=
  let x := s.snd j
  let c := s.carrier (j / 16) (j / 4 % 4)
  if c = j ∨ (x.ctl = [] ∧ x.obs = []) ∨ s.bit (Reg.D2D_SUB.UP j) = true then s
  else (s.modSnd j fun x => { x with ctl := [], obs := [] }).modSnd c fun y => { y with ctl := x.ctl ++ y.ctl, obs := x.obs ++ y.obs }

/-- At a boundary the control, status and observation flits of sub-links that have gone down move (R290, R300). -/
def State.ctlMoves (s : State) : State := s.d2d.send.foldl (fun s p => s.ctlMove p.1) s

/-! ### Sending (R291, R293) -/

/-- What a sender puts into a slot: SEQ, TYPE, payload, whether it is a resend, and what it carries. -/
structure Slot where
  seq : Nat
  type : Nat
  payload : List Byte
  again : Bool := false
  ctl : Option Ctl := none

/-- What follows resends and samples in priority: control or status, observation, calibration, idle (R291). -/
def SendSub.pickLow (x : SendSub) : Slot × SendSub :=
  match x.ctl with
  | c :: q => (⟨x.seq, 3, c.payload, false, some c⟩, { x with ctl := q })
  | [] => match x.obs with
    | b :: q => (⟨x.seq, 4, b, false, none⟩, { x with obs := q })
    | [] => match x.cal with
      | b :: q => (⟨x.seq, 2, b, false, none⟩, { x with cal := q })
      | [] => (⟨x.seq, 0, [], false, none⟩, x)

/-- The first that is ready, and the sender without it (R291). -/
def SendSub.pick (x : SendSub) : Slot × SendSub :=
  match x.resend with
  | q :: r =>
    let f := match x.replay.find? fun p => p.1 == q with | some p => p.2 | none => (0, [])
    (⟨q, f.1, f.2, true, none⟩, { x with resend := r, resent := q :: x.resent })
  | [] => match x.smp with
    | (d, b) :: r => if d ≤ x.cyc then (⟨x.seq, 1, b, false, none⟩, { x with smp := r }) else x.pickLow
    | [] => x.pickLow

/-- A flit that is no resend takes its SEQ and enters the replay buffer. -/
def SendSub.keep (x : SendSub) (f : Slot) : SendSub :=
  if f.again then x
  else { x with seq := (x.seq + 1) % 4096, replay := ((f.seq, f.type, f.payload) :: x.replay).take 256, resent := x.resent.filter (· != f.seq),
                sent := match f.ctl with | some c => x.sent ++ [(f.seq, c)] | none => x.sent }

/-- The request that the next flit carries, oldest first and twice each (R293). -/
def SendSub.asked (x : SendSub) : SendSub :=
  match x.ask with
  | (q, n) :: r => { x with ask := if n ≤ 1 then r else (q, n - 1) :: r }
  | [] => x

/-- The sample flits that have now waited more than 8 cycles. -/
def SendSub.late (x : SendSub) : Nat := (x.smp.filter fun p => p.1 + 9 == x.cyc).length

/-- The map's epoch that a sub-link's sender sends under: the core's as published, the tile's as it was told (R298). -/
def State.sendEpoch (s : State) (j : Nat) : Nat := if j / 16 % 2 = 0 then s.fld (Reg.D2D_SUB.EPOCH j) else (s.snd j).epoch

/-- The physical lanes of the map that a sub-link's sender sends under (R298). -/
def State.sendMap (s : State) (j : Nat) : List Nat :=
  let x := s.sub j
  if x.epoch = s.sendEpoch j then x.map else match x.next.find? fun n => n.1 == s.sendEpoch j with | some n => n.2 | none => x.map

/-- Whether a sub-link's lanes carry flits. -/
def State.subLive (s : State) (j : Nat) : Bool := s.bit (Reg.D2D_SUB.UP j) && !s.bit (Reg.D2D_SUB.DIAG j)

/-- A sender fills one slot; `bad` says that the replay buffer's read is uncorrectable (R291, R293).  DEDUCED: one that is down or runs
its diagnosis goes on filling slots, and its lanes carry none of them: they are the flits that the far side delivers as erasures
(R297, R300). -/
def State.fillSlot (s : State) (j : Nat) (bad : Bool) : State :=
  if s.trained (j / 16) = false then s
  else
    let x := s.snd j
    let n := min x.late x.cal.length
    let x := { x with cal := x.cal.drop n }
    let p := x.pick
    let s := (s.count (4128 + 4 * j + 3) n).count (4128 + 4 * j + 1) (b2n p.1.again)
    let b := flitMake p.1.seq p.1.type (s.sendEpoch j) (x.ask.head?.map (·.1)) p.1.payload (bad && p.1.again)
    let t := s.modSnd j fun _ => { (p.2.keep p.1).asked with cyc := x.cyc + 1 }
    if s.subLive j then t.emit (.flitSent j (s.sendMap j) b) else t

/-- The payload of a calibration flit of an ADC's unit (R289); `cand` is the candidate it runs. -/
def calPayload (u cand idx : Nat) (b : List Byte) : List Byte :=
  [BitVec.ofNat 8 (u / 18), BitVec.ofNat 8 (u % 18), BitVec.ofNat 8 cand, 0#8] ++ beBytes 4 (idx % 2 ^ 32) ++ b.take 112

/-- The sample flits of a converter wait at its group's senders, flit n at sub-link n mod 4, each for a number of slots (R288). -/
def State.queueFlits (s : State) (g : Nat) (fs : List (Nat × List Byte)) : State :=
  let n := s.d2d.outN.get natZero g
  let s := fs.zipIdx.foldl (fun (s : State) p => s.modSnd (4 * g + (n + p.2) % 4) fun x => { x with smp := x.smp ++ [(x.cyc + p.1.1, p.1.2)] }) s
  { s with d2d := { s.d2d with outN := s.d2d.outN.set natZero g (n + fs.length) } }

/-- Codes of a tile's DAC wait at its senders in whole flits: one sub-link takes every fourth, 336 ÷ Rs cycles apart, `rs` in
1/8 GBd (R288). -/
def State.queueDac (s : State) (l rs d : Nat) (codes : List Int) : State :=
  let c := 4 * l + d
  let bs := s.d2d.dacRest.get (fun _ => []) c ++ codes.map fun v => BitVec.ofInt 8 v
  let k := bs.length / 120
  let s := s.queueFlits (8 * l + d) ((List.range k).map fun i => (i / 4 * 2688 / max 1 rs, (bs.drop (120 * i)).take 120))
  { s with d2d := { s.d2d with dacRest := s.d2d.dacRest.set (fun _ => []) c (bs.drop (120 * k)) } }

/-! ### Replacement (R298-R301) -/

/-- The newest lane map of a sub-link, with its epoch. -/
def SubLink.latest (x : SubLink) : Nat × List Nat := x.next.getLast?.getD (x.epoch, x.map)

/-- Replace one lane that needs it by a spare of its group, or mark its sub-link down. -/
def State.replaceLane (s : State) (k : Nat) : State :=
  let base := k / 66 * 66
  let p := s.lanePos k
  let j := 4 * (k / 66) + p / 16
  match s.groupSpares base with
  | [] =>
    let s := if s.nextFld (Reg.D2D_SUB.UP j) = 1 then ((s.publish (Reg.D2D_SUB.UP j) 0).publish Reg.D2D_STATUS.SUB_DOWN 1).raiseAt Reg.D2D_EVENT.SUB_DOWN j else s
    if s.laneState k = 3 then s else s.raiseAt Reg.D2D_EVENT.LANE_FAILED k
  | sp :: _ =>
    let s := ((s.publish (Reg.D2D_LANE.STATE sp) 0).publish (Reg.D2D_LANE.POS sp) p).publish (Reg.D2D_LANE.POS k) 0
    let x := s.sub j
    let e := (x.latest.1 + 1) % 8
    let s := s.setSub j { x with next := x.next ++ [(e, x.latest.2.set (p % 16) (sp - base))] }
    let s := { s with d2d := { s.d2d with laneQ := s.d2d.laneQ ++ [(j, e)] } }
    (s.publish (Reg.D2D_SUB.EPOCH j) e).raiseAt Reg.D2D_EVENT.LANE_SPARED j

/-- At the boundary that publishes a new lane map, the tile is told by a control flit (R298). -/
def State.tellLanes (s : State) : State :=
  s.d2d.laneQ.foldl (fun (s : State) p => s.sendCtl (p.1 / 32 * 2) (p.1 / 4 % 4) (.lane p.1 p.2)) { s with d2d := { s.d2d with laneQ := [] } }

/-- Lanes ordered by their position. -/
def State.byPos (s : State) (ks : List Nat) : List Nat :=
  ks.mergeSort fun a b => decide (s.lanePos a ≤ s.lanePos b)

/-- Whether a lane holds a position of a sub-link's newest map. -/
def State.laneUsed (s : State) (k : Nat) : Bool := (List.range 4).any fun q => (s.sub (4 * (k / 66) + q)).latest.2.contains (k % 66)

/-- Phase 6: the lanes that became suspect or failed in the tick and hold a position are replaced, the lower position first (R298). -/
def State.replaceLanes (s : State) : State :=
  if s.d2d.laneDue = [] then s
  else
    let ks := s.byPos (s.d2d.laneDue.eraseDups.filter s.laneUsed)
    let s := { s with d2d := { s.d2d with laneDue := [] } }
    (if s.bit Reg.D2D_CTL.AUTO_SPARE then ks.foldl State.replaceLane s else s).d2dPool

/-- Lanes wait for the tick's phase 6. -/
def State.lanesDue (s : State) (ks : List Nat) : State := { s with d2d := { s.d2d with laneDue := s.d2d.laneDue ++ ks } }

/-- Fail lanes: recorded, and to be replaced where they hold a position (R297, R302). -/
def State.failLanes (s : State) (ks : List Nat) : State :=
  let ks := ks.filter fun k => decide (k < 1056) && s.laneState k != 3
  (ks.foldl (fun s k => ((s.publish (Reg.D2D_LANE.STATE k) 3).raiseAt Reg.D2D_EVENT.LANE_FAILED k).logLane k 2) s).lanesDue ks

/-- LANE_HARD_FAIL (R297). -/
def State.laneHard (s : State) (k : Nat) : State := if s.trained (k / 264) then s.failLanes [k] else s

/-- A lane becomes suspect; one that becomes suspect a second time is recorded as failed (R296, R304). -/
def State.suspect (s : State) (k : Nat) : State :=
  let again := s.d2d.was.get (fun _ => false) k
  let s := (s.publish (Reg.D2D_LANE.STATE k) (if again then 3 else 2)).raiseAt Reg.D2D_EVENT.SUSPECT k
  let s := { s with d2d := { s.d2d with was := s.d2d.was.set (fun _ => false) k true } }
  let s := if again then s.raiseAt Reg.D2D_EVENT.LANE_FAILED k else s
  s.logLane k (if again then 2 else 1)

/-- LANE_ERR_WINDOW_END (R296). -/
def State.errWindow (s : State) : State :=
  if s.tick < s.d2d.winFrom + s.fld Reg.D2D_ERR_WIN.WIN then s
  else
    let thr := s.fld Reg.D2D_CTL.ERR_THR
    let bad := (List.range 1056).filter fun k => decide (thr < s.d2d.err.get natZero k) && s.laneState k == 0
    let s := s.d2d.err.foldl (fun (s : State) p => s.publish (Reg.D2D_LANE.ERR p.1) 0) s
    let s := { s with d2d := { s.d2d with winFrom := s.tick, err := [] } }
    (bad.foldl State.suspect s).lanesDue bad

/-! ### Receiving and delivering (R292-R295) -/

def noSlot : Nat → Option FlitSlot := fun _ => none

/-- Decode a flit under the receiver's map, or under the next epoch's where the flit carries that epoch (R298). -/
def SubLink.decode (x : SubLink) (w : List Nat) : List Byte × Bool × SubLink :=
  let b := flitBytes x.map w
  if flitOk b then (b, true, x)
  else match x.next with
    | n :: r => let c := flitBytes n.2 w; if flitOk c && flitEpoch c == n.1 then (c, true, { x with map := n.2, epoch := n.1, next := r }) else (b, false, x)
    | [] => (b, false, x)

/-- Whether a copy of a flit comes after the flit has been delivered (R293). -/
def SubLink.late (x : SubLink) (q : Nat) : Bool := match x.last with | some z => decide ((z + 4096 - q) % 4096 < 2048) | none => false

/-- The pair of a sub-link carries a request: the sender resends the flit once (R293). -/
def State.resend (s : State) (j seq : Nat) : State :=
  let x := s.snd j
  if x.resent.contains seq || x.resend.contains seq || !(x.replay.any fun p => p.1 == seq) then s
  else s.modSnd j fun x => { x with resend := x.resend ++ [seq] }

/-- The sub-link paired with another: same tile, group and number, the other direction. -/
def subPair (j : Nat) : Nat := if j / 16 % 2 = 0 then j + 16 else j - 16

/-- A sub-link's receiver takes the words of its group's 66 lanes; `seq` tells which flit a failed copy is a copy of.  A copy that
comes after the flit's delivery is neither kept nor asked for again. -/
def State.flitTake (s : State) (j : Nat) (w : List Nat) (seq : Nat) : State :=
  if 64 ≤ j ∨ s.subLive j = false then s
  else
    let x := s.sub j
    let d := x.decode w
    let b := d.1
    let x := d.2.2
    if d.2.1 then
      let q := flitSeq b
      let slot := (x.slots.get noSlot q).getD ⟨none, none⟩
      let s := match slot.bad, slot.good with
        | some (f, lanes), none => s.attribute j lanes f b
        | _, _ => s
      let s := s.setSub j (if slot.good.isSome || x.late q then x else { x with slots := x.slots.set noSlot q (some ⟨some (flitType b, flitPayload b), slot.bad⟩) })
      match flitRq b with
      | some n => s.resend (subPair j) n
      | none => s
    else
      let q := seq % 4096
      let s := s.subCount j 0
      if x.late q then s.setSub j x
      else match x.slots.get noSlot q with
      | some ⟨_, some (f, lanes)⟩ => (s.setSub j x).attribute j lanes f b
      | some ⟨some _, none⟩ => s.setSub j x
      | _ => (s.setSub j { x with slots := x.slots.set noSlot q (some ⟨none, some (b, x.map)⟩) }).modSnd (subPair j) fun y => { y with ask := y.ask ++ [(q, 2)] }

/-- A step of a length after some ticks: the candidate of its part 1, or none in part 2 (R229). -/
def calPart (len t : Nat) : Option Nat := if t < 12 * (len / 24) then some (t / (len / 24)) else none

/-- What the measured unit `u` of a tile runs: its candidate in part 1, or the one it has chosen; and whether this is part 1. -/
def CnvSt.calNow (c : CnvSt) (u : Nat) : Nat × Bool :=
  let p := match c.prio.find? fun p => p.unit == u with | some p => calPart p.len (p.len - p.left) | none => calPart c.stepLen c.stepTicks
  match p with | some k => (k, true) | none => (c.pick.get natZero u - 1, false)

/-- What becomes ready at a tile's senders joins their queues: `p` is the sub-link of the group whose slot comes (R288-R290). -/
def State.sendReady (s : State) (p : Nat) (x : SendIn) : State :=
  if p / 16 % 2 = 0 ∨ s.trained (p / 16) = false then s
  else
    let t := p / 32
    let a := p / 4 % 4
    let cal := x.cal.map fun k => calPayload (k.1 % 144) ((s.ln t).cnv.calNow (144 * a + k.1 % 144)).1 k.2.1 k.2.2
    (s.queueFlits (p / 4) (x.samples.map fun b => (0, b.take 120))).modSnd p fun y =>
      { y with cal := y.cal ++ cal, obs := if s.carrier (p / 16) a = p then y.obs ++ x.obs else y.obs }

/-- FLIT_RECEIVED: a cycle at one end of a sub-link pair: its receiver takes a flit, its sender fills a slot. -/
def State.flitIn (s : State) (j : Nat) (w : List Nat) (seq : Nat) (x : SendIn) : State :=
  ((s.flitTake j w seq).sendReady (subPair j) x).fillSlot (subPair j) x.bad

/-- CTL_LATE: the tile has not acknowledged a control write 200 ns before its activation; the change is withheld on both
dies until the next frame head (R295). -/
def State.ctlLate (s : State) (t : Nat) : State :=
  if t < 2 ∧ (s.ln t).cnv.due ≠ [] ∧ s.ctlOpen t = true ∧ (s.ln t).ctlHeld = false then
    (s.modLn t fun x => { x with ctlHeld := true }).raiseDp Reg.D2D_EVENT.CTL_LATE
  else s

/-! ### Diagnosis, elastic stores (R297, R305) -/

/-- Whether some lane of a sub-link is suspect or failed. -/
def State.subSick (s : State) (j : Nat) : Bool := (s.sub j).map.any fun l => decide (2 ≤ s.laneState (subBase j + l))

/-- DIAG: the diagnosis starts at the next boundary (R297). -/
def State.diag (s : State) (j : Nat) : State :=
  if j < 64 ∧ 64 ≤ (s.sub j).run ∧ s.bit (Reg.D2D_SUB.UP j) = true ∧ s.nextFld (Reg.D2D_SUB.DIAG j) = 0 ∧ s.subSick j = false then
    ((s.publish (Reg.D2D_SUB.DIAG j) 1).setSub j { s.sub j with diagFrom := s.tick + 1 }).raiseAt Reg.D2D_EVENT.DIAG j
  else s

/-- DIAG_DONE: the physical lanes that showed an error fail. -/
def State.diagDone (s : State) (j : Nat) (bad : List Nat) : State :=
  if j < 64 ∧ s.bit (Reg.D2D_SUB.DIAG j) = true ∧ s.nextFld (Reg.D2D_SUB.DIAG j) = 1 ∧ (s.sub j).diagFrom + 20 ≤ s.tick then
    let lanes := ((s.sub j).map.filter bad.contains).map (subBase j + ·)
    ((s.publish (Reg.D2D_SUB.DIAG j) 0).setSub j { s.sub j with run := 0 }).failLanes lanes
  else s

/-- LAT_FAULT: a group's elastic store faults; it retrains to its L from the next tick on, for at most 22 ticks. -/
def State.latFault (s : State) (g : Nat) : State :=
  if g < 16 ∧ s.trained (g / 4) = true then
    let d := s.draw 22
    ({ d.2 with d2d := { d.2.d2d with retrain := d.2.d2d.retrain.set (fun _ => (0, 0)) g (s.tick + 1, s.tick + 2 + d.1) } }).raiseAt Reg.D2D_EVENT.LAT_FAULT g
  else s

/-! ### Training (R303, R304) -/

/-- Whether a sub-link's group retrains. -/
def State.retrains (s : State) (j : Nat) : Bool :=
  let r := s.d2d.retrain.get (fun _ => (0, 0)) (j / 4)
  decide (r.1 ≤ s.tick) && decide (s.tick < r.2)

/-- The band field of a tile. -/
def State.tileBand (s : State) (t : Nat) : Nat := s.fld (bandField (t + 1))

/-- Whether a direction's stored settings are stale. -/
def State.setStale (s : State) (d : Nat) : Bool :=
  match s.d2d.sets.get (fun _ => none) d with
  | none => true
  | some x => x.epoch != s.epochNow || x.band != s.tileBand (d / 2) || decide (x.tick + 86400000000 < s.tick)

/-- Train one group: the lanes of it that failed the check fail, suspect lanes that passed return as spares, the
lowest-numbered good lanes fill the positions.  False when fewer than 64 are good. -/
def State.trainGroup (s : State) (base : Nat) (bad : List Nat) (stale : Bool) : State × Bool :=
  let ks := (List.range 66).map (base + ·)
  let failed := ks.filter fun k => bad.contains (lanePhys k) && s.laneState k != 3
  let sus := ks.filter fun k => s.laneState k == 2 && !bad.contains (lanePhys k)
  let s := failed.foldl (fun s k => ((s.publish (Reg.D2D_LANE.STATE k) 3).raiseAt Reg.D2D_EVENT.LANE_FAILED k).logLane k 2) s
  let good := ks.filter fun k => s.laneState k != 3 && !sus.contains k
  let act := good.take 64
  let s := (good.drop 64 ++ sus).foldl (fun s k => (s.publish (Reg.D2D_LANE.STATE k) 1).publish (Reg.D2D_LANE.POS k) 0) s
  let s := act.zipIdx.foldl (fun s p => (s.publish (Reg.D2D_LANE.STATE p.1) 0).publish (Reg.D2D_LANE.POS p.1) p.2) s
  let s := ks.foldl (fun s k => (s.publish (Reg.D2D_LANE.STALE k) (b2n stale)).publish (Reg.D2D_LANE.ERR k) 0) s
  let s := { s with d2d := { s.d2d with err := s.d2d.err.filter fun p => p.1 / 66 != base / 66 } }
  let s := (List.range 4).foldl (fun s q =>
    (s.setSub (4 * (base / 66) + q) { map := ((act.drop (16 * q)).take 16).map lanePhys }).modSnd (4 * (base / 66) + q) fun _ => {}) s
  (s, decide (64 ≤ act.length))

/-- Show whether some sub-link of a trained direction is down. -/
def State.subDown (s : State) : State :=
  s.publish Reg.D2D_STATUS.SUB_DOWN (b2n ((List.range 64).any fun j => s.trained (j / 16) && !s.bit (Reg.D2D_SUB.UP j)))

/-- A direction's lanes are given the preset of the tile's temperature band: trained lanes as their starting point or, where they run,
as the bounds of their adaptation; active lanes are not stepped (R303, R305). -/
def State.linkPreset (s : State) (d : Nat) : State := { s with d2d := { s.d2d with preset := s.d2d.preset.set (fun _ => none) d (some (s.tileBand (d / 2))) } }

/-- The equaliser preset that a direction's lanes hold, as the ROM has it (R390). -/
def State.lanePreset (s : State) (d : Nat) : Option (List Nat) := (s.d2d.preset.get (fun _ => none) d).map Config.linkPreset

/-- At a boundary, a trained direction whose tile's band has changed is given the new preset (R305, R392). -/
def State.presetBoundary (s : State) (d : Nat) : State :=
  if s.trained d && decide (s.d2d.preset.get (fun _ => none) d ≠ some (s.tileBand (d / 2))) then s.linkPreset d else s

/-- Stop a direction's links. -/
def State.linkStop (s : State) (d : Nat) : State :=
  let s := s.setFld ⟨Reg.D2D_STATUS, d, d⟩ 0
  let s := { s with d2d := { s.d2d with laneDue := s.d2d.laneDue.filter (· / 264 != d), laneQ := s.d2d.laneQ.filter (·.1 / 16 != d) } }
  ((List.range 16).foldl (fun s i => ((s.setFld (Reg.D2D_SUB.UP (16 * d + i)) 0).setFld (Reg.D2D_SUB.DIAG (16 * d + i)) 0)) s).d2dPool

/-- Train one lane group of a direction after others: the state, and whether all trained. -/
def State.trainNext (t r : Nat) (bad : List (List Nat)) (stale : Bool) (a : State × Bool) (g : Nat) : State × Bool :=
  let x := a.1.trainGroup (laneIdx t r g 0) (bad.getD g []) stale
  (x.1, a.2 && x.2)

/-- A direction's trained set is noted, its lanes' preset too; the sample origin is set: the samples before it are forgotten (R303). -/
def State.trainNote (s : State) (t r : Nat) : State :=
  let d := 2 * t + r
  let s := s.linkPreset d
  let s := { s with d2d := { s.d2d with
    sets := s.d2d.sets.set (fun _ => none) d (some ⟨s.epochNow, s.tileBand t, s.tick⟩),
    outN := s.d2d.outN.filter (fun p => p.1 / 4 != d), smp := s.d2d.smp.filter (fun p => p.1 / 4 != d), wait := s.d2d.wait.filter (fun p => p.1 / 4 != d) } }
  if r = 1 then { s with d2d := { s.d2d with tail := s.d2d.tail.filter (fun p => p.1 / 4 != t) } }
  else { s with d2d := { s.d2d with dacRest := s.d2d.dacRest.filter (fun p => p.1 / 4 != t) } }.modLn t fun x => { x with headSmp := 0 }

/-- A trained direction: L is fixed and its sub-links are up. -/
def State.trainUp (s : State) (d f : Nat) : State :=
  let s := (s.setFld ⟨Reg.D2D_STATUS, d, d⟩ 1).setFld (Reg.D2D_LAT.L d) (min 14 f + 56)
  ((List.range 16).foldl (fun s i => (s.setFld (Reg.D2D_SUB.UP (16 * d + i)) 1).setFld (Reg.D2D_SUB.EPOCH (16 * d + i)) 0) s).subDown

/-- A direction ends its training: `bad` are the lanes of each group that showed an error, `f` the flight time.  True when it
trained. -/
def State.trainDir (s : State) (t r : Nat) (bad : List (List Nat)) (f : Nat) : State × Bool :=
  let d := 2 * t + r
  let res := (List.range 4).foldl (State.trainNext t r bad (s.setStale d)) (s.linkStop d, true)
  let s := res.1.trainNote t r
  if res.2 then ((s.trainUp d f).d2dPool, true)
  else ((s.d2dPool.raiseOwn Reg.D2D_EVENT.TRAIN_FAIL).queueRec 0x000A 2 10 [BitVec.ofNat 8 t, 2#8], false)

/-! ### Meanings -/

/-- FLIT_RECEIVED (R293). -/
def execFlitReceived (j : Nat) (w : List Nat) (seq : Nat) (x : SendIn) (s : State) : Host.Outcome State Fault Refusal :=
  .next (s.cmdRun (·.flitIn j w seq x))
/-- CTL_LATE (R295). -/
def execCtlLate (t : Nat) (s : State) : Host.Outcome State Fault Refusal := .next (s.cmdRun (·.ctlLate t))
/-- LANE_HARD_FAIL (R297-R302). -/
def execLaneHardFail (k : Nat) (s : State) : Host.Outcome State Fault Refusal := .next (s.cmdDecideLive (·.laneHard k))
/-- LANE_ERR_WINDOW_END (R296). -/
def execLaneErrWindowEnd (s : State) : Host.Outcome State Fault Refusal := .next (s.cmdDecideLive State.errWindow)
/-- DIAG (R297). -/
def execDiag (j : Nat) (s : State) : Host.Outcome State Fault Refusal := .next (s.cmdDecideLive (·.diag j))
/-- DIAG_DONE (R297). -/
def execDiagDone (j : Nat) (bad : List Nat) (s : State) : Host.Outcome State Fault Refusal := .next (s.cmdDecideLive (·.diagDone j bad))
/-- LAT_FAULT (R305). -/
def execLatFault (g : Nat) (s : State) : Host.Outcome State Fault Refusal := .next (s.cmdDecideLive (·.latFault g))

end Sys2Proof.Machine
end

