-- ==== Sys2Proof/Machine/Cnv.lean ====
section
/-! DEFINITION. The data converters and their calibration (R219-R250). -/

namespace Sys2Proof.Machine

open Sys2Proof (CalRes FgIn Rd Pg)

/-! ### Units and branches -/

def noUnit : Nat → UnitVal := fun _ => {}

def State.cnv (s : State) (l : Nat) : CnvSt := (s.ln l).cnv
def State.modCnv (s : State) (l : Nat) (f : CnvSt → CnvSt) : State := s.modLn l fun x => { x with cnv := f x.cnv }
def State.cnvCount (s : State) (l n : Nat) : State := s.count (miscCtr (16 + 8 * l) n) 1

/-- A unit's role as decided: 0 active, 1 standby, 2 rover, 3 failed; and its slot.  The registers show them from the next boundary
on (R31). -/
def State.role (s : State) (l i : Nat) : Nat := s.nextFld (Reg.CNV_UNIT.ROLE l i)
def State.slot (s : State) (l i : Nat) : Nat := s.nextFld (Reg.CNV_UNIT.SLOT l i)
/-- A branch's skew tap as decided. -/
def State.tap (s : State) (l br : Nat) : Nat := s.nextFld (Reg.CNV_SKEW.TAP l br)

/-- The units of a branch (8a + b). -/
def branchUnits (br : Nat) : List Nat := (List.range 18).map (18 * br + ·)

def State.branchUsable (s : State) (l br : Nat) : List Nat := (branchUnits br).filter fun i => s.role l i != 3
def State.branchRole (s : State) (l br r : Nat) : Option Nat := (branchUnits br).find? fun i => s.role l i == r

/-- The temperature of a tile as published, 1/16 °C. -/
def State.tTile (s : State) (l : Nat) : Int := sx 16 (s.fld (Reg.CNV_TEMP.T_TILE l))
/-- DELTA_T in 1/16 °C. -/
def State.deltaT (s : State) (l : Nat) : Nat := 4 * s.fld (Reg.CNV_CTL.DELTA_T l)

/-- Something that the tile runs on has been decided anew: published at the next boundary, with control writes to the tile (R41,
R290). -/
def State.cnvDirty (s : State) (l : Nat) : State := s.modCnv l fun c => { c with dirty := true }

/-- Decide a unit's role and slot. -/
def State.setRole (s : State) (l i r slot : Nat) : State :=
  if s.role l i = r ∧ s.slot l i = slot then s
  else ((s.publish (Reg.CNV_UNIT.ROLE l i) r).publish (Reg.CNV_UNIT.SLOT l i) slot).cnvDirty l

/-- Decide a branch's tap. -/
def State.setTap (s : State) (l br v : Nat) : State := if s.tap l br = v then s else (s.publish (Reg.CNV_SKEW.TAP l br) v).cnvDirty l

/-- Show a unit's working values. -/
def State.showUnit (s : State) (l i : Nat) (v : UnitVal) : State :=
  (s.publish (Reg.CNV_UNIT.OFFSET l i) (twos 8 v.o)).publish (Reg.CNV_UNIT.GAIN l i) v.g

/-- Give a unit working values. -/
def State.setUnit (s : State) (l i : Nat) (v : UnitVal) : State :=
  ((s.modCnv l fun c => { c with units := c.units.set noUnit i v }).showUnit l i v).cnvDirty l

/-! ### The step's arithmetic (R229) -/

/-- The values of a step, or none when the unit fails calibration. -/
def unitValues (c : Nat) (o : Int) (g : Nat) : Option UnitVal :=
  if -128 ≤ o ∧ o ≤ 127 ∧ 12288 ≤ g ∧ g ≤ 20480 then some ⟨o, g, c / 4, c % 4⟩ else none

/-- round(16,384 × √x). -/
def gainOf (num den : Nat) : Nat := if den = 0 then 0 else (isqrt (4 * 2 ^ 28 * num / den) + 1) / 2

def noSums : Nat → Sums := fun _ => {}
def Sums.add (x : Sums) (v : Int) : Sums := ⟨x.n + 1, x.s + v, x.q + (v * v).toNat⟩
/-- n² times the variance. -/
def Sums.var (x : Sums) : Nat := x.q * x.n - (x.s * x.s).toNat

/-- The distance of the code fractions of two histograms; none where either has no sample. -/
def histDist (r a : List Nat) : Option Rat :=
  let nr := r.foldl (· + ·) 0
  let na := a.foldl (· + ·) 0
  if nr = 0 ∨ na = 0 then none
  else some ((r.zip a).foldl (fun (t : Rat) p => let d := mkRat p.1 nr - mkRat p.2 na; t + d * d) 0)

/-- The candidate that a unit keeps: the smallest distance, the lower number on a tie; a free one where no candidate was seen. -/
def candPick (u : Nat) (dist : Nat → Option Rat) : Nat :=
  let b := (List.range 12).foldl (fun (b : Option (Rat × Nat)) k => match dist k, b with
    | some d, some q => if d < q.1 then some (d, k) else some q
    | some d, none => some (d, k)
    | none, b => b) none
  match b with | some q => q.2 | none => Config.calNone u 0 % 12

/-- The values of a unit under candidate `k`, or none when it fails calibration, from its codes and the ADC's corrected samples (R229); free
ones where either brought no sample, which the spec does not say. -/
def valuesOf (u k : Nat) (r a : Sums) : Option UnitVal :=
  if r.n = 0 ∨ a.n = 0 then some ⟨(Config.calNone u 1 % 256 : Nat) - 128, 12288 + Config.calNone u 2 % 8193, k / 4, k % 4⟩
  else unitValues k (roundDiv (8 * (r.s * a.n * 2 ^ 18 - a.s * r.n)) (r.n * a.n * 2 ^ 18)) (gainOf (a.var * r.n * r.n) (r.var * a.n * a.n * 2 ^ 36))

/-- The candidate that a background step keeps. -/
def CnvSt.calPick (c : CnvSt) (u : Nat) : Nat :=
  let at_ (m : SMap Nat) (k : Nat) : List Nat := (List.range 256).map fun v => m.get natZero (256 * (12 * u + k) + v)
  candPick u fun k => histDist (at_ c.histR k) (at_ c.histA k)

/-- The candidate that part 2 of a unit's step runs. -/
def CnvSt.chosen (c : CnvSt) (u : Nat) : Nat := match c.pick.get natZero u with | 0 => c.calPick u | k + 1 => k

/-- The values that a background step gives a unit (R229). -/
def CnvSt.stepValues (c : CnvSt) (u : Nat) : Option UnitVal := valuesOf u (c.chosen u) (c.sumR.get noSums u) (c.sumA.get noSums u)

/-- The statistics of some units start again. -/
def CnvSt.forget (c : CnvSt) (p : Nat → Bool) : CnvSt :=
  { c with pick := c.pick.filter fun k => !p k.1, histR := c.histR.filter fun k => !p (k.1 / 3072), histA := c.histA.filter fun k => !p (k.1 / 3072),
           sumR := c.sumR.filter fun k => !p k.1, sumA := c.sumA.filter fun k => !p k.1 }

/-! ### Sets and interpolation (R234-R237) -/

/-- The valid sets with their positions. -/
def CnvSt.valid (c : CnvSt) : List (Nat × CalSet) := c.sets.zipIdx.filterMap fun p => p.1.map fun x => (p.2, x)

/-- The set nearest in temperature, the earlier position on a tie. -/
def CnvSt.nearest (c : CnvSt) (t : Int) : Option (Nat × CalSet) :=
  c.valid.foldl (fun b p => match b with
    | none => some p
    | some q => if (p.2.temp - t).natAbs < (q.2.temp - t).natAbs then some p else some q) none

/-- The sets that bracket a temperature: the nearest at or below, the nearest above. -/
def CnvSt.bracket (c : CnvSt) (t : Int) : Option (CalSet × CalSet) :=
  let below := c.valid.foldl (fun (b : Option CalSet) p => if p.2.temp ≤ t then (match b with
    | none => some p.2
    | some q => if q.temp < p.2.temp then some p.2 else some q) else b) none
  let above := c.valid.foldl (fun (b : Option CalSet) p => if t < p.2.temp then (match b with
    | none => some p.2
    | some q => if p.2.temp < q.temp then some p.2 else some q) else b) none
  match below, above with
  | some a, some b => some (a, b)
  | _, _ => none

/-- One interpolated value (R235). -/
def interp (a b : Int) (ta tb t : Int) : Int := a + roundDiv ((b - a) * (t - ta)) (tb - ta).toNat

/-- A unit's interpolated offset and gain at a temperature, its selections kept. -/
def CnvSt.interpUnit (c : CnvSt) (t : Int) (i : Nat) (v : UnitVal) : UnitVal :=
  match c.bracket t with
  | some (a, b) =>
    let x := a.units.get noUnit i
    let y := b.units.get noUnit i
    { v with o := interp x.o y.o a.temp b.temp t, g := (interp x.g y.g a.temp b.temp t).toNat }
  | none => match c.nearest t with
    | some (_, n) => let x := n.units.get noUnit i; { v with o := x.o, g := x.g }
    | none => v

/-- The tap an interpolation gives with the tap in force: it moves only when the exact value is 3/4 of a tap away (R236). -/
def CnvSt.interpTap (c : CnvSt) (t : Int) (br tap : Nat) : Nat :=
  let d : Nat → Nat := fun _ => 64
  match c.bracket t with
  | some (a, b) =>
    let x : Int := (SMap.get d a.taps br : Nat)
    let y : Int := (SMap.get d b.taps br : Nat)
    let den := (b.temp - a.temp).toNat
    if 3 * den ≤ 4 * (x * den + (y - x) * (t - a.temp) - (tap : Int) * den).natAbs then (interp x y a.temp b.temp t).toNat else tap
  | none => match c.nearest t with
    | some (_, n) => n.taps.get d br
    | none => tap

/-- Why background calibration is suspended (R228): 0 when it is not. -/
def State.calSuspend (s : State) (l : Nat) : Nat :=
  let x := s.ln l
  let df := s.fld (Reg.FRM_STATUS.DEF l)
  let rx := getBits (s.reg Reg.GLB_LINE_CTL) (4 * l) (4 * l) == 1 && getBits (s.reg Reg.GLB_LINE_CTL) (4 * l + 2) (4 * l + 2) == 1
  if !rx || !x.tileLock || x.rxRelock.isSome then 1
  else if df.testBit 0 || df.testBit 3 then 2
  else if !s.bit (Reg.FRM_STATUS.OOF l) && x.psl == 0 then 3
  else if s.down then 4 else 0

/-- Whether the skew loop runs (R231). -/
def State.skewRuns (s : State) (l : Nat) : Bool := s.bit (Reg.CNV_CTL.SKEW_EN l) && s.calSuspend l == 0

/-- Interpolate every unit and tap that follows the sets; done when the temperature or the sets have changed. -/
def State.cnvInterp (s : State) (l : Nat) : State :=
  let t := s.tTile l
  let c := s.cnv l
  let run := s.skewRuns l
  if (c.memoT = some t ∧ c.memoRun = run) ∨ c.valid = [] then s
  else
    let s := (List.range 576).foldl (fun s i =>
      if ((s.cnv l).own.get (fun _ => none) i).isSome then s
      else
        let v := (s.cnv l).units.get noUnit i
        let w := (s.cnv l).interpUnit t i v
        if w = v then s else s.setUnit l i w) s
    let s := if run then s else (List.range 32).foldl (fun s br => s.setTap l br ((s.cnv l).interpTap t br (s.tap l br))) s
    s.modCnv l fun c => { c with memoT := some t, memoRun := run }

/-- Whether a spare's working values were obtained within 2 × DELTA_T of the present temperature (R248). -/
def State.current (s : State) (l i : Nat) : Bool :=
  let t := s.tTile l
  let near (x : Int) : Bool := decide ((x - t).natAbs ≤ 2 * s.deltaT l)
  match (s.cnv l).own.get (fun _ => none) i with
  | some x => near x
  | none => match (s.cnv l).nearest t with | some (_, n) => near n.temp | none => false

/-! ### Status (R245, R248) -/

/-- Failed unit cells of a DAC, and its spare cells. -/
def CnvSt.cellsBad (c : CnvSt) (d : Nat) : List Nat := (List.range 76).filter fun i => c.cellBad.get (fun _ => false) (76 * d + i)
def CnvSt.dacSpares (c : CnvSt) (d : Nat) : Nat := 9 - min 9 ((c.cellsBad d).filter (· < 72)).length

/-- Whether both cells of some binary pair have failed (R244). -/
def CnvSt.dacLost (c : CnvSt) (d : Nat) : Bool :=
  let b := c.cellsBad d
  (b.contains 72 && b.contains 73) || (b.contains 74 && b.contains 75)

/-- The usable spares of a branch. -/
def State.branchSpares (s : State) (l br : Nat) : Nat := ((branchUnits br).filter fun i => s.role l i == 1 || s.role l i == 2).length

/-- Publish the pools (R31); the first exhaustion is raised (R245, R449). -/
def State.cnvPool (s : State) (l : Nat) : State :=
  let c := s.cnv l
  let adc := (List.range 32).foldl (fun a br => min a (s.branchSpares l br)) 2
  let dac := (List.range 4).foldl (fun a d => min a (c.dacSpares d)) 9
  let bin := (List.range 4).any fun d => (c.cellsBad d).any (72 ≤ ·)
  let s := (s.publish (Reg.CNV_STATUS.ADC_SPARES_MIN l) adc).publish (Reg.CNV_STATUS.DAC_SPARES_MIN l) dac
  let s := s.publish (Reg.CNV_STATUS.UNMASKED l) (b2n (c.unmasked != [] || (List.range 4).any c.dacLost))
  let s := (List.range 4).foldl (fun (s : State) d =>
    ((s.publish (Reg.CNV_DAC.SPARES l d) (c.dacSpares d)).publish (Reg.CNV_DAC.FAILED l d) ((c.cellsBad d).filter (· < 72)).length).publish
      (Reg.CNV_DAC.BIN_FAIL l d) ((c.cellsBad d).foldl (fun a i => if 72 ≤ i then a + 2 ^ (i - 72) else a) 0)) s
  if (adc = 0 ∨ dac = 0 ∨ bin = true) ∧ s.nextFld (Reg.CNV_STATUS.EXHAUSTED l) = 0 then
    let s := (s.publish (Reg.CNV_STATUS.EXHAUSTED l) 1).raise (Reg.CNV_EVENT.EXHAUSTED l)
    { s with poolQ := s.poolQ ++ [(2, 2 + 256 * l)] }
  else s

/-- Show which spares are stale. -/
def State.cnvStale (s : State) (l : Nat) : State :=
  let spares := (List.range 576).filter fun i => s.role l i == 1 || s.role l i == 2
  let st (i : Nat) : Nat := b2n (spares.contains i && !s.current l i)
  let s := (List.range 576).foldl (fun (s : State) i => if s.nextFld (Reg.CNV_UNIT.STALE l i) = st i then s else s.publish (Reg.CNV_UNIT.STALE l i) (st i)) s
  (s.publish (Reg.CNV_STATUS.STALE l) (b2n (spares.any fun i => !s.current l i))).modCnv l fun c => { c with staleAt := some (s.tTile l, s.deltaT l) }

/-- Show the sets. -/
def State.showSets (s : State) (l : Nat) : State :=
  let c := s.cnv l
  let s := c.sets.zipIdx.foldl (fun s p =>
    let nvm := s.bit (Reg.CNV_SET.NVM l p.2)
    match p.1 with
    | some x => s.setReg (Reg.CNV_SET l p.2) (BitVec.ofNat 32 (twos 16 x.temp + 65536 * x.band + 2 ^ 19 * b2n nvm + 2 ^ 31))
    | none => s.setReg (Reg.CNV_SET l p.2) 0) s
  s.setFld (Reg.CNV_STATUS.SETS l) c.valid.length

/-! ### Roles (R220) -/

/-- Assign the roles of one branch in increasing u, failed units skipped. -/
def State.assignBranch (s : State) (l br : Nat) : State :=
  let us := s.branchUsable l br
  us.zipIdx.foldl (fun s p =>
    if p.2 < 16 then s.setRole l p.1 0 p.2
    else if us.length = 17 then s.setRole l p.1 2 0
    else if p.2 = 16 then s.setRole l p.1 1 0
    else s.setRole l p.1 2 0) s

/-- Roles assigned anew in every branch; a slot is unmasked where its branch has no unit for it (R220, R242). -/
def State.assignRoles (s : State) (l : Nat) : State :=
  let s := (List.range 32).foldl (fun s br => s.assignBranch l br) s
  s.modCnv l fun c => { c with
    prio := []
    unmasked := (List.range 32).flatMap fun br => ((List.range 16).filter fun k => decide ((s.branchUsable l br).length ≤ k)).map (16 * br + ·) }

/-- A branch without a rover makes its standby the rover: 17 usable units have a rover and no standby. -/
def State.fixRover (s : State) (l br : Nat) : State :=
  match s.branchRole l br 2, s.branchRole l br 1 with
  | none, some i => s.setRole l i 2 0
  | _, _ => s

/-! ### Failures (R240-R246) -/

/-- Record a failed unit. -/
def State.unitFailed (s : State) (l i : Nat) : State :=
  let s := ((s.publish (Reg.CNV_UNIT.ROLE l i) 3).cnvDirty l).raiseAt (Reg.CNV_EVENT.ADC_FAIL l) i
  (s.cnvCount l 0).logRepair (16 + 8 * l) 0x0002 0x02 [BitVec.ofNat 8 l, BitVec.ofNat 8 (i / 144), BitVec.ofNat 8 (i / 18 % 8), BitVec.ofNat 8 (i % 18)]

/-- Whether a step ends in this tick. -/
def State.stepEnds (s : State) (l : Nat) : Bool :=
  s.bit (Reg.CNV_STATUS.PASS_RUN l) && decide ((s.cnv l).stepLen ≤ (s.cnv l).stepTicks) && decide (0 < (s.cnv l).stepLen)

/-- The units of a branch that the running step counts with: those usable when it began (R230, R241). -/
def State.stepUnits (s : State) (l br : Nat) : Nat := (s.cnv l).stepN.getD br 18

/-- The slot that a branch's rover shadows in the running step. -/
def State.shadowSlot (s : State) (l br : Nat) : Nat :=
  let n := s.stepUnits l br
  let st := s.fld (Reg.CNV_PASS_INFO.STEP l)
  if st + 1 < n then st % 16 else 0

/-- A spare takes a slot; a rover's step in progress is abandoned (R241, R242). -/
def State.spareTakes (s : State) (l i slot : Nat) : State :=
  let rover := s.role l i == 2
  let s := (s.setRole l i 0 slot).modCnv l fun c => { c with unmasked := c.unmasked.filter (· != 16 * (i / 18) + slot),
                                                             skip := if rover then c.skip ++ [i / 18] else c.skip }
  (s.raiseAt (Reg.CNV_EVENT.SPARE_USED l) i).fixRover l (i / 18)

/-- A slot is left without a unit. -/
def State.openSlot (s : State) (l br slot : Nat) : State :=
  ((s.modCnv l fun c => { c with unmasked := c.unmasked.filter (· != 16 * br + slot) ++ [16 * br + slot] }).cnvDirty l).raiseAt
    (Reg.CNV_EVENT.UNMASKED l) (16 * br + slot)

/-- The current spare that takes a failed slot of a branch: its standby, else its rover (R241). -/
def State.liveSpare (s : State) (l br : Nat) : Option Nat := ((s.branchRole l br 1).filter (s.current l ·)).or ((s.branchRole l br 2).filter (s.current l ·))

/-- The rover, the one unit that is calibrated in service, begins a priority step on an open slot, unless it runs one already (R220, R242). -/
def State.prioStart (s : State) (l br slot : Nat) : State :=
  match s.branchRole l br 2 with
  | some i =>
    let n := s.fld (Reg.CNV_CAL_CFG.STEP_TICKS l)
    if (s.cnv l).prio.any (·.unit == i) then s else s.modCnv l fun c => { c.forget (· == i) with prio := c.prio ++ [⟨br, slot, i, n, n⟩] }
  | none => s

/-- A failed active unit's slot is masked, or left unmasked; `planned` says that the rover's step completes on it in this tick (R241,
R242). -/
def State.maskSlot (s : State) (l br slot : Nat) (planned : Bool) : State :=
  if s.bit (Reg.CNV_CTL.AUTO_MASK l) then
    if planned && (s.branchRole l br 2).isSome then s
    else match s.liveSpare l br with
      | some i => s.spareTakes l i slot
      | none => (s.openSlot l br slot).prioStart l br slot
  else s.openSlot l br slot

/-- The open slots of a branch whose priority step has ended without a unit for them, or that had none, are tried again with the spares
that are left (R242). -/
def State.remask (l : Nat) (s : State) (br : Nat) : State :=
  if !s.bit (Reg.CNV_CTL.AUTO_MASK l) then s
  else ((s.cnv l).unmasked.filter fun k => k / 16 == br).foldl (fun (s : State) k =>
    if (s.cnv l).prio.any fun p => p.branch == br && p.slot == k % 16 then s
    else match s.liveSpare l br with
      | some i => s.spareTakes l i (k % 16)
      | none => s.prioStart l br (k % 16)) s

/-- Whether the running step completes on a slot in this tick. -/
def State.stepPlanned (s : State) (l br slot : Nat) : Bool :=
  s.stepEnds l && s.shadowSlot l br == slot && decide (s.fld (Reg.CNV_PASS_INFO.STEP l) < 16) && decide (s.fld (Reg.CNV_PASS_INFO.STEP l) + 1 < s.stepUnits l br) && !(s.cnv l).skip.contains br

/-- A unit fails: its role, slot and the plan before, its record, its mask. -/
def State.failUnit (s : State) (l i : Nat) : State :=
  let r := s.role l i
  let slot := s.slot l i
  let planned := s.stepPlanned l (i / 18) slot
  let s := s.unitFailed l i
  if r = 0 then s.maskSlot l (i / 18) slot planned else s.fixRover l (i / 18)

/-! ### The window (R231, R240) -/

/-- What a 256-tick window holds of an ADC's active units. -/
def CnvSt.winAdc (c : CnvSt) (a : Nat) : Sums :=
  (c.win.filter fun p => p.1 / 144 == a).foldl (fun x p => ⟨x.n + p.2.n, x.s + p.2.s, x.q + p.2.q⟩) {}

/-- Whether 10 × log10(p ÷ q) is beyond ±k ÷ 4. -/
def powerOff (p q k : Nat) : Bool := decide (10 ^ k * q ^ 40 < p ^ 40) || decide (10 ^ k * p ^ 40 < q ^ 40)

/-- Whether the window fails for a unit (R240). -/
def State.winFails (s : State) (l i : Nat) : Bool :=
  let los := (s.fld (Reg.FRM_STATUS.DEF l)).testBit 0
  let u := (s.cnv l).win.get noSums i
  let a := (s.cnv l).winAdc (i / 144)
  decide (s.fld (Reg.CNV_FAIL_CFG.MEAN_LIM l) * u.n * a.n * 2 ^ 18 < (u.s * a.n - a.s * u.n).natAbs) ||
  (!los && powerOff (u.var * a.n * a.n) (a.var * u.n * u.n) (s.fld (Reg.CNV_FAIL_CFG.PWR_LIM l)))

/-- Judge one active unit's window; with more than half of its samples excluded, or none at all, it neither passes nor fails.  A unit that is
not active is in no window. -/
def State.judgeWin (l : Nat) (s : State) (i : Nat) : State :=
  if s.role l i ≠ 0 then s.modCnv l fun c => { c with fails := c.fails.set natZero i 0 }
  else
    let n := ((s.cnv l).win.get noSums i).n
    if n = 0 ∨ n < (s.cnv l).winX.get natZero i then s
    else if s.winFails l i then
      let n := (s.cnv l).fails.get natZero i + 1
      let s := s.modCnv l fun c => { c with fails := c.fails.set natZero i (if n = 2 then 0 else n) }
      if n = 2 then s.failUnit l i else s
    else s.modCnv l fun c => { c with fails := c.fails.set natZero i 0 }

/-- ρ of a branch in 2^-24; 0 where it has no power. -/
def CnvSt.rho (c : CnvSt) (br : Nat) : Int :=
  let x := c.cor.get (fun _ => (0, 0, 0)) br
  let d := isqrt (x.2.1 * x.2.2)
  if d = 0 then 0 else x.1 * 2 ^ 24 / d

/-- A tap moved by the correlations of its branch's gaps, in 2^-24 (R231). -/
def tapMoved (a b : Int) (tap : Nat) : Nat := if a < b - 4096 then tap - 1 else if b + 4096 < a then min 127 (tap + 1) else tap

/-- Move one branch's tap. -/
def State.moveTap (l : Nat) (rho : Nat → Int) (s : State) (br : Nat) : State :=
  if br % 8 = 0 then s else s.setTap l br (tapMoved (rho (br - 1)) (rho br) (s.tap l br))

/-- SKEW_WINDOW_END: the units' windows are judged, failures masked, then the taps move (R231, R240, R241).  Steps that end or start read no
tap that moves here, nor the moves what steps change, so that these may stand before them. -/
def State.skewWindow (s : State) (l : Nat) : State :=
  if 2 ≤ l ∨ s.tick % 256 ≠ 255 ∨ (s.cnv l).winTick = some s.tick then s
  else
    let c := s.cnv l
    let s := s.modCnv l fun c => { c with winTick := some s.tick }
    let s := if s.calSuspend l = 1 ∨ s.down then s else (((List.range 576).foldl (State.judgeWin l) s).cnvPool l).cnvStale l
    let s := if s.skewRuns l then (List.range 32).foldl (State.moveTap l c.rho) s else s
    s.modCnv l fun c => { c with win := [], winX := [], cor := [] }

/-! ### Passes (R230, R233-R237) -/

/-- The number of steps of the running pass. -/
def State.passSteps (s : State) (l : Nat) : Nat :=
  (List.range 32).foldl (fun a br => if (s.branchRole l br 2).isSome then max a (s.branchUsable l br).length else a) 0

/-- Whether a pass starts at a boundary (R233). -/
def State.passDue (s : State) (l : Nat) : Bool :=
  let c := s.cnv l
  let last := s.nextFld (Reg.CNV_TEMP.T_LAST l)
  let per := s.fld (Reg.CNV_CAL_CFG.PERIOD_S l)
  s.bit (Reg.CNV_CTL.BG_EN l) && !s.bit (Reg.CNV_STATUS.PASS_RUN l) && s.calSuspend l == 0 && decide (0 < s.passSteps l) &&
  ((last != 0x8000 && decide (s.deltaT l < (s.tTile l - sx 16 last).natAbs)) || (per != 0 && decide (c.lastDone + per * 1000000 ≤ s.tick)) ||
   s.bit (Reg.CNV_CTL.START l) || c.passBand != s.tileBand l || c.passRate != (s.ln l).rxRate || c.want)

/-- The usable units of each branch. -/
def State.unitCounts (s : State) (l : Nat) : List Nat := (List.range 32).map fun br => (s.branchUsable l br).length

/-- PASS_START. -/
def State.passStart (s : State) (l : Nat) : State :=
  if l < 2 ∧ s.passDue l = true then
    let s := ((s.setFld (Reg.CNV_STATUS.PASS_RUN l) 1).setFld (Reg.CNV_PASS_INFO.STEP l) 0).setFld (Reg.CNV_CTL.START l) 0
    s.modCnv l fun c => { c.forget (fun u => !c.prio.any (·.unit == u)) with
                                 stepTicks := 0, stepLen := s.fld (Reg.CNV_CAL_CFG.STEP_TICKS l), temps := [], want := false, skip := [], stepN := s.unitCounts l,
                                 passBand := s.tileBand l, passRate := (s.ln l).rxRate }
  else s

/-- The values of the tile as a set, with the taps given. -/
def State.makeSet (s : State) (l : Nat) (t : Int) (tap : Nat → Nat) : CalSet :=
  { temp := t, band := s.tileBand l, ver := s.runVer, tick := s.tick, units := (s.cnv l).units,
    failed := (List.range 576).filter fun i => s.role l i == 3,
    taps := (List.range 32).foldl (fun m br => m.set (fun _ => 64) br (tap br)) [], cells := (s.cnv l).cells }

/-- The position a completed pass at a temperature is stored in (R237). -/
def CnvSt.place (c : CnvSt) (t : Int) (dt : Nat) : Nat :=
  match c.nearest t with
  | none => 0
  | some (k, x) =>
    if 2 * (x.temp - t).natAbs ≤ dt then k
    else match c.sets.findIdx? (·.isNone) with
      | some j => j
      | none => k

/-- Store a completed pass as a set, to be written to NVM. -/
def State.storeSet (s : State) (l : Nat) (t : Int) (tap : Nat → Nat) : State :=
  let k := (s.cnv l).place t (s.deltaT l)
  let x := s.makeSet l t tap
  let s := s.modCnv l fun c => { c with sets := c.sets.set k (some x), pend := c.pend.filter (· != k) ++ [k], memoT := none, staleAt := none, own := [] }
  (s.setFld (Reg.CNV_SET.NVM l k) 0).showSets l

/-- The tap that a branch of a tile runs on (R231). -/
def CnvSt.tapNow (c : CnvSt) (br : Nat) : Nat := c.tile.taps.get (fun _ => 64) br

/-- A pass completes (R234). -/
def State.passDone (s : State) (l : Nat) : State :=
  let ts := (s.cnv l).temps
  let t := roundDiv (ts.foldl (· + ·) 0) ts.length
  let hi := ts.foldl max (ts.getD 0 0)
  let lo := ts.foldl min (ts.getD 0 0)
  let s := if (hi - lo).natAbs ≤ s.deltaT l then s.storeSet l t (s.cnv l).tapNow else s.raise (Reg.CNV_EVENT.PASS_UNSTORED l)
  let s := (s.setFld (Reg.CNV_STATUS.PASS_RUN l) 0).setFld (Reg.CNV_PASS_INFO.STEP l) 0
  let s := s.setFld (Reg.CNV_PASS_INFO.PASS_CNT l) (satAdd 0xFFFF (s.fld (Reg.CNV_PASS_INFO.PASS_CNT l)) 1)
  let s := s.modCnv l fun c => { c with lastDone := s.tick, stepTicks := 0, stepLen := 0 }
  (s.publish (Reg.CNV_TEMP.T_LAST l) (twos 16 t)).raise (Reg.CNV_EVENT.PASS_DONE l)

/-- One branch's step ends: the rover takes its results and its position (R229, R230). -/
def State.branchStep (s : State) (l st br : Nat) : State :=
  match s.branchRole l br 2 with
  | none => s
  | some rv =>
    let n := s.stepUnits l br
    if n ≤ st ∨ (s.cnv l).skip.contains br = true ∨ ((s.cnv l).prio.any fun p => p.unit == rv) = true then s
    else match (s.cnv l).stepValues rv with
      | none => (s.unitFailed l rv).fixRover l br
      | some v =>
        let s := s.setUnit l rv v
        let s := s.modCnv l fun c => { c with own := c.own.set (fun _ => none) rv (some (s.tTile l)) }
        if n ≤ st + 1 then s
        else if st = 16 then
          match s.branchRole l br 1 with
          | some i => ((s.setRole l rv 1 0).setRole l i 2 0).cnvCount l 1
          | none => s
        else
          match (branchUnits br).find? fun i => s.role l i == 0 && s.slot l i == st with
          | some i => ((s.setRole l rv 0 st).setRole l i 2 0).cnvCount l 1
          | none => (s.spareTakes l rv st).cnvCount l 1

/-- A slot that still has no unit after a step is masked again, or shown as unmasked. -/
def State.openSlots (s : State) (l br : Nat) : State :=
  (List.range 16).foldl (fun s slot =>
    if ((branchUnits br).any fun i => s.role l i == 0 && s.slot l i == slot) || (s.cnv l).unmasked.contains (16 * br + slot) then s
    else s.maskSlot l br slot false) s

/-- A priority step ends: its unit, where it is usable still, takes the failed slot (R242). -/
def State.prioEnd (l : Nat) (s : State) (p : PrioStep) : State :=
  if s.role l p.unit = 3 ∨ s.role l p.unit = 0 then s
  else match (s.cnv l).stepValues p.unit with
  | none => s.failUnit l p.unit
  | some v =>
    let s := s.setUnit l p.unit v
    let s := s.modCnv l fun c => { c with own := c.own.set (fun _ => none) p.unit (some (s.tTile l)) }
    s.spareTakes l p.unit p.slot

/-- A pass's next step begins. -/
def State.stepNext (s : State) (l st : Nat) : State :=
  (s.setFld (Reg.CNV_PASS_INFO.STEP l) st).modCnv l fun c => { c.forget (fun u => !c.prio.any (·.unit == u)) with
    stepTicks := 0, stepLen := s.fld (Reg.CNV_CAL_CFG.STEP_TICKS l), skip := [], stepN := s.unitCounts l }

/-- The pass's step ends on every branch. -/
def State.passStep (s : State) (l : Nat) : State :=
  let st := s.fld (Reg.CNV_PASS_INFO.STEP l)
  let s := (List.range 32).foldl (fun s br => (s.branchStep l st br).openSlots l br) s
  let s := s.cnvCount l 2
  if s.passSteps l ≤ st + 1 then s.passDone l else s.stepNext l (st + 1)

/-- CAL_STEP_END: steps that are complete in this tick end. -/
def State.stepEnd (s : State) (l : Nat) : State :=
  if 2 ≤ l then s
  else
    let due := (s.cnv l).prio.filter fun p => p.left == 0
    let s := due.foldl (State.prioEnd l) s
    let s := s.modCnv l fun c => { c with prio := c.prio.filter fun p => p.left != 0 }
    let s := (due.map (·.branch)).eraseDups.foldl (State.remask l) s
    if s.stepEnds l then ((s.passStep l).cnvPool l).cnvStale l
    else if due.isEmpty then s else (s.cnvPool l).cnvStale l

/-! ### The DAC cells (R222, R232, R243, R244) -/

/-- Whether a cell can be measured: not failed, and for a binary cell its partner not failed either. -/
def CnvSt.cellOk (c : CnvSt) (d i : Nat) : Bool :=
  let bad (k : Nat) : Bool := c.cellBad.get (fun _ => false) (76 * d + k)
  !bad i && (decide (i < 72) || !bad (if i % 2 = 0 then i + 1 else i - 1))

/-- The next cell in cyclic order. -/
def CnvSt.nextCell (c : CnvSt) (d i : Nat) : Nat :=
  (((List.range 76).map fun k => (i + 1 + k) % 76).find? (c.cellOk d)).getD 0x7F

/-- The in-service unit cells of a DAC: the 63 non-failed cells with the smallest |δ|, the lower number on a tie (R232). -/
def CnvSt.inService (c : CnvSt) (d : Nat) : List Nat :=
  let ok := (List.range 72).filter fun i => !c.cellBad.get (fun _ => false) (76 * d + i)
  let dev (i : Nat) : Nat := (c.cells.get (fun _ => 0) (76 * d + i)).natAbs
  (ok.mergeSort fun a b => decide (dev a < dev b) || (dev a == dev b && decide (a ≤ b))).take 63

/-- Take alternately from the low and the high end of a sorted list. -/
def alternate : Nat → List Nat → List Nat
  | 0, _ => []
  | _, [] => []
  | n + 1, x :: xs => x :: (match xs.getLast? with | none => [] | some y => y :: alternate n xs.dropLast)

/-- The redundant unit cell with the smallest |δ|: the one that takes a measured cell's position (R232; DEDUCED: the spec names no
cell). -/
def CnvSt.redundant (c : CnvSt) (d : Nat) : Option Nat :=
  let used := c.inService d
  let dev (i : Nat) : Nat := (c.cells.get (fun _ => 0) (76 * d + i)).natAbs
  (List.range 72).foldl (fun b i =>
    if used.contains i || c.cellBad.get (fun _ => false) (76 * d + i) then b
    else match b with | some j => if dev i < dev j then some i else some j | none => some i) none

/-- The cells at thermometer positions 1 to 63 while cell `m` is measured (R232). -/
def CnvSt.thermometer (c : CnvSt) (d m : Nat) : List Nat :=
  let dev (i : Nat) : Int := c.cells.get (fun _ => 0) (76 * d + i)
  let cells := alternate 63 ((c.inService d).mergeSort fun a b => decide (dev a < dev b) || (dev a == dev b && decide (a ≤ b)))
  match c.redundant d with
  | some r => cells.map fun i => if i = m then r else i
  | none => cells

/-- The low bits that a DAC can form: the steps of v that its binary cells give (R244): 1 all values, 2 even ones (or the
1 LSB pair serving as 2 LSB), 4 multiples of 4; an odd weight alone keeps v[0] over a lost v[1]. -/
def CnvSt.dacForms (c : CnvSt) (d v : Nat) : Bool :=
  let bad := c.cellsBad d
  let two := bad.contains 72 && bad.contains 73
  let one := bad.contains 74 && bad.contains 75
  let oneAll := !bad.contains 74 && !bad.contains 75
  if two && one then v % 4 == 0
  else if two then (if oneAll then v % 2 == 0 else v % 4 < 2)
  else if one then v % 2 == 0
  else true

/-- The value a DAC forms for a code: the nearest it can, a tie toward 128. -/
def CnvSt.dacValue (c : CnvSt) (d v : Nat) : Nat :=
  if c.dacForms d v then v
  else
    let cands := (List.range 256).filter (c.dacForms d)
    cands.foldl (fun b x =>
      let db := absDiff b v
      let dx := absDiff x v
      if dx < db ∨ (dx = db ∧ absDiff x 128 < absDiff b 128) then x else b) (cands.getD 0 0)

/-- The cells that serve of each binary pair while cell `m` is measured: the non-failed cell nearer to its nominal current,
the lower number on a tie; both 1 LSB cells where they serve as the lost 2 LSB weight (R232, R244). -/
def CnvSt.binaryServe (c : CnvSt) (d m : Nat) : List Nat :=
  let bad (k : Nat) : Bool := k == m || c.cellBad.get (fun _ => false) (76 * d + k)
  let dev (k : Nat) : Nat := (c.cells.get (fun _ => 0) (76 * d + k)).natAbs
  let pick (a b : Nat) : List Nat :=
    if bad a && bad b then [] else if bad a || (!bad b && decide (dev b < dev a)) then [b] else [a]
  if bad 72 && bad 73 && m != 72 && m != 73 && !bad 74 && !bad 75 then [74, 75] else pick 72 73 ++ pick 74 75

/-- A cell fails. -/
def State.cellFail (s : State) (l d i : Nat) : State :=
  let s := s.modCnv l fun c => { c with cellBad := c.cellBad.set (fun _ => false) (76 * d + i) true }
  let s := (s.raiseAt (Reg.CNV_EVENT.DAC_FAIL l) (76 * d + i)).logRepair (16 + 8 * l) 0x0003 0x02 [BitVec.ofNat 8 l, BitVec.ofNat 8 d, BitVec.ofNat 8 i]
  s.raiseIf (decide (72 ≤ i) && (s.cnv l).cellBad.get (fun _ => false) (76 * d + (if i % 2 = 0 then i + 1 else i - 1))) (Reg.CNV_EVENT.UNMASKED l)

/-- A measured cell's deviation in 1/8 %, judged (R243, R244). -/
def State.cellTake (s : State) (l d i : Nat) (dev : Int) : State :=
  let s := s.modCnv l fun c => { c with cells := c.cells.set (fun _ => 0) (76 * d + i) dev }
  if 32 < dev.natAbs ∨ dev < -400 then s.cellFail l d i else s

/-- The deviation measured: what the observation flit says that has come since the last measurement, else what the command says (R232,
R290). -/
def State.obsDev (s : State) (l d : Nat) (dev : Int) : Int :=
  match s.d2d.obs.get (fun _ => none) (4 * l + d) with
  | some b => Config.obsDev (b.map BitVec.toNat)
  | none => dev

/-- An observation flit's result is used up. -/
def State.obsUsed (s : State) (l d : Nat) : State := { s with d2d := { s.d2d with obs := s.d2d.obs.set (fun _ => none) (4 * l + d) none } }

/-- DAC_CELL_MEASURED. -/
def State.cellMeasured (s : State) (l d : Nat) (dev : Int) : State :=
  let c := s.cnv l
  let i := c.cell.getD d 0
  if 2 ≤ l ∨ 4 ≤ d ∨ c.cellTicks.getD d 0 < 16 ∨ 76 ≤ i then s
  else
    let s := (s.cellTake l d i (s.obsDev l d dev)).obsUsed l d
    let n := (s.cnv l).nextCell d i
    ((s.modCnv l fun c => { c with cell := c.cell.set d n, cellTicks := c.cellTicks.set d 0 }).cnvDirty l).cnvPool l

/-- Whether the cells are measured: the tile clock is locked and the transmitter enabled (R232). -/
def State.dacRuns (s : State) (l : Nat) : Bool :=
  (s.ln l).tileLock && !s.down && getBits (s.reg Reg.GLB_LINE_CTL) (4 * l) (4 * l) == 1 && getBits (s.reg Reg.GLB_LINE_CTL) (4 * l + 1) (4 * l + 1) == 1

/-! ### What the tile runs on (R221, R232, R290) -/

/-- A format entry as the datapath holds it (R41), and those of the formats in use. -/
def State.fmt (s : State) (l k : Nat) : Word := s.shadow.get regReset (Reg.FRM_FMT l k)
def State.txFmtW (s : State) (l : Nat) : Word := s.fmt l (s.ln l).txFmt
def State.rxFmtW (s : State) (l : Nat) : Word := s.fmt l (s.ln l).rxFmt

/-- The slots of a tile before any change: unit k in slot k of every branch (R220). -/
def firstSlots : Nat → Nat := fun k => 18 * (k / 16) + k % 16 + 1

/-- What the tile is to run on, as decided. -/
def State.tileCfg (s : State) (l : Nat) : TileCfg :=
  let c := s.cnv l
  { slots := ((List.range 576).filter fun i => s.role l i == 0).foldl (fun m i => SMap.set firstSlots m (16 * (i / 18) + s.slot l i) (i + 1))
      ((List.range 512).foldl (fun m k => SMap.set firstSlots m k 0) []),
    units := c.units, taps := (List.range 32).foldl (fun m br => SMap.set (fun _ => 64) m br (s.tap l br)) [], unmasked := c.unmasked,
    maps := (List.range 4).map fun d => let m := c.cell.getD d 0; (c.thermometer d m, c.binaryServe d m) }

/-- The sample of the tile's DACs, counted from training, at which a change that this boundary publishes takes effect: the first of the
frame head 1,000 ns or more ahead, reckoned from the last head at the frame's length of 51,200 samples (R290, R295).  DEDUCED: the index
counts the samples of the transmit direction, whose frame heads R41 names. -/
def State.effectAt (s : State) (l : Nat) : Nat :=
  let x := s.ln l
  let ns := 1000 * (s.tick + 1 - x.headAt.1) - 2 * x.headAt.2
  x.headSmp + 51200 * ((ns * fmtRs (s.txFmtW l) + 327679) / 327680)

/-- What a control write says of one group's converters: slot map, selections, taps, cell map. -/
def TileCfg.words (x : TileCfg) (g : Nat) : List Nat :=
  let us := (List.range 128).map fun k => x.slots.get firstSlots (128 * g + k)
  let m := x.maps.getD g ([], [])
  us ++ (us.flatMap fun u => let v := x.units.get noUnit (u - 1); [v.cmp, v.cap]) ++ ((List.range 8).map fun b => x.taps.get (fun _ => 64) (8 * g + b)) ++ m.1 ++ m.2

/-- The boundary publishes what has been decided: it waits for its frame head, and control writes take it to the tile; a powered tile
loads its band's clock-tree preset (R221, R249, R290, R295). -/
def State.cnvBoundary (s : State) (l : Nat) : State :=
  let s := if (s.ln l).power && decide ((s.cnv l).preset ≠ some (s.tileBand l)) then s.modCnv l fun c => { c with preset := some (s.tileBand l) } else s
  if (s.cnv l).dirty = false then s
  else
    let x := s.tileCfg l
    let s := s.modCnv l fun c => { c with dirty := false, due := c.due ++ [(s.tick, x)] }
    if s.trained (2 * l) then (List.range 4).foldl (fun (s : State) g => s.sendCtl (2 * l) g (.tile g (s.effectAt l) (x.words g))) s else s

/-- A DAC's cell map has changed: it is put into effect. -/
def State.showMaps (s : State) (l : Nat) (x y : TileCfg) : State :=
  (List.range 4).foldl (fun (s : State) d =>
    let m := y.maps.getD d ([], [])
    if x.maps.getD d ([], []) = m then s else s.emit (.dacMap l d m.1 m.2)) s

/-- Published changes take effect together, on the tile and on the core, 1,000 ns or more after their publication; a withheld one only
once the tile has acknowledged it (R221, R295). -/
def State.tileAdopt (s : State) (l : Nat) (all : Bool) : State :=
  let c := s.cnv l
  let go := c.due.filter fun e => all || decide (e.1 < s.tick)
  match go.getLast? with
  | none => s
  | some e =>
    if (s.ln l).ctlHeld && s.ctlOpen l then s
    else ((s.modCnv l fun c => { c with tile := e.2, due := c.due.drop go.length }).modLn l fun x => { x with ctlHeld := false }).showMaps l c.tile e.2

/-! ### A tick's part -/

/-- The cell of each DAC that is measured shows, 0x7F while none is (R250). -/
def State.showCells (s : State) (l : Nat) : State :=
  (List.range 4).foldl (fun (s : State) d =>
    let v := if s.dacRuns l then (s.cnv l).cell.getD d 0 else 0x7F
    if s.nextFld (Reg.CNV_DAC.MEAS_CELL l d) = v then s else s.publish (Reg.CNV_DAC.MEAS_CELL l d) v) s

/-- A tick of the steps: counted, or begun again while calibration is suspended (R228). -/
def CnvSt.stepTick (c : CnvSt) (run ok : Bool) (t : Int) (step n : Nat) : CnvSt :=
  if ok then { c with
    prio := c.prio.map fun p => { p with left := p.left - 1 }
    stepTicks := if run then c.stepTicks + 1 else 0
    temps := if run && c.stepTicks == 0 then t :: c.temps.drop (c.temps.length - step) else c.temps }
  else { c.forget (fun _ => true) with prio := c.prio.map fun p => { p with left := n, len := n }, stepTicks := 0 }

/-- The candidates that the parts 1 of running steps have ended with are chosen (R229). -/
def CnvSt.picks (c : CnvSt) (us : List Nat) : CnvSt :=
  us.foldl (fun c u => if (c.calNow u).2 || c.pick.get natZero u != 0 then c else
    { c with pick := c.pick.set natZero u (c.calPick u + 1), histR := c.histR.filter (fun k => k.1 / 3072 != u), histA := c.histA.filter fun k => k.1 / 3072 != u }) c

/-- The units whose calibration step runs, each with the slot it shadows (R229, R242). -/
def State.measuring (s : State) (l : Nat) : List (Nat × Nat) :=
  let c := s.cnv l
  let st := s.fld (Reg.CNV_PASS_INFO.STEP l)
  c.prio.map (fun p => (p.unit, p.slot)) ++
    if s.bit (Reg.CNV_STATUS.PASS_RUN l) then (List.range 32).filterMap fun br => match s.branchRole l br 2 with
      | some u => if c.skip.contains br || (c.prio.any fun p => p.unit == u) || decide (s.stepUnits l br ≤ st) then none else some (u, s.shadowSlot l br)
      | none => none
    else []

/-- The converters in one tick: suspension, step ticks, interpolation, cell measurement. -/
def State.cnvTick (s : State) (l : Nat) : State :=
  let why := s.calSuspend l
  let s := s.publish (Reg.CNV_STATUS.SUSPEND l) why
  let run := s.bit (Reg.CNV_STATUS.PASS_RUN l)
  let t := s.tTile l
  let s := s.modCnv l fun c => c.stepTick run (why == 0) t (s.fld (Reg.CNV_PASS_INFO.STEP l)) (s.fld (Reg.CNV_CAL_CFG.STEP_TICKS l))
  let s := s.modCnv l fun c => c.picks ((s.measuring l).map (·.1))
  let s := if (s.ln l).tileLock && decide ((s.cnv l).staleAt ≠ some (t, s.deltaT l)) then s.cnvStale l else s
  let s := (if (s.cnv l).valid = [] then s else s.cnvInterp l).showCells l
  if s.dacRuns l then s.modCnv l fun c => { c with cellTicks := c.cellTicks.map (min 16 <| · + 1) }
  else s

/-! ### Sets in NVM (R238, R239) -/

/-- The address of a record: tile, position, copy. -/
def setAddr (l k c : Nat) : Nat := 0x3500000 + 0x10000 * l + 0x2000 * k + 0x1000 * c

/-- The bytes of a record. -/
def setBytes (x : CalSet) (l k seq deviceId : Nat) : List Byte :=
  let unit (i : Nat) : List Byte :=
    let v := x.units.get noUnit i
    leBytes 1 (twos 8 v.o) ++ leBytes 2 v.g ++ [BitVec.ofNat 8 v.cmp, BitVec.ofNat 8 v.cap, BitVec.ofNat 8 (b2n (x.failed.contains i))]
  let dac (d : Nat) : List Byte := ((List.range 76).flatMap fun i => leBytes 1 (twos 8 (clampI (-128) 127 (x.cells.get (fun _ => 0) (76 * d + i))))) ++ List.replicate 52 0#8
  let b := leBytes 4 0x56534E43 ++ leBytes 2 1 ++ [BitVec.ofNat 8 l, BitVec.ofNat 8 k] ++ leBytes 4 seq ++ leBytes 8 deviceId ++
    leBytes 2 (twos 16 x.temp) ++ [BitVec.ofNat 8 x.band, 0#8] ++ leBytes 4 x.ver ++ List.replicate 36 0#8 ++
    (List.range 576).flatMap unit ++ ((List.range 32).flatMap fun br => leBytes 1 (x.taps.get (fun _ => 64) br)) ++
    (List.range 4).flatMap dac ++ List.replicate 28 0#8
  b ++ leBytes 4 (crc32 b)

/-- A record read back: SEQ, DEVICE_ID and the set, when it is valid. -/
def setParse (l k tick : Nat) (b : List Byte) : Option (Nat × Nat × CalSet) :=
  if le b 0 4 = 0x56534E43 ∧ le b 4 2 = 1 ∧ le b 6 1 = l ∧ le b 7 1 = k ∧ b.length = 4096 ∧ le b 4092 4 = crc32 (b.take 4092) then
    let unit (i : Nat) : UnitVal := ⟨sx 8 (le b (64 + 6 * i) 1), le b (65 + 6 * i) 2, le b (67 + 6 * i) 1, le b (68 + 6 * i) 1⟩
    some (le b 8 4, le b 12 8,
      { temp := sx 16 (le b 20 2), band := le b 22 1 % 8, ver := le b 24 4, tick := tick,
        units := (List.range 576).foldl (fun m i => m.set noUnit i (unit i)) [],
        failed := (List.range 576).filter fun i => (le b (69 + 6 * i) 1).testBit 0,
        taps := (List.range 32).foldl (fun m br => m.set (fun _ => 64) br (le b (3520 + br) 1 % 128)) [],
        cells := (List.range 304).foldl (fun m i => m.set (fun _ => 0) i (sx 8 (le b (3552 + 128 * (i / 76) + i % 76) 1))) [] })
  else none

/-- Read the sets of a tile at boot: the newer copies are noted, and the sets taken unless a valid copy is another device's (R239). -/
def State.setsRead (s : State) (l : Nat) (r : Rd) : State :=
  let copies := (List.range 16).filterMap fun i =>
    match s.nvmRead (setAddr l (i / 2) (i % 2)) 4096 r with
    | some b => (setParse l (i / 2) s.tick b).map fun p => (i, p)
    | none => none
  let s := s.rdTimeout r
  let other := copies.any fun p => p.2.2.1 != s.fuses.deviceId
  let s := copies.foldl (fun s p =>
    let k := p.1 / 2
    let old := (s.cnv l).seqs.get natZero k
    if old = 0 ∨ (old - 1) / 2 < p.2.1 then
      let s := s.modCnv l fun c => { c with seqs := c.seqs.set natZero k (1 + 2 * p.2.1 + p.1 % 2) }
      if other then s
      else (s.modCnv l fun c => { c with sets := c.sets.set k (some p.2.2.2), memoT := none, staleAt := none }).setFld (Reg.CNV_SET.NVM l k) 1
    else s) s
  (s.raiseIf other (Reg.CNV_EVENT.SETS_DISCARDED l)).showSets l

/-- A set that met an uncorrectable lane becomes invalid; one that NVM holds is read again at the next tick (R374). -/
def State.setLost (s : State) (l k : Nat) : State :=
  if ((s.cnv l).sets.getD k none).isNone then s
  else
    let again := s.bit (Reg.CNV_SET.NVM l k)
    (s.modCnv l fun c => { c with sets := c.sets.set k none, pend := c.pend.erase k, memoT := none, staleAt := none,
                                  reload := if again then c.reload ++ [k] else c.reload }).showSets l

/-- Read one lost set from its newer copy in NVM. -/
def State.setAgain (l : Nat) (s : State) (k : Nat) : State :=
  let q := (s.cnv l).seqs.get natZero k
  match setParse l k s.tick (s.nvmBytes (setAddr l k ((q - 1) % 2)) 4096) with
  | some p =>
    if q = 0 ∨ ((s.cnv l).sets.getD k none).isSome then s
    else (s.modCnv l fun c => { c with sets := c.sets.set k (some p.2.2), memoT := none, staleAt := none }).setFld (Reg.CNV_SET.NVM l k) 1
  | none => s

/-- The sets lost in the tick before are read again (R374). -/
def State.setReload (s : State) (l : Nat) : State :=
  match (s.cnv l).reload with
  | [] => s
  | ks => (ks.foldl (State.setAgain l) (s.modCnv l fun c => { c with reload := [] })).showSets l

/-- How the write of a set's record ends: it leaves the queue, or SET_WR_FAIL and its record (R239). -/
def State.setEnd (s : State) (l k : Nat) (ok : Bool) (rest : List Nat) (q : Nat) : State :=
  if ok then ((s.modCnv l fun c => { c with pend := rest, seqs := c.seqs.set natZero k q }).setFld (Reg.CNV_SET.NVM l k) 1)
  else ((s.setFld (Reg.CNV_SET.NVM l k) 0).raiseOwn (Reg.CNV_EVENT.SET_WR_FAIL l)).queueRec 0x000B 1 (16 + 8 * l)
    [BitVec.ofNat 8 l, BitVec.ofNat 8 k]

/-- SET_WRITE: the oldest pending set is written to the older copy of its position (R239). -/
def State.setWrite (s : State) (l : Nat) (e p : Pg) (back : Rd) : State :=
  let c := s.cnv l
  let early := match c.lastWr with | some t => decide (s.tick < t + 600000000) | none => false
  match c.pend with
  | [] => s
  | k :: rest =>
    match c.sets.getD k none with
    | none => s
    | some x =>
      if 2 ≤ l ∨ 8 ≤ k ∨ early = true then s
      else
        let q := c.seqs.get natZero k
        let copy := if q = 0 then 0 else 1 - (q - 1) % 2
        let seq := if q = 0 then 1 else (q - 1) / 2 + 1
        let bs := setBytes x l k seq s.fuses.deviceId
        let s := s.modCnv l fun c => { c with lastWr := some s.tick }
        let w := s.nvmWipe (setAddr l k copy) 4096 e
        let w2 := if w.2 then w.1.nvmWrite (setAddr l k copy) bs p else w
        let ok := w2.2 && (w2.1.nvmRead (setAddr l k copy) 4096 back == some bs)
        (w2.1.rdTimeout back).setEnd l k ok rest (1 + 2 * seq + copy)

/-! ### Foreground calibration (R225-R227, R247) -/

/-- A line engine is held disabled for this boot (R226, R304). -/
def State.holdLine (s : State) (l cause mute : Nat) : State :=
  let s := (s.setFld ⟨Reg.GLB_LINE_STATUS, 2 * l + 1, 2 * l⟩ 3).setFld ⟨Reg.FLT_STATUS, 8 + l, 8 + l⟩ 1
  (s.modLn l fun x => { x with mute := x.mute ||| 2 ^ mute, power := false, tileLock := false }).queueRec 0x000A 2 (16 + 8 * l)
    [BitVec.ofNat 8 l, BitVec.ofNat 8 cause]

/-- Take one cell's measurement of foreground calibration. -/
def State.fgCell (l : Nat) (s : State) (p : Nat × Int) : State :=
  if p.1 < 304 ∧ (s.cnv l).cellBad.get (fun _ => false) p.1 = false then s.cellTake l (p.1 / 76) (p.1 % 76) p.2 else s

/-- What a unit's correction makes of its code, in 2^-18 LSB (R221). -/
def UnitVal.correct (v : UnitVal) (x : Int) : Int := 2 * ((8 * x - v.o) * v.g)

/-- The sums of a histogram's codes under a correction. -/
def histSums (f : Int → Int) (h : List Nat) : Sums :=
  h.zipIdx.foldl (fun a p => let v := f ((p.2 : Int) - 128); ⟨a.n + p.1, a.s + p.1 * v, a.q + p.1 * (v * v).toNat⟩) {}

/-- The values that the loopback's codes give a unit, against those of its ADC's active units in the same runs (R225, R229). -/
def State.fgValue (s : State) (l : Nat) (us : List (Nat × CalRes)) (i : Nat) : Option UnitVal :=
  let r : CalRes := ((us.find? (·.1 == i)).map (·.2)).getD ⟨[], []⟩
  let act := us.filter fun p => p.1 / 144 == i / 144 && p.1 < 576 && s.role l p.1 == 0
  let all (k : Nat) : List Nat := (List.range 256).map fun v => act.foldl (fun a p => a + (p.2.cand.getD k []).getD v 0) 0
  let k := candPick i fun k => histDist (r.cand.getD k []) (all k)
  let a := act.foldl (fun (a : Sums) p => let x := histSums ((s.cnv l).units.get noUnit p.1).correct p.2.rest; ⟨a.n + x.n, a.s + x.s, a.q + x.q⟩) {}
  valuesOf i k (histSums id r.rest) a

/-- The values of all usable units. -/
def State.fgValues (s : State) (l : Nat) (us : List (Nat × CalRes)) : List (Nat × Option UnitVal) :=
  ((List.range 576).filter fun i => s.role l i != 3).map fun i => (i, s.fgValue l us i)

/-- A unit takes its values, or has failed calibration. -/
def State.fgUnit (l : Nat) (s : State) (p : Nat × Option UnitVal) : State :=
  match p.2 with
  | some v => s.setUnit l p.1 v
  | none => s.unitFailed l p.1

/-- One window of the skew loop in foreground calibration: the taps move; the windows in a row in which none has moved (R225, R231). -/
def fgWindow (a : List Nat × Nat) (rho : List Int) : List Nat × Nat :=
  if 8 ≤ a.2 then a
  else
    let b := a.1.zipIdx.map fun p => if p.2 % 8 = 0 then p.1 else tapMoved (rho.getD (p.2 - 1) 0) (rho.getD p.2 0) p.1
    (b, if b = a.1 then a.2 + 1 else 0)

/-- The taps of the skew loop of foreground calibration, and the still windows in a row that it ends with. -/
def State.fgTaps (s : State) (l : Nat) (rhos : List (List Int)) : List Nat × Nat := rhos.foldl fgWindow ((List.range 32).map (s.tap l), 0)

/-- Whether the skew loop has ended: no tap has moved for 8 windows, or its 100 ms, 390 windows, are over (R225).  DESIGN CHOICE: at that limit
it ends with the taps that it has; the spec says only that the step takes at most as long. -/
def State.fgStill (s : State) (l : Nat) (rhos : List (List Int)) : Bool := decide (8 ≤ (s.fgTaps l rhos).2) || decide (390 ≤ rhos.length)

/-- The skew loop of foreground calibration runs until no tap has moved for 8 windows. -/
def State.fgSkew (s : State) (l : Nat) (rhos : List (List Int)) : State :=
  (s.fgTaps l rhos).1.zipIdx.foldl (fun (s : State) p => s.setTap l p.2 p.1) s

/-- Bit `n` of the sequence x^31 + x^28 + 1, oldest first, from 31 bits. -/
def loopBits : Nat → List Bool → List Bool
  | 0, _ => []
  | n + 1, r => let b := (r.getD 30 false) != (r.getD 27 false); b :: loopBits n (b :: r.take 30)

/-- The first `n` codes that each DAC drives in foreground calibration: eight bits a code, clamped to ±96 (R225). -/
def loopCodes (d n : Nat) : List Int :=
  let bs := loopBits (8 * n) (toBits 31 (Config.loopSeed d))
  (List.range n).map fun i => clampI (-96) 96 (Config.loopCode (ofBits ((bs.drop (8 * i)).take 8)))

/-- Foreground calibration, with some usable units, cannot give every branch 16 of them, or every DAC its 63 cells (R225). -/
def State.fgShort (s : State) (l : Nat) (us : List Nat) : Bool :=
  ((List.range 32).any fun br => decide ((us.filter fun i => i / 18 == br).length < 16)) ||
  (List.range 4).any fun d => decide (9 < (((s.cnv l).cellsBad d).filter (· < 72)).length)

/-- Foreground calibration succeeds: roles, the stored set, the pass registers (R225, R238). -/
def State.fgEnd (s : State) (l : Nat) : State :=
  let s := (s.assignRoles l).setFld (Reg.CNV_STATUS.FG_DONE l) 1
  let t := s.tTile l
  let s := (s.storeSet l t (s.tap l)).setFld (Reg.CNV_TEMP.T_LAST l) (twos 16 t)
  let s := s.setFld (Reg.CNV_PASS_INFO.PASS_CNT l) (satAdd 0xFFFF (s.fld (Reg.CNV_PASS_INFO.PASS_CNT l)) 1)
  let s := (s.modCnv l fun c => { c with lastDone := s.tick, loop := false, fails := [], passBand := s.tileBand l, passRate := (s.ln l).rxRate }).modLn l fun y => { y with tileLock := true }
  (s.cnvPool l).cnvStale l

/-- The tile clock of a foreground calibration: the band's clock-tree preset is loaded, and the DACs drive the loopback (R225). -/
def State.fgStart (s : State) (l n : Nat) : State :=
  let s := s.modCnv l fun c => { c with preset := some (s.tileBand l), loop := true }
  if n = 0 then s else (List.range 4).foldl (fun (s : State) d => s.emit (.dac l d (loopCodes d n))) s

/-- Whether what was measured ends a foreground calibration: it fails, or its skew loop has ended (R225, R226). -/
def State.fgReady (s : State) (l : Nat) (x : FgIn) : Bool := !x.pll || (x.power.any fun p => decide (p < -2000)) || s.fgStill l x.rhos

/-- Foreground calibration of a tile ends; true when it succeeded. -/
def State.foreground (s : State) (l : Nat) (x : FgIn) : State × Bool :=
  let s := if x.pll then s.fgStart l x.driven else s
  let s := x.cells.foldl (State.fgCell l) s
  let vs := if x.pll then s.fgValues l x.units else []
  let us := (if x.pll then vs.filter (·.2.isSome) else []).map (·.1)
  let short := s.fgShort l us
  let s := vs.foldl (State.fgUnit l) s
  if !x.pll || (x.power.any fun p => decide (p < -2000)) || short then
    (((s.modCnv l fun c => { c with loop := false }).raiseOwn (Reg.CNV_EVENT.FG_FAIL l)).holdLine l 1 1 |>.cnvPool l, false)
  else ((s.fgSkew l x.rhos).fgEnd l, true)

/-- Whether a tile's stored state is current (R247). -/
def State.tileCurrent (s : State) (l : Nat) : Bool :=
  match (s.cnv l).nearest (s.tTile l) with
  | none => false
  | some (_, x) => decide ((x.temp - s.tTile l).natAbs ≤ 2 * s.deltaT l) && decide (s.tick ≤ x.tick + 86400000000)

/-- A powered-down tile's calibration stops: a pass that was cut ends (R228, R247). -/
def State.cnvStop (s : State) (l : Nat) : State :=
  let s := (s.setFld (Reg.CNV_STATUS.PASS_RUN l) 0).setFld (Reg.CNV_PASS_INFO.STEP l) 0
  s.modCnv l fun c => { c.forget (fun _ => true) with prio := [], stepTicks := 0, stepLen := 0, temps := [], skip := [], preset := none,
                                                      win := [], winX := [], cor := [], prev := [], fails := [], stepN := [] }

/-- A tile returns to service on its stored state: working values, selections of the nearest set, roles, a pass at once. -/
def State.tileReturn (s : State) (l : Nat) : State :=
  let s := match (s.cnv l).nearest (s.tTile l) with
    | some (_, x) => (List.range 576).foldl (fun (s : State) i =>
        let v := x.units.get noUnit i
        s.modCnv l fun c => { c with units := c.units.set noUnit i { c.units.get noUnit i with cmp := v.cmp, cap := v.cap } }) s
    | none => s
  let s := s.modCnv l fun c => { c with memoT := none, staleAt := none, own := [], want := true, preset := some (s.tileBand l), dirty := true }
  (((s.cnvInterp l).assignRoles l).cnvStale l).modLn l fun y => { y with tileLock := true }

/-! ### Meanings -/

/-- CAL_STEP_END (R229, R230, R234). -/
def execCalStepEnd (l : Nat) (s : State) : Host.Outcome State Fault Refusal := .next (s.cmdDecideLive (·.stepEnd l))
/-- PASS_START (R233). -/
def execPassStart (l : Nat) (s : State) : Host.Outcome State Fault Refusal := .next (s.cmdDecideLive (·.passStart l))
/-- SKEW_WINDOW_END (R231, R240, R241). -/
def execSkewWindowEnd (l : Nat) (s : State) : Host.Outcome State Fault Refusal := .next (s.cmdDecideLive (·.skewWindow l))
/-- DAC_CELL_MEASURED (R232, R243, R244). -/
def execDacCellMeasured (l d : Nat) (dev : Int) (s : State) : Host.Outcome State Fault Refusal := .next (s.cmdDecideLive (·.cellMeasured l d dev))
/-- SET_WRITE (R239). -/
def execSetWrite (l : Nat) (e p : Pg) (back : Rd) (s : State) : Host.Outcome State Fault Refusal := .next (s.cmd (·.setWrite l e p back))

end Sys2Proof.Machine
end

