-- ==== Sys2Proof/Machine/Flo.lean ====
section
/-! DEFINITION. Host clients, Floe blocks, calendars, packet rebuild and the twin-path merge (chapter 2: R50-R94; R360). -/

namespace Sys2Proof.Machine

/-! ### Channels and calendars (R64-R72) -/

def noTx : Nat → ChTx := fun _ => {}
def noRxCh : Nat → ChRx := fun _ => {}
def State.ctx (s : State) (n : Nat) : ChTx := s.flo.tx.get noTx n
def State.setCtx (s : State) (n : Nat) (x : ChTx) : State := { s with flo := { s.flo with tx := s.flo.tx.set noTx n x } }
def State.crx (s : State) (n : Nat) : ChRx := s.flo.rx.get noRxCh n
def State.setCrx (s : State) (n : Nat) (x : ChRx) : State := { s with flo := { s.flo with rx := s.flo.rx.set noRxCh n x } }

/-- A counter of a channel (R466, R94). -/
def State.chCount (s : State) (n o k : Nat) : State := s.count (chanCtr n o) k

/-- The slots of each channel in a bank, for `sl` slots per frame. -/
def calHist (look : Nat → Word) (l b sl : Nat) : Array Nat :=
  (List.range 3200).foldl (fun a i =>
    let w := look (Reg.FLO_CAL l b i)
    if i % 50 < sl && w.getLsbD 15 then a.modify (getBits w 8 0) (· + 1) else a) (Array.replicate 512 0)

/-- The slots of a channel on a line, in its active bank. -/
def State.chSlots (s : State) (l n : Nat) : Nat :=
  (calHist s.reg l (s.ln l).bank (fmtSlots (s.txFmtW l))).getD n 0

/-- The larger slot count of a channel. -/
def State.chSlotsMax (s : State) (n : Nat) : Nat := max (s.chSlots 0 n) (s.chSlots 1 n)

/-- The queue guaranteed to a channel of `k` slots, in bytes (R71). -/
def queueGuar (k : Nat) : Nat := max 16384 (1024 * k)

/-- The guarantees of all channels that a reader of the registers enables (R71). -/
def guarSum (look : Nat → Word) (hA hB : Array Nat) : Nat :=
  (List.range 512).foldl (fun a n => if (look (Reg.FLO_CH_CFG n)).getLsbD 0 then a + queueGuar (max (hA.getD n 0) (hB.getD n 0)) else a) 0

/-- The merge cells allotted to all enabled twin-path channels (R89).  DEDUCED: the merge serves reception, so a channel
counts as enabled here when its RX_EN is 1. -/
def cellSum (look : Nat → Word) (hA hB : Array Nat) : Nat :=
  (List.range 512).foldl (fun a n =>
    let w := look (Reg.FLO_CH_CFG n)
    if w.getLsbD 1 && w.getLsbD 2 then
      a + max (hA.getD n 0) (hB.getD n 0) * (getBits (look (Reg.FLO_CH_TWIN n)) 11 0 + 1) else a) 0

/-- Whether queue and merge buffer hold all channels, with the banks and slots per frame given by line (R71, R89). -/
def floFits (look : Nat → Word) (bank slots : Nat → Nat) : Bool :=
  let hA := calHist look 0 (bank 0) (slots 0)
  let hB := calHist look 1 (bank 1) (slots 1)
  decide (guarSum look hA hB ≤ 8192 * 1024) && decide (cellSum look hA hB ≤ 32768)

/-- Whether every bank that may come to be active on each line, for `slots` per frame, fits with every one of the other
line's (R71, R89). -/
def banksFit (look : Nat → Word) (b0 b1 : List Nat) (slots : Nat → Nat) : Bool :=
  b0.all fun x => b1.all fun y => floFits look (fun l => if l = 0 then x else y) slots

/-- Whether some enabled channel of a reader is twin-path.  DEDUCED: enabled in either direction (R80). -/
def twinAny (look : Nat → Word) : Bool :=
  (List.range 512).any fun n => let w := look (Reg.FLO_CH_CFG n); w.getLsbD 2 && (w.getLsbD 0 || w.getLsbD 1)

/-- Bytes a channel holds for a line. -/
def ChTx.depth (x : ChTx) (l : Nat) : Nat :=
  x.rest.length + (x.pkts.map List.length).foldl (· + ·) 0 + 1024 * (if l = 0 then x.qA else x.qB).length

/-- A channel's queue depth: the larger of the lines'. -/
def ChTx.deep (x : ChTx) : Nat := max (x.depth 0) (x.depth 1)

/-- Whether a channel has room for `k` more bytes on top of `d`: within its guarantee, or with what is left of the shared
space (R71). -/
def State.hasRoom (s : State) (n d k : Nat) : Bool :=
  let hA := calHist s.reg 0 (s.ln 0).bank (fmtSlots (s.txFmtW 0))
  let hB := calHist s.reg 1 (s.ln 1).bank (fmtSlots (s.txFmtW 1))
  let sum := guarSum s.shReg hA hB
  let guar (m : Nat) : Nat := queueGuar (max (hA.getD m 0) (hB.getD m 0))
  let used := (s.flo.tx.filter (·.1 ≠ n)).foldl (fun a p => a + (p.2.deep - guar p.1)) 0
  decide (d + k ≤ guar n) || decide (used + (d + k - guar n) ≤ 8192 * 1024 - sum)

/-! ### Building blocks (R59-R63, R79, R81) -/

/-- The number in `n` bytes at an offset, most significant first. -/
def beAt (b : List Byte) (o n : Nat) : Nat := ofBe ((b.drop o).take n)

/-- The length prefix of a packet. -/
def lenPrefix (n : Nat) : List Byte := beBytes 4 (0x40000000 + n)

/-- Pack queued packets behind the bytes already in a payload: payload, BPTR, the rest of the last packet, packets left. -/
def packGo : List (List Byte) → List Byte → Option Nat → List Byte × Nat × List Byte × List (List Byte)
  | [], acc, bp =>
    if acc.length ≤ 1020 then (padTo 1024 acc, bp.getD acc.length, [], []) else (padTo 1024 acc, bp.getD 0x7FF, [], [])
  | p :: ps, acc, bp =>
    let room := 1024 - acc.length
    if room < 4 then (padTo 1024 acc, bp.getD 0x7FF, [], p :: ps)
    else
      let c := lenPrefix p.length ++ p
      if c.length ≤ room then packGo ps (acc ++ c) (some (bp.getD acc.length))
      else (acc ++ c.take room, bp.getD acc.length, c.drop room, ps)

/-- The next payload of a channel. -/
def ChTx.pack (x : ChTx) : List Byte × Nat × List Byte × List (List Byte) :=
  if 1024 ≤ x.rest.length then (x.rest.take 1024, 0x7FF, x.rest.drop 1024, x.pkts) else packGo x.pkts x.rest none

/-- A block without its CRC; SRC_LINE is 0 (R59). -/
def floBlock (chan : Nat) (idle twin : Bool) (label seq bptr : Nat) (payload : List Byte) : List Byte :=
  beBytes 2 chan ++ [BitVec.ofNat 8 (128 * b2n idle + 64 * b2n twin), BitVec.ofNat 8 label] ++ beBytes 4 seq ++ beBytes 2 bptr ++
    [0#8, 0#8] ++ padTo 1024 payload

/-- Set SRC_LINE and append the CRC, inverted when the block carries bytes that could not be read (R374). -/
def floSend (l : Nat) (bad : Bool) (b : List Byte) : List Byte :=
  let b := if l = 0 then b else modAt b 2 (· ||| 0x20#8)
  b ++ beBytes 4 (if bad then crc32 b ^^^ 0xFFFFFFFF else crc32 b)

/-- An idle block (R63). -/
def floIdle (chan label : Nat) (twin : Bool) : List Byte := floBlock chan true twin label 0 0x7FF []

/-- Take the next sequence number and build a data block. -/
def State.buildBlock (s : State) (n : Nat) (twin : Bool) : List Byte × State :=
  let x := s.ctx n
  let r := x.pack
  (floBlock n false twin (s.sh (Reg.FLO_CH_CFG.LABEL n)) x.seq r.2.1 r.1,
   (s.setCtx n { x with rest := r.2.2.1, pkts := r.2.2.2, seq := (x.seq + 1) % 2 ^ 32 }).winAdd (128 + n) 0 1)

/-- A transmit drop (R57, R81): raised and counted. -/
def State.txDrop (s : State) (n k : Nat) : State := if k = 0 then s else (s.raiseDp Reg.FLO_EVENT.TX_DROP).chCount n 1 k

/-- The frames that a prefix in a payload begins, from offset `o` on. -/
def prefixCount (pl : List Byte) : Nat → Nat → Nat
  | 0, _ => 0
  | k + 1, o => if o ≤ 1020 ∧ beAt pl o 4 / 2 ^ 30 = 1 then 1 + prefixCount pl k (o + 4 + beAt pl o 4 % 2 ^ 14) else 0

/-- The mark of a block. -/
def blockMark (b : List Byte) : BlockMark :=
  let bptr := beAt b 8 2 % 2048
  ⟨beAt b 4 4, bptr, prefixCount ((b.drop 12).take 1024) 17 bptr⟩

/-- Whether the frames dropped up to the end of the block before number `q` have been counted. -/
def countedTo (p : Option Nat) (q : Nat) : Bool := match p with | some d => decide ((d + 2 ^ 32 + 1 - q) % 2 ^ 32 < 2 ^ 31) | none => false

/-- The frames that dropping a block takes with it (R94: drops count frames): those that begin in it, and the one that goes on into it
unless that one has been counted. -/
def BlockMark.frames (m : BlockMark) (p : Option Nat) : Nat := m.begins + b2n (m.bptr != 0 && !countedTo p m.seq)

/-- The count's mark after a drop. -/
def BlockMark.past (m : BlockMark) (p : Option Nat) : Option Nat := if countedTo p ((m.seq + 1) % 2 ^ 32) then p else some m.seq

/-- The blocks that a channel holds for a line. -/
def ChTx.q (x : ChTx) (l : Nat) : List (List Byte) := if l = 0 then x.qA else x.qB
def ChTx.setQ (x : ChTx) (l : Nat) (q : List (List Byte)) : ChTx := if l = 0 then { x with qA := q } else { x with qB := q }
def ChTx.dropped (x : ChTx) (l : Nat) : Option Nat := if l = 0 then x.dropA else x.dropB
def ChTx.setDropped (x : ChTx) (l : Nat) (p : Option Nat) : ChTx := if l = 0 then { x with dropA := p } else { x with dropB := p }

/-- A line drops a block of a channel: the frames that it takes with it are counted (R81, R94, R215). -/
def State.dropMark (l : Nat) (s : State) (c : Nat × BlockMark) : State :=
  let x := s.ctx c.1
  (s.setCtx c.1 (x.setDropped l (c.2.past (x.dropped l)))).txDrop c.1 (c.2.frames (x.dropped l))

/-- A line sends a block of a channel: a dropped frame that fills all of it goes on (R94). -/
def State.passMark (l : Nat) (s : State) (c : Nat × BlockMark) : State :=
  let x := s.ctx c.1
  if c.2.bptr = 0x7FF ∧ countedTo (x.dropped l) c.2.seq = true then s.setCtx c.1 (x.setDropped l (c.2.past (x.dropped l))) else s

/-- While a line's queue of a twin-path channel has no room for `k` more bytes, the line drops its oldest block (R81);
`fuel` bounds the drops. -/
def State.twinShed (s : State) (n l k : Nat) : Nat → State
  | 0 => s
  | fuel + 1 =>
    let x := s.ctx n
    match x.q l with
    | [] => s
    | b :: bs => if s.hasRoom n (x.depth l) k then s else (State.dropMark l (s.setCtx n (x.setQ l bs)) (n, blockMark b)).twinShed n l k fuel

/-- Queue a twin-path block to a line, which makes room for it (R79, R81). -/
def State.queueTwin (s : State) (n l : Nat) (b : List Byte) : State :=
  let s := s.twinShed n l 1024 ((s.ctx n).q l).length
  s.setCtx n ((s.ctx n).setQ l ((s.ctx n).q l ++ [b]))

/-- Whether a channel has client data not yet built into blocks. -/
def ChTx.hasData (x : ChTx) : Bool := !(x.rest.isEmpty && x.pkts.isEmpty)

/-- The block of a twin-path channel for a line, when there is one (R79). -/
def State.twinBlock (s : State) (n l : Nat) : Option (List Byte) × State :=
  let s := if ((s.ctx n).q l).isEmpty && (s.ctx n).hasData then
      let r := s.buildBlock n true
      (r.2.queueTwin n 0 r.1).queueTwin n 1 r.1
    else s
  match (s.ctx n).q l with
  | [] => (none, s)
  | b :: bs => (some b, s.setCtx n ((s.ctx n).setQ l bs))

/-- Whether both line engines run the same symbol rate, which a twin-path channel needs (R80). -/
def State.twinRates (s : State) : Bool := fmtRs (s.txFmtW 0) == fmtRs (s.txFmtW 1)

/-- The block a calendar slot sends (R63). -/
def State.slotBlock (s : State) (l : Nat) (w : Word) : List Byte × State :=
  let n := getBits w 8 0
  if !w.getLsbD 15 then (floIdle 0 0 false, s)
  else
    let label := s.sh (Reg.FLO_CH_CFG.LABEL n)
    let twin := s.shBit (Reg.FLO_CH_CFG.TWIN n)
    if !s.shBit (Reg.FLO_CH_CFG.TX_EN n) || (twin && !s.twinRates) then (floIdle n label twin, s)
    else if twin then
      match s.twinBlock n l with
      | (some b, s) => (b, s.chCount n (2 + l) 1)
      | (none, s) => (floIdle n label true, s)
    else if s.sh (Reg.FLO_CH_CFG.TX_LINE n) == l && (s.ctx n).hasData then
      let r := s.buildBlock n false
      (r.1, r.2.chCount n (2 + l) 1)
    else (floIdle n label false, s)

/-- The blocks of frame position `f` on a line; `bad` lists slots whose bytes could not be read. -/
def State.frameBlocks (s : State) (l f sl : Nat) (bad : List Nat) : List (List Byte) × State :=
  let bank := (s.ln l).bank
  (List.range sl).foldl (fun p j =>
    let r := p.2.slotBlock l (p.2.reg (Reg.FLO_CAL l bank (50 * f + j)))
    (p.1 ++ [floSend l (bad.contains j) r.1], r.2)) ([], s)

/-- A channel stops sending: what it holds is dropped, and its frames counted once each; the line with more blocks waiting holds all that
the other does. -/
def State.txStop (s : State) (n : Nat) : State :=
  let x := s.ctx n
  let l := if x.qA.length < x.qB.length then 1 else 0
  let r := (x.q l).foldl (fun (a : Nat × Option Nat) b => (a.1 + (blockMark b).frames a.2, (blockMark b).past a.2)) (0, x.dropped l)
  let rest := !x.rest.isEmpty && !countedTo r.2 x.seq && !countedTo (x.dropped (1 - l)) x.seq
  (s.setCtx n {}).txDrop n (x.pkts.length + r.1 + b2n rest)

/-! ### Ingress (R51-R57, R360) -/

/-- The Ethernet FCS of bytes: each byte's bit 0 first, sent least significant bit first.  PRESUMED: IEEE 802.3. -/
def ethFcs (b : List Byte) : List Byte :=
  let c := crcBits 32 0x04C11DB7 0xFFFFFFFF (b.flatMap fun x => (byteBits x).reverse) ^^^ 0xFFFFFFFF
  (beBytes 4 c).map fun x => BitVec.ofNat 8 (ofBits (byteBits x).reverse)

/-- Replace the FCS. -/
def reFcs (b : List Byte) : List Byte := let d := b.take (b.length - 4); d ++ ethFcs d

/-- Replace bytes at an offset. -/
def putAt (b : List Byte) (o : Nat) (v : List Byte) : List Byte := b.take o ++ v ++ b.drop (o + v.length)

/-- The offset of the EtherType behind up to `k` VLAN tags. -/
def etherAt (b : List Byte) : Nat → Nat → Nat
  | 0, o => o
  | k + 1, o => if beAt b o 2 = 0x8100 ∨ beAt b o 2 = 0x88A8 then etherAt b k (o + 4) else o

/-- Where a PTP version 2 event message starts in a frame, and where its UDP checksum is (R360). -/
def ptpAt (udp4 : Bool) (b : List Byte) : Option (Nat × Option Nat) :=
  let o := etherAt b 2 12
  let r : Option (Nat × Option Nat) :=
    if beAt b o 2 = 0x88F7 then some (o + 2, none)
    else if udp4 && beAt b o 2 == 0x0800 && beAt b (o + 2) 1 / 16 == 4 && beAt b (o + 11) 1 == 17 && beAt b (o + 8) 2 % 8192 == 0 then
      let u := o + 2 + 4 * (beAt b (o + 2) 1 % 16)
      if beAt b (u + 2) 2 = 319 then some (u + 8, some (u + 6)) else none
    else none
  match r with
  | some (p, c) => if beAt b p 1 % 16 < 4 ∧ beAt b (p + 1) 1 % 16 = 2 ∧ p + 16 ≤ b.length - 4 then some (p, c) else none
  | none => none

/-- One 16-bit word's change in a checksum (RFC 1624). -/
def csumStep (c m m' : Nat) : Nat :=
  let t := (0xFFFF - c) + (0xFFFF - m) + m'
  let t := t % 65536 + t / 65536
  0xFFFF - (t % 65536 + t / 65536)

/-- Add to the correctionField, in 2^-16 ns, and mend the checksum and the FCS (R360). -/
def ptpAdd (p : Nat) (c : Option Nat) (d : Int) (b : List Byte) : List Byte :=
  let new := beBytes 8 (twos 64 ((beAt b (p + 8) 8 : Int) + d))
  let b' := putAt b (p + 8) new
  let b' := match c with
    | none => b'
    | some o =>
      let old := beAt b o 2
      if old = 0 then b'
      else
        let v := (List.range 4).foldl (fun v i => csumStep v (beAt b (p + 8 + 2 * i) 2) (beAt b' (p + 8 + 2 * i) 2)) old
        putAt b' o (beBytes 2 (if v = 0 then 0xFFFF else v))
  reFcs b'

/-- Whether the transparent clock covers a channel. -/
def State.tcOn (s : State) (n : Nat) : Bool := s.shBit Reg.TIM_TC_CFG.EN && (s.shReg (Reg.TIM_TC_CH (n / 32))).getLsbD (n % 32)

/-- A port's timestamp in 2^-16 ns, at its resolution of 1/16 ns (R358). -/
def State.portStamp (s : State) (asym cyc sub : Nat) : Int := 4096 * ((s.timeAt cyc / 2 ^ 28 + sub : Nat) + sx 16 asym)

/-- The valid FlexE client map entry of a group and client (R55). -/
def State.fxcOf (s : State) (g c : Nat) : Option Nat :=
  (List.range 256).find? fun k => s.shBit (Reg.FLO_FXC.VALID k) && s.sh (Reg.FLO_FXC.GROUP k) == g && s.sh (Reg.FLO_FXC.CLIENT_ID k) == c

/-- The valid VLAN entry of a port and VID (R55). -/
def State.vlanOf (s : State) (p v : Nat) : Option Nat :=
  (List.range 2048).find? fun k => s.shBit (Reg.FLO_VLAN.VALID k) && s.sh (Reg.FLO_VLAN.PORT k) == p && s.sh (Reg.FLO_VLAN.VID k) == v

/-- How the classifier ends. -/
inductive Class where
  | chan (n : Nat)
  | unmatched
  | nowhere
  deriving DecidableEq, Repr

/-- The classifier (R55). -/
def State.classify (s : State) (x : IngIn) : Class :=
  let def_ := s.sh (Reg.FLO_PORT_CFG.DEF_CHAN x.port)
  match s.sh (Reg.FLO_PORT_CFG.MODE x.port), x.flexe with
  | 1, none => .chan def_
  | 2, none =>
    let tpid := if s.shBit (Reg.FLO_PORT_CFG.STAG x.port) then 0x88A8 else 0x8100
    let vid := beAt x.bytes 14 2 % 4096
    match (if beAt x.bytes 12 2 = tpid ∧ vid ≠ 0 then s.vlanOf x.port vid else none) with
    | some k => .chan (s.sh (Reg.FLO_VLAN.CHAN k))
    | none => if s.shBit (Reg.FLO_PORT_CFG.UNMATCHED_DROP x.port) then .unmatched else .chan def_
  | 3, some (g, c) => match s.fxcOf g c with | some k => .chan (s.sh (Reg.FLO_FXC.CHAN k)) | none => .nowhere
  | _, _ => .nowhere

/-- The port counter offset of a frame the MAC drops (R52); none when it is accepted. -/
def macDrop (maxLen : Nat) (x : IngIn) : Option Nat :=
  if x.pcs then some 3 else if x.bytes.length < 64 then some 4 else if maxLen < x.bytes.length then some 5
  else if (x.bytes.drop (x.bytes.length - 4)) ≠ ethFcs (x.bytes.take (x.bytes.length - 4)) then some 2 else none

/-- The depth against which an arriving frame is judged: a twin-path channel takes it while either line has room (R81,
R92). -/
def State.ingDepth (s : State) (n : Nat) : Nat :=
  let x := s.ctx n
  if s.shBit (Reg.FLO_CH_CFG.TWIN n) then min (x.depth 0) (x.depth 1) else x.deep

/-- Queue a classified frame on its channel, or drop it (R57); a line of a twin-path channel that has no room for it drops
its oldest blocks (R81). -/
def State.accept (s : State) (n : Nat) (b : List Byte) : State :=
  if !s.shBit (Reg.FLO_CH_CFG.TX_EN n) || !s.hasRoom n (s.ingDepth n) b.length then s.txDrop n 1
  else
    let s := (s.twinShed n 0 b.length (s.ctx n).qA.length).twinShed n 1 b.length (s.ctx n).qB.length
    let x := s.ctx n
    ((s.setCtx n { x with pkts := x.pkts ++ [b] }).chCount n 0 b.length).winAdd (128 + n) b.length 0

/-- The ingress stage of the transparent clock (R360). -/
def State.tcIngress (s : State) (n : Nat) (x : IngIn) : List Byte × State :=
  if !s.tcOn n then (x.bytes, s)
  else match ptpAt (s.shBit Reg.TIM_TC_CFG.UDP4) x.bytes with
    | none => (x.bytes, s)
    | some (p, c) => (ptpAdd p c (-(s.portStamp (s.sh (Reg.TIM_PORT_ASYM.ING x.port)) x.cyc x.sub)) x.bytes, s.count (portCtr x.port 12) 1)

/-- A whole ingress frame. -/
def State.ingress (s : State) (x : IngIn) : State :=
  if 64 ≤ x.port ∨ s.sh (Reg.FLO_PORT_CFG.MODE x.port) = 0 ∨ s.down = true then s
  else match macDrop (s.sh (Reg.FLO_PORT_CFG.MAX_LEN x.port)) x with
    | some o => s.count (portCtr x.port o) 1
    | none =>
      let s := ((s.count (portCtr x.port 0) 1).count (portCtr x.port 1) x.bytes.length).winAdd x.port x.bytes.length 1
      if x.mem then s.count (miscCtr 12 x.port) 1
      else match s.classify x with
        | .chan n => let r := s.tcIngress n x; r.2.accept n r.1
        | .unmatched => s.count (portCtr x.port 6) 1
        | .nowhere => s.count (miscCtr 12 (64 + x.port)) 1

/-! ### Egress (R58, R360, R361, R374) -/

/-- The egress point of a channel: port p, or 64 + FlexE client map entry. -/
def State.egrPoint (s : State) (n : Nat) : Nat :=
  if s.shBit (Reg.FLO_CH_CFG.EGR_FLEXE n) then 64 + s.sh (Reg.FLO_CH_CFG.EGR_FXC n) else s.sh (Reg.FLO_CH_CFG.EGR_PORT n)

/-- The port whose queue a point uses: a FlexE client uses its group's first PHY port.  DESIGN CHOICE: in a group without a valid PHY the
PORT field of entry 0 names it, and the map entry's VALID does not matter to egress; R58 says neither. -/
def State.pointPort (s : State) (e : Nat) : Nat :=
  if e < 64 then e
  else
    let g := s.sh (Reg.FLO_FXC.GROUP (e - 64))
    s.sh (Reg.HST_FXG_PHY.PORT g (((List.range 8).find? fun i => s.shBit (Reg.HST_FXG_PHY.VALID g i)).getD 0))

def noEgr : Nat → List (Nat × List Byte) := fun _ => []
def State.egrQ (s : State) (e : Nat) : List (Nat × List Byte) := s.flo.egr.get noEgr e
def State.setEgrQ (s : State) (e : Nat) (q : List (Nat × List Byte)) : State := { s with flo := { s.flo with egr := s.flo.egr.set noEgr e q } }

/-- Bytes in a port's egress queue. -/
def State.egrDepth (s : State) (p : Nat) : Nat :=
  (s.flo.egr.filter fun q => s.pointPort q.1 == p).foldl (fun a q => a + (q.2.map fun f => f.2.length).foldl (· + ·) 0) 0

/-- The weight of a channel at its egress point: its slot count, and 1 for a channel without slots. -/
def State.egrWeight (s : State) (n : Nat) : Nat := max 1 (s.chSlotsMax n)

/-- The channels with a frame at a point. -/
def State.egrWaiting (s : State) (e : Nat) : List Nat := ((s.egrQ e).map (·.1)).eraseDups

/-- The bytes a channel has had served at a point while it kept a frame there. -/
def State.egrServed (s : State) (e n : Nat) : Nat := s.flo.served.get natZero (512 * e + n)

/-- The channel a point serves next: of those with a frame, the one whose bytes served are the least in proportion to its
slots, the lower number on a tie (R58). -/
def State.egrNext (s : State) (e : Nat) : Option Nat :=
  (s.egrWaiting e).foldl (fun b n => match b with
    | none => some n
    | some m =>
      let x := s.egrServed e n * s.egrWeight m
      let y := s.egrServed e m * s.egrWeight n
      if x < y ∨ (x = y ∧ n < m) then some n else b) none

/-- A channel that joins the waiting ones at a point begins level with the one that is next. -/
def State.egrJoin (s : State) (e n : Nat) : State :=
  if (s.egrWaiting e).contains n then s
  else
    let v := match s.egrNext e with | some m => s.egrServed e m * s.egrWeight n / s.egrWeight m | none => 0
    { s with flo := { s.flo with served := s.flo.served.set natZero (512 * e + n) v } }

/-- A rebuilt frame reaches its egress point (R58). -/
def State.egrPut (s : State) (n : Nat) (b : List Byte) : State :=
  let e := s.egrPoint n
  let p := s.pointPort e
  if 65536 < s.egrDepth p + b.length then (s.raiseDp Reg.FLO_EVENT.EGR_DROP).count (portCtr p 11) 1
  else ((s.egrJoin e n).setEgrQ e (s.egrQ e ++ [(n, b)])).winAdd (640 + n) b.length 0

/-- The egress stage of the transparent clock (R360, R361). -/
def State.tcEgress (s : State) (n p cyc sub : Nat) (b : List Byte) : List Byte × State :=
  if !s.tcOn n then (b, s)
  else match ptpAt (s.shBit Reg.TIM_TC_CFG.UDP4) b with
    | none => (b, s)
    | some (o, c) =>
      let s := s.count (portCtr p 12) 1
      let s := if s.aligned then s else (s.raiseDp Reg.TIM_EVENT.TC_UNALIGNED).count (portCtr p 13) 1
      (ptpAdd o c (s.portStamp (s.sh (Reg.TIM_PORT_ASYM.EGR p)) cyc sub) b, s)

/-- The first frame of channel `n` leaves point `e`, when that channel is next there (R58); `cut` when its read became
uncorrectable after `at_` bytes. -/
def State.egress (s : State) (e n cyc sub : Nat) (cut : Option Nat) : State :=
  match (s.egrQ e).find? fun f => f.1 == n with
  | none => s
  | some f =>
    if s.down || s.egrNext e != some n then s
    else
      let s := s.setEgrQ e ((s.egrQ e).erase f)
      let s := { s with flo := { s.flo with served := s.flo.served.set natZero (512 * e + n) (s.egrServed e n + f.2.length) } }
      let p := s.pointPort e
      let r := s.tcEgress n p cyc sub f.2
      match cut with
      | none => (((r.2.emit (.egress (decide (64 ≤ e)) (if e < 64 then e else e - 64) r.1)).count (portCtr p 9) 1).count (portCtr p 10) r.1.length).winAdd (64 + p) r.1.length 1
      | some k =>
        let d := r.1.take k
        ((r.2.emit (.egress (decide (64 ≤ e)) (if e < 64 then e else e - 64) (d ++ (ethFcs d).map (~~~ ·)))).raiseDp Reg.FLO_EVENT.EGR_DROP).count (portCtr p 11) 1

/-! ### Packet rebuild (R76) -/

/-- Discard the packet in progress: rebuild waits for the next prefix. -/
def State.cutPkt (s : State) (n : Nat) : State :=
  let x := s.crx n
  match x.part with
  | some (_ :: _) => (s.setCrx n { x with part := none }).chCount n 10 1
  | _ => s.setCrx n { x with part := none }

/-- Rebuild from a prefix at offset `o` on; `k` bounds the prefixes of one payload. -/
def State.rebuildAt (s : State) (n : Nat) (pl : List Byte) : Nat → Nat → State
  | 0, _ => s
  | k + 1, o =>
    let x := s.crx n
    if 1020 < o then s.setCrx n { x with part := some [] }
    else
      let w := beAt pl o 4
      if w / 2 ^ 30 ≠ 1 then s.setCrx n { x with part := some [] }
      else
        let len := w % 2 ^ 14
        if len < 64 ∨ 16000 < len then (s.setCrx n { x with part := none }).chCount n 10 1
        else if o + 4 + len ≤ 1024 then
          ((s.setCrx n { x with part := some [] }).egrPut n ((pl.drop (o + 4)).take len)).rebuildAt n pl k (o + 4 + len)
        else s.setCrx n { x with part := some (pl.drop o) }

/-- Rebuild takes the next block in sequence (R76).  DEDUCED: a BPTR of 1,021 to 2,046, which R59 does not allow and R73 does
not reject, names no prefix; the packet in progress goes on through the block as if BPTR were 0x7FF. -/
def State.rebuild (s : State) (n bptr : Nat) (pl : List Byte) : State :=
  let x := s.crx n
  match x.part with
  | none => if bptr ≤ 1020 then s.rebuildAt n pl 17 bptr else s
  | some [] => if bptr ≤ 1020 then s.rebuildAt n pl 17 bptr else s
  | some acc =>
    let need := 4 + beAt acc 0 4 % 2 ^ 14 - acc.length
    if need ≤ 1024 ∧ (bptr = 0x7FF ∨ need ≤ bptr) then
      let s := (s.setCrx n { x with part := some [] }).egrPut n (acc.drop 4 ++ pl.take need)
      if bptr ≤ 1020 then s.rebuildAt n pl 17 bptr else s
    else if bptr ≤ 1020 then (s.cutPkt n).rebuildAt n pl 17 bptr
    else s.setCrx n { x with part := some (acc ++ pl) }

/-! ### Sequence (R65, R73-R75) -/

/-- a is newer than b (R65). -/
def newer (a b : Nat) : Bool := let d := (a + 2 ^ 32 - b) % 2 ^ 32; decide (1 ≤ d) && decide (d < 2 ^ 31)

/-- The receive symbol rate of a line in 1/8 GBd. -/
def State.rxRs (s : State) (l : Nat) : Nat := max 1 (fmtRs (s.rxFmtW l))

/-- `k` multiframes at the receive rate of a line, each 64 × 40,960 symbol periods (R9), in ns, rounded up: the first whole
nanosecond by which they have passed. -/
def State.mfSpan (s : State) (l k : Nat) : Nat := (20971520 * k + s.rxRs l - 1) / s.rxRs l

/-- Whether a span of `d` ns is longer than `k` multiframes at the receive rate of a line. -/
def State.mfBeyond (s : State) (l k d : Nat) : Bool := decide (20971520 * k < d * s.rxRs l)

/-- The time `cyc` time-base cycles after the last tick boundary, in ns since RESET_N release. -/
def State.nsAt (s : State) (cyc : Nat) : Nat := 1000 * s.tick + 2 * cyc

/-- Reset a channel's receive sequence state (R75).  DESIGN CHOICE: blocks that the merge still holds are dropped and not counted; R75
counts nothing as lost across a reset and does not say what becomes of them. -/
def State.seqReset (s : State) (n : Nat) : State :=
  let x := s.crx n
  let s := (s.cutPkt n).setCrx n { last := x.last, lastA := x.lastA, lastB := x.lastB, unprot := x.unprot }
  ((s.publishReg (Reg.FLO_CH_SKEW n) 0x80000000).raiseDp Reg.FLO_EVENT.SEQ_RESYNC).chCount n 9 1

/-- Whether a channel has been silent long enough for a reset (R75). -/
def State.silent (s : State) (n cyc : Nat) : Bool :=
  let x := s.crx n
  let k := if s.shBit (Reg.FLO_CH_CFG.TWIN n) then s.sh (Reg.FLO_CH_TWIN.PLAYOUT_MF n) + 2 else 2
  (x.next.isSome || x.anchor.isSome) && decide (x.last + s.mfSpan (x.anchor.getD (s.sh (Reg.FLO_CH_CFG.RX_LINE n))) k ≤ s.nsAt cyc)

/-- A block older than the expected number: the 64th in a row resets the sequence state. -/
def State.seqOld (s : State) (n : Nat) : State :=
  let x := s.crx n
  if 63 ≤ x.old then s.seqReset n else s.setCrx n { x with old := x.old + 1 }

/-- Take `k` sequence numbers as lost. -/
def State.seqLost (s : State) (n k : Nat) : State :=
  if k = 0 then s else ((s.raiseDp Reg.FLO_EVENT.SEQ_LOST).chCount n 8 k).cutPkt n

/-- A block in sequence order: earlier numbers are lost. -/
def State.seqTake (s : State) (n seq : Nat) (b : List Byte) : State :=
  let x := s.crx n
  let lost := match x.next with | some e => (seq + 2 ^ 32 - e) % 2 ^ 32 | none => 0
  let s := s.seqLost n lost
  ((s.setCrx n { s.crx n with next := some ((seq + 1) % 2 ^ 32), old := 0 }).winAdd (640 + n) 0 1).rebuild n (beAt b 8 2 % 2048) ((b.drop 12).take 1024)

/-- A single-path channel's block (R74).  DEDUCED: a block at a distance of exactly 2^31, which R65 calls neither newer nor
older, is treated as older. -/
def State.single (s : State) (n seq : Nat) (b : List Byte) : State :=
  match (s.crx n).next with
  | some e => if seq == e || newer seq e then s.seqTake n seq b else (s.count (miscCtr 12 (128 + n)) 1).seqOld n
  | none => s.seqTake n seq b

/-! ### The merge (R82-R89) -/

/-- A held block's release time (R84). -/
def State.relTime (s : State) (n : Nat) (c : Cell) : Int :=
  let x := s.crx n
  let p : Int := (s.mfSpan c.line (s.sh (Reg.FLO_CH_TWIN.PLAYOUT_MF n)) : Nat)
  if x.anchor = some c.line then c.at_ + p else c.at_ + p - x.skew.getD 0

/-- The oldest held block. -/
def ChRx.oldest (x : ChRx) : Option Cell :=
  x.held.foldl (fun m c => match m with | none => some c | some d => if newer d.seq c.seq then some c else some d) none

/-- Release one block; one that cannot be read is lost instead (R374). -/
def State.release (s : State) (n : Nat) (c : Cell) (now : Nat) (bad : Bool) : State :=
  let x := s.crx n
  let s := s.setCrx n { x with held := x.held.erase c, relAt := now }
  if bad then s else s.seqTake n c.seq c.block

/-- Release held blocks that are due, in sequence order; `k` bounds their number. -/
def State.releases (s : State) (n now : Nat) (bad : Bool) : Nat → State
  | 0 => s
  | k + 1 =>
    match (s.crx n).oldest with
    | none => s
    | some c => if s.relTime n c ≤ now then (s.release n c now bad).releases n now false k else s

/-- Release everything of a channel that is due.  DESIGN CHOICE: blocks held when RX_EN falls or TWIN changes are released and delivered as
before; R84 names no such condition. -/
def State.releaseDue (s : State) (n now : Nat) (bad : Bool) : State := s.releases n now bad (s.crx n).held.length

/-- A twin-path channel's intact block arrives (R82, R83, R86, R89).  DEDUCED: a first copy of a number that was declared
lost, and so was never released, is discarded like a copy of a released one and counted as TWIN_LATE. -/
def State.twinIn (s : State) (n l seq now : Nat) (b : List Byte) : State :=
  let x := s.crx n
  let x := { x with arr := (seq, l, now) :: x.arr, anchor := some (x.anchor.getD l), lastA := if l = 0 then some now else x.lastA,
                    lastB := if l = 0 then x.lastB else some now }
  let s := s.setCrx n x
  let gone := match x.next with | some e => seq != e && !newer seq e | none => false
  let older := gone && x.next.any fun e => seq != (e + 2 ^ 32 - 1) % 2 ^ 32
  if gone then
    let s := (s.raiseDp Reg.FLO_EVENT.TWIN_LATE).chCount n 12 1
    if older then s.seqOld n else s.setCrx n { x with old := 0 }
  else if x.anchor ≠ some l ∧ x.skew = none then s.setCrx n { x with old := 0 }
  else
    let s := s.setCrx n { x with old := 0 }
    if x.held.any (·.seq == seq) then s
    else if s.chSlotsMax n * (s.sh (Reg.FLO_CH_TWIN.PLAYOUT_MF n) + 1) ≤ x.held.length then (s.raiseDp Reg.FLO_EVENT.MERGE_FULL).chCount n 14 1
    else s.setCrx n { x with held := x.held ++ [⟨seq, l, now, b⟩], old := 0 }

/-! ### The demapper (R73, R78) -/

/-- Whether some prefix of a payload, from offset `o` on, has a reserved KIND or a nonzero reserved field. -/
def badPrefix (pl : List Byte) : Nat → Nat → Bool
  | 0, _ => false
  | k + 1, o =>
    if 1020 < o then false
    else
      let w := beAt pl o 4
      decide (2 ≤ w / 2 ^ 30) || w / 2 ^ 14 % 2 ^ 16 != 0 ||
        (w / 2 ^ 30 == 1 && decide (64 ≤ w % 2 ^ 14) && decide (w % 2 ^ 14 ≤ 16000) && badPrefix pl k (o + 4 + w % 2 ^ 14))

/-- Whether an intact block's header or prefixes are illegal. -/
def badHeader (b : List Byte) : Bool :=
  beAt b 0 2 / 512 != 0 || beAt b 2 1 % 32 != 0 || beAt b 8 2 / 2048 != 0 || beAt b 10 2 != 0 ||
    badPrefix ((b.drop 12).take 1024) 17 (beAt b 8 2 % 2048)

/-- One received block.  DEDUCED: a block that fails its CRC counts on the channel that its header names as it stands, and
only data blocks mark a path as delivering (R73, R88, R94). -/
def State.demap (s : State) (l now : Nat) (errored : Bool) (b : List Byte) : State :=
  let n := beAt b 0 2 % 512
  if errored || beAt b 1036 4 != crc32 (b.take 1036) then (s.raiseDp Reg.FLO_EVENT.BLK_CRC).chCount n 6 1
  else if badHeader b then s.raiseDpAt Reg.FLO_EVENT.BLK_HDR l
  else if beAt b 2 1 / 128 = 1 then s.count (miscCtr 12 (640 + l)) 1
  else if !s.shBit (Reg.FLO_CH_CFG.RX_EN n) || (!s.shBit (Reg.FLO_CH_CFG.TWIN n) && s.sh (Reg.FLO_CH_CFG.RX_LINE n) != l) then
    (s.raiseDp Reg.FLO_EVENT.RX_DISCARD).chCount n 7 1
  else if s.shBit (Reg.FLO_CH_CFG.TWIN n) && !s.twinRates then (s.raiseDp Reg.FLO_EVENT.RX_DISCARD).chCount n 7 1
  else
    let s := s.chCount n (4 + l) 1
    let s := if beAt b 3 1 != s.sh (Reg.FLO_CH_CFG.LABEL n) then s.chCount n 11 1 else s
    let s := s.setCrx n { s.crx n with last := now }
    if s.shBit (Reg.FLO_CH_CFG.TWIN n) then s.twinIn n l (beAt b 4 4) now b else s.single n (beAt b 4 4) b

/-- The oldest frame ready on a line is delivered; `mem` lists channels whose frame in rebuild could not be read. -/
def State.deliver (s : State) (l cyc : Nat) (mem : List Nat) : State :=
  match (s.ln l).ready with
  | [] => s
  | f :: fs =>
    let s := mem.foldl (fun s n => if n < 512 then s.cutPkt n else s) s
    (f.blocks.foldl (fun s b => s.demap l (s.nsAt cyc) f.errored b) s).modLn l fun x => { x with ready := fs }

/-! ### What a tick does (R82, R87, R88) -/

/-- The arrival on the other line with which `p` completes a pair: one of `p`'s number that came before it, or at once with
it on LNA. -/
def ChRx.pairOf (x : ChRx) (p : Nat × Nat × Nat) : Option (Nat × Nat × Nat) :=
  x.arr.find? fun q => q.1 == p.1 && q.2.1 != p.2.1 && (decide (q.2.2 < p.2.2) || (q.2.2 == p.2.2 && q.2.1 == 0))

/-- The differences other minus anchor of the pairs completed within the last multiframe, `recent` telling which arrivals
are. -/
def ChRx.pairs (x : ChRx) (a : Nat) (recent : Nat → Bool) : List Int :=
  (x.arr.filter fun p => recent p.2.2).filterMap fun p => match x.pairOf p with
    | some q => some (if p.2.1 = a then (q.2.2 : Int) - p.2.2 else (p.2.2 : Int) - q.2.2)
    | none => none

/-- The arrivals still of use: those of the last multiframe, and those whose partner may still come. -/
def ChRx.keepArr (x : ChRx) (recent : Nat → Bool) : List (Nat × Nat × Nat) :=
  let top := match x.arr with | p :: _ => p.1 | [] => 0
  x.arr.filter fun p => recent p.2.2 ||
    (!newer top ((p.1 + 2 ^ 30) % 2 ^ 32) && !(x.arr.any fun q => q.1 == p.1 && q.2.1 != p.2.1))

/-- The skew, the anchor and the protection of one twin-path channel at a tick (R82, R87, R88).  The skew in force is the
one published; what this tick measures is published at the next boundary.  DEDUCED: the mean is rounded to the nearest
whole nanosecond. -/
def State.twinTick (s : State) (n : Nat) : State :=
  let x := s.crx n
  let now := s.nsAt 0
  let a := x.anchor.getD 0
  let rs : Int := s.rxRs a
  let p := s.sh (Reg.FLO_CH_TWIN.PLAYOUT_MF n)
  let recent (t : Nat) : Bool := !s.mfBeyond a 1 (now - t)
  let d := if x.anchor.isNone then none else x.meas
  let flip := match d with | some d => decide (d * rs < -20971520) | none => false
  let d := if flip then d.map (- ·) else d
  let a := if flip then 1 - a else a
  let ds := x.pairs a recent
  let m := if x.anchor.isNone then none else if ds.isEmpty then d else some (roundDiv (ds.foldl (· + ·) 0) ds.length)
  let s := s.setCrx n { x with skew := d, meas := m, anchor := x.anchor.map fun _ => a, arr := x.keepArr recent }
  let s := if flip then (((s.raise Reg.FLO_EVENT.TWIN_REANCHOR).chCount n 13 1).releaseDue n now false) else s
  let s := s.publishReg (Reg.FLO_CH_SKEW n) (match m with | some d => twos 32 d | none => 0x80000000)
  let on (t : Option Nat) : Bool := match t with | some t => recent t | none => false
  let c1 := !on x.lastA || !on x.lastB
  let c2 := match d with | some d => s.mfBeyond a (p - 1) d.natAbs | none => false
  let un := c1 || c2 || d.isNone
  let s := s.raiseIf ((c1 && !x.quiet) || (c2 && !x.far)) Reg.FLO_EVENT.TWIN_UNPROT
  let s := if un then s.countLevel (chanCtr n 15) (!x.unprot) else s
  let s := s.setCrx n { s.crx n with unprot := un, quiet := c1, far := c2 }
  ((s.publish (Reg.FLO_CH_STATUS.TWIN_STATE n) (b2n (on x.lastA) + 2 * b2n (on x.lastB))).publish (Reg.FLO_CH_STATUS.ANCHOR n) a).publish
    (Reg.FLO_CH_STATUS.UNPROTECTED n) (b2n un)

/-- Channels with a configuration. -/
def State.chans (s : State) : List Nat :=
  (s.regs.filter fun p => decide (0x101000 ≤ p.1) && decide (p.1 < 0x101800)).map fun p => (p.1 - 0x101000) / 4

/-- The FLO block's part of a tick: the queue depths are latched, twin-path channels are judged. -/
def State.floTick (s : State) : State :=
  let s := s.chans.foldl (fun s n => s.setFld (Reg.FLO_CH_STATUS.TXQ_KIB n) ((s.ctx n).deep / 1024)) s
  let tw := s.chans.filter fun n => s.shBit (Reg.FLO_CH_CFG.TWIN n) && s.shBit (Reg.FLO_CH_CFG.RX_EN n)
  let s := tw.foldl State.twinTick s
  (s.publish Reg.FLO_STATUS.ANY_UNPROT (b2n (tw.any fun n => (s.crx n).unprot)))

/-! ### Bank swaps (R69) -/

def State.swapAt (s : State) (l : Nat) : Option Nat := if l = 0 then s.flo.swapA else s.flo.swapB
def State.setSwap (s : State) (l : Nat) (v : Option Nat) : State :=
  let s := { s with flo := if l = 0 then { s.flo with swapA := v } else { s.flo with swapB := v } }
  s.latch (if l = 0 then Reg.FLO_STATUS.CAL_PEND_A else Reg.FLO_STATUS.CAL_PEND_B) (b2n v.isSome)

/-- The banks that a line's datapath may come to use: its active one, and the other where a swap is armed. -/
def State.banksOf (s : State) (l : Nat) : List Nat :=
  if (s.swapAt l).isSome then [(s.ln l).bank, 1 - (s.ln l).bank] else [(s.ln l).bank]

/-- Whether queue and merge buffer hold all channels once line `l` uses its standby bank, whatever swap is armed on the
other line (R71, R89). -/
def State.swapFits (s : State) (l : Nat) : Bool :=
  let new := [1 - (s.ln l).bank]
  banksFit s.reg (if l = 0 then new else s.banksOf 0) (if l = 0 then s.banksOf 1 else new) fun k => fmtSlots (s.txFmtW k)

/-- Arm a bank swap, or reject it (R36, R69, R71, R89). -/
def State.calArm (s : State) (l : Nat) : State :=
  let f := s.reg64 (Reg.FLO_CAL_FRAME_LO l) (Reg.FLO_CAL_FRAME_HI l)
  if f % 64 ≠ 0 ∨ f < (s.ln l).txFn + 64 ∨ (s.swapAt l).isSome ∨ s.swapFits l = false then
    ((s.setFld (Reg.FLO_CAL_CTL.ARM l) 0).raiseAt Reg.FLO_EVENT.CAL_REJECT l).frameReject (s.ln l).txFn f
  else ((s.setSwap l (some f)).setFld (Reg.FLO_CAL_CTL.ARM l) 1).accepted l 1

/-- A line's datapath takes its other bank. -/
def State.flipBank (s : State) (l : Nat) : State :=
  let b := 1 - (s.ln l).bank
  ((s.modLn l fun x => { x with bank := b }).latch (Reg.FLO_CAL_SEL.ACTIVE l) b).raiseDpAt Reg.FLO_EVENT.CAL_SWAP l

/-- At a transmit head the armed swap takes effect (R69), unless what was written to the standby bank since it was armed no
longer fits (R71, R89). -/
def State.calSwap (s : State) (l fn : Nat) : State :=
  match s.swapAt l with
  | some f =>
    if f ≤ fn then
      let fits := s.swapFits l
      let s := (s.setSwap l none).latch (Reg.FLO_CAL_CTL.ARM l) 0
      if fits then s.flipBank l else s.raiseDpAt Reg.FLO_EVENT.CAL_REJECT l
    else s
  | none => s

/-! ### Meanings -/

/-- INGRESS_FRAME (R52). -/
def execIngressFrame (x : IngIn) (s : State) : Host.Outcome State Fault Refusal := .next (s.cmd (·.ingress x))

/-- EGRESS_FRAME (R58). -/
def execEgressFrame (e n cyc sub : Nat) (cut : Option Nat) (s : State) : Host.Outcome State Fault Refusal := .next (s.cmd (·.egress e n cyc sub cut))

/-- FRAME_DELIVERED (R73). -/
def execFrameDelivered (l cyc : Nat) (mem : List Nat) (s : State) : Host.Outcome State Fault Refusal := .next (s.cmdRun (·.deliver l cyc mem))

/-- MERGE_RELEASE (R84). -/
def execMergeRelease (n cyc : Nat) (bad : Bool) (s : State) : Host.Outcome State Fault Refusal :=
  .next (s.cmdRun fun s => s.releaseDue n (s.nsAt cyc) bad)

/-- SEQ_RESYNC (R75). -/
def execSeqResync (n cyc : Nat) (s : State) : Host.Outcome State Fault Refusal :=
  .next (s.cmdRun fun s => if s.silent n cyc then s.seqReset n else s)

end Sys2Proof.Machine
end

