-- ==== Sys2Proof/Machine/Lcy.lean ====
section
/-! DEFINITION. The line cipher: frame encryption, key phases, tag checks, the epoch search, the pipelines (chapter 4:
R130-R154, R165). -/

namespace Sys2Proof.Machine

def State.lcy (s : State) (l : Nat) : LcySt := (s.ln l).lcy
def State.modLcy (s : State) (l : Nat) (f : LcySt → LcySt) : State := s.modLn l fun x => { x with lcy := f x.lcy }

/-- The slot and VALID of a phase of a key register, as the datapath sees it (R139). -/
def State.keySlot (s : State) (off p : Nat) : Nat := s.sh ⟨off, 8 * p + 5, 8 * p⟩
def State.keyValid (s : State) (off p : Nat) : Bool := s.shBit ⟨off, 8 * p + 6, 8 * p + 6⟩

/-- Whether the line's receive side checks tags (R146). -/
def State.checksTags (s : State) (l : Nat) : Bool := s.sh (Reg.FRM_CTL.EXP_PSL l) == 0x11

/-! ### Pipelines (R151-R154) -/

/-- Datapath cycles per frame of a format (R27). -/
def frameBudget (w : Word) : Nat := 512000 / max 1 (fmtRs w)

/-- The block encryptions that the formats in use need per frame. -/
def State.cryptWork (s : State) (l : Nat) : Nat :=
  65 * ((if s.shBit (Reg.LCY_CTL.EN l) then fmtSlots (s.txFmtW l) else 0) + fmtSlots (s.rxFmtW l)) + 2

/-- N: the pipelines needed (R151).  DESIGN CHOICE: where the two formats differ in rate, the budget is that of the transmit format. -/
def State.pipesNeed (s : State) (l : Nat) : Nat :=
  let b := 2 * frameBudget (s.txFmtW l)
  (s.cryptWork l + b - 1) / b

/-- Pipelines in service. -/
def State.pipesOk (s : State) (l : Nat) : Nat :=
  let f := (s.reg (Reg.LCY_PIPE_FAIL l)).toNat
  18 - popCount 18 f - (match (s.lcy l).out with | some i => b2n (!f.testBit i) | none => 0)

/-- The pipeline that goes out after one: the next that has not failed (R152). -/
def nextPipe (failed i : Nat) : Option Nat := ((List.range 18).map fun k => (i + 1 + k) % 18).find? fun k => !failed.testBit k

/-- The rotation moves on, at the first frame head after the boundary that is due (R152). -/
def State.pipeRotate (s : State) (l : Nat) : State :=
  let x := s.lcy l
  match x.out with
  | none => s
  | some i =>
    if s.tick < x.outAt + 50 ∨ x.tested = false then s
    else s.modLcy l fun y => { y with out := nextPipe (s.reg (Reg.LCY_PIPE_FAIL l)).toNat i, outAt := s.tick, tested := false }

/-- A pipeline's self-test completes (R152, R153). -/
def State.pipeTest (s : State) (l : Nat) (pass : Bool) : State :=
  let x := s.lcy l
  match x.out with
  | none => s
  | some i =>
    if s.tick < x.outAt + 2 ∨ x.tested then s
    else if pass then s.modLcy l fun y => { y with tested := true }
    else
      let s := (s.setFld ⟨Reg.LCY_PIPE_FAIL l, i, i⟩ 1).modLcy l fun y => { y with out := none }
      let s := (s.raiseOwn (Reg.LCY_EVENT.PIPE_FAIL l)).queueRec 0x000C 2 (21 + 8 * l) [BitVec.ofNat 8 l, BitVec.ofNat 8 i]
      let s := s.logRepair (21 + 8 * l) 0x0006 2 [BitVec.ofNat 8 l, BitVec.ofNat 8 i]
      { s with poolQ := s.poolQ ++ [(4, 4 + 256 * l)] }

/-! ### Transmit (R130-R132, R139-R143) -/

/-- MUTE_CAUSE at a frame head (R130, R135, R141, R143, R154).  DEDUCED: where several causes hold at once, the lowest code
shows. -/
def State.cryptCause (s : State) (l : Nat) : Nat :=
  if !s.shBit (Reg.LCY_CTL.EN l) then 0
  else if s.fld Reg.CPH_EPOCH_STATUS.STATE != 1 then 1
  else if !s.keyValid (Reg.LCY_TX_KEY l) (s.lcy l).txPhase then 2
  else if (s.lcy l).expired || decide (2 ^ 48 ≤ (s.lcy l).age) then 3
  else if s.pipesOk l < s.pipesNeed l then 4 else 0

/-- PIPE_SHORT is raised at a head that finds the pipelines short (R154). -/
def State.pipeCheck (s : State) (l : Nat) : State :=
  s.raiseDpIf (decide (s.pipesOk l < s.pipesNeed l)) (Reg.LCY_EVENT.PIPE_SHORT l)

/-- Settle MUTE_CAUSE at a transmit head; TX_MUTE is raised when it becomes nonzero. -/
def State.cryptMute (s : State) (l : Nat) : State :=
  let c := s.cryptCause l
  let s := s.raiseDpIf (c != 0 && (s.lcy l).cause == 0) (Reg.LCY_EVENT.TX_MUTE l)
  s.modLcy l fun y => { y with cause := c, age := if y.cause = 2 ∧ c ≠ 2 then 0 else y.age }

/-- The IV of a frame (R132). -/
def frameIv (epoch fn : Nat) : List Byte := beBytes 4 epoch ++ beBytes 8 fn

/-- Encrypt a frame's slots; the tag is kept for the next head (R131, R132, R143). -/
def State.encrypt (s : State) (l fn : Nat) (flags : Byte) (pt : List Byte) : List Byte × State :=
  let k := s.key (s.keySlot (Reg.LCY_TX_KEY l) (s.lcy l).txPhase)
  let r := gcmSeal k (frameIv (s.fld Reg.CPH_EPOCH.EPOCH) fn) (beBytes 8 fn ++ [flags]) pt
  (r.1, s.modLcy l fun y => { y with tag := r.2, age := y.age + 1, running := true })

/-- LCY_KEY_AGE reaches 2^47 or 2^48 (R143). -/
def State.keyAge (s : State) (l : Nat) : State :=
  let s := if 2 ^ 47 ≤ (s.lcy l).age ∧ (s.lcy l).warned = false then
      (s.modLcy l fun y => { y with warned := true }).raiseDp (Reg.LCY_EVENT.KEY_AGE_WARN l) else s
  if 2 ^ 48 ≤ (s.lcy l).age ∧ (s.lcy l).expired = false then
    (s.modLcy l fun y => { y with expired := true }).raiseDp (Reg.LCY_EVENT.KEY_EXPIRED l) else s

/-- Arm a key flip, or reject it (R36, R140). -/
def State.flipArm (s : State) (l : Nat) : State :=
  let f := s.reg64 (Reg.LCY_FLIP_FRAME_LO l) (Reg.LCY_FLIP_FRAME_HI l)
  if f < (s.ln l).txFn + 64 ∨ f % 64 ≠ 0 ∨ s.bit ⟨Reg.LCY_TX_KEY l, 8 * (1 - (s.lcy l).txPhase) + 6, 8 * (1 - (s.lcy l).txPhase) + 6⟩ = false ∨
      (s.lcy l).flip.isSome then
    (s.setFld (Reg.LCY_FLIP_CTL.ARM l) (b2n (s.lcy l).flip.isSome)).raise (Reg.LCY_EVENT.FLIP_REJECT l) |>.frameReject (s.ln l).txFn f
  else ((s.modLcy l fun y => { y with flip := some f }).setFld (Reg.LCY_FLIP_CTL.ARM l) 1).accepted l 2

/-- At a transmit head the armed flip takes effect (R140). -/
def State.keyFlip (s : State) (l fn : Nat) : State :=
  match (s.lcy l).flip with
  | some f =>
    if f ≤ fn then
      let s := s.modLcy l fun y => { y with txPhase := 1 - y.txPhase, flip := none, age := 0, warned := false, expired := false, inForce := 0, rotNext := 0 }
      ((s.latch (Reg.LCY_FLIP_CTL.ARM l) 0).latch (Reg.LCY_TX_KEY.PHASE l) (s.lcy l).txPhase).raiseDp (Reg.LCY_EVENT.FLIP_DONE l)
    else s
  | none => s

/-- One hour in ticks. -/
def hourTicks : Nat := 3600000000

/-- The active key's time is up: a flip is armed, or ROT_DUE is raised, and repeated hourly while that key stays (R142). -/
def State.rotDue (s : State) (l : Nat) : State :=
  let x := s.lcy l
  if s.bit (Reg.LCY_CTL.AUTO_ROT l) = false ∨ x.inForce < max x.rotNext (s.fld (Reg.LCY_CTL.ROT_HOURS l) * hourTicks) then s
  else
    if x.rotNext = 0 ∧ s.keyValid (Reg.LCY_TX_KEY l) (1 - x.txPhase) = true ∧ x.flip = none then
      ((s.modLcy l fun y => { y with flip := some (((s.ln l).txFn + 64 + 63) / 64 * 64), rotNext := x.inForce + hourTicks }).setFld
        (Reg.LCY_FLIP_CTL.ARM l) 1).accepted l 2
    else (s.modLcy l fun y => { y with rotNext := x.inForce + hourTicks }).raise (Reg.LCY_EVENT.ROT_DUE l)

/-! ### The epoch search (R149, R150) -/

/-- A search starts on the last failed frame, unless one runs; none while the receive side checks no tags (R146). -/
def State.searchStart (s : State) (l : Nat) : State :=
  if (s.lcy l).search.isSome || !s.checksTags l then s else s.modLcy l fun y => { y with search := y.lastFail.map fun r => { r with done := 0 } }

/-- Whether candidate `e` matches a search record. -/
def State.epochHit (s : State) (r : Search) (e : Nat) : Bool :=
  aesEnc (s.key r.slot) (frameIv e r.fn ++ [0#8, 0#8, 0#8, 1#8]) == r.tg

/-- Candidates a tick can test (R150). -/
def State.searchCap (s : State) (l : Nat) : Nat :=
  match (s.lcy l).out with
  | some _ => if (s.lcy l).outAt + 2 ≤ s.tick then 3072 else 0
  | none =>
    let spare := 2 * frameBudget (s.txFmtW l) * s.pipesOk l - s.cryptWork l
    min 1024 (spare * (fmtRs (s.txFmtW l)) * 125 / 40960)

/-- The first matching candidate among the next `n`: how many are then done, and whether it was found. -/
def State.searchRun (s : State) (r : Search) (e0 : Nat) : Nat → Nat → Nat × Bool
  | 0, d => (d, false)
  | n + 1, d => if s.epochHit r ((e0 + d + 1) % 2 ^ 32) then (d + 1, true) else s.searchRun r e0 n (d + 1)

/-- A search's part of a tick.  It stops at a match, which EPOCH_FOUND then takes up. -/
def State.searchTick (s : State) (l : Nat) (again : Bool) : State :=
  match (s.lcy l).search with
  | none => s
  | some r =>
    if s.checksTags l = false ∨ s.keyValid (Reg.LCY_RX_KEY l) r.phase = false ∨ s.keySlot (Reg.LCY_RX_KEY l) r.phase ≠ r.slot then
      s.modLcy l fun y => { y with search := none }
    else if again ∨ (r.done ≠ 0 ∧ s.epochHit r (((s.lcy l).rxEpoch + r.done) % 2 ^ 32)) then s
    else
      let p := s.searchRun r (s.lcy l).rxEpoch (min (s.searchCap l) (2 ^ 32 - 1 - r.done)) r.done
      s.modLcy l fun y => { y with search := some { r with done := p.1 } }

/-- A match is taken up: RX_EPOCH changes at the first head after the next boundary (R149). -/
def State.epochFound (s : State) (l : Nat) : State :=
  match (s.lcy l).search with
  | none => s
  | some r =>
    let e := ((s.lcy l).rxEpoch + r.done) % 2 ^ 32
    if r.done = 0 ∨ s.epochHit r e = false then s
    else
      let s := s.modLcy l fun y => { y with search := none, rxNext := some (e, s.tick + 1), fails := 0, lastFail := none }
      (s.publishReg (Reg.LCY_RX_EPOCH l) e).raise (Reg.LCY_EVENT.EPOCH_FOUND l)

/-- Every candidate has failed (R150). -/
def State.epochMissed (s : State) (l : Nat) : State :=
  match (s.lcy l).search with
  | none => s
  | some r =>
    if r.done < 2 ^ 32 - 1 ∨ s.epochHit r (((s.lcy l).rxEpoch + r.done) % 2 ^ 32) then s
    else (s.modLcy l fun y => { y with search := none, lastFail := none }).raise (Reg.LCY_EVENT.EPOCH_NOT_FOUND l)

/-- Software writes the far epoch: any search ends, and the value is used from the next frame head (R150). -/
def State.rxEpochSet (s : State) (l : Nat) : State :=
  s.modLcy l fun y => { y with search := none, rxNext := some ((s.reg (Reg.LCY_RX_EPOCH l)).toNat, 0) }

/-- At a received head a new far epoch comes into use. -/
def State.rxEpochTake (s : State) (l : Nat) : State :=
  match (s.lcy l).rxNext with
  | some (e, t) => if t ≤ s.tick then s.modLcy l fun y => { y with rxEpoch := e, rxNext := none } else s
  | none => s

/-! ### Receive (R144-R148) -/

/-- Whether a declared defect masks another (R118). -/
def FrmSt.masked (x : FrmSt) (d : Nat) : Bool :=
  (x.defects.testBit 0 && d != 0) || (x.defects.testBit 3 && d != 0 && d != 3) || (x.defects.testBit 1 && d != 0 && d != 1 && d != 3)

/-- Integrate a defect's condition (R116): evidence for it extends the set count and ends the clear count, and the
other way round; while the defect is masked both stay at zero (R118). -/
def FrmSt.evidence (x : FrmSt) (d : Nat) (bad : Bool) (k : Nat) : FrmSt :=
  let z : Nat → Nat := fun _ => 0
  if x.masked d then { x with up := x.up.set z d 0, dn := x.dn.set z d 0 }
  else if bad then { x with up := x.up.set z d (min (2 ^ 40) (x.up.get z d + k)), dn := x.dn.set z d 0 }
  else { x with dn := x.dn.set z d (min (2 ^ 40) (x.dn.get z d + k)), up := x.up.set z d 0 }

def State.frm (s : State) (l : Nat) : FrmSt := (s.ln l).frm
def State.modFrm (s : State) (l : Nat) (f : FrmSt → FrmSt) : State := s.modLn l fun x => { x with frm := f x.frm }

/-- A frame leaves the cipher stage: its slots go to the demapper (R119, R147). -/
def State.frameReady (s : State) (l : Nat) (bytes : List Byte) (sl : Nat) (errored : Bool) : State :=
  let bs := (List.range sl).map fun j => (bytes.drop (1040 * j)).take 1040
  s.modLn l fun x => { x with ready := x.ready ++ [⟨bs, errored⟩] }

/-- Decrypt a frame and check its tag (R144, R147-R149).  DESIGN CHOICE: for the two consecutive failures of R149, a frame with a failed head,
a missing tag or a phase without VALID neither breaks nor extends the run, as R148 has it for dAUTH. -/
def State.tagTest (s : State) (l : Nat) (f : RxFrame) (tag ct : List Byte) : State :=
  let sl := fmtSlots f.fmt
  let phase := b2n (f.flags.getLsbD 7)
  let slot := s.keySlot (Reg.LCY_RX_KEY l) phase
  match (if f.good then some (beAt f.head 0 8) else f.fn) with
  | none => (s.raiseDp (Reg.LCY_EVENT.AAD_UNKNOWN l)).frameReady l ct sl true
  | some fn =>
    if !s.keyValid (Reg.LCY_RX_KEY l) phase then s.frameReady l ct sl true
    else
      let ks := aesKeys (s.key slot)
      let iv := frameIv (s.lcy l).rxEpoch fn
      let aad := beBytes 8 fn ++ [f.flags]
      let want := bytesOf (gcmTag ks (natsOf iv) (natsOf aad) (natsOf ct))
      if want = tag then
        let s := (s.modLcy l fun y => { y with fails := 0, search := none }).modFrm l (·.evidence 9 false 1)
        s.frameReady l (bytesOf (gcmCrypt ks (natsOf iv) (natsOf ct))) sl f.short
      else if !f.good then (s.raiseDp (Reg.LCY_EVENT.AAD_UNKNOWN l)).frameReady l ct sl true
      else
        let j0 := bytesOf (aesEncK ks (natsOf (iv ++ [0#8, 0#8, 0#8, 1#8])))
        let tg := List.zipWith (· ^^^ ·) (List.zipWith (· ^^^ ·) want j0) tag
        let s := (s.raiseDp (Reg.LCY_EVENT.TAG_FAIL l)).modFrm l (·.evidence 9 true 1)
        let s := s.modLcy l fun y => { y with fails := y.fails + 1, lastFail := some ⟨tg, fn, phase, slot, 0⟩ }
        (if 2 ≤ (s.lcy l).fails then s.searchStart l else s).frameReady l ct sl true

/-- The oldest released frame whose next head has been read leaves the cipher stage (R108, R146, R147). -/
def State.tagCheck (s : State) (l : Nat) : State :=
  match (s.ln l).rxq with
  | [] => s
  | f :: fs =>
    match f.succ with
    | none => s
    | some (good, tag) =>
      if f.stage ≠ 3 then s
      else
        let s := s.modLn l fun x => { x with rxq := fs }
        let ct := bitsBytes (1040 * fmtSlots f.fmt) (f.info.take (8320 * fmtSlots f.fmt))
        if !s.checksTags l then s.frameReady l ct (fmtSlots f.fmt) f.short
        else
          let s := s.raiseDpIf (!good) (Reg.FRM_EVENT.TAG_MISSING l)
          if !f.good && f.fn.isNone then (s.raiseDp (Reg.LCY_EVENT.AAD_UNKNOWN l)).frameReady l ct (fmtSlots f.fmt) true
          else if !good then s.frameReady l ct (fmtSlots f.fmt) true
          else s.tagTest l f tag ct

/-- The cipher's status at a tick (R42), and the time its key has been in force, muted or not (R142).  DESIGN CHOICE: the time stands still
while LCY_CTL.EN is 0. -/
def State.lcyTick (s : State) (l : Nat) (again : Bool) : State :=
  let valid := s.keyValid (Reg.LCY_TX_KEY l) (s.lcy l).txPhase
  let on := s.shBit (Reg.LCY_CTL.EN l)
  let s := s.modLcy l fun y => { y with inForce := if !valid then 0 else if on then y.inForce + 1 else y.inForce, rotNext := if valid then y.rotNext else 0 }
  let s := s.searchTick l again
  let x := s.lcy l
  let s := ((s.setFld (Reg.LCY_STATUS.TX_RUN l) (b2n x.running)).setFld (Reg.LCY_STATUS.MUTE_CAUSE l) x.cause).setFld (Reg.LCY_STATUS.SEARCH l) (b2n x.search.isSome)
  let s := ((s.setFld (Reg.LCY_STATUS.PIPES_OK l) (s.pipesOk l)).setFld (Reg.LCY_STATUS.PIPES_NEED l) (s.pipesNeed l)).setFld
    (Reg.LCY_STATUS.TEST_PIPE l) (x.out.getD 0x1F)
  (s.setReg64 (Reg.LCY_KEY_AGE_LO l) (Reg.LCY_KEY_AGE_HI l) x.age).setFld (Reg.LCY_RX_KEY.PHASE l) x.rxPhase

/-! ### Meanings -/

/-- KEY_AGE_LIMIT (R143). -/
def execKeyAgeLimit (l : Nat) (s : State) : Host.Outcome State Fault Refusal := .next (s.cmdRun (·.keyAge l))

/-- ROT_DUE (R142). -/
def execRotDue (l : Nat) (s : State) : Host.Outcome State Fault Refusal := .next (s.cmdLive (·.rotDue l))

/-- EPOCH_FOUND (R149). -/
def execEpochFound (l : Nat) (s : State) : Host.Outcome State Fault Refusal := .next (s.cmdLive (·.epochFound l))

/-- EPOCH_NOT_FOUND (R150). -/
def execEpochNotFound (l : Nat) (s : State) : Host.Outcome State Fault Refusal := .next (s.cmdLive (·.epochMissed l))

/-- PIPELINE_ROTATE (R152). -/
def execPipelineRotate (l : Nat) (s : State) : Host.Outcome State Fault Refusal := .next (s.cmdRun (·.pipeRotate l))

/-- PIPE_FAIL (R153). -/
def execPipeFail (l : Nat) (pass : Bool) (s : State) : Host.Outcome State Fault Refusal := .next (s.cmdLive (·.pipeTest l pass))

end Sys2Proof.Machine
end

