-- ==== Sys2Proof/Machine/Rxp.lean ====
section
/-! DEFINITION. The receive DSP as the rest of the device sees it: acquisition, locks, dispersion, monitors, paired mode
(chapter 8: R251-R285). -/

namespace Sys2Proof.Machine

def State.rxp (s : State) (l : Nat) : RxpSt := (s.ln l).rxp
def State.modRxp (s : State) (l : Nat) (f : RxpSt → RxpSt) : State := s.modLn l fun x => { x with rxp := f x.rxp }
def State.dsp (s : State) (l : Nat) : DspSt := (s.ln l).dsp
def State.modDsp (s : State) (l : Nat) (f : DspSt → DspSt) : State := s.modLn l fun x => { x with dsp := f x.dsp }

/-- A line's field of GLB_LINE_STATUS (R44). -/
def lineState (l : Nat) : Fr := ⟨Reg.GLB_LINE_STATUS, 2 * l + 1, 2 * l⟩

/-- Whether the published enables run a line engine: one that has been disabled runs again only once it has gone down (R45). -/
def State.engOn (s : State) (l : Nat) : Bool := s.shBit ⟨Reg.GLB_LINE_CTL, 4 * l, 4 * l⟩ && (s.ln l).offAt.isNone

/-- Whether a line engine is up and a direction (1 transmitter, 2 receiver) is enabled, as published (R44, R45). -/
def State.sideOn (s : State) (l d : Nat) : Bool :=
  s.fld (lineState l) == 2 && s.engOn l && s.shBit ⟨Reg.GLB_LINE_CTL, 4 * l + d, 4 * l + d⟩ && !s.down

/-- Whether the line's transmitter / receiver works. -/
def State.txOn (s : State) (l : Nat) : Bool := s.sideOn l 1
def State.rxOn (s : State) (l : Nat) : Bool := s.sideOn l 2

/-! ### Dispersion (R256-R260) -/

/-- The spread of a dispersion of 1 ps/nm in symbol periods, as numerator and denominator (R257). -/
def State.spreadUnit (s : State) (l : Nat) : Nat × Nat :=
  (299792458 * (fmtRs (s.rxFmtW l) * 125000000) ^ 2, 1000 * (s.sh (Reg.RXP_CARRIER.FREQ l) * 100000000) ^ 2)

/-- The spread of a dispersion in symbol periods, rounded down. -/
def State.spread (s : State) (l : Nat) (d : Int) : Nat := let u := s.spreadUnit l; d.natAbs * u.1 / u.2

/-- D_max in ps/nm (R257). -/
def State.cdMax (s : State) (l : Nat) : Nat := let u := s.spreadUnit l; if u.1 = 0 then 0 else 16384 * u.2 / u.1

/-- A dispersion kept within ±D_max. -/
def State.cdClip (s : State) (l : Nat) (d : Int) : Int := clampI (-(s.cdMax l : Int)) (s.cdMax l) d

/-- CD_SET. -/
def State.cdSet (s : State) (l : Nat) : Int := sx 20 (s.sh (Reg.RXP_CD_SET.CD_SET l))

/-- The range a scan covers (R258). -/
def State.cdRange (s : State) (l : Nat) : Int × Int :=
  if s.sh (Reg.RXP_CD_CFG.CD_MODE l) = 2 then
    let w : Int := s.sh (Reg.RXP_CD_WIN.CD_WIN l)
    (s.cdClip l (s.cdSet l - w), s.cdClip l (s.cdSet l + w))
  else (-(s.cdMax l : Int), s.cdMax l)

/-- How many coarse candidates a scan has, 8 symbol periods apart (R258). -/
def State.scanCount (s : State) (l : Nat) : Nat :=
  let u := s.spreadUnit l
  let r := s.cdRange l
  if s.sh (Reg.RXP_CD_CFG.CD_MODE l) = 2 then (r.2 - r.1).toNat * u.1 / (8 * u.2) + 1 else 4097

/-- The ticks a scan takes: 16 candidates a tick, 8 symbol periods apart, then 17 fine ones (R258). -/
def State.scanTicks (s : State) (l : Nat) : Nat :=
  (s.scanCount l + 15) / 16 + 2

/-- The reach R of an applied dispersion (R260). -/
def State.cdReach (s : State) (l : Nat) : Nat := let u := s.spreadUnit l; 2 * (5 * ((s.rxp l).da.natAbs * u.1) / (8 * u.2)) + 1

/-! ### The signal path as the line sets it (R251) -/

/-- What the registers and the framer set of a line's signal path. -/
def State.dspCfg (s : State) (l : Nat) : DspCfg :=
  let x := s.rxp l
  { rs := fmtRs (s.rxFmtW l), fmt := s.rxFmtW l, compat := (s.ln l).compatRx, skew := (List.range 4).map fun c => sx 13 (s.sh (Reg.RXP_SKEW.SKEW l c)),
    clkBw := s.sh (Reg.RXP_CLK_CFG.CLK_BW l), da := x.da, unit := s.spreadUnit l, h := (s.cdReach l - 1) / 2, dither := s.shBit (Reg.RXP_CTL.DITHER_RM l),
    ntaps := s.sh (Reg.RXP_EQ_CTL.NTAPS l), muAcq := s.sh (Reg.RXP_EQ_CTL.MU_ACQ l), muTrk := s.sh (Reg.RXP_EQ_CTL.MU_TRK l),
    joint := s.shBit (Reg.RXP_CTL.PH_JOINT l), phWin := s.sh (Reg.RXP_CR_CFG.PH_WIN l), eqOn := decide (4 ≤ x.state), inFrame := !(s.ln l).frm.oof, dd := x.dd }

/-- Corrected samples of an ADC enter the signal path of an enabled receiver. -/
def State.dspFeed (s : State) (l a : Nat) (v : List (Int × Bool)) : State := if s.rxOn l then s.modDsp l fun x => x.feed (s.dspCfg l) a v else s

/-- The link that nonlinearity compensation works through; LNA's in paired mode (R271, R272). -/
def State.nlcCfg (s : State) (l : Nat) : NlcCfg :=
  { steps := s.sh (Reg.RXP_CTL.NLC_STEPS l), spans := s.sh (Reg.RXP_NLC_LINK_0.SPANS l), km := s.sh (Reg.RXP_NLC_LINK_0.SPAN_KM l),
    gamma := s.sh (Reg.RXP_NLC_LINK_1.GAMMA l), alpha := s.sh (Reg.RXP_NLC_LINK_1.ALPHA l), launch := sx 8 (s.sh (Reg.RXP_NLC_LINK_1.LAUNCH l)), xi := s.sh (Reg.RXP_NLC_XI.XI l) }

/-- What is in force for the frame that begins at a head (R271-R274, R284): LNA's link in paired mode. -/
def State.frameSet (s : State) (l mode : Nat) (shift : Int) : FrameSet :=
  { scale := s.sh (Reg.RXP_METRIC.SCALE l), muLoop := s.sh (Reg.RXP_EQ_CTL.MU_LOOP l), trust := s.shBit (Reg.RXP_CTL.LOOP_TRUST l), path := s.dspCfg l,
    nlc := s.nlcCfg (if mode = 2 then 0 else l), shift := shift }

/-- A carrier's place in paired mode, in bins of a block of `n` symbols (R272). -/
def State.pairShift (s : State) (l n : Nat) : Int :=
  let df : Int := (s.sh (Reg.RXP_CARRIER.FREQ 0) : Int) - s.sh (Reg.RXP_CARRIER.FREQ 1)
  let k := roundDiv (2 * df * n) (5 * max 1 (fmtRs (s.rxFmtW 0)))
  if l = 0 then k else -k

/-- Step 8 on a block of 73,728 symbols that begins 16,384 before a frame, under what is in force for it; the frame's 40,960 come out.  With
XI = 0 they pass unchanged (R251, R271, R272).  DEDUCED: the field of paired mode takes the frame's own D_a. -/
def FrameSet.step8 (c : FrameSet) (mode : Nat) (b o : List Smp) : Array Smp :=
  let mid (b : List Smp) : Array Smp := ((b.drop 16384).take 40960).toArray
  if mode = 0 then mid b
  else
    let z := mid (c.nlc.run c.path.unit c.path.da c.path.h (if mode = 1 then none else some (o, c.shift)) b)
    if c.nlc.xi = 0 then z else pilotFix c.path.compat z

/-- The other line's symbols of the moment of the 73,728 around a frame that begins at symbol `n`, in paired mode (R272).  DEDUCED: both lines'
newest symbols are of one moment. -/
def State.partner (s : State) (l mode n : Nat) : List Smp :=
  if mode ≠ 2 then []
  else let o := s.dsp (1 - l); o.symsAt ((o.symN : Int) - (s.dsp l).symN + n - 16384) 73728

/-- The symbols around a frame. -/
def DspSt.around (x : DspSt) (n : Nat) : List Smp := x.symsAt ((n : Int) - 16384) 73728

/-! ### The scan (R258) -/

/-- Candidate `i` of a scan moved by `j` symbol periods, in ps/nm: a full scan begins at −16,384 symbol periods. -/
def State.scanCand (s : State) (l i : Nat) (j : Int) : Int :=
  let u := s.spreadUnit l
  let r := s.cdRange l
  let base : Int := if s.sh (Reg.RXP_CD_CFG.CD_MODE l) = 2 then r.1 * u.1 else -16384 * (u.2 : Int)
  clampI r.1 r.2 (roundDiv (base + (8 * (i : Int) + j) * u.2) (max 1 u.1))

/-- The best of some scores, the earlier on a tie. -/
def bestScore (xs : List Nat) : Nat := (xs.zipIdx.foldl (fun (a : Nat × Nat) p => if a.1 < p.1 then p else a) (xs.getD 0 0, 0)).2

/-- The second-best coarse candidate, 64 symbol periods or more from the best. -/
def secondScore (xs : List Nat) (b : Nat) : Nat :=
  ((xs.zipIdx.filter fun p => decide (8 ≤ absDiff p.2 b)).foldl (fun (a : Option (Nat × Nat)) p => match a with
    | some q => if q.1 < p.1 then some p else some q
    | none => some p) none).map (·.2) |>.getD b

/-- A tick of the scan: the next 16 coarse candidates, then the fine ones. -/
def State.scanTick (s : State) (l : Nat) : State :=
  let x := s.dsp l
  let n := s.scanCount l
  let u := s.spreadUnit l
  if x.scan.length < n then
    let k := min 16 (n - x.scan.length)
    s.modDsp l fun y => { y with scan := y.scan ++ (List.range k).map fun i => y.score u (s.scanCand l (x.scan.length + i) 0) }
  else
    let k := min 16 (17 - x.fine.length)
    let b := bestScore x.scan
    s.modDsp l fun y => { y with fine := y.fine ++ (List.range k).map fun i => y.score u (s.scanCand l b ((x.fine.length + i : Nat) - 8)) }

/-! ### Acquisition (R275-R278) -/

/-- Count an acquisition (`c` = 0) or an attempt (1) of a line (chapter 8, Registers). -/
def State.acqTally (s : State) (l c : Nat) (b : Bool) : State := if b then s.count (miscCtr (18 + 8 * l) c) 1 else s

/-- Enter an acquisition state; the signal path starts afresh as far as the state needs (R278). -/
def State.acqGo (s : State) (l st : Nat) : State :=
  let s := (s.acqTally l 0 (st == 1)).acqTally l 1 (st == 3)
  let s := s.modRxp l fun x => { x with state := st, ticks := 0, light := 0, calm := 0, dd := x.dd && st == 7, ddRun := if st = 7 then x.ddRun else 0 }
  let s := s.modDsp l fun x => x.restart st false
  let s := if st = 4 then s.modDsp l fun x => { x with taps := EqTaps.spike (s.sh (Reg.RXP_EQ_CTL.NTAPS l)) } else s
  if st = 2 then s.modRxp l fun x => { x with scanned := true, scanLeft := if s.sh (Reg.RXP_CD_CFG.CD_MODE l) = 1 then 0 else s.scanTicks l } else s

/-- Acquisition has failed: ACQ_FAIL, and again from POWER (R275). -/
def State.acqFail (s : State) (l : Nat) : State :=
  ((s.raise (Reg.RXP_EVENT.ACQ_FAIL l)).modRxp l fun x => { x with attempt := false }).acqGo l 1

/-- A state's budget in ticks (R275). -/
def acqBudget (st : Nat) : Option Nat := [none, none, some 2000, some 1000, some 3000, some 2000, some 1000, none].getD st none

/-- An acquisition state's criterion is met: the next one begins (R275).  A scan ends with its best and second-best
candidates. -/
def State.acqDone (s : State) (l : Nat) : State :=
  let x := s.rxp l
  if !s.rxOn l then s
  else match x.state with
  | 0 => if (s.ln l).tileLock && (s.ln l).rxRelock.isNone then s.acqGo l 1 else s
  | 1 => if 120 ≤ x.light then (s.modRxp l fun x => { x with attempt := false }).acqGo l 2 else s
  | 2 =>
    if x.scanLeft ≠ 0 then s
    else if s.sh (Reg.RXP_CD_CFG.CD_MODE l) = 1 then
      if s.cdClip l (s.cdSet l) ≠ s.cdSet l then (s.modRxp l fun x => { x with da := s.cdClip l (s.cdSet l) }).acqFail l
      else (s.modRxp l fun x => { x with da := s.cdSet l, scanned := false }).acqGo l 3
    else
      let y := s.dsp l
      let b := bestScore y.scan
      (s.modRxp l fun x => { x with da := s.scanCand l b ((bestScore y.fine : Nat) - 8), second := s.scanCand l (secondScore y.scan b) 0 }).acqGo l 3
  | 3 => if x.clkLock then s.acqGo l 4 else s
  | 4 => if 16 ≤ x.calm then s.acqGo l 5 else s
  | 5 => if x.freqLock then s.acqGo l 6 else s
  | 6 => if (s.frm l).oof then s else ((s.acqGo l 7).modRxp l fun x => { x with acquired := 0, cds := [] }).raise (Reg.RXP_EVENT.ACQ_DONE l)
  | _ => s

/-- A state's budget has passed (R275). -/
def State.acqExpiry (s : State) (l : Nat) : State :=
  let x := s.rxp l
  match acqBudget x.state with
  | none => s
  | some b =>
    if x.ticks < b then s
    else if x.attempt then s.acqFail l
    else
      let s := s.modRxp l fun x => { x with attempt := true }
      if s.sh (Reg.RXP_CD_CFG.CD_MODE l) = 1 then (s.modRxp l fun x => { x with da := s.cdClip l (s.cdSet l) }).acqGo l 3
      else if x.scanned then (s.modRxp l fun x => { x with da := x.second }).acqGo l 3
      else s.acqGo l 2

/-- A restart becomes due; the earliest restart point wins (R278). -/
def State.acqRestart (s : State) (l k : Nat) : State :=
  s.modRxp l fun x => { x with restart := some (match x.restart with | some j => min j k | none => k) }

/-- Loss of lock or of frame restarts acquisition (R278). -/
def State.lockLoss (s : State) (l : Nat) : State :=
  let x := s.rxp l
  let f := s.frm l
  if x.state ≠ 7 ∨ x.restart.isSome then s
  else if 1024 * 40960 ≤ f.noLock then (s.acqRestart l 2).raise (Reg.RXP_EVENT.LOCK_LOSS l)
  else if 8192 * 40960 ≤ f.noFrame ∧ x.lock then (s.acqRestart l 3).raise (Reg.RXP_EVENT.LOCK_LOSS l)
  else s

/-- The framer starts afresh: out of frame, no candidates (R109, R111).  DESIGN CHOICE: a follow that has been decided stays pending, and
its heads are counted on after alignment; R120 does not say. -/
def FrmSt.unalign (x : FrmSt) : FrmSt := { x with oof := true, hist := [], cands := [], bad := 0, prevGood := none, disagree := 0, hadMf := false, noFrame := 0, tti := [] }

/-- The framer loses alignment: the received frame number that ran stops here (R112). -/
def State.frmLost (s : State) (l : Nat) : State :=
  s.modFrm l fun x => { x.unalign with lostAt := if x.hadMf then some (s.ln l).rxSym else x.lostAt }

/-- The restart that is due is applied at a tick boundary (R278). -/
def State.acqApply (s : State) (l : Nat) : State :=
  let x := s.rxp l
  match x.restart with
  | none => s
  | some k =>
    if !s.rxOn l || (k == 2 && (s.ln l).rxRelock.isSome) then s
    else
      let s := (s.setFld (Reg.RXP_CTL.ACQ_RESTART l) 0).modRxp l fun x => { x with restart := none, attempt := false, scanned := false, clkLock := x.clkLock && k == 3 }
      let s := ((s.frmLost l).modLn l fun x => { x with oom := true }).modRxp l fun x => { x with dd := false, ddRun := 0, eqConv := false }
      let s := (s.modFrm l fun f => { f with noLock := 0 }).modDsp l (·.restart (k + 1) true)
      let s := (s.acqTally l 0 (k != 0)).acqTally l 1 (k == 3)
      if k = 2 ∧ s.cdClip l x.da ≠ x.da then (s.modRxp l fun y => { y with da := s.cdClip l x.da }).acqFail l
      else s.acqGo l (k + 1)

/-! ### Tick (R252-R255, R268, R272, R277, R280, R282) -/

/-- The locks' counts of one tick (R255, R268). -/
def RxpSt.locks (x : RxpSt) (clk cost : Bool) (fofs residual : Int) : RxpSt :=
  let low := if clk then min 16 (x.clkLow + 1) else 0
  let high := if clk then 0 else min 16 (x.clkHigh + 1)
  let fs := (fofs :: x.freqs).take 16
  let near := decide ((fs.foldl max fofs - fs.foldl min fofs).natAbs ≤ 160)
  { x with clkLow := low, clkHigh := high, clkLock := if 16 ≤ low then true else if 16 ≤ high then false else x.clkLock,
           freqs := fs, freqLock := decide (5 ≤ x.state) && decide (16 ≤ fs.length) && near && decide (fofs.natAbs ≤ 22000),
           cost := cost, fofs := fofs, residual := residual }

/-- LOCK (R277). -/
def State.lockNow (s : State) (l : Nat) : Bool :=
  let x := s.rxp l
  x.clkLock && x.freqLock && (if (s.frm l).oof then x.cost else x.eqConv)

/-- What paired mode requires (R272). -/
def State.pairOk (s : State) : Bool :=
  let side (l : Nat) : Bool := s.shBit (Reg.RXP_CTL.NLC_PAIR l) && s.sh (Reg.RXP_CTL.NLC_STEPS l) != 0 && (s.rxp l).lock && !(s.frm l).oof && s.rxOn l
  let rs := fmtRs (s.rxFmtW 0)
  let df := absDiff (s.sh (Reg.RXP_CARRIER.FREQ 0)) (s.sh (Reg.RXP_CARRIER.FREQ 1))
  let a := s.fld (Reg.RXP_MON_CD_AVG.CD_AVG 0)
  let b := s.fld (Reg.RXP_MON_CD_AVG.CD_AVG 1)
  side 0 && side 1 && rs == fmtRs (s.rxFmtW 1) && decide (rs * 125 ≤ df * 100) && decide (2 * df * 100 ≤ 3 * rs * 125) &&
    a != 0x80000 && b != 0x80000 &&
    decide (400 * (sx 20 a - sx 20 b).natAbs ≤ max 8000 (s.sh (Reg.RXP_PAIR_CFG.CD_TOL 0) * max (sx 20 a).natAbs (sx 20 b).natAbs))

/-- Paired mode is evaluated (R272). -/
def State.pairTick (s : State) : State :=
  let s := s.modRxp 0 fun x => { x with pairedPub := x.paired }
  if s.pairOk then s.modRxp 0 fun x => { x with pairRun := min 1000 (x.pairRun + 1) }
  else if (s.rxp 0).paired then
    ((s.modRxp 0 fun x => { x with pairRun := 0, paired := false }).raise (Reg.RXP_EVENT.PAIR_DROP 0)).raise (Reg.RXP_EVENT.PAIR_DROP 1)
  else s.modRxp 0 fun x => { x with pairRun := 0 }

/-- The conditions have held for 1,000 ticks (R272). -/
def State.pairOn (s : State) : State :=
  if 1000 ≤ (s.rxp 0).pairRun ∧ (s.rxp 0).paired = false then
    ((s.modRxp 0 fun x => { x with paired := true }).raise (Reg.RXP_EVENT.PAIR_ON 0)).raise (Reg.RXP_EVENT.PAIR_ON 1)
  else s

/-- The mode of nonlinearity compensation that a frame head adopts (R271, R272). -/
def State.nlcMode (s : State) (l : Nat) : Nat :=
  if (s.rxp 0).pairedPub then 2 else if s.sh (Reg.RXP_CTL.NLC_STEPS l) != 0 then 1 else 0

/-- A mean, rounded. -/
def meanNat (xs : List Nat) : Nat := if xs.isEmpty then 0 else (2 * xs.foldl (· + ·) 0 + xs.length) / (2 * xs.length)

/-- A linear SNR in 2^-16 as 1/16 dB, unsigned 16 bits. -/
def snrReg (v : Nat) : Nat := if v = 0 then 0 else min 0xFFFF (logRatio 160 v 65536).toNat

/-- The monitors of a tick (R280). -/
def State.rxpMonitors (s : State) (l pwr : Nat) : State :=
  let x := s.rxp l
  let y := s.dsp l
  let inF := !(s.frm l).oof && !x.frames.isEmpty
  let dd := inF && x.dd
  let s := s.publish (Reg.RXP_MON_SNR.SNR l) (if inF then snrReg (meanNat (x.frames.map (·.1))) else 0)
  let s := s.publish (Reg.RXP_MON_EVM.EVM l) (if dd then meanNat (x.frames.map (·.2.1)) else 0xFFFF)
  let s := (List.range 8).foldl (fun s i => s.publish (Reg.RXP_MON_SLICE.SNR l i) (if dd then snrReg (meanNat (x.frames.map fun f => f.2.2.getD i 0)) else 0)) s
  let s := s.publish (Reg.RXP_MON_FRAMES.N l) (min 15 x.frames.length)
  let cd := x.da + x.residual
  let cds := if x.clkLock then (cd :: x.cds).take 1000 else x.cds
  let s := s.publish (Reg.RXP_MON_CD.CD l) (if x.clkLock then twos 20 cd else 0x80000)
  let s := s.publish (Reg.RXP_MON_CD_AVG.CD_AVG l) (if x.state = 7 ∧ 1000 ≤ cds.length then twos 20 (roundDiv (cds.foldl (· + ·) 0) cds.length) else 0x80000)
  let s := s.publish (Reg.RXP_MON_DGD.DGD l) (if x.eqConv then y.taps.dgd (fmtRs (s.rxFmtW l)) else 0xFFFF)
  let s := s.publish (Reg.RXP_MON_PDL.PDL l) (if x.eqConv then y.taps.pdl else 0xFFFF)
  let s := s.publish (Reg.RXP_MON_FOFS.FOFS l) (if x.freqLock then twos 16 x.fofs else 0x8000)
  let s := s.publish (Reg.RXP_MON_CLKOFS.CLKOFS l) (if x.clkLock then twos 32 y.clkOfs else 0x80000000)
  let s := s.publish (Reg.RXP_MON_PWR.PWR l) pwr
  s.modRxp l fun x => { x with cds := cds, frames := [], snrOk := inF }

/-- The counts of R282, over the monitors as published. -/
def State.rxpLimits (s : State) (l : Nat) : State :=
  let deb := s.sh (Reg.RXP_MON_LIM.DEB l)
  let snr := s.fld (Reg.RXP_MON_SNR.SNR l)
  let dgd := s.fld (Reg.RXP_MON_DGD.DGD l)
  let lo := (s.rxp l).snrOk && decide (snr < s.sh (Reg.RXP_MON_LIM.SNR_MIN l))
  let hi := dgd != 0xFFFF && decide (8 * s.sh (Reg.RXP_MON_LIM.DGD_MAX l) < dgd)
  s.modRxp l fun x =>
    let x := { x with snrRun := if lo then min 15 (x.snrRun + 1) else 0, snrCalm := if lo then 0 else min 15 (x.snrCalm + 1),
                      dgdRun := if hi then min 15 (x.dgdRun + 1) else 0, dgdCalm := if hi then 0 else min 15 (x.dgdCalm + 1) }
    { x with snrUp := x.snrUp && decide (x.snrCalm < deb), dgdUp := x.dgdUp && decide (x.dgdCalm < deb) }

/-- SNR_LOW and DGD_HIGH (R282). -/
def State.snrLow (s : State) (l : Nat) : State :=
  let deb := s.sh (Reg.RXP_MON_LIM.DEB l)
  let x := s.rxp l
  let s := if deb ≤ x.snrRun ∧ 1 ≤ x.snrRun ∧ x.snrUp = false then (s.modRxp l fun x => { x with snrUp := true }).raise (Reg.RXP_EVENT.SNR_LOW l) else s
  if deb ≤ x.dgdRun ∧ 1 ≤ x.dgdRun ∧ x.dgdUp = false then (s.modRxp l fun x => { x with dgdUp := true }).raise (Reg.RXP_EVENT.DGD_HIGH l) else s

/-- Whether a residual exceeds 4 symbol periods of spread (R259). -/
def State.residualBig (s : State) (l : Nat) (d : Int) : Bool := decide (4 * (s.spreadUnit l).2 < d.natAbs * (s.spreadUnit l).1)

/-- The receive DSP's part of a tick: what its signal path shows is judged, then the path's tick ends. -/
def State.rxpTick (s : State) (l : Nat) : State :=
  if !s.rxOn l then
    ((s.modRxp l fun x => { x with state := 0, clkLock := false, freqLock := false, eqConv := false, lock := false, dd := false, frames := [] }).rxpMonitors l (s.dsp l).power).modDsp l
      (·.restart 1 false)
  else
    let x0 := s.rxp l
    let y := s.dsp l
    let fofs := y.fofs (fmtRs (s.rxFmtW l))
    let res := y.taps.residual (s.spreadUnit l)
    let s := s.modRxp l (·.locks y.clockOk y.costOk fofs res)
    let s := s.raiseIf (decide (22000 < fofs.natAbs) && x0.freqLock) (Reg.RXP_EVENT.FREQ_RANGE l)
    let s := s.raiseIf y.singular (Reg.RXP_EVENT.SINGULAR l)
    let lit := decide (y.power ≤ s.sh (Reg.FRM_LOS_THR.LOS_THR l))
    let s := if x0.state = 2 ∧ x0.scanLeft ≠ 0 then s.scanTick l else s
    let s := s.modRxp l fun x =>
      { x with ticks := x.ticks + 1, light := if lit || decide (100 ≤ x.light) then min 120 (x.light + 1) else 0, calm := if y.costOk && !y.singular then min 16 (x.calm + 1) else 0,
               scanLeft := if x.state = 2 then x.scanLeft - 1 else x.scanLeft, resRun := if s.residualBig l res then min 1000 (x.resRun + 1) else 0,
               lock := s.lockNow l }
    (((s.acqApply l).rxpLimits l).rxpMonitors l y.power).modDsp l DspSt.tick

/-- The residual has stayed high: D_a moves at the next head (R259). -/
def State.cdStep (s : State) (l : Nat) : State :=
  let x := s.rxp l
  if s.shBit (Reg.RXP_CTL.CD_TRACK l) && decide (1000 ≤ x.resRun) && s.rxOn l then
    (s.modRxp l fun x => { x with cdStep := some x.residual, resRun := 0 }).raise (Reg.RXP_EVENT.CD_STEP l)
  else s

/-- The DSP's status at the phase 2 latch (R42). -/
def State.rxpLatch (s : State) (l : Nat) : State :=
  let x := s.rxp l
  let s := ((s.setFld (Reg.RXP_STATUS.ACQ_STATE l) x.state).setFld (Reg.RXP_STATUS.CLK_LOCK l) (b2n x.clkLock)).setFld (Reg.RXP_STATUS.EQ_CONV l) (b2n x.eqConv)
  let s := ((s.setFld (Reg.RXP_STATUS.FREQ_LOCK l) (b2n x.freqLock)).setFld (Reg.RXP_STATUS.LOCK l) (b2n x.lock)).setFld (Reg.RXP_STATUS.POL_SWAP l) (b2n x.polSwap)
  ((s.setFld (Reg.RXP_STATUS.NLC_MODE l) x.nlc).setFld (Reg.RXP_STATUS.DD_ACTIVE l) (b2n x.dd)).setFld (Reg.RXP_STATUS.ATTEMPT l) (b2n x.attempt)

/-! ### Heads (R259, R264, R266, R283) -/

/-- The monitors of the frame that has ended, under what was in force for it: SNR in 2^-16, EVM in 0.01 %, slices in 2^-16; none before its
first symbol (R280). -/
def State.frameMons (s : State) (l : Nat) (p : Nat × Nat) : Nat × Nat × List Nat :=
  let y := s.dsp l
  let c := (s.rxp l).now
  if y.out.isEmpty then (0, 0xFFFE, List.replicate 8 0)
  else frameMonitors c.path.fmt c.path.compat (y.frame p.1) (c.step8 p.2 (y.around p.1) (s.partner l p.2 p.1))

/-- The gains of the data symbols and the references that decisions and errors work with, from the frame that has ended (R263, R269). -/
def State.takeGains (s : State) (l n : Nat) : State :=
  let y := s.dsp l
  if y.out.isEmpty then s
  else
    let zs := y.frame n
    let compat := (s.rxp l).now.path.compat
    let g (pol : Nat) (old : Cx) : Cx := let k := (dataGain compat pol zs).1; if k.pow = 0 then old else k
    let r (pol : Nat) (old : Cx) : Cx := let k := (refFit compat pol zs).1; if k.pow = 0 then old else k
    s.modDsp l fun y => { y with car := { y.car with gX := g 0 y.car.gX, gY := g 1 y.car.gY, rX := r 0 y.car.rX, rY := r 1 y.car.rY } }

/-- A capture's frame has ended: its values, or CAP_MISS where they are not valid (R283). -/
def State.capTake (s : State) (l : Nat) (m : Nat × Nat × List Nat) (ok : Bool) : State :=
  if !(s.rxp l).capNow then s
  else
    let s := (s.latch (Reg.RXP_CAP_CTL.ARM l) 0).modRxp l fun x => { x with capNow := false }
    if ok then
      let s := ((s.latch (Reg.RXP_CAP_SNR.VALUE l) (snrReg m.1)).latch (Reg.RXP_CAP_EVM.VALUE l) m.2.1).latch (Reg.RXP_CAP_FOFS.VALUE l) (twos 16 (s.rxp l).fofs)
      let s := (List.range 8).foldl (fun s i => s.latch (Reg.RXP_CAP_SLICE.SNR l i) (snrReg (m.2.2.getD i 0))) s
      s.raiseDp (Reg.RXP_EVENT.CAP_DONE l)
    else s.raiseDp (Reg.RXP_EVENT.CAP_MISS l)

/-- The frame that has ended at a head is judged: its monitors, EQ_CONV, the gains, its capture (R277, R280, R283). -/
def State.frameEnd (s : State) (l : Nat) : State :=
  match (s.dsp l).prev with
  | none => s
  | some p =>
    let m := s.frameMons l p
    let s := s.modRxp l fun x => { x with frames := (x.frames ++ [m]).take 16, eqConv := decide (s.sh (Reg.RXP_CR_CFG.LOCK_SNR l) ≤ snrReg m.1) }
    ((s.modRxp l fun x => { x with lock := s.lockNow l }).takeGains l p.1).capTake l m ((s.rxp l).dd && (s.rxp l).freqLock)

/-- The DSP's part of a received head: the frame that has ended, the exchange of the outputs, the dispersion step and the taps' new number that are
due, the frame that begins (R259, R266, R267). -/
def State.rxpHead (s : State) (l : Nat) : State :=
  let s := s.frameEnd l
  let x := s.rxp l
  let da := match x.cdStep with | some d => s.cdClip l (x.da + d) | none => x.da
  let nt := s.sh (Reg.RXP_EQ_CTL.NTAPS l)
  let mode := s.nlcMode l
  let u := s.spreadUnit l
  let held := s.frameSet l mode (s.pairShift l 73728)
  let s := s.modDsp l fun y =>
    let t := if x.swapDue then y.taps.swap else y.taps
    let t := if da = x.da then t else t.undo u (da - x.da)
    let t := if t.xx.length = nt ∨ t.xx = [] then t else t.resize nt
    { y with taps := t, head := y.head.map (· + 40960), prev := y.head.map fun n => (n, mode) }
  s.modRxp l fun x => { x with
    polSwap := x.polSwap != x.swapDue, swapDue := false, nlc := mode, da := da, cdStep := none
    now := { held with path := { held.path with da := da } }, capNow := x.capNext, capNext := false }

/-- Arm a capture; a request that fails R36 is rejected (R283). -/
def State.capArm (s : State) (l : Nat) : State :=
  let f := s.reg64 (Reg.RXP_CAP_FRAME_LO l) (Reg.RXP_CAP_FRAME_HI l)
  if f < (s.ln l).rxFn + 64 then (s.setFld (Reg.RXP_CAP_CTL.ARM l) 0).frameReject (s.ln l).rxFn f
  else ((s.modRxp l fun x => { x with cap := some f }).setFld (Reg.RXP_CAP_CTL.ARM l) 1).accepted l 5

/-- An armed capture is missed (R283). -/
def State.capMiss (s : State) (l : Nat) : State :=
  (((s.modRxp l fun x => { x with cap := none }).latch (Reg.RXP_CAP_CTL.ARM l) 0)).raiseDp (Reg.RXP_EVENT.CAP_MISS l)

/-- Out of frame when the received frame number would have come to the armed capture's: it is missed (R283).  DEDUCED: a number that ran before
alignment was lost is counted on in received symbol periods. -/
def State.capLost (s : State) (l : Nat) : State :=
  match (s.rxp l).cap, (s.frm l).lostAt with
  | some f, some t => if (s.frm l).oof && decide (f ≤ (s.ln l).rxFn + ((s.ln l).rxSym - t) / 40960) then s.capMiss l else s
  | _, _ => s

/-- The armed capture at a received head of frame `fn` (R113, R283): the frame that begins is captured, or missed. -/
def State.capture (s : State) (l fn : Nat) : State :=
  match (s.rxp l).cap with
  | none => s
  | some f =>
    if fn < f then s
    else
      if fn = f ∧ (s.rxp l).dd then s.modRxp l fun x => { x with cap := none, capNext := true } else s.capMiss l

/-! ### Meanings -/

/-- ACQ_STATE_DONE (R275). -/
def execAcqStateDone (l : Nat) (s : State) : Host.Outcome State Fault Refusal := .next (s.cmdLive (·.acqDone l))

/-- ACQ_BUDGET_EXPIRY (R275). -/
def execAcqBudgetExpiry (l : Nat) (s : State) : Host.Outcome State Fault Refusal := .next (s.cmdLive (·.acqExpiry l))

/-- LOCK_LOSS (R278). -/
def execLockLoss (l : Nat) (s : State) : Host.Outcome State Fault Refusal := .next (s.cmdLive (·.lockLoss l))

/-- CD_STEP (R259). -/
def execCdStep (l : Nat) (s : State) : Host.Outcome State Fault Refusal := .next (s.cmdLive (·.cdStep l))

/-- PAIR_ON (R272). -/
def execPairOn (s : State) : Host.Outcome State Fault Refusal := .next (s.cmdLive State.pairOn)

/-- SNR_LOW (R282). -/
def execSnrLow (l : Nat) (s : State) : Host.Outcome State Fault Refusal := .next (s.cmdLive (·.snrLow l))

end Sys2Proof.Machine
end

