-- ==== Sys2Proof/Machine/Side.lean ====
section
/-! DEFINITION. Changes of a line's side at a frame head: formats and the parts of a commit that name frames (R35, R113,
R125, R183, R429). -/

namespace Sys2Proof.Machine

/-! ### Formats -/

/-- The transmit format changes at a head; a new symbol rate makes the tile clock relock (R125, R214, R217). -/
def State.setTxFmt (s : State) (l k : Nat) : State :=
  let rs := fmtRs (s.txFmtW l)
  let s := s.modLn l fun x => { x with txFmt := k }
  if fmtRs (s.txFmtW l) = rs then s
  else s.modLn l fun x => { x with txRelock := some s.tick, relocked := false, relockBad := false }

/-- The receive format changes at a head.  Decisions go on only at a shift that keeps the symbol rate (R264); a new rate
reacquires from CLOCK once the tile clock has relocked, with the frequency estimate it had (R127, R278). -/
def State.setRxFmt (s : State) (l k : Nat) (shift : Bool) : State :=
  let rs := fmtRs (s.rxFmtW l)
  let s := s.modLn l fun x => { x with rxFmt := k }
  let s := s.modFrm l fun x => { x with desc := 0, descRun := 0, follow := none }
  let new := fmtRs (s.rxFmtW l)
  let s := if shift && new == rs then s else s.modRxp l fun x => { x with dd := false, ddRun := 0 }
  if new = rs then s
  else (s.modLn l fun x => { x with rxRelock := some s.tick, relockBad := false, rxRate := new, dsp := x.dsp.retune rs new }).acqRestart l 2

/-! ### The decoder's schedule (R183) -/

/-- The decoder's slot length in symbol periods under a value of FEC_DEC_CFG. -/
def slotLenOf (w : Word) : Nat :=
  let i := Reg.FEC_DEC_CFG.ITER_CAP 0
  let e := Reg.FEC_DEC_CFG.LOOP_EN 0
  2 * getBits w i.hi i.lo * 40960 + (if getBits w e.hi e.lo = 1 then 800000 else 0)

/-- The decoder's slot length in force for a line. -/
def State.slotLen (s : State) (l : Nat) : Nat := slotLenOf (s.shadow.get regReset (Reg.FEC_DEC_CFG l))

/-- The frames discarded when the slot shrinks by `d`: the last that have not left the decoder. -/
def State.slotShrink (s : State) (l d : Nat) : State :=
  let n := min ((d + 40959) / 40960) ((s.ln l).rxq.filter (·.stage < 3)).length
  if d = 0 ∨ n = 0 then s
  else ((s.modLn l fun x => { x with rxq := x.rxq.take (x.rxq.length - n) }).count (miscCtr (19 + 8 * l) 0) n).raiseDp (Reg.FEC_EVENT.SLOT_DISCARD l)

/-! ### Commit parts (R429) -/

/-- The RWO fields of a set of sides. -/
def sideSel (p : Side → Bool) (off : Nat) (f : Fld) : Bool := f.acc == .rwo && p (rwoClass off f.lo).2

/-- Whether an image changes a field of a set of sides. -/
def State.sideChanges (s : State) (v : ImageVals) (p : Side → Bool) : Bool :=
  (s.touched v).any fun off => mergeWord off (sideSel p off) (imgWord v off) (s.reg off) != s.reg off

/-- Whether a commit of these values needs a transmit frame, or a received frame, of a line (R428). -/
def State.needTx (s : State) (v : ImageVals) (l : Nat) : Bool :=
  s.sideChanges v (fun x => x == .tx l || x == .both l) || v.cals.any (·.1 == l)
def State.needRx (s : State) (v : ImageVals) (l : Nat) : Bool := s.sideChanges v fun x => x == .rx l || x == .both l

/-- Lay fields over the registers and over the datapath's copies at once (R41: at the frame head named). -/
def State.layHead (s : State) (v : ImageVals) (sel : Nat → Fld → Bool) : State :=
  (s.touched v).foldl (fun (s : State) off =>
    let m := mergeWord off (sel off) (imgWord v off)
    { s with regs := s.regs.set regReset off (m (s.reg off)), shadow := s.shadow.set regReset off (m (s.shadow.get regReset off)) }) s

/-- COMPAT as an image leaves it. -/
def imgCompat (v : ImageVals) (l : Nat) : Bool :=
  (match imgWord v (Reg.FRM_CTL l) with | some w => w | none => regReset (Reg.FRM_CTL l)).getLsbD 0

/-- Whether the transmit part, or the receive part, of a commit for a line has taken effect. -/
def Commit.txIn (c : Commit) (l : Nat) : Bool := c.doneTx.getD l false || (!c.enTx.getD l false && c.doneTick)
def Commit.rxIn (c : Commit) (l : Nat) : Bool := c.doneRx.getD l false || (!c.enRx.getD l false && c.doneTick)

/-- The fields of both sides show the new value once both parts are in effect. -/
def State.commitBoth (s : State) (l : Nat) : State :=
  match s.commit with
  | none => s
  | some c => if c.txIn l && c.rxIn l then s.layHead c.vals (sideSel (· == .both l)) else s

/-- The transmit part for a line: fields, calendar bank, framing, format.  DESIGN CHOICE: the part takes the bank that is standby at that
head, so that a swap which took effect since the preparation is taken back; R69 and R429 do not say. -/
def State.applyTx (s : State) (v : ImageVals) (l : Nat) : State :=
  let idx := s.fld (Reg.FRM_FMT_SEL.TX_IDX l)
  let s := s.layHead v (sideSel (· == .tx l))
  let s := if v.cals.any (·.1 == l) then s.flipBank l else s
  let s := s.modLn l fun x => { x with compatTx := imgCompat v l }
  let k := s.fld (Reg.FRM_FMT_SEL.TX_IDX l)
  if k = idx ∨ s.fld (lineState l) ≠ 2 then s else s.setTxFmt l k

/-- The receive part for a line: fields, the decoder's schedule, the dispersion search, framing, format. -/
def State.applyRx (s : State) (v : ImageVals) (l : Nat) : State :=
  let cd (s : State) : List Nat := [s.fld (Reg.RXP_CD_CFG.CD_MODE l), s.fld (Reg.RXP_CD_SET.CD_SET l), s.fld (Reg.RXP_CD_WIN.CD_WIN l)]
  let idx := s.fld (Reg.FRM_FMT_SEL.RX_IDX l)
  let len := s.slotLen l
  let old := cd s
  let s := s.layHead v (sideSel (· == .rx l))
  let s := s.slotShrink l (len - s.slotLen l)
  let s := if cd s = old then s else s.acqRestart l 1
  let s := if s.checksTags l then s else s.modLcy l fun y => { y with search := none }
  let s := s.modLn l fun x => { x with compatRx := imgCompat v l }
  let k := s.fld (Reg.FRM_FMT_SEL.RX_IDX l)
  if k = idx ∨ s.fld (lineState l) ≠ 2 then s else s.setRxFmt l k false

/-- At the head of transmit frame `fn`: the pending commit's part, or its abandonment when it is not prepared (R430). -/
def State.commitTx (s : State) (l fn : Nat) : State :=
  match s.commit with
  | none => s
  | some c =>
    if !c.enTx.getD l false || c.doneTx.getD l false || decide (fn < c.actTx.getD l 0) then s
    else if !c.prepared then
      let j := s.judgeSlot c.slot .ok
      if j.1 = 0 ∧ s.needTx j.2.2 l = true then s.abandonCommit 1 else s
    else { s.applyTx c.vals l with commit := some { c with doneTx := c.doneTx.set l true } }.commitBoth l

/-- At the head of received frame `fn` (R113). -/
def State.commitRx (s : State) (l fn : Nat) : State :=
  match s.commit with
  | none => s
  | some c =>
    if !c.enRx.getD l false || c.doneRx.getD l false || decide (fn < c.actRx.getD l 0) then s
    else if !c.prepared then
      let j := s.judgeSlot c.slot .ok
      if j.1 = 0 ∧ s.needRx j.2.2 l = true then s.abandonCommit 1 else s
    else { s.applyRx c.vals l with commit := some { c with doneRx := c.doneRx.set l true } }.commitBoth l

/-! ### Published registers at a frame head (R31, R41) -/

/-- The bits of a line register, by its offset in LNA's layout, that the transmit side adopts; the receive side adopts the
others. -/
def txBits (o : Nat) : Word :=
  if o = Reg.FRM_CTL 0 then 0xFF09#32
  else if o = Reg.FRM_FMT_SEL 0 then 0xF#32
  else if o = Reg.FRM_GCC_CTL 0 then 0xF0001#32
  else if o = Reg.FRM_GCC_TX_BASE 0 ∨ o = Reg.FRM_GCC_TX_WR 0 ∨ (Reg.FRM_FMT 0 0 ≤ o ∧ o < Reg.FRM_FMT 0 16) ∨ (Reg.FRM_TTI_TX 0 0 ≤ o ∧ o < Reg.FRM_TTI_TX 0 16) ∨
      (0x220000 ≤ o ∧ o < 0x240000) ∨ (0x2A0000 ≤ o ∧ o ≠ Reg.LCY_RX_KEY 0 ∧ o ≠ Reg.LCY_RX_EPOCH 0) then 0xFFFFFFFF#32
  else 0#32

/-- What a running line's datapath does on adopting a changed register: `o` is its offset in LNA's layout (R35, R45, R98,
R183, R432: an override takes effect so, whatever the field's class). -/
def State.adoptLine (s : State) (l o : Nat) (old new : Word) : State :=
  if s.fld (lineState l) ≠ 2 then s
  else if o = Reg.FRM_FMT_SEL 0 then
    let s := if getBits old 3 0 = getBits new 3 0 then s else s.setTxFmt l (getBits new 3 0)
    if getBits old 7 4 = getBits new 7 4 then s else s.setRxFmt l (getBits new 7 4) false
  else if o = Reg.FEC_DEC_CFG 0 then s.slotShrink l (slotLenOf old - slotLenOf new)
  else s

/-- One side of a line adopts a published value, which later writes do not touch; COMPAT takes effect for that side (R208). -/
def State.adoptPart (l : Nat) (tx : Bool) (s : State) (a : Adoption) : State :=
  let m := if tx then txBits (localOff a.off) else ~~~(txBits (localOff a.off))
  let old := s.shReg a.off
  let new := { a with mask := a.mask &&& m }.lay old
  let s := { s with shadow := s.shadow.set regReset a.off new }.adoptLine l (localOff a.off) old new
  if a.off ≠ Reg.FRM_CTL l ∨ !a.mask.getLsbD 0 ∨ s.fld (lineState l) ≠ 2 then s
  else s.modLn l fun y => if tx then { y with compatTx := a.val.getLsbD 0 } else { y with compatRx := a.val.getLsbD 0 }

/-- One side of a line adopts what has been published for it: at its frame head, or at the boundary where it has none (R31,
R41). -/
def State.adoptSide (s : State) (l : Nat) (tx : Bool) : State :=
  let x := s.ln l
  (if tx then x.adoptTx else x.adoptRx).foldl (State.adoptPart l tx) (s.modLn l fun y => if tx then { y with adoptTx := [] } else { y with adoptRx := [] })

/-- Adoptions, and one more for what a register now holds in the bits `m` beside what they give it. -/
def State.adoptNext (s : State) (off : Nat) (m : Word) (xs : List Adoption) : List Adoption :=
  let old := xs.foldl (fun w a => if a.off = off then a.lay w else w) (s.shReg off)
  let d := m &&& (s.reg off ^^^ old)
  if d = 0#32 then xs else xs ++ [⟨off, d, s.reg off⟩]

/-- The bits `m` of a line register are published: each side adopts its part at its next head, and both COMPAT. -/
def State.adoptLater (s : State) (l off : Nat) (m : Word) : State :=
  let t := txBits (localOff off)
  s.modLn l fun x => { x with adoptTx := s.adoptNext off (m &&& t) x.adoptTx,
                              adoptRx := s.adoptNext off (m &&& (~~~t ||| if off = Reg.FRM_CTL l then 1#32 else 0#32)) x.adoptRx }

/-- The sides of a line that have no frame heads adopt at the boundary: a transmitter that does not work, a receiver that
does not work or is out of frame. -/
def State.adoptIdle (s : State) (l : Nat) : State :=
  let s := if s.txOn l then s else s.adoptSide l true
  if s.rxOn l && !(s.ln l).frm.oof then s else s.adoptSide l false

/-- The datapath loads every register of a line (R45: at bring-up). -/
def State.adoptAll (s : State) (l : Nat) : State :=
  let here (off : Nat) : Bool := decide (0x200000 + 0x100000 * l ≤ off) && decide (off < 0x300000 + 0x100000 * l)
  let s := ((s.regs.map (·.1) ++ s.shadow.map (·.1)).filter here).foldl State.loadShadow s
  s.modLn l fun x => { x with adoptTx := [], adoptRx := [] }

end Sys2Proof.Machine
end

