-- ==== Sys2Proof/Machine/Frm.lean ====
section
/-! DEFINITION. The framer: alignment, multiframe, defects, overhead, the format shift (chapter 3: R95-R129). -/

namespace Sys2Proof.Machine

def State.frmCount (s : State) (l n : Nat) : State := s.count (miscCtr (20 + 8 * l) n) 1

/-! ### Format descriptors (R99, R102) -/

/-- The descriptor of a table entry. -/
def State.descOf (s : State) (l k : Nat) : Nat := 4096 * k + fmtCheck (s.fmt l k)

/-- Whether a received descriptor matches the local table. -/
def State.descOk (s : State) (l d : Nat) : Bool := fmtValid (s.fmt l (d / 4096)) && d == s.descOf l (d / 4096)

/-! ### The format shift (R121-R128) -/

def FrmSt.setShift (x : FrmSt) (f : ShiftSt → ShiftSt) : FrmSt := { x with shift := f x.shift }
def State.modShift (s : State) (l : Nat) (f : ShiftSt → ShiftSt) : State := s.modFrm l (·.setShift f)
def State.shiftOf (s : State) (l : Nat) : ShiftSt := (s.frm l).shift

/-- Whether a shift is announced or armed on a line. -/
def State.shifting (s : State) (l : Nat) : Bool := (s.shiftOf l).tx != 0 || (s.shiftOf l).rx.isSome

/-- The local checks on the format of a shift, other than lead (R80, R121). -/
def State.shiftFmtOk (s : State) (l k : Nat) : Bool :=
  fmtValid (s.fmt l k) && !(s.ln l).compatTx && !(s.ln l).compatRx && !s.bit (Reg.FRM_CTL.COMPAT l) &&
    !(fmtRs (s.fmt l k) != fmtRs (s.txFmtW l) && twinAny s.reg)

/-- SHIFT_REQUEST: START is written 1 (R121). -/
def State.shiftRequest (s : State) (l : Nat) : State :=
  let k := s.fld (Reg.FRM_SHIFT_CTL.NEW_IDX l)
  let f := s.reg64 (Reg.FRM_SHIFT_ACT_LO l) (Reg.FRM_SHIFT_ACT_HI l)
  let now := (s.ln l).txFn
  let s := s.setFld (Reg.FRM_SHIFT_CTL.START l) 0
  if !s.shiftFmtOk l k || f % 64 != 0 || decide (f < now + 1024) || decide (now + 1048576 < f) || s.shifting l then
    (s.raise (Reg.FRM_EVENT.SHIFT_REJECT l)).frameReject now f
  else (s.modShift l fun x => { x with tx := 1, responder := false, idx := k, act := f, txDone := false, rxDone := false, acks := 0, gone := 0 }).accepted l 3

/-- A shift fails: cause 1 no acknowledgement, 2 collision, 3 the far end withdrew.  DEDUCED: a responder that has committed
by the time its receiver disarms stays committed and switches at its frame, as R125 lays down for a committed transmitter. -/
def State.shiftFail (s : State) (l cause : Nat) : State :=
  (s.modShift l fun x => { x with tx := if x.tx = 1 then 0 else x.tx, cause := cause, acks := 0, txDone := false }).raiseDp (Reg.FRM_EVENT.SHIFT_FAIL l)

/-- SHIFT_WITHDRAW: an announcing transmitter has not committed by F − 256 (R124). -/
def State.shiftWithdraw (s : State) (l : Nat) : State :=
  let x := s.shiftOf l
  if x.tx = 1 ∧ x.act ≤ (s.ln l).txFn + 256 then s.shiftFail l 1 else s

/-- Both sides have switched (R125). -/
def State.shiftDone (s : State) (l : Nat) : State :=
  let x := s.shiftOf l
  if x.txDone && x.rxDone then
    (s.modShift l fun x => { x with txDone := false, rxDone := false }).raiseDp (Reg.FRM_EVENT.SHIFT_DONE l)
  else s

/-- A committed transmitter at the head of frame `fn` (R125). -/
def State.shiftTx (s : State) (l fn : Nat) : State :=
  let x := s.shiftOf l
  if x.tx = 2 ∧ x.act ≤ fn then ((s.modShift l fun x => { x with tx := 0, txDone := true }).setTxFmt l x.idx).shiftDone l else s

/-- An armed receiver at received frame `fn` (R125). -/
def State.shiftRx (s : State) (l fn : Nat) : State :=
  let x := s.shiftOf l
  match x.rx with
  | some f => if f ≤ fn then ((s.modShift l fun x => { x with rx := none, rxDone := true, gone := 0 }).setRxFmt l x.idx true).shiftDone l else s
  | none => s

/-- The frame that a received ACT_MF names (R122). -/
def actFrame (rxFn mf : Nat) : Option Nat :=
  let f := rxFn / 4194304 * 4194304 + 64 * mf
  let f := if f ≤ rxFn then f + 4194304 else f
  if f ≤ rxFn + 2097152 then some f else none

/-- What a good head says of a shift: announced, acknowledged, NEW_FMT, ACT_MF. -/
structure ShiftSeen where
  pend : Bool
  ack : Bool
  fmt : Nat
  mf : Nat
  deriving DecidableEq, Repr

def shiftSeen (b : List Byte) : ShiftSeen := let g := beAt b 9 1; ⟨g.testBit 5, g.testBit 2, beAt b 12 2, beAt b 14 2⟩

/-- The runs of good heads that the handshake counts. -/
def State.shiftRuns (s : State) (l : Nat) (h : ShiftSeen) : State :=
  let own := s.descOf l (s.shiftOf l).idx
  s.modShift l fun x =>
    let armed := match x.rx with | some f => h.pend && h.fmt == own && h.mf == f / 64 % 65536 | none => true
    { x with far := if !h.pend then (0, 0, 0) else if x.far.2.2 ≠ 0 ∧ x.far.1 = h.fmt ∧ x.far.2.1 = h.mf then (h.fmt, h.mf, min 15 (x.far.2.2 + 1)) else (h.fmt, h.mf, 1),
             acks := if x.tx == 1 && h.pend && h.fmt == own && (h.ack || !x.responder) then min 15 (x.acks + 1) else 0,
             gone := if armed then 0 else min 15 (x.gone + 1) }

/-- The third head of a far-end announcement comes fewer than 512 frames before its activation frame, and the receiver is not
armed for it: SHIFT_LATE (R123). -/
def State.shiftLate (s : State) (l fn : Nat) : State :=
  let x := s.shiftOf l
  (actFrame fn x.far.2.1).elim s fun f =>
    s.raiseDpIf (x.far.2.2 == 3 && decide (f < fn + 512) && x.rx != some f) (Reg.FRM_EVENT.SHIFT_LATE l)

/-- The receiver arms for a far-end announcement (R123). -/
def State.shiftArm (s : State) (l fn : Nat) : State :=
  let x := s.shiftOf l
  let k := x.far.1 / 4096
  let mine := x.tx != 0 && x.far.1 == s.descOf l x.idx
  if x.far.2.2 < 3 || x.rx.isSome || !s.descOk l x.far.1 || !s.shiftFmtOk l k || !(mine || (x.tx == 0 && s.shBit (Reg.FRM_CTL.ACCEPT_REMOTE l))) then s
  else match actFrame fn x.far.2.1 with
    | none => s
    | some f =>
      if f < fn + 512 then s
      else if mine then (s.modShift l fun x => { x with rx := some f, rxDone := false, gone := 0 }).accepted l 4
      else
        let a := ((s.ln l).txFn + max 1024 (f - fn) + 63) / 64 * 64
        ((s.modShift l fun x => { x with rx := some f, tx := 1, responder := true, idx := k, act := a, txDone := false, rxDone := false, acks := 0, gone := 0 }).accepted l 4).accepted l 3

/-- The handshake at a good head of received frame `fn` (R122-R126). -/
def State.shiftHead (s : State) (l fn : Nat) (h : ShiftSeen) : State :=
  let x := s.shiftOf l
  let own := s.descOf l x.idx
  -- R126: the higher NEW_FMT withdraws at once.
  let s := if x.tx == 1 && !x.responder && h.pend && h.fmt != own && decide (h.fmt < own) then s.shiftFail l 2 else s
  let s := s.shiftRuns l h
  let x := s.shiftOf l
  -- R125: three heads before F_far without the armed announcement disarm.
  let s := match x.rx with
    | some f =>
      if 3 ≤ x.gone ∧ fn < f then
        let s := s.modShift l fun y => { y with rx := none, gone := 0 }
        if x.responder ∨ x.tx = 2 ∨ x.txDone = true then s.shiftFail l 3 else s
      else s
    | none => s
  let s := (s.shiftLate l fn).shiftArm l fn
  -- R124: three acknowledging heads commit.
  let x := s.shiftOf l
  if x.tx = 1 ∧ 3 ≤ x.acks ∧ (s.ln l).txFn + 256 ≤ x.act then s.modShift l fun y => { y with tx := 2 } else s

/-! ### Defects (R116-R118) -/

/-- FRM_STATUS.DEF: the declared defects that are not masked. -/
def FrmSt.visible (x : FrmSt) : Nat := (idxWhere 11 fun d => x.defects.testBit d && !x.masked d).foldl (fun a d => a + 2 ^ d) 0

/-- The lengths of the set and clear conditions: ticks, symbol periods or heads. -/
def State.defLimits (s : State) (l d : Nat) : Nat × Nat :=
  match d with
  | 0 => (10, 100)
  | 1 => (64 * 40960, 1024 * 40960)
  | 2 => (64 * 40960, 256 * 40960)
  | 3 => (64 * 40960, 1024 * 40960)
  | 4 => (3, 3)
  | 7 => (5, 5)
  | 8 => let m := s.sh (Reg.FRM_DEG_CFG.DEG_M l); (m, m)
  | 9 => (3, 64)
  | 10 => (3, 3)
  | _ => (1, 1)

/-- A defect is declared or cleared: DEF_CHG is raised for each bit of DEF that changes, and the counts of masked
defects go to zero; a change of dLOS is announced as an alarm, of severity 2 as the others are (R325; the severity is a DESIGN CHOICE). -/
def State.defSet (s : State) (l d : Nat) (on : Bool) : State :=
  let old := (s.frm l).visible
  let z : Nat → Nat := fun _ => 0
  let s := if d = 0 then s.alarm 0x0003 2 on l else s
  let s := s.modFrm l fun x =>
    let x := { x with defects := if on then x.defects ||| 2 ^ d else x.defects - (if x.defects.testBit d then 2 ^ d else 0), up := x.up.set z d 0, dn := x.dn.set z d 0 }
    (idxWhere 11 x.masked).foldl (fun y i => { y with up := y.up.set z i 0, dn := y.dn.set z i 0 }) x
  let new := (s.frm l).visible
  (idxWhere 11 fun i => old.testBit i != new.testBit i).foldl (fun s i => s.raiseDp ⟨Reg.FRM_EVENT l, i, i⟩) s

/-- DEFECT_DECLARE: the set condition has lasted (R116). -/
def State.defDeclare (s : State) (l d : Nat) : State :=
  let x := s.frm l
  if 11 ≤ d ∨ x.defects.testBit d = true ∨ x.masked d = true ∨ x.up.get (fun _ => 0) d < (s.defLimits l d).1 then s
  else
    let s := s.defSet l d true
    if d = 0 then s.acqRestart l 0 else if d = 4 then s.modRxp l fun y => { y with dd := false, ddRun := 0 } else s

/-- DEFECT_CLEAR: the clear condition has lasted (R116). -/
def State.defClear (s : State) (l d : Nat) : State :=
  let x := s.frm l
  if 11 ≤ d ∨ x.defects.testBit d = false ∨ x.masked d = true ∨ x.dn.get (fun _ => 0) d < (s.defLimits l d).2 then s else s.defSet l d false

/-- The defects as set when a line engine or its receiver is enabled (R45, R116). -/
def FrmSt.fresh (x : FrmSt) : FrmSt := { x.unalign with lostAt := none, defects := 6, up := [], dn := [], degOof := true }

/-- DEG_INTERVAL_END (R117). -/
def State.degEnd (s : State) (l : Nat) : State :=
  let x := s.frm l
  let d := s.sh (Reg.FRM_DEG_CFG.DEG_INT l)
  if d = 0 ∨ s.tick % d ≠ 0 ∨ s.tick ≤ x.degAt then s
  else
    let bad := decide (s.sh (Reg.FRM_DEG_THR.MANT l) * x.degBits < x.degFlips * 10 ^ s.sh (Reg.FRM_DEG_THR.EXP l))
    let s := if x.degOof then s else s.modFrm l (·.evidence 8 bad 1)
    s.modFrm l fun x => { x with degAt := s.tick, degFlips := 0, degBits := 0, degOof := x.oof }

/-! ### Alignment (R109-R111, R115) -/

/-- Whether the hunter runs (R109). -/
def State.hunts (s : State) (l : Nat) : Bool := s.rxOn l && (s.frm l).oof && (s.rxp l).lock

/-- Whether ρ at a position makes a sync match: `rho` is ρ there, `side` the greatest of the 16 positions beside it, in
2^-16 (R109). -/
def State.syncAt (s : State) (l rho side : Nat) : Bool :=
  decide (s.sh (Reg.FRM_HUNT_CFG.SYNC_THR l) * 256 ≤ rho) && decide (side < rho)

/-- SYNC_MATCH at a position. -/
def State.syncMatch (s : State) (l pos rho side : Nat) : State :=
  if !s.hunts l || !s.syncAt l rho side then s
  else if 4 ≤ (s.frm l).cands.length then s.raiseDp (Reg.FRM_EVENT.HUNT_OVF l)
  else s.modFrm l fun x => { x with cands := x.cands ++ [(if (s.ln l).compatRx then pos else pos + 40960, 0)] }

/-- What a head at a position gives, and whether a match there is of the exchanged polarisations: from the output of step 7 (R109, R251). -/
def State.hear (s : State) (l pos : Nat) (exch : Bool) (h : HeadIn) : HeadIn := (s.dsp l).hear (s.ln l).compatRx exch pos h
def State.exchAt (s : State) (l pos : Nat) (exch : Bool) : Bool := (s.dsp l).exchanged (s.ln l).compatRx pos exch

/-- SYNC_MATCH over what the correlator reads. -/
def State.syncHeard (s : State) (l pos rho side : Nat) : State :=
  let r := (s.dsp l).matchAt (s.ln l).compatRx pos (rho, side)
  s.syncMatch l pos r.1 r.2

/-- A candidate sets the frame position: position `pos` is a head, the next RX_HEAD's; until a frame's symbols have been judged, EQ_CONV stays
as the blind criterion left it (DEDUCED); a match with the polarisations exchanged is reported to the equaliser. -/
def State.alignGain (s : State) (l pos : Nat) (exch : Bool) : State :=
  let s := s.modFrm l fun x => { (x.evidence 1 false 0).unalign with oof := false }
  let s := s.modRxp l fun x => { x with swapDue := x.swapDue != exch, eqConv := x.cost, capNow := false, capNext := false }
  (s.modDsp l fun x => { x with head := some pos, prev := none }).raiseDp (Reg.FRM_EVENT.ALIGN_GAIN l)

/-- Whether 128 head bytes have a good CRC, and in compatibility framing are correct: COMPAT is 1 and their position has a
sync match, as `sync` tells (R97, R98, R115).  DESIGN CHOICE: in compatibility framing an errored head counts as failed for its fields too,
and is counted with the failed heads; R98 names only the CRC, and R115 uses errored heads for alignment. -/
def headGood (compat sync : Bool) (h : HeadIn) : Bool :=
  h.bytes.length == 128 && crc32 (h.bytes.take 124) == beAt h.bytes 124 4 && (!compat || ((beAt h.bytes 9 1).testBit 3 && sync))

/-- CANDIDATE_CHECK at a candidate's check position, with ρ there and the head that follows it; a candidate whose check
finds the hunter not running is discarded. -/
def State.candCheck (s : State) (l pos : Nat) (exch : Bool) (h : HeadIn) : State :=
  if !s.rxOn l || !(s.frm l).oof then s
  else match (s.frm l).cands.find? fun c => c.1 == pos with
    | none => s
    | some c =>
      let sync := s.syncAt l h.rho h.side
      let hunts := s.hunts l
      let s := s.modFrm l fun x => { x with cands := x.cands.filter fun d => d.1 != pos }
      if !hunts then s
      else if (s.ln l).compatRx then
        if !headGood true sync h then s
        else if s.sh (Reg.FRM_HUNT_CFG.COMPAT_N l) ≤ c.2 + 1 then s.alignGain l pos exch
        else s.modFrm l fun x => { x with cands := x.cands ++ [(pos + 40960, c.2 + 1)] }
      else if sync then s.alignGain l pos exch else s

/-- CANDIDATE_CHECK over what the correlator and the head decoder read. -/
def State.candHeard (s : State) (l pos : Nat) (exch : Bool) (h : HeadIn) : State :=
  let e := s.exchAt l pos exch
  s.candCheck l pos e (s.hear l pos e h)

/-! ### A received head (R99, R104-R108, R111-R113, R119, R120) -/

/-- The received frame number and multiframe (R112); a reload that moves it back starts an epoch search (R149). -/
def State.frameNumber (s : State) (l : Nat) (good : Bool) (fn : Nat) : State :=
  let x := s.frm l
  let s := if x.hadMf then s.modLn l fun y => { y with rxFn := y.rxFn + 1 } else s
  let run := (s.ln l).rxFn
  if !good then s.modFrm l fun y => { y with prevGood := none }
  else if !(s.ln l).oom then
    if fn = run then s.modFrm l fun y => { y with prevGood := some fn, disagree := 0 }
    else if x.disagree < 2 then s.modFrm l fun y => { y with prevGood := some fn, disagree := y.disagree + 1 }
    else (s.modFrm l fun y => { y with prevGood := none, disagree := 0 }).modLn l fun y => { y with oom := true }
  else
    let enter := match x.prevGood with | some p => p + 1 == fn | none => false
    let s := s.modFrm l fun y => { y with prevGood := some fn }
    if !enter then s
    else
      let s := if x.hadMf then s.raiseDp (Reg.FRM_EVENT.FN_JUMP l) else s
      let s := if x.hadMf ∧ fn < run then s.searchStart l else s
      (s.modLn l fun y => { y with rxFn := fn, oom := false }).modFrm l fun y => { y with hadMf := true, disagree := 0, lostAt := none }

/-- A channel's label entry, read in a good head of multiframe `mf` (R104, R116). -/
def State.clmEntry (s : State) (l mf n e : Nat) : State :=
  let s := s.latch (Reg.FRM_CLM_RX.ENTRY l n) e
  let here := s.shBit (Reg.FLO_CH_CFG.RX_EN n) && (s.shBit (Reg.FLO_CH_CFG.TWIN n) || s.sh (Reg.FLO_CH_CFG.RX_LINE n) == l)
  let differ := natBits e 22 15 != s.sh (Reg.FLO_CH_CFG.LABEL n)
  let z : Nat → Nat := fun _ => 0
  let old := (s.frm l).clm.get z n
  let next := !differ || (s.frm l).clmAt.get z n == mf
  let run := if !here then 0 else if old % 2 = b2n differ ∧ old ≠ 0 ∧ next = true then min 30 (old + 2) else 2 + b2n differ
  let was := (s.frm l).clmBad.get (fun _ => false) n
  let bad := here && (if 4 ≤ run then run % 2 == 1 else was)
  let s := s.modFrm l fun x => { x with clm := x.clm.set z n run, clmAt := x.clmAt.set z n (mf + 1), clmBad := x.clmBad.set (fun _ => false) n bad }
  if bad = was then s else s.latch ⟨Reg.FRM_CLM l (n / 32), n % 32, n % 32⟩ (b2n bad)

/-- The eight entries of the head of frame `fn`. -/
def State.clmHead (s : State) (l fn : Nat) (b : List Byte) : State :=
  let s := (List.range 8).foldl (fun (s : State) e => s.clmEntry l (fn / 64) (8 * (fn % 64) + e) (beAt b (32 + 4 * e) 4)) s
  s.modFrm l (·.evidence 5 (!(s.frm l).clmBad.isEmpty) 1)

/-- The trail trace identifier: the part of a head at cycle position `p`, none when the head failed (R105).  A failed head
whose number is not known stands at the position after the last one. -/
def State.ttiPart (s : State) (l p : Nat) (v : Option (List Byte)) : State :=
  let x := s.frm l
  let parts := if p = 0 then [v] else if x.tti.length = p then x.tti ++ [v] else []
  if parts.length < 4 then s.modFrm l fun y => { y with tti := parts }
  else
    let s := s.modFrm l fun y => { y with tti := [] }
    if parts.any Option.isNone then s
    else
      let t := (parts.map (·.getD [])).flatten
      let run := if x.ttiRun ≠ 0 ∧ t = x.ttiLast then min 3 (x.ttiRun + 1) else 1
      let s := s.modFrm l fun y => { y with ttiLast := t, ttiRun := run }
      if run < 3 then s
      else
        let s := s.modFrm l fun y => { y with ttiAcc := some t }
        (List.range 16).foldl (fun (s : State) w => s.latchReg (Reg.FRM_TTI_ACC l w) (le t (4 * w) 4)) s

/-- Whether the accepted TTI differs in the fields chosen by TIM_MODE; none while nothing has been accepted (R116). -/
def State.timBad (s : State) (l : Nat) : Option Bool :=
  let mode := s.sh (Reg.FRM_CTL.TIM_MODE l)
  if mode = 0 then some false
  else (s.frm l).ttiAcc.map fun t =>
    let exp := (List.range 16).flatMap fun w => leBytes 4 (s.shadow.get regReset (Reg.FRM_TTI_EXP l w)).toNat
    (mode.testBit 0 && t.take 32 != exp.take 32) || (mode.testBit 1 && t.drop 32 != exp.drop 32)

/-- One record of the GCC receive ring (R106). -/
def State.gccReceive (s : State) (l fn : Nat) (good : Bool) (b : List Byte) : State :=
  if !s.shBit (Reg.FRM_GCC_CTL.RX_EN l) then s
  else
    let size := 2 ^ s.sh (Reg.FRM_GCC_CTL.RX_LOG2 l)
    let wr := (s.frm l).gccRx % size
    if ringFull size wr (s.sh (Reg.FRM_GCC_RX_RD.IDX l)) then s.raiseDp (Reg.FRM_EVENT.GCC_LOSS l)
    else
      let rec_ := leBytes 8 fn ++ (if good then b else List.replicate 16 0#8) ++ [BitVec.ofNat 8 (b2n good)] ++ List.replicate 7 0#8
      let a := (s.sh (Reg.FRM_GCC_RX_BASE.BASE l) / 32 * 32 + 32 * wr) % stBytes
      (s.stWrite a rec_).2.modFrm l fun x => { x with gccRx := ringNext size wr }

/-- What the head of a received frame says of its format, and the follow that it may start (R116, R120, R264). -/
def State.descHead (s : State) (l d : Nat) : State :=
  let cur := s.descOf l (s.ln l).rxFmt
  let s := s.modFrm l fun x => { x with desc := d, descRun := if d = cur then 0 else if d = x.desc then min 15 (x.descRun + 1) else 1 }
  let s := s.modRxp l fun x => let r := if d = cur then min 3 (x.ddRun + 1) else 0; { x with ddRun := r, dd := x.dd || decide (3 ≤ r) }
  let armed := match (s.shiftOf l).rx with | some f => decide (f ≤ (s.ln l).rxFn + 64) | none => false
  if 3 ≤ (s.frm l).descRun ∧ (s.frm l).follow.map (·.1) ≠ some (d / 4096) ∧ s.shBit (Reg.FRM_CTL.FOLLOW l) = true ∧ s.descOk l d = true ∧ fmtRs (s.fmt l (d / 4096)) = fmtRs (s.rxFmtW l) ∧ armed = false then
    s.modFrm l fun x => { x with follow := some (d / 4096, 64) }
  else s

/-- FOLLOW: the receiver adopts the named entry (R120). -/
def State.followTake (s : State) (l : Nat) : State :=
  match (s.frm l).follow with
  | some (k, _) => if s.rxOn l && !(s.frm l).oof then (s.setRxFmt l k false).raiseDp (Reg.FRM_EVENT.FOLLOW l) else s
  | none => s

/-- A frame head nearer to the 64th after the third head of a follow; at the 64th the entry is adopted. -/
def State.followHead (s : State) (l : Nat) : State :=
  match (s.frm l).follow with
  | some (k, n) => if n ≤ 1 then s.followTake l else s.modFrm l fun x => { x with follow := some (k, n - 1) }
  | none => s

/-- The fields of a good head. -/
def State.headFields (s : State) (l : Nat) (h : HeadIn) : State :=
  let b := h.bytes
  let fn := beAt b 0 8
  let flags := beAt b 9 1
  let compat := (s.ln l).compatRx
  let s := (s.modLn l fun x => { x with psl := beAt b 8 1 }).modFrm l fun x => { x with last := b.take 12 }
  let s := s.modLcy l fun y => { y with rxPhase := b2n (flags.testBit 7) }
  let s := s.descHead l (beAt b 10 2)
  let ok := beAt b 8 1 == s.sh (Reg.FRM_CTL.EXP_PSL l) && beAt b 10 2 == s.descOf l (s.ln l).rxFmt
  let s := s.modFrm l fun x => (x.evidence 4 (!ok) 1).evidence 7 (flags.testBit 6) 1
  let s := if s.checksTags l then s.modFrm l (·.evidence 10 (!s.keyValid (Reg.LCY_RX_KEY l) (b2n (flags.testBit 7))) 1) else s
  let s := s.clmHead l fn b
  let s := s.ttiPart l (fn % 4) (some ((b.drop 64).take 16))
  let s := match s.timBad l with | some bad => s.modFrm l (·.evidence 6 bad 1) | none => s
  let s := if compat then s else s.ttReceive l fn (s.timeAt h.cyc / 65536 + h.sub) ((b.drop 80).take 16)
  if compat || (s.ln l).oom then s else s.shiftHead l (s.ln l).rxFn (shiftSeen b)

/-- One frame-named receive change, by its number in `Line.order`. -/
def State.rxChange (l fn : Nat) (s : State) (c : Nat) : State :=
  if c = 0 then s.commitRx l fn else if c = 4 then s.shiftRx l fn else s.capture l fn

/-- The frame-named receive changes at a head, in order of acceptance (R38).  They wait while the received frame number does
not run, and at the head that loads it (R113). -/
def State.rxNamed (s : State) (l : Nat) : State := ((s.ln l).inOrder [0, 4, 5]).foldl (State.rxChange l (s.ln l).rxFn) s

/-- The frame that a head starts enters the receive pipeline; its cap is the smaller of the configured one, which a commit of
this head may have set, and the thermal one published before this head (R31, R37, R179). -/
def State.pushFrame (s : State) (l : Nat) (good : Bool) (h : HeadIn) : State :=
  let f : RxFrame := {
    fn := if (s.ln l).oom then none else some (s.ln l).rxFn
    good := good
    head := if good then h.bytes else []
    flags := (s.frm l).last.getD 9 0#8
    fmt := s.rxFmtW l
    iterCap := s.sh (Reg.FEC_DEC_CFG.ITER_CAP l)
    loop := s.shBit (Reg.FEC_DEC_CFG.LOOP_EN l)
    cap := min (s.sh (Reg.FEC_DEC_CFG.ITER_CAP l)) (s.fld (Reg.FEC_DEC_STATUS.CAP_THERM l))
    entry := (s.ln l).rxSym
    at_ := (s.dsp l).prev
    dd := (s.rxp l).dd
    taps := (s.dsp l).taps
    car := (s.dsp l).car
    force := (s.rxp l).now
    short := decide (s.pipesOk l < s.pipesNeed l) }
  s.modLn l fun x => { x with rxq := x.rxq ++ [f] }

/-- The head of the next frame is known to the last received frame: good, and its TAG. -/
def State.setSucc (s : State) (l : Nat) (good : Bool) (tag : List Byte) : State :=
  s.modLn l fun x => { x with rxq := x.rxq.modify (x.rxq.length - 1) fun f => if f.succ.isNone then { f with succ := some (good, tag) } else f }

/-- Out of frame (R111, R115). -/
def State.alignLoss (s : State) (l : Nat) : State :=
  let s := (((s.setSucc l false []).modFrm l fun x => (x.evidence 1 true 0).evidence 2 true 0).frmLost l).modLn l fun x => { x with oom := true }
  let s := (s.modRxp l fun x => { x with dd := false, ddRun := 0, eqConv := false, capNext := false }).modDsp l fun x => { x with head := none, prev := none }
  (s.capTake l (0, 0, []) false).raiseDp (Reg.FRM_EVENT.ALIGN_LOSS l)

/-- What a head at its frame position sets in motion, but for the count of errored heads.  DEDUCED: where a rule counts
consecutive good heads, a failed head between them neither counts nor breaks the run (R112, R116, R120, R123-R125). -/
def State.headTake (s : State) (l : Nat) (good : Bool) (h : HeadIn) : State :=
  let s := if good then s else s.frmCount l 0
  let s := s.setSucc l good ((h.bytes.drop 16).take 16)
  let runs := (s.frm l).hadMf
  let was := (s.ln l).oom
  let s := (s.adoptSide l false).frameNumber l good (beAt h.bytes 0 8)
  let s := (if runs && !(was && !(s.ln l).oom) then s.rxNamed l else s).rxEpochTake l
  let s := s.followHead l
  let s := if good then s.headFields l h else if !(s.ln l).oom then s.ttiPart l ((s.ln l).rxFn % 4) none
    else if (s.frm l).tti.isEmpty then s else s.ttiPart l (s.frm l).tti.length none
  let s := s.rxpHead l
  let s := s.modRxp l fun x => { x with lock := s.lockNow l }
  let lock := (s.rxp l).lock
  let s := s.modFrm l fun x =>
    let x := ((x.evidence 3 (!lock) 40960).evidence 1 false 40960).evidence 2 ((s.ln l).oom) 40960
    { x with noLock := if lock then 0 else x.noLock + 40960 }
  let s := s.gccReceive l (s.ln l).rxFn good ((h.bytes.drop 96).take 16)
  ((s.pipeCheck l).pushFrame l good h).tagCheck l

/-- RX_HEAD: a head at its frame position; too many errored heads lose alignment (R111, R115). -/
def State.rxHead (s : State) (l : Nat) (h : HeadIn) : State :=
  if !s.rxOn l || (s.frm l).oof then s
  else
    let compat := (s.ln l).compatRx
    let good := headGood compat (s.syncAt l h.rho h.side) h
    let hist := (good :: (s.frm l).hist).take 16
    let bad := if good then 0 else (s.frm l).bad + 1
    let s := s.modLn l fun x => { x with rxSym := x.rxSym + 40960 }
    let s := (s.headTake l good h).modFrm l fun x => { x with hist := hist, bad := bad, noFrame := 0 }
    let lost := if compat then decide (s.sh (Reg.FRM_HUNT_CFG.COMPAT_M l) ≤ bad) else decide (8 ≤ (hist.filter (! ·)).length)
    if lost then s.alignLoss l else s

/-- RX_HEAD over what the head decoder reads at the frame position. -/
def State.headHeard (s : State) (l : Nat) (h : HeadIn) : State := s.rxHead l (s.hear l ((s.dsp l).head.getD 0) false h)

/-! ### Tick (R42, R116) -/

/-- The symbol periods of a tick at the receive rate. -/
def State.tickSyms (s : State) (l : Nat) : Nat := (if (s.ln l).rxRate = 0 then fmtRs (s.rxFmtW l) else (s.ln l).rxRate) * 125

/-- The framer's part of phase 2, with the tick's input power: time passes out of frame, the input power is judged, the status is latched. -/
def State.frmTick (s : State) (l pwr : Nat) : State :=
  let x := s.ln l
  let s := if !s.rxOn l then s
    else
      let k := s.tickSyms l
      let s := s.modFrm l (·.evidence 0 (decide (s.sh (Reg.FRM_LOS_THR.LOS_THR l) < pwr)) 1)
      if !x.frm.oof then s
      else s.modFrm l fun y =>
        let y := ((y.evidence 3 (!x.rxp.lock) k).evidence 1 true k).evidence 2 true k
        { y with degOof := true, noLock := if x.rxp.lock then 0 else y.noLock + k, noFrame := if x.rxp.lock then y.noFrame + k else 0 }
  let s := if s.rxOn l && x.frm.oof then (s.modLn l fun y => { y with rxSym := y.rxSym + s.tickSyms l }).capLost l else s
  let f := s.frm l
  let sh := f.shift
  let s := if s.fld (lineState l) = 0 then s
    else (((s.setFld (Reg.FRM_STATUS.DEF l) f.visible).setFld (Reg.FRM_STATUS.OOF l) (b2n f.oof)).setFld (Reg.FRM_STATUS.OOM l) (b2n x.oom))
  let s := (s.setFld (Reg.FRM_STATUS.RX_FMT l) x.rxFmt).setFld (Reg.FRM_STATUS.TX_FMT l) x.txFmt
  let s := (s.setReg64 (Reg.FRM_TX_FN_LO l) (Reg.FRM_TX_FN_HI l) x.txFn).setReg64 (Reg.FRM_RX_FN_LO l) (Reg.FRM_RX_FN_HI l) x.rxFn
  let s := ((s.setFld (Reg.FRM_SHIFT_STATUS.TX_STATE l) sh.tx).setFld (Reg.FRM_SHIFT_STATUS.ROLE l) (b2n sh.responder)).setFld
    (Reg.FRM_SHIFT_STATUS.RX_ARMED l) (b2n sh.rx.isSome)
  let s := (s.setFld (Reg.FRM_SHIFT_STATUS.NEW_IDX l) (if s.shifting l then sh.idx else 0)).setFld (Reg.FRM_SHIFT_STATUS.FAIL_CAUSE l) sh.cause
  let s := s.setReg64 (Reg.FRM_SHIFT_RXACT_LO l) (Reg.FRM_SHIFT_RXACT_HI l) (sh.rx.getD 0)
  (s.setFld (Reg.FRM_GCC_TX_RD.IDX l) f.gccTx).setFld (Reg.FRM_GCC_RX_WR.IDX l) f.gccRx

/-! ### Meanings -/

/-- SHIFT_WITHDRAW (R124). -/
def execShiftWithdraw (l : Nat) (s : State) : Host.Outcome State Fault Refusal := .next (s.cmd (·.shiftWithdraw l))

/-- DEFECT_DECLARE (R116). -/
def execDefectDeclare (l d : Nat) (s : State) : Host.Outcome State Fault Refusal := .next (s.cmdRun (·.defDeclare l d))

/-- DEFECT_CLEAR (R116). -/
def execDefectClear (l d : Nat) (s : State) : Host.Outcome State Fault Refusal := .next (s.cmdRun (·.defClear l d))

/-- DEG_INTERVAL_END (R117). -/
def execDegIntervalEnd (l : Nat) (s : State) : Host.Outcome State Fault Refusal := .next (s.cmdLive (·.degEnd l))

/-- SYNC_MATCH (R109). -/
def execSyncMatch (l pos rho side : Nat) (s : State) : Host.Outcome State Fault Refusal := .next (s.cmdRun (·.syncHeard l pos rho side))

/-- CANDIDATE_CHECK (R110). -/
def execCandidateCheck (l pos : Nat) (exch : Bool) (h : HeadIn) (s : State) : Host.Outcome State Fault Refusal :=
  .next (s.cmdRun (·.candHeard l pos exch h))

/-- RX_HEAD (R111). -/
def execRxHead (l : Nat) (h : HeadIn) (s : State) : Host.Outcome State Fault Refusal := .next (s.cmdRun (·.headHeard l h))

/-- FOLLOW (R120). -/
def execFollow (l : Nat) (s : State) : Host.Outcome State Fault Refusal := .next (s.cmdRun (·.followTake l))

end Sys2Proof.Machine
end

