-- ==== Sys2Proof/Machine/Txp.lean ====
section
/-! DEFINITION. The transmit processor: muting, the frame head, symbols, samples and DAC codes, the spectral mask
(chapter 6: R189-R218; R95-R107 transmit side). -/

namespace Sys2Proof.Machine

/-! ### Muting (R214-R217) -/

/-- The frame that leaves is cut off: the blocks it holds are dropped and counted (R215). -/
def State.dropPlaced (s : State) (l : Nat) : State :=
  ((s.ln l).placed.foldl (State.dropMark l) s).modLn l fun x => { x with placed := [] }

/-- Set the mute causes in force; MUTE_ON and MUTE_OFF are raised when the line becomes muted or unmuted, and a Rime port
whose last sending line became muted cuts its packet (R214, R322). -/
def State.setMute (s : State) (l m : Nat) : State :=
  let old := (s.ln l).mute
  let s := s.modLn l fun x => { x with mute := m, wasMuted := x.wasMuted || m != 0 }
  if old = 0 ∧ m ≠ 0 then ((s.raiseDp (Reg.TXP_EVENT.MUTE_ON l)).rimCut 0).rimCut 1
  else if old ≠ 0 ∧ m = 0 then s.raiseDp (Reg.TXP_EVENT.MUTE_OFF l)
  else s

/-- A tile's DAC lands carry zero, or a frame (R215, R515). -/
def State.setDacZero (s : State) (l : Nat) (z : Bool) : State :=
  { s with pins := if l = 0 then { s.pins with dacZeroA := z } else { s.pins with dacZeroB := z } }

/-- Whether a tile's links and clock are in order (R214 bit 4). -/
def State.tileOk (s : State) (l : Nat) : Bool := s.trained (2 * l) && s.trained (2 * l + 1) && (s.ln l).tileLock && !(s.ln l).relockBad

/-- The causes in force at a frame head. -/
def State.muteCauses (s : State) (l : Nat) : Nat :=
  b2n (s.shBit (Reg.TXP_CTL.MUTE l)) + 2 * b2n (!s.txOn l) + 4 * b2n ((s.lcy l).cause != 0) + 8 * b2n (s.ln l).txRelock.isSome +
    16 * b2n (!s.tileOk l) + 32 * b2n (s.bit Reg.CFG_STATUS.SAFE) + 64 * b2n s.down

/-- Nothing is sent: the next head carries no tag, and no symbols precede the next frame's (R216). -/
def State.txQuiet (s : State) (l : Nat) : State :=
  (s.modLcy l fun y => { y with tag := List.replicate 16 0#8, running := false }).modLn l fun x => { x with rails := [], placed := [] }

/-- A tile that is lost mutes its line at once, mid-frame (R214 bit 4, R215, R216). -/
def State.tileMute (s : State) (l : Nat) : State := (((s.dropPlaced l).txQuiet l).setDacZero l true).setMute l ((s.ln l).mute ||| 16)

/-- RELOCK_DONE: the tile clock has relocked; the first frame sent raises the event (R217), and a suspended calibration pass
follows a new receive rate (R249). -/
def State.relockDone (s : State) (l : Nat) : State :=
  let x := s.ln l
  if x.txRelock.isNone && x.rxRelock.isNone then s
  else
    let s := if x.rxRelock.isSome then s.modCnv l fun c => { c with want := true } else s
    s.modLn l fun y => { y with txRelock := none, rxRelock := none, relocked := y.relocked || x.txRelock.isSome, relockBad := false, tileLock := true }

/-- RELOCK_TIMEOUT: relock has not completed within 1,000 ticks; the fault manager is told (R217). -/
def State.relockTimeout (s : State) (l : Nat) : State :=
  let x := s.ln l
  let late (t : Option Nat) : Bool := match t with | some t => decide (t + 1000 ≤ s.tick) | none => false
  if (late x.txRelock || late x.rxRelock) && !x.relockBad then
    ({ s with relockFaults := s.relockFaults ++ [(l, s.tick)] }.modLn l fun y => { y with relockBad := true }).tileMute l
  else s

/-! ### The head (R99, R104-R107) -/

/-- The flags byte (R99). -/
def State.txFlags (s : State) (l fn : Nat) : Byte :=
  let sh := s.shiftOf l
  let compat := (s.ln l).compatTx
  let twin := (List.range 512).any fun n => s.shBit (Reg.FLO_CH_CFG.TX_EN n) && s.shBit (Reg.FLO_CH_CFG.TWIN n)
  BitVec.ofNat 8 (128 * (s.lcy l).txPhase + 64 * b2n (s.shBit (Reg.FRM_CTL.RDI l)) + 32 * b2n (sh.tx != 0 && decide (fn < sh.act) && !compat) +
    16 * b2n twin + 8 * b2n compat + 4 * b2n (sh.rx.isSome && !compat))

/-- A channel-label entry (R104). -/
def State.txEntry (s : State) (l n : Nat) : List Byte :=
  beBytes 4 (2 ^ 23 * n + 2 ^ 15 * s.sh (Reg.FLO_CH_CFG.LABEL n) + 8 * s.chSlots l n + 4 * s.sh (Reg.FLO_CH_CFG.TWIN n) + 2 * s.sh (Reg.FLO_CH_CFG.TX_EN n))

/-- The far-end quality report, from the last published values (R107). -/
def State.fqr (s : State) (l : Nat) : List Byte :=
  let cw := s.fld (Reg.FEC_CW_CNT.CW l)
  let it := if cw = 0 then 0 else min 255 ((16 * s.fld (Reg.FEC_ITER_SUM.SUM l) + cw) / (2 * cw))
  let d := s.fld (Reg.FRM_STATUS.DEF l)
  let defs := [0, 1, 2, 3, 9, 10, 8].zipIdx.foldl (fun a p => a + 2 ^ p.2 * b2n (d.testBit p.1)) 0
  beBytes 2 (s.fld (Reg.RXP_MON_SNR.SNR l)) ++ beBytes 2 (s.fld (Reg.FEC_PREBER.BER_LOG l)) ++ [BitVec.ofNat 8 it, BitVec.ofNat 8 defs] ++
    beBytes 2 (s.fld (Reg.RXP_MON_PWR.PWR l)) ++ List.replicate 4 0#8

/-- The GCC record of a frame; an empty ring, or a record that cannot be read, sends zeros and is counted (R106, R374). -/
def State.gccSend (s : State) (l : Nat) : List Byte × State :=
  let zero : List Byte := List.replicate 16 0#8
  if !s.shBit (Reg.FRM_GCC_CTL.TX_EN l) then (zero, s)
  else
    let size := 2 ^ s.sh (Reg.FRM_GCC_CTL.TX_LOG2 l)
    let rd := (s.frm l).gccTx % size
    if ringEmpty (s.sh (Reg.FRM_GCC_TX_WR.IDX l) % size) rd then (zero, s.raiseDp (Reg.FRM_EVENT.GCC_LOSS l))
    else
      let r := s.stRead ((s.sh (Reg.FRM_GCC_TX_BASE.BASE l) / 32 * 32 + 16 * rd) % stBytes) 16
      let s := r.2.2.modFrm l fun x => { x with gccTx := ringNext size rd }
      if r.2.1.isSome then (zero, s.raiseDp (Reg.FRM_EVENT.GCC_LOSS l)) else (r.1, s)

/-- The 128 overhead bytes of frame `fn`, whose position 0 leaves at `t` (R99, R114). -/
def State.headBytes (s : State) (l fn t : Nat) (tag gcc : List Byte) : List Byte :=
  let sh := s.shiftOf l
  let compat := (s.ln l).compatTx
  let pend := sh.tx != 0 && decide (fn < sh.act)
  let zeros (n : Nat) : List Byte := List.replicate n 0#8
  let b := beBytes 8 fn ++ [BitVec.ofNat 8 (s.sh (Reg.FRM_CTL.TX_PSL l)), s.txFlags l fn] ++ beBytes 2 (s.descOf l (s.ln l).txFmt)
  let b := b ++ (if compat then zeros 20 else (if pend then beBytes 2 (s.descOf l sh.idx) ++ beBytes 2 (sh.act / 64) else zeros 4) ++ tag)
  let b := b ++ (List.range 8).flatMap (fun e => s.txEntry l (8 * (fn % 64) + e))
  let b := b ++ (List.range 4).flatMap (fun w => leBytes 4 (s.shadow.get regReset (Reg.FRM_TTI_TX l (4 * (fn % 4) + w))).toNat)
  let b := b ++ (if compat then zeros 16 else s.ttField l fn t) ++ gcc ++ (if compat then zeros 12 else s.fqr l)
  b ++ beBytes 4 (crc32 b)

/-! ### Symbols (R95-R97, R197-R199) -/

/-- ±1 of a bit. -/
def railOf (b : Bool) : Int := if b then -1 else 1

/-- The rails of a frame, position by position: XI, XQ, YI, YQ. -/
def frameRails (w : Word) (compat : Bool) (head : List Byte) (cws : Array (Array Bool)) : List Int :=
  let sync := [0, 1].map fun p => (syncBits compat p).toArray
  let ovh := (headBits head).toArray
  let pilot := [0, 1].map fun p => (pilotBits p).toArray
  (List.range 40960).flatMap fun p =>
    if p < 128 then [0, 1].flatMap fun pol => [0, 1].map fun c => railOf ((sync.getD pol #[]).getD (2 * p + c) false)
    else if p < 640 then (List.range 4).map fun c => railOf (ovh.getD (4 * (p - 128) + c) false)
    else if (p - 640) % 64 = 0 then [0, 1].flatMap fun pol => [0, 1].map fun c => railOf ((pilot.getD pol #[]).getD (2 * ((p - 640) / 64) + c) false)
    else let d := p - 640 - ((p - 640) / 64 + 1); [0, 1].flatMap fun pol => symbolRails w cws (2 * d + pol)

/-! ### Samples (R201-R209) -/

/-- The taps of the programmed response (R202). -/
def State.psTaps (s : State) (l p : Nat) : Array Cx :=
  ((List.range 128).map fun t => (⟨sx 16 (s.sh (Reg.TXP_PS_TAP.RE l p t)) * 2 ^ 18, sx 16 (s.sh (Reg.TXP_PS_TAP.IM l p t)) * 2 ^ 18⟩ : Cx)).toArray

/-- The response of a polarisation's shaper over blocks of `n` samples (R202). -/
def State.shapeResponse (s : State) (l p n : Nat) : Int → Cx :=
  let sel := s.sh (Reg.TXP_CTL.PS_SEL l)
  if sel = 3 then tapResponse (s.psTaps l p) n else unitPower n (tapResponse (rrcTaps (2 ^ sel)) n)

/-- The pulse-shaped rails of the stream, sample by sample, from the rails of the frame before and its own (R201).  A symbol leaves the
shaper between 12,800 and 38,399 samples after its own place: a delay that the spec leaves open, and long enough that each sample sees the
symbols before and behind it, those of the next frame too, and none across the block's ends.  DESIGN CHOICE. -/
def State.shaped (s : State) (l : Nat) (prev cur : List Int) : Nat → Int → Rat :=
  let a := ((List.replicate (163840 - prev.length) 0 ++ prev) ++ cur).toArray
  let y := [0, 1].map fun p => shapeBlock (s.shapeResponse l p 102400) ((List.range 81920).map fun n => (⟨a.getD (4 * n + 2 * p) 0, a.getD (4 * n + 2 * p + 1) 0⟩ : Cx)).toArray
  fun c n =>
    let v := (y.getD (c / 2) #[]).getD ((51200 + n - (12800 + Config.shapeDelay % 25600)) % 102400).toNat {}
    mkRat (if c % 2 = 0 then v.re else v.im) (2 ^ 32)

/-- Pre-emphasis (R204). -/
def State.preEmph (s : State) (l c : Nat) (x : Int → Rat) (n : Int) : Rat :=
  if !s.shBit (Reg.TXP_CTL.PE_EN l) then x n
  else (List.range 33).foldl (fun a t => a + mkRat (sx 16 (s.sh (Reg.TXP_PE_TAP.TAP l c t))) 16384 * x (n + 16 - t)) 0

/-- Predistortion; `full` is DAC full scale in units of the signal (R205). -/
def State.preDist (s : State) (l c : Nat) (full : Rat) (x : Int → Rat) (n : Int) : Rat :=
  if !s.shBit (Reg.TXP_CTL.DPD_EN l) then x n
  else
    let u (q : Nat) : Rat := x (n - q) / full
    full * (List.range 5).foldl (fun a q => a + mkRat (sx 16 (s.sh (Reg.TXP_DPD.A3 l c q))) 16384 * u q ^ 3 +
      mkRat (sx 16 (s.sh (Reg.TXP_DPD.A5 l c q))) 16384 * u q ^ 5) (u 0)

/-- Skew correction: whole samples are exact, the interpolation of a fraction is open (R206). -/
def State.skewed (s : State) (l c : Nat) (x : Int → Rat) (n : Int) : Rat :=
  let d := sx 13 (s.sh (Reg.TXP_SKEW.SKEW l c))
  let k := n - (d + 255) / 256
  let f := ((d + 255) / 256 * 256 - d).toNat
  if f = 0 then x k else (Config.fracTaps f).zipIdx.foldl (fun a p => a + mkRat p.1 (2 ^ 32) * x (k + p.2 - 15)) 0

/-- IQ correction of a polarisation's rail (R206). -/
def State.iqFix (s : State) (l c : Nat) (x : Nat → Rat) : Rat :=
  let p := c / 2
  let m1 := if c % 2 = 0 then s.sh (Reg.TXP_IQ_A.M11 l p) else s.sh (Reg.TXP_IQ_B.M21 l p)
  let m2 := if c % 2 = 0 then s.sh (Reg.TXP_IQ_A.M12 l p) else s.sh (Reg.TXP_IQ_B.M22 l p)
  mkRat (sx 16 m1) 16384 * x (2 * p) + mkRat (sx 16 m2) 16384 * x (2 * p + 1)

/-- The bytes that a port has on the air. -/
def State.airBytes (s : State) (k : Nat) : Option (List Byte) := if (s.rp k).onAir then some (s.rp k).air else none

/-- ρ of a port at a time after its packet's start, in samples of 128 MS/s: linear between samples (R209). -/
def State.rho (s : State) (k : Nat) (b : List Byte) : Rat → Rat :=
  let w := rimeWave s.rimTaps (s.sh (Reg.RIM_PORT_CFG.TX_CH k)) (rimeSymbols b)
  fun t =>
    let f := t - t.floor
    mkRat (w t.floor) (2 ^ 32) * (1 - f) + mkRat (w (t.floor + 1)) (2 ^ 32) * f

/-- 1 + δρ at a sample of a frame that starts `at_` × 2^-16 ns after the tick's boundary: the sum of the ports that send on this line,
within ±1 (R209). -/
def State.dither (s : State) (l at_ rs : Nat) : Int → Rat :=
  if !s.shBit (Reg.TXP_CTL.RIME_EN l) then fun _ => 1
  else
    let ws := ([0, 1].filter fun k => (s.sh (Reg.RIM_PORT_CFG.TX_LINES k)).testBit l).filterMap fun k =>
      (s.airBytes k).map fun b => (s.rho k b, s.tick - (s.rp k).airAt)
    fun n =>
      let ns : Rat := mkRat at_ 65536 + mkRat (32 * n) (5 * rs)
      let r := ws.foldl (fun (a : Rat) p => a + p.1 ((p.2 * 1000 + ns) * mkRat 16 125)) 0
      1 + mkRat (s.sh (Reg.TXP_CTL.RIME_DEPTH l)) 400 * (if r < -1 then -1 else if 1 < r then 1 else r)

/-- A sample of a rail in DAC codes, y × GAIN (R207): `x` gives the pulse-shaped rails, `gain` the codes of one unit, `d`
the dither. -/
def State.sampleOf (s : State) (l : Nat) (x : Nat → Int → Rat) (gain : Rat) (d : Int → Rat) (c : Nat) (n : Int) : Rat :=
  let y (c : Nat) (n : Int) : Rat := s.skewed l c (s.preDist l c (127 / gain) (s.preEmph l c (x c))) n
  s.iqFix l c (fun c => y c n) * d n * gain

/-- The DAC codes of a frame that starts `at_` × 2^-16 ns into the tick, rail by rail, and the samples that reached the clamp (R207). -/
def State.dacCodes (s : State) (l at_ rs : Nat) (prev cur : List Int) : List (List Int) × Nat :=
  let x := s.shaped l prev cur
  let d := s.dither l at_ rs
  let gain : Rat := mkRat (s.sh (Reg.TXP_GAIN.GAIN l)) 16
  (List.range 4).foldl (fun a c =>
    let v := (List.range 51200).map fun (n : Nat) => let r := s.sampleOf l x gain d c n; roundDiv r.num r.den
    (a.1 ++ [v.map (clampI (-127) 127)], a.2 + (v.filter fun i => decide (127 ≤ i.natAbs)).length)) ([], 0)

/-- A frame's rails are shaped, and its DAC codes wait at the die-to-die senders (R21, R198-R211). -/
def State.sendRails (s : State) (l at_ : Nat) (rails : List Int) : State :=
  let w := s.txFmtW l
  let amps := railAmps (headAmp (s.sh (Reg.TXP_CTL.PILOT_BOOST l))) (gainFix w) rails
  let codes := s.dacCodes l at_ (fmtRs w) (s.ln l).rails amps
  let s := s.modLn l fun x => { x with rails := amps, clips := x.clips + codes.2, psd := addDensity x.psd (frameDensity codes.1) }
  codes.1.zipIdx.foldl (fun (s : State) p => s.queueDac l (fmtRs w) p.2 p.1) s

/-! ### A transmit frame head -/

/-- The channels and marks of the data blocks among some blocks. -/
def placedOf (bs : List (List Byte)) : List (Nat × BlockMark) :=
  (bs.filter fun b => !(b.getD 2 0#8).getLsbD 7).map fun b => (beAt b 0 2 % 512, blockMark b)

/-- Blocks that a muted frame holds are dropped (R215). -/
def State.dropBlocks (s : State) (l fn : Nat) : State :=
  if s.sh (Reg.FRM_CTL.TX_PSL l) = 0 then s
  else
    let r := s.frameBlocks l (fn % 64) (fmtSlots (s.txFmtW l)) []
    (placedOf r.1).foldl (State.dropMark l) r.2

/-- A muted frame (R214-R216). -/
def State.muteFrame (s : State) (l fn : Nat) : State :=
  let m := (s.ln l).mute
  let s := if m &&& 59 = 0 then s.dropBlocks l fn else s
  (s.txQuiet l).emit (.txMuted l fn)

/-- A sent frame: mapped, encrypted, coded, shaped (R21). -/
def State.sendFrame (s : State) (l fn t at_ : Nat) (bad : List Nat) : State :=
  let s := if (s.ln l).relocked then (s.raiseDp (Reg.TXP_EVENT.RELOCK_DONE l)).modLn l fun x => { x with relocked := false } else s
  let w := s.txFmtW l
  let sl := fmtSlots w
  let en := s.shBit (Reg.LCY_CTL.EN l)
  let r := if s.sh (Reg.FRM_CTL.TX_PSL l) = 0 then (List.replicate (1040 * sl) 0#8, s.modLn l fun x => { x with placed := [] })
    else
      let p := s.frameBlocks l (fn % 64) sl bad
      (p.1.flatten, ((placedOf p.1).foldl (State.passMark l) p.2).modLn l fun x => { x with placed := placedOf p.1 })
  let s := r.2
  let tag := if en then padTo 16 (s.lcy l).tag else List.replicate 16 0#8
  let flags := s.txFlags l fn
  let e := if en then s.encrypt l fn flags r.1 else (r.1, s.modLcy l fun y => { y with tag := List.replicate 16 0#8, running := false })
  let g := e.2.gccSend l
  let s := g.2
  let head := s.headBytes l fn t tag g.1
  let info := bytesBits e.1 ++ List.replicate (fmtInfo w - 8320 * sl) false
  let rails := frameRails w (s.ln l).compatTx head (frameEncode w info)
  ((s.emit (.txHead l fn head)).emit (.txSymbols l rails)).sendRails l at_ rails

/-- One change that names a transmit frame, by its number in `Line.order`. -/
def State.txChange (l fn : Nat) (s : State) (c : Nat) : State :=
  if c = 0 then s.commitTx l fn else if c = 1 then s.calSwap l fn else if c = 2 then s.keyFlip l fn else s.shiftTx l fn

/-- The changes that name transmit frames, in order of acceptance (R35-R38, R128). -/
def State.txNamed (s : State) (l fn : Nat) : State := ((s.ln l).inOrder [0, 1, 2, 3]).foldl (State.txChange l fn) s

/-- What the head of the next frame settles before the frame is formed: the parameters published before it, the changes that
name it, the cipher's state and the mute causes (R35-R38, R214). -/
def State.txPrepare (s : State) (l : Nat) : State :=
  let fn := (s.ln l).txNext
  let s := ((s.modLn l fun x => { x with txFn := fn }).adoptSide l true |>.tileAdopt l false).ttSnap l fn
  let s := ((s.txNamed l fn).pipeCheck l).cryptMute l
  s.setMute l (s.muteCauses l)

/-- TX_FRAME_HEAD: position 0 leaves at a time-base cycle and fraction; `bad` lists slots whose bytes could not be read. -/
def State.txHead (s : State) (l cyc sub : Nat) (bad : List Nat) : State :=
  if s.down then s
  else if !s.txOn l then ((s.txQuiet l).setDacZero l true).setMute l (s.muteCauses l)
  else
    let fn := (s.ln l).txNext
    let s := (s.txPrepare l).modLn l fun x => { x with headSmp := x.headSmp + 51200, headAt := (s.tick, cyc) }
    let s := if (s.ln l).mute ≠ 0 then (s.setDacZero l true).muteFrame l fn
      else (s.setDacZero l false).sendFrame l fn (s.timeAt cyc / 65536 + sub) (cyc * 131072 + sub) bad
    s.modLn l fun x => { x with txNext := fn + 1 }

/-! ### The transmit spectrum monitor (R211-R213) -/

/-- A bin's level against the mean of the reference bins, 1/16 dB. -/
def binLevel (d refSum refs : Nat) : Int := if d = 0 then -0x7FFF else clampI (-0x7FFF) 0x7FFF (logRatio 160 (d * refs) (max 1 refSum))

/-- The monitor's part of a tick, over the densities of the frames sent in it. -/
def State.maskTick (s : State) (l : Nat) : State :=
  let quiet := (s.ln l).wasMuted
  let psd := (s.ln l).psd
  let s := s.modLn l fun x => { x with wasMuted := x.mute != 0, psd := [] }
  if quiet then s
  else
    let refs := (List.range 64).filter fun b => s.shBit (Reg.TXP_MASK.REF l b)
    let sum := refs.foldl (fun a b => a + psd.getD b 0) 0
    let level (b : Nat) : Int := binLevel (psd.getD b 0) sum refs.length
    let s := (List.range 64).foldl (fun (s : State) b => s.publish (Reg.TXP_PSD.LEVEL l b) (if refs.isEmpty then 0x8000 else twos 16 (level b))) s
    let high := (List.range 64).filter fun b => !refs.isEmpty && s.shBit (Reg.TXP_MASK.CHECK l b) && decide (4 * sx 8 (s.sh (Reg.TXP_MASK.LIMIT l b)) < level b)
    let z : Nat → Nat := fun _ => 0
    s.modLn l fun x =>
      { x with maskRun := (List.range 64).foldl (fun m b => m.set z b (if high.contains b then min 15 (m.get z b + 1) else 0)) x.maskRun,
               maskCalm := if high.isEmpty then min 15 (x.maskCalm + 1) else 0 }

/-- MASK_VIOL (R212). -/
def State.maskViol (s : State) (l : Nat) : State :=
  let x := s.ln l
  if !x.maskBad && (x.maskRun.any fun p => decide (s.sh (Reg.TXP_MASK_CFG.DEBOUNCE l) ≤ p.2)) && decide (1 ≤ s.sh (Reg.TXP_MASK_CFG.DEBOUNCE l)) then
    ((s.modLn l fun y => { y with maskBad := true }).setFld (Reg.TXP_STATUS.MASK_VIOL l) 1).raise (Reg.TXP_EVENT.MASK_VIOL l)
  else s

/-- MASK_CLEAR (R212). -/
def State.maskClear (s : State) (l : Nat) : State :=
  let x := s.ln l
  if x.maskBad && decide (s.sh (Reg.TXP_MASK_CFG.DEBOUNCE l) ≤ x.maskCalm) then
    ((s.modLn l fun y => { y with maskBad := false }).setFld (Reg.TXP_STATUS.MASK_VIOL l) 0).raise (Reg.TXP_EVENT.MASK_CLEAR l)
  else s

/-! ### Tick -/

/-- The transmit processor's part of phase 2: a lost tile mutes within the tick (R214), clipped samples are published, the
status of the format in use is latched. -/
def State.txpTick (s : State) (l : Nat) : State :=
  let s := if s.tileOk l then s else s.tileMute l
  let x := s.ln l
  let s := s.raiseIf (x.clips != 0) (Reg.TXP_EVENT.CLIP l)
  let s := (s.setReg (Reg.TXP_CLIP_CNT l) (BitVec.ofNat 32 x.clips)).modLn l fun y => { y with clips := 0 }
  let s := (s.count (miscCtr (17 + 8 * l) 0) x.clips)
  let s := ((s.setFld (Reg.TXP_STATUS.MUTE_SRC l) x.mute).setFld (Reg.TXP_STATUS.MUTED l) (b2n (x.mute != 0))).setFld (Reg.TXP_STATUS.MASK_VIOL l) (b2n x.maskBad)
  if s.fld (lineState l) ≠ 2 then s
  else
    let w := s.txFmtW l
    let s := ((s.setFld (Reg.TXP_PAS_INFO.U l) (fmtU w)).setFld (Reg.TXP_PAS_INFO.S l) (fmtSlots w)).setFld (Reg.TXP_INFO_BITS.I l) (fmtInfo w)
    (List.range 8).foldl (fun (s : State) i => s.setFld (Reg.TXP_PAS_COMP.N l i) ((fmtComp w).getD i 0)) s

/-! ### Meanings -/

/-- TX_FRAME_HEAD (R35). -/
def execTxFrameHead (l cyc sub : Nat) (bad : List Nat) (s : State) : Host.Outcome State Fault Refusal := .next (s.cmd (·.txHead l cyc sub bad))

/-- RELOCK_DONE (R217). -/
def execRelockDone (l : Nat) (s : State) : Host.Outcome State Fault Refusal := .next (s.cmdRun (·.relockDone l))

/-- RELOCK_TIMEOUT (R217). -/
def execRelockTimeout (l : Nat) (s : State) : Host.Outcome State Fault Refusal := .next (s.cmdLive (·.relockTimeout l))

/-- MASK_VIOL (R212). -/
def execMaskViol (l : Nat) (s : State) : Host.Outcome State Fault Refusal := .next (s.cmdLive (·.maskViol l))

/-- MASK_CLEAR (R212). -/
def execMaskClear (l : Nat) (s : State) : Host.Outcome State Fault Refusal := .next (s.cmdLive (·.maskClear l))

end Sys2Proof.Machine
end

