-- ==== Sys2Proof/Machine/Dec.lean ====
section
/-! DEFINITION. Soft metrics, erasures, the decoder's passage of a frame, its statistics (R174-R187, R260, R273, R274). -/

namespace Sys2Proof.Machine

/-! ### Soft metrics (R174, R273) -/

/-- The frame position of a data symbol (R95). -/
def dataPos (d : Nat) : Nat := 641 + 64 * (d / 63) + d % 63

/-- The log-likelihood × 2^32 of the rail value ±(2i + 1) × g: z = zn ÷ gg, σ² ÷ |ĝ|² = sn ÷ gg, w = wn ÷ wd. -/
def railCost (g : Nat) (zn gg sn wn wd : Int) (i : Nat) (neg : Bool) : Int :=
  let x : Int := (if neg then -1 else 1) * (2 * i + 1) * g
  ((2 * zn * x * 2 ^ 32 - x * x * gg) * wd) / (2 ^ 32 * max 1 (sn * wd + wn * gg))

/-- The best of some costs. -/
def best (cs : List Int) : Int := cs.foldl max (-(2 ^ 60))

/-- The max-log ratios × 2^32 of a rail's bits: its sign, then its label (R197, R273). -/
def railRatios (w : Word) (g : Nat) (prior : List Int) (zn gg sn wn wd : Int) : List Int :=
  let h := fmtM w / 2 - 1
  let cands := (List.range (2 ^ h)).filter (fun i => !fmtShaped w || (fmtComp w).getD i 0 != 0) |>.flatMap fun i =>
    [false, true].map fun neg => (neg :: grayBits h i, railCost g zn gg sn wn wd i neg + prior.getD i 0)
  (List.range (h + 1)).map fun b =>
    best ((cands.filter fun c => !(c.1.getD b false)).map (·.2)) - best ((cands.filter fun c => c.1.getD b false).map (·.2))

/-- The metric of a ratio under SCALE. -/
def metricOf (scale : Nat) (r : Int) : Int := clampI (-31) 31 (roundDiv (scale * r) (16 * 2 ^ 32))

/-- The symbols that a frame's metrics measure noise against, by polarisation and position: its references, and its decisions (R273). -/
abbrev Known := Nat → Nat → Option Cx

/-- The references on the received scale, and decisions on data symbols while they are in force. -/
def knownOf (w : Word) (compat dd : Bool) (zs : Array Smp) : Known := fun pol p =>
  let f := (refFit compat pol zs).1
  match refSym compat pol p with
  | some r => some (r.mul f)
  | none => if !dd || fixedPos p then none
    else let s := zs.getD p {}; some (decideSym w (dataGain compat pol zs).1 (if pol = 0 then s.x else s.y))

/-- The soft metrics of a frame from its symbols after step 8, in the order of its data symbols: 0 for a symbol that depends on an erased
sample (R175, R260, R273). -/
def softMetrics (w : Word) (compat : Bool) (scale : Nat) (zs : Array Smp) (known : Known) : Array Int :=
  let g := gainFix w
  let prior := if fmtShaped w then (fmtComp w).map fun n => lnFix n - lnFix 630 else []
  let pick (pol : Nat) (s : Smp) : Cx := if pol = 0 then s.x else s.y
  let gains := [0, 1].map fun pol => (dataGain compat pol zs).1
  let errs := [0, 1].map fun pol => ((List.range 40960).map fun p =>
    let s := zs.getD p { erased := true }
    if s.clean then (known pol p).map fun k => (k.sub (pick pol s)).pow else none).toArray
  ((List.range 79380).flatMap fun ps =>
    let p := dataPos (ps / 2)
    let s := zs.getD p { erased := true }
    if s.erased then List.replicate (fmtM w) 0
    else
      let k := gains.getD (ps % 2) {}
      let v := pick (ps % 2) s
      let gg : Int := k.re * k.re + k.im * k.im
      let noise : Int := noiseAt (errs.getD (ps % 2) #[]) p * 2 ^ 32
      let rail (zn : Int) : List Int := (railRatios w g prior zn gg noise s.wt (2 ^ 32)).map (metricOf scale)
      let i := rail (v.re * k.re + v.im * k.im)
      let q := rail (v.im * k.re - v.re * k.im)
      i.take 1 ++ q.take 1 ++ i.drop 1 ++ q.drop 1).toArray

/-- A frame's symbols after step 8 give its own metrics, under what is in force for it; a frame whose symbols never came has none but erased
ones. -/
def State.frameMetrics (s : State) (l : Nat) (f : RxFrame) : Array Int :=
  let c := f.force
  let zs : Array Smp := match f.at_ with
    | some p => if (s.dsp l).out.isEmpty then #[] else c.step8 p.2 ((s.dsp l).around p.1) (s.partner l p.2 p.1)
    | none => #[]
  if zs.isEmpty then Array.replicate (79380 * fmtM f.fmt) 0
  else softMetrics f.fmt c.path.compat c.scale zs (knownOf f.fmt c.path.compat f.dd zs)

/-! ### A frame's passage (R178-R182) -/

def State.modFec (s : State) (l : Nat) (f : FecSt → FecSt) : State := s.modLn l fun x => { x with fec := f x.fec }

/-- The first frame of a stage, and its place. -/
def State.rxAt (s : State) (l : Nat) (p : RxFrame → Bool) : Option (Nat × RxFrame) :=
  match (s.ln l).rxq.findIdx? p with
  | some i => (s.ln l).rxq[i]?.map fun f => (i, f)
  | none => none

def State.setRx (s : State) (l i : Nat) (f : RxFrame) : State := s.modLn l fun x => { x with rxq := x.rxq.set i f }

/-- What a frame holds of the signal path for its refinement pass: the equaliser's input under it, and the symbols around it and the partner's
(R272, R274). -/
def State.holdFrame (s : State) (l : Nat) (f : RxFrame) : RxFrame :=
  let x := s.dsp l
  match f.at_ with
  | some p =>
    let k := 5 * p.1 / 4 - 64 - x.eqAt
    { f with eq := (x.eqBuf.drop k).take 51328, eqAt := x.eqAt + k, around := x.around p.1, other := s.partner l p.2 p.1 }
  | none => f

/-- DECODER_ENTRY: the metrics of the oldest frame that waits are there, and it is decoded under the cap fixed at its head
(R179). -/
def State.decEntry (s : State) (l : Nat) (errs : List StoreErr) : State :=
  match s.rxAt l (·.stage == 0) with
  | none => s
  | some (i, f) =>
    let ms := s.frameMetrics l f
    let off := s.sh (Reg.FEC_DEC_CFG.OFFSET l)
    let loop := f.loop && decide (10 ≤ f.cap)
    let cws := frameDecode f.fmt off (if loop then 4 else f.cap) ms errs
    let more := loop && cws.any fun c => !c.ok
    let s := s.raiseDpIf (ms.any (· == 0)) (Reg.FEC_EVENT.ERASURE l)
    let s := s.raiseDpIf (!errs.isEmpty) (Reg.FEC_EVENT.STORE_ERR l)
    s.setRx l i { (if more then s.holdFrame l f else f) with stage := if more then 1 else 2, metrics := ms, metrics2 := ms, offset := off, lost := errs, cws := cws, first := if more then cws.map (·.iters) else [] }

/-- The symbols that a refinement pass works with (R274 step 1). -/
def RxFrame.refineRails (f : RxFrame) : List Int :=
  let cws := (f.cws.map (·.bits)).toArray
  let all := frameRails f.fmt f.force.path.compat f.head cws
  let trust := f.force.trust
  let ok := (f.cws.map (·.ok)).toArray
  all.zipIdx.map fun p =>
    let pos := p.2 / 4
    if pos < 128 ∨ (640 ≤ pos ∧ (pos - 640) % 64 = 0) then p.1
    else if pos < 640 then (if f.good then p.1 else 0)
    else
      let ps := 2 * (pos - 640 - ((pos - 640) / 64 + 1)) + p.2 / 2 % 2
      if !trust || (List.range (fmtM f.fmt)).all (fun lev => ok.getD (levelPlace f.fmt ps lev).1 false) then p.1 else 0

/-- The rebuilt symbols on the received scale: references and head at the references' gain, data at the data symbols' (R274). -/
def rebuiltSyms (w : Word) (compat : Bool) (zs : Array Smp) (rails : Array Int) : Known := fun pol p =>
  let a := rails.getD (4 * p + 2 * pol) 0
  let b := rails.getD (4 * p + 2 * pol + 1) 0
  if a = 0 then none
  else if fixedPos p then let k : Int := isqrt (2 ^ 63); some ((⟨a * k, b * k⟩ : Cx).mul (refFit compat pol zs).1)
  else some ((⟨a * gainFix w, b * gainFix w⟩ : Cx).mul (dataGain compat pol zs).1)

/-- The metrics of a refinement pass, under what is in force for the frame (R274 steps 2 to 5). -/
def RxFrame.refineMetrics (f : RxFrame) : Array Int :=
  match f.at_ with
  | none => f.metrics
  | some p =>
    if f.eq.isEmpty then f.metrics
    else
      let c := f.force
      let mid := ((f.around.drop 16384).take 40960).toArray
      let known := rebuiltSyms f.fmt c.path.compat mid f.refineRails.toArray
      let b := f.eq.toArray
      let g (i : Int) : Smp := if (f.eqAt : Int) ≤ i then b.getD (i - f.eqAt).toNat {} else {}
      let zs := loopFrame c.path c.muLoop f.car.fo g p.1 (fun q => (known 0 q, known 1 q)) f.taps
      let ys := c.step8 p.2 (f.around.take 16384 ++ zs ++ f.around.drop 57344) f.other
      softMetrics f.fmt c.path.compat c.scale ys (rebuiltSyms f.fmt c.path.compat ys f.refineRails.toArray)

/-- REFINEMENT_PASS: pass 2 starts afresh from the refined metrics (R181, R274). -/
def State.refine (s : State) (l : Nat) (errs : List StoreErr) : State :=
  match s.rxAt l (·.stage == 1) with
  | none => s
  | some (i, f) =>
    let ms := f.refineMetrics
    let s := s.emit (.refine l (f.fn.getD 0) f.refineRails)
    let off := s.sh (Reg.FEC_DEC_CFG.OFFSET l)
    let cws := frameDecode f.fmt off (f.cap - 4) ms errs
    let s := s.raiseDpIf (!errs.isEmpty) (Reg.FEC_EVENT.STORE_ERR l)
    s.setRx l i { f with stage := 2, eq := [], around := [], other := [], metrics2 := ms, offset := off, lost := f.lost ++ errs,
                         cws := (cws.zip f.first).map fun p => { p.1 with iters := p.1.iters + p.2 } }

/-- Whether a channel metric was lost in the decoder's store: it counts neither as erased nor as flipped (R176). -/
def RxFrame.lostAt (f : RxFrame) (i : Nat) : Bool :=
  let p := levelPlace f.fmt (i / fmtM f.fmt) (i % fmtM f.fmt)
  f.lost.any fun e => !e.msg && e.cw == p.1 && e.idx.contains p.2

/-- The statistics of a released frame (R184).  DEDUCED: a frame whose metrics never came adds no bits. -/
def FecSt.add (x : FecSt) (f : RxFrame) (cws : List CwDec) : FecSt :=
  let m := fmtM f.fmt
  let bits := (cws.map (·.bits)).toArray
  let it (c : CwDec) : Nat := if c.ok then c.iters else f.cap
  let lost := if f.lost.isEmpty then 0 else ((List.range f.metrics.size).filter f.lostAt).length
  let flips := ((List.range f.metrics.size).filter fun i =>
    let v := f.metrics.getD i 0
    v != 0 && !f.lostAt i && codedBit f.fmt bits (i / m) (i % m) != decide (v < 0)).length
  let erased := ((List.range f.metrics.size).filter fun i => f.metrics.getD i 0 == 0 && !f.lostAt i).length
  { x with cws := x.cws + cws.length, iterSum := x.iterSum + (cws.map it).foldl (· + ·) 0, iterMax := (cws.map it).foldl max x.iterMax,
           uncorr := x.uncorr + (cws.filter (!·.ok)).length, bits := x.bits + (f.metrics.size - erased - lost), flips := x.flips + flips, erased := x.erased + erased }

/-- The slot length of a frame, set by the schedule in force at its head (R180, R181). -/
def RxFrame.slot (f : RxFrame) : Nat := 2 * f.iterCap * 40960 + (if f.loop then 800000 else 0)

/-- Whether a frame's output slot has arrived: it lies before the next head (R26, R180). -/
def State.slotDue (s : State) (l : Nat) (f : RxFrame) : Bool := decide (f.entry + f.slot < (s.ln l).rxSym + 40960)

/-- The codewords with which a frame leaves the decoder, `cut` listing those that a fault left unfinished and the
iterations they have done, and the codewords cut off (R28, R29, R180).  A frame whose metrics never came leaves with
decisions of 0; one that waits for its refinement leaves with those of pass 1. -/
def RxFrame.leaves (f : RxFrame) (cut : List (Nat × Nat)) : List CwDec × List Nat :=
  if f.stage = 0 then (List.replicate (fmtK f.fmt) ⟨Array.replicate 31752 false, 0, false⟩, List.range (fmtK f.fmt))
  else if f.stage = 1 then (f.cws, idxWhere f.cws.length fun k => match f.cws[k]? with | some c => !c.ok | none => false)
  else
    let ms := cwMetrics f.fmt f.metrics2
    let cws := f.cws.zipIdx.map fun p => match cut.find? fun c => c.1 == p.2 with
      | some c => if c.2 < p.1.iters then { cwDecode f.fmt f.offset c.2 f.lost p.2 (ms.getD p.2 #[]) with ok := false } else p.1
      | none => p.1
    (cws, idxWhere cws.length fun k => cut.any fun c => c.1 == k && (match f.cws[k]? with | some d => decide (c.2 < d.iters) | none => false))

/-- DECODER_RELEASE: the oldest frame in the decoder leaves in its slot; each codeword cut off is an occurrence of CUTOFF (R26, R28, R29, R178,
R180, R196, R464). -/
def State.decRelease (s : State) (l : Nat) (cut : List (Nat × Nat)) : State :=
  match s.rxAt l (·.stage < 3) with
  | none => s
  | some (i, f) =>
    if !s.slotDue l f then s
    else
      let out := f.leaves cut
      let r := frameInfo f.fmt ((out.1.map (·.bits)).toArray)
      let s := s.modFec l (·.add f out.1)
      let s := out.2.foldl (fun (s : State) _ => s.raiseDp (Reg.FEC_EVENT.CUTOFF l)) (s.raiseDpIf (out.1.any (!·.ok)) (Reg.FEC_EVENT.UNCORR l))
      let s := s.count (miscCtr (17 + 8 * l) 1) r.2
      let s := s.emit (.decoded l (f.fn.getD 0) r.1)
      (s.setRx l i { f with stage := 3, metrics := #[], metrics2 := #[], lost := [], cws := [], info := r.1 }).tagCheck l

/-! ### Tick (R182, R184-R187) -/

/-- The decoder's part of phase 2. -/
def State.fecTick (s : State) (l : Nat) : State :=
  let x := (s.ln l).fec
  let s := (s.setReg (Reg.FEC_CW_CNT l) (BitVec.ofNat 32 x.cws)).setReg (Reg.FEC_ITER_SUM l) (BitVec.ofNat 32 x.iterSum)
  let s := (s.setFld (Reg.FEC_ITER_MAX.MAX l) x.iterMax).setReg (Reg.FEC_UNCORR_CNT l) (BitVec.ofNat 32 x.uncorr)
  let s := ((s.setReg (Reg.FEC_BIT_CNT l) (BitVec.ofNat 32 x.bits)).setReg (Reg.FEC_FLIP_CNT l) (BitVec.ofNat 32 x.flips)).setReg
    (Reg.FEC_ERASED_CNT l) (BitVec.ofNat 32 x.erased)
  let s := [(1, x.cws), (2, x.iterSum), (3, x.uncorr), (4, x.bits), (5, x.flips), (6, x.erased)].foldl
    (fun (s : State) p => if p.2 = 0 then s else s.count (miscCtr (19 + 8 * l) p.1) p.2) s
  let hist := ((x.flips, x.bits) :: x.hist).take 1000
  let s := s.modFec l fun _ => { hist := hist }
  let s := s.modFrm l fun y => { y with degFlips := y.degFlips + x.flips, degBits := y.degBits + x.bits }
  let ber := berLog (hist.foldl (fun a p => a + p.1) 0) (hist.foldl (fun a p => a + p.2) 0)
  let capT := s.fld (Reg.FEC_DEC_STATUS.CAP_THERM l)
  let iter := s.sh (Reg.FEC_DEC_CFG.ITER_CAP l)
  let cap := min iter capT
  let thr := decide (cap < iter)
  let susp := s.shBit (Reg.FEC_DEC_CFG.LOOP_EN l) && decide (cap < 10)
  let was := s.bit (Reg.FEC_DEC_STATUS.THROTTLED l)
  let wasSusp := s.bit (Reg.FEC_DEC_STATUS.LOOP_SUSP l)
  let s := ((s.setFld (Reg.FEC_DEC_STATUS.CAP_IN_FORCE l) cap).setFld (Reg.FEC_DEC_STATUS.THROTTLED l) (b2n thr)).setFld (Reg.FEC_DEC_STATUS.LOOP_SUSP l) (b2n susp)
  let s := (s.raiseIf (thr && !was) (Reg.FEC_EVENT.THROTTLE_ON l)).raiseIf (!thr && was) (Reg.FEC_EVENT.THROTTLE_OFF l)
  let s := s.raiseIf (susp && !wasSusp) (Reg.FEC_EVENT.LOOP_SUSP l)
  (s.publish (Reg.FEC_PREBER.BER_LOG l) ber).publish (Reg.FEC_MARGIN.MARGIN l) (fecMargin ber (fmtRate (s.rxFmtW l)) cap)

/-! ### Meanings -/

/-- DECODER_ENTRY (R179). -/
def execDecoderEntry (l : Nat) (errs : List StoreErr) (s : State) : Host.Outcome State Fault Refusal := .next (s.cmdRun (·.decEntry l errs))

/-- REFINEMENT_PASS (R274). -/
def execRefinementPass (l : Nat) (errs : List StoreErr) (s : State) : Host.Outcome State Fault Refusal :=
  .next (s.cmdRun (·.refine l errs))

/-- DECODER_RELEASE (R180). -/
def execDecoderRelease (l : Nat) (cut : List (Nat × Nat)) (s : State) : Host.Outcome State Fault Refusal := .next (s.cmdRun (·.decRelease l cut))

end Sys2Proof.Machine
end

