-- ==== Sys2Proof/Machine/Flit.lean ====
section
/-! DEFINITION. What the die-to-die links deliver: samples and calibration samples at the core, DAC codes and control writes at the
tile (R219-R231, R240, R242, R253, R288-R295). -/

namespace Sys2Proof.Machine

/-! ### Converter correction (R219, R221, R242, R253) -/

/-- The unit that serves an ADC's sample `k` on the tile, and whether its slot has no working unit. -/
def State.server (s : State) (t a k : Nat) : Option Nat × Bool :=
  let c := (s.cnv t).tile
  let slot := 16 * (8 * a + k % 8) + k / 8 % 16
  match c.slots.get firstSlots slot with
  | 0 => (none, true)
  | i + 1 => (some i, c.unmasked.contains slot)

/-- The correction of a code that some unit, or none, has converted. -/
def State.correct (s : State) (t : Nat) (i : Option Nat) (x : Int) : Int :=
  match i with
  | some i => ((s.cnv t).tile.units.get noUnit i).correct x
  | none => ({} : UnitVal).correct x

/-- A sample in the middle of three: a slot that no unit serves takes the mean of its neighbours (R242), an erased sample is
zero (R253). -/
def sampleOut (a b c : Int × Bool × Bool) : Int × Bool :=
  if b.2.1 then (0, true) else if b.2.2 then (roundDiv (a.1 + c.1) 2, false) else (b.1, false)

/-- The samples that three or more in a row fix. -/
def samplesOut : List (Int × Bool × Bool) → List (Int × Bool)
  | a :: b :: c :: r => sampleOut a b c :: samplesOut (b :: c :: r)
  | _ => []

/-! ### Statistics (R228, R229, R231, R240) -/

/-- A corrected sample of an active unit that counts: the window's sums, the products of successive samples, and the statistics of the
measuring units `us` of its ADC. -/
def CnvSt.count (c : CnvSt) (us : List Nat) (a k i : Nat) (code y : Int) : CnvSt :=
  let c := { c with win := c.win.set noSums i ((c.win.get noSums i).add y), prev := c.prev.set (fun _ => none) a (some y), cor := match c.prev.get (fun _ => none) a with
    | some p => let br := 8 * a + (k + 7) % 8; let z := c.cor.get (fun _ => (0, 0, 0)) br; c.cor.set (fun _ => (0, 0, 0)) br (z.1 + p * y, z.2.1 + (p * p).toNat, z.2.2 + (y * y).toNat)
    | none => c.cor }
  us.foldl (fun c u =>
    let n := c.calNow u
    if n.2 then let h := 256 * (12 * u + n.1) + (code + 128).toNat; { c with histA := c.histA.set natZero h (c.histA.get natZero h + 1) }
    else { c with sumA := c.sumA.set noSums u ((c.sumA.get noSums u).add y) }) c

/-- A sample of an active unit that is excluded. -/
def CnvSt.exclude (c : CnvSt) (a i : Nat) : CnvSt := { c with winX := c.winX.set natZero i (c.winX.get natZero i + 1), prev := c.prev.set (fun _ => none) a none }

/-- Whether a sample of a line is excluded from the statistics by its frame position: `k` numbers it as the DSP takes it (R228). -/
def State.skipsAt (s : State) (t : Nat) (k : Int) : Bool :=
  !(s.ln t).frm.oof && (match (s.dsp t).posAt k with | some p => fixedPos p | none => false)

/-- The samples of a flit enter the statistics: `k` numbers the first, `at_` as the DSP takes it. -/
def State.tallyFlit (s : State) (t a k : Nat) (at_ : Int) (codes : List Int) (erased : Bool) : State :=
  let us := ((s.measuring t).map (·.1)).filter (· / 144 == a)
  let step (c : CnvSt) (p : Int × Nat) : CnvSt := match s.server t a (k + p.2) with
    | (none, _) => { c with prev := c.prev.set (fun _ => none) a none }
    | (some i, _) => if erased || s.skipsAt t (at_ + p.2) then c.exclude a i else c.count us a (k + p.2) i p.1 (s.correct t (some i) p.1)
  s.modCnv t fun c => codes.zipIdx.foldl step c

/-! ### Toward the core (R288, R289, R294) -/

/-- The next sample flit of an ADC that the core takes. -/
def State.adcNext (s : State) (t a : Nat) : Nat := s.d2d.smp.get natZero (8 * t + 4 + a)

/-- Sample flit `n` of an ADC reaches converter correction; its last sample waits for the next flit. -/
def State.adcFlit (s : State) (t a n : Nat) (b : List Byte) (erased : Bool) : State :=
  let c := 4 * t + a
  let codes := b.map BitVec.toInt
  let new := codes.zipIdx.map fun p => let r := s.server t a (120 * n + p.2); (if erased then 0 else s.correct t r.1 p.1, erased, r.2)
  let old := match s.d2d.tail.get (fun _ => []) c with | [] => [((0 : Int), true, false)] | o => o
  let s := s.tallyFlit t a (120 * n) (((s.dsp t).fed a : Int) + old.length - 1) codes erased
  let s := { s with d2d := { s.d2d with tail := s.d2d.tail.set (fun _ => []) c (new.drop 118) } }
  let v := samplesOut (old ++ new)
  (s.emit (.samples t a (120 * n + 1 - old.length) v)).dspFeed t a v

/-- A calibration flit: every fourth conversion of a measuring unit, from its branch, unit, candidate and conversion index on (R289). -/
def State.calFlit (s : State) (t a : Nat) (b : List Byte) : State :=
  let br := (b.getD 0 0#8).toNat % 8
  let u := 144 * a + 18 * br + (b.getD 1 0#8).toNat
  match (s.measuring t).find? fun p => p.1 == u with
  | none => s
  | some p =>
    let at_ (i : Nat) : Int := (128 * (ofBe ((b.drop 4).take 4) + 4 * i) + 8 * p.2 + br : Nat) - (120 * s.adcNext t a : Nat) + (s.dsp t).fed a + 1
    let xs := ((((b.drop 8).take 112).map BitVec.toInt).zipIdx.filter fun q => !s.skipsAt t (at_ q.2)).map (·.1)
    let k := (b.getD 2 0#8).toNat % 12
    s.modCnv t fun c =>
      if (c.calNow u).2 then xs.foldl (fun c x => let h := 256 * (12 * u + k) + (x + 128).toNat; { c with histR := c.histR.set natZero h (c.histR.get natZero h + 1) }) c
      else { c with sumR := c.sumR.set noSums u (xs.foldl Sums.add (c.sumR.get noSums u)) }

/-! ### Toward the tile (R222, R290, R294) -/

/-- Whether a tile's DAC lands carry zero. -/
def State.dacZero (s : State) (t : Nat) : Bool := if t = 0 then s.pins.dacZeroA else s.pins.dacZeroB

/-- A DAC sends 120 codes, rounded to what its binary cells can still form: v = code + 128 (R222, R244); none while the line is muted (R214). -/
def State.dacSend (s : State) (t d : Nat) (b : List Byte) : State :=
  if s.dacZero t then s
  else s.emit (.dac t d (b.map fun v => ((s.cnv t).dacValue d (v.toInt + 128).toNat : Int) - 128))

/-! ### Sample flits in order (R288, R294) -/

/-- Sample flit `n` of a group reaches its converter; an erased one is zero samples toward the core, the last intact flit again toward
the tile (R294). -/
def State.smpFlit (s : State) (g n : Nat) (f : Option (List Byte)) : State :=
  let t := g / 8
  let a := g % 4
  let j := 4 * g + n % 4
  if g / 4 % 2 = 1 then
    let b := f.getD (List.replicate 120 0#8)
    (s.emit (.flit j b f.isNone)).adcFlit t a n b f.isNone
  else
    let b := f.getD (s.d2d.dac.get (fun _ => []) (4 * t + a))
    ({ s with d2d := { s.d2d with dac := s.d2d.dac.set (fun _ => []) (4 * t + a) b } }.emit (.flit j b f.isNone)).dacSend t a b

/-- The sample flits of a group that are next in number reach their converter, at most `k` of them. -/
def State.smpNext (s : State) (g : Nat) : Nat → State
  | 0 => s
  | k + 1 =>
    let n := s.d2d.smp.get natZero g
    match (s.d2d.wait.get (fun _ => []) g).find? fun p => p.1 == n with
    | none => s
    | some p =>
      let s := { s with d2d := { s.d2d with smp := s.d2d.smp.set natZero g (n + 1), wait := s.d2d.wait.set (fun _ => []) g ((s.d2d.wait.get (fun _ => []) g).filter fun q => q.1 != n) } }
      (s.smpFlit g n p.2).smpNext g k

/-- A sub-link delivers its next sample flit, number 4m + its own number; the converter takes the group's flits in the order of their
numbers (R288).  DEDUCED: a flit that a resend has put behind a later one of another sub-link is waited for. -/
def State.smpTake (s : State) (j : Nat) (f : Option (List Byte)) : State :=
  let x := s.sub j
  let g := j / 4
  let w := s.d2d.wait.get (fun _ => []) g ++ [(4 * x.num + j % 4, f)]
  let s := s.setSub j { x with num := x.num + 1 }
  { s with d2d := { s.d2d with wait := s.d2d.wait.set (fun _ => []) g w } }.smpNext g w.length

/-! ### Control and status (R290, R295, R298) -/

/-- What a tile says of itself in each status flit: its clock's lock, its sensors, its monitor's results (R290). -/
def State.tileStatus (s : State) (t : Nat) : List Nat :=
  b2n (s.ln t).tileLock :: ((List.range 4).map fun i => s.fld (Reg.THM_T.RAW (16 + 4 * t + i))) ++ (List.range 64).map fun n => (s.reg (Reg.MON_RES (t + 1) n)).toNat

/-- The control or status flit of a SEQ that a sub-link's sender waits for. -/
def SendSub.sentAt (x : SendSub) (q : Nat) : Option Ctl := (x.sent.find? fun p => p.1 == q).map (·.2)

/-- It waits no longer. -/
def State.unsend (s : State) (j q : Nat) : State := s.modSnd j fun x => { x with sent := x.sent.filter fun p => p.1 != q }

/-- A control flit reaches the tile, which acknowledges it and sends under a new lane map; a status flit reaches the core, which hears
the acknowledgement. -/
def State.ctlTake (s : State) (j q : Nat) : State :=
  match (s.snd j).sentAt q with
  | some (.ack i n _) => (s.unsend j q).unsend i n
  | some (.lane i e) => (s.modSnd i fun x => { x with epoch := e }).sendCtl (j / 32 * 2 + 1) (j / 4 % 4) (.ack j q (s.tileStatus (j / 32)))
  | some (.tile _ _ _) => s.sendCtl (j / 32 * 2 + 1) (j / 4 % 4) (.ack j q (s.tileStatus (j / 32)))
  | none => s

/-- An erased control or status flit is sent again as a new one. -/
def State.ctlAgain (s : State) (j q : Nat) : State :=
  match (s.snd j).sentAt q with
  | some c => (s.unsend j q).sendCtl (j / 16) (j / 4 % 4) c
  | none => s

/-! ### Delivery (R292-R295) -/

/-- A delivered flit's effect: sub-link, SEQ, type and payload. -/
def State.flitLand (s : State) (j q type : Nat) (b : List Byte) : State :=
  let t := j / 32
  let a := j / 4 % 4
  if type = 0 then s
  else if type = 1 then s.smpTake j (some b)
  else
    let s := s.emit (.flit j b false)
    if type = 2 ∧ j / 16 % 2 = 1 then s.calFlit t a b
    else if type = 3 then s.ctlTake j q
    else if type = 4 ∧ j / 16 % 2 = 1 then { s with d2d := { s.d2d with obs := s.d2d.obs.set (fun _ => none) (4 * t + a) (some b) } }
    else s

/-- ERASURE is raised once in a tick. -/
def State.eraseNote (s : State) : State :=
  if s.d2d.eraTick = some s.tick then s else ({ s with d2d := { s.d2d with eraTick := some s.tick } }).raiseDp Reg.D2D_EVENT.ERASURE

/-- An erased flit: a sample flit keeps its place; calibration and observation flits are dropped, control and status flits sent again
(R294, R295). -/
def State.erase (s : State) (j q type : Nat) : State :=
  if type = 0 then s
  else
    let s := s.subCount j 2
    if type = 1 then s.eraseNote.smpTake j none
    else if type = 3 then s.ctlAgain j q
    else s

/-- FLIT_DELIVERY: a flit reaches its delivery time; `bad` says that the delay store read failed.  The type of an erased flit is the one
its sender keeps, `type` where it keeps none any more (R292, R293). -/
def State.flitOut (s : State) (j seq type : Nat) (bad : Bool) : State :=
  if 64 ≤ j ∨ s.trained (j / 16) = false then s
  else
    let x := s.sub j
    let q := seq % 4096
    let good := match x.slots.get noSlot q with | some f => f.good | none => none
    let usable := s.subLive j && !bad && !s.retrains j
    let x := { x with slots := x.slots.set noSlot q none, last := some q }
    match good, usable with
    | some g, true => (s.setSub j { x with run := 0 }).flitLand j q g.1 g.2
    | _, _ =>
      let was := match (s.snd j).replay.find? fun p => p.1 == q with | some p => p.2.1 | none => type
      (s.setSub j { x with run := min 64 (x.run + 1) }).erase j q was

/-- FLIT_DELIVERY (R292-R295). -/
def execFlitDelivery (j seq type : Nat) (bad : Bool) (s : State) : Host.Outcome State Fault Refusal := .next (s.cmdRun (·.flitOut j seq type bad))

end Sys2Proof.Machine
end

