-- ==== Sys2Proof/Machine/Tick.lean ====
section
/-! DEFINITION. The tick: publication at its boundary and the eight phases of the control sequencer (R30-R34, R41-R43). -/

namespace Sys2Proof.Machine

/-! ### The boundary (R31, R41, R208) -/

/-- The bits of a register that HOLD holds back: the live-tunable ones of R208. -/
def holdBits (off : Nat) : Word :=
  let o := localOff off
  if o = Reg.TXP_CTL 0 then 0xC00#32
  else if o = Reg.TXP_GAIN 0 ∨ (Reg.TXP_PE_TAP 0 0 0 ≤ o ∧ o < Reg.TXP_MASK 0 0) then 0xFFFFFFFF#32 else 0#32

/-- Whether a register's new value is held back: HOLD is 1, and bits that it holds differ from the datapath's (R208).
DEDUCED: HOLD acts as it stands at the boundary. -/
def State.heldBack (s : State) (off : Nat) : Bool :=
  decide (0x200000 ≤ off) && decide (off < 0x400000) && s.bit (Reg.TXP_CTL.HOLD (off / 0x100000 - 2)) &&
    (holdBits off &&& (s.reg off ^^^ s.shadow.get regReset off)) != 0#32

/-- A receiver that becomes enabled in service starts afresh; one that becomes disabled delivers nothing more (R45). -/
def State.adoptRxEn (old new : Word) (s : State) (l : Nat) : State :=
  if s.fld (lineState l) ≠ 2 ∨ old.getLsbD (4 * l + 2) = new.getLsbD (4 * l + 2) then s
  else if new.getLsbD (4 * l + 2) then
    ((s.modFrm l FrmSt.fresh).modLn l fun x => { x with oom := true, dsp := {} }).modRxp l fun x => { x with state := 0, attempt := false, restart := none }
  else s.modLn l fun x => { x with rxq := [], ready := [] }

/-- A line engine that becomes disabled in service: its links stop at the next boundary, whatever its enable is by then; one that was not
up is not disabled again (R45). -/
def State.adoptEng (old new : Word) (s : State) (l : Nat) : State :=
  if old.getLsbD (4 * l) && !new.getLsbD (4 * l) then s.modLn l fun x => { x with offAt := some s.tick }
  else if new.getLsbD (4 * l) && (s.fld (lineState l) == 0 || s.fld (lineState l) == 3) then s.modLn l fun x => { x with offAt := none } else s

/-- A channel that becomes enabled starts its sequence afresh; one that becomes disabled drops what it holds (R64, R75,
R94). -/
def State.adoptChan (s : State) (n : Nat) (old new : Word) : State :=
  let s := if new.getLsbD 0 && !old.getLsbD 0 then s.setCtx n {} else s
  let s := if old.getLsbD 0 && !new.getLsbD 0 then s.txStop n else s
  if new.getLsbD 1 && !old.getLsbD 1 then s.seqReset n else s

/-- The datapath is given a register's new value (R31, R41): a line engine adopts it at its next frame head, the Floe block
and the host side, which serve both lines, at the boundary (DEDUCED). -/
def State.adopt (s : State) (off : Nat) : State :=
  if 0x200000 ≤ off ∧ off < 0x400000 ∧ 0x220000 ≤ localOff off then s.adoptLater (off / 0x100000 - 2) off 0xFFFFFFFF#32
  else
    let old := s.shadow.get regReset off
    let new := s.reg off
    let s := s.loadShadow off
    if old = new then s
    else if off = Reg.GLB_LINE_CTL then [0, 1].foldl (State.adoptEng old new) ([0, 1].foldl (State.adoptRxEn old new) s)
    else if Reg.FLO_CH_CFG 0 ≤ off ∧ off < Reg.FLO_CH_CFG 512 then s.adoptChan ((off - Reg.FLO_CH_CFG 0) / 4) old new
    else s

/-- A register is published under HOLD: all but the bits that HOLD holds (R208, R210, R214). -/
def State.publishHeld (s : State) (off : Nat) : State := s.adoptLater (off / 0x100000 - 2) off (~~~(holdBits off))

/-- Publish the written registers to the datapath's copies, but for what is held back. -/
def State.publishShadow (s : State) : State :=
  let keep := s.shadowDue.filter s.heldBack
  let s := (s.shadowDue.filter fun o => !(keep.contains o)).foldl State.adopt { s with shadowDue := keep }
  let s := (keep.foldl State.publishHeld s).adoptIdle 0 |>.adoptIdle 1
  (s.setFld (Reg.TXP_STATUS.HOLD_PEND 0) (b2n (keep.any fun o => o / 0x100000 == 2))).setFld (Reg.TXP_STATUS.HOLD_PEND 1)
    (b2n (keep.any fun o => o / 0x100000 == 3))

/-- A tile whose transmitter sends no frames takes published changes at a boundary, 1,000 ns after their publication where control
writes go to it (R221, R295; DEDUCED). -/
def State.tileIdle (s : State) (l : Nat) : State := if s.txOn l then s else s.tileAdopt l (!s.trained (2 * l))

/-- Show one published or latched field. -/
def State.showFld (s : State) (p : Fr × Nat) : State := s.setFld p.1 p.2

/-- The core band sets the read-assist level of every macro from the boundary that shows it on (R392). -/
def State.assistBoundary (s : State) : State := { s with mem := { s.mem with assist := readAssist (s.fld Reg.THM_STATUS.CORE_BAND) } }

/-- The results of the last tick show. -/
def State.publishAll (s : State) : State :=
  let s := s.pubQ.foldl State.showFld { s with pubQ := [] }
  let s := [0, 1, 2, 3].foldl State.presetBoundary s.assistBoundary.ctlMoves
  (((s.cnvBoundary 0).cnvBoundary 1).tellLanes.publishShadow.tileIdle 0).tileIdle 1

/-- What the boundary itself does: publication, the clock's and the counter's advance, row moves. -/
def State.boundary (s : State) (t : TickIn) : State := (s.publishAll.clkBoundary t).timBoundary.publishMoves

/-- The part of the boundary that is no result of the sequencer's: the clock and the counter advance. -/
def State.clockOnly (s : State) (t : TickIn) : State := (s.numStep.secondEnd.dpllTick t).setTime ((s.time + 500 * (2 ^ 33 + s.tim.adj) : Int))

/-! ### The phases (R30) -/

/-- Phase 1: the due snapshot, of the counters as the last tick left them, is captured, a preset applied, windows end. -/
def State.phase1 (s : State) (ctrs : SMap Ctr) : State := s.winOn.foldl State.winBoundary (((s.formSnap false).captureSnap ctrs).applyPreset ctrs)

/-- Ports that a configuration uses. -/
def State.usedPorts (s : State) : List Nat :=
  ((s.regs.filter fun p => decide (0xA0100 ≤ p.1) && decide (p.1 < 0xA0200)).map fun p => (p.1 - 0xA0100) / 4).filter fun p =>
    s.fld (Reg.HST_PORT_CFG.TYPE p) != 0

/-- A used port without link counts its time (R464, R466). -/
def State.portDown (s : State) (p : Nat) : State :=
  if s.bit (Reg.HST_PORT_STATUS.LINK_UP p) then s else s.countLevel (portCtr p 14) false

/-- The host FEC counts of a port (R466). -/
def State.hostFec (s : State) (x : Nat × Nat × Nat) : State :=
  if x.1 < 64 then (s.count (portCtr x.1 7) x.2.1).count (portCtr x.1 8) x.2.2 else s

/-- The latch of one line engine's datapath status. -/
def State.latchLine (t : TickIn) (s : State) (l : Nat) : State :=
  let pwr := (s.dsp l).power
  let s := ((s.rxpTick l).rxpLatch l).lcyTick l (t.again.contains l)
  (((s.frmTick l pwr).txpTick l).fecTick l).maskTick l

/-- A sample is lost to an uncorrectable read of the dispersion and equaliser memory: it is zeroed and flagged, and MEM_ERASE raised (R253).
The spec does not lay the memory out: its word says which of the compensator's samples, in their order (DESIGN CHOICE). -/
def State.dspLost (s : State) (l word : Nat) : State :=
  (s.modDsp l fun x => { x with cdBuf := x.cdBuf.modify (word % max 1 x.cdBuf.length) fun _ => { erased := true } }).raise (Reg.RXP_EVENT.MEM_ERASE l)

/-- What an uncorrectable read does to the unit that met it, where no command of the unit tells it (R374). -/
def State.unitLost (s : State) (e : MemErr) : State :=
  if laneRead e.syn ≠ .uncorr then s
  else if memClass e.inst = 3 then s.dspLost (memLine e.inst) e.word
  else if memClass e.inst = 7 then s.scratchLost
  else if memClass e.inst = 8 then s.setLost (if e.inst < 1268 then 0 else 1) e.set
  else s

/-- One access of a unit: what it reports, and what it does to the unit. -/
def State.memUnit (s : State) (a : MemAcc) : State :=
  let t := s.memAcc a
  match a with
  | .wrote _ _ _ => t
  | .read inst word lane set => t.unitLost (s.heldErr inst word lane false set)
  | .merge inst word lane set => t.unitLost (s.heldErr inst word lane true set)
  | .err e => t.unitLost e

/-- Phase 2 shows the errors counted against the lanes in the running window (R42, R296). -/
def State.showErrs (s : State) : State := s.d2d.err.foldl (fun (s : State) p => s.setFld (Reg.D2D_LANE.ERR p.1) (min 0xFFFF p.2)) s

/-- Phase 2: datapath status and events, temperatures, memory errors. -/
def State.phase2 (s : State) (t : TickIn) : State :=
  let s := (s.latQ.foldl State.showFld { s with latQ := [] }).showErrs
  let s := s.evQ.foldl State.latchEvent { s with evQ := [] }
  let s := { s with thm := s.thm.latch t.temps }
  let s := t.mem.foldl State.memUnit ((s.setReload 0).setReload 1)
  let s := t.hostFec.foldl State.hostFec (s.usedPorts.foldl State.portDown s)
  if s.down then s else ([0, 1].foldl (State.latchLine t) s).pairTick

/-- Phase 3: reference decisions, time transfer. -/
def State.phase3 (s : State) (t : TickIn) : State := (s.clkPhase3 t).timPhase3

/-- A thermal shutdown stops the datapath, converter and tile clocks: the links stop, the frames in flight are lost, and the
lines are muted (R214, R215, R395); calibration is suspended (R228). -/
def State.clocksStop (s : State) (l : Nat) : State :=
  let s := ((s.linkStop (2 * l)).linkStop (2 * l + 1)).dropPlaced l
  (s.publish (Reg.CNV_STATUS.SUSPEND l) (s.calSuspend l)).raiseDpIf ((s.ln l).mute == 64) (Reg.TXP_EVENT.MUTE_ON l)

/-- Phase 4: thermal evaluation and the shutdown check. -/
def State.phase4 (s : State) : State :=
  let t := s.thermal.shutdownCheck
  if t.down && !s.down then (([0, 1].foldl State.clocksStop t).rimCut 0).rimCut 1 else t

/-- Phase 6: the named rows' repair, the converters' repair and calibration; it does not run once shutdown is confirmed
(R32). -/
def State.phase6 (s : State) : State := if s.down then s else (s.repairRows.cnvTick 0).cnvTick 1

/-- A pending commit whose activation tick has come unprepared is abandoned (R430). -/
def State.commitLate (s : State) : State :=
  match s.commit with
  | some c => if c.actTick ≤ s.tick ∧ c.prepared = false ∧ c.doneTick = false then s.abandonCommit 1 else s
  | none => s

/-- The known-answer test falls due every 1,000,000 ticks (R159). -/
def State.katDue (s : State) : State := if s.tick % 1000000 = 0 then { s with cph := { s.cph with kat := true } } else s

/-- Phase 7: the status of the Floe block, the Rime channel and the monitors; commits. -/
def State.phase7 (s : State) : State :=
  let s := s.katDue.monFollows.nbStale
  let s := { (s.rimTick 0).rimTick 1 with alarmQ := [] }
  if s.down then s else s.floTick.commitLate

/-- A tick whose phases run. -/
def State.runTick (s : State) (t : TickIn) : State :=
  let s := (s.boundary t).phase1 s.ctrs
  let s := ((s.phase2 t).phase3 t).phase4.phase5
  s.phase6.phase7.wraps.phase8

/-- A tick consumed by an overrun (R34, R471). -/
def State.overrunTick (s : State) (t : TickIn) : State :=
  let s := ({ s with consumed := true }.clockOnly t).setFld Reg.GLB_TICK_STATUS.OVERRUN_CNT (satAdd 0xFFFF (s.fld Reg.GLB_TICK_STATUS.OVERRUN_CNT) 1)
  (s.raise Reg.GLB_TICK_EVENT.OVERRUN).missSnap

/-- One tick boundary and the tick after it: rows named and lanes lost since the last phase 6 are repaired before it (R298, R377); none while the sequencer or the time base has stopped, which it does once its last source is lost
(R446, R448). -/
def State.tickStep (s : State) (t : TickIn) : State :=
  if s.stalled || s.noSource then { s with stalled := true }
  else
    let s := if t.overrun || s.down then s else s.repairRows.replaceLanes
    let s := { s with tick := s.tick + 1, msixSent := 0, consumed := false, acted := false }
    if t.overrun then s.overrunTick t else s.runTick t

/-- TICK (R30). -/
def execTick (t : TickIn) (s : State) : Host.Outcome State Fault Refusal := .next (s.cmd (·.tickStep t))

end Sys2Proof.Machine
end

