-- ==== Sys2Proof/Machine/Operands.lean ====
section
/-! DEFINITION. BAR accesses: what a register reads as, latching reads, and whether and how a write is taken (R13-R17,
R468, R475, R476, R487-R491, R499). -/

namespace Sys2Proof.Machine

open Sys2Proof (Form)

/-! ### What a register reads as -/

/-- Word `i` of the capability list: ID and VERSION, BASE, SIZE, NEXT of its entry (R437, R499). -/
def capWord (i : Nat) : Nat :=
  let e := i / 4
  let id := if e < 15 then e + 1 else 0x100 + (e - 15)
  let base := if e < 11 then [0, 0x10000, 0x20000, 0x30000, 0x40000, 0x50000, 0x60000, 0x70000, 0x80000, 0x90000, 0xA0000].getD e 0
    else [0x100000, 0x200000, 0x300000, 0x400000].getD (e - 11) 0
  let size := if e < 10 then 0x10000 else if e = 10 then 0x60000 else if e < 14 then 0x100000 else if e = 14 then 0x400000 else 0
  match i % 4 with
  | 0 => id + 0x10000
  | 1 => base
  | 2 => size
  | _ => if e = 23 then 0 else 0x100 + 16 * (e + 1)

/-- One 32-bit half of a number, as a register. -/
def half (v h : Nat) : Word := BitVec.ofNat 32 (v / 2 ^ (32 * h))

/-- The words of a counter: value low and high, wrap count and flag (R468, R480). -/
def ctrWord (c : Ctr) (sub : Nat) : Word :=
  if sub = 0 then half c.v 0 else if sub = 4 then half c.v 1 else if sub = 8 then BitVec.ofNat 32 (c.w + 256 * b2n c.wrap) else 0

/-- The whole seconds left in the health window (R423). -/
def State.healthLeft (s : State) : Nat := match s.boot.healthEnd with | some t => min 0xFFFF ((t + 1 - s.tick) / 1000000) | none => 0

/-- A register with one field shown. -/
def shown (w : Word) (f : Fr) (v : Nat) : Word := setBits w f.hi f.lo v

/-- The value in effect of the register at an offset, `cyc` time-base cycles into the tick.  Registers that show other
state than a stored value are read from that state; WO fields read as zero (R14). -/
def State.view (s : State) (cyc off : Nat) : Word :=
  let w := s.reg off
  if off = 0x8 ∨ off = 0xC then half s.fuses.deviceId ((off - 0x8) / 4)
  else if off = 0x80 ∨ off = 0x84 then half s.tick ((off - 0x80) / 4)
  else if 0x100 ≤ off ∧ off < 0x280 ∧ off % 4 = 0 then BitVec.ofNat 32 (capWord ((off - 0x100) / 4))
  else if off = Reg.CFG_HEALTH then shown w Reg.CFG_HEALTH.REMAIN s.healthLeft
  else if off = Reg.FLT_STATUS then shown w Reg.FLT_STATUS.THERM (b2n s.thermPin)
  else if off = Reg.FLT_MOR_LOST then BitVec.ofNat 32 (s.mor.lost + 65536 * s.mor.queue.length)
  else if 0x38800 ≤ off ∧ off < 0x38B00 then
    let u := (off - 0x38800) / 0x100
    shown w (Reg.MON_RES.ISO u 0) (b2n (s.monIsolated u))
  else if off = 0x50000 ∨ off = 0x50004 then half (s.nowNs cyc) ((off - 0x50000) / 4)
  else if off = 0x50008 then BitVec.ofNat 32 (s.nowFrac cyc)
  else if 0x60100 ≤ off ∧ off < 0x60200 then shown w (Reg.CPH_KEY_STATE.IN_USE 0) (b2n (s.keyInUse ((off - 0x60100) / 4)))
  else if off = Reg.CPH_Q_DEPTH then BitVec.ofNat 32 s.qDepth
  else if 0x71000 ≤ off ∧ off < 0x73000 ∧ (off - 0x71000) % 0x20 = 0x18 then shown w (Reg.RIM_NB_6.AGE_MS 0) (s.nbAge ((off - 0x71000) / 0x20))
  else if 0x81000 ≤ off ∧ off < 0x81000 + 4 * 1272 then BitVec.ofNat 32 (s.macroWord ((off - 0x81000) / 4))
  else if off = 0x400024 ∨ off = 0x400028 then half s.bankTick ((off - 0x400024) / 4)
  else if off = 0x40002C ∨ off = 0x400030 then half s.bankTime ((off - 0x40002C) / 4)
  else if 0x420000 ≤ off ∧ off < 0x430000 then BitVec.ofNat 32 (catRead ((off - 0x420000) / 4))
  else if 0x500000 ≤ off ∧ off < 0x540000 then
    let k := (off - 0x500000) / 16
    if ctrKind k = 0 then 0 else ctrWord (s.ctr (ctrSlot k)) (off % 16)
  else if 0x540000 ≤ off ∧ off < 0x580000 then
    let k := (off - 0x540000) / 16
    if ctrKind k = 0 then 0 else ctrWord (s.bank.get (fun _ => {}) (ctrSlot k)) (off % 16)
  else w &&& ~~~(BitVec.ofNat 32 (maskOf off fun f => f.acc == .wo))

/-! ### Latching reads (R15, R43, R335, R468, R474) -/

/-- The registers that a read of an offset captures. -/
def companions (off : Nat) : List Nat :=
  let o := localOff off
  if off = 0x8 ∨ off = 0x80 ∨ off = 0x50058 ∨ o = 0x280030 ∨ o = 0x280038 ∨ o = 0x280060 ∨ o = 0x2A0040 then [off + 4]
  else if off = 0x50000 then [off + 4, off + 8]
  else if 0x71000 ≤ off ∧ off < 0x73000 ∧ (off - 0x71000) % 0x20 = 0 then (List.range 7).map fun i => off + 4 * (i + 1)
  else if off = 0x400020 then [0x400024, 0x400028, 0x40002C, 0x400030]
  else if 0x500000 ≤ off ∧ off < 0x580000 ∧ off % 16 = 0 then [off + 4, off + 8]
  else if 0x600000 ≤ off ∧ off < 0x600000 + 64 * 1152 then
    (if off % 64 = 8 then (List.range 10).map fun i => off + 4 * (i + 1) else if off % 64 = 0x10 ∨ off % 64 = 0x24 then [off + 4] else [])
  else []

/-- What unlisted captures hold: nothing. -/
def noCapture : Nat → Option Word := fun _ => none

/-- What a path (0 BAR0, 2 BAR2) has captured of a register. -/
def State.captured (s : State) (path off : Nat) : Option Word := (if path = 2 then s.lat2 else s.lat0).get noCapture off

/-- What a path reads at a register: the captured value, or the value in effect; zero from GLB_TICK_CNT_HI before the first
read of its low half (R43), and from PMC_SNAP_TICK and PMC_SNAP_TIME before the first read of PMC_SNAP_GEN (R15). -/
def State.pathWord (s : State) (path cyc off : Nat) : Word :=
  match s.captured path off with
  | some w => w
  | none => if off = 0x84 ∨ (0x400024 ≤ off ∧ off ≤ 0x400030) then 0 else s.view cyc off

/-- Capture one companion anew: of a _LO that the path itself reads as captured, the _HI captured with it; else the value in effect. -/
def State.captureOne (path cyc from_ : Nat) (s : State) (off : Nat) : State :=
  let v := if (s.captured path from_).isSome then s.pathWord path cyc off else s.view cyc off
  if path = 2 then { s with lat2 := s.lat2.set noCapture off (some v) } else { s with lat0 := s.lat0.set noCapture off (some v) }

/-- A 32-bit read of a register by a path. -/
def State.readWord (s : State) (path cyc off : Nat) : Word × State :=
  (s.pathWord path cyc off, (companions off).foldl (State.captureOne path cyc off) s)

/-- A BAR0 read, or a BAR2 read of the BAR0 offset it mirrors: the data, and the state with what was captured (R487). -/
def State.readForm (s : State) (path cyc : Nat) (form : Form) (off : Nat) : Nat × State :=
  match form with
  | .w32 => if off % 4 = 0 then let r := s.readWord path cyc off; (r.1.toNat, r.2) else (0, s)
  | .w64 =>
    if off % 8 = 0 then
      let a := s.readWord path cyc off
      let b := a.2.readWord path cyc (off + 4)
      (a.1.toNat + b.1.toNat * 2 ^ 32, b.2)
    else (0, s)
  | .other => (0, s)

/-- A BAR0 read; none in D3hot, in which the device decodes no BAR (R484). -/
def State.barRead (s : State) (form : Form) (off cyc : Nat) : State :=
  if s.pcie.d3hot then s
  else let r := s.readForm 0 cyc form off; r.2.emit (.readData r.1 false)

/-! ### The BAR2 mirror (R475, R476) -/

/-- The BAR0 offset a BAR2 offset mirrors. -/
def mirrorOf (o : Nat) : Option Nat :=
  if o < 0x40000 then some (0x540000 + o)
  else if o < 0x80000 then some (0x500000 + (o - 0x40000))
  else if o < 0x92000 then some (0x600000 + (o - 0x80000))
  else if 0xA0000 ≤ o ∧ o < 0xB0000 then some (0x420000 + (o - 0xA0000))
  else if 0xFF000 ≤ o ∧ o < 0xFF014 then some (0x400020 + (o - 0xFF000))
  else none

/-- A mirror read while the mirror is disabled is logged and returns zero (R476). -/
def State.mirrorDenied (s : State) (o : Nat) : State :=
  let s := s.setFld Reg.PMC_MIR_DENY_CNT.CNT (satAdd 0xFFFFFFFF (s.fld Reg.PMC_MIR_DENY_CNT.CNT) 1)
  let s := if s.bit Reg.PMC_MIR_LOG.VALID then s else (s.setFld Reg.PMC_MIR_LOG.OFFSET o).setFld Reg.PMC_MIR_LOG.VALID 1
  (s.raise Reg.PMC_EVENT.MIRROR_DENIED).emit (.readData 0 false)

/-- A BAR2 read (R475, R476, R487). -/
def State.mirrorRead (s : State) (form : Form) (o cyc : Nat) : State :=
  let aligned := match form with | .w32 => o % 4 == 0 | .w64 => o % 8 == 0 | .other => false
  if s.pcie.d3hot then s
  else if !aligned then s.emit (.readData 0 false)
  else if !s.bit Reg.PMC_USER_EN.EN then s.mirrorDenied o
  else match mirrorOf o with
    | none => s.emit (.readData 0 false)
    | some b => let r := s.readForm 2 cyc form b; r.2.emit (.readData r.1 false)

/-! ### Whether a write is taken (R14, R16, R17, R489-R491) -/

/-- The register after a host write of `v`: RW, RWO and WO fields take it, RW1C bits written 1 clear (R14). -/
def writtenWord (off : Nat) (old v : Word) : Word :=
  (regFlds off).foldl (fun w f =>
    match f.acc with
    | .ro => w
    | .rw1c => setBits w f.hi f.lo (getBits old f.hi f.lo &&& (2 ^ 32 - 1 - getBits v f.hi f.lo))
    | _ => setBits w f.hi f.lo (getBits v f.hi f.lo)) old

/-- Whether an offset lies in a register; the capability list is read-only (R438). -/
def mapped (off : Nat) : Bool := (regDesc off).isSome || (decide (0x100 ≤ off) && decide (off < 0x280) && off % 4 == 0)

/-- Cause 3: the state forbids the write (R44, R68, R395, R477, R489). -/
def State.stateBars (s : State) (off : Nat) (v : Word) : Bool :=
  let early := decide (off < 0x10000) || (decide (0x400000 ≤ off) && decide (off < 0x800000)) || (decide (0x10060 ≤ off) && decide (off ≤ 0x1006C))
  let rises (l : Nat) : Bool := v.getLsbD (4 * l) && !(s.reg off).getLsbD (4 * l)
  (!s.bit Reg.GLB_HOST_STATUS.READY && !early) ||
  (decide (0x110000 ≤ off) && decide (off < 0x120000) &&
    (off - 0x110000) % 0x8000 / 0x4000 == (s.ln ((off - 0x110000) / 0x8000)).bank) ||
  (s.bit Reg.PMC_TEL_CTL.EN && ((decide (0x401000 ≤ off) && decide (off < 0x401800)) || off == Reg.PMC_TEL_CFG || off == 0x400088 || off == 0x40008C)) ||
  (off == Reg.GLB_LINE_CTL && ((rises 0 || rises 1) && (s.down || s.bit Reg.THM_STATUS.GATE || s.bit Reg.CFG_STATUS.SAFE) ||
    [0, 1].any fun l => rises l && s.fld (lineState l) == 3))

/-- Cause 4: an action is still running (R427, R469, R490). -/
def State.busyBars (s : State) (off : Nat) (v : Word) : Bool :=
  ((v &&& s.reg off).toNat &&& selfClearMask off) != 0 ||
  (decide (0x10060 ≤ off) && decide (off ≤ 0x1006C) && s.bit Reg.CFG_CMD.GO) ||
  ((off == 0x400050 || off == 0x400054 || off == 0x400058) && s.bit Reg.PMC_PRESET_IDX.GO)

/-- Whether the slot field or VALID bit of a phase changes. -/
def keyMoves (old new : Word) (p : Nat) : Bool := getBits old (8 * p + 6) (8 * p) != getBits new (8 * p + 6) (8 * p)

/-- Whether a write changes a key field that is in force, or a transmit field while a flip is armed (R140). -/
def State.keyBars (s : State) (l : Nat) (tx : Bool) (old new : Word) : Bool :=
  let p := if tx then (s.lcy l).txPhase else (s.lcy l).rxPhase
  (keyMoves old new p && (old.getLsbD (8 * p + 6) || !new.getLsbD (8 * p + 6))) || (tx && (s.lcy l).flip.isSome && keyMoves old new (1 - p))

/-- Cause 5: an RWO field would change without the unlock, or a key in force would (R14, R140, R431). -/
def State.lockBars (s : State) (off : Nat) (new : Word) : Bool :=
  let old := s.reg off
  (!s.bit Reg.CFG_OVR.UNLOCK && (regFlds off).any fun f => f.acc == .rwo && getBits old f.hi f.lo != getBits new f.hi f.lo) ||
  (localOff off == 0x2A0010 && s.keyBars (off / 0x100000 - 2) true old new) || (localOff off == 0x2A0014 && s.keyBars (off / 0x100000 - 2) false old new)

/-- Whether the FlexE calendar at an offset is in use, as latched or since (R500). -/
def State.calInUse (s : State) (off : Nat) : Bool :=
  let g := (off - 0xB0000) / 0x1000
  let c := (off - 0xB0000) % 0x1000 / 0x800
  let used (f : Fr) : Bool := s.fld f == c || s.nextLat f == c
  decide (0xB0000 ≤ off) && decide (off < 0xC0000) && s.bit (Reg.HST_FXG_CFG.EN g) &&
    (used (Reg.HST_FXG_STATUS.TX_CAL g) || used (Reg.HST_FXG_STATUS.RX_CAL g))

/-- The transmit symbol rate that a line runs, the registers being as `look` reads them (R80). -/
def State.rateAs (s : State) (look : Nat → Word) (l : Nat) : Nat :=
  let k := lookFld look (Reg.FRM_FMT_SEL.TX_IDX l)
  fmtRs (look (Reg.FRM_FMT l (if k = s.fld (Reg.FRM_FMT_SEL.TX_IDX l) ∧ s.fld (lineState l) = 2 then (s.ln l).txFmt else k)))

/-- Whether a write is one that the owning chapter keeps from the host even under the unlock: a twin-path channel is enabled only at equal
symbol rates (R80), and compatibility framing has no time transfer (R362).  DEDUCED: what R165 and R203 say of commits is the class of LCY_CTL and of the shaper's fields, which R432 puts
aside. -/
def State.overrideBars (s : State) (look : Nat → Word) (off : Nat) : Bool :=
  let o := localOff off
  look off != s.reg off && (
    (((decide (Reg.FLO_CH_CFG 0 ≤ off) && decide (off < Reg.FLO_CH_CFG 512)) ||
        (decide (0x200000 ≤ off) && decide (off < 0x400000) && (o == Reg.FRM_FMT_SEL 0 || (decide (Reg.FRM_FMT 0 0 ≤ o) && decide (o < Reg.FRM_FMT 0 16))))) &&
      twinAny look && s.rateAs look 0 != s.rateAs look 1) ||
    ([0, 1].any fun l => (off == Reg.FRM_CTL l || off == Reg.TIM_TT_CFG l) && lookFld look (Reg.FRM_CTL.COMPAT l) == 1 && lookFld look (Reg.TIM_TT_CFG.ROLE l) != 0))

/-- The first cause for which a 32-bit write is rejected; 0 when it is taken (R491); the words of the capability list have
only read-only fields, so that a write to them is taken and changes nothing (R14, R438).  `look` reads the registers as the
whole access would leave them. -/
def State.writeCause (s : State) (look : Nat → Word) (off : Nat) (v : Word) : Nat :=
  if !mapped off then 1
  else if s.stateBars off v then 3
  else if s.busyBars off v then 4
  else if s.lockBars off (look off) then 5
  else if (regDesc off).isSome && (!reservedZero off v || !legalWord off v) then 6
  else if s.calInUse off || s.overrideBars look off || !chapterRule s.reg look off then 7
  else 0

/-- A rejected write (R491). -/
def State.reject (s : State) (off v cause : Nat) : State :=
  let s := (s.count (2240 + cause) 1).raise Reg.GLB_HOST_EVENT.WR_REJ
  if s.bit Reg.GLB_REJ_LOG_0.VALID then s
  else (((s.setReg Reg.GLB_REJ_LOG_0 (BitVec.ofNat 32 (off % 2 ^ 24 + cause * 2 ^ 24 + 2 ^ 31))).setReg Reg.GLB_REJ_LOG_1 (BitVec.ofNat 32 v)).setReg
    Reg.GLB_REJ_LOG_2 (BitVec.ofNat 32 s.tick))

/-- Store a taken write: the register, its publication to the datapath, the override's consequences (R41, R432); the wrap
flag of a counter lies with the counter. -/
def State.store (s : State) (off : Nat) (v : Word) : State :=
  let old := s.reg off
  let new := writtenWord off old v
  let ovr := (regFlds off).any fun f => f.acc == .rwo && getBits old f.hi f.lo != getBits new f.hi f.lo
  let s := (s.setReg off new).dueShadow off
  let s := if ovr then s.overrode off old.toNat new.toNat else s
  if 0x500000 ≤ off ∧ off < 0x540000 ∧ off % 16 = 8 ∧ v.getLsbD 8 = true then
    let k := ctrSlot ((off - 0x500000) / 16)
    { s with ctrs := s.ctrs.set (fun _ => {}) k { s.ctr k with wrap := false } }
  else s

/-- The words of a write access: offset and value. -/
def writeParts (form : Form) (off v : Nat) : List (Nat × Word) :=
  match form with
  | .w64 => [(off, half v 0), (off + 4, half v 1)]
  | _ => [(off, half v 0)]

/-- Whether a write has a form that BAR0 accepts (R487). -/
def formOk (form : Form) (off : Nat) : Bool :=
  match form with
  | .w32 => off % 4 == 0
  | .w64 => off % 8 == 0
  | .other => false

/-- The first cause for which a write access is rejected; 0 when it is taken. -/
def State.accessCause (s : State) (form : Form) (off v : Nat) : Nat :=
  let base := off / 4 * 4
  let ps := writeParts form base v
  let look (o : Nat) : Word := match ps.find? fun p => p.1 == o with | some p => writtenWord o (s.reg o) p.2 | none => s.reg o
  if ps.any fun p => !mapped p.1 then 1
  else if !formOk form off then 2
  else ((ps.map fun p => s.writeCause look p.1 p.2).filter (· != 0)).foldl (fun a c => if a = 0 then c else min a c) 0

end Sys2Proof.Machine
end

