-- ==== Sys2Proof/Machine/Writes.lean ====
section
/-! DEFINITION. What an accepted BAR0 write sets in motion, and the commands that are writes or reads of a BAR (R13, R15,
R431, R469, R476, R487, R491). -/

namespace Sys2Proof.Machine

open Sys2Proof (Form Pg Rd)

/-! ### MSI-X masks (R494) -/

/-- Send a vector's pending message once nothing holds it back. -/
def State.msixSend (s : State) (v : Nat) : State :=
  let p : Fr := ⟨Reg.MSIX_PBA (v / 32), v % 32, v % 32⟩
  if s.bit p && !s.bit (Reg.MSIX_CTL.MASK v) && !s.pcie.msixMask && s.pcie.bme && !s.pcie.d3hot &&
      s.fld Reg.GLB_HOST_STATUS.LINK_GEN != 0 then (s.setFld p 0).msix v
  else s

/-- Send every message that is free to go. -/
def State.msixFlush (s : State) : State := (List.range 64).foldl State.msixSend s

/-! ### Effects of taken writes -/

/-- Writes to a line engine's registers: offset in LNA's layout, line. -/
def State.lineEffect (s : State) (o l : Nat) : State :=
  if o = Reg.FRM_SHIFT_CTL 0 then (if s.bit (Reg.FRM_SHIFT_CTL.START l) then s.shiftRequest l else s)
  else if o = Reg.LCY_FLIP_CTL 0 then (if s.bit (Reg.LCY_FLIP_CTL.ARM l) then s.flipArm l else s)
  else if o = Reg.LCY_RX_EPOCH 0 then s.rxEpochSet l
  else if o = Reg.RXP_CTL 0 then (if s.bit (Reg.RXP_CTL.ACQ_RESTART l) then s.acqRestart l 0 else s)
  else if o = Reg.RXP_CAP_CTL 0 then (if s.bit (Reg.RXP_CAP_CTL.ARM l) then s.capArm l else s)
  else s

/-- Clear a window's extremes and count (R473). -/
def State.winClear (s : State) (w : Nat) : State :=
  ((s.setFld (Reg.PMC_WIN_MIN.MIN_RATE w) 0xFFFFFFFF).setFld (Reg.PMC_WIN_MAX.MAX_RATE w) 0).setFld (Reg.PMC_WIN_CNT.WIN_CNT w) 0

/-- Writes to a window's registers, after the results of the interval that has ended (R473). -/
def State.winEffect (s : State) (off : Nat) (old : Word) : State :=
  let w := (off - 0x600000) / 64
  let s := s.winPublish w
  if off = Reg.PMC_WIN_LEN w then (if s.bit (Reg.PMC_WIN_CTL.EN w) then s.winStart w else s)
  else if off = Reg.PMC_WIN_CTL w then
    let s := if s.bit (Reg.PMC_WIN_CTL.CLR_MM w) then (s.winClear w).setFld (Reg.PMC_WIN_CTL.CLR_MM w) 0 else s
    if s.bit (Reg.PMC_WIN_CTL.EN w) == old.getLsbD 0 then s
    else if s.bit (Reg.PMC_WIN_CTL.EN w) then { (s.winClear w).winStart w with winOn := s.winOn ++ [w] }
    else { s with winOn := s.winOn.erase w }
  else s

/-- Writes to the counters' and telemetry's controls (R470, R477). -/
def State.pmcEffect (s : State) (off : Nat) (old : Word) : State :=
  if off = Reg.PMC_SNAP_CTL then s.setFld Reg.PMC_STATUS.FROZEN (s.fld Reg.PMC_SNAP_CTL.FREEZE)
  else if 0x401000 ≤ off ∧ off < 0x401800 then s.setFld Reg.PMC_TEL_SLOT.BYTES (telSlotBytes s.telSelected.length)
  else if off = Reg.PMC_TEL_CTL ∧ s.bit Reg.PMC_TEL_CTL.EN ≠ old.getLsbD 0 then
    if s.bit Reg.PMC_TEL_CTL.EN then
      let s := ((s.setFld Reg.PMC_STATUS.TEL_RUN 1).setFld Reg.PMC_TEL_SEQ.SEQ 0).setFld Reg.PMC_TEL_DROP.DROP 0
      { s with tel := { prevW := s.telSelected.foldl (fun m k => m.set (fun _ => 0) k (s.ctr (ctrSlot k)).w) ([] : SMap Nat) } }
    else s.setFld Reg.PMC_STATUS.TEL_RUN 0
  else s

/-- Whether an offset holds what a Rime port's waveform is made of, or its mask (R311). -/
def rimWave (off : Nat) : Bool :=
  off == Reg.RIM_CTL || off == Reg.RIM_PORT_CFG 0 || off == Reg.RIM_PORT_CFG 1 ||
    (decide (Reg.RIM_TXF_TAP 0 ≤ off) && decide (off < Reg.RIM_TXF_TAP 64)) || (decide (Reg.RIM_MASK 0 ≤ off) && decide (off < Reg.RIM_MASK 64))

/-- Writes to the registers of the other blocks.  DESIGN CHOICE: a write of 0 to FLO_CAL_CTL.ARM while a swap is armed clears the bit and
leaves the swap armed; R69 gives no way to withdraw one. -/
def State.coreEffect (s : State) (off : Nat) : State :=
  if off = Reg.FLO_CAL_CTL 0 ∨ off = Reg.FLO_CAL_CTL 1 then
    let l := (off - Reg.FLO_CAL_CTL 0) / 16
    if s.bit (Reg.FLO_CAL_CTL.ARM l) then s.calArm l else s
  else if off = Reg.CPH_KEY_LOAD then
    let k := s.fld Reg.CPH_KEY_LOAD.SLOT
    let u := s.fld Reg.CPH_KEY_LOAD.USAGE
    let go := s.bit Reg.CPH_KEY_LOAD.GO
    let zero := s.bit Reg.CPH_KEY_LOAD.ZERO
    let s := s.setReg Reg.CPH_KEY_LOAD 0
    if go || zero then s.keyLoad k u (!go) else s
  else if off = Reg.RIM_TRACE_CTL then (if s.bit Reg.RIM_TRACE_CTL.START then s.rimTraceReq else s)
  else if off = Reg.RIM_TX_WR ∨ off = Reg.RIM_RING_CFG then rimTake 65536 s
  else if off = Reg.TIM_ADJ_CTL then (if s.bit Reg.TIM_ADJ_CTL.STEP || s.bit Reg.TIM_ADJ_CTL.SET then s.adjArm else s)
  else if off = Reg.MON_CTL 0 ∨ off = Reg.MON_CTL 1 ∨ off = Reg.MON_CTL 2 then
    let u := (off - Reg.MON_CTL 0) / 4
    if s.bit (Reg.MON_CTL.RETEST u) then s.setMon u { s.mon u with passes := 0 } else s
  else if off = Reg.CFG_HEALTH then { s with boot := { s.boot with acked := s.boot.acked || s.bit Reg.CFG_HEALTH.ACK } }
  else if off = Reg.CFG_OVR then s.setFld Reg.CFG_STATUS.OVR_UNLOCKED (s.fld Reg.CFG_OVR.UNLOCK)
  else if off = Reg.CFG_CMD then s.setFldIf (s.bit Reg.CFG_CMD.GO) Reg.CFG_CMD_RESULT.CODE 1
  else if 0x2000 ≤ off ∧ off < 0x2400 ∧ off % 16 = 12 then s.msixSend ((off - 0x2000) / 16)
  else if rimWave off then s.rimWaves
  else s

/-- What a taken write of a register sets in motion; `old` is what the register held. -/
def State.effect (s : State) (off : Nat) (old : Word) : State :=
  if 0x200000 ≤ off ∧ off < 0x400000 then s.lineEffect (localOff off) (off / 0x100000 - 2)
  else if 0x600000 ≤ off then s.winEffect off old
  else if 0x400000 ≤ off then s.pmcEffect off old
  else s.coreEffect off

/-- What a rejected write raises beside WR_REJ: a flip asked for while one is armed is rejected as busy and raises
FLIP_REJECT (R140, R490). -/
def State.rejectToo (s : State) (form : Form) (off v cause : Nat) : State :=
  [0, 1].foldl (fun (s : State) l =>
    s.raiseIf (cause == 4 && s.bit (Reg.LCY_FLIP_CTL.ARM l) && (writeParts form off v).any fun p => p.1 == Reg.LCY_FLIP_CTL l && p.2.getLsbD 0)
      (Reg.LCY_EVENT.FLIP_REJECT l)) s

/-- A host write through BAR0: whole, or rejected whole with the first cause that applies (R487, R491); none in D3hot
(R484). -/
def State.barWrite (s : State) (form : Form) (off v : Nat) : State :=
  if s.pcie.d3hot then s
  else
    let c := s.accessCause form off v
    if c ≠ 0 then (s.reject (off / 4 * 4) v c).rejectToo form (off / 4 * 4) v c
    else
      let ps := writeParts form off v
      let s' := ps.foldl (fun s p => s.store p.1 p.2) s
      ps.foldl (fun s' p => s'.effect p.1 (s.reg p.1)) s'

/-- A write of 32 bits. -/
def State.write32 (s : State) (off v : Nat) : State := s.barWrite .w32 off v

/-! ### Actions that a write starts and the outside ends -/

/-- Write a register unless the action that it starts runs already. -/
def State.startBit (s : State) (f : Fr) (v : Nat) : State := if s.bit f then s else s.write32 f.off v

/-- EPOCH_RETRY: the steps of R134 in service (R135). -/
def State.epochRetry (s : State) (v : Nat) (r : Rd) (tries : List (Pg × Bool × Pg)) (after : Pg) : State :=
  let s := s.startBit Reg.CPH_EPOCH_CTL.RETRY v
  if !s.bit Reg.CPH_EPOCH_CTL.RETRY then s
  else
    let s := if Rd.code r = 0 then s.epochRun tries after else (s.rdTimeout r).epochReadFailed
    s.setFld Reg.CPH_EPOCH_CTL.RETRY 0

/-- URGENT_CONVERSION (R403). -/
def State.urgentConv (s : State) (v : Nat) (last : Bool) : State :=
  let s := s.startBit Reg.MON_URG.GO v
  if s.bit Reg.MON_URG.GO then s.urgent last else s

/-- FLEXE_CAL_SWITCH: the handshake ends acknowledged, or not (R500); its status and events are latched (R42). -/
def State.calSwitch (s : State) (g v : Nat) (ack : Bool) : State :=
  let s := s.startBit (Reg.HST_FXG_CTL.CAL_REQ g) v
  if !s.bit (Reg.HST_FXG_CTL.CAL_REQ g) then s
  else
    let s := s.setFld (Reg.HST_FXG_CTL.CAL_REQ g) 0
    if ack then
      ((s.latch (Reg.HST_FXG_STATUS.TX_CAL g) (1 - s.nextLat (Reg.HST_FXG_STATUS.TX_CAL g))).latch (Reg.HST_FXG_STATUS.RX_CAL g)
        (1 - s.nextLat (Reg.HST_FXG_STATUS.RX_CAL g))).raiseDpAt Reg.HST_EVENT.CAL_SWITCH g
    else s.raiseDpAt Reg.HST_EVENT.CAL_FAIL g

/-- Copy Moraine records as stored, one after the other, until one's read fails (R458). -/
def State.morCopy (dst : Nat) : Nat → Nat → List Rd → State → State × Option Rd
  | _, _, [], s => (s, none)
  | idx, k, r :: rs, s =>
    match s.nvmRead (morBase + 64 * (idx % 65536)) 64 r with
    | none => (s, some r)
    | some b => State.morCopy dst (idx + 1) (k + 1) rs (s.stWrite (dst + 64 * k) b).2

/-- MORAINE_READ: `rs` are the outcomes of the records' reads, those left out ending well (R458). -/
def State.moraineRead (s : State) (v : Nat) (rs : List Rd) : State :=
  let s := s.startBit Reg.FLT_MOR_RD_CTL.GO v
  if !s.bit Reg.FLT_MOR_RD_CTL.GO then s
  else
    let n := s.fld Reg.FLT_MOR_RD_CNT.CNT
    let rs := rs.take n ++ List.replicate (n - rs.length) .ok
    let r := State.morCopy (s.fld Reg.FLT_MOR_RD_DST.OFFSET) (s.fld Reg.FLT_MOR_RD_IDX.IDX) 0 rs s
    let s := r.1.setFld Reg.FLT_MOR_RD_CTL.GO 0
    match r.2 with
    | none => s.raise Reg.FLT_EVENT.MOR_RD_DONE
    | some x => (s.rdTimeout x).raise Reg.FLT_EVENT.MOR_FAIL

/-- A write of CFG_CMD, and the command's end when it runs `op` (R427). -/
def State.command (s : State) (op v : Nat) (run : State → State) : State :=
  let s := s.startBit Reg.CFG_CMD.GO v
  if s.cmdIs op then run s else s

/-! ### Meanings: writes that name their action -/

/-- REGISTER_WRITE (R491). -/
def execRegisterWrite (form : Form) (off : Nat) (v : BitVec 64) (s : State) : Host.Outcome State Fault Refusal := .next (s.cmd (·.barWrite form off v.toNat))
/-- SHIFT_REQUEST (R121): a write of FRM_SHIFT_CTL. -/
def execShiftRequest (l : Nat) (v : Word) (s : State) : Host.Outcome State Fault Refusal := .next (s.cmd (·.write32 (Reg.FRM_SHIFT_CTL l) v.toNat))
/-- CAL_SWAP_ARM (R69): a write of FLO_CAL_CTL. -/
def execCalSwapArm (l : Nat) (v : Word) (s : State) : Host.Outcome State Fault Refusal := .next (s.cmd (·.write32 (Reg.FLO_CAL_CTL l) v.toNat))
/-- FLIP_ARM (R140): a write of LCY_FLIP_CTL. -/
def execFlipArm (l : Nat) (v : Word) (s : State) : Host.Outcome State Fault Refusal := .next (s.cmd (·.write32 (Reg.LCY_FLIP_CTL l) v.toNat))
/-- RX_EPOCH_WRITE (R150): a write of LCY_RX_EPOCH. -/
def execRxEpochWrite (l : Nat) (v : Word) (s : State) : Host.Outcome State Fault Refusal := .next (s.cmd (·.write32 (Reg.LCY_RX_EPOCH l) v.toNat))
/-- KEY_LOAD (R157): a write of CPH_KEY_LOAD with GO. -/
def execKeyLoad (slot usage : Nat) (s : State) : Host.Outcome State Fault Refusal :=
  .next (s.cmd (·.write32 Reg.CPH_KEY_LOAD (slot + 2 ^ 8 * usage + 2 ^ 11)))
/-- KEY_ZERO (R158): a write of CPH_KEY_LOAD with ZERO. -/
def execKeyZero (slot : Nat) (s : State) : Host.Outcome State Fault Refusal := .next (s.cmd (·.write32 Reg.CPH_KEY_LOAD (slot + 2 ^ 12)))
/-- HOST_REQUEST_SUBMIT (R160): a write of CPH_HQ_WR. -/
def execHostRequestSubmit (v : Word) (s : State) : Host.Outcome State Fault Refusal := .next (s.cmd (·.write32 Reg.CPH_HQ_WR v.toNat))
/-- ACQ_RESTART (R278): a write of RXP_CTL. -/
def execAcqRestart (l : Nat) (v : Word) (s : State) : Host.Outcome State Fault Refusal := .next (s.cmd (·.write32 (Reg.RXP_CTL l) v.toNat))
/-- CAPTURE_ARM (R283): a write of RXP_CAP_CTL. -/
def execCaptureArm (l : Nat) (v : Word) (s : State) : Host.Outcome State Fault Refusal := .next (s.cmd (·.write32 (Reg.RXP_CAP_CTL l) v.toNat))
/-- TRACE_REQ (R326): a write of RIM_TRACE_CTL. -/
def execTraceReq (v : Word) (s : State) : Host.Outcome State Fault Refusal := .next (s.cmd (·.write32 Reg.RIM_TRACE_CTL v.toNat))
/-- RIME_RING_SUBMIT (R333): a write of RIM_TX_WR. -/
def execRimeRingSubmit (v : Word) (s : State) : Host.Outcome State Fault Refusal := .next (s.cmd (·.write32 Reg.RIM_TX_WR v.toNat))
/-- NUM_FREQ_WRITE (R350): a write of CLK_NUM_FREQ. -/
def execNumFreqWrite (v : Word) (s : State) : Host.Outcome State Fault Refusal := .next (s.cmd (·.write32 Reg.CLK_NUM_FREQ v.toNat))
/-- TIME_STEP_ARM (R352): a write of TIM_ADJ_CTL with STEP. -/
def execTimeStepArm (s : State) : Host.Outcome State Fault Refusal := .next (s.cmd (·.write32 Reg.TIM_ADJ_CTL 1))
/-- TIME_LOAD_ARM (R352): a write of TIM_ADJ_CTL with SET. -/
def execTimeLoadArm (s : State) : Host.Outcome State Fault Refusal := .next (s.cmd (·.write32 Reg.TIM_ADJ_CTL 2))
/-- COMPARE_ARM (R353): a write of TIM_CMP_CTL_k. -/
def execCompareArm (k : Nat) (v : Word) (s : State) : Host.Outcome State Fault Refusal := .next (s.cmd (·.write32 (Reg.TIM_CMP_CTL k) v.toNat))
/-- INJECT_ARM (R381): a write of MEM_INJ_CTL. -/
def execInjectArm (v : Word) (s : State) : Host.Outcome State Fault Refusal := .next (s.cmd (·.write32 Reg.MEM_INJ_CTL v.toNat))
/-- MON_RETEST (R401): a write of MON_CTL_u. -/
def execMonRetest (u : Nat) (v : Word) (s : State) : Host.Outcome State Fault Refusal := .next (s.cmd (·.write32 (Reg.MON_CTL u) v.toNat))
/-- OVERRIDE_UNLOCK (R431): a write of CFG_OVR. -/
def execOverrideUnlock (v : Word) (s : State) : Host.Outcome State Fault Refusal := .next (s.cmd (·.write32 Reg.CFG_OVR v.toNat))
/-- OVERRIDE (R432): a write that changes an RWO field; without the unlock it is rejected. -/
def execOverride (form : Form) (off : Nat) (v : BitVec 64) (s : State) : Host.Outcome State Fault Refusal := .next (s.cmd (·.barWrite form off v.toNat))
/-- SNAPSHOT_NOW (R470): a write of PMC_SNAP_CTL. -/
def execSnapshotNow (v : Word) (s : State) : Host.Outcome State Fault Refusal := .next (s.cmd (·.write32 Reg.PMC_SNAP_CTL v.toNat))
/-- PRESET (R469): a write of PMC_PRESET_IDX. -/
def execPreset (v : Word) (s : State) : Host.Outcome State Fault Refusal := .next (s.cmd (·.write32 Reg.PMC_PRESET_IDX v.toNat))
/-- EPOCH_RETRY (R135). -/
def execEpochRetry (v : Word) (r : Rd) (tries : List (Pg × Bool × Pg)) (after : Pg) (s : State) : Host.Outcome State Fault Refusal :=
  .next (s.cmd (·.epochRetry v.toNat r tries after))
/-- URGENT_CONVERSION (R403). -/
def execUrgentConversion (v : Word) (last : Bool) (s : State) : Host.Outcome State Fault Refusal := .next (s.cmd (·.urgentConv v.toNat last))
/-- FLEXE_CAL_SWITCH (R500). -/
def execFlexeCalSwitch (g : Nat) (v : Word) (ack : Bool) (s : State) : Host.Outcome State Fault Refusal := .next (s.cmd (·.calSwitch g v.toNat ack))
/-- MORAINE_READ (R458). -/
def execMoraineRead (v : Word) (rs : List Rd) (s : State) : Host.Outcome State Fault Refusal := .next (s.cmd (·.moraineRead v.toNat rs))

/-! ### Meanings: the commands of CFG_CMD (R427) -/

/-- The word of CFG_CMD that starts an operation on a slot. -/
def cmdWord (op slot : Nat) : Nat := op + 2 ^ 4 * slot + 2 ^ 6

/-- ERASE. -/
def execErase (slot : Nat) (p : Pg) (s : State) : Host.Outcome State Fault Refusal := .next (s.cmd (·.command 1 (cmdWord 1 slot) (·.doErase p)))
/-- WRITE: programs staging data and reads it back. -/
def execWrite (slot : Nat) (p : Pg) (back : Rd) (s : State) : Host.Outcome State Fault Refusal :=
  .next (s.cmd (·.command 2 (cmdWord 2 slot) (·.doWrite p back)))
/-- VERIFY. -/
def execVerify (slot : Nat) (r : Rd) (p : Pg) (s : State) : Host.Outcome State Fault Refusal :=
  .next (s.cmd (·.command 3 (cmdWord 3 slot) (·.doVerify r p)))
/-- COMMIT (R428). -/
def execCommit (slot : Nat) (s : State) : Host.Outcome State Fault Refusal := .next (s.cmd (·.command 4 (cmdWord 4 slot) State.doCommit))
/-- CANCEL. -/
def execCancel (s : State) : Host.Outcome State Fault Refusal := .next (s.cmd (·.command 5 (cmdWord 5 0) State.doCancel))
/-- INSTALL. -/
def execInstall (slot : Nat) (p : Pg) (s : State) : Host.Outcome State Fault Refusal := .next (s.cmd (·.command 6 (cmdWord 6 slot) (·.doInstall p)))
/-- MARK_BAD. -/
def execMarkBad (slot : Nat) (p : Pg) (s : State) : Host.Outcome State Fault Refusal := .next (s.cmd (·.command 7 (cmdWord 7 slot) (·.doMarkBad p)))
/-- RAISE_MIN (R408). -/
def execRaiseMin (e p : Pg) (back : Rd) (s : State) : Host.Outcome State Fault Refusal :=
  .next (s.cmd (·.command 8 (cmdWord 8 0) (·.doRaiseMin e p back)))
/-- REBOOT (R425). -/
def execReboot (s : State) : Host.Outcome State Fault Refusal := .next (s.cmd (·.command 9 (cmdWord 9 0) State.doReboot))

/-! ### Meanings: reads of BAR0 and BAR2 -/

/-- LATCHING_READ (R15): a BAR0 read; a latching register captures its companions. -/
def execLatchingRead (form : Form) (off cyc : Nat) (s : State) : Host.Outcome State Fault Refusal := .next (s.cmd (·.barRead form off cyc))
/-- MIRROR_READ (R475, R476): a BAR2 read. -/
def execMirrorRead (form : Form) (off cyc : Nat) (s : State) : Host.Outcome State Fault Refusal := .next (s.cmd (·.mirrorRead form off cyc))

end Sys2Proof.Machine
end

