-- ==== Sys2Proof/Machine/Commit.lean ====
section
/-! DEFINITION. Commits: preparation, activation, completion; and how an image's values take effect (R44, R71, R80, R89,
R101, R103, R114, R128, R271, R365, R398, R428-R434). -/

namespace Sys2Proof.Machine

open Sys2Proof (Rd)

/-! ### The checks of preparation (R429) -/

/-- The configuration as the commit leaves it: the one in force with the image's values in place of the fields it writes, and
the reset value in every image-owned field that it does not write (R429, R433). -/
def State.commitLook (s : State) (v : ImageVals) (off : Nat) : Word :=
  mergeWord off (fun f => f.acc == .rw || f.acc == .rwo) (imgWord v off) (s.reg off)

/-- The format a direction of a line will use: a changed FRM_FMT_SEL, or the format it is in. -/
def State.commitFmt (s : State) (look : Nat → Word) (l : Nat) (sel : Fr) (cur : Nat) : Nat :=
  if lookFld look sel = s.fld sel ∧ s.fld (lineState l) = 2 then cur else lookFld look sel

def State.commitTxFmt (s : State) (look : Nat → Word) (l : Nat) : Nat := s.commitFmt look l (Reg.FRM_FMT_SEL.TX_IDX l) (s.ln l).txFmt
def State.commitRxFmt (s : State) (look : Nat → Word) (l : Nat) : Nat := s.commitFmt look l (Reg.FRM_FMT_SEL.RX_IDX l) (s.ln l).rxFmt

/-- The format table entries in use on a line (R103).  DEDUCED: a line that is not running uses no entry. -/
def State.fmtsInUse (s : State) (l : Nat) : List Nat :=
  let x := s.shiftOf l
  (if s.fld (lineState l) = 2 then [(s.ln l).txFmt, (s.ln l).rxFmt] else []) ++ (if s.shifting l then [x.idx] else [])

/-- The checks of one line (R44, R101, R103, R114, R128, R271, R362). -/
def State.lineCommitOk (s : State) (look : Nat → Word) (l : Nat) : Bool :=
  let cipher := lookFld look (Reg.LCY_CTL.EN l) == 1
  let psl := lookFld look (Reg.FRM_CTL.TX_PSL l)
  let tx := look (Reg.FRM_FMT l (s.commitTxFmt look l))
  let rx := look (Reg.FRM_FMT l (s.commitRxFmt look l))
  let steps := lookFld look (Reg.RXP_CTL.NLC_STEPS l)
  let spans := lookFld look (Reg.RXP_NLC_LINK_0.SPANS l)
  let eng : Fr := ⟨Reg.GLB_LINE_CTL, 4 * l, 4 * l⟩
  ((psl == 0x11) == cipher) &&
  (lookFld look (Reg.FRM_CTL.COMPAT l) == 0 || (!cipher && !s.shifting l && decide (fmtRs tx ≤ 1280) && decide (fmtRs rx ≤ 1280) && lookFld look (Reg.TIM_TT_CFG.ROLE l) == 0)) &&
  (s.fmtsInUse l).all (fun k => look (Reg.FRM_FMT l k) == s.reg (Reg.FRM_FMT l k)) &&
  (!s.shifting l || look (Reg.FRM_FMT_SEL l) == s.reg (Reg.FRM_FMT_SEL l)) &&
  (steps == 0 || (spans != 0 && spans % steps == 0)) &&
  !(lookFld look eng == 1 && s.fld eng == 0 && (s.down || s.bit Reg.THM_STATUS.GATE || s.fld (lineState l) == 3))

/-- Whether a monitor's list holds XCHK when its unit is enabled (R398). -/
def listHasXchk (look : Nat → Word) (u : Nat) : Bool :=
  lookFld look (Reg.MON_CTL.EN u) == 0 ||
    (List.range (lookFld look (Reg.MON_CTL.LEN u))).any fun n =>
      lookFld look (Reg.MON_LIST.VALID u n) == 1 && lookFld look (Reg.MON_LIST.SRC u n) == 0

/-- The rejections laid down for commits (R71, R80, R89, R365, R398 and those of each line). -/
def State.commitOk (s : State) (v : ImageVals) : Bool :=
  let look := s.commitLook v
  let banks (l : Nat) : List Nat := if v.cals.any (·.1 == l) then [1 - (s.ln l).bank] else s.banksOf l
  let fmt (l : Nat) : Word := look (Reg.FRM_FMT l (s.commitTxFmt look l))
  s.lineCommitOk look 0 && s.lineCommitOk look 1 && banksFit look (banks 0) (banks 1) (fun l => fmtSlots (fmt l)) &&
    (!twinAny look || fmtRs (fmt 0) == fmtRs (fmt 1)) &&
    !(lookFld look (Reg.TIM_TT_CFG.ROLE 0) == 2 && lookFld look (Reg.TIM_TT_CFG.ROLE 1) == 2) &&
    [0, 1, 2].all (listHasXchk look)

/-- Whether the frames that a commit needs on a line are far enough off, against those captured at acceptance (R36, R428). -/
def Commit.framesOk (c : Commit) (l : Nat) : Bool :=
  (!c.enTx.getD l false || decide (c.capTx.getD l 0 + 64 ≤ c.actTx.getD l 0)) &&
  (!c.enRx.getD l false || (match c.capRx.getD l none with
    | some n => decide (n + 64 ≤ c.actRx.getD l 0)
    | none => true))

/-- Whether the frame that carries a commit's calendar change of a line is one that a swap request may name (R69, R428). -/
def Commit.calOk (c : Commit) (l : Nat) : Bool :=
  let f := c.actTx.getD l 0
  !c.enTx.getD l false || !c.vals.cals.any (·.1 == l) || (f % 64 == 0 && decide (c.capTx.getD l 0 + 64 ≤ f))

/-- What the refusal of a commit's frames raises: FRAME_REJECT where R36 fails, CAL_REJECT where a calendar's frame is refused (R43, R69). -/
def State.framesBad (s : State) (c : Commit) : State :=
  let s := s.raiseIf (!(c.framesOk 0 && c.framesOk 1)) Reg.GLB_TICK_EVENT.FRAME_REJECT
  ([0, 1].filter fun l => !c.calOk l).foldl (fun s l => s.raiseAt Reg.FLO_EVENT.CAL_REJECT l) s

/-- Whether a commit's frames pass (R36, R69, R428). -/
def Commit.passes (c : Commit) : Bool := c.framesOk 0 && c.framesOk 1 && c.calOk 0 && c.calOk 1

/-! ### Preparation (R429) -/

/-- Put a calendar into a line's standby bank. -/
def State.putCal (s : State) (p : Nat × List Nat) : State :=
  let b := 1 - (s.ln p.1).bank
  p.2.zipIdx.foldl (fun s e => s.setReg (Reg.FLO_CAL p.1 b e.2) (BitVec.ofNat 32 e.1)) s

/-- Load an image's keys until one is refused: the slots loaded, and whether all were. -/
def loadKeys : List (Nat × Nat × List Byte) → List Nat → State → List Nat × Bool × State
  | [], done, s => (done, true, s)
  | k :: ks, done, s =>
    let r := s.imageKey k
    if r.1 = 0 then loadKeys ks (done ++ [k.1]) r.2 else (done, false, s)

/-- An image's calendars and keys are put in place: the commit with what it needs and the keys it loaded, whether every
key loaded, the state. -/
def State.putImage (s : State) (c : Commit) (v : ImageVals) : Commit × Bool × State :=
  let need (f : State → ImageVals → Nat → Bool) (en : List Bool) : List Bool := [en.getD 0 false && f s v 0, en.getD 1 false && f s v 1]
  let s' := v.cals.foldl State.putCal s
  let k := loadKeys v.keys [] s'
  let c := { c with vals := v, enTx := need State.needTx c.enTx, enRx := need State.needRx c.enRx, keysLoaded := k.1 }
  (c, k.2.1, { k.2.2 with commit := some c })

/-- Preparation ends: the image is judged, its calendars and keys are put in place, its frames and the configuration are
checked; the commit is prepared or abandoned. -/
def State.prepare (s : State) (r : Rd) : State :=
  match s.commit with
  | none => s
  | some c =>
    if c.prepared || s.cph.running.isSome then s
    else
      let j := s.judgeSlot c.slot r
      let s := s.rdTimeout r
      if j.1 = 7 then s.abandonCommit 6
      else if j.1 ≠ 0 then s.abandonCommit 7
      else
        let p := s.putImage c j.2.2
        if !p.2.1 then p.2.2.abandonCommit 4
        else if !p.1.passes then (p.2.2.framesBad p.1).abandonCommit 6
        else if !p.2.2.commitOk j.2.2 then p.2.2.abandonCommit 6
        else { p.2.2.setFld Reg.CFG_STATUS.COMMIT 2 with commit := some { p.1 with prepared := true } }

/-! ### Values taking effect -/

/-- What a change of a register by an image sets in motion, but for the waveform check of R311. -/
def State.imgEffect (old s : State) (off : Nat) : State :=
  if old.reg off = s.reg off ∨ rimWave off = true then s else s.effect off (old.reg off)

/-- The identity of a RIME_ID record (R413). -/
def State.putRimeId (s : State) (id : Option (List Byte)) : State :=
  match id with
  | some b => { s with boot := { s.boot with nodeName := b.take 16, carrierA := le b 16 3, carrierB := le b 19 3 } }
  | none => s

/-- Lay a selection of an image's fields over the registers, with all that it sets in motion. -/
def State.layImage (s : State) (v : ImageVals) (sel : Nat → Fld → Bool) : State :=
  let offs := s.touched v
  let s' := offs.foldl (State.imgEffect s) (s.layRegs v sel)
  let s' := if offs.any fun o => rimWave o && s.reg o != s'.reg o then s'.rimWaves else s'
  s'.putRimeId v.rimeId

/-- The fields that take effect in phase 7 of the activation tick: live-tunable fields the image writes, and image-owned
fields of no line's side (R415, R429, R433). -/
def tickSel (off : Nat) (f : Fld) : Bool := f.acc == .rw || (f.acc == .rwo && (rwoClass off f.lo).2 == .tick)

/-- Whether a commit is line-affecting for a line (R377, R415). -/
def State.lineAffecting (s : State) (v : ImageVals) (l : Nat) : Bool :=
  let m := mergeWord Reg.GLB_LINE_CTL (fun f => f.acc == .rwo) (imgWord v Reg.GLB_LINE_CTL) (s.reg Reg.GLB_LINE_CTL)
  s.sideChanges v (fun x => x == .tx l || x == .rx l || x == .both l) || getBits m (4 * l + 2) (4 * l) != getBits (s.reg Reg.GLB_LINE_CTL) (4 * l + 2) (4 * l)

/-- The parts of a side that was not enabled at acceptance (R428). -/
def State.idleSides (c : Commit) (s : State) (l : Nat) : State :=
  let s := if c.enTx.getD l false then s else s.applyTx c.vals l
  if c.enRx.getD l false then s else s.applyRx c.vals l

/-- COMMIT_ACTIVATION: phase 7 of the activation tick (R429, R431, R433, R434). -/
def State.activate (s : State) : State :=
  match s.commit with
  | none => s
  | some c =>
    if !c.prepared || c.doneTick || decide (s.tick < c.actTick) || s.down then s
    else
      let s := s.raiseIf (decide (c.actTick < s.tick)) Reg.GLB_TICK_EVENT.LATE_ACTION
      let s := [0, 1].foldl (fun (t : State) l => if s.lineAffecting c.vals l then t.applyPendLine l else t) s
      let s := [0, 1].foldl (State.idleSides c) s
      let s := { s with commit := some { c with doneTick := true }, acted := true }
      let s := [0, 1].foldl State.commitBoth s
      let s := s.layImage c.vals tickSel
      ((s.setFld Reg.CFG_OVR.UNLOCK 0).setFld Reg.CFG_STATUS.OVR_UNLOCKED 0).epochStep.nbStale.monFollows

/-- COMMIT_DONE: every part has taken effect (R429). -/
def State.commitDone (s : State) : State :=
  match s.commit with
  | none => s
  | some c =>
    if !(c.doneTick && c.txIn 0 && c.txIn 1 && c.rxIn 0 && c.rxIn 1) || s.down then s
    else
      let old := s.fld Reg.CFG_STATUS.RUN_SLOT
      let s := { s with commit := none, boot := { s.boot with health := c.vals.health, healthS := c.healthS } }
      let s := ((s.setFld Reg.CFG_STATUS.COMMIT 0).setFld Reg.CFG_IMAGE_VER.VER c.ver).setFld Reg.CFG_STATUS.RUN_SLOT c.slot
      let s := ((s.slotRefresh old).slotRefresh c.slot).markStart c.slot 0 0
      ((s.raise Reg.CFG_EVENT.COMMIT_DONE).startHealth).rimAnnounce

/-! ### Meanings -/

/-- COMMIT_PREPARED (R429). -/
def execCommitPrepared (r : Rd) (s : State) : Host.Outcome State Fault Refusal := .next (s.cmd (·.prepare r))
/-- COMMIT_ACTIVATION (R429). -/
def execCommitActivation (s : State) : Host.Outcome State Fault Refusal := .next (s.cmdLive State.activate)
/-- COMMIT_DONE (R429). -/
def execCommitDone (s : State) : Host.Outcome State Fault Refusal := .next (s.cmdLive State.commitDone)

end Sys2Proof.Machine
end

