-- ==== Sys2Proof/Machine/Host.lean ====
section
/-! DEFINITION. The host side beside BAR accesses: the PCI Express function, MSI-X unmasking, SMBus, port and FlexE group
changes (R482-R486, R494-R496, R500, R520). -/

namespace Sys2Proof.Machine

open Sys2Proof (PcieRst CfgWrite Unmask)

/-! ### The PCI Express function -/

/-- The function's reset: configuration space, BARs, MSI-X table and pending bits; a host request whose DMA is cut off ends
with DMA_ERROR (R484). -/
def State.pcieFunction (s : State) : State :=
  let s := (List.range 256).foldl (fun (s : State) i => s.setReg (0x2000 + 4 * i) (regReset (0x2000 + 4 * i))) s
  let s := (s.setReg (Reg.MSIX_PBA 0) 0).setReg (Reg.MSIX_PBA 1) 0
  let run := s.cph.running.map fun r => if r.queue = 4 ∧ r.waits = true ∧ r.status.isNone = true then { r with status := some 0x20 } else r
  { s with pcie := { refclk := s.pcie.refclk, ssc := s.pcie.ssc }, cph := { s.cph with running := run } }

/-- The link is down. -/
def State.linkGone (s : State) : State := (s.setFld Reg.GLB_HOST_STATUS.LINK_GEN 0).setFld Reg.GLB_HOST_STATUS.LINK_WIDTH 0

/-- PCIE_RESET (R484); a PERST_N pulse below 1 µs is a glitch (R459). -/
def State.pcieReset (s : State) (r : PcieRst) : State :=
  match r with
  | .perst ns => if ns < 1000 then s.count 193 1 else s.pcieFunction.linkGone.raise Reg.GLB_HOST_EVENT.PCIE_RESET
  | .hotReset => s.pcieFunction.linkGone.raise Reg.GLB_HOST_EVENT.PCIE_RESET
  | .linkDown => (s.pcieFunction.linkGone.raise Reg.GLB_HOST_EVENT.PCIE_RESET).raise Reg.GLB_HOST_EVENT.LINK_DOWN
  | .flr => s.pcieFunction.raise Reg.GLB_HOST_EVENT.PCIE_RESET

/-- PCIE_LINK_TRAINED: the speed and width reached, and whether the reference clock proves to carry spread-spectrum
modulation deeper than 100 ppm (R482, R520). -/
def State.linkTrained (s : State) (gen width : Nat) (ssc : Bool) : State :=
  let s := (s.setFld Reg.GLB_HOST_STATUS.LINK_GEN gen).setFld Reg.GLB_HOST_STATUS.LINK_WIDTH width
  { s with pcie := { s.pcie with refclk := true, ssc := ssc } }

/-- The offset of the Device Serial Number capability. -/
def serialAt : Nat := 0x100 + 4 * (Config.serialAt % 0x3BE)

/-- Whether a dword of configuration space is fixed: the identifiers, revision and class code, the serial number (R481). -/
def cfgFixed (off : Nat) : Bool :=
  let o := off / 4 * 4
  o == 0 || o == 8 || (decide (serialAt ≤ o) && decide (o < serialAt + 12))

/-- A BAR's low half: its address above the bits that its size leaves, and the type bits of a 64-bit BAR, prefetchable for BAR4 (R483). -/
def barLow (i a : Nat) : Nat := if i = 0 then a % 2 ^ 32 / 2 ^ 24 * 2 ^ 24 + 4 else if i = 2 then a % 2 ^ 32 / 2 ^ 20 * 2 ^ 20 + 4 else a % 2 ^ 32 / 2 ^ 22 * 2 ^ 22 + 12

/-- A dword of the function's configuration space: one function of Type 0 with the values of R481, the BARs of R483, and what the host
has written. -/
def State.cfgRead (s : State) (off : Nat) : Nat :=
  let o := off / 4 * 4
  let v := s.pcie.cfg.get natZero o % 2 ^ 32
  if o = 0 then 0x00641E6C
  else if o = 4 then v / 8 * 8 + 4 * b2n s.pcie.bme + v % 4
  else if o = 8 then 0x028000B0
  else if o = 0xC then v / 2 ^ 24 * 2 ^ 24 + v % 2 ^ 16
  else if 0x10 ≤ o ∧ o < 0x28 then
    let i := (o - 0x10) / 8 * 2
    let a := s.pcie.bars.get natZero i
    if o % 8 = 0 then barLow i a else a / 2 ^ 32 % 2 ^ 32
  else if o = 0x3C then v / 2 ^ 16 * 2 ^ 16 + v % 2 ^ 8
  else if o = serialAt then v / 2 ^ 16 * 2 ^ 16 + 3
  else if o = serialAt + 4 then s.fuses.deviceId % 2 ^ 32
  else if o = serialAt + 8 then s.fuses.deviceId / 2 ^ 32 % 2 ^ 32
  else v

/-- What a host configuration write leaves of the function. -/
def cfgSet (p : Pcie) (w : CfgWrite) : Pcie :=
  match w with
  | .busMaster b => { p with bme := b }
  | .power b => { p with d3hot := b }
  | .cto v d => { p with ctoValue := v.val, ctoDisable := d }
  | .maxPayload n => { p with maxPayload := 128 * 2 ^ n.val }
  | .maxRead n => { p with maxRead := 128 * 2 ^ n.val }
  | .msixMask b => { p with msixMask := b }
  | .aspmL1 b => { p with aspmL1 := b }
  | .bar i a => { p with bars := p.bars.set natZero i a }
  | .other o v => if cfgFixed o then p else { p with cfg := p.cfg.set natZero (o / 4 * 4) v }
  | .read _ => p

/-- PCIE_CONFIG_WRITE (R481, R482, R484-R486, R494): messages that nothing holds back any more go out; a read answers. -/
def State.cfgWrite (s : State) (w : CfgWrite) : State :=
  let s := { s with pcie := cfgSet s.pcie w }.msixFlush
  match w with
  | .read off => s.emit (.readData (s.cfgRead off) false)
  | _ => s

/-- MSIX_UNMASK (R494). -/
def State.unmask (s : State) (u : Unmask) : State :=
  match u with
  | .vector v => s.write32 (Reg.MSIX_CTL v.val) 0
  | .function => s.cfgWrite (.msixMask false)
  | .busMaster => s.cfgWrite (.busMaster true)

/-! ### SMBus (R495, R496) -/

/-- The Packet Error Code of a read of the target: CRC-8 over the address with its write and read bits, the command code and
the bytes read (SMBus 3.1, which R495 names). -/
def State.smbPec (s : State) (cmd : Nat) (bs : List Byte) : Byte :=
  let a := BitVec.ofNat 8 (2 * s.pins.smbAddr)
  BitVec.ofNat 8 (crcBits 8 0x07 0 (bytesBits ([a, BitVec.ofNat 8 cmd, a + 1#8] ++ bs)))

/-- Answer a read with bytes, and with their PEC when the host clocks it. -/
def State.smbAnswer (s : State) (cmd : Nat) (bs : List Byte) (pec : Bool) : State :=
  s.emit (.smb (bs ++ if pec then [s.smbPec cmd bs] else []))

/-- Bytes `c` onward of the page; past its end a free value. -/
def State.pageBytes (s : State) (c n : Nat) : List Byte × State :=
  (List.range n).foldl (fun (acc : List Byte × State) i => match acc.2.page[c + i]? with
    | some b => (acc.1 ++ [b], acc.2)
    | none => let d := acc.2.draw 256; (acc.1 ++ [BitVec.ofNat 8 d.1], d.2)) ([], s)

/-- Read Byte and Read Word with command code `c`. -/
def State.smbRead (s : State) (c n : Nat) (pec : Bool) : State :=
  let r := s.pageBytes c n
  r.2.smbAnswer c r.1 pec

/-! ### Ports and FlexE groups (R500) -/

/-- A one-bit status as the next phase 2 latch will show it (R42). -/
def State.shownBit (s : State) (f : Fr) : Bool := s.nextLat f == 1

/-- A host port's link: up, PCS aligned, FEC locked, link training complete. -/
def State.portLink (s : State) (p : Nat) (up pcs fec lt : Bool) : State :=
  let was := s.shownBit (Reg.HST_PORT_STATUS.LINK_UP p)
  let s := ((s.latch (Reg.HST_PORT_STATUS.LINK_UP p) (b2n up)).latch (Reg.HST_PORT_STATUS.PCS_LOCK p) (b2n pcs)).latch
    (Reg.HST_PORT_STATUS.FEC_LOCK p) (b2n fec)
  let s := s.latch (Reg.HST_PORT_STATUS.LT_DONE p) (b2n lt)
  if was == up then s
  else if up then s.raiseDpAt Reg.HST_EVENT.LINK_UP p
  else
    let s := if s.sh (Reg.PMC_MODE.MODE (portCtr p 14)) = 0 then s.count (portCtr p 14) 1 else s
    s.raiseDpAt Reg.HST_EVENT.LINK_DOWN p

/-- A FlexE group's lock; `match_` says that its PHY map matches the far end's. -/
def State.groupLock (s : State) (g : Nat) (lock match_ : Bool) : State :=
  let was := s.shownBit (Reg.HST_FXG_STATUS.LOCK g)
  let s := (s.latch (Reg.HST_FXG_STATUS.LOCK g) (b2n lock)).latch ⟨Reg.HST_STATUS, g, g⟩ (b2n lock)
  if (was && !lock) || !match_ then s.raiseDpAt Reg.HST_EVENT.FXG_DEFECT g else s

/-! ### Meanings -/

/-- PCIE_RESET (R484). -/
def execPcieReset (r : PcieRst) (s : State) : Host.Outcome State Fault Refusal := .next (s.cmd (·.pcieReset r))
/-- PCIE_LINK_TRAINED (R482, R520). -/
def execPcieLinkTrained (gen width : Nat) (ssc : Bool) (s : State) : Host.Outcome State Fault Refusal :=
  .next (s.cmd (·.linkTrained gen width ssc))
/-- PCIE_CONFIG_WRITE (R484). -/
def execPcieConfigWrite (w : CfgWrite) (s : State) : Host.Outcome State Fault Refusal := .next (s.cmd (·.cfgWrite w))
/-- MSIX_UNMASK (R494). -/
def execMsixUnmask (u : Unmask) (s : State) : Host.Outcome State Fault Refusal := .next (s.cmd (·.unmask u))
/-- READ_BYTE (R496). -/
def execReadByte (c : Nat) (pec : Bool) (s : State) : Host.Outcome State Fault Refusal := .next (s.cmd (·.smbRead c 1 pec))
/-- READ_WORD (R496). -/
def execReadWord (c : Nat) (pec : Bool) (s : State) : Host.Outcome State Fault Refusal := .next (s.cmd (·.smbRead c 2 pec))
/-- BLOCK_READ (R496): the byte count, and the whole page. -/
def execBlockRead (pec : Bool) (s : State) : Host.Outcome State Fault Refusal :=
  .next (s.cmd fun s => s.smbAnswer 0x20 (32#8 :: s.page) pec)
/-- SMBUS_WRITE (R495): the data byte of every write command is not acknowledged. -/
def execSmbusWrite (s : State) : Host.Outcome State Fault Refusal := .next (s.cmd (·.emit .smbNack))
/-- SMBUS_CLOCK_TIMEOUT (R495): the target's interface is reset; its reads are whole commands, so it holds nothing between
them. -/
def execSmbusClockTimeout (s : State) : Host.Outcome State Fault Refusal := .next (s.cmd id)
/-- PORT_LINK_CHANGE (R500). -/
def execPortLinkChange (p : Nat) (up pcs fec lt : Bool) (s : State) : Host.Outcome State Fault Refusal := .next (s.cmd (·.portLink p up pcs fec lt))
/-- FLEXE_GROUP_LOCK_CHANGE (R500). -/
def execFlexeGroupLockChange (g : Nat) (lock match_ : Bool) (s : State) : Host.Outcome State Fault Refusal :=
  .next (s.cmd (·.groupLock g lock match_))

end Sys2Proof.Machine
end

