-- ==== Sys2Proof/Machine/Bring.lean ====
section
/-! DEFINITION. Bringing a line engine up and down: enable, training, foreground calibration, bring-up, disable (R45, R225,
R247, R303, R377). -/

namespace Sys2Proof.Machine

open Sys2Proof (FgIn TrainIn)

/-- Whether a line engine's field of GLB_LINE_STATUS reads "starting". -/
def State.starting (s : State) (l : Nat) : Bool := s.fld (lineState l) == 1

/-- Begin to start a line engine: its tile is powered, pending moves of its macros are applied, its macros swept (R45,
R377, R382). -/
def State.lineStart (s : State) (l : Nat) : State :=
  (((s.sweepLine l).setFld (lineState l) 1).modLn l fun x => { x with power := true, mute := x.mute ||| 2, oom := true }).modFrm l FrmSt.fresh

/-- Bring a line up: formats and framing from its registers, the framer's defects as at enable, acquisition from IDLE (R44,
R45, R116, R275). -/
def State.bringUp (s : State) (l : Nat) : State :=
  let s := (s.setFld (lineState l) 2).adoptAll l
  let compat := s.bit (Reg.FRM_CTL.COMPAT l)
  let s := s.modLn l fun x => { x with
    txFmt := s.fld (Reg.FRM_FMT_SEL.TX_IDX l), rxFmt := s.fld (Reg.FRM_FMT_SEL.RX_IDX l), compatTx := compat, compatRx := compat,
    txRelock := none, rxRelock := none, relocked := false, relockBad := false, oom := true, rxSym := 0, rxq := [], ready := [], dsp := {} }
  let s := s.modLn l fun x => { x with rxRate := fmtRs (s.rxFmtW l) }
  (s.modFrm l FrmSt.fresh).modRxp l fun x => { x with state := 0, attempt := false, scanned := false, restart := none }

/-- LINE_ENGINE_ENABLE: an enabled engine in service begins to start. -/
def State.lineEnable (s : State) (l : Nat) : State :=
  if s.boot.ready && s.engOn l && s.fld (lineState l) == 0 && !s.down then s.lineStart l else s

/-- What follows once both directions of a tile have trained in service: its stored state is current and the line comes up,
or it is stale and calibration follows (R45, R247). -/
def State.tileCheck (s : State) (l : Nat) : State :=
  if !(s.trained (2 * l) && s.trained (2 * l + 1)) then s
  else if s.tileCurrent l then (s.tileReturn l).bringUp l
  else (s.modCnv l fun c => { c with loop := true }).raise (Reg.CNV_EVENT.STALE l)

/-- Train one direction of a starting line engine's tile; a failure holds the line engine disabled (R303, R304). -/
def State.trainOne (s : State) (d : Nat) (x : TrainIn) : State :=
  let r := s.trainDir (d / 2) (d % 2) x.bad x.flight
  if r.2 then r.1
  else
    let s := (r.1.setFld (lineState (d / 2)) 3).setFld ⟨Reg.FLT_STATUS, 8 + d / 2, 8 + d / 2⟩ 1
    (s.modLn (d / 2) fun y => { y with mute := y.mute ||| 16, power := false, tileLock := false })

/-- LINK_TRAINING in service. -/
def State.linkTraining (s : State) (d : Nat) (x : TrainIn) : State :=
  if s.boot.ready && s.starting (d / 2) && !s.trained d && !s.down then (s.trainOne d x).tileCheck (d / 2) else s

/-- FOREGROUND_CALIBRATION in service: the line comes up when it succeeds, and a pass follows its return (R233). -/
def State.fgCal (s : State) (l : Nat) (x : FgIn) : State :=
  if s.boot.ready && s.starting l && s.trained (2 * l) && s.trained (2 * l + 1) && !s.down && s.fgReady l x then
    let r := s.foreground l x
    if r.2 then (r.1.modCnv l fun c => { c with want := true }).bringUp l else r.1
  else s

/-- LINE_ENGINE_DISABLE: the boundary after the one that disabled the engine, whose first head muted the transmitter: the
links stop and the tile powers down (R45). -/
def State.lineDisable (s : State) (l : Nat) : State :=
  let st := s.fld (lineState l)
  if s.engOn l || st == 0 || st == 3 || (s.ln l).offAt == some s.tick then s
  else
    let s := (((s.setFld (lineState l) 0).linkStop (2 * l)).linkStop (2 * l + 1)).subDown
    let s := s.modLn l fun x => { x with power := false, tileLock := false, offAt := none, rxq := [], ready := [], txRelock := none, rxRelock := none, relockBad := false }
    let s := (s.modRxp l fun x => { x with state := 0, restart := none }).cnvStop l
    (s.setDacZero l true).setMute l (s.muteCauses l)

/-! ### Meanings -/

/-- LINE_ENGINE_ENABLE (R45). -/
def execLineEngineEnable (l : Nat) (s : State) : Host.Outcome State Fault Refusal := .next (s.cmdTick (·.lineEnable l))
/-- LINE_ENGINE_DISABLE (R45). -/
def execLineEngineDisable (l : Nat) (s : State) : Host.Outcome State Fault Refusal := .next (s.cmdTick (·.lineDisable l))
/-- LINK_TRAINING (R303). -/
def execLinkTraining (d : Nat) (x : TrainIn) (s : State) : Host.Outcome State Fault Refusal := .next (s.cmdLive (·.linkTraining d x))
/-- FOREGROUND_CALIBRATION (R225). -/
def execForegroundCalibration (l : Nat) (x : FgIn) (s : State) : Host.Outcome State Fault Refusal := .next (s.cmdLive (·.fgCal l x))

end Sys2Proof.Machine
end

