-- ==== Sys2Proof/Machine/Boot.lean ====
section
/-! DEFINITION. Reset and the seven steps of boot (R134, R379, R405, R408, R409, R417-R422, R425, R434-R436, R450, R457,
R508, R509, R527). -/

namespace Sys2Proof.Machine

open Sys2Proof (Rd Pg FgIn TrainIn Fuses Sfdp)

/-! ### Reset (R459, R508, R509) -/

/-- RESET_N is accepted as asserted: the whole device is reset and held. -/
def State.assertReset (s : State) : State := { s.resetTo 0 with held := true }

/-- RESET_N held low; a pulse below 1 µs is a glitch (R459). -/
def State.resetLow (s : State) (heldNs : Nat) : State := if heldNs < 1000 then s.count 192 1 else s.assertReset

/-- The supply detector: a rail out of range for more than 1 µs (R509). -/
def State.supplyLow (s : State) (belowNs : Nat) : State := if 1000 < belowNs then s.assertReset else s

/-- RESET_N released: ticks and boot begin, the SMBus address pins are sampled (R417, R495). -/
def State.releaseReset (s : State) (a1 a0 : Bool) : State :=
  if s.held then { s.resetTo 0 with pins := { smbAddr := 0x5A + 2 * b2n a1 + b2n a0 } } else s.cleared

/-! ### Steps -/

/-- The last completed step. -/
def State.bootStep (s : State) : Nat := s.fld Reg.GLB_HOST_STATUS.BOOT_STEP

/-- A step completes, in phase 7: what phases 3 to 6 decide after it in this tick would meet the state after it, so that none does
(R527). -/
def State.stepDone (s : State) (n : Nat) : State := { s.setFld Reg.GLB_HOST_STATUS.BOOT_STEP n with acted := true }

/-- Whether the device is in safe mode. -/
def State.safe (s : State) : Bool := s.bit Reg.CFG_STATUS.SAFE

/-- Step 1: the fuse map is read (GLB_DEVICE_ID is fused), slot 63 loaded (R156); the known-answer test falls due
(R159). -/
def State.bootFuses (s : State) (f : Fuses) : State :=
  if s.bootStep ≠ 0 then s
  else
    let s := ({ s with fuses := f }.setKey 63 f.key63).setReg64 Reg.GLB_DEVICE_ID_LO Reg.GLB_DEVICE_ID_HI f.deviceId
    let s := (s.setFld (Reg.CPH_KEY_STATE.USAGE 63) 4).setFld (Reg.CPH_KEY_STATE.LOCKED 63) 1
    { s with cph := { s.cph with kat := true } }.stepDone 1

/-! ### Step 2: NVM discovery -/

/-- A boot header copy's SEQ and MIN_VER, when it is valid (R408). -/
def bootHdrParse (b : List Byte) : Option (Nat × Nat) :=
  if b.length = 64 ∧ le b 0 4 = 0x48464C46 ∧ le b 4 2 = 1 ∧ le b 60 4 = crc32 (b.take 60) then some (le b 8 4, le b 12 4) else none

/-- The copy in use: its number, SEQ and MIN_VER. -/
def hdrPick (a b : Option (Nat × Nat)) : Option (Nat × Nat × Nat) :=
  match a, b with
  | some x, some y => if x.1 < y.1 ∨ (x.1 = y.1 ∧ x.2 < y.2) then some (1, y) else some (0, x)
  | some x, none => some (0, x)
  | none, some y => some (1, y)
  | none, none => none

/-- The high half of CFG_EPOCH, from E as read (R434). -/
def State.epochHigh (s : State) : State :=
  let e := s.epochMax
  { s.setFld Reg.CFG_EPOCH.EPOCH ((e + 1) % 65536 * 65536 + s.fld Reg.CFG_EPOCH.EPOCH % 65536) with boot := { s.boot with epochE := some e } }

/-- Read one slot's status sector and header: a slot that cannot be read is not eligible for this boot. -/
def State.slotRead (s : State) (k : Nat) (r : Rd) : State :=
  let s := s.rdTimeout r
  match s.nvmRead (imageBase k) 64 r with
  | some h => { s with boot := { s.boot with slotHdr := s.boot.slotHdr.set k h } }.slotRefresh k
  | none => { s with boot := { s.boot with dead := s.boot.dead ++ [k] } }

/-- The mode in use, as NVM_WIDTH tells it: the widest that the tables declare (R405). -/
def modeWidth (x : Sfdp) : Nat := if x.octal then 3 else if x.quad then 2 else 1

/-- Step 2: the SFDP read, then the reads of the two boot header copies, the four slots and the epoch area.  DESIGN CHOICE: the step is one
procedure, which an SFDP read that fails or times out ends (R406): no mode is in use, and no slot is eligible in this boot. -/
def State.bootNvm (s : State) (x : Sfdp) (h0 h1 : Rd) (slots : List Rd) (epoch : Rd) : State :=
  if s.bootStep ≠ 1 then s
  else if Rd.code x.read ≠ 0 then
    let s := (s.setFld Reg.CFG_STATUS.NVM_WIDTH 0).rdTimeout x.read
    { s with boot := { s.boot with dead := s.boot.dead ++ [0, 1, 2, 3] } }.stepDone 2
  else
    let s := (s.setFld Reg.CFG_STATUS.NVM_WIDTH (modeWidth x)).rdTimeout h0 |>.rdTimeout h1
    let pick := hdrPick ((s.nvmRead 0 64 h0).bind bootHdrParse) ((s.nvmRead 0x80000 64 h1).bind bootHdrParse)
    let s := match pick with
      | some (c, q, v) =>
        { (s.setFld Reg.CFG_MIN_VER.MIN_VER v).setFld Reg.CFG_STATUS.HDR_COPY c with boot := { s.boot with hdr := some (c, q) } }
      | none => s
    let s := (List.range 4).foldl (fun s k => s.slotRead k (slots.getD k .ok)) s
    let s := s.rdTimeout epoch
    (if Rd.code epoch = 0 then s.epochHigh else s).stepDone 2

/-! ### Step 3: selection (R409, R420-R422) -/

/-- An image is marked bad: no longer eligible in this boot, BAD to be programmed, IMAGE_BAD, its record. -/
def State.imageBad (s : State) (k cause : Nat) : State :=
  let s := { s with boot := { s.boot with dead := s.boot.dead ++ [k] } }
  let s := (s.markStart k 2 cause).raiseOwn Reg.CFG_EVENT.IMAGE_BAD
  s.queueRec 0x0004 2 1 ([BitVec.ofNat 8 k, BitVec.ofNat 8 cause, 0#8, 0#8] ++ leBytes 4 (imgVer (s.slotHeader k)))

/-- The attempt bytes of a slot that are not consumed. -/
def State.freeAttempts (s : State) (k : Nat) : List Nat :=
  ([20, 21, 22].map (slotBase k + ·)).filter fun a => s.nvm.get nvmErased a == 0xFF#8

/-- Consume an attempt: the first byte that programs well.  The outcomes that are left, and whether one did. -/
def consume : List Nat → List Pg → State → State × List Pg × Bool
  | [], ps, s => (s, ps, false)
  | a :: as, ps, s =>
    let w := s.nvmWrite a [0#8] (ps.headD .ok)
    if w.2 then (w.1, ps.tail, true) else consume as ps.tail (w.1.raise Reg.CFG_EVENT.MARKER_FAIL)

/-- Choose among the eligible slots, consuming an attempt; a slot without one left is marked bad and passed over. -/
def choose : Nat → List Pg → State → State × Option Nat
  | 0, _, s => (s, none)
  | n + 1, ps, s =>
    match s.bestSlot s.eligible with
    | none => (s, none)
    | some k =>
      if (s.slotSt k).proven then (s, some k)
      else
        let r := consume (s.freeAttempts k) ps s
        if r.2.2 then (r.1.slotRefresh k, some k) else choose n r.2.1 ((r.1.slotRefresh k).imageBad k 4)

/-- Enter safe mode (R422). -/
def State.enterSafe (s : State) : State :=
  let s := ((s.setFld Reg.CFG_STATUS.SAFE 1).raiseOwn Reg.CFG_EVENT.SAFE_MODE).queueRec 0x0005 2 1 []
  [0, 1].foldl (fun (s : State) l => s.setMute l (s.muteCauses l)) s

/-- Step 3: slots out of attempts are marked bad, the candidate is chosen. -/
def State.select (s : State) (ps : List Pg) : State :=
  if !(s.bootStep == 2 || (s.bootStep == 3 && s.boot.reselect)) then s
  else
    let spent := (List.range 4).filter fun k => let t := s.slotSt k; !t.proven && !t.bad && !s.boot.dead.contains k && decide (3 ≤ t.attempts)
    let s := spent.foldl (fun (s : State) k => s.imageBad k 4) s
    let r := choose 4 ps s
    let s := { r.1 with boot := { r.1.boot with cand := r.2, reselect := false } }
    (if r.2.isNone then s.enterSafe else s).stepDone 3

/-! ### Step 4: application (R418, R421) -/

/-- How one pass over the candidate ends. -/
inductive Pass where
  | good (v : ImageVals)
  | header
  | cmac
  | record
  deriving DecidableEq, Repr

/-- One pass over the candidate: header, CMAC, records. -/
def State.pass (s : State) (k : Nat) (r : Rd) : Pass :=
  let j := s.judgeSlot k r
  let h := (s.nvmRead (imageBase k) 64 r).getD []
  if Rd.code r ≠ 0 then .cmac
  else if h ≠ s.boot.slotHdr.getD k [] ∨ j.1 = 5 then .header
  else if j.1 = 6 then .cmac
  else if j.1 = 7 then .record
  else .good j.2.2

/-- The passes of step 4: `h` and `c` count those that failed on the header, and on the CMAC or the read; the answer is the
image's values or the cause of its badness. -/
def State.passes (s : State) (k : Nat) : Nat → List Rd → Nat → Nat → Nat ⊕ ImageVals
  | 0, _, _, _ => .inl 1
  | n + 1, rs, h, c =>
    match s.pass k (rs.headD .ok) with
    | .good v => .inr v
    | .record => .inl 3
    | .header => if h = 1 then .inl 2 else s.passes k n rs.tail (h + 1) c
    | .cmac => if c = 1 then .inl 1 else s.passes k n rs.tail h (c + 1)

/-- Load an image's key at application. -/
def State.bootKey (s : State) (k : Nat × Nat × List Byte) : State := (s.imageKey k).2

/-- Load both banks of a line's calendar (R68). -/
def State.bootCal (s : State) (p : Nat × List Nat) : State :=
  [0, 1].foldl (fun s b => p.2.zipIdx.foldl (fun s e => s.setReg (Reg.FLO_CAL p.1 b e.2) (BitVec.ofNat 32 e.1)) s) s

/-- The pending copies take effect together (R418, R434, R489). -/
def State.applyImage (s : State) (k : Nat) (v : ImageVals) : State :=
  let s := v.cals.foldl State.bootCal (v.keys.foldl State.bootKey s)
  let s := (s.layImage v fun _ f => f.acc == .rw || f.acc == .rwo).rimWaves
  let s := (s.setFld Reg.CFG_IMAGE_VER.VER (imgVer (s.slotHeader k))).setFld Reg.CFG_STATUS.RUN_SLOT k
  { s with boot := { s.boot with health := v.health, healthS := imgHealthS (s.slotHeader k) }, pins := { s.pins with hostLanesIdle := false } }.slotRefresh k

/-- Step 4: `rs` are the outcomes of the passes, those left out ending well; the candidate's authentication waits for the request that
the engine runs (R159, R416). -/
def State.bootApply (s : State) (rs : List Rd) : State :=
  if s.bootStep ≠ 3 ∨ s.boot.reselect = true ∨ (s.boot.cand.isSome = true ∧ s.cph.running.isSome = true) then s
  else
    let s := if rs.any (· == .timeout) then s.raise Reg.CFG_EVENT.NVM_TIMEOUT else s
    match s.boot.cand with
    | none => (s.setFld Reg.GLB_HOST_STATUS.READY 1).stepDone 4
    | some k =>
      match s.passes k 4 rs 0 0 with
      | .inr v => ((s.applyImage k v).setFld Reg.GLB_HOST_STATUS.READY 1).stepDone 4
      | .inl cause =>
        let s := s.imageBad k cause
        { s with boot := { s.boot with cand := none, reselect := true } }

/-! ### Step 5: repairs, sweep, training (R379, R382, R436, R450) -/

def logBase : Nat := 0x3520000

/-- The repair-log entries with a programmed byte, ascending. -/
def State.logIdxs (s : State) : List Nat :=
  ((s.nvm.filter fun p => decide (logBase ≤ p.1) && decide (p.1 < logBase + 0x20000)).map fun p => (p.1 - logBase) / 16).eraseDups

/-- A repair-log entry's KIND, STATE and location, when its CRC is good. -/
def State.logEntry (s : State) (i : Nat) : Option (Nat × Nat × List Byte) :=
  let b := s.nvmBytes (logBase + 16 * i) 16
  if le b 12 4 = crc32 (b.take 12) then some (le b 0 2, le b 2 1, (b.drop 4).take 8) else none

/-- What identifies an entry's location. -/
def logKey (e : Nat × Nat × List Byte) : Nat × List Byte := (e.1, if e.1 = 4 then e.2.2.take 4 else e.2.2)

/-- The entries with a good CRC, in order. -/
def State.logAll (s : State) : List (Nat × Nat × List Byte) := s.logIdxs.filterMap fun i => if i = 0 then none else s.logEntry i

/-- The current entries: a later one supersedes an earlier one for the same location. -/
def State.logCurrent (s : State) : List (Nat × Nat × List Byte) :=
  s.logAll.foldl (fun acc e => (acc.filter fun x => logKey x != logKey e) ++ [e]) []

/-- Whether the log is another device's. -/
def State.logForeign (s : State) : Bool :=
  let b := s.nvmBytes logBase 16
  le b 0 2 != 0 || le b 4 8 != s.fuses.deviceId

/-- A lane is suspect or failed from the start; one that becomes suspect again is suspect a second time (R304). -/
def State.oldLane (s : State) (k st : Nat) : State :=
  if k < 1056 then { s with d2d := { s.d2d with was := s.d2d.was.set (fun _ => false) k true } }.setFld (Reg.D2D_LANE.STATE k) st else s

/-- The fuse map names a lane failed (R302, R306). -/
def State.fuseLane (s : State) (k : Nat) : State := if k < 1056 then (s.oldLane k 3).setFld (Reg.D2D_LANE.FUSED k) 1 else s

/-- Move a row to a spare, as the fuse map or the repair log says; another spare that the row lay on is failed (R377). -/
def State.oldRow (s : State) (inst row spare st : Nat) : State :=
  let old := s.mem.rowMap.get natZero (512 * inst + row)
  let sp := if old = 0 ∨ old = spare + 1 then s.mem.spare else failSpare s.mem.spare (4 * inst + (old - 1))
  { s with mem := { s.mem with spare := sp.set natZero (4 * inst + spare) st, rowMap := s.mem.rowMap.set natZero (512 * inst + row) (spare + 1) } }

/-- A move that the log tells of, current or superseded; a pending one that is current is carried out now, and recorded as done with the
spare that the row left (R377, R379). -/
def State.oldMove (cur : List (Nat × Nat × List Byte)) (s : State) (e : Nat × Nat × List Byte) : State :=
  let inst := le e.2.2 0 2
  let row := le e.2.2 2 2
  let i := le e.2.2 4 1
  if e.1 = 4 ∧ inst < 1272 ∧ row < 512 ∧ i < 4 then
    let old := s.mem.rowMap.get natZero (512 * inst + row)
    let s := s.oldRow inst row i 2
    if e.2.1 = 1 ∧ cur.contains e = true then
      (s.logRow inst row i 0x02 (if old = i + 1 then 0 else old)).raiseAt Reg.MEM_EVENT.REPAIRED (memClass inst)
    else s
  else s

/-- Apply one current entry other than a row's move (R436). -/
def State.oldRepair (s : State) (e : Nat × Nat × List Byte) : State :=
  let b (i : Nat) : Nat := le e.2.2 i 1
  match e.1 with
  | 1 => s.oldLane (laneIdx (b 0) (b 1) (b 2) (b 3)) (if e.2.1 = 1 then 2 else 3)
  | 2 => let i := 144 * b 1 + 18 * b 2 + b 3; if b 0 < 2 ∧ i < 576 then s.setFld (Reg.CNV_UNIT.ROLE (b 0) i) 3 else s
  | 3 =>
    if b 0 < 2 ∧ b 1 < 4 ∧ b 2 < 76 then
      s.modCnv (b 0) fun c => { c with cellBad := c.cellBad.set (fun _ => false) (76 * b 1 + b 2) true }
    else s
  | 5 => let i := le e.2.2 0 2; if i < 1272 ∧ b 4 < 4 then { s with mem := { s.mem with spare := failSpare s.mem.spare (4 * i + b 4) } } else s
  | 6 =>
    if b 0 < 2 ∧ b 1 < 18 then
      let s := (s.setFld ⟨Reg.LCY_PIPE_FAIL (b 0), b 1, b 1⟩ 1).modLcy (b 0) fun y => { y with out := none }
      { s with poolQ := s.poolQ ++ [(4, 4 + 256 * b 0)] }
    else s
  | _ => s

/-- A fuse-map row takes the lowest free spare of its macro, of which the fuse map takes at most two (R378). -/
def State.fuseRow (s : State) (p : Nat × Nat) : State :=
  if p.1 < 1272 ∧ p.2 < 512 then
    match s.freeSpares p.1 with
    | i :: _ => if i < 2 then s.oldRow p.1 p.2 i 1 else s
    | [] => s
  else s

/-- The repair log is read: a foreign one is erased and given a new header (R436), which a failed erase leaves out (R406). -/
def State.readLog (s : State) (r : Rd) (e p : Pg) : State :=
  let s := s.rdTimeout r
  if Rd.code r ≠ 0 then s
  else if s.logForeign then
    let w := s.nvmWipe logBase 0x20000 e
    let h := List.replicate 4 0#8 ++ leBytes 8 s.fuses.deviceId
    if w.2 then { (w.1.nvmWrite logBase (h ++ leBytes 4 (crc32 h)) p).1 with mem := { w.1.mem with mapNext := 1 } }
    else { w.1 with mem := { w.1.mem with mapNext := s.logIdxs.foldl (fun a i => max a (i + 1)) 1 } }
  else
    let cur := s.logCurrent
    let s := cur.foldl State.oldRepair (s.logAll.foldl (State.oldMove cur) s)
    { s with mem := { s.mem with mapNext := s.logIdxs.foldl (fun a i => max a (i + 1)) 1 } }

/-- Train both directions of an enabled tile; after a shutdown no tile is powered (R395). -/
def State.bootTrain (ts : List TrainIn) (s : State) (l : Nat) : State :=
  if s.bit ⟨Reg.GLB_LINE_CTL, 4 * l, 4 * l⟩ && !s.down then
    let s := (s.setFld (lineState l) 1).modLn l fun x => { x with power := true }
    let s := s.trainOne (2 * l) (ts.getD (2 * l) ⟨[], 0⟩)
    if s.starting l then s.trainOne (2 * l + 1) (ts.getD (2 * l + 1) ⟨[], 0⟩) else s
  else s

/-- Step 5: the repair log's read, its erase and header when it is foreign, the trainings of the four directions. -/
def State.bootRepair (s : State) (r : Rd) (e p : Pg) (ts : List TrainIn) : State :=
  if s.bootStep ≠ 4 then s
  else
    let s := s.fuses.rows.foldl State.fuseRow (s.fuses.lanes.foldl State.fuseLane s)
    let s := (s.readLog r e p).sweep
    let s := ((s.mem.spare.map (·.1 / 4)).eraseDups).foldl State.checkRowPool s
    let s := ((s.cnvPool 0).cnvPool 1).d2dPool
    (if s.safe then s else [0, 1].foldl (State.bootTrain ts) s).stepDone 5

/-! ### Step 6: calibration, epoch, Moraine (R134, R135, R225, R239, R396, R425, R454) -/

/-- The epoch write, after a repeated read when step 2's failed. -/
def State.bootEpoch (s : State) (r : Rd) (tries : List (Pg × Bool × Pg)) (after : Pg) : State :=
  if s.boot.epochE.isSome then s.epochRun tries after
  else if Rd.code r = 0 then s.epochHigh.epochRun tries after
  else (s.rdTimeout r).epochReadFailed

/-- Whether a tile is calibrated at boot: its line engine starts, and no shutdown has stopped its clock (R395). -/
def State.calibrates (s : State) (l : Nat) : Bool := s.starting l && !s.down

/-- Calibrate an enabled tile. -/
def State.bootCal6 (s : State) (l : Nat) (sets : Rd) (x : FgIn) : State :=
  let s := s.setsRead l sets
  if s.calibrates l then (s.foreground l x).1 else s

/-- The Moraine read: it tells whether the cooling gate holds, beside what every such read tells. -/
def State.bootMoraine (s : State) (r : Rd) : State :=
  let s := s.morRead r
  if s.mor.governing.map (·.1) == some 1 || !s.mor.readOk then
    { s.setFld Reg.THM_STATUS.GATE 1 with boot := { s.boot with gateFrom := s.tick } }
  else s

/-- What step 6 met: the reads of the calibration sets, the calibrations of tiles A and B, the repeated epoch read, the
attempts and the erase ahead of the epoch write, the Moraine read. -/
def State.bootCalib (s : State) (sets : Rd) (a b : FgIn) (epoch : Rd) (tries : List (Pg × Bool × Pg)) (after : Pg) (mor : Rd) : State :=
  if s.bootStep ≠ 5 || (!s.safe && ([(0, a), (1, b)].any fun p => s.calibrates p.1 && !s.fgReady p.1 p.2)) then s
  else
    let s := if s.safe then s else ((s.bootCal6 0 sets a).bootCal6 1 sets b).bootEpoch epoch tries after
    (s.bootMoraine mor).stepDone 6

/-! ### Step 7: line bring-up (R417, R419, R423, R425, R450, R457, R527) -/

/-- The end of a boot with an image: the lines come up, the health window starts, the announcements are due. -/
def State.bootLines (s : State) : State :=
  let s := [0, 1].foldl (fun (s : State) l => if s.starting l then s.bringUp l else s) s
  let s := { s with boot := { s.boot with ready := true } }.startHealth
  let s := if s.bit Reg.CFG_STATUS.ROLLED_BACK then (s.raise Reg.CFG_EVENT.ROLLBACK).alarm 2 2 true s.runVer else s
  let s := s.boot.poolAlarms.foldl (fun (s : State) d => s.alarm 1 2 true d) s
  { s with boot := { s.boot with poolAlarms := [] } }.rimAnnounce

/-- Step 7, in a tick in which the gate does not hold. -/
def State.bootLast (s : State) : State :=
  if s.bootStep ≠ 6 ∨ s.bit Reg.THM_STATUS.GATE = true ∨ s.down = true then s
  else
    let s := s.setReg Reg.CFG_BOOT_TIME (BitVec.ofNat 32 s.tick)
    let s := s.queueFirst 0x000F 0 2 ([BitVec.ofNat 8 (s.fld Reg.FLT_RESET_CAUSE.CAUSE), BitVec.ofNat 8 (s.fld Reg.CFG_STATUS.RUN_SLOT), 0#8, 0#8] ++ leBytes 4 s.tick)
    (if s.safe then s else s.bootLines).stepDone 7

/-! ### Meanings -/

/-- RESET_N_ASSERT (R508). -/
def execResetNAssert (heldNs : Nat) (s : State) : Host.Outcome State Fault Refusal := .next (s.cmd (·.resetLow heldNs))
/-- SUPPLY_DETECTOR_TRIP (R509). -/
def execSupplyDetectorTrip (belowNs : Nat) (s : State) : Host.Outcome State Fault Refusal := .next (s.cmd (·.supplyLow belowNs))
/-- RESET_N_RELEASE (R417). -/
def execResetNRelease (a1 a0 : Bool) (s : State) : Host.Outcome State Fault Refusal := .next (s.releaseReset a1 a0)
/-- FUSES (R417). -/
def execFuses (f : Fuses) (s : State) : Host.Outcome State Fault Refusal := .next (s.cmdTick (·.bootFuses f))
/-- NVM_DISCOVERY (R405). -/
def execNvmDiscovery (x : Sfdp) (h0 h1 : Rd) (slots : List Rd) (epoch : Rd) (s : State) : Host.Outcome State Fault Refusal :=
  .next (s.cmdTick (·.bootNvm x h0 h1 slots epoch))
/-- SELECTION (R420). -/
def execSelection (ps : List Pg) (s : State) : Host.Outcome State Fault Refusal := .next (s.cmdTick (·.select ps))
/-- APPLICATION (R418). -/
def execApplication (rs : List Rd) (s : State) : Host.Outcome State Fault Refusal := .next (s.cmdTick (·.bootApply rs))
/-- REPAIRS_SWEEP_TRAINING (R379). -/
def execRepairsSweepTraining (r : Rd) (e p : Pg) (ts : List TrainIn) (s : State) : Host.Outcome State Fault Refusal :=
  .next (s.cmdTick (·.bootRepair r e p ts))
/-- CALIBRATION_EPOCH_MORAINE (R417). -/
def execCalibrationEpochMoraine (sets : Rd) (a b : FgIn) (epoch : Rd) (tries : List (Pg × Bool × Pg)) (after : Pg) (mor : Rd) (s : State) :
    Host.Outcome State Fault Refusal := .next (s.cmdTick (·.bootCalib sets a b epoch tries after mor))
/-- LINE_BRING_UP (R527). -/
def execLineBringUp (s : State) : Host.Outcome State Fault Refusal := .next (s.cmdTick State.bootLast)

end Sys2Proof.Machine
end

