-- ==== Sys2Proof/Machine/Dispatch.lean ====
section
/-! DEFINITION. One arm for each command: a direct call of its meaning. -/

namespace Sys2Proof.Machine

/-- The effect of a command on everything but the queue. -/
def exec (i : Instr) (s : State) : Host.Outcome State Fault Refusal :=
  match i with
  | .resetNAssert heldNs => Sys2Proof.Machine.execResetNAssert heldNs s
  | .supplyDetectorTrip belowNs => Sys2Proof.Machine.execSupplyDetectorTrip belowNs s
  | .resetNRelease a1 a0 => Sys2Proof.Machine.execResetNRelease a1 a0 s
  | .fuses f => Sys2Proof.Machine.execFuses f s
  | .nvmDiscovery width h0 h1 slots epoch => Sys2Proof.Machine.execNvmDiscovery width h0 h1 slots epoch s
  | .selection ps => Sys2Proof.Machine.execSelection ps s
  | .application rs => Sys2Proof.Machine.execApplication rs s
  | .repairsSweepTraining r e p ts => Sys2Proof.Machine.execRepairsSweepTraining r e p ts s
  | .calibrationEpochMoraine sets a b epoch tries after mor => Sys2Proof.Machine.execCalibrationEpochMoraine sets a b epoch tries after mor s
  | .lineBringUp => Sys2Proof.Machine.execLineBringUp s
  | .gateClear => Sys2Proof.Machine.execGateClear s
  | .tick t => Sys2Proof.Machine.execTick t s
  | .lockstepMismatch => Sys2Proof.Machine.execLockstepMismatch s
  | .wdog us => Sys2Proof.Machine.execWdog us s
  | .watchdogReboot ms => Sys2Proof.Machine.execWatchdogReboot ms s
  | .xoFail edgeUs offUs vsInput => Sys2Proof.Machine.execXoFail edgeUs offUs vsInput s
  | .lineEngineEnable l => Sys2Proof.Machine.execLineEngineEnable l s
  | .lineEngineDisable l => Sys2Proof.Machine.execLineEngineDisable l s
  | .linkTraining d x => Sys2Proof.Machine.execLinkTraining d x s
  | .foregroundCalibration l x => Sys2Proof.Machine.execForegroundCalibration l x s
  | .txFrameHead l cyc sub bad => Sys2Proof.Machine.execTxFrameHead l cyc sub bad s
  | .keyAgeLimit l => Sys2Proof.Machine.execKeyAgeLimit l s
  | .relockDone l => Sys2Proof.Machine.execRelockDone l s
  | .relockTimeout l => Sys2Proof.Machine.execRelockTimeout l s
  | .syncMatch l pos rho side => Sys2Proof.Machine.execSyncMatch l pos rho side s
  | .candidateCheck l pos exch h => Sys2Proof.Machine.execCandidateCheck l pos exch h s
  | .rxHead l h => Sys2Proof.Machine.execRxHead l h s
  | .follow l => Sys2Proof.Machine.execFollow l s
  | .defectDeclare l d => Sys2Proof.Machine.execDefectDeclare l d s
  | .defectClear l d => Sys2Proof.Machine.execDefectClear l d s
  | .degIntervalEnd l => Sys2Proof.Machine.execDegIntervalEnd l s
  | .shiftRequest l v => Sys2Proof.Machine.execShiftRequest l v s
  | .shiftWithdraw l => Sys2Proof.Machine.execShiftWithdraw l s
  | .decoderEntry l errs => Sys2Proof.Machine.execDecoderEntry l errs s
  | .refinementPass l errs => Sys2Proof.Machine.execRefinementPass l errs s
  | .decoderRelease l cut => Sys2Proof.Machine.execDecoderRelease l cut s
  | .frameDelivered l cyc mem => Sys2Proof.Machine.execFrameDelivered l cyc mem s
  | .mergeRelease n cyc bad => Sys2Proof.Machine.execMergeRelease n cyc bad s
  | .seqResync n cyc => Sys2Proof.Machine.execSeqResync n cyc s
  | .ingressFrame x => Sys2Proof.Machine.execIngressFrame x s
  | .egressFrame e n cyc sub cut => Sys2Proof.Machine.execEgressFrame e n cyc sub cut s
  | .portLinkChange p up pcs fec lt => Sys2Proof.Machine.execPortLinkChange p up pcs fec lt s
  | .calSwapArm l v => Sys2Proof.Machine.execCalSwapArm l v s
  | .flexeCalSwitch g v ack => Sys2Proof.Machine.execFlexeCalSwitch g v ack s
  | .epochRetry v r tries after => Sys2Proof.Machine.execEpochRetry v r tries after s
  | .flipArm l v => Sys2Proof.Machine.execFlipArm l v s
  | .rotDue l => Sys2Proof.Machine.execRotDue l s
  | .epochFound l => Sys2Proof.Machine.execEpochFound l s
  | .epochNotFound l => Sys2Proof.Machine.execEpochNotFound l s
  | .rxEpochWrite l v => Sys2Proof.Machine.execRxEpochWrite l v s
  | .pipelineRotate l => Sys2Proof.Machine.execPipelineRotate l s
  | .pipeFail l pass => Sys2Proof.Machine.execPipeFail l pass s
  | .keyLoad slot usage => Sys2Proof.Machine.execKeyLoad slot usage s
  | .keyZero slot => Sys2Proof.Machine.execKeyZero slot s
  | .hostRequestSubmit v => Sys2Proof.Machine.execHostRequestSubmit v s
  | .requestStart => Sys2Proof.Machine.execRequestStart s
  | .requestComplete => Sys2Proof.Machine.execRequestComplete s
  | .katFail pass => Sys2Proof.Machine.execKatFail pass s
  | .dmaCompletion bs ok => Sys2Proof.Machine.execDmaCompletion bs ok s
  | .dmaTimeout us => Sys2Proof.Machine.execDmaTimeout us s
  | .maskViol l => Sys2Proof.Machine.execMaskViol l s
  | .maskClear l => Sys2Proof.Machine.execMaskClear l s
  | .calStepEnd l => Sys2Proof.Machine.execCalStepEnd l s
  | .passStart l => Sys2Proof.Machine.execPassStart l s
  | .skewWindowEnd l => Sys2Proof.Machine.execSkewWindowEnd l s
  | .dacCellMeasured l d dev => Sys2Proof.Machine.execDacCellMeasured l d dev s
  | .setWrite l e p back => Sys2Proof.Machine.execSetWrite l e p back s
  | .acqStateDone l => Sys2Proof.Machine.execAcqStateDone l s
  | .acqBudgetExpiry l => Sys2Proof.Machine.execAcqBudgetExpiry l s
  | .acqRestart l v => Sys2Proof.Machine.execAcqRestart l v s
  | .lockLoss l => Sys2Proof.Machine.execLockLoss l s
  | .cdStep l => Sys2Proof.Machine.execCdStep l s
  | .pairOn => Sys2Proof.Machine.execPairOn s
  | .snrLow l => Sys2Proof.Machine.execSnrLow l s
  | .captureArm l v => Sys2Proof.Machine.execCaptureArm l v s
  | .flitReceived j w seq x => Sys2Proof.Machine.execFlitReceived j w seq x s
  | .flitDelivery j seq type bad => Sys2Proof.Machine.execFlitDelivery j seq type bad s
  | .ctlLate t => Sys2Proof.Machine.execCtlLate t s
  | .laneHardFail k => Sys2Proof.Machine.execLaneHardFail k s
  | .laneErrWindowEnd => Sys2Proof.Machine.execLaneErrWindowEnd s
  | .diag j => Sys2Proof.Machine.execDiag j s
  | .diagDone j bad => Sys2Proof.Machine.execDiagDone j bad s
  | .latFault g => Sys2Proof.Machine.execLatFault g s
  | .rimeSyncDetect k c bits level peak => Sys2Proof.Machine.execRimeSyncDetect k c bits level peak s
  | .rimeHeaderEnd k c h => Sys2Proof.Machine.execRimeHeaderEnd k c h s
  | .rimeTrailerEnd k c body evm => Sys2Proof.Machine.execRimeTrailerEnd k c body evm s
  | .rimeAuthDone => Sys2Proof.Machine.execRimeAuthDone s
  | .authTimeout => Sys2Proof.Machine.execAuthTimeout s
  | .neighLost => Sys2Proof.Machine.execNeighLost s
  | .rimeBackoffEnd k power noise idleUs => Sys2Proof.Machine.execRimeBackoffEnd k power noise idleUs s
  | .rimePacketSent k => Sys2Proof.Machine.execRimePacketSent k s
  | .rimeQueueExpiry k => Sys2Proof.Machine.execRimeQueueExpiry k s
  | .identityDue k => Sys2Proof.Machine.execIdentityDue k s
  | .configVerDue k => Sys2Proof.Machine.execConfigVerDue k s
  | .alarmDue k => Sys2Proof.Machine.execAlarmDue k s
  | .traceReq v => Sys2Proof.Machine.execTraceReq v s
  | .traceReplyDue => Sys2Proof.Machine.execTraceReplyDue s
  | .traceDone => Sys2Proof.Machine.execTraceDone s
  | .rimeRingSubmit v => Sys2Proof.Machine.execRimeRingSubmit v s
  | .qual k => Sys2Proof.Machine.execQual k s
  | .disputeClear => Sys2Proof.Machine.execDisputeClear s
  | .locked => Sys2Proof.Machine.execLocked s
  | .holdoverRecord => Sys2Proof.Machine.execHoldoverRecord s
  | .numFreqWrite v => Sys2Proof.Machine.execNumFreqWrite v s
  | .timeStepArm => Sys2Proof.Machine.execTimeStepArm s
  | .timeLoadArm => Sys2Proof.Machine.execTimeLoadArm s
  | .adjDone => Sys2Proof.Machine.execAdjDone s
  | .compareArm k v => Sys2Proof.Machine.execCompareArm k v s
  | .cmp k cyc => Sys2Proof.Machine.execCmp k cyc s
  | .ppsInEdge widthNs cyc sub => Sys2Proof.Machine.execPpsInEdge widthNs cyc sub s
  | .todMessage m cyc => Sys2Proof.Machine.execTodMessage m cyc s
  | .ppsOutPulse cyc => Sys2Proof.Machine.execPpsOutPulse cyc s
  | .todOutSend => Sys2Proof.Machine.execTodOutSend s
  | .ttLost l => Sys2Proof.Machine.execTtLost l s
  | .trackerDecay => Sys2Proof.Machine.execTrackerDecay s
  | .mapWriteRetry => Sys2Proof.Machine.execMapWriteRetry s
  | .injectArm v => Sys2Proof.Machine.execInjectArm v s
  | .sensorFault => Sys2Proof.Machine.execSensorFault s
  | .monConversion u code value => Sys2Proof.Machine.execMonConversion u code value s
  | .refSettled u => Sys2Proof.Machine.execRefSettled u s
  | .excursion u n => Sys2Proof.Machine.execExcursion u n s
  | .monFault u => Sys2Proof.Machine.execMonFault u s
  | .monRetest u v => Sys2Proof.Machine.execMonRetest u v s
  | .urgentConversion v last => Sys2Proof.Machine.execUrgentConversion v last s
  | .erase slot p => Sys2Proof.Machine.execErase slot p s
  | .write slot p back => Sys2Proof.Machine.execWrite slot p back s
  | .verify slot r p => Sys2Proof.Machine.execVerify slot r p s
  | .commit slot => Sys2Proof.Machine.execCommit slot s
  | .cancel => Sys2Proof.Machine.execCancel s
  | .install slot p => Sys2Proof.Machine.execInstall slot p s
  | .markBad slot p => Sys2Proof.Machine.execMarkBad slot p s
  | .raiseMin e p back => Sys2Proof.Machine.execRaiseMin e p back s
  | .reboot => Sys2Proof.Machine.execReboot s
  | .commitPrepared r => Sys2Proof.Machine.execCommitPrepared r s
  | .commitActivation => Sys2Proof.Machine.execCommitActivation s
  | .commitDone => Sys2Proof.Machine.execCommitDone s
  | .healthEvaluation => Sys2Proof.Machine.execHealthEvaluation s
  | .rollbackReboot => Sys2Proof.Machine.execRollbackReboot s
  | .markerRetry => Sys2Proof.Machine.execMarkerRetry s
  | .overrideUnlock v => Sys2Proof.Machine.execOverrideUnlock v s
  | .override form off v => Sys2Proof.Machine.execOverride form off v s
  | .moraineWrite p back e => Sys2Proof.Machine.execMoraineWrite p back e s
  | .moraineReadRetry r => Sys2Proof.Machine.execMoraineReadRetry r s
  | .moraineRead v rs => Sys2Proof.Machine.execMoraineRead v rs s
  | .snapshot busy => Sys2Proof.Machine.execSnapshot busy s
  | .snapshotNow v => Sys2Proof.Machine.execSnapshotNow v s
  | .preset v => Sys2Proof.Machine.execPreset v s
  | .windowIntervalEnd w => Sys2Proof.Machine.execWindowIntervalEnd w s
  | .latchingRead form off cyc => Sys2Proof.Machine.execLatchingRead form off cyc s
  | .mirrorRead form off cyc => Sys2Proof.Machine.execMirrorRead form off cyc s
  | .registerWrite form off v => Sys2Proof.Machine.execRegisterWrite form off v s
  | .bar4Read a n ups => Sys2Proof.Machine.execBar4Read a n ups s
  | .bar4Write a bs ups => Sys2Proof.Machine.execBar4Write a bs ups s
  | .pcieReset r => Sys2Proof.Machine.execPcieReset r s
  | .msixUnmask u => Sys2Proof.Machine.execMsixUnmask u s
  | .smbusReadByte c pec => Sys2Proof.Machine.execReadByte c pec s
  | .smbusReadWord c pec => Sys2Proof.Machine.execReadWord c pec s
  | .smbusBlockRead pec => Sys2Proof.Machine.execBlockRead pec s
  | .smbusWrite => Sys2Proof.Machine.execSmbusWrite s
  | .smbusClockTimeout => Sys2Proof.Machine.execSmbusClockTimeout s
  | .pcieLinkTrained gen width ssc => Sys2Proof.Machine.execPcieLinkTrained gen width ssc s
  | .pcieConfigWrite w => Sys2Proof.Machine.execPcieConfigWrite w s
  | .flexeGroupLockChange g lock match_ => Sys2Proof.Machine.execFlexeGroupLockChange g lock match_ s
  | .repairMapWrite p => Sys2Proof.Machine.execRepairMapWrite p s
  | .markerProgrammed p => Sys2Proof.Machine.execMarkerProgrammed p s
  | .elasticStoreFault crossing => Sys2Proof.Machine.execElasticStoreFault crossing s

end Sys2Proof.Machine
end

