-- ==== Sys2Proof/Safety.lean ====
section
/-! DEFINITION. What claims about the block are stated in: the state in order, what a command leaves as it was. -/

namespace Sys2Proof.Machine

open Sys2Proof

/-- An NVM in order: its canonical form, and nothing used beyond address 0x03FF_FFFF (R405). -/
structure NvmIn (m : SMap Byte) : Prop where
  wf : SMap.wf nvmErased m = true
  inside : ∀ p ∈ m, p.1 < 0x4000000

/-- The state's NVM is in order. -/
def State.nvmOk (s : State) : Prop := NvmIn s.nvm

/-- The block answers commands: RESET_N is not asserted (R508). -/
abbrev State.live (s : State) : Prop := s.held = false

/-- The sequencer's ticks run: RESET_N is not asserted, nothing has stopped the sequencer or the time base (R446-R448), and no
overrun consumed the running tick (R34). -/
abbrev State.ticking (s : State) : Prop := s.held = false ∧ s.stalled = false ∧ s.consumed = false

/-- The datapath's clocks run: RESET_N is not asserted and no thermal shutdown has taken effect (R395). -/
abbrev State.clocked (s : State) : Prop := s.held = false ∧ s.down = false

/-- The sequencer's ticks run and no thermal shutdown has taken effect (R32). -/
abbrev State.working (s : State) : Prop := s.ticking ∧ s.down = false

/-- A step of phases 3 to 6 of the running tick: no commit has taken effect in it (R33). -/
abbrev State.deciding (s : State) : Prop := s.ticking ∧ s.acted = false

/-- The same where no thermal shutdown has taken effect. -/
abbrev State.decidingUp (s : State) : Prop := s.working ∧ s.acted = false

/-- The commands of the datapath and the steps of a tick that a thermal shutdown stops (R32, R395). -/
def stopsWhenDown : Instr → Bool
  | .candidateCheck .. | .ctlLate .. | .decoderEntry .. | .decoderRelease .. | .defectClear .. | .defectDeclare .. | .flitDelivery ..
  | .flitReceived .. | .follow .. | .frameDelivered .. | .keyAgeLimit .. | .mergeRelease .. | .pipelineRotate .. | .refinementPass ..
  | .relockDone .. | .rxHead .. | .seqResync .. | .syncMatch .. | .acqBudgetExpiry .. | .acqStateDone .. | .calStepEnd .. | .cdStep ..
  | .commitActivation | .commitDone | .dacCellMeasured .. | .degIntervalEnd .. | .diag .. | .diagDone .. | .epochFound .. | .epochNotFound ..
  | .foregroundCalibration .. | .laneErrWindowEnd | .laneHardFail .. | .latFault .. | .linkTraining .. | .lockLoss .. | .maskClear ..
  | .maskViol .. | .pairOn .. | .passStart .. | .pipeFail .. | .relockTimeout .. | .rotDue .. | .skewWindowEnd .. | .snrLow .. => true
  | _ => false

/-- The registers that a counter's wrap writes (R467), with the record queue's MOR_LOST (R455). -/
def wrapRegs : List Nat := [Reg.PMC_EVENT, Reg.PMC_WRAP_LOG, Reg.FLT_EVENT]

/-- The registers that phase 8 writes as well (R440-R443, R449, R494). -/
def faultRegs : List Nat := wrapRegs ++ [Reg.FLT_STATUS, Reg.FLT_SUMMARY, Reg.MSIX_PBA 0, Reg.MSIX_PBA 1]

/-- Every register outside a list reads in `t` as in `s`. -/
def State.sameRegs (s t : State) (offs : List Nat) : Prop := ∀ off, off ∉ offs → t.reg off = s.reg off

/-- A command completes: it answers a next state, of which `P` holds. -/
def Completes (c : Instr) (s : State) (P : State → Prop) : Prop := ∃ t, exec c s = .next t ∧ P t

/-- A 32-bit BAR0 write is taken: the device decodes its BARs and no cause of R491 applies. -/
abbrev State.takes (s : State) (off v : Nat) : Prop := s.pcie.d3hot = false ∧ s.cleared.accessCause .w32 off v = 0

/-- The state right after a taken 32-bit write has stored its register. -/
def State.stored (s : State) (off v : Nat) : State := s.cleared.store off (half v 0)

/-- What a taken 32-bit write leaves: the register stored, then what the write sets in motion. -/
def State.taken (s : State) (off v : Nat) : State := (s.stored off v).effect off (s.reg off)

/-- The registers that a rejected write changes (R491). -/
def rejectRegs : List Nat := wrapRegs ++ [Reg.GLB_HOST_EVENT, Reg.GLB_REJ_LOG_0, Reg.GLB_REJ_LOG_1, Reg.GLB_REJ_LOG_2]

/-- The register and the value of the commands that are one 32-bit BAR0 write. -/
def writeOf : Instr → Option (Nat × Nat)
  | .registerWrite .w32 off v | .override .w32 off v => some (off, v.toNat)
  | .shiftRequest l v => some (Reg.FRM_SHIFT_CTL l, v.toNat)
  | .calSwapArm l v => some (Reg.FLO_CAL_CTL l, v.toNat)
  | .flipArm l v => some (Reg.LCY_FLIP_CTL l, v.toNat)
  | .rxEpochWrite l v => some (Reg.LCY_RX_EPOCH l, v.toNat)
  | .keyLoad k u => some (Reg.CPH_KEY_LOAD, k + 2 ^ 8 * u + 2 ^ 11)
  | .keyZero k => some (Reg.CPH_KEY_LOAD, k + 2 ^ 12)
  | .hostRequestSubmit v => some (Reg.CPH_HQ_WR, v.toNat)
  | .acqRestart l v => some (Reg.RXP_CTL l, v.toNat)
  | .captureArm l v => some (Reg.RXP_CAP_CTL l, v.toNat)
  | .traceReq v => some (Reg.RIM_TRACE_CTL, v.toNat)
  | .rimeRingSubmit v => some (Reg.RIM_TX_WR, v.toNat)
  | .numFreqWrite v => some (Reg.CLK_NUM_FREQ, v.toNat)
  | .timeStepArm => some (Reg.TIM_ADJ_CTL, 1)
  | .timeLoadArm => some (Reg.TIM_ADJ_CTL, 2)
  | .compareArm k v => some (Reg.TIM_CMP_CTL k, v.toNat)
  | .injectArm v => some (Reg.MEM_INJ_CTL, v.toNat)
  | .monRetest u v => some (Reg.MON_CTL u, v.toNat)
  | .overrideUnlock v => some (Reg.CFG_OVR, v.toNat)
  | .snapshotNow v => some (Reg.PMC_SNAP_CTL, v.toNat)
  | .preset v => some (Reg.PMC_PRESET_IDX, v.toNat)
  | .msixUnmask (.vector v) => some (Reg.MSIX_CTL v, 0)
  | _ => none

/-- The state in which an operation of CFG_CMD runs: GO was 1 before, or the write of CFG_CMD has set it (R427). -/
def State.started (s : State) (op slot : Nat) : State := s.cleared.startBit Reg.CFG_CMD.GO (cmdWord op slot)

/-- The bytes of a slot that an ERASE erases: whole blocks before a failure (R406). -/
def wipedBytes : Pg → Nat
  | .ok => 0xC00000
  | .fail n => min 0xC00000 (n / 65536 * 65536)
  | .timeout n => min 0xC00000 (n / 65536 * 65536)

/-- A marker job at a tick: one whose retry is due runs again (R409). -/
def markerAgain (now : Nat) (j : MarkerJob) : MarkerJob := if !j.running && decide (j.nextTry ≤ now) then { j with running := true } else j

/-- A repair-log job at a tick: one whose retry is due runs again (R378). -/
def mapAgain (now : Nat) (j : MapJob) : MapJob :=
  match j.waitUntil with | some t => if t ≤ now then { j with waitUntil := none } else j | none => j

/-- The commands whose meaning may program or erase the NVM. -/
def usesNvm : Instr → Bool
  | .selection _ | .repairsSweepTraining _ _ _ _ | .calibrationEpochMoraine _ _ _ _ _ _ _ | .epochRetry _ _ _ _ | .setWrite _ _ _ _
  | .erase _ _ | .write _ _ _ | .verify _ _ _ | .install _ _ | .markBad _ _ | .raiseMin _ _ _ | .moraineWrite _ _ _
  | .repairMapWrite _ | .markerProgrammed _ => true
  | _ => false

/-- The boot state without the two fields that phase 8 may touch. -/
def Boot.kept (b : Boot) : Boot := { b with healthDegraded := false, poolAlarms := [] }

/-- The state without what counting, raising events and phase 8 may touch: the registers, the counters, Moraine's queue,
messages and outputs, alarms, the status page. -/
def State.rest (s : State) : State :=
  { s with regs := [], ctrs := [], wrapQ := [], mor := {}, newEv := 0, msixSent := 0, out := [], page := [], alarmQ := [], poolQ := [],
           boot := s.boot.kept }

/-- `t` is `s` but for the registers of a list and for what counting, raising events and phase 8 may touch. -/
def State.sameBut (s t : State) (offs : List Nat) : Prop := t.rest = s.rest ∧ s.sameRegs t offs

end Sys2Proof.Machine
end

