-- ==== Sys2Proof/Certificates/Slice0/Obligations.lean ====
section
/-! DEFINITION. The statements for the provers. -/

open Sys2Proof Sys2Proof.Machine

/-! ### The queue, RESET_N, the NVM -/

/-- A step takes the command at the front of the queue and runs it on the state with the queue's rest; with no command
waiting it idles, which is the model's choice (log 1). -/
def Obligations.StepRunsFront : Prop :=
  (∀ (s : State) (c : Instr) (cs : List Instr), s.pending = c :: cs → step s = exec c { s with pending := cs }) ∧
  (∀ s : State, s.pending = [] → step s = .next s)

/-- No command touches the queue of waiting commands, and every command answers a next state. -/
def Obligations.QueueUntouched : Prop :=
  ∀ (c : Instr) (s : State), Completes c s fun t => t.pending = s.pending

/-- While RESET_N is asserted, every command but its release leaves the whole device as the reset made it; once a thermal shutdown
has taken effect, the datapath's commands and the tick steps that it stops change nothing (R32, R395, R508). -/
def Obligations.HeldIgnores : Prop :=
  (∀ (c : Instr) (s : State), s.held = true → (∀ a b, c ≠ .resetNRelease a b) → exec c s = .next s.cleared) ∧
  (∀ (c : Instr) (s : State), s.live → s.down = true → stopsWhenDown c = true → Completes c s fun t => s.sameBut t faultRegs)

/-- Every step keeps the NVM in its canonical form and within address 0x03FF_FFFF (R405). -/
def Obligations.NvmInvariant : Prop :=
  ∀ s t : State, s.nvmOk → step s = .next t → t.nvmOk

/-- The NVM after reset has that form. That it is erased is the model's choice (log 13). -/
def Obligations.NvmResetOk : Prop := State.reset.nvmOk

/-- Every command outside those that program or erase the NVM leaves every byte of it as it was. -/
def Obligations.NvmFrame : Prop :=
  ∀ (c : Instr) (s : State), usesNvm c = false → Completes c s fun t => ∀ a, t.nvm.get nvmErased a = s.nvm.get nvmErased a

/-! ### Reset and reboot (R425, R459, R508, R509) -/

/-- RESET_N held low for 1 µs, and a supply out of range for more than 1 µs, reset the whole device: every register
holds its Reset value, FLT_RESET_CAUSE reads 0, the pins are driven as R508 says, NVM and fuses stay. A shorter
RESET_N pulse is a rejected glitch: counted, and nothing else; a shorter supply dip does nothing. The cause 0 is the
model's reading (log 100). -/
def Obligations.ResetAsserts : Prop :=
  ∀ (s : State) (ns : Nat), s.live →
    (1000 ≤ ns → Completes (.resetNAssert ns) s fun t => t.held = true ∧ (∀ off, t.reg off = regReset off) ∧ t.tick = 0 ∧
      t.pins.nvmCsHigh = true ∧ t.pins.hostLanesIdle = true ∧ t.pins.dacZeroA = true ∧ t.pins.dacZeroB = true ∧
      t.nvm = s.nvm ∧ t.fuses = s.fuses) ∧
    (ns < 1000 → (s.ctr 192).v + 1 < 2 ^ 64 → Completes (.resetNAssert ns) s fun t =>
      (t.ctr 192).v = (s.ctr 192).v + 1 ∧ s.sameBut t wrapRegs) ∧
    (1000 < ns → Completes (.supplyDetectorTrip ns) s fun t => t.held = true ∧ (∀ off, t.reg off = regReset off) ∧ t.tick = 0 ∧
      t.nvm = s.nvm ∧ t.fuses = s.fuses) ∧
    (ns ≤ 1000 → Completes (.supplyDetectorTrip ns) s fun t => s.sameBut t wrapRegs)

/-- RESET_N's release starts boot from the Reset values with the SMBus address pins sampled; where RESET_N is not
asserted it does nothing (R417, R495). What this leaves is State.reset with the pins as sampled, the model's choice
of log 15. -/
def Obligations.ReleaseStartsBoot : Prop :=
  ∀ (s : State) (a1 a0 : Bool),
    (s.held = true → Completes (.resetNRelease a1 a0) s fun t => t.live ∧ t.stalled = false ∧ (∀ off, t.reg off = regReset off) ∧
      t.tick = 0 ∧ t.pins.smbAddr = 0x5A + 2 * b2n a1 + b2n a0 ∧ t.nvm = s.nvm ∧ t.fuses = s.fuses) ∧
    (s.held = false → exec (.resetNRelease a1 a0) s = .next s.cleared)

/-- The three reboots leave every register but FLT_RESET_CAUSE at its Reset value, the NVM as it was, and name their
cause: REBOOT 1, a rollback whose BAD mark is written or 1,000,000 ticks old 2, the watchdog with WDOG_REBOOT 3
(R424, R425, R447). -/
def Obligations.Reboots : Prop :=
  ∀ s : State, s.live →
    ((s.started 9 0).cmdIs 9 = true → Completes .reboot s fun t => t.fld Reg.FLT_RESET_CAUSE.CAUSE = 1 ∧
      (∀ off, off ≠ Reg.FLT_RESET_CAUSE → t.reg off = regReset off) ∧ t.nvm = s.nvm) ∧
    (∀ ms, s.wdogDone = true → s.bit Reg.FLT_CTL.WDOG_REBOOT = true → (10 ≤ ms ∨ s.mor.queue.all (fun r => r.kind != 0x10) = true) →
      Completes (.watchdogReboot ms) s fun t => t.fld Reg.FLT_RESET_CAUSE.CAUSE = 3 ∧
        (∀ off, off ≠ Reg.FLT_RESET_CAUSE → t.reg off = regReset off) ∧ t.nvm = s.nvm) ∧
    (∀ ms, s.wdogDone = false ∨ s.bit Reg.FLT_CTL.WDOG_REBOOT = false → Completes (.watchdogReboot ms) s fun t => s.sameBut t wrapRegs) ∧
    (∀ t0, s.boot.rollbackFrom = some t0 → t0 < s.tick →
      (t0 + 1000000 ≤ s.tick ∨ (s.boot.markers.all (fun j => j.kind != 2 || j.slot != s.fld Reg.CFG_STATUS.RUN_SLOT) = true ∧
        s.mor.queue.all (fun r => r.kind != 3) = true)) →
      Completes .rollbackReboot s fun t => t.fld Reg.FLT_RESET_CAUSE.CAUSE = 2 ∧
        (∀ off, off ≠ Reg.FLT_RESET_CAUSE → t.reg off = regReset off) ∧ t.nvm = s.nvm) ∧
    (s.boot.rollbackFrom = none → Completes .rollbackReboot s fun t => s.sameBut t wrapRegs)

/-! ### Boot (R405, R409, R417-R422, R527) -/

/-- Steps 1 to 4 of boot complete: BOOT_STEP shows each. Step 1 loads the fuses and slot 63; step 3 without an eligible
slot enters safe mode; step 4 applies the candidate, or marks it bad and sends step 3 round again. Which slots stay
out of a boot is read as log 87 says, and that a failed SFDP read ends step 2 without an eligible slot as log 148 says. -/
def Obligations.BootFirstSteps : Prop :=
  ∀ s : State, s.ticking →
    (∀ f, s.bootStep = 0 → Completes (.fuses f) s fun t => t.bootStep = 1 ∧ t.fuses = f ∧ t.key 63 = f.key63 ∧ t.keyUsage 63 = 4 ∧
      t.bit (Reg.CPH_KEY_STATE.LOCKED 63) = true ∧ t.cph.kat = true) ∧
    (∀ x h0 h1 slots e, s.bootStep = 1 → Completes (.nvmDiscovery x h0 h1 slots e) s fun t => t.bootStep = 2 ∧
      (Rd.code x.read = 0 → t.fld Reg.CFG_STATUS.NVM_WIDTH = if x.octal then 3 else if x.quad then 2 else 1) ∧
      (Rd.code x.read ≠ 0 → t.fld Reg.CFG_STATUS.NVM_WIDTH = 0 ∧ t.boot.dead = s.boot.dead ++ [0, 1, 2, 3])) ∧
    (∀ ps, s.bootStep = 2 → Completes (.selection ps) s fun t => t.bootStep = 3 ∧ t.boot.reselect = false ∧
      (t.boot.cand = none → t.bit Reg.CFG_STATUS.SAFE = true)) ∧
    (∀ rs, s.bootStep = 3 → s.boot.reselect = false → s.boot.cand = none → Completes (.application rs) s fun t =>
      t.bootStep = 4 ∧ t.bit Reg.GLB_HOST_STATUS.READY = true) ∧
    (∀ rs k u, s.bootStep = 3 → s.boot.reselect = false → s.boot.cand = some k → s.cph.running = none →
      u = (if rs.any (· == .timeout) then s.cleared.raise Reg.CFG_EVENT.NVM_TIMEOUT else s.cleared) →
      (∀ v, u.passes k 4 rs 0 0 = .inr v → Completes (.application rs) s fun t => t.bootStep = 4 ∧
        t.bit Reg.GLB_HOST_STATUS.READY = true ∧ t.fld Reg.CFG_IMAGE_VER.VER = imgVer (s.slotHeader k) ∧
        t.fld Reg.CFG_STATUS.RUN_SLOT = k % 4) ∧
      (∀ cause, u.passes k 4 rs 0 0 = .inl cause → Completes (.application rs) s fun t => t.bootStep = 3 ∧
        t.boot.reselect = true ∧ t.boot.cand = none ∧ t.boot.dead = s.boot.dead ++ [k] ∧ t.bit Reg.CFG_EVENT.IMAGE_BAD = true))

/-- Steps 5 to 7 complete; step 7 only in a tick in which the cooling gate does not hold, noting the boot time, and
outside safe mode the device is then traffic-ready with its health window running (R417, R423, R527). The place of
the BOOT record is read as log 88 says. -/
def Obligations.BootLastSteps : Prop :=
  ∀ s : State, s.ticking →
    (∀ r e p ts, s.bootStep = 4 → Completes (.repairsSweepTraining r e p ts) s fun t => t.bootStep = 5) ∧
    (∀ c a b e ts p m, s.bootStep = 5 → (s.safe = false → ∀ q ∈ [(0, a), (1, b)], s.calibrates q.1 = true → s.fgReady q.1 q.2 = true) →
      Completes (.calibrationEpochMoraine c a b e ts p m) s fun t => t.bootStep = 6) ∧
    (s.bootStep = 6 → s.bit Reg.THM_STATUS.GATE = false → s.down = false → Completes .lineBringUp s fun t => t.bootStep = 7 ∧
      t.reg Reg.CFG_BOOT_TIME = BitVec.ofNat 32 s.tick ∧
      (s.safe = false → t.boot.ready = true ∧ t.bit Reg.CFG_STATUS.HEALTH_RUN = true)) ∧
    (s.bootStep = 6 → s.bit Reg.THM_STATUS.GATE = true ∨ s.down = true → Completes .lineBringUp s fun t => s.sameBut t faultRegs)

/-- A boot step that is not the next one does nothing, step 4 waits for the request that the cipher unit runs (R159), step 6 for the
measurements of a tile that it calibrates, and no step of boot runs in a tick that does not run (R417, R527). -/
def Obligations.BootInOrder : Prop :=
  ∀ s : State,
    (s.ticking →
      (∀ f, s.bootStep ≠ 0 → Completes (.fuses f) s fun t => s.sameBut t faultRegs) ∧
      (∀ x h0 h1 slots e, s.bootStep ≠ 1 → Completes (.nvmDiscovery x h0 h1 slots e) s fun t => s.sameBut t faultRegs) ∧
      (∀ ps, s.bootStep ≠ 2 → s.boot.reselect = false ∨ s.bootStep ≠ 3 → Completes (.selection ps) s fun t => s.sameBut t faultRegs) ∧
      (∀ rs, s.bootStep ≠ 3 ∨ s.boot.reselect = true ∨ (s.boot.cand ≠ none ∧ s.cph.running ≠ none) →
        Completes (.application rs) s fun t => s.sameBut t faultRegs) ∧
      (∀ r e p ts, s.bootStep ≠ 4 → Completes (.repairsSweepTraining r e p ts) s fun t => s.sameBut t faultRegs) ∧
      (∀ c a b e ts p m, s.bootStep ≠ 5 ∨ (s.safe = false ∧ ∃ q ∈ [(0, a), (1, b)], s.calibrates q.1 = true ∧ s.fgReady q.1 q.2 = false) →
        Completes (.calibrationEpochMoraine c a b e ts p m) s fun t => s.sameBut t faultRegs) ∧
      (s.bootStep ≠ 6 → Completes .lineBringUp s fun t => s.sameBut t faultRegs)) ∧
    (s.live → s.stalled = true →
      (∀ f, Completes (.fuses f) s fun t => s.sameBut t wrapRegs) ∧
      (∀ ps, Completes (.selection ps) s fun t => s.sameBut t wrapRegs) ∧
      (∀ rs, Completes (.application rs) s fun t => s.sameBut t wrapRegs) ∧
      Completes .lineBringUp s fun t => s.sameBut t wrapRegs)

/-! ### The fault manager (R40, R446-R448, R454-R458) -/

/-- A lockstep mismatch is counted and raised, a second in one tick sets SEQ_HARD and starts the watchdog's steps; the
watchdog's expiry, 64 µs or more after the last phase 8, asserts FAULT_N and SERVICE_N, raises WDOG and stops the
sequencer; a failed XO_IN is shown and raised, and stops the ticks when no input is qualified; an elastic store's
fault is kept for the fault manager. Where an elastic store's fault is kept is the model's choice (log 68). -/
def Obligations.SequencerFaults : Prop :=
  ∀ s : State, s.live →
    (s.stalled = false → Completes .lockstepMismatch s fun t =>
      t.fld Reg.FLT_SEQ_CNT.CNT = satAdd 0xFFFF (s.fld Reg.FLT_SEQ_CNT.CNT) 1 ∧ t.bit Reg.FLT_EVENT.SEQ_FAULT = true ∧
      (s.lockTick ≠ some s.tick → t.lockTick = some s.tick ∧ t.stalled = false) ∧
      (s.lockTick = some s.tick → t.bit Reg.FLT_STATUS.SEQ_HARD = true ∧ t.stalled = true ∧ t.wdogDone = true ∧
        t.bit Reg.FLT_STATUS.FAULT = true ∧ t.bit Reg.FLT_STATUS.SERVICE = true ∧ t.bit Reg.FLT_EVENT.WDOG = true)) ∧
    (s.stalled = true → Completes .lockstepMismatch s fun t => s.sameBut t wrapRegs) ∧
    (∀ us, 64 ≤ us → s.wdogDone = false → Completes (.wdog us) s fun t =>
      ({ s with stalled := true, wdogDone := true } : State).sameBut t (Reg.FLT_STATUS :: wrapRegs) ∧
      t.bit Reg.FLT_STATUS.FAULT = true ∧ t.bit Reg.FLT_STATUS.SERVICE = true ∧ t.bit Reg.FLT_EVENT.WDOG = true) ∧
    (∀ us, us < 64 ∨ s.wdogDone = true → Completes (.wdog us) s fun t => s.sameBut t wrapRegs) ∧
    (∀ edge off vs, s.bit Reg.FLT_STATUS.XO_FAIL = false →
      10 ≤ edge ∨ (100 ≤ off ∧ (if vs then s.fld Reg.CLK_STATUS.STATE == 1 else s.pcie.refclk && !s.pcie.ssc) = true) →
      Completes (.xoFail edge off vs) s fun t =>
        ({ s with stalled := s.stalled || !s.anyQualified } : State).sameBut t (Reg.FLT_STATUS :: wrapRegs) ∧
        t.bit Reg.FLT_STATUS.XO_FAIL = true ∧ t.bit Reg.FLT_EVENT.XO_FAIL = true) ∧
    (∀ edge off vs, s.bit Reg.FLT_STATUS.XO_FAIL = true ∨
      (edge < 10 ∧ (off < 100 ∨ (if vs then s.fld Reg.CLK_STATUS.STATE == 1 else s.pcie.refclk && !s.pcie.ssc) = false)) →
      Completes (.xoFail edge off vs) s fun t => s.sameBut t wrapRegs) ∧
    (∀ x, Completes (.elasticStoreFault x) s fun t => ({ s with esFaults := s.esFaults ++ [(x, s.tick)] } : State).sameBut t wrapRegs)

/-- One attempt to write the next record of Moraine's queue goes to index IDX with the next SEQ, and IDX moves on; a good one
leaves the record's 64 bytes there and its SEQ in FLT_MOR_SEQ, a bad one raises MOR_FAIL.  Nothing is written while Moraine
is not open or holds no record it may write (R455-R457). -/
def Obligations.MoraineWrites : Prop :=
  ∀ (s : State) (p : Pg) (back : Bool) (e : Pg), s.live →
    (∀ qi r, s.morOpen = true → s.morNext = some qi → s.mor.queue[qi]? = some r →
      let i := s.fld Reg.FLT_MOR_IDX.IDX
      let seq := if s.mor.any then (s.fld Reg.FLT_MOR_SEQ.SEQ + 1) % 2 ^ 32 else 0
      let w := s.nvmWrite (morBase + 64 * i) (morBytes seq r) p
      let good := w.2 && back && w.1.nvmBytes (morBase + 64 * i) 64 == morBytes seq r
      Completes (.moraineWrite p back e) s fun t => t.fld Reg.FLT_MOR_IDX.IDX = (i + 1) % 65536 ∧
        (good = true → t.fld Reg.FLT_MOR_SEQ.SEQ = seq ∧ t.nvmBytes (morBase + 64 * i) 64 = morBytes seq r) ∧
        (good = false → t.reg Reg.FLT_MOR_SEQ = s.reg Reg.FLT_MOR_SEQ ∧ t.bit Reg.FLT_EVENT.MOR_FAIL = true)) ∧
    (s.morOpen = false ∨ s.morNext = none → Completes (.moraineWrite p back e) s fun t => s.sameBut t wrapRegs)

/-- A retry of the boot read of Moraine that ends well sets MOR_OK and takes up index and SEQ of the newest valid record; one that
fails raises MOR_FAIL and is due again in 1,000,000 ticks; before its time nothing happens.  MORAINE_READ copies records to
staging memory, clears GO, and raises MOR_RD_DONE, or MOR_FAIL when a read fails (R454, R458). -/
def Obligations.MoraineReads : Prop :=
  ∀ s : State, s.live →
    (∀ r t0, s.mor.retryAt = some t0 → t0 ≤ s.tick → Rd.code r = 0 → Completes (.moraineReadRetry r) s fun t =>
      t.bit Reg.FLT_STATUS.MOR_OK = true ∧
      (∀ n, morNewest s.morReadSet = some n → t.fld Reg.FLT_MOR_IDX.IDX = (n.1 + 1) % 65536 ∧ t.fld Reg.FLT_MOR_SEQ.SEQ = n.2.1 % 2 ^ 32 ∧
        ((s.morGoverning n.1).map (·.1) = some 3 → t.bit Reg.CFG_STATUS.ROLLED_BACK = true))) ∧
    (∀ r t0, s.mor.retryAt = some t0 → t0 ≤ s.tick → Rd.code r ≠ 0 → Completes (.moraineReadRetry r) s fun t =>
      t.bit Reg.FLT_EVENT.MOR_FAIL = true ∧ t.mor.retryAt = some (s.tick + 1000000) ∧ t.reg Reg.FLT_STATUS = s.reg Reg.FLT_STATUS) ∧
    (∀ r, (∀ t0, s.mor.retryAt = some t0 → s.tick < t0) → Completes (.moraineReadRetry r) s fun t => s.sameBut t wrapRegs) ∧
    (∀ v rs u, u = s.cleared.startBit Reg.FLT_MOR_RD_CTL.GO v.toNat → u.bit Reg.FLT_MOR_RD_CTL.GO = true →
      let n := u.fld Reg.FLT_MOR_RD_CNT.CNT
      let c := State.morCopy (u.fld Reg.FLT_MOR_RD_DST.OFFSET) (u.fld Reg.FLT_MOR_RD_IDX.IDX) 0 (rs.take n ++ List.replicate (n - rs.length) .ok) u
      Completes (.moraineRead v rs) s fun t => t.bit Reg.FLT_MOR_RD_CTL.GO = false ∧ t.mem.data = c.1.mem.data ∧
        (c.2 = none → t.bit Reg.FLT_EVENT.MOR_RD_DONE = true) ∧ (c.2 ≠ none → t.bit Reg.FLT_EVENT.MOR_FAIL = true))

/-! ### The configuration manager (R408, R409, R423, R424, R427-R430) -/

/-- An ERASE on a free slot erases it, or the blocks before a failure; a WRITE, VERIFY, INSTALL or MARK_BAD where the
state forbids it ends with the code of R427 and changes no NVM; a good one programs what R427 says. Every one clears
GO, but for a VERIFY whose authentication still waits for the request engine (R159). The order of an erase and the code of INSTALL on a slot that is not staged are the model's readings (logs 83 and
84). -/
def Obligations.SlotCommands : Prop :=
  ∀ (s u : State) (slot : Fin 4) (k : Nat), s.live → k = u.fld Reg.CFG_CMD.SLOT →
    (∀ p, u = s.started 1 slot → u.cmdIs 1 = true → Completes (.erase slot p) s fun t => t.bit Reg.CFG_CMD.GO = false ∧
      (u.slotFree k = true → t.fld Reg.CFG_CMD_RESULT.CODE = Pg.code p ∧
        t.nvm = nvmErase s.nvm (slotBase k) (wipedBytes p)) ∧
      (u.slotFree k = false → t.fld Reg.CFG_CMD_RESULT.CODE = 2 ∧ t.bit Reg.CFG_EVENT.CMD_ERR = true ∧ t.nvm = s.nvm)) ∧
    (∀ p back, u = s.started 2 slot → u.cmdIs 2 = true → Completes (.write slot p back) s fun t => t.bit Reg.CFG_CMD.GO = false ∧
      (u.slotFree k = false → t.fld Reg.CFG_CMD_RESULT.CODE = 2 ∧ t.nvm = s.nvm) ∧
      (u.slotFree k = true → stBytes < u.fld Reg.CFG_CMD_SRC.OFFSET + u.fld Reg.CFG_CMD_LEN.LEN ∨
          imageRegion < u.fld Reg.CFG_CMD_DST.OFFSET + u.fld Reg.CFG_CMD_LEN.LEN →
        t.fld Reg.CFG_CMD_RESULT.CODE = 12 ∧ t.nvm = s.nvm) ∧
      (u.slotFree k = true → u.fld Reg.CFG_CMD_SRC.OFFSET + u.fld Reg.CFG_CMD_LEN.LEN ≤ stBytes →
          u.fld Reg.CFG_CMD_DST.OFFSET + u.fld Reg.CFG_CMD_LEN.LEN ≤ imageRegion →
        let w := u.writePages (u.fld Reg.CFG_CMD_LEN.LEN / 16 + 1) (u.fld Reg.CFG_CMD_SRC.OFFSET) (imageBase k + u.fld Reg.CFG_CMD_DST.OFFSET)
          (u.fld Reg.CFG_CMD_LEN.LEN) (Pg.budget p)
        t.nvm = w.1.nvm ∧ (w.2 = 11 → t.fld Reg.CFG_CMD_RESULT.CODE = 11) ∧ (w.2 = 3 → t.fld Reg.CFG_CMD_RESULT.CODE = Pg.code p % 16) ∧
        (w.2 = 0 → Rd.code back = 0 → t.fld Reg.CFG_CMD_RESULT.CODE = 0 ∨ t.fld Reg.CFG_CMD_RESULT.CODE = 3))) ∧
    (∀ r p, u = s.started 3 slot → u.cmdIs 3 = true →
      (u.slotFree k = true → u.cph.running.isSome = true → Completes (.verify slot r p) s fun t => u.sameBut t wrapRegs) ∧
      (u.slotFree k = false ∨ u.cph.running = none → Completes (.verify slot r p) s fun t => t.bit Reg.CFG_CMD.GO = false ∧
        (u.slotFree k = false → t.fld Reg.CFG_CMD_RESULT.CODE = 2 ∧ t.nvm = s.nvm) ∧
        (u.slotFree k = true → (u.judgeSlot k r).1 ≠ 0 → t.fld Reg.CFG_CMD_RESULT.CODE = (u.judgeSlot k r).1 % 16 ∧ t.nvm = s.nvm) ∧
        (u.slotFree k = true → (u.judgeSlot k r).1 = 0 → p = .ok → t.fld Reg.CFG_CMD_RESULT.CODE = 0 ∧
          t.nvm = nvmProgram s.nvm (markAddr k 0) (List.replicate 4 0#8) ∧ t.bit Reg.CFG_EVENT.CMD_DONE = true))) ∧
    (∀ p, u = s.started 6 slot → u.cmdIs 6 = true → Completes (.install slot p) s fun t => t.bit Reg.CFG_CMD.GO = false ∧
      (u.bit Reg.CFG_STATUS.SAFE = false → t.fld Reg.CFG_CMD_RESULT.CODE = 10 ∧ t.nvm = s.nvm) ∧
      (u.bit Reg.CFG_STATUS.SAFE = true → (u.slotSt k).staged = false → t.fld Reg.CFG_CMD_RESULT.CODE = 2 ∧ t.nvm = s.nvm) ∧
      (u.bit Reg.CFG_STATUS.SAFE = true → (u.slotSt k).staged = true → p = .ok → t.fld Reg.CFG_CMD_RESULT.CODE = 0 ∧
        t.nvm = nvmProgram s.nvm (markAddr k 4) (List.replicate 4 0#8))) ∧
    (∀ p, u = s.started 7 slot → u.cmdIs 7 = true → Completes (.markBad slot p) s fun t => t.bit Reg.CFG_CMD.GO = false ∧
      (u.isRunning k = true ∨ u.inCommit k = true → t.fld Reg.CFG_CMD_RESULT.CODE = 2 ∧ t.nvm = s.nvm) ∧
      (u.isRunning k = false → u.inCommit k = false → p = .ok → t.fld Reg.CFG_CMD_RESULT.CODE = 0 ∧
        t.nvm = nvmProgram s.nvm (markAddr k 12) (List.replicate 4 0#8 ++ leBytes 4 0xFFFFFFF6)))

/-- COMMIT is accepted with code 0 and captures slot, version and activation tick, or ends with the first code of R428 that
applies; CANCEL abandons a pending commit of which nothing has taken effect; RAISE_MIN programs the other boot header and
raises MIN_VER only when the running image is proven and its read-back matches (R408, R427, R428, R430). -/
def Obligations.CommitCommands : Prop :=
  ∀ (s u : State) (slot : Fin 4) (k : Nat), s.live → k = u.fld Reg.CFG_CMD.SLOT →
    (u = s.started 4 slot → u.cmdIs 4 = true → Completes (.commit slot) s fun t => t.bit Reg.CFG_CMD.GO = false ∧
      let barred := u.bit Reg.CFG_STATUS.SAFE || u.commit.isSome || u.bit Reg.CFG_STATUS.HEALTH_RUN
      (barred = true → t.fld Reg.CFG_CMD_RESULT.CODE = 10 ∧ t.commit = u.commit) ∧
      (barred = false → ((u.slotSt k).staged && !(u.slotSt k).bad) = false → t.fld Reg.CFG_CMD_RESULT.CODE = 9 ∧ t.commit = none) ∧
      (barred = false → (u.slotSt k).staged = true → (u.slotSt k).bad = false → imgVer (u.slotHeader k) ≤ u.runVer →
        t.fld Reg.CFG_CMD_RESULT.CODE = 8 ∧ t.commit = none) ∧
      (barred = false → (u.slotSt k).staged = true → (u.slotSt k).bad = false → u.runVer < imgVer (u.slotHeader k) →
        u.tick < u.reg64 Reg.CFG_ACT_TICK_LO Reg.CFG_ACT_TICK_HI → t.fld Reg.CFG_CMD_RESULT.CODE = 0 ∧ t.fld Reg.CFG_STATUS.COMMIT = 1 ∧
          ∃ c, t.commit = some c ∧ c.slot = k ∧ c.ver = imgVer (u.slotHeader k) ∧
            c.actTick = u.reg64 Reg.CFG_ACT_TICK_LO Reg.CFG_ACT_TICK_HI ∧ c.prepared = false)) ∧
    (u = s.started 5 0 → u.cmdIs 5 = true → Completes .cancel s fun t => t.bit Reg.CFG_CMD.GO = false ∧
      (u.commit = none → t.fld Reg.CFG_CMD_RESULT.CODE = 10) ∧
      (∀ c, u.commit = some c → c.begun = true → t.fld Reg.CFG_CMD_RESULT.CODE = 10 ∧ t.commit = some c) ∧
      (∀ c, u.commit = some c → c.begun = false → t.fld Reg.CFG_CMD_RESULT.CODE = 0 ∧ t.commit = none ∧
        t.fld Reg.CFG_STATUS.COMMIT = 0 ∧ t.bit Reg.CFG_EVENT.COMMIT_ABANDON = true)) ∧
    (∀ e p back, u = s.started 8 0 → u.cmdIs 8 = true → Completes (.raiseMin e p back) s fun t => t.bit Reg.CFG_CMD.GO = false ∧
      let ok := u.hasImage && (u.slotSt (u.fld Reg.CFG_STATUS.RUN_SLOT)).proven
      let tgt := match u.boot.hdr with | some (c, q) => (1 - c, (q + 1) % 2 ^ 32) | none => (0, 1)
      let bs := bootHeader tgt.2 u.runVer
      let m := nvmProgram (nvmErase s.nvm (0x80000 * tgt.1) 4096) (0x80000 * tgt.1) bs
      (ok = false → t.fld Reg.CFG_CMD_RESULT.CODE = 10 ∧ t.nvm = s.nvm) ∧
      (ok = true → e = .ok → p = .ok → back = .ok → t.nvm = m ∧
        (({ u with nvm := m } : State).nvmBytes (0x80000 * tgt.1) 64 = bs → t.fld Reg.CFG_CMD_RESULT.CODE = 0 ∧
          t.fld Reg.CFG_MIN_VER.MIN_VER = u.runVer ∧ t.boot.hdr = some tgt)))

/-- A pending commit waits for the request engine to authenticate its image (R159); one whose image fails its read is abandoned; one that passes every check of R429 is prepared; its
activation ends the override's unlock; when every part has taken effect the image is the running one and its health
window starts. What is checked is read as logs 89 and 90 say. -/
def Obligations.CommitSteps : Prop :=
  ∀ (s : State) (c : Commit), s.commit = some c →
    (∀ r, s.live → c.prepared = true ∨ s.cph.running.isSome = true → Completes (.commitPrepared r) s fun t => s.sameBut t wrapRegs) ∧
    (∀ r u, s.live → c.prepared = false → s.cph.running = none → u = s.cleared.rdTimeout r →
      ((s.judgeSlot c.slot r).1 ≠ 0 → Completes (.commitPrepared r) s fun t => t.commit = none ∧ t.fld Reg.CFG_STATUS.COMMIT = 0 ∧
        t.bit Reg.CFG_EVENT.COMMIT_ABANDON = true) ∧
      (∀ d v, s.judgeSlot c.slot r = (0, d, v) → let q := u.putImage c v
        (q.2.1 = true → q.1.passes = true → q.2.2.commitOk v = true →
          Completes (.commitPrepared r) s fun t => t.fld Reg.CFG_STATUS.COMMIT = 2 ∧ t.commit = some { q.1 with prepared := true }) ∧
        ((q.2.1 && q.1.passes && q.2.2.commitOk v) = false →
          Completes (.commitPrepared r) s fun t => t.commit = none ∧ t.fld Reg.CFG_STATUS.COMMIT = 0))) ∧
    (s.ticking → c.prepared = true → c.doneTick = false → c.actTick ≤ s.tick → s.down = false → Completes .commitActivation s fun t =>
      t.bit Reg.CFG_OVR.UNLOCK = false ∧ t.bit Reg.CFG_STATUS.OVR_UNLOCKED = false) ∧
    (s.ticking → c.prepared = false ∨ c.doneTick = true ∨ s.tick < c.actTick ∨ s.down = true → Completes .commitActivation s fun t =>
      s.sameBut t faultRegs) ∧
    (s.ticking → (c.doneTick && c.txIn 0 && c.txIn 1 && c.rxIn 0 && c.rxIn 1) = true → s.down = false → Completes .commitDone s fun t =>
      t.commit = none ∧ t.fld Reg.CFG_STATUS.COMMIT = 0 ∧ t.fld Reg.CFG_IMAGE_VER.VER = c.ver % 2 ^ 32 ∧
      t.fld Reg.CFG_STATUS.RUN_SLOT = c.slot % 4 ∧ t.bit Reg.CFG_EVENT.COMMIT_DONE = true ∧ t.bit Reg.CFG_STATUS.HEALTH_RUN = true)

/-- The health window that has ended is evaluated: with no failed condition HEALTH_PASS, else HEALTH_FAIL and the failed
conditions, and for an image that is not proven the mark BAD and a rollback; a window that has not ended is left alone.
A marker's program that ends well is in the NVM and done with, a failed one raises MARKER_FAIL and waits for its retry
(R409, R423, R424). -/
def Obligations.HealthAndMarkers : Prop :=
  ∀ s : State,
    (∀ t0, s.ticking → s.boot.healthEnd = some t0 → t0 ≤ s.tick → s.bit Reg.THM_STATUS.SHUTDOWN = false →
      let tested := !(s.boot.healthS == 0 || s.boot.health.isEmpty)
      let fails := if tested then s.condFails else 0
      Completes .healthEvaluation s fun t => t.bit Reg.CFG_STATUS.HEALTH_RUN = false ∧ t.boot.healthEnd = none ∧
        (fails = 0 → t.bit Reg.CFG_EVENT.HEALTH_PASS = true ∧ t.boot.rollbackFrom = s.boot.rollbackFrom) ∧
        (fails ≠ 0 → t.fld Reg.CFG_HEALTH_FAIL.FAILED = fails % 65536 ∧ t.bit Reg.CFG_EVENT.HEALTH_FAIL = true) ∧
        (fails ≠ 0 → (s.slotSt (s.fld Reg.CFG_STATUS.RUN_SLOT)).proven = false → t.boot.rollbackFrom = some s.tick ∧
          ⟨s.fld Reg.CFG_STATUS.RUN_SLOT, 2, 5, true, 0⟩ ∈ t.boot.markers)) ∧
    (s.ticking → (∀ t0, s.boot.healthEnd = some t0 → s.tick < t0) → Completes .healthEvaluation s fun t => s.sameBut t faultRegs) ∧
    (s.live → Completes .markerRetry s fun t =>
      ({ s with boot := { s.boot with markers := s.boot.markers.map (markerAgain s.tick) } } : State).sameBut t wrapRegs) ∧
    (∀ i j, s.live → s.boot.markers.findIdx? (·.running) = some i → s.boot.markers[i]? = some j →
      (Completes (.markerProgrammed .ok) s fun t => t.boot.markers = s.boot.markers.eraseIdx i ∧
        t.nvm = nvmProgram s.nvm (markAddr j.slot (markerBytes j.kind j.cause).1) (markerBytes j.kind j.cause).2) ∧
      (∀ n, Completes (.markerProgrammed (.fail n)) s fun t => t.bit Reg.CFG_EVENT.MARKER_FAIL = true ∧
        t.boot.markers = s.boot.markers.set i { j with running := false, nextTry := s.tick + 1000000 })) ∧
    (∀ p, s.live → s.boot.markers.findIdx? (·.running) = none → Completes (.markerProgrammed p) s fun t => s.sameBut t wrapRegs)

/-! ### BAR0 writes (R14, R16, R17, R431, R432, R491) -/

/-- Every command that is one 32-bit write leaves what a taken write of its register leaves; a write that a cause of R491
rejects changes no register but the log of rejections, counts itself by its cause and raises WR_REJ, with FLIP_REJECT where
it asks for a flip while one is armed; in D3hot there is no write. -/
def Obligations.WritesAreWhole : Prop :=
  ∀ (c : Instr) (s : State) (off v : Nat), writeOf c = some (off, v) → s.live →
    (s.takes off v → Completes c s fun t => (s.taken off v).sameBut t wrapRegs) ∧
    (s.pcie.d3hot = true → Completes c s fun t => s.sameBut t wrapRegs) ∧
    (s.pcie.d3hot = false → s.cleared.accessCause .w32 off v ≠ 0 → Completes c s fun t =>
      s.sameBut t (Reg.LCY_EVENT 0 :: Reg.LCY_EVENT 1 :: rejectRegs) ∧
      ((∀ l : Fin 2, s.bit (Reg.LCY_FLIP_CTL.ARM l) = false) → s.sameBut t rejectRegs) ∧
      (∀ l : Fin 2, s.bit (Reg.LCY_FLIP_CTL.ARM l) = true → off = Reg.LCY_FLIP_CTL l → v % 2 = 1 →
        s.cleared.accessCause .w32 off v = 4 → t.bit (Reg.LCY_EVENT.FLIP_REJECT l) = true) ∧
      t.bit Reg.GLB_HOST_EVENT.WR_REJ = true ∧ t.bit Reg.GLB_REJ_LOG_0.VALID = true ∧
      ((s.ctr (2240 + s.cleared.accessCause .w32 off v)).v + 1 < 2 ^ 64 →
        (t.ctr (2240 + s.cleared.accessCause .w32 off v)).v = (s.ctr (2240 + s.cleared.accessCause .w32 off v)).v + 1) ∧
      (s.bit Reg.GLB_REJ_LOG_0.VALID = false → t.fld Reg.GLB_REJ_LOG_0.OFFSET = off / 4 * 4 % 2 ^ 24 ∧
        t.fld Reg.GLB_REJ_LOG_0.CAUSE = s.cleared.accessCause .w32 off v ∧ t.reg Reg.GLB_REJ_LOG_1 = BitVec.ofNat 32 v))

/-- A write access of any form is all or nothing: rejected, it changes no register but the log of rejections and, where a
flip is armed, FLIP_REJECT; a 64-bit access
that is taken stores both words before either sets anything in motion (R487, R491). -/
def Obligations.AccessForms : Prop :=
  ∀ (s : State) (form : Form) (off : Nat) (v : BitVec 64), s.live → s.pcie.d3hot = false →
    (s.cleared.accessCause form off v.toNat ≠ 0 →
      let rejected (t : State) : Prop := s.sameBut t (Reg.LCY_EVENT 0 :: Reg.LCY_EVENT 1 :: rejectRegs) ∧
        ((∀ l : Fin 2, s.bit (Reg.LCY_FLIP_CTL.ARM l) = false) → s.sameBut t rejectRegs) ∧ t.bit Reg.GLB_HOST_EVENT.WR_REJ = true
      Completes (.registerWrite form off v) s rejected ∧ Completes (.override form off v) s rejected) ∧
    (form = .w64 → s.cleared.accessCause form off v.toNat = 0 →
      let u := ((((s.stored off v.toNat).store (off + 4) (half v.toNat 1)).effect off (s.reg off)).effect (off + 4) (s.reg (off + 4)))
      (Completes (.registerWrite form off v) s fun t => u.sameBut t wrapRegs) ∧ Completes (.override form off v) s fun t => u.sameBut t wrapRegs) ∧
    (form = .other → s.cleared.accessCause form off v.toNat ≠ 0)

/-- A taken write that sets nothing else in motion stores what R14 says, field by field; where it changes an RWO field it is
an override, counted, raised, and advancing CFG_EPOCH; such a write is rejected while the override is locked.  CFG_OVR with its key
unlocks, and without it is rejected (R14, R431, R432). -/
def Obligations.RegisterWrites : Prop :=
  ∀ (s : State) (off : Nat) (v : BitVec 64), s.live → (∀ (x : State) (old : Word), x.effect off old = x) → off ∉ wrapRegs →
    let new := writtenWord off (s.reg off) (half v.toNat 0)
    let ovr := (regFlds off).any fun f => f.acc == .rwo && getBits (s.reg off) f.hi f.lo != getBits new f.hi f.lo
    (s.takes off v.toNat → ovr = false → Completes (.registerWrite .w32 off v) s fun t => s.sameBut { t with shadowDue := s.shadowDue } (off :: wrapRegs) ∧
      t.reg off = new ∧ off ∈ t.shadowDue) ∧
    (s.takes off v.toNat → ovr = true → Completes (.override .w32 off v) s fun t => t.reg off = new ∧ off ∈ t.shadowDue ∧
      t.fld Reg.CFG_OVR_CNT.CNT = (s.fld Reg.CFG_OVR_CNT.CNT + 1) % 2 ^ 32 ∧ t.bit Reg.CFG_EVENT.OVERRIDE = true ∧
      t.fld Reg.CFG_EPOCH.EPOCH = (if s.fld Reg.CFG_EPOCH.EPOCH % 65536 = 65535 then s.fld Reg.CFG_EPOCH.EPOCH - 65535 else s.fld Reg.CFG_EPOCH.EPOCH + 1)) ∧
    (s.pcie.d3hot = false → s.bit Reg.CFG_OVR.UNLOCK = false → ovr = true → Completes (.override .w32 off v) s fun t =>
      t.reg off = s.reg off ∧ t.bit Reg.GLB_HOST_EVENT.WR_REJ = true) ∧
    (∀ w : Word, s.takes Reg.CFG_OVR w.toNat → Completes (.overrideUnlock w) s fun t =>
      t.bit Reg.CFG_OVR.UNLOCK = w.getLsbD 16 ∧ t.bit Reg.CFG_STATUS.OVR_UNLOCKED = w.getLsbD 16) ∧
    (∀ w : Word, s.pcie.d3hot = false → w.getLsbD 16 = true → getBits w 15 0 ≠ 0xA5C3 → Completes (.overrideUnlock w) s fun t =>
      t.bit Reg.CFG_OVR.UNLOCK = s.bit Reg.CFG_OVR.UNLOCK ∧ t.bit Reg.GLB_HOST_EVENT.WR_REJ = true)

/-! ### The framer (R109-R126) -/

/-- A sync match above the threshold and above its neighbours becomes a candidate, or raises HUNT_OVF when four are
held; a candidate whose check succeeds ends the hunt; in compatibility framing it needs COMPAT_N checks; a candidate
whose check fails, or finds the hunter not running, is discarded (R109, R110, R115). What is matched and checked is what the
signal path's step 7 gave, as far as it holds it (R251). The first check of compatibility framing is read as log 45 says. -/
def Obligations.Alignment : Prop :=
  ∀ (s : State) (l : Fin 2), s.clocked →
    (∀ pos rho side r, r = (s.dsp l).matchAt (s.ln l).compatRx pos (rho, side) →
      s.hunts l = true → s.sh (Reg.FRM_HUNT_CFG.SYNC_THR l) * 256 ≤ r.1 → r.2 < r.1 →
      ((s.frm l).cands.length < 4 → Completes (.syncMatch l pos rho side) s fun t =>
        (s.modFrm l fun x => { x with cands := x.cands ++ [(if (s.ln l).compatRx then pos else pos + 40960, 0)] }).sameBut t wrapRegs) ∧
      (4 ≤ (s.frm l).cands.length → Completes (.syncMatch l pos rho side) s fun t =>
        ({ s with evQ := s.evQ ++ [Reg.FRM_EVENT.HUNT_OVF l] } : State).sameBut t wrapRegs)) ∧
    (∀ pos rho side r, r = (s.dsp l).matchAt (s.ln l).compatRx pos (rho, side) →
      s.hunts l = false ∨ r.1 < s.sh (Reg.FRM_HUNT_CFG.SYNC_THR l) * 256 ∨ r.1 ≤ r.2 →
      Completes (.syncMatch l pos rho side) s fun t => s.sameBut t wrapRegs) ∧
    (∀ pos exch h c, s.rxOn l = true → (s.frm l).oof = true → (s.frm l).cands.find? (fun d => d.1 == pos) = some c →
      let swap := (s.dsp l).exchanged (s.ln l).compatRx pos exch
      let heard := s.hear l pos swap h
      let sync := s.syncAt l heard.rho heard.side
      let rest := (s.frm l).cands.filter fun d => d.1 != pos
      let out := s.modFrm l fun x => { x with cands := rest }
      ((s.rxp l).lock = false → Completes (.candidateCheck l pos exch h) s fun t => out.sameBut t wrapRegs) ∧
      ((s.rxp l).lock = true →
        ((s.ln l).compatRx = false → sync = true → Completes (.candidateCheck l pos exch h) s fun t => (t.frm l).oof = false ∧
          (t.frm l).cands = [] ∧ t.evQ = s.evQ ++ [Reg.FRM_EVENT.ALIGN_GAIN l] ∧ (t.rxp l).swapDue = ((s.rxp l).swapDue != swap)) ∧
        ((s.ln l).compatRx = false → sync = false → Completes (.candidateCheck l pos exch h) s fun t => out.sameBut t wrapRegs) ∧
        ((s.ln l).compatRx = true → headGood true sync heard = true → s.sh (Reg.FRM_HUNT_CFG.COMPAT_N l) ≤ c.2 + 1 →
          Completes (.candidateCheck l pos exch h) s fun t => (t.frm l).oof = false ∧ (t.frm l).cands = [] ∧
            t.evQ = s.evQ ++ [Reg.FRM_EVENT.ALIGN_GAIN l]) ∧
        ((s.ln l).compatRx = true → headGood true sync heard = true → c.2 + 1 < s.sh (Reg.FRM_HUNT_CFG.COMPAT_N l) →
          Completes (.candidateCheck l pos exch h) s fun t =>
            (s.modFrm l fun x => { x with cands := rest ++ [(pos + 40960, c.2 + 1)] }).sameBut t wrapRegs) ∧
        ((s.ln l).compatRx = true → headGood true sync heard = false → Completes (.candidateCheck l pos exch h) s fun t =>
          out.sameBut t wrapRegs))) ∧
    (∀ pos exch h, s.rxOn l = false ∨ (s.frm l).oof = false ∨ (s.frm l).cands.find? (fun d => d.1 == pos) = none →
      Completes (.candidateCheck l pos exch h) s fun t => s.sameBut t wrapRegs)

/-- A received head in frame is entered into the history of the last 16; eight errored ones lose alignment, raising
ALIGN_LOSS; in compatibility framing COMPAT_M errored heads in a row do; out of frame nothing happens.  A follow makes
its table entry the receive format and raises FOLLOW (R111, R115, R120). The head is the one the signal path's step 7 gave, as far as
it holds it (R251). -/
def Obligations.ReceivedHeads : Prop :=
  ∀ (s : State) (l : Fin 2), s.clocked →
    (∀ h heard, heard = s.hear l ((s.dsp l).head.getD 0) false h → s.rxOn l = true → (s.frm l).oof = false → (s.ln l).compatRx = false →
      let hist := (headGood false (s.syncAt l heard.rho heard.side) heard :: (s.frm l).hist).take 16
      ((hist.filter (! ·)).length < 8 → Completes (.rxHead l h) s fun t => (t.frm l).hist = hist ∧ (t.frm l).noFrame = 0) ∧
      (8 ≤ (hist.filter (! ·)).length → Completes (.rxHead l h) s fun t => (t.frm l).oof = true ∧ (t.frm l).hist = [] ∧
        (t.ln l).oom = true ∧ Reg.FRM_EVENT.ALIGN_LOSS l ∈ t.evQ)) ∧
    (∀ h heard, heard = s.hear l ((s.dsp l).head.getD 0) false h → s.rxOn l = true → (s.frm l).oof = false → (s.ln l).compatRx = true →
      let bad := if headGood true (s.syncAt l heard.rho heard.side) heard then 0 else (s.frm l).bad + 1
      Completes (.rxHead l h) s fun t =>
        (bad < t.sh (Reg.FRM_HUNT_CFG.COMPAT_M l) → (t.frm l).bad = bad ∧ (t.frm l).noFrame = 0) ∧
        (t.sh (Reg.FRM_HUNT_CFG.COMPAT_M l) ≤ bad → (t.frm l).oof = true ∧ (t.frm l).bad = 0 ∧ (t.ln l).oom = true ∧
          Reg.FRM_EVENT.ALIGN_LOSS l ∈ t.evQ)) ∧
    (∀ h, s.rxOn l = false ∨ (s.frm l).oof = true → Completes (.rxHead l h) s fun t => s.sameBut t wrapRegs) ∧
    (∀ k n, (s.frm l).follow = some (k, n) → s.rxOn l = true → (s.frm l).oof = false → Completes (.follow l) s fun t =>
      (t.ln l).rxFmt = k ∧ (t.frm l).follow = none ∧ t.evQ = s.evQ ++ [Reg.FRM_EVENT.FOLLOW l]) ∧
    ((s.frm l).follow = none ∨ s.rxOn l = false ∨ (s.frm l).oof = true → Completes (.follow l) s fun t => s.sameBut t wrapRegs)

/-- A defect is declared when its set condition has lasted, and cleared when its clear condition has, unless it is
masked; otherwise nothing changes. At the end of a degradation interval its counts start afresh (R116-R118). Masks
and intervals without bits are read as logs 43 and 44 say. -/
def Obligations.Defects : Prop :=
  ∀ (s : State) (l : Fin 2),
    (∀ d : Fin 11, s.clocked →
      let x := s.frm l
      (x.defects.testBit d = false → x.masked d = false → (s.defLimits l d).1 ≤ x.up.get (fun _ => 0) d →
        Completes (.defectDeclare l d) s fun t => (t.frm l).defects = x.defects ||| 2 ^ d.val ∧ (t.frm l).up.get (fun _ => 0) d = 0 ∧
          (d.val = 0 → (t.rxp l).restart = some 0 ∧ ⟨3, 2, true, s.tick, l⟩ ∈ t.alarmQ) ∧ (d.val = 4 → (t.rxp l).dd = false)) ∧
      (x.defects.testBit d = true ∨ x.masked d = true ∨ x.up.get (fun _ => 0) d < (s.defLimits l d).1 →
        Completes (.defectDeclare l d) s fun t => s.sameBut t wrapRegs) ∧
      (x.defects.testBit d = true → x.masked d = false → (s.defLimits l d).2 ≤ x.dn.get (fun _ => 0) d →
        Completes (.defectClear l d) s fun t => (t.frm l).defects = x.defects - 2 ^ d.val ∧ (t.frm l).dn.get (fun _ => 0) d = 0) ∧
      (x.defects.testBit d = false ∨ x.masked d = true ∨ x.dn.get (fun _ => 0) d < (s.defLimits l d).2 →
        Completes (.defectClear l d) s fun t => s.sameBut t wrapRegs)) ∧
    (s.working → let n := s.sh (Reg.FRM_DEG_CFG.DEG_INT l)
      (n ≠ 0 → s.tick % n = 0 → (s.frm l).degAt < s.tick → Completes (.degIntervalEnd l) s fun t => (t.frm l).degAt = s.tick ∧
        (t.frm l).degFlips = 0 ∧ (t.frm l).degBits = 0 ∧ (t.frm l).degOof = (s.frm l).oof ∧
        ((s.frm l).degOof = true → (t.frm l).up = (s.frm l).up ∧ (t.frm l).dn = (s.frm l).dn)) ∧
      (n = 0 ∨ s.tick % n ≠ 0 ∨ s.tick ≤ (s.frm l).degAt → Completes (.degIntervalEnd l) s fun t => s.sameBut t faultRegs))

/-- A shift request that passes the checks of R121 is announced for its frame, one that fails them raises SHIFT_REJECT and
changes no shift; an announcement not committed by F − 256 is withdrawn with cause 1 (R121, R124). -/
def Obligations.ShiftStarts : Prop :=
  ∀ (s : State) (l : Fin 2), s.live →
    (∀ v u, s.takes (Reg.FRM_SHIFT_CTL l) v.toNat → u = (s.stored (Reg.FRM_SHIFT_CTL l) v.toNat).setFld (Reg.FRM_SHIFT_CTL.START l) 0 →
      (s.stored (Reg.FRM_SHIFT_CTL l) v.toNat).bit (Reg.FRM_SHIFT_CTL.START l) = true →
      let k := u.fld (Reg.FRM_SHIFT_CTL.NEW_IDX l)
      let f := u.reg64 (Reg.FRM_SHIFT_ACT_LO l) (Reg.FRM_SHIFT_ACT_HI l)
      let now := (u.ln l).txFn
      (u.shiftFmtOk l k = true → f % 64 = 0 → now + 1024 ≤ f → f ≤ now + 1048576 → u.shifting l = false →
        Completes (.shiftRequest l v) s fun t => (t.shiftOf l).tx = 1 ∧ (t.shiftOf l).responder = false ∧ (t.shiftOf l).idx = k ∧
          (t.shiftOf l).act = f ∧ t.bit (Reg.FRM_SHIFT_CTL.START l) = false) ∧
      (u.shiftFmtOk l k = false ∨ f % 64 ≠ 0 ∨ f < now + 1024 ∨ now + 1048576 < f ∨ u.shifting l = true →
        Completes (.shiftRequest l v) s fun t => t.shiftOf l = u.shiftOf l ∧ t.bit (Reg.FRM_EVENT.SHIFT_REJECT l) = true ∧
          t.bit (Reg.FRM_SHIFT_CTL.START l) = false)) ∧
    ((s.shiftOf l).tx = 1 → (s.shiftOf l).act ≤ (s.ln l).txFn + 256 → Completes (.shiftWithdraw l) s fun t => (t.shiftOf l).tx = 0 ∧
      (t.shiftOf l).cause = 1 ∧ t.evQ = s.evQ ++ [Reg.FRM_EVENT.SHIFT_FAIL l]) ∧
    ((s.shiftOf l).tx ≠ 1 ∨ (s.ln l).txFn + 256 < (s.shiftOf l).act → Completes (.shiftWithdraw l) s fun t => s.sameBut t wrapRegs)

/-! ### The line cipher and the key slots (R139-R163) -/

/-- The age of a key warns at 2^47 and expires at 2^48; a key flip that R140 allows is armed, another raises FLIP_REJECT; a
key whose time is up arms a flip by itself or raises ROT_DUE, which is repeated every hour (R140, R142, R143). -/
def Obligations.KeyPhases : Prop :=
  ∀ (s : State) (l : Fin 2),
    (s.clocked → Completes (.keyAgeLimit l) s fun t =>
      (s.modLcy l fun y => { y with warned := y.warned || decide (2 ^ 47 ≤ y.age), expired := y.expired || decide (2 ^ 48 ≤ y.age) }).lcy l = t.lcy l ∧
      t.evQ = s.evQ ++ (if 2 ^ 47 ≤ (s.lcy l).age ∧ (s.lcy l).warned = false then [Reg.LCY_EVENT.KEY_AGE_WARN l] else []) ++
        (if 2 ^ 48 ≤ (s.lcy l).age ∧ (s.lcy l).expired = false then [Reg.LCY_EVENT.KEY_EXPIRED l] else [])) ∧
    (∀ v u, s.live → s.takes (Reg.LCY_FLIP_CTL l) v.toNat → u = s.stored (Reg.LCY_FLIP_CTL l) v.toNat → u.bit (Reg.LCY_FLIP_CTL.ARM l) = true →
      let f := u.reg64 (Reg.LCY_FLIP_FRAME_LO l) (Reg.LCY_FLIP_FRAME_HI l)
      let p := 1 - (u.lcy l).txPhase
      let ok := decide ((u.ln l).txFn + 64 ≤ f) && f % 64 == 0 && u.bit ⟨Reg.LCY_TX_KEY l, 8 * p + 6, 8 * p + 6⟩ && (u.lcy l).flip.isNone
      (ok = true → Completes (.flipArm l v) s fun t => (t.lcy l).flip = some f ∧ t.bit (Reg.LCY_FLIP_CTL.ARM l) = true) ∧
      (ok = false → Completes (.flipArm l v) s fun t => (t.lcy l).flip = (u.lcy l).flip ∧ t.bit (Reg.LCY_EVENT.FLIP_REJECT l) = true)) ∧
    (s.working → let x := s.lcy l
      let due := s.bit (Reg.LCY_CTL.AUTO_ROT l) && decide (max x.rotNext (s.fld (Reg.LCY_CTL.ROT_HOURS l) * hourTicks) ≤ x.inForce)
      let can := s.keyValid (Reg.LCY_TX_KEY l) (1 - x.txPhase) && x.flip.isNone && x.rotNext == 0
      (due = true → can = true → Completes (.rotDue l) s fun t => (t.lcy l).flip = some (((s.ln l).txFn + 64 + 63) / 64 * 64) ∧
        (t.lcy l).rotNext = x.inForce + hourTicks ∧ t.bit (Reg.LCY_FLIP_CTL.ARM l) = true) ∧
      (due = true → can = false → Completes (.rotDue l) s fun t => (t.lcy l).flip = x.flip ∧ (t.lcy l).txPhase = x.txPhase ∧
        (t.lcy l).rotNext = x.inForce + hourTicks ∧ t.bit (Reg.LCY_EVENT.ROT_DUE l) = true) ∧
      (due = false → Completes (.rotDue l) s fun t => s.sameBut t faultRegs))

/-- A match of the epoch search becomes the far epoch from the next tick on and raises EPOCH_FOUND; when every candidate
has failed the search ends with EPOCH_NOT_FOUND; software's far epoch ends any search (R149, R150). That a search
stops at its match is the model's reading (log 52). -/
def Obligations.EpochSearch : Prop :=
  ∀ (s : State) (l : Fin 2),
    (∀ r, s.working → (s.lcy l).search = some r → let e := ((s.lcy l).rxEpoch + r.done) % 2 ^ 32
      (r.done ≠ 0 → s.epochHit r e = true → Completes (.epochFound l) s fun t =>
        (t.lcy l).search = none ∧ (t.lcy l).rxNext = some (e, s.tick + 1) ∧ t.bit (Reg.LCY_EVENT.EPOCH_FOUND l) = true ∧
        t.nextFld (Reg.LCY_RX_EPOCH.EPOCH l) = e) ∧
      (r.done = 0 ∨ s.epochHit r e = false → Completes (.epochFound l) s fun t => s.sameBut t faultRegs) ∧
      (2 ^ 32 - 1 ≤ r.done → s.epochHit r e = false → Completes (.epochNotFound l) s fun t =>
        (t.lcy l).search = none ∧ (t.lcy l).rxEpoch = (s.lcy l).rxEpoch ∧ t.bit (Reg.LCY_EVENT.EPOCH_NOT_FOUND l) = true) ∧
      (r.done < 2 ^ 32 - 1 ∨ s.epochHit r e = true → Completes (.epochNotFound l) s fun t => s.sameBut t faultRegs)) ∧
    (s.working → (s.lcy l).search = none → (Completes (.epochFound l) s fun t => s.sameBut t faultRegs) ∧
      Completes (.epochNotFound l) s fun t => s.sameBut t faultRegs) ∧
    (∀ v, s.live → s.takes (Reg.LCY_RX_EPOCH l) v.toNat → Completes (.rxEpochWrite l v) s fun t => (t.lcy l).search = none ∧
      (t.lcy l).rxNext = some (((s.stored (Reg.LCY_RX_EPOCH l) v.toNat).reg (Reg.LCY_RX_EPOCH l)).toNat, 0))

/-- The pipeline out of service is tested and comes back after 50 ticks, when the next one goes out; one that fails its test is
marked failed, raises PIPE_FAIL, and none is out any more (R152, R153). -/
def Obligations.PipelineRotation : Prop :=
  ∀ (s : State) (l : Fin 2) (i : Nat), (s.lcy l).out = some i →
    (s.clocked → (s.lcy l).outAt + 50 ≤ s.tick → (s.lcy l).tested = true → Completes (.pipelineRotate l) s fun t =>
      (s.modLcy l fun y => { y with out := nextPipe (s.reg (Reg.LCY_PIPE_FAIL l)).toNat i, outAt := s.tick, tested := false }).sameBut t wrapRegs) ∧
    (s.clocked → s.tick < (s.lcy l).outAt + 50 ∨ (s.lcy l).tested = false → Completes (.pipelineRotate l) s fun t => s.sameBut t wrapRegs) ∧
    (s.working → (s.lcy l).outAt + 2 ≤ s.tick → (s.lcy l).tested = false →
      (Completes (.pipeFail l true) s fun t => (s.modLcy l fun y => { y with tested := true }).sameBut t faultRegs) ∧
      Completes (.pipeFail l false) s fun t => (t.lcy l).out = none ∧ (i < 18 → t.bit ⟨Reg.LCY_PIPE_FAIL l, i, i⟩ = true) ∧
        t.bit (Reg.LCY_EVENT.PIPE_FAIL l) = true) ∧
    (∀ pass, s.working → s.tick < (s.lcy l).outAt + 2 ∨ (s.lcy l).tested = true → Completes (.pipeFail l pass) s fun t => s.sameBut t faultRegs)

/-- Loading a key fills the slot with the unwrapped key and its usage, or ends with the code of R157 and KEY_LOAD_FAIL; clearing
one empties it; CPH_KEY_WRAP reads zero after either (R157, R158). -/
def Obligations.KeySlots : Prop :=
  ∀ (s u : State) (k : Fin 64), s.live →
    (∀ usage : Fin 8, s.takes Reg.CPH_KEY_LOAD (k + 2 ^ 8 * usage + 2 ^ 11) →
      u = (s.stored Reg.CPH_KEY_LOAD (k + 2 ^ 8 * usage + 2 ^ 11)).setReg Reg.CPH_KEY_LOAD 0 →
      let barred := decide (k.val = 63) || u.bit (Reg.CPH_KEY_STATE.LOCKED k) || u.keyInUse k
      let code := if barred then 3 else if usage.val = 0 ∨ 4 < usage.val then 4 else if (keyUnwrap u.fuses.kek u.wrapBytes).isNone then 2 else 0
      Completes (.keyLoad k usage) s fun t => t.fld Reg.CPH_KEY_RESULT.CODE = code ∧ (∀ w, w < 10 → t.reg (Reg.CPH_KEY_WRAP w) = 0) ∧
        (code = 0 → some (t.key k) = keyUnwrap u.fuses.kek u.wrapBytes ∧ t.keyUsage k = usage) ∧
        (code ≠ 0 → t.cph.keys = u.cph.keys ∧ t.bit Reg.CPH_EVENT.KEY_LOAD_FAIL = true)) ∧
    (s.takes Reg.CPH_KEY_LOAD (k + 2 ^ 12) → u = (s.stored Reg.CPH_KEY_LOAD (k + 2 ^ 12)).setReg Reg.CPH_KEY_LOAD 0 →
      let barred := decide (k.val = 63) || u.bit (Reg.CPH_KEY_STATE.LOCKED k) || u.keyInUse k
      Completes (.keyZero k) s fun t => t.fld Reg.CPH_KEY_RESULT.CODE = (if barred then 3 else 0) ∧
        (barred = false → t.key k = [] ∧ t.keyUsage k = 0) ∧ (barred = true → t.cph.keys = u.cph.keys))

/-- A submitted host index is stored; the idle engine serves Rime's queue, then the known-answer test, then the host
ring; a busy engine, and one for which an image's authentication waits, starts none of these. A host request that has ended leaves the engine idle; DMA errors and timeouts
give it their status; a known answer that failed, or that lost its scratch memory (R374), raises KAT_FAIL (R159, R160, R163, R486). What an
errored request leaves in its output is free (logs 5 and 54). -/
def Obligations.RequestEngine : Prop :=
  ∀ s : State, s.live →
    (∀ v, s.takes Reg.CPH_HQ_WR v.toNat → Completes (.hostRequestSubmit v) s fun t =>
      t.reg Reg.CPH_HQ_WR = writtenWord Reg.CPH_HQ_WR (s.reg Reg.CPH_HQ_WR) v) ∧
    (s.cph.running.isSome = true ∨ s.cfgWaits ≠ 0 → Completes .requestStart s fun t => s.sameBut t wrapRegs) ∧
    (∀ q qs, s.cph.running = none → s.cfgWaits = 0 → s.cph.rimeQ = q :: qs → Completes .requestStart s fun t => t.cph.rimeQ = qs ∧
      ∃ r, t.cph.running = some r ∧ r.queue = 2 ∧ r.slot = q.slot ∧ r.got = q.msg) ∧
    (s.cph.running = none → s.cfgWaits = 0 → s.cph.rimeQ = [] → s.cph.kat = true → Completes .requestStart s fun t => t.cph.kat = false ∧
      ∃ r, t.cph.running = some r ∧ r.queue = 3) ∧
    (s.cph.running = none → s.cfgWaits = 0 → s.cph.rimeQ = [] → s.cph.kat = false → let size := 2 ^ s.fld Reg.CPH_HQ_CFG.LOG2
      let go := s.bit Reg.CPH_HQ_CFG.EN && !(ringEmpty (s.fld Reg.CPH_HQ_WR.IDX % size) (s.fld Reg.CPH_HQ_RD.IDX % size)) &&
        !(ringFull size (s.fld Reg.CPH_HQ_CPL_WR.IDX) (s.fld Reg.CPH_HQ_CPL_RD.IDX))
      (go = true → Completes .requestStart s fun t => ∃ r, t.cph.running = some r ∧ r.queue = 4) ∧
      (go = false → Completes .requestStart s fun t => s.sameBut t wrapRegs)) ∧
    (∀ r, s.cph.running = some r → r.queue = 4 → r.status.isSome = true ∨ r.waits = false → Completes .requestComplete s fun t => t.cph.running = none) ∧
    (∀ r, s.cph.running = some r → r.queue ≠ 4 ∨ (r.status = none ∧ r.waits = true) → Completes .requestComplete s fun t => s.sameBut t wrapRegs) ∧
    (∀ r bs ok, s.cph.running = some r → r.srcHost = true → r.status = none →
      (ok = true → r.got.length + bs.length ≤ r.len → Completes (.dmaCompletion bs ok) s fun t =>
        ({ s with cph := { s.cph with running := some { r with got := r.got ++ bs } } } : State).sameBut t wrapRegs) ∧
      (ok = false ∨ r.len < r.got.length + bs.length → Completes (.dmaCompletion bs ok) s fun t =>
        ({ s with cph := { s.cph with running := some { r with status := some 0x20 } } } : State).sameBut t (Reg.GLB_HOST_EVENT :: wrapRegs) ∧
        t.bit Reg.GLB_HOST_EVENT.DMA_ERR = true)) ∧
    (∀ r us, s.cph.running = some r → r.waits = true → r.status = none → s.pcie.ctoUs ≤ us → Completes (.dmaTimeout us) s fun t =>
      ({ s with cph := { s.cph with running := some { r with status := some 0x21 } } } : State).sameBut t (Reg.GLB_HOST_EVENT :: wrapRegs) ∧
      t.bit Reg.GLB_HOST_EVENT.DMA_TIMEOUT = true) ∧
    (∀ us, s.cph.running = none → Completes (.dmaTimeout us) s fun t => s.sameBut t wrapRegs) ∧
    (∀ r pass, s.cph.running = some r → r.queue = 3 → Completes (.katFail pass) s fun t => t.cph.running = none ∧
      (pass = false ∨ r.status ≠ none → t.bit Reg.CPH_EVENT.KAT_FAIL = true) ∧ (pass = true → r.status = none → s.sameRegs t wrapRegs))

/-! ### Transmission (R35, R57, R58, R99, R212, R214, R217) -/

/-- A transmit frame head advances the frame number: with no mute cause in force the frame is sent, its head beginning
with its number, and otherwise it is muted and its DACs carry zero; a line that does not run only keeps its mute
causes, and after thermal shutdown nothing happens.  A relocked tile clock is noted for the next frame sent; one that
has not relocked in 1,000 ticks adds the cause TILE and is told to the fault manager (R35, R99, R214-R217). -/
def Obligations.TransmitHeads : Prop :=
  ∀ (s : State) (l : Fin 2),
    (∀ cyc sub bad, s.clocked → s.txOn l = true →
      let u := s.cleared.txPrepare l
      ((u.ln l).mute = 0 → Completes (.txFrameHead l cyc sub bad) s fun t => (t.ln l).txNext = (s.ln l).txNext + 1 ∧
        (if l.val = 0 then t.pins.dacZeroA else t.pins.dacZeroB) = false ∧ (t.ln l).relocked = false ∧
        ∃ h r, h.take 8 = beBytes 8 (s.ln l).txNext ∧ [Out.txHead l (s.ln l).txNext h, .txSymbols l r] <:+ t.out) ∧
      ((u.ln l).mute ≠ 0 → Completes (.txFrameHead l cyc sub bad) s fun t => (t.ln l).txNext = (s.ln l).txNext + 1 ∧
        (if l.val = 0 then t.pins.dacZeroA else t.pins.dacZeroB) = true ∧ (t.lcy l).running = false ∧
        (t.lcy l).tag = List.replicate 16 0#8 ∧ (t.ln l).rails = [] ∧ [Out.txMuted l (s.ln l).txNext] <:+ t.out)) ∧
    (∀ cyc sub bad, s.clocked → s.txOn l = false → Completes (.txFrameHead l cyc sub bad) s fun t =>
      (t.ln l).txNext = (s.ln l).txNext ∧ (t.ln l).mute = s.muteCauses l ∧
      (if l.val = 0 then t.pins.dacZeroA else t.pins.dacZeroB) = true ∧ (t.lcy l).running = false) ∧
    (∀ cyc sub bad, s.live → s.down = true → Completes (.txFrameHead l cyc sub bad) s fun t => s.sameBut t wrapRegs) ∧
    (s.clocked → (s.ln l).txRelock.isSome = true ∨ (s.ln l).rxRelock.isSome = true → Completes (.relockDone l) s fun t =>
      (t.ln l).txRelock = none ∧ (t.ln l).rxRelock = none ∧ (t.ln l).tileLock = true ∧ (t.ln l).relockBad = false ∧
      (t.ln l).relocked = ((s.ln l).relocked || (s.ln l).txRelock.isSome) ∧
      ((s.ln l).rxRelock.isSome = true → (t.cnv l).want = true) ∧ s.sameRegs t wrapRegs) ∧
    (s.clocked → (s.ln l).txRelock = none → (s.ln l).rxRelock = none → Completes (.relockDone l) s fun t => s.sameBut t wrapRegs) ∧
    (∀ t0, s.working → (s.ln l).txRelock = some t0 ∨ (s.ln l).rxRelock = some t0 → t0 + 1000 ≤ s.tick → (s.ln l).relockBad = false →
      Completes (.relockTimeout l) s fun t => (t.ln l).relockBad = true ∧ (t.ln l).mute = (s.ln l).mute ||| 16 ∧
        t.relockFaults = s.relockFaults ++ [(l.val, s.tick)]) ∧
    (s.working → (s.ln l).relockBad = true ∨ (∀ t0, (s.ln l).txRelock = some t0 ∨ (s.ln l).rxRelock = some t0 → s.tick < t0 + 1000) →
      Completes (.relockTimeout l) s fun t => s.sameBut t faultRegs)

/-- The mask is violated once some bin has been in excess in DEBOUNCE ticks in a row, and the violation clears after as
many without any; each is shown and raised (R212). Levels are compared as log 60 says. -/
def Obligations.SpectrumMask : Prop :=
  ∀ (s : State) (l : Fin 2), s.working →
    let d := s.sh (Reg.TXP_MASK_CFG.DEBOUNCE l)
    let long := (s.ln l).maskRun.any fun p => decide (d ≤ p.2)
    ((s.ln l).maskBad = false → long = true → 1 ≤ d → Completes (.maskViol l) s fun t =>
      (s.modLn l fun y => { y with maskBad := true }).sameBut t (Reg.TXP_STATUS l :: Reg.TXP_EVENT l :: faultRegs) ∧
      t.bit (Reg.TXP_STATUS.MASK_VIOL l) = true ∧ t.bit (Reg.TXP_EVENT.MASK_VIOL l) = true) ∧
    ((s.ln l).maskBad = true ∨ long = false ∨ d = 0 → Completes (.maskViol l) s fun t => s.sameBut t faultRegs) ∧
    ((s.ln l).maskBad = true → d ≤ (s.ln l).maskCalm → Completes (.maskClear l) s fun t =>
      (s.modLn l fun y => { y with maskBad := false }).sameBut t (Reg.TXP_STATUS l :: Reg.TXP_EVENT l :: faultRegs) ∧
      t.bit (Reg.TXP_STATUS.MASK_VIOL l) = false ∧ t.bit (Reg.TXP_EVENT.MASK_CLEAR l) = true) ∧
    ((s.ln l).maskBad = false ∨ (s.ln l).maskCalm < d → Completes (.maskClear l) s fun t => s.sameBut t faultRegs)

/-! ### Client frames and channels (R52, R55, R57-R59, R65, R69, R74, R75, R83, R84) -/

/-- An ingress frame that the MAC drops is only counted against its port; one of a channel without TX_EN or without room
is dropped and counted as a transmit drop; one with room joins the channel's queue, whole, and as it came unless the
transparent clock of the channel changes its correction, a line's full queue of a twin-path channel giving up its
oldest blocks; the traffic counts in the port's and the channel's windows (R52, R57, R81, R360, R472). How a queue's
bytes are counted is the model's choice (log 36), as is the order of the MAC's causes (log 35). -/
def Obligations.Ingress : Prop :=
  ∀ (s : State) (x : IngIn), s.live →
    (64 ≤ x.port ∨ s.sh (Reg.FLO_PORT_CFG.MODE x.port) = 0 ∨ s.down = true → Completes (.ingressFrame x) s fun t => s.sameBut t wrapRegs) ∧
    (x.port < 64 → s.sh (Reg.FLO_PORT_CFG.MODE x.port) ≠ 0 → s.down = false →
      (∀ o, macDrop (s.sh (Reg.FLO_PORT_CFG.MAX_LEN x.port)) x = some o → Completes (.ingressFrame x) s fun t => s.sameBut t wrapRegs ∧
        ((s.ctr (portCtr x.port o)).v + 1 < 2 ^ 64 → (t.ctr (portCtr x.port o)).v = (s.ctr (portCtr x.port o)).v + 1)) ∧
      (macDrop (s.sh (Reg.FLO_PORT_CFG.MAX_LEN x.port)) x = none →
        let u := s.winAdd x.port x.bytes.length 1
        (∀ n, x.mem = false → s.classify x = .chan n →
          let b := (s.tcIngress n x).1
          let room := s.shBit (Reg.FLO_CH_CFG.TX_EN n) && s.hasRoom n (s.ingDepth n) b.length
          let v := (u.twinShed n 0 b.length (s.ctx n).qA.length).twinShed n 1 b.length (s.ctx n).qB.length
          let join (w : State) := (w.setCtx n { w.ctx n with pkts := (w.ctx n).pkts ++ [b] }).winAdd (128 + n) b.length 0
          b.length = x.bytes.length ∧ (s.tcOn n = false ∨ ptpAt (s.shBit Reg.TIM_TC_CFG.UDP4) x.bytes = none → b = x.bytes) ∧
          (room = true → Completes (.ingressFrame x) s fun t => (join v).sameBut t wrapRegs) ∧
          (room = true → (s.ctx n).qA = [] → (s.ctx n).qB = [] → Completes (.ingressFrame x) s fun t => (join u).sameBut t wrapRegs) ∧
          (room = false → Completes (.ingressFrame x) s fun t =>
            ({ u with evQ := s.evQ ++ [Reg.FLO_EVENT.TX_DROP] } : State).sameBut t wrapRegs ∧
            ((s.ctr (chanCtr n 1)).v + 1 < 2 ^ 64 → (t.ctr (chanCtr n 1)).v = (s.ctr (chanCtr n 1)).v + 1))) ∧
        (x.mem = true ∨ s.classify x = .unmatched ∨ s.classify x = .nowhere →
          Completes (.ingressFrame x) s fun t => u.sameBut t wrapRegs)))

/-- A frame of the channel that a point serves next leaves it as it was rebuilt, or cut short with its FCS inverted; what
the point does not hold or does not serve next, and everything after thermal shutdown, stays (R58, R374, R472). How
the point weighs its channels is the model's choice (log 38). -/
def Obligations.Egress : Prop :=
  ∀ (s : State) (e : Fin 320) (n : Fin 512) (cyc sub : Nat), s.live →
    (∀ f, (s.egrQ e).find? (fun f => f.1 == n.val) = some f → s.egrNext e = some n.val → s.down = false →
      s.tcOn n = false ∨ ptpAt (s.shBit Reg.TIM_TC_CFG.UDP4) f.2 = none →
      (Completes (.egressFrame e n cyc sub none) s fun t => t.egrQ e = (s.egrQ e).erase f ∧ t.egrServed e n = s.egrServed e n + f.2.length ∧
        t.win (64 + s.pointPort e) = (s.winAdd (64 + s.pointPort e) f.2.length 1).win (64 + s.pointPort e) ∧
        t.out = [.egress (decide (64 ≤ e.val)) (if e.val < 64 then e.val else e.val - 64) f.2]) ∧
      (∀ k, Completes (.egressFrame e n cyc sub (some k)) s fun t => t.egrQ e = (s.egrQ e).erase f ∧
        t.out = [.egress (decide (64 ≤ e.val)) (if e.val < 64 then e.val else e.val - 64) (f.2.take k ++ (ethFcs (f.2.take k)).map (~~~ ·))] ∧
        t.evQ = s.evQ ++ [Reg.FLO_EVENT.EGR_DROP])) ∧
    (∀ cut, (s.egrQ e).find? (fun f => f.1 == n.val) = none ∨ s.egrNext e ≠ some n.val ∨ s.down = true → Completes (.egressFrame e n cyc sub cut) s fun t =>
      s.sameBut t wrapRegs)

/-- A delivered frame leaves its line's queue, and a frame marked errored delivers nothing to any channel; a merge release gives
out what is due and nothing else; a channel silent long enough loses its receive sequence and raises SEQ_RESYNC; a bank swap
that R69 allows and whose bank fits, together with every bank that the other line may come to use, is armed, another
rejected (R69, R71, R73, R75, R84, R89, R147). -/
def Obligations.ChannelReceive : Prop :=
  ∀ s : State, s.live →
    (∀ (l : Fin 2) cyc mem f fs, s.down = false → (s.ln l).ready = f :: fs → Completes (.frameDelivered l cyc mem) s fun t => (t.ln l).ready = fs ∧
      (f.errored = true → mem = [] → t.flo = s.flo ∧ t.evQ = s.evQ ++ f.blocks.map fun _ => Reg.FLO_EVENT.BLK_CRC)) ∧
    (∀ (l : Fin 2) cyc mem, (s.ln l).ready = [] → Completes (.frameDelivered l cyc mem) s fun t => s.sameBut t wrapRegs) ∧
    (∀ (n : Fin 512) cyc bad c, s.down = false → (s.crx n).oldest = some c → s.relTime n c ≤ s.nsAt cyc → Completes (.mergeRelease n cyc bad) s fun t =>
      (t.crx n).held.length < (s.crx n).held.length ∧ (t.crx n).relAt = s.nsAt cyc) ∧
    (∀ (n : Fin 512) cyc bad, (∀ c, (s.crx n).oldest = some c → (s.nsAt cyc : Int) < s.relTime n c) →
      Completes (.mergeRelease n cyc bad) s fun t => s.sameBut t wrapRegs) ∧
    (∀ (n : Fin 512) cyc, s.down = false → s.silent n cyc = true → Completes (.seqResync n cyc) s fun t =>
      t.crx n = { last := (s.crx n).last, lastA := (s.crx n).lastA, lastB := (s.crx n).lastB, unprot := (s.crx n).unprot } ∧
      t.nextFld (Reg.FLO_CH_SKEW.SKEW n) = 0x80000000 ∧ t.evQ = s.evQ ++ [Reg.FLO_EVENT.SEQ_RESYNC]) ∧
    (∀ (n : Fin 512) cyc, s.silent n cyc = false → Completes (.seqResync n cyc) s fun t => s.sameBut t wrapRegs) ∧
    (∀ (l : Fin 2) v u, s.takes (Reg.FLO_CAL_CTL l) v.toNat → u = s.stored (Reg.FLO_CAL_CTL l) v.toNat → u.bit (Reg.FLO_CAL_CTL.ARM l) = true →
      let f := u.reg64 (Reg.FLO_CAL_FRAME_LO l) (Reg.FLO_CAL_FRAME_HI l)
      let ok := f % 64 == 0 && decide ((u.ln l).txFn + 64 ≤ f) && (u.swapAt l).isNone && u.swapFits l
      (ok = true → Completes (.calSwapArm l v) s fun t => t.swapAt l = some f ∧ t.bit (Reg.FLO_CAL_CTL.ARM l) = true) ∧
      (ok = false → Completes (.calSwapArm l v) s fun t => t.swapAt l = u.swapAt l ∧ t.bit (Reg.FLO_CAL_CTL.ARM l) = false ∧
        t.bit Reg.FLO_EVENT.CAL_REJECT = true))

/-! ### The decoder and the refinement loop (R178-R181, R274) -/

/-- The oldest waiting frame enters the decoder with the metrics of its symbols and is decoded under the cap fixed at its
head, 4 iterations of it before a refinement pass; such a pass puts out the frame's corrected rails and decodes it
afresh from the refined metrics under the rest of its cap; the oldest frame in the decoder leaves in its slot, not
before, with the bits it then has, raising UNCORR when a codeword failed and CUTOFF for each that was cut off (R26, R28,
R29, R178-R181, R274). What is lost by a store fault comes with the command (log 63). -/
def Obligations.DecoderPassage : Prop :=
  ∀ (s : State) (l : Fin 2), s.clocked →
    (∀ errs i f, s.rxAt l (·.stage == 0) = some (i, f) →
      let ms := s.frameMetrics l f
      let loop := f.loop && decide (10 ≤ f.cap)
      let cws := frameDecode f.fmt (s.sh (Reg.FEC_DEC_CFG.OFFSET l)) (if loop then 4 else f.cap) ms errs
      Completes (.decoderEntry l errs) s fun t =>
        t.evQ = s.evQ ++ (if ms.any (· == 0) then [Reg.FEC_EVENT.ERASURE l] else []) ++ (if errs.isEmpty then [] else [Reg.FEC_EVENT.STORE_ERR l]) ∧
        ∃ g, (t.ln l).rxq = (s.ln l).rxq.set i g ∧ g.fn = f.fn ∧ g.cap = f.cap ∧ g.metrics = ms ∧ g.cws = cws ∧
          g.stage = (if loop && cws.any (fun c => !c.ok) then 1 else 2)) ∧
    (∀ errs, s.rxAt l (·.stage == 0) = none → Completes (.decoderEntry l errs) s fun t => s.sameBut t wrapRegs) ∧
    (∀ errs i f, s.rxAt l (·.stage == 1) = some (i, f) →
      let ms := f.refineMetrics
      let cws := frameDecode f.fmt (s.sh (Reg.FEC_DEC_CFG.OFFSET l)) (f.cap - 4) ms errs
      Completes (.refinementPass l errs) s fun t => t.out = [.refine l (f.fn.getD 0) f.refineRails] ∧
        ∃ g, (t.ln l).rxq = (s.ln l).rxq.set i g ∧ g.fn = f.fn ∧ g.stage = 2 ∧ g.metrics = f.metrics ∧ g.metrics2 = ms ∧
          g.cws = (cws.zip f.first).map fun p => { p.1 with iters := p.1.iters + p.2 }) ∧
    (∀ errs, s.rxAt l (·.stage == 1) = none → Completes (.refinementPass l errs) s fun t => s.sameBut t wrapRegs) ∧
    (∀ cut i f, s.rxAt l (·.stage < 3) = some (i, f) → s.slotDue l f = true →
      let out := f.leaves cut
      Completes (.decoderRelease l cut) s fun t =>
        t.out = [.decoded l (f.fn.getD 0) (frameInfo f.fmt ((out.1.map (·.bits)).toArray)).1] ∧
        s.evQ ++ (if out.1.any (!·.ok) then [Reg.FEC_EVENT.UNCORR l] else []) ++ out.2.map (fun _ => Reg.FEC_EVENT.CUTOFF l) <+: t.evQ) ∧
    (∀ cut, (∀ i f, s.rxAt l (·.stage < 3) = some (i, f) → s.slotDue l f = false) → Completes (.decoderRelease l cut) s fun t =>
      s.sameBut t wrapRegs)

/-! ### Acquisition and receive monitoring (R254, R259, R272, R275, R278, R282, R283) -/

/-- A state of acquisition whose criterion holds leads to the next, and IN_FRAME to ACQUIRED with ACQ_DONE, one whose
criterion does not hold stays; a scan leaves its best and second-best candidates, and an expired budget tries the
second before a new scan; a second expired budget, or a clipped forced dispersion, fails with ACQ_FAIL and starts
again from POWER (R258, R275). -/
def Obligations.Acquisition : Prop :=
  ∀ (s : State) (l : Fin 2), s.working → s.rxOn l = true →
    let scan := (s.dsp l).scan
    let best := bestScore scan
    ((s.rxp l).state = 0 → (s.ln l).tileLock = true → (s.ln l).rxRelock = none → Completes (.acqStateDone l) s fun t => (t.rxp l).state = 1) ∧
    ((s.rxp l).state = 0 → (s.ln l).tileLock = false ∨ (s.ln l).rxRelock ≠ none → Completes (.acqStateDone l) s fun t => s.sameBut t faultRegs) ∧
    ((s.rxp l).state = 1 → 120 ≤ (s.rxp l).light → Completes (.acqStateDone l) s fun t => (t.rxp l).state = 2 ∧ (t.rxp l).attempt = false ∧
      (t.rxp l).scanLeft = (if s.sh (Reg.RXP_CD_CFG.CD_MODE l) = 1 then 0 else s.scanTicks l)) ∧
    ((s.rxp l).state = 2 → (s.rxp l).scanLeft = 0 → s.sh (Reg.RXP_CD_CFG.CD_MODE l) ≠ 1 → Completes (.acqStateDone l) s fun t =>
      (t.rxp l).state = 3 ∧ (t.rxp l).da = s.scanCand l best ((bestScore (s.dsp l).fine : Nat) - 8) ∧
      (t.rxp l).second = s.scanCand l (secondScore scan best) 0) ∧
    ((s.rxp l).state = 2 → (s.rxp l).scanLeft = 0 → s.sh (Reg.RXP_CD_CFG.CD_MODE l) = 1 → s.cdClip l (s.cdSet l) = s.cdSet l →
      Completes (.acqStateDone l) s fun t => (t.rxp l).state = 3 ∧ (t.rxp l).da = s.cdSet l) ∧
    ((s.rxp l).state = 2 → (s.rxp l).scanLeft = 0 → s.sh (Reg.RXP_CD_CFG.CD_MODE l) = 1 → s.cdClip l (s.cdSet l) ≠ s.cdSet l →
      Completes (.acqStateDone l) s fun t => (t.rxp l).state = 1 ∧ t.bit (Reg.RXP_EVENT.ACQ_FAIL l) = true) ∧
    ((s.rxp l).state = 3 → (s.rxp l).clkLock = true → Completes (.acqStateDone l) s fun t => (t.rxp l).state = 4 ∧
      (t.dsp l).taps = EqTaps.spike (s.sh (Reg.RXP_EQ_CTL.NTAPS l))) ∧
    ((s.rxp l).state = 4 → 16 ≤ (s.rxp l).calm → Completes (.acqStateDone l) s fun t => (t.rxp l).state = 5) ∧
    ((s.rxp l).state = 5 → (s.rxp l).freqLock = true → Completes (.acqStateDone l) s fun t => (t.rxp l).state = 6) ∧
    ((s.rxp l).state = 6 → (s.frm l).oof = false → Completes (.acqStateDone l) s fun t => (t.rxp l).state = 7 ∧
      t.bit (Reg.RXP_EVENT.ACQ_DONE l) = true) ∧
    (((s.rxp l).state = 1 ∧ (s.rxp l).light < 120) ∨ ((s.rxp l).state = 2 ∧ (s.rxp l).scanLeft ≠ 0) ∨ ((s.rxp l).state = 3 ∧ (s.rxp l).clkLock = false) ∨
      ((s.rxp l).state = 4 ∧ (s.rxp l).calm < 16) ∨ ((s.rxp l).state = 5 ∧ (s.rxp l).freqLock = false) ∨
      ((s.rxp l).state = 6 ∧ (s.frm l).oof = true) ∨ (s.rxp l).state = 7 → Completes (.acqStateDone l) s fun t => s.sameBut t faultRegs) ∧
    (∀ b, acqBudget (s.rxp l).state = some b → b ≤ (s.rxp l).ticks →
      ((s.rxp l).attempt = true → Completes (.acqBudgetExpiry l) s fun t => (t.rxp l).state = 1 ∧ (t.rxp l).attempt = false ∧
        t.bit (Reg.RXP_EVENT.ACQ_FAIL l) = true) ∧
      ((s.rxp l).attempt = false → Completes (.acqBudgetExpiry l) s fun t => (t.rxp l).attempt = true ∧
        (s.sh (Reg.RXP_CD_CFG.CD_MODE l) = 1 → (t.rxp l).state = 3 ∧ (t.rxp l).da = s.cdClip l (s.cdSet l)) ∧
        (s.sh (Reg.RXP_CD_CFG.CD_MODE l) ≠ 1 → (s.rxp l).scanned = true → (t.rxp l).state = 3 ∧ (t.rxp l).da = (s.rxp l).second) ∧
        (s.sh (Reg.RXP_CD_CFG.CD_MODE l) ≠ 1 → (s.rxp l).scanned = false → (t.rxp l).state = 2))) ∧
    ((∀ b, acqBudget (s.rxp l).state = some b → (s.rxp l).ticks < b) → Completes (.acqBudgetExpiry l) s fun t => s.sameBut t faultRegs)

/-- A restart asked for is due from POWER; loss of lock restarts from CLOCK and loss of frame from EQ_BLIND, raising LOCK_LOSS; a
capture is armed for a frame far enough off, another request is rejected (R278, R283). -/
def Obligations.AcquisitionRestarts : Prop :=
  ∀ (s : State) (l : Fin 2),
    (∀ v u, s.live → s.takes (Reg.RXP_CTL l) v.toNat → u = s.stored (Reg.RXP_CTL l) v.toNat → u.bit (Reg.RXP_CTL.ACQ_RESTART l) = true →
      Completes (.acqRestart l v) s fun t => (t.rxp l).restart = some 0) ∧
    (s.working → (s.rxp l).state = 7 → (s.rxp l).restart = none → 1024 * 40960 ≤ (s.frm l).noLock → Completes (.lockLoss l) s fun t =>
      (s.modRxp l fun x => { x with restart := some 2 }).sameBut t (Reg.RXP_EVENT l :: faultRegs) ∧ t.bit (Reg.RXP_EVENT.LOCK_LOSS l) = true) ∧
    (s.working → (s.rxp l).state = 7 → (s.rxp l).restart = none → (s.frm l).noLock < 1024 * 40960 → 8192 * 40960 ≤ (s.frm l).noFrame →
      (s.rxp l).lock = true → Completes (.lockLoss l) s fun t =>
        (s.modRxp l fun x => { x with restart := some 3 }).sameBut t (Reg.RXP_EVENT l :: faultRegs) ∧ t.bit (Reg.RXP_EVENT.LOCK_LOSS l) = true) ∧
    (s.working → (s.rxp l).state ≠ 7 ∨ (s.rxp l).restart.isSome = true → Completes (.lockLoss l) s fun t => s.sameBut t faultRegs) ∧
    (∀ v u, s.live → s.takes (Reg.RXP_CAP_CTL l) v.toNat → u = s.stored (Reg.RXP_CAP_CTL l) v.toNat → u.bit (Reg.RXP_CAP_CTL.ARM l) = true →
      let f := u.reg64 (Reg.RXP_CAP_FRAME_LO l) (Reg.RXP_CAP_FRAME_HI l)
      ((u.ln l).rxFn + 64 ≤ f → Completes (.captureArm l v) s fun t => (t.rxp l).cap = some f ∧ t.bit (Reg.RXP_CAP_CTL.ARM l) = true) ∧
      (f < (u.ln l).rxFn + 64 → Completes (.captureArm l v) s fun t => (t.rxp l).cap = (u.rxp l).cap ∧
        t.bit (Reg.RXP_CAP_CTL.ARM l) = false ∧ t.bit Reg.GLB_TICK_EVENT.FRAME_REJECT = true))

/-- A residual dispersion that has stayed high for 1,000 ticks moves D_a and raises CD_STEP; paired mode begins when its
conditions have held for 1,000 ticks; SNR_LOW and DGD_HIGH are raised after their debounce (R259, R272, R282). -/
def Obligations.ReceiveMonitors : Prop :=
  ∀ s : State, s.working →
    (∀ l : Fin 2, let go := s.shBit (Reg.RXP_CTL.CD_TRACK l) && decide (1000 ≤ (s.rxp l).resRun) && s.rxOn l
      (go = true → Completes (.cdStep l) s fun t => (s.modRxp l fun x => { x with cdStep := some x.residual, resRun := 0 }).sameBut t
        (Reg.RXP_EVENT l :: faultRegs) ∧ t.bit (Reg.RXP_EVENT.CD_STEP l) = true) ∧
      (go = false → Completes (.cdStep l) s fun t => s.sameBut t faultRegs)) ∧
    (1000 ≤ (s.rxp 0).pairRun → (s.rxp 0).paired = false → Completes .pairOn s fun t =>
      (s.modRxp 0 fun x => { x with paired := true }).sameBut t (Reg.RXP_EVENT 0 :: Reg.RXP_EVENT 1 :: faultRegs) ∧
      t.bit (Reg.RXP_EVENT.PAIR_ON 0) = true ∧ t.bit (Reg.RXP_EVENT.PAIR_ON 1) = true) ∧
    ((s.rxp 0).pairRun < 1000 ∨ (s.rxp 0).paired = true → Completes .pairOn s fun t => s.sameBut t faultRegs) ∧
    (∀ l : Fin 2, let deb := s.sh (Reg.RXP_MON_LIM.DEB l)
      let lo := decide (deb ≤ (s.rxp l).snrRun) && decide (1 ≤ (s.rxp l).snrRun) && !(s.rxp l).snrUp
      let hi := decide (deb ≤ (s.rxp l).dgdRun) && decide (1 ≤ (s.rxp l).dgdRun) && !(s.rxp l).dgdUp
      Completes (.snrLow l) s fun t => (s.modRxp l fun x => { x with snrUp := x.snrUp || lo, dgdUp := x.dgdUp || hi }).sameBut t
        (Reg.RXP_EVENT l :: faultRegs) ∧ (lo = true → t.bit (Reg.RXP_EVENT.SNR_LOW l) = true) ∧ (hi = true → t.bit (Reg.RXP_EVENT.DGD_HIGH l) = true))

/-! ### The tick (R30, R31, R34, R441, R442, R496) -/

/-- A tick advances the tick count by one; at its end FAULT_N and SERVICE_N stand as their conditions say and the status
page shows that moment. A tick consumed by an overrun is counted and raised, publishes and latches nothing, and shows nothing new. No tick runs
once the sequencer has stopped, or the time base has lost its last source (R34, R441, R442, R448, R496). What the counters do in an overrun is the model's choice
(log 24). -/
def Obligations.Ticks : Prop :=
  ∀ (s : State) (x : TickIn),
    (s.live → s.stalled = false → s.noSource = false → x.overrun = false → Completes (.tick x) s fun t => t.tick = s.tick + 1 ∧ t.consumed = false ∧ t.page = t.pageNow ∧
      t.bit Reg.FLT_STATUS.FAULT = (t.reg Reg.FLT_SUMMARY != 0 || t.bit Reg.FLT_STATUS.SEQ_HARD) ∧
      (t.serviceDue = true → t.bit Reg.FLT_STATUS.SERVICE = true)) ∧
    (s.live → s.stalled = false → s.noSource = false → x.overrun = true → Completes (.tick x) s fun t => t.tick = s.tick + 1 ∧ t.consumed = true ∧
      s.pubQ <+: t.pubQ ∧ t.latQ = s.latQ ∧ t.evQ = s.evQ ∧ t.shadow = s.shadow ∧ t.bit Reg.GLB_TICK_EVENT.OVERRUN = true ∧
      t.fld Reg.GLB_TICK_STATUS.OVERRUN_CNT = satAdd 0xFFFF (s.fld Reg.GLB_TICK_STATUS.OVERRUN_CNT) 1 ∧ t.page = s.page) ∧
    (s.live → s.stalled = true ∨ s.noSource = true → Completes (.tick x) s fun t => ({ s with stalled := true } : State).sameBut t wrapRegs)

/-! ### Line engines, ports and groups (R45, R225, R303, R304, R500) -/

/-- An enabled engine in service begins to start with its tile powered; a disabled one stops at the boundary after the one that
disabled it, its receiver idle, its DACs at zero. Training with 64 good lanes in every group fixes a direction's L, with fewer it holds the line engine; foreground calibration brings the line up or holds it (R45, R225, R226,
R303, R304). -/
def Obligations.LineEngines : Prop :=
  ∀ s : State, s.ticking →
    (∀ l : Fin 2,
      (s.boot.ready = true → s.engOn l = true → s.fld (lineState l) = 0 → s.down = false → Completes (.lineEngineEnable l) s fun t =>
        t.fld (lineState l) = 1 ∧ (t.ln l).power = true) ∧
      (s.boot.ready = false ∨ s.engOn l = false ∨ s.fld (lineState l) ≠ 0 ∨ s.down = true → Completes (.lineEngineEnable l) s fun t =>
        s.sameBut t faultRegs) ∧
      (s.engOn l = false → s.fld (lineState l) = 1 ∨ s.fld (lineState l) = 2 → (s.ln l).offAt ≠ some s.tick → Completes (.lineEngineDisable l) s fun t =>
        t.fld (lineState l) = 0 ∧ (t.ln l).power = false ∧ (t.rxp l).state = 0 ∧
        (if l.val = 0 then t.pins.dacZeroA else t.pins.dacZeroB) = true) ∧
      (s.engOn l = true ∨ s.fld (lineState l) = 0 ∨ s.fld (lineState l) = 3 ∨ (s.ln l).offAt = some s.tick → Completes (.lineEngineDisable l) s fun t =>
        s.sameBut t faultRegs)) ∧
    (∀ (l : Fin 2) (x : FgIn),
      let go := s.boot.ready && s.starting l && s.trained (2 * l) && s.trained (2 * l + 1) && !s.down && s.fgReady l x
      let short := x.power.any fun p => decide (p < -2000)
      (go = true → x.pll = false ∨ short = true → (s.cleared.foreground l x).2 = false) ∧
      (go = true → (s.cleared.foreground l x).2 = true → Completes (.foregroundCalibration l x) s fun t =>
        t.fld (lineState l) = 2 ∧ (t.rxp l).state = 0) ∧
      (go = true → (s.cleared.foreground l x).2 = false → Completes (.foregroundCalibration l x) s fun t =>
        t.fld (lineState l) = 3 ∧ (t.ln l).power = false ∧ t.bit (Reg.CNV_EVENT.FG_FAIL l) = true) ∧
      (go = false → Completes (.foregroundCalibration l x) s fun t => s.sameBut t faultRegs)) ∧
    (∀ (d : Fin 4) (x : TrainIn),
      let go := s.boot.ready && s.starting (d / 2) && !s.trained d && !s.down
      let good (g : Nat) : List Nat := (List.range 66).filter fun k => !(x.bad.getD g []).contains k &&
        s.laneState (264 * d + 66 * g + k) != 2 && s.laneState (264 * d + 66 * g + k) != 3
      let ok := (List.range 4).all fun g => decide (64 ≤ (good g).length)
      (go = true → ok = true → Completes (.linkTraining d x) s fun t =>
        t.trained d = true ∧ t.fld (Reg.D2D_LAT.L d) = min 14 x.flight + 56) ∧
      (go = true → ok = false → Completes (.linkTraining d x) s fun t => t.trained d = false ∧ t.fld (lineState (d / 2)) = 3 ∧
        t.bit ⟨Reg.FLT_STATUS, 8 + d / 2, 8 + d / 2⟩ = true ∧ (t.ln (d / 2)).power = false) ∧
      (go = false → Completes (.linkTraining d x) s fun t => s.sameBut t faultRegs))

/-- A port's link change is latched into its status at the next phase 2, with LINK_UP or LINK_DOWN where the link changed; so is a
group's lock, with FXG_DEFECT on its loss or a wrong PHY map, and a calendar switch: an acknowledged one swaps both calendars with CAL_SWITCH,
another raises CAL_FAIL (R42); nothing else changes (R500). -/
def Obligations.PortsAndGroups : Prop :=
  ∀ s : State, s.live →
    (∀ (p : Fin 64) (up pcs fec lt : Bool),
      let linkUp := Reg.HST_PORT_STATUS.LINK_UP p
      let shown := [(linkUp, b2n up), (Reg.HST_PORT_STATUS.PCS_LOCK p, b2n pcs), (Reg.HST_PORT_STATUS.FEC_LOCK p, b2n fec),
        (Reg.HST_PORT_STATUS.LT_DONE p, b2n lt)]
      let events := if s.shownBit linkUp = up then [] else [if up then Reg.HST_EVENT.LINK_UP else Reg.HST_EVENT.LINK_DOWN]
      Completes (.portLinkChange p up pcs fec lt) s fun t =>
        ({ s with latQ := s.latQ ++ shown, evQ := s.evQ ++ events } : State).sameBut t wrapRegs ∧ t.shownBit linkUp = up) ∧
    (∀ (g : Fin 16) (lock m : Bool),
      let locked := Reg.HST_FXG_STATUS.LOCK g
      let shown : List (Fr × Nat) := [(locked, b2n lock), (⟨Reg.HST_STATUS, g, g⟩, b2n lock)]
      let events := if (s.shownBit locked && !lock) || !m then [Reg.HST_EVENT.FXG_DEFECT] else []
      Completes (.flexeGroupLockChange g lock m) s fun t =>
        ({ s with latQ := s.latQ ++ shown, evQ := s.evQ ++ events } : State).sameBut t wrapRegs ∧ t.shownBit locked = lock) ∧
    (∀ (g : Fin 16) (v : Word) (u : State), u = s.cleared.startBit (Reg.HST_FXG_CTL.CAL_REQ g) v.toNat →
      let tx := Reg.HST_FXG_STATUS.TX_CAL g
      let rx := Reg.HST_FXG_STATUS.RX_CAL g
      (u.bit (Reg.HST_FXG_CTL.CAL_REQ g) = true → Completes (.flexeCalSwitch g v true) s fun t => t.bit (Reg.HST_FXG_CTL.CAL_REQ g) = false ∧
        ({ u with latQ := u.latQ ++ [(tx, 1 - u.nextLat tx), (rx, 1 - u.nextLat rx)], evQ := u.evQ ++ [Reg.HST_EVENT.CAL_SWITCH] } : State).sameBut t
          (Reg.HST_FXG_CTL g :: wrapRegs) ∧ t.nextLat tx = 1 - u.nextLat tx ∧ t.nextLat rx = 1 - u.nextLat rx) ∧
      (u.bit (Reg.HST_FXG_CTL.CAL_REQ g) = true → Completes (.flexeCalSwitch g v false) s fun t => t.bit (Reg.HST_FXG_CTL.CAL_REQ g) = false ∧
        ({ u with evQ := u.evQ ++ [Reg.HST_EVENT.CAL_FAIL] } : State).sameBut t (Reg.HST_FXG_CTL g :: wrapRegs)) ∧
      (∀ ack, u.bit (Reg.HST_FXG_CTL.CAL_REQ g) = false → Completes (.flexeCalSwitch g v ack) s fun t => u.sameBut t wrapRegs))

/-! ### Protected memory (R368-R371, R376, R378, R381, R383, R492) -/

/-- A read of clean staging lanes returns the stored bytes and changes nothing; one that meets an uncorrectable lane returns its
data poisoned and raises ACC_ERR.  A write of clean lanes leaves the written bytes there and every other byte as it was; the
injection armed for a lane flips exactly its bits, and disarms.  Before the sweep reads return zero and writes are discarded.
Tracker counts halve every DECAY_S seconds, before phase 7 of the tick (R369, R370, R376, R381, R383, R492). -/
def Obligations.StagingMemory : Prop :=
  ∀ s : State,
    (∀ a n ups, s.live → s.pcie.d3hot = false → a + n ≤ stBytes →
      (s.bit Reg.MEM_STATUS.SWEEP_DONE = true → (∀ k ∈ lanesOf a n, s.laneSyn k = 0) → Completes (.bar4Read a n []) s fun t =>
        t.out = [.readData (ofLe ((List.range n).map fun i => s.stByte (a + i))) false] ∧ s.sameBut t wrapRegs) ∧
      (s.bit Reg.MEM_STATUS.SWEEP_DONE = true → (∃ k ∈ lanesOf a n, laneRead (s.laneSyn k) = .uncorr) → Completes (.bar4Read a n []) s fun t =>
        (∃ v, t.out = [.readData v true]) ∧ t.bit Reg.GLB_HOST_EVENT.ACC_ERR = true ∧ t.mem.data = s.mem.data) ∧
      (s.bit Reg.MEM_STATUS.SWEEP_DONE = false → Completes (.bar4Read a n ups) s fun t => t.out = [.readData 0 false] ∧
        t.mem = (s.upsets ups).mem ∧ t.bit Reg.GLB_HOST_EVENT.ACC_ERR = true)) ∧
    (∀ a bs ups, s.live → s.pcie.d3hot = false → a + bs.length ≤ stBytes →
      (s.bit Reg.MEM_STATUS.SWEEP_DONE = true → (∀ k ∈ lanesOf a bs.length, s.laneSyn k = 0) → s.bit Reg.MEM_INJ_CTL.ARM = false →
        Completes (.bar4Write a bs []) s fun t => (∀ i, i < bs.length → t.stByte (a + i) = bs.getD i 0#8) ∧
          ∀ b, b < a ∨ a + bs.length ≤ b → t.stByte b = s.stByte b) ∧
      (∀ k, s.bit Reg.MEM_STATUS.SWEEP_DONE = true → a = 4 * k → bs.length = 4 → s.bit Reg.MEM_INJ_CTL.ARM = true →
        s.fld Reg.MEM_INJ_CTL.INSTANCE = laneInst k → s.fld Reg.MEM_INJ_CTL.LANE = laneSub k → Completes (.bar4Write a bs []) s fun t =>
          t.laneData k = ofLe bs ^^^ s.fld Reg.MEM_INJ_MASK_LO.DATA ∧
          t.laneSyn k = hsiaoCheck (s.fld Reg.MEM_INJ_MASK_LO.DATA) ^^^ s.fld Reg.MEM_INJ_MASK_HI.CHECK ∧
          t.bit Reg.MEM_INJ_CTL.ARM = false ∧ t.bit Reg.MEM_EVENT.INJECTED = true) ∧
      (s.bit Reg.MEM_STATUS.SWEEP_DONE = false → Completes (.bar4Write a bs ups) s fun t => t.out = [] ∧
        t.mem = (s.upsets ups).mem ∧ t.bit Reg.GLB_HOST_EVENT.ACC_ERR = true)) ∧
    (∀ a n bs, s.live → s.pcie.d3hot = true →
      (Completes (.bar4Read a n []) s fun t => t.out = [] ∧ s.sameBut t wrapRegs) ∧ Completes (.bar4Write a bs []) s fun t => s.sameBut t wrapRegs) ∧
    (∀ v : Word, s.live → s.takes Reg.MEM_INJ_CTL v.toNat → Completes (.injectArm v) s fun t =>
      t.reg Reg.MEM_INJ_CTL = writtenWord Reg.MEM_INJ_CTL (s.reg Reg.MEM_INJ_CTL) v ∧ t.mem = s.mem) ∧
    (s.ticking → let d := s.fld Reg.MEM_TRACK_CFG.DECAY_S
      (s.acted = false → d ≠ 0 → s.tick ≠ 0 → s.tick % (d * 1000000) = 0 → s.mem.decayDone ≠ s.tick → Completes .trackerDecay s fun t => ∀ c e, c < 9 → e < 32 →
        t.fld (Reg.MEM_TRACK.COUNT c e) = s.fld (Reg.MEM_TRACK.COUNT c e) / 2 ∧
        (s.fld (Reg.MEM_TRACK.COUNT c e) < 2 → t.reg (Reg.MEM_TRACK c e) = 0)) ∧
      (s.acted = true ∨ d = 0 ∨ s.tick = 0 ∨ s.tick % (d * 1000000) ≠ 0 ∨ s.mem.decayDone = s.tick → Completes .trackerDecay s fun t => s.sameBut t faultRegs))

/-- The records that blocks keep in NVM.  The oldest pending calibration set is written to the older copy of its position, at most
once in 600,000,000 ticks, or SET_WR_FAIL; a repair-log entry goes to the next place, or MAP_WR_FAIL and a retry in 1,000,000
ticks, or REPAIR_FULL; an epoch retry takes up
the next EPOCH, or ends in EPOCH_FAIL (R134, R135, R239,
R378, R436). -/
def Obligations.NvmRecords : Prop :=
  ∀ s : State, s.live →
    (∀ (l : Fin 2) (k : Nat) (rest : List Nat) (x : CalSet), (s.cnv l).pend = k :: rest → (s.cnv l).sets.getD k none = some x → k < 8 →
      (∀ t0, (s.cnv l).lastWr = some t0 → t0 + 600000000 ≤ s.tick) →
      let q := (s.cnv l).seqs.get natZero k
      let copy := if q = 0 then 0 else 1 - (q - 1) % 2
      let seq := if q = 0 then 1 else (q - 1) / 2 + 1
      (Completes (.setWrite l .ok .ok .ok) s fun t => (t.cnv l).pend = rest ∧ t.bit (Reg.CNV_SET.NVM l k) = true ∧
        t.nvmBytes (setAddr l k copy) 4096 = setBytes x l k seq s.fuses.deviceId) ∧
      (∀ n p back, Completes (.setWrite l (.fail n) p back) s fun t => (t.cnv l).pend = k :: rest ∧ t.nvm = s.nvm ∧
        t.bit (Reg.CNV_SET.NVM l k) = false ∧ t.bit (Reg.CNV_EVENT.SET_WR_FAIL l) = true)) ∧
    (∀ (l : Fin 2) e p back, (s.cnv l).pend = [] ∨ (∃ t0, (s.cnv l).lastWr = some t0 ∧ s.tick < t0 + 600000000) →
      Completes (.setWrite l e p back) s fun t => s.sameBut t wrapRegs) ∧
    (∀ qi j, s.mem.mapQ.findIdx? (·.waitUntil.isNone) = some qi → s.mem.mapQ[qi]? = some j →
      let b := padTo 12 j.entry
      (s.mem.mapNext < 8192 → Completes (.repairMapWrite .ok) s fun t => t.mem.mapQ = s.mem.mapQ.eraseIdx qi ∧
        t.mem.mapNext = s.mem.mapNext + 1 ∧ t.nvm = nvmProgram s.nvm (mapAddr s.mem.mapNext) (b ++ leBytes 4 (crc32 b))) ∧
      (∀ n, s.mem.mapNext < 8192 → Completes (.repairMapWrite (.fail n)) s fun t => t.bit Reg.MEM_EVENT.MAP_WR_FAIL = true ∧
        t.mem.mapQ = s.mem.mapQ.set qi { j with waitUntil := some (s.tick + 1000000) } ∧ t.mem.mapNext = s.mem.mapNext + 1) ∧
      (∀ p, 8192 ≤ s.mem.mapNext → Completes (.repairMapWrite p) s fun t => t.bit Reg.CFG_EVENT.REPAIR_FULL = true ∧
        t.mem.mapQ = s.mem.mapQ.eraseIdx qi ∧ t.nvm = s.nvm)) ∧
    (∀ p, s.mem.mapQ.findIdx? (·.waitUntil.isNone) = none → Completes (.repairMapWrite p) s fun t => s.sameBut t wrapRegs) ∧
    (Completes .mapWriteRetry s fun t => ({ s with mem := { s.mem with mapQ := s.mem.mapQ.map (mapAgain s.tick) } } : State).sameBut t wrapRegs) ∧
    (∀ (v : Word) (u : State), u = s.cleared.startBit Reg.CPH_EPOCH_CTL.RETRY v.toNat →
      (∀ i after, u.bit Reg.CPH_EPOCH_CTL.RETRY = true → u.epochMax < 0xFFFFFFFF → u.epochFree ((u.epochRef.map epochNext).getD 0) = some i →
        Completes (.epochRetry v .ok [] after) s fun t => t.bit Reg.CPH_EPOCH_CTL.RETRY = false ∧
          t.fld Reg.CPH_EPOCH.EPOCH = u.epochMax + 1 ∧ t.fld Reg.CPH_EPOCH_STATUS.STATE = 1) ∧
      (∀ r tries after, u.bit Reg.CPH_EPOCH_CTL.RETRY = true → Rd.code r ≠ 0 → Completes (.epochRetry v r tries after) s fun t =>
        t.bit Reg.CPH_EPOCH_CTL.RETRY = false ∧ t.fld Reg.CPH_EPOCH_STATUS.STATE = 2 ∧ t.bit Reg.CPH_EVENT.EPOCH_FAIL = true) ∧
      (∀ r tries after, u.bit Reg.CPH_EPOCH_CTL.RETRY = false → Completes (.epochRetry v r tries after) s fun t => u.sameBut t wrapRegs))

/-! ### The converters (R229-R234, R240, R243) -/

/-- A due pass starts at step 0, and one that is not due does not; a step that ends leads to the next one, or completes the pass with
PASS_DONE at the last step; a spare whose priority step is complete takes the failed slot; at the end of a skew window a unit that
fails for the second window in a row is failed, and every tap moves by its gaps' correlations, at most one; a measured cell takes its
deviation, the one that an observation flit tells where one has come, and fails beyond 32 eighths of a per cent (R230-R234, R240-R244).  None of
it happens once phase 7 of the tick has acted (R30). -/
def Obligations.Converters : Prop :=
  ∀ (s : State) (l : Fin 2), s.working →
    (s.acted = true → (Completes (.passStart l) s fun t => s.sameBut t faultRegs) ∧ (Completes (.calStepEnd l) s fun t => s.sameBut t faultRegs) ∧
      (Completes (.skewWindowEnd l) s fun t => s.sameBut t faultRegs) ∧
      ∀ (d : Fin 4) dev, Completes (.dacCellMeasured l d dev) s fun t => s.sameBut t faultRegs) ∧
    (s.acted = false → (s.passDue l = true → Completes (.passStart l) s fun t => t.bit (Reg.CNV_STATUS.PASS_RUN l) = true ∧ t.fld (Reg.CNV_PASS_INFO.STEP l) = 0 ∧
      t.bit (Reg.CNV_CTL.START l) = false ∧ (t.cnv l).stepTicks = 0 ∧ (t.cnv l).stepLen = s.fld (Reg.CNV_CAL_CFG.STEP_TICKS l) ∧
      s.sameRegs t (Reg.CNV_STATUS l :: Reg.CNV_PASS_INFO l :: Reg.CNV_CTL l :: faultRegs)) ∧
    (s.passDue l = false → Completes (.passStart l) s fun t => s.sameBut t faultRegs) ∧
    ((∀ p ∈ (s.cnv l).prio, p.left ≠ 0) →
      let st := s.fld (Reg.CNV_PASS_INFO.STEP l)
      let u := (List.range 32).foldl (fun (u : State) br => (u.branchStep l st br).openSlots l br) s.cleared
      (s.stepEnds l = true → st + 1 < u.passSteps l → Completes (.calStepEnd l) s fun t => (t.cnv l).stepTicks = 0 ∧
        t.fld (Reg.CNV_PASS_INFO.STEP l) = (st + 1) % 32) ∧
      (s.stepEnds l = true → u.passSteps l ≤ st + 1 → Completes (.calStepEnd l) s fun t => (t.cnv l).stepTicks = 0 ∧
        t.fld (Reg.CNV_PASS_INFO.STEP l) = 0 ∧ t.bit (Reg.CNV_STATUS.PASS_RUN l) = false ∧ t.bit (Reg.CNV_EVENT.PASS_DONE l) = true) ∧
      (s.stepEnds l = false → Completes (.calStepEnd l) s fun t => s.sameBut t faultRegs)) ∧
    (∀ p v, (s.cnv l).prio = [p] → p.left = 0 → p.unit < 576 → s.role l p.unit = 1 ∨ s.role l p.unit = 2 → (s.cnv l).stepValues p.unit = some v →
      s.stepEnds l = false → Completes (.calStepEnd l) s fun t => t.role l p.unit = 0 ∧ t.slot l p.unit = p.slot ∧ (∀ q ∈ (t.cnv l).prio, q.unit ≠ p.unit) ∧
        (t.cnv l).units.get noUnit p.unit = v ∧ t.bit (Reg.CNV_EVENT.SPARE_USED l) = true) ∧
    (s.tick % 256 = 255 → (s.cnv l).winTick ≠ some s.tick → Completes (.skewWindowEnd l) s fun t =>
      (t.cnv l).winTick = some s.tick ∧ (t.cnv l).win = [] ∧
      (s.skewRuns l = true → ∀ br < 32, t.tap l br = if br % 8 = 0 then s.tap l br
        else tapMoved ((s.cnv l).rho (br - 1)) ((s.cnv l).rho br) (s.tap l br)) ∧
      (s.skewRuns l = false → ∀ br < 32, t.tap l br = s.tap l br) ∧
      (∀ i, i < 576 → s.calSuspend l ≠ 1 → s.role l i = 0 → ((s.cnv l).win.get noSums i).n ≠ 0 →
        (s.cnv l).winX.get natZero i ≤ ((s.cnv l).win.get noSums i).n → s.winFails l i = true → (s.cnv l).fails.get natZero i = 1 →
        t.role l i = 3 ∧ t.bit (Reg.CNV_EVENT.ADC_FAIL l) = true)) ∧
    (s.tick % 256 ≠ 255 ∨ (s.cnv l).winTick = some s.tick → Completes (.skewWindowEnd l) s fun t => s.sameBut t faultRegs) ∧
    (∀ (d : Fin 4) cmd, let i := (s.cnv l).cell.getD d 0
      let dev := s.obsDev l d cmd
      (16 ≤ (s.cnv l).cellTicks.getD d 0 → i < 76 → Completes (.dacCellMeasured l d cmd) s fun t =>
        (t.cnv l).cells.get (fun _ => 0) (76 * d + i) = dev ∧ (t.cnv l).cellTicks.getD d 0 = 0 ∧ (t.cnv l).dirty = true ∧
        (32 < dev.natAbs → (t.cnv l).cellBad.get (fun _ => false) (76 * d + i) = true ∧ t.bit (Reg.CNV_EVENT.DAC_FAIL l) = true) ∧
        (dev.natAbs ≤ 32 → (t.cnv l).cellBad = (s.cnv l).cellBad)) ∧
      ((s.cnv l).cellTicks.getD d 0 < 16 ∨ 76 ≤ i → Completes (.dacCellMeasured l d cmd) s fun t => s.sameBut t faultRegs)))

/-! ### The die-to-die links (R287, R292-R302, R305) -/

/-- A correct flit that comes in time is stored for its sequence number, with the resend it asks for, and the bits in which a failed copy
differs from it are counted against the lanes that carried them; a failed first copy is kept and its resend requested; the paired
sender fills its slot, resends before samples before the rest, and sends nothing while it is down or diagnosed; a stored flit is
delivered at its time, samples in the order of their numbers, and one that is missing is erased, counted in its run, with zeros
toward the core, the last intact codes again toward the tile, and a control flit sent anew.  A control write not acknowledged in time is
held until the next frame head (R287, R288, R291, R293-R296). -/
def Obligations.Flits : Prop :=
  ∀ s : State, s.clocked →
    (∀ (j : Fin 64) w (seq : Fin 4096) (x : SendIn),
      let p := subPair j
      let d := (s.sub j).decode w
      let b := d.1
      let y := d.2.2
      let up := s.subLive j
      let kept (q : Nat) (f : FlitSlot) : State := s.setSub j { y with slots := y.slots.set noSlot q (some f) }
      let sends (u : State) : State := (u.sendReady p x).fillSlot p x.bad
      let taken := if y.late (flitSeq b) then s.setSub j y else kept (flitSeq b) ⟨some (flitType b, flitPayload b), none⟩
      let again (n : Nat) : Bool := !(s.snd p).resent.contains n && !(s.snd p).resend.contains n && (s.snd p).replay.any fun f => f.1 == n
      (up = false → Completes (.flitReceived j w seq x) s fun t => (sends s).sameBut t wrapRegs) ∧
      (up = true → d.2.1 = true → y.slots.get noSlot (flitSeq b) = none →
        (flitRq b = none → Completes (.flitReceived j w seq x) s fun t => (sends taken).sameBut t wrapRegs) ∧
        (∀ n, flitRq b = some n → again n = false → Completes (.flitReceived j w seq x) s fun t => (sends taken).sameBut t wrapRegs) ∧
        (∀ n, flitRq b = some n → again n = true → Completes (.flitReceived j w seq x) s fun t =>
          (sends (taken.modSnd p fun z => { z with resend := z.resend ++ [n] })).sameBut t wrapRegs)) ∧
      (∀ f lanes, up = true → d.2.1 = true → y.slots.get noSlot (flitSeq b) = some ⟨none, some (f, lanes)⟩ →
        let wrong := ((bytesBits f).zip (bytesBits b)).zipIdx.filter fun e => e.1.1 != e.1.2
        Completes (.flitReceived j w seq x) s fun t => ∀ k, t.d2d.err.get natZero k =
          (wrong.filter fun e => subBase j + lanes.getD (e.2 % 16) 0 == k).foldl (fun v _ => satAdd 0xFFFF v 1) (s.d2d.err.get natZero k)) ∧
      (up = true → d.2.1 = false → y.slots.get noSlot seq = none →
        (y.late seq = false → Completes (.flitReceived j w seq x) s fun t =>
          (sends ((kept seq ⟨none, some (b, y.map)⟩).modSnd p fun z => { z with ask := z.ask ++ [(seq.val, 2)] })).sameBut t wrapRegs) ∧
        (y.late seq = true → Completes (.flitReceived j w seq x) s fun t => (sends (s.setSub j y)).sameBut t wrapRegs)) ∧
      (up = false → s.trained (p / 16) = true → s.subLive p = true →
        let rq := (s.snd p).ask.head?.map (·.1)
        (∀ q type bs r, (s.snd p).resend = q :: r → ((s.snd p).replay.find? fun f => f.1 == q) = some (q, type, bs) →
          Completes (.flitReceived j w seq x) s fun t => t.out = [.flitSent p (s.sendMap p) (flitMake q type (s.sendEpoch p) rq bs x.bad)]) ∧
        (∀ n bs r, (s.snd p).resend = [] → (s.snd p).smp = (n, bs) :: r → n ≤ (s.snd p).cyc → Completes (.flitReceived j w seq x) s fun t =>
          t.out = [.flitSent p (s.sendMap p) (flitMake (s.snd p).seq 1 (s.sendEpoch p) rq bs false)])) ∧
      (up = false → s.trained (p / 16) = false ∨ s.subLive p = false → Completes (.flitReceived j w seq x) s fun t => t.out = [])) ∧
    (∀ (j : Fin 64) (seq : Fin 4096) (type : Fin 16) bad, let x := s.sub j
      let good := (x.slots.get noSlot seq).bind FlitSlot.good
      let usable := s.subLive j && !bad && !s.retrains j
      let was : Nat := match (s.snd j).replay.find? fun p => p.1 == seq.val with | some p => p.2.1 | none => type
      let filled := if j.val / 16 % 2 = 1 then List.replicate 120 0#8 else s.d2d.dac.get (fun _ => []) (4 * (j / 32) + j / 4 % 4)
      let wait := s.d2d.wait.get (fun _ => []) (j / 4)
      let turn := s.d2d.smp.get natZero (j / 4)
      let next := 4 * x.num + j % 4 = turn ∧ ∀ p ∈ wait, p.1 ≠ turn
      let held := 4 * x.num + j % 4 ≠ turn ∧ ∀ p ∈ wait, p.1 ≠ turn
      (s.trained (j / 16) = false → Completes (.flitDelivery j seq type bad) s fun t => s.sameBut t wrapRegs) ∧
      (∀ g, s.trained (j / 16) = true → good = some g → usable = true → Completes (.flitDelivery j seq type bad) s fun t => (t.sub j).run = 0 ∧
        (t.sub j).slots.get noSlot seq = none ∧ (t.sub j).last = some seq.val ∧ (g.1 = 0 → t.out = []) ∧
        (2 ≤ g.1 → [Out.flit j g.2 false] <+: t.out) ∧
        (g.1 = 1 → (t.sub j).num = x.num + 1 ∧ (next → [Out.flit j g.2 false] <+: t.out) ∧ (held → t.out = []))) ∧
      (s.trained (j / 16) = true → good = none ∨ usable = false → Completes (.flitDelivery j seq type bad) s fun t =>
        (t.sub j).run = min 64 (x.run + 1) ∧ (t.sub j).slots.get noSlot seq = none ∧ (t.sub j).last = some seq.val ∧
        (was = 1 → (t.sub j).num = x.num + 1 ∧ (next → [Out.flit j filled true] <+: t.out) ∧ (held → t.out = [])) ∧ (was ≠ 1 → t.out = []) ∧
        (∀ c, was = 3 → (s.snd j).sentAt seq = some c → (t.snd (s.carrier (j / 16) (j / 4 % 4))).ctl.getLast? = some c) ∧
        (was = 1 → s.d2d.eraTick ≠ some s.tick → Reg.D2D_EVENT.ERASURE ∈ t.evQ))) ∧
    (∀ l : Fin 2,
      let late := s.ctlOpen l && !(s.ln l).cnv.due.isEmpty && !(s.ln l).ctlHeld
      (late = true → Completes (.ctlLate l) s fun t =>
        ({ (s.modLn l fun x => { x with ctlHeld := true }) with evQ := s.evQ ++ [Reg.D2D_EVENT.CTL_LATE] } : State).sameBut t wrapRegs) ∧
      (late = false → Completes (.ctlLate l) s fun t => s.sameBut t wrapRegs))

/-- Before a commit takes effect in the tick: a lane that fails hard is recorded as failed; a lane over ERR_THR at the end of a
window becomes suspect, or failed the second time; both wait for the tick's phase 6, which gives an active one's position to the group's first
usable spare from the next boundary on, or takes its sub-link down; a diagnosis of a sub-link that is up starts at the next boundary
after 64 erased flits, ends 20 ticks later, and fails the lanes that showed an error; a group whose elastic store faulted retrains from the
next tick on, within 22 ticks.  After one has taken effect, these decisions wait for the next tick (R33, R296-R302, R305). How long a
group retrains is free within its bound (log 66). -/
def Obligations.Lanes : Prop :=
  ∀ s : State, s.working →
    (s.acted = true → (∀ k : Fin 1056, Completes (.laneHardFail k) s fun t => s.sameBut t faultRegs) ∧
      (Completes .laneErrWindowEnd s fun t => s.sameBut t faultRegs) ∧
      (∀ j : Fin 64, (Completes (.diag j) s fun t => s.sameBut t faultRegs) ∧ ∀ bad, Completes (.diagDone j bad) s fun t => s.sameBut t faultRegs) ∧
      (∀ g : Fin 16, Completes (.latFault g) s fun t => s.sameBut t faultRegs)) ∧
    (s.acted = false →
    (∀ k : Fin 1056,
      let fails := s.trained (k / 264) && s.laneState k != 3
      (fails = false → Completes (.laneHardFail k) s fun t => s.sameBut t faultRegs) ∧
      (fails = true → Completes (.laneHardFail k) s fun t => t.laneState k = 3 ∧
        t.bit Reg.D2D_EVENT.LANE_FAILED = true ∧ t.d2d.laneDue = s.d2d.laneDue ++ [k.val])) ∧
    (∀ k : Fin 1056, s.d2d.laneDue = [k.val] → s.laneUsed k = true → s.bit Reg.D2D_CTL.AUTO_SPARE = true →
      let p := s.lanePos k
      let u := 4 * (k / 66) + p / 16
      let t := s.replaceLanes
      t.d2d.laneDue = [] ∧
      (∀ sp rest, s.groupSpares (k / 66 * 66) = sp :: rest → t.laneState sp = 0 ∧ t.lanePos sp = p ∧
        t.nextFld (Reg.D2D_SUB.EPOCH u) = ((s.sub u).latest.1 + 1) % 8 ∧ (t.sub u).latest.2 = (s.sub u).latest.2.set (p % 16) (sp - k / 66 * 66) ∧
        t.bit Reg.D2D_EVENT.LANE_SPARED = true) ∧
      (s.groupSpares (k / 66 * 66) = [] → t.nextFld (Reg.D2D_SUB.UP u) ≠ 1)) ∧
    (s.d2d.winFrom + s.fld Reg.D2D_ERR_WIN.WIN ≤ s.tick → Completes .laneErrWindowEnd s fun t => t.d2d.winFrom = s.tick ∧
      t.d2d.err = [] ∧ ∀ k, k < 1056 → (s.d2d.err.get natZero k ≠ 0 → t.nextFld (Reg.D2D_LANE.ERR k) = 0) ∧
        (s.laneState k = 0 → s.fld Reg.D2D_CTL.ERR_THR < s.d2d.err.get natZero k →
          t.laneState k = (if s.d2d.was.get (fun _ => false) k then 3 else 2) ∧ t.bit Reg.D2D_EVENT.SUSPECT = true ∧ k ∈ t.d2d.laneDue) ∧
        (s.laneState k ≠ 0 ∨ s.d2d.err.get natZero k ≤ s.fld Reg.D2D_CTL.ERR_THR → t.laneState k = s.laneState k)) ∧
    (s.tick < s.d2d.winFrom + s.fld Reg.D2D_ERR_WIN.WIN → Completes .laneErrWindowEnd s fun t => s.sameBut t faultRegs) ∧
    (∀ j : Fin 64,
      let go := decide (64 ≤ (s.sub j).run) && s.bit (Reg.D2D_SUB.UP j) && s.nextFld (Reg.D2D_SUB.DIAG j) == 0 && !s.subSick j
      let ends := s.bit (Reg.D2D_SUB.DIAG j) && s.nextFld (Reg.D2D_SUB.DIAG j) == 1 && decide ((s.sub j).diagFrom + 20 ≤ s.tick)
      (go = true → Completes (.diag j) s fun t =>
        ((s.publish (Reg.D2D_SUB.DIAG j) 1).setSub j { s.sub j with diagFrom := s.tick + 1 }).sameBut t (Reg.D2D_EVENT :: faultRegs) ∧
        t.bit Reg.D2D_EVENT.DIAG = true) ∧
      (go = false → Completes (.diag j) s fun t => s.sameBut t faultRegs) ∧
      (∀ bad, ends = true → Completes (.diagDone j bad) s fun t =>
        t.nextFld (Reg.D2D_SUB.DIAG j) = 0 ∧ (t.sub j).run = 0 ∧ ∀ p ∈ (s.sub j).map, p < 66 → p ∈ bad → t.laneState (subBase j + p) = 3) ∧
      (∀ bad, ends = false → Completes (.diagDone j bad) s fun t => s.sameBut t faultRegs)) ∧
    (∀ g : Fin 16,
      (s.trained (g / 4) = true → Completes (.latFault g) s fun t => ∃ e, s.tick + 1 < e ∧ e ≤ s.tick + 23 ∧
        t.d2d.retrain.get (fun _ => (0, 0)) g = (s.tick + 1, e) ∧ t.bit Reg.D2D_EVENT.LAT_FAULT = true) ∧
      (s.trained (g / 4) = false → Completes (.latFault g) s fun t => s.sameBut t faultRegs)))

/-! ### The Rime channel (R315-R333) -/

/-- A sync word close enough, where the correlation is the largest within 64 samples, makes an active packet or a candidate, and one stronger by
CAPTURE takes over the active packet; a good header begins the body and ends the candidate, a bad one promotes it; a packet with a wrong CRC, or unauthenticated where
authentication is required, is dropped; a good one makes its sender a neighbour heard now (R315-R319, R329). -/
def Obligations.RimeReception : Prop :=
  ∀ (s : State) (k : Fin 2) (c : Fin 8), s.live →
    let x := s.rp k
    (∀ bits level corr,
      let on := s.bit Reg.RIM_CTL.EN && s.bit (Reg.RIM_PORT_CFG.RX_EN k) && corrPeak corr && decide (popCount 32 (bits ^^^ 0xE3D42B9C) ≤ s.fld Reg.RIM_CTL.SYNC_ERR)
      let new : RimeRx := ⟨level, corr.getD 64 0 / 256, none⟩
      let louder (a : RimeRx) := decide (level + 2 * s.fld Reg.RIM_CTL.CAPTURE ≤ a.level)
      let cand : State := s.setRp k { x with cand := x.cand.set noRx c (some new) }
      (on = false → Completes (.rimeSyncDetect k c bits level corr) s fun t => s.sameBut t wrapRegs) ∧
      (on = true → x.act.get noRx c = none → Completes (.rimeSyncDetect k c bits level corr) s fun t =>
        (s.setRp k { x with act := x.act.set noRx c (some new) }).sameBut t wrapRegs) ∧
      (∀ a, on = true → x.act.get noRx c = some a →
        (louder a = true → Completes (.rimeSyncDetect k c bits level corr) s fun t =>
          (s.setRp k { x with act := x.act.set noRx c (some new), cand := x.cand.set noRx c none }).sameBut t wrapRegs) ∧
        (louder a = false → a.hdr.isSome = true → Completes (.rimeSyncDetect k c bits level corr) s fun t => s.sameBut t wrapRegs) ∧
        (louder a = false → a.hdr = none → x.cand.get noRx c = none → Completes (.rimeSyncDetect k c bits level corr) s fun t => cand.sameBut t wrapRegs) ∧
        (∀ q, louder a = false → a.hdr = none → x.cand.get noRx c = some q → Completes (.rimeSyncDetect k c bits level corr) s fun t =>
          (if level < q.level then cand else s).sameBut t wrapRegs))) ∧
    (∀ h, (∀ a, x.act.get noRx c = some a → a.hdr.isSome = true ∨ h.length ≠ 6) → Completes (.rimeHeaderEnd k c h) s fun t => s.sameBut t wrapRegs) ∧
    (∀ a h, x.act.get noRx c = some a → a.hdr = none → h.length = 6 →
      let good := ofBe (h.drop 5) == rimHcrc (h.take 5) && decide (ofBe ((h.drop 1).take 1) ≤ 240)
      (good = true → Completes (.rimeHeaderEnd k c h) s fun t =>
        (s.setRp k { x with act := x.act.set noRx c (some { a with hdr := some h }), cand := x.cand.set noRx c none }).sameBut t wrapRegs) ∧
      (good = false → Completes (.rimeHeaderEnd k c h) s fun t =>
        (s.setRp k { x with act := x.act.set noRx c (x.cand.get noRx c), cand := x.cand.set noRx c none }).sameBut t wrapRegs)) ∧
    (∀ body evm, (∀ a, x.act.get noRx c = some a → a.hdr = none) → Completes (.rimeTrailerEnd k c body evm) s fun t => s.sameBut t wrapRegs) ∧
    (∀ a h body evm, x.act.get noRx c = some a → a.hdr = some h →
      let len := ofBe ((h.drop 1).take 1)
      let b0 := ofBe (h.take 1)
      let full := body.take len
      let src := ofBe ((h.drop 2).take 2)
      let crcOk := body.length == len + 4 && ofBe (body.drop len) == crc32 (h ++ full)
      let ended := s.setRp k { x with act := x.act.set noRx c none, bodyEnd := x.bodyEnd.set (fun _ => 0) c (s.tick + 4) }
      (crcOk = false → Completes (.rimeTrailerEnd k c body evm) s fun t => ended.sameBut t wrapRegs) ∧
      (crcOk = true → b0 < 128 → rimLenOk b0 false full = true → src ≠ s.fld Reg.RIM_ID.SHORT_ID →
        (s.bit Reg.RIM_CTL.REQUIRE_AUTH = true → Completes (.rimeTrailerEnd k c body evm) s fun t => ended.sameBut t wrapRegs) ∧
        (s.bit Reg.RIM_CTL.REQUIRE_AUTH = false → Completes (.rimeTrailerEnd k c body evm) s fun t => ∃ n, n < 256 ∧
          t.bit (Reg.RIM_NB_0.VALID n) = true ∧ t.fld (Reg.RIM_NB_0.SRC n) = src ∧ t.fld (Reg.RIM_NB_0.PORT n) = k ∧
          t.fld (Reg.RIM_NB_0.CHANNEL n) = c ∧ t.bit (Reg.RIM_NB_0.AUTH n) = false ∧ t.nbHeard n = s.tick)) ∧
      (crcOk = true → 128 ≤ b0 → 8 ≤ len → rimLenOk (b0 % 128) true (full.take (len - 8)) = true → src ≠ s.fld Reg.RIM_ID.SHORT_ID →
        Completes (.rimeTrailerEnd k c body evm) s fun t => ∃ r, t.cph.rimeQ = s.cph.rimeQ ++ [r] ∧ r.sign = false ∧
          r.msg = h.take 5 ++ full.take (len - 8) ∧ r.mac = full.drop (len - 8)))

/-- A signature done is the current packet's; a code that verifies makes its sender a neighbour, and one that does not is dropped with
AUTH_FAIL; a request 10,000 ticks old is given up with AUTH_TIMEOUT; a neighbour with no delivered packet for 10,000,000 ticks is
removed with NEIGH_LOST, and no other is (R327, R328, R332). -/
def Obligations.RimeAuthentication : Prop :=
  ∀ s : State, s.live →
    ((∀ r, s.cph.running = some r → r.queue ≠ 2) → Completes .rimeAuthDone s fun t => s.sameBut t wrapRegs) ∧
    (∀ r, s.cph.running = some r → r.queue = 2 →
      let usable := r.status.isNone && (s.keyUsage r.slot == 3 || s.keyUsage r.slot == 4)
      let mac := (aesCmac (s.key r.slot) r.got).take 8
      (∀ k, r.rimeSign = true → s.rimSigner r.rimeId = some k →
        (usable = true → Completes .rimeAuthDone s fun t => (t.rp k).sig = .done mac ∧ (t.rp k).cur = (s.rp k).cur ∧ t.cph.running = none) ∧
        (usable = false → Completes .rimeAuthDone s fun t => (t.rp k).cur = none ∧ t.cph.running = none ∧ t.bit Reg.RIM_EVENT.AUTH_FAIL = true)) ∧
      (∀ v, r.rimeSign = false → s.rim.verify.find? (fun v => v.1 == r.rimeId) = some v →
        ((usable && mac == r.iv) = true → v.2.1.port < 2 → Completes .rimeAuthDone s fun t => t.cph.running = none ∧
          t.rim.verify = s.rim.verify.filter (fun w => w.1 != r.rimeId) ∧
          ∃ n, n < 256 ∧ t.bit (Reg.RIM_NB_0.VALID n) = true ∧ t.fld (Reg.RIM_NB_0.SRC n) = v.2.1.src ∧ t.nbHeard n = s.tick) ∧
        ((usable && mac == r.iv) = false → Completes .rimeAuthDone s fun t => t.cph.running = none ∧
          t.rim.verify = s.rim.verify.filter (fun w => w.1 != r.rimeId) ∧ t.bit Reg.RIM_EVENT.AUTH_FAIL = true ∧
          ∀ n, n < 256 → t.reg (Reg.RIM_NB_0 n) = s.reg (Reg.RIM_NB_0 n)))) ∧
    (Completes .authTimeout s fun t => (∀ r ∈ t.cph.rimeQ, s.tick < r.made + 10000) ∧
      ((∃ r ∈ s.cph.rimeQ, r.made + 10000 ≤ s.tick ∧ s.rimSigner r.id = none ∧ s.rim.verify.any (fun v => v.1 == r.id) = true) →
        t.bit Reg.RIM_EVENT.AUTH_TIMEOUT = true) ∧
      ((∀ r ∈ s.cph.rimeQ, s.tick < r.made + 10000) → (∀ r, s.cph.running = some r → r.queue = 2 → s.tick < r.len + 10000) → s.sameBut t wrapRegs)) ∧
    (Completes .neighLost s fun t => ∀ n, n < 256 →
      (s.bit (Reg.RIM_NB_0.VALID n) = true → s.nbHeard n + 10000000 ≤ s.tick → t.bit (Reg.RIM_NB_0.VALID n) = false ∧ t.bit Reg.RIM_EVENT.NEIGH_LOST = true) ∧
      (s.bit (Reg.RIM_NB_0.VALID n) = false ∨ s.tick < s.nbHeard n + 10000000 → t.reg (Reg.RIM_NB_0 n) = s.reg (Reg.RIM_NB_0 n)))

/-- A port that meets an idle channel long enough sends its current packet, signed where AUTH_EN is 1; a packet of better priority
goes first; a busy channel costs the packet an encounter and a drawn backoff, and the sixteenth drops it; a packet leaves the port when its air
time is over; one that has waited 1,000,000 ticks is dropped; IDENTITY, CONFIG_VER and ALARM packets join the queue when they
are due, and an ALARM that finds it full takes the place of the oldest of its lowest priority (R312, R320, R321, R323, R325, R327).
Backoffs and intervals are free draws (log 73). -/
def Obligations.RimeSending : Prop :=
  ∀ (s : State) (k : Fin 2), s.live →
    let x := s.rp k
    let auth := s.bit Reg.RIM_CTL.AUTH_EN
    (∀ power noise idle,
      (s.rimCan k = false ∨ x.onAir = true ∨ (x.cur = none ∧ x.queue = []) → Completes (.rimeBackoffEnd k power noise idle) s fun t => s.sameBut t wrapRegs) ∧
      (s.rimCan k = true → x.onAir = false → x.cur = none → x.queue ≠ [] → auth = true → Completes (.rimeBackoffEnd k power noise idle) s fun t =>
        (t.rp k).cur.isSome = true ∧ t.cph.rimeQ.length = s.cph.rimeQ.length + 1) ∧
      (∀ p q, s.rimCan k = true → x.onAir = false → x.cur = some p → q ∈ x.queue → q.pri < p.pri → auth = true →
        Completes (.rimeBackoffEnd k power noise idle) s fun t => p ∈ (t.rp k).queue ∧ ∃ r ∈ x.queue, (t.rp k).cur = some r ∧ r.pri ≤ q.pri) ∧
      (∀ p, s.rimCan k = true → x.onAir = false → x.cur = some p → (∀ q ∈ x.queue, p.pri ≤ q.pri) →
        let ready := !auth || (match x.sig with | .done _ => true | _ => false)
        let gap := if p.busy = 0 then 32 else 64 * p.slots
        let bs := rimBytes (s.rimHead5 k p) p.payload (match auth, x.sig with | true, .done m => m | _, _ => [])
        (auth = true → x.sig = .none → Completes (.rimeBackoffEnd k power noise idle) s fun t => (t.rp k).cur = some p ∧ (t.rp k).queue = x.queue ∧
          ∃ r, t.cph.rimeQ = s.cph.rimeQ ++ [r] ∧ r.sign = true ∧ r.msg = s.rimHead5 k p ++ p.payload ∧ (t.rp k).sig = .asked r.id) ∧
        (∀ id, auth = true → x.sig = .asked id → Completes (.rimeBackoffEnd k power noise idle) s fun t => s.sameBut t wrapRegs) ∧
        (ready = true → s.rimBusy k power noise = false → gap ≤ idle → Completes (.rimeBackoffEnd k power noise idle) s fun t =>
          t.out = [.rime k bs] ∧ (t.rp k).onAir = true ∧ (t.rp k).air = bs ∧ (t.rp k).airAt = s.tick ∧ (t.rp k).seq = (x.seq + 1) % 256) ∧
        (ready = true → s.rimBusy k power noise = false → idle < gap → Completes (.rimeBackoffEnd k power noise idle) s fun t => s.sameBut t wrapRegs) ∧
        (ready = true → s.rimBusy k power noise = true → p.busy < 15 → Completes (.rimeBackoffEnd k power noise idle) s fun t => ∃ q, (t.rp k).cur = some q ∧ q.busy = p.busy + 1 ∧
          q.payload = p.payload ∧ q.slots < 2 ^ (min (p.busy + 1) (s.fld Reg.RIM_TIMING.BACKOFF_MAX) + 3)) ∧
        (ready = true → s.rimBusy k power noise = true → 15 ≤ p.busy → Completes (.rimeBackoffEnd k power noise idle) s fun t => (t.rp k).cur = none ∧
          t.bit Reg.RIM_EVENT.TX_DROP = true))) ∧
    (x.onAir = true → x.airAt + x.airTime ≤ s.tick → Completes (.rimePacketSent k) s fun t =>
      (s.setRp k { x with cur := none, sig := .none, onAir := false, air := [] }).sameBut t (Reg.RIM_STATUS :: wrapRegs)) ∧
    (x.onAir = false ∨ s.tick < x.airAt + x.airTime → Completes (.rimePacketSent k) s fun t => s.sameBut t wrapRegs) ∧
    (Completes (.rimeQueueExpiry k) s fun t => (t.rp k).queue = x.queue.filter (fun p => decide (s.tick < p.made + 1000000)) ∧
      (∀ p, x.cur = some p → (t.rp k).cur = if p.made + 1000000 ≤ s.tick ∧ x.onAir = false then none else some p) ∧
      (x.queue.any (fun p => decide (p.made + 1000000 ≤ s.tick)) = true → t.bit Reg.RIM_EVENT.TX_DROP = true)) ∧
    (∀ t0, x.idDue = some t0 → t0 ≤ s.tick → x.depth < 16 → let p := s.fld Reg.RIM_TIMING.ID_PERIOD * 500000
      Completes (.identityDue k) s fun t => (t.rp k).queue = x.queue ++ [s.rimPkt 1 3 (s.rimIdentity k)] ∧
        ∃ d, p * 3 / 4 ≤ d ∧ d ≤ p * 3 / 4 + p / 2 ∧ (t.rp k).idDue = some (s.tick + d)) ∧
    ((∀ t0, x.idDue = some t0 → s.tick < t0) → Completes (.identityDue k) s fun t => s.sameBut t wrapRegs) ∧
    (x.cvLeft ≠ 0 → x.cvDue ≤ s.tick → x.depth < 16 → Completes (.configVerDue k) s fun t => (t.rp k).cvLeft = x.cvLeft - 1 ∧
      (t.rp k).cvDue = s.tick + 1000000 ∧ (t.rp k).queue = x.queue ++ [s.rimPkt 2 1 s.rimConfigVer]) ∧
    (x.cvLeft = 0 ∨ s.tick < x.cvDue → Completes (.configVerDue k) s fun t => s.sameBut t wrapRegs) ∧
    (∀ i a, x.alarms.findIdx? (fun a => decide (a.2.2 ≤ s.tick)) = some i → x.alarms[i]? = some a → x.depth < 16 → Completes (.alarmDue k) s fun t =>
      (t.rp k).queue = x.queue ++ [s.rimPkt 3 0 (rimAlarm a.1)] ∧
      (t.rp k).alarms = (if a.2.1 ≤ 1 then x.alarms.eraseIdx i else x.alarms.set i (a.1, a.2.1 - 1, s.tick + 500000))) ∧
    (∀ i a, x.alarms.findIdx? (fun a => decide (a.2.2 ≤ s.tick)) = some i → x.alarms[i]? = some a → x.cur = none → 16 ≤ x.queue.length →
      Completes (.alarmDue k) s fun t => t.bit Reg.RIM_EVENT.TX_DROP = true ∧
        (worstPri x.queue = 0 → (t.rp k).queue = x.queue) ∧
        (∀ j, 0 < worstPri x.queue → x.queue.findIdx? (fun p => p.pri == worstPri x.queue) = some j →
          (t.rp k).queue = x.queue.eraseIdx j ++ [s.rimPkt 3 0 (rimAlarm a.1)])) ∧
    (x.alarms.findIdx? (fun a => decide (a.2.2 ≤ s.tick)) = none → Completes (.alarmDue k) s fun t => s.sameBut t wrapRegs)

/-- START queues a TRACE_REQ on the named port, or drops it when that port does not send; a reply that is due goes out on each sending port;
TRACE_DONE ends the trace; a submitted transmit ring is taken up to its write index, or not at all while it is disabled (R326, R333). -/
def Obligations.RimeTracing : Prop :=
  ∀ s : State, s.live →
    (∀ (v : Word) (u : State), s.takes Reg.RIM_TRACE_CTL v.toNat → u = s.stored Reg.RIM_TRACE_CTL v.toNat → u.bit Reg.RIM_TRACE_CTL.START = true →
      let k := u.fld Reg.RIM_TRACE_CTL.PORT
      (u.rimTx k = true → (u.rp k).depth < 16 → Completes (.traceReq v) s fun t =>
        (t.rp k).queue = (u.rp k).queue ++ [u.rimPkt 4 4 (beBytes 2 (u.fld Reg.RIM_TRACE_CTL.TRACE_ID) ++ [0#8, 0#8])]) ∧
      (u.rimTx k = false → Completes (.traceReq v) s fun t => t.bit Reg.RIM_TRACE_CTL.START = false ∧ t.bit Reg.RIM_EVENT.TX_DROP = true ∧
        (t.rp 0).queue = (s.rp 0).queue ∧ (t.rp 1).queue = (s.rp 1).queue)) ∧
    (Completes .traceReplyDue s fun t => t.rim.replies = s.rim.replies.filter (fun r => decide (s.tick < r.due)) ∧
      (∀ r, s.rim.replies.filter (fun r => decide (r.due ≤ s.tick)) = [r] → ∀ k : Fin 2, s.rimTx k = true → (s.rp k).depth < 16 →
        (t.rp k).queue = (s.rp k).queue ++ [s.rimPkt 5 2 (beBytes 2 r.id ++ beBytes 2 r.src ++ [BitVec.ofNat 8 r.level, BitVec.ofNat 8 r.peak] ++
          beBytes 2 r.evm ++ [BitVec.ofNat 8 k, 0#8])]) ∧
      ((∀ r ∈ s.rim.replies, s.tick < r.due) → s.sameBut t wrapRegs)) ∧
    (∀ t0, s.rim.traceEnd = some t0 → t0 ≤ s.tick → Completes .traceDone s fun t => t.rim.traceEnd = none ∧
      t.bit Reg.RIM_TRACE_CTL.ACTIVE = false ∧ t.bit Reg.RIM_EVENT.TRACE_DONE = true) ∧
    ((∀ t0, s.rim.traceEnd = some t0 → s.tick < t0) → Completes .traceDone s fun t => s.sameBut t wrapRegs) ∧
    (∀ v : Word, s.takes Reg.RIM_TX_WR v.toNat → let size := 2 ^ s.fld Reg.RIM_RING_CFG.TX_LOG2
      Completes (.rimeRingSubmit v) s fun t => t.reg Reg.RIM_TX_WR = writtenWord Reg.RIM_TX_WR (s.reg Reg.RIM_TX_WR) v ∧
        (s.bit Reg.RIM_RING_CFG.TX_EN = true → t.fld Reg.RIM_TX_RD.IDX % size = t.fld Reg.RIM_TX_WR.IDX % size) ∧
        (s.bit Reg.RIM_RING_CFG.TX_EN = false → t.reg Reg.RIM_TX_RD = s.reg Reg.RIM_TX_RD))

/-! ### Timing (R339-R357, R364) -/

/-- An input whose conditions have held for its time is qualified, and whatever is selected then is a qualified input; a dispute calm for 10 s is
over; while the DPLL slews, its output moves by at most FSLEW a tick unless it acquires from FREERUN, and it locks when the output has
reached the selected input's frequency; once a commit has taken effect in the tick these decisions wait for the next; a second's record
joins the holdover records (R33, R339-R342, R345, R348, R350). -/
def Obligations.References : Prop :=
  ∀ s : State,
    (s.ticking → s.acted = true → (∀ i : Fin 14, Completes (.qual i) s fun t => s.sameBut t faultRegs) ∧
      (Completes .disputeClear s fun t => s.sameBut t faultRegs) ∧ Completes .locked s fun t => s.sameBut t faultRegs) ∧
    (∀ i : Fin 14, s.deciding → let x := s.refIn i
      (x.qualified = false → x.rank ≠ 0 → s.refWait i < x.held → Completes (.qual i) s fun t => t.bit Reg.CLK_EVENT.QUAL = true ∧
        ∀ j, t.clk.sel = some j → (t.refIn j).qualified = true) ∧
      (x.qualified = true ∨ x.rank = 0 ∨ x.held ≤ s.refWait i → Completes (.qual i) s fun t => s.sameBut t faultRegs)) ∧
    (s.deciding → Completes .disputeClear s fun t =>
      t.clk = { s.clk with disputes := s.clk.disputes.filter fun d => decide (d.calm < 10000000) } ∧ s.sameRegs t faultRegs) ∧
    (∀ i x, s.dpll = 2 → s.clk.pub = some i → let c := s.dpllMove x
      c.there = (c.out == s.refFreq i) ∧ (s.clk.first = true → c.there = true) ∧
      (s.clk.first = false → (c.out - s.clk.out).natAbs ≤ s.fld Reg.CLK_QUAL.FSLEW ∧
        ((s.refFreq i - s.clk.out).natAbs ≤ s.fld Reg.CLK_QUAL.FSLEW → c.there = true))) ∧
    (s.deciding →
      let go := s.dpll == 2 && s.clk.pub.isSome && s.clk.there
      (go = true → Completes .locked s fun t =>
        ({ s with clk := { s.clk with phase := 0, integ := s.clk.out * 2 ^ 96, first := false, there := false } } : State).sameBut t
          (Reg.CLK_STATUS :: Reg.GLB_TICK_STATUS :: Reg.CLK_EVENT :: faultRegs) ∧
        t.dpll = 1 ∧ t.bit Reg.GLB_TICK_STATUS.TB_LOCKED = true ∧ t.bit Reg.GLB_TICK_STATUS.HOLDOVER = false ∧ t.bit Reg.CLK_EVENT.LOCKED = true) ∧
      (go = false → Completes .locked s fun t => s.sameBut t faultRegs)) ∧
    (∀ r, s.ticking → s.clk.due = some r → Completes .holdoverRecord s fun t => t.clk = { s.clk with due := none, recs := (r :: s.clk.recs).take 65 } ∧
      s.sameRegs t faultRegs) ∧
    (s.ticking → s.clk.due = none → Completes .holdoverRecord s fun t => s.sameBut t faultRegs) ∧
    (∀ v : Word, s.live → s.takes Reg.CLK_NUM_FREQ v.toNat → Completes (.numFreqWrite v) s fun t =>
      t.reg Reg.CLK_NUM_FREQ = writtenWord Reg.CLK_NUM_FREQ (s.reg Reg.CLK_NUM_FREQ) v ∧ t.clk = s.clk)

/-- Each of the four compare units fires once the counter has reached its value as a signed 64-bit difference: it raises its event and
clears ARM, and an unarmed one never fires; arming one stores its control.  An armed step or load changes the counter as it says
at the boundary that starts its tick, and is told in that tick; one armed for a tick that has passed is rejected. -/
def Obligations.TimeCounter : Prop :=
  ∀ s : State,
    (∀ (k : Fin 4) cyc, s.live →
      let d := sx 64 (twos 64 ((s.nowNs cyc : Int) - s.reg64 (Reg.TIM_CMP_LO k) (Reg.TIM_CMP_HI k)))
      (s.bit (Reg.TIM_CMP_CTL.ARM k) = true → 0 ≤ d → Completes (.cmp k cyc) s fun t => s.sameBut t (Reg.TIM_CMP_CTL k :: Reg.TIM_EVENT :: wrapRegs) ∧
        t.bit (Reg.TIM_CMP_CTL.ARM k) = false ∧ t.bit ⟨Reg.TIM_EVENT, 9 + k, 9 + k⟩ = true) ∧
      (s.bit (Reg.TIM_CMP_CTL.ARM k) = false ∨ d < 0 → Completes (.cmp k cyc) s fun t => s.sameBut t wrapRegs)) ∧
    (∀ (k : Fin 4) (v : Word), s.live → s.takes (Reg.TIM_CMP_CTL k) v.toNat → Completes (.compareArm k v) s fun t =>
      t.reg (Reg.TIM_CMP_CTL k) = writtenWord (Reg.TIM_CMP_CTL k) (s.reg (Reg.TIM_CMP_CTL k)) v ∧ s.sameRegs t (Reg.TIM_CMP_CTL k :: wrapRegs)) ∧
    (s.live → let late := decide (s.reg64 Reg.TIM_ACT_TICK_LO Reg.TIM_ACT_TICK_HI ≤ s.tick)
      (s.takes Reg.TIM_ADJ_CTL 1 → Completes .timeStepArm s fun t => t.bit Reg.TIM_ADJ_CTL.STEP = !late ∧ t.bit Reg.TIM_ADJ_CTL.SET = false ∧
        (late = true → t.bit Reg.TIM_EVENT.ADJ_REJECT = true) ∧ t.time = s.time) ∧
      (s.takes Reg.TIM_ADJ_CTL 2 → Completes .timeLoadArm s fun t => t.bit Reg.TIM_ADJ_CTL.SET = !late ∧ t.bit Reg.TIM_ADJ_CTL.STEP = false ∧
        (late = true → t.bit Reg.TIM_EVENT.ADJ_REJECT = true) ∧ t.time = s.time)) ∧
    (let act := s.reg64 Reg.TIM_ACT_TICK_LO Reg.TIM_ACT_TICK_HI
      let t := s.adjApply
      (s.adjDue = true → t.bit Reg.TIM_ADJ_CTL.STEP = false ∧ t.bit Reg.TIM_ADJ_CTL.SET = false ∧ t.tim.done = some (act != s.tick) ∧
        (s.bit Reg.TIM_ADJ_CTL.STEP = true →
          t.time = (((s.time : Int) + sx 32 (s.fld Reg.TIM_STEP_NS.STEP) * (2 ^ 32 : Nat)) % (2 ^ 96 : Nat)).toNat) ∧
        (s.bit Reg.TIM_ADJ_CTL.STEP = false → t.time = s.reg64 Reg.TIM_SET_LO Reg.TIM_SET_HI * 2 ^ 32)) ∧
      (s.adjDue = false → t = s)) ∧
    (s.ticking →
      (∀ late, s.tim.done = some late → Completes .adjDone s fun t => t.tim = { s.tim with done := none } ∧ t.time = s.time ∧
        t.bit Reg.TIM_EVENT.ADJ_DONE = true ∧ (late = true → t.bit Reg.GLB_TICK_EVENT.LATE_ACTION = true) ∧
        s.sameRegs t (Reg.TIM_EVENT :: Reg.GLB_TICK_EVENT :: faultRegs)) ∧
      (s.tim.done = none → Completes .adjDone s fun t => s.sameBut t faultRegs))

/-- A PPS_IN pulse below 1 µs is a counted glitch; a longer one without a message that came at least 100 ms before raises TOD_MISS, one with it
loads the counter the first time, and later tells a mismatch, and loads it at the fourth in a row; a valid message is kept; PPS_OUT pulses
at its seconds, and TOD_TX follows half a second later. A line without a valid sample for 1,000 ticks loses time transfer, once
(R354-R357, R364, R459). Which second a pulse marks is read as log 74 says. -/
def Obligations.TimeOfDay : Prop :=
  ∀ s : State,
    (∀ width cyc sub, s.live → width < 1000 → Completes (.ppsInEdge width cyc sub) s fun t => s.sameBut t wrapRegs ∧
      ((s.ctr 194).v + 1 < 2 ^ 64 → (t.ctr 194).v = (s.ctr 194).v + 1)) ∧
    (∀ width cyc sub, s.live → 1000 ≤ width → s.tim.tod = none → Completes (.ppsInEdge width cyc sub) s fun t =>
      t.bit Reg.TIM_STATUS.TOD_VALID = false ∧ t.bit Reg.TIM_EVENT.TOD_MISS = true ∧ t.tim.ppsTick = some s.tick ∧ t.time = s.time) ∧
    (∀ width cyc sub n t0, s.live → 1000 ≤ width → s.tim.tod = some (n, t0) →
      let mark : Int := (s.timeAt cyc + sub * 2 ^ 28 : Nat) + sx 16 (s.fld Reg.TIM_PPS_CFG.IN_DLY) * (2 ^ 28 : Nat)
      let sec : Int := (10 ^ 9 * 2 ^ 32 : Nat)
      (500 * s.tick + cyc < t0 + 50000000 → Completes (.ppsInEdge width cyc sub) s fun t => t.bit Reg.TIM_STATUS.TOD_VALID = false ∧
        t.bit Reg.TIM_EVENT.TOD_MISS = true ∧ t.tim.tod = none ∧ t.time = s.time) ∧
      (t0 + 50000000 ≤ 500 * s.tick + cyc →
      (s.bit Reg.TIM_STATUS.LOADED = false → Completes (.ppsInEdge width cyc sub) s fun t => t.bit Reg.TIM_STATUS.LOADED = true ∧
        t.bit Reg.TIM_STATUS.TOD_VALID = true ∧ t.bit Reg.TIM_EVENT.TOD_LOAD = true ∧ t.tim.tod = none ∧
        t.time = (((s.time : Int) + ((n : Int) * sec - mark)) % (2 ^ 96 : Nat)).toNat) ∧
      (s.bit Reg.TIM_STATUS.LOADED = true → s.tim.mismatch < 3 → (n : Int) ≠ (mark + sec / 2) / sec → Completes (.ppsInEdge width cyc sub) s fun t =>
        t.bit Reg.TIM_EVENT.TOD_MISMATCH = true ∧ t.tim.mismatch = s.tim.mismatch + 1 ∧ t.time = s.time) ∧
      (s.bit Reg.TIM_STATUS.LOADED = true → s.tim.mismatch < 3 → (n : Int) = (mark + sec / 2) / sec → Completes (.ppsInEdge width cyc sub) s fun t =>
        t.tim.mismatch = 0 ∧ t.time = s.time ∧ t.bit Reg.TIM_STATUS.TOD_VALID = true) ∧
      (s.bit Reg.TIM_STATUS.LOADED = true → 3 ≤ s.tim.mismatch → Completes (.ppsInEdge width cyc sub) s fun t => t.bit Reg.TIM_EVENT.TOD_LOAD = true ∧
        t.tim.mismatch = 0 ∧ t.time = (((s.time : Int) + ((n : Int) * sec - mark)) % (2 ^ 96 : Nat)).toNat))) ∧
    (∀ m cyc, s.live →
      (todParse m = none → Completes (.todMessage m cyc) s fun t => s.sameBut t wrapRegs) ∧
      (∀ n, todParse m = some n → Completes (.todMessage m cyc) s fun t => t.tim.tod = some (n, 500 * s.tick + cyc) ∧
        t.reg64 Reg.TIM_TOD_LO Reg.TIM_TOD_HI = n % 2 ^ 64 ∧ s.sameRegs t (Reg.TIM_TOD_LO :: Reg.TIM_TOD_HI :: wrapRegs))) ∧
    (∀ cyc, s.live → let m := s.outSecond (s.timeAt cyc)
      let quiet := s.bit Reg.TIM_PPS_OUT.SQUELCH && !s.bit Reg.TIM_STATUS.LOADED
      (m ≤ s.tim.outMark → Completes (.ppsOutPulse cyc) s fun t => t.out = [] ∧ s.sameBut t wrapRegs) ∧
      (s.tim.outMark < m → quiet = false → Completes (.ppsOutPulse cyc) s fun t => t.out = [.pps (s.fld Reg.TIM_PPS_OUT.WIDTH)] ∧
        ({ s with tim := { s.tim with outMark := m, todOut := some (s.tick + 500000) } } : State).sameBut t wrapRegs) ∧
      (s.tim.outMark < m → quiet = true → Completes (.ppsOutPulse cyc) s fun t => t.out = [] ∧
        ({ s with tim := { s.tim with outMark := m } } : State).sameBut t wrapRegs)) ∧
    (∀ t0, s.live → s.tim.todOut = some t0 → t0 ≤ s.tick → Completes .todOutSend s fun t =>
      ({ s with tim := { s.tim with todOut := none } } : State).sameBut t wrapRegs ∧
      t.out = (if s.bit Reg.TIM_PPS_CFG.TOD_OUT then [.tod (todMessage (s.tim.outMark + 1).toNat (b2n (s.bit Reg.TIM_STATUS.LOADED)))] else [])) ∧
    (s.live → (∀ t0, s.tim.todOut = some t0 → s.tick < t0) → Completes .todOutSend s fun t => s.sameBut t wrapRegs) ∧
    (∀ l : Fin 2, s.ticking → let x := (s.ln l).tt
      let go := decide (x.last + 1000 ≤ s.tick) && !x.lost && !s.acted
      (go = true → Completes (.ttLost l) s fun t => (t.ln l).tt = { x with samples := [], lock := false, lost := true } ∧
        t.reg (Reg.TIM_TT_OFS l) = 0x80000000 ∧ t.reg (Reg.TIM_TT_RTT l) = 0xFFFFFFFF ∧ t.reg (Reg.TIM_TT_CDASYM l) = 0x80000000 ∧
        t.nextFld (ttLockFld l) = 0 ∧ t.bit Reg.TIM_EVENT.TT_LOST = true) ∧
      (go = false → Completes (.ttLost l) s fun t => s.sameBut t faultRegs))

/-! ### Sensors and monitor converters (R387, R396, R397, R399-R403) -/

/-- Sensors found faulty are flagged; the gate opens when its condition is met; a conversion moves its unit on through
its list; a reference settles; an entry that has run DEB results out of limits or back within them changes OUT, but an isolated unit's hold; a
unit that failed three comparisons is isolated; an urgent request is taken only in the last cycle of a conversion; once a commit has
taken effect in the tick the decisions wait for the next (R33, R387, R396, R397, R399-R403). Comparisons that name no unit are read as log 82 says. -/
def Obligations.SensorsAndMonitors : Prop :=
  ∀ s : State,
    (s.ticking → s.acted = true → (Completes .sensorFault s fun t => s.sameBut t faultRegs) ∧ (Completes .gateClear s fun t => s.sameBut t faultRegs) ∧
      ∀ u : Fin 3, (Completes (.refSettled u) s fun t => s.sameBut t faultRegs) ∧ (Completes (.monFault u) s fun t => s.sameBut t faultRegs) ∧
        ∀ n : Fin 64, Completes (.excursion u n) s fun t => s.sameBut t faultRegs) ∧
    (s.deciding → s.thm.due ≠ [] → Completes .sensorFault s fun t => t.thm.due = [] ∧ t.bit Reg.THM_EVENT.SENSOR_FAULT = true ∧
      ∀ i ∈ s.thm.due, i < 24 → t.bit ⟨Reg.THM_SENS_FLT, i, i⟩ = true) ∧
    (s.deciding → s.thm.due = [] → Completes .sensorFault s fun t => s.sameBut t faultRegs) ∧
    (s.deciding → s.bit Reg.THM_STATUS.GATE = true → s.thm.gateOk = true → Completes .gateClear s fun t =>
      s.sameBut t (Reg.THM_STATUS :: Reg.THM_EVENT :: faultRegs) ∧ t.bit Reg.THM_STATUS.GATE = false ∧ t.bit Reg.THM_EVENT.GATE_CLEAR = true) ∧
    (s.deciding → s.bit Reg.THM_STATUS.GATE = false ∨ s.thm.gateOk = false → Completes .gateClear s fun t => s.sameBut t faultRegs) ∧
    (∀ (u : Fin 3) (code : Fin 4096) (value : Fin 65536), s.live → let x := s.mon u
      (x.on = false ∨ s.monRuns u = false → Completes (.monConversion u code value) s fun t => s.sameBut t wrapRegs) ∧
      (x.on = true → s.monRuns u = true → x.urg = none → Completes (.monConversion u code value) s fun t => s.sameRegs t wrapRegs ∧
        (t.mon u).pos = (if s.fld (Reg.MON_CTL.LEN u) ≤ x.pos + 1 then 0 else x.pos + 1) ∧
        (t.mon u).fresh = (if s.bit (Reg.MON_LIST.VALID u x.pos) then x.fresh ++ [(x.pos, ⟨value, code, s.monSettled u⟩)] else x.fresh)) ∧
      (∀ n, x.on = true → s.monRuns u = true → x.urg = some n → Completes (.monConversion u code value) s fun t => s.sameRegs t wrapRegs ∧
        (t.mon u).pos = x.pos ∧ (t.mon u).urg = none ∧ (t.mon u).urgDone = some n)) ∧
    (∀ u : Fin 3, s.deciding →
      (s.monSettled u = false → (s.mon u).settleAt ≤ s.tick → Completes (.refSettled u) s fun t =>
        s.sameBut t (Reg.MON_STATUS :: Reg.MON_EVENT :: faultRegs) ∧ t.monSettled u = true ∧ t.bit Reg.MON_EVENT.REF_SETTLED = true) ∧
      (s.monSettled u = true ∨ s.tick < (s.mon u).settleAt → Completes (.refSettled u) s fun t => s.sameBut t faultRegs) ∧
      (3 ≤ (s.mon u).fails → s.monIsolated u = false → Completes (.monFault u) s fun t =>
        (s.setMon u { s.mon u with fails := 0, passes := 0 }).sameBut t (Reg.MON_STATUS :: Reg.MON_CTL u :: Reg.MON_EVENT :: faultRegs) ∧
        t.monIsolated u = true ∧ t.bit (Reg.MON_CTL.RETEST u) = false ∧ t.bit Reg.MON_EVENT.MON_FAULT = true) ∧
      ((s.mon u).fails < 3 ∨ s.monIsolated u = true → Completes (.monFault u) s fun t => s.sameBut t faultRegs)) ∧
    (∀ (u : Fin 3) (n : Fin 64), s.deciding → let q := (s.mon u).runs.get (fun _ => 0) n
      let go := !s.monIsolated u && decide (s.fld (Reg.MON_LIST.DEB u n) ≤ q / 2) && decide (0 < q / 2) && ((q % 2 == 1) != (s.mon u).out.get (fun _ => false) n)
      (go = true → Completes (.excursion u n) s fun t => t.pubQ = s.pubQ ++ [(Reg.MON_RES.OUT u n, q % 2)] ∧
        (t.mon u).out.get (fun _ => false) n = (q % 2 == 1) ∧ t.bit (if q % 2 = 1 then Reg.MON_EVENT.EXCURSION else Reg.MON_EVENT.EXC_CLEAR) = true) ∧
      (go = false → Completes (.excursion u n) s fun t => s.sameBut t faultRegs)) ∧
    (∀ (u : Fin 3) (v : Word) (w : State), s.live → s.takes (Reg.MON_CTL u) v.toNat → w = s.stored (Reg.MON_CTL u) v.toNat → w.bit (Reg.MON_CTL.RETEST u) = true →
      Completes (.monRetest u v) s fun t => t.reg (Reg.MON_CTL u) = w.reg (Reg.MON_CTL u) ∧ (t.mon u).passes = 0) ∧
    (∀ (v : Word) (w : State), s.live → w = s.cleared.startBit Reg.MON_URG.GO v.toNat →
      let u := w.fld Reg.MON_URG.UNIT
      let n := w.fld Reg.MON_URG.ENTRY
      let bars := !w.bit (Reg.MON_LIST.VALID u n) || w.monIsolated u || !w.monSettled u || !(w.mon u).on
      (∀ last, w.bit Reg.MON_URG.GO = true → bars = true → Completes (.urgentConversion v last) s fun t => t.bit Reg.MON_URG.GO = false ∧
        t.bit Reg.MON_EVENT.URG_REJECT = true) ∧
      (w.bit Reg.MON_URG.GO = true → bars = false → Completes (.urgentConversion v true) s fun t => t.bit Reg.MON_URG.GO = false ∧ (t.mon u).urg = some n) ∧
      (w.bit Reg.MON_URG.GO = true → bars = false → Completes (.urgentConversion v false) s fun t => t.bit Reg.MON_URG.GO = false ∧
        (t.mon u).urg = (w.mon u).urg ∧ t.bit Reg.MON_EVENT.URG_DROP = true) ∧
      (∀ last, w.bit Reg.MON_URG.GO = false → Completes (.urgentConversion v last) s fun t => w.sameBut t wrapRegs))

/-! ### Counters and reads (R15, R469-R476, R487) -/

/-- A captured snapshot becomes the shadow bank with the next generation, or is counted as skipped while frozen; a
window's finished interval is published with its rate and extremes; the writes of NOW, FREEZE and a preset are
stored for the boundary that acts on them (R469, R470, R473). When a snapshot is formed is read as log 97 says. -/
def Obligations.Counters : Prop :=
  ∀ s : State,
    (∀ busy, s.ticking → s.snapPend = none → Completes (.snapshot busy) s fun t => s.sameBut t faultRegs) ∧
    (∀ busy sn, s.ticking → s.snapPend = some sn →
      (s.bit Reg.PMC_SNAP_CTL.FREEZE = false → Completes (.snapshot busy) s fun t => t.snapPend = none ∧ t.bank = sn.ctrs ∧ t.bankTick = sn.tick ∧
        t.bankTime = sn.time ∧ t.fld Reg.PMC_SNAP_GEN.GEN = (s.fld Reg.PMC_SNAP_GEN.GEN + 1) % 2 ^ 32) ∧
      (s.bit Reg.PMC_SNAP_CTL.FREEZE = true → Completes (.snapshot busy) s fun t => t.snapPend = none ∧ t.bank = s.bank ∧
        t.reg Reg.PMC_SNAP_GEN = s.reg Reg.PMC_SNAP_GEN ∧
        t.fld Reg.PMC_SNAP_MISS.SKIPPED = satAdd 0xFFFF (s.fld Reg.PMC_SNAP_MISS.SKIPPED) 1)) ∧
    (∀ v : Word, s.live → s.takes Reg.PMC_SNAP_CTL v.toNat → Completes (.snapshotNow v) s fun t =>
      t.reg Reg.PMC_SNAP_CTL = writtenWord Reg.PMC_SNAP_CTL (s.reg Reg.PMC_SNAP_CTL) v ∧
      t.bit Reg.PMC_STATUS.FROZEN = t.bit Reg.PMC_SNAP_CTL.FREEZE ∧ t.bank = s.bank) ∧
    (∀ v : Word, s.live → s.takes Reg.PMC_PRESET_IDX v.toNat → Completes (.preset v) s fun t =>
      t.reg Reg.PMC_PRESET_IDX = writtenWord Reg.PMC_PRESET_IDX (s.reg Reg.PMC_PRESET_IDX) v ∧ s.sameRegs t (Reg.PMC_PRESET_IDX :: wrapRegs)) ∧
    (∀ w : Fin 1152, s.ticking →
      ((s.win w).fin = none → Completes (.windowIntervalEnd w) s fun t => s.sameBut t faultRegs) ∧
      (∀ b u len e, (s.win w).fin = some (b, u, len, e) → let r := b * 8000 / max 1 len % 2 ^ 32
        Completes (.windowIntervalEnd w) s fun t => (t.win w).fin = none ∧
          t.reg64 (Reg.PMC_WIN_BYTES_LO w) (Reg.PMC_WIN_BYTES_HI w) = b % 2 ^ 64 ∧ t.reg64 (Reg.PMC_WIN_UNITS_LO w) (Reg.PMC_WIN_UNITS_HI w) = u % 2 ^ 64 ∧
          t.fld (Reg.PMC_WIN_RATE.R w) = r ∧ t.fld (Reg.PMC_WIN_MIN.MIN_RATE w) = min (s.fld (Reg.PMC_WIN_MIN.MIN_RATE w)) r ∧
          t.fld (Reg.PMC_WIN_MAX.MAX_RATE w) = max (s.fld (Reg.PMC_WIN_MAX.MAX_RATE w)) r ∧
          t.reg64 (Reg.PMC_WIN_END_LO w) (Reg.PMC_WIN_END_HI w) = e % 2 ^ 64 ∧
          t.fld (Reg.PMC_WIN_CNT.WIN_CNT w) = (s.fld (Reg.PMC_WIN_CNT.WIN_CNT w) + 1) % 2 ^ 32))

/-- A BAR0 read answers what its path reads and changes nothing but what a latching read captures; one of another form answers zero.  While
PMC_USER_EN.EN is 1 a mirror read answers what BAR0 answers at the mirrored offset; while it is 0 every accepted mirror read answers
zero and is counted, logged unless the log holds a record, and raised; in D3hot neither answers. -/
def Obligations.Reads : Prop :=
  ∀ (s : State) (cyc off : Nat), s.live →
    (s.pcie.d3hot = true → ∀ form, (Completes (.latchingRead form off cyc) s fun t => t.out = [] ∧ s.sameBut t wrapRegs) ∧
      Completes (.mirrorRead form off cyc) s fun t => t.out = [] ∧ s.sameBut t wrapRegs) ∧
    (s.pcie.d3hot = false →
      (off % 4 = 0 → Completes (.latchingRead .w32 off cyc) s fun t => t.out = [.readData (s.pathWord 0 cyc off).toNat false] ∧
        ({ s with lat0 := t.lat0 } : State).sameBut t wrapRegs ∧
        (∀ c ∈ companions off, t.captured 0 c = some (if s.captured 0 off = none then s.view cyc c else s.pathWord 0 cyc c)) ∧
        (∀ c, c ∉ companions off → t.captured 0 c = s.captured 0 c)) ∧
      (off % 8 = 0 → companions off = [] → companions (off + 4) = [] → Completes (.latchingRead .w64 off cyc) s fun t => s.sameBut t wrapRegs ∧
        t.out = [.readData ((s.pathWord 0 cyc off).toNat + (s.pathWord 0 cyc (off + 4)).toNat * 2 ^ 32) false]) ∧
      (off % 4 ≠ 0 → ∀ form, Completes (.latchingRead form off cyc) s fun t => t.out = [.readData 0 false] ∧ s.sameBut t wrapRegs) ∧
      (Completes (.latchingRead .other off cyc) s fun t => t.out = [.readData 0 false] ∧ s.sameBut t wrapRegs) ∧
      (s.bit Reg.PMC_USER_EN.EN = true → s.lat0 = s.lat2 → ∀ b form, mirrorOf off = some b → Completes (.mirrorRead form off cyc) s fun t =>
        Completes (.latchingRead form b cyc) s fun t' => t.out = t'.out) ∧
      (s.bit Reg.PMC_USER_EN.EN = true → mirrorOf off = none → ∀ form, Completes (.mirrorRead form off cyc) s fun t =>
        t.out = [.readData 0 false] ∧ s.sameBut t wrapRegs) ∧
      (s.bit Reg.PMC_USER_EN.EN = false → ∀ form, (form = .w32 ∧ off % 4 = 0) ∨ (form = .w64 ∧ off % 8 = 0) → Completes (.mirrorRead form off cyc) s fun t =>
        s.sameBut t (Reg.PMC_MIR_DENY_CNT :: Reg.PMC_MIR_LOG :: wrapRegs) ∧ t.out = [.readData 0 false] ∧
        t.fld Reg.PMC_MIR_DENY_CNT.CNT = satAdd 0xFFFFFFFF (s.fld Reg.PMC_MIR_DENY_CNT.CNT) 1 ∧ t.bit Reg.PMC_EVENT.MIRROR_DENIED = true ∧
        (s.bit Reg.PMC_MIR_LOG.VALID = false → t.fld Reg.PMC_MIR_LOG.OFFSET = off % 2 ^ 20 ∧ t.bit Reg.PMC_MIR_LOG.VALID = true) ∧
        (s.bit Reg.PMC_MIR_LOG.VALID = true → t.reg Reg.PMC_MIR_LOG = s.reg Reg.PMC_MIR_LOG)))

/-! ### The host link and SMBus (R459, R482, R484, R494-R496) -/

/-- A PCI Express reset returns the function to its reset state and raises PCIE_RESET, a short PERST_N pulse is a
counted glitch; a configuration write leaves what it names; a pending message goes out, once, when nothing holds it
back any more (R459, R482, R484, R494). What each reset leaves of the link is the model's choice (log 22). -/
def Obligations.HostLink : Prop :=
  ∀ s : State, s.live →
    (∀ ns, ns < 1000 → Completes (.pcieReset (.perst ns)) s fun t => s.sameBut t wrapRegs ∧
      ((s.ctr 193).v + 1 < 2 ^ 64 → (t.ctr 193).v = (s.ctr 193).v + 1)) ∧
    (∀ r, (∀ ns, r = .perst ns → 1000 ≤ ns) → Completes (.pcieReset r) s fun t => t.bit Reg.GLB_HOST_EVENT.PCIE_RESET = true ∧
      t.pcie.bme = false ∧ t.pcie.d3hot = false ∧ (∀ i, i < 256 → t.reg (0x2000 + 4 * i) = regReset (0x2000 + 4 * i)) ∧
      t.reg (Reg.MSIX_PBA 0) = 0 ∧ t.reg (Reg.MSIX_PBA 1) = 0 ∧ t.tick = s.tick ∧ t.nvm = s.nvm ∧
      (r ≠ .flr → t.fld Reg.GLB_HOST_STATUS.LINK_GEN = 0 ∧ t.fld Reg.GLB_HOST_STATUS.LINK_WIDTH = 0) ∧
      (r = .flr → t.reg Reg.GLB_HOST_STATUS = s.reg Reg.GLB_HOST_STATUS) ∧
      (r = .linkDown → t.bit Reg.GLB_HOST_EVENT.LINK_DOWN = true)) ∧
    (∀ gen width ssc, Completes (.pcieLinkTrained gen width ssc) s fun t => t.fld Reg.GLB_HOST_STATUS.LINK_GEN = gen % 16 ∧
      t.fld Reg.GLB_HOST_STATUS.LINK_WIDTH = width % 8 ∧
      ({ s with pcie := { s.pcie with refclk := true, ssc := ssc } } : State).sameBut t (Reg.GLB_HOST_STATUS :: wrapRegs)) ∧
    (∀ w, Completes (.pcieConfigWrite w) s fun t => t.pcie = cfgSet s.pcie w ∧
      ((cfgSet s.pcie w).bme = false ∨ (cfgSet s.pcie w).d3hot = true → s.sameRegs t wrapRegs ∧
        t.out = match w with | .read off => [.readData (s.cfgRead off) false] | _ => [])) ∧
    s.cfgRead 0 = 0x00641E6C ∧ s.cfgRead 8 = 0x028000B0 ∧ getBits (BitVec.ofNat 32 (s.cfgRead 0x3C)) 15 8 = 0 ∧
    s.cfgRead (serialAt + 4) = s.fuses.deviceId % 2 ^ 32 ∧ s.cfgRead (serialAt + 8) = s.fuses.deviceId / 2 ^ 32 % 2 ^ 32 ∧
    (∀ (v : Fin 64) (w : CfgWrite) (c : Instr),
      (c = .pcieConfigWrite w ∨ (c = .msixUnmask .function ∧ w = .msixMask false) ∨ (c = .msixUnmask .busMaster ∧ w = .busMaster true)) →
      let p : Fr := ⟨Reg.MSIX_PBA (v / 32), v % 32, v % 32⟩
      s.bit p = true → s.bit (Reg.MSIX_CTL.MASK v) = false → s.fld Reg.GLB_HOST_STATUS.LINK_GEN ≠ 0 →
      (cfgSet s.pcie w).msixMask = false → (cfgSet s.pcie w).bme = true → (cfgSet s.pcie w).d3hot = false → Completes c s fun t =>
        t.pcie = cfgSet s.pcie w ∧ t.bit p = false ∧
        Out.msix v (s.reg64 (Reg.MSIX_ADDR_LO v) (Reg.MSIX_ADDR_HI v)) (s.reg (Reg.MSIX_DATA v)).toNat ∈ t.out) ∧
    (∀ v : Fin 64, s.takes (Reg.MSIX_CTL v) 0 → let p : Fr := ⟨Reg.MSIX_PBA (v / 32), v % 32, v % 32⟩
      let free := s.bit p && !s.pcie.msixMask && s.pcie.bme && s.fld Reg.GLB_HOST_STATUS.LINK_GEN != 0
      (free = true → Completes (.msixUnmask (.vector v)) s fun t => t.bit (Reg.MSIX_CTL.MASK v) = false ∧ t.bit p = false ∧
        t.out = [.msix v (s.reg64 (Reg.MSIX_ADDR_LO v) (Reg.MSIX_ADDR_HI v)) (s.reg (Reg.MSIX_DATA v)).toNat]) ∧
      (free = false → Completes (.msixUnmask (.vector v)) s fun t => t.bit (Reg.MSIX_CTL.MASK v) = false ∧ t.bit p = s.bit p ∧ t.out = []))

/-- An SMBus read answers the bytes of the status page from its command code on, with their PEC when the host clocks it;
Block Read answers 32 and the page; a write is not acknowledged, and a clock timeout changes nothing (R495, R496).
Bytes past the page are free, and the PEC is that of SMBus 3.1 (log 20). -/
def Obligations.SmBus : Prop :=
  ∀ s : State, s.live →
    (∀ (c : Fin 256) b, s.page[c.val]? = some b →
      (Completes (.smbusReadByte c false) s fun t => t.out = [.smb [b]] ∧ s.sameBut t wrapRegs) ∧
      (Completes (.smbusReadByte c true) s fun t => t.out = [.smb [b, s.smbPec c [b]]] ∧ s.sameBut t wrapRegs) ∧
      (∀ d, s.page[c.val + 1]? = some d →
        (Completes (.smbusReadWord c false) s fun t => t.out = [.smb [b, d]] ∧ s.sameBut t wrapRegs) ∧
        (Completes (.smbusReadWord c true) s fun t => t.out = [.smb [b, d, s.smbPec c [b, d]]] ∧ s.sameBut t wrapRegs)) ∧
      (s.page[c.val + 1]? = none → Completes (.smbusReadWord c false) s fun t => ∃ d, t.out = [.smb [b, d]] ∧ s.sameRegs t wrapRegs)) ∧
    (∀ (c : Fin 256) pec, s.page.length ≤ c.val →
      (Completes (.smbusReadByte c pec) s fun t => s.sameRegs t wrapRegs ∧ ∃ bs, bs.length = (if pec then 2 else 1) ∧ t.out = [.smb bs]) ∧
      Completes (.smbusReadWord c pec) s fun t => s.sameRegs t wrapRegs ∧ ∃ bs, bs.length = (if pec then 3 else 2) ∧ t.out = [.smb bs]) ∧
    (Completes (.smbusBlockRead false) s fun t => t.out = [.smb (32#8 :: s.page)] ∧ s.sameBut t wrapRegs) ∧
    (Completes (.smbusBlockRead true) s fun t => t.out = [.smb (32#8 :: s.page ++ [s.smbPec 0x20 (32#8 :: s.page)])] ∧ s.sameBut t wrapRegs) ∧
    (Completes .smbusWrite s fun t => t.out = [.smbNack] ∧ s.sameBut t wrapRegs) ∧
    (Completes .smbusClockTimeout s fun t => t.out = [] ∧ s.sameBut t wrapRegs)
end

