-- ==== Sys2Proof/Laws/Bits.lean ====
section
/-! SUPPORT. What reading and replacing a bit field do; byte strings of numbers; the CRC's range. -/

namespace Sys2Proof.Machine

/-- A number with a high part and a low part. -/
theorem two_part_lt {a A b B : Nat} (ha : a < A) (hb : b < B) : a * B + b < A * B :=
  calc a * B + b < a * B + B := Nat.add_lt_add_left hb _
    _ = (a + 1) * B := (Nat.succ_mul a B).symm
    _ ≤ A * B := Nat.mul_le_mul_right B ha

/-- The three parts of a word around bits `hi` to `lo`. -/
theorem word_split (n hi lo : Nat) (h : lo ≤ hi) :
    n = n / 2 ^ (hi + 1) * 2 ^ (hi + 1) + (n >>> lo) % 2 ^ (hi + 1 - lo) * 2 ^ lo + n % 2 ^ lo := by
  have e : 2 ^ (hi + 1) = 2 ^ lo * 2 ^ (hi + 1 - lo) := by rw [← pow_add]; congr 1; omega
  have h1 := Nat.div_add_mod n (2 ^ lo)
  have h2 := Nat.div_add_mod (n / 2 ^ lo) (2 ^ (hi + 1 - lo))
  rw [Nat.shiftRight_eq_div_pow, e, ← Nat.div_div_eq_div_mul]
  conv_lhs => rw [← h1]
  conv_lhs => rw [← h2]
  ring

/-- A word with a field replaced: the bits above, the value's low bits, the bits below. -/
theorem setBits_toNat (w : Word) (hi lo v : Nat) (h : lo ≤ hi) (h2 : hi < 32) :
    (setBits w hi lo v).toNat = w.toNat / 2 ^ (hi + 1) * 2 ^ (hi + 1) + v % 2 ^ (hi + 1 - lo) * 2 ^ lo + w.toNat % 2 ^ lo := by
  have hs := word_split w.toNat hi lo h
  have hlt := w.isLt
  have hv : v % 2 ^ (hi + 1 - lo) < 2 ^ (hi + 1 - lo) := Nat.mod_lt _ (by positivity)
  have hc : w.toNat % 2 ^ lo < 2 ^ lo := Nat.mod_lt _ (by positivity)
  have e : 2 ^ (hi + 1) = 2 ^ lo * 2 ^ (hi + 1 - lo) := by rw [← pow_add]; congr 1; omega
  have e2 : (2 : Nat) ^ 32 = 2 ^ (hi + 1) * 2 ^ (31 - hi) := by rw [← pow_add]; congr 1; omega
  have ha : w.toNat / 2 ^ (hi + 1) < 2 ^ (31 - hi) := Nat.div_lt_of_lt_mul (by rw [← e2]; exact hlt)
  have hmid : v % 2 ^ (hi + 1 - lo) * 2 ^ lo + w.toNat % 2 ^ lo < 2 ^ (hi + 1) := by
    rw [e, mul_comm (2 ^ lo)]; exact two_part_lt hv hc
  have htot : w.toNat / 2 ^ (hi + 1) * 2 ^ (hi + 1) + v % 2 ^ (hi + 1 - lo) * 2 ^ lo + w.toNat % 2 ^ lo < 2 ^ 32 := by
    rw [e2, mul_comm (2 ^ (hi + 1)), add_assoc]; exact two_part_lt ha hmid
  unfold setBits getBits
  rw [BitVec.toNat_ofNat]
  have hsub : w.toNat - (w.toNat >>> lo) % 2 ^ (hi + 1 - lo) * 2 ^ lo = w.toNat / 2 ^ (hi + 1) * 2 ^ (hi + 1) + w.toNat % 2 ^ lo := by omega
  rw [hsub]
  have : w.toNat / 2 ^ (hi + 1) * 2 ^ (hi + 1) + w.toNat % 2 ^ lo + v % 2 ^ (hi + 1 - lo) * 2 ^ lo =
      w.toNat / 2 ^ (hi + 1) * 2 ^ (hi + 1) + v % 2 ^ (hi + 1 - lo) * 2 ^ lo + w.toNat % 2 ^ lo := by ring
  rw [this, Nat.mod_eq_of_lt htot]

/-- The bits of a word with a field replaced. -/
theorem testBit_setBits (w : Word) (hi lo v i : Nat) (h : lo ≤ hi) (h2 : hi < 32) :
    (setBits w hi lo v).toNat.testBit i = if lo ≤ i ∧ i ≤ hi then v.testBit (i - lo) else w.toNat.testBit i := by
  rw [setBits_toNat w hi lo v h h2, add_assoc]
  have hc : w.toNat % 2 ^ lo < 2 ^ lo := Nat.mod_lt _ (by positivity)
  have hv : v % 2 ^ (hi + 1 - lo) < 2 ^ (hi + 1 - lo) := Nat.mod_lt _ (by positivity)
  have e : 2 ^ (hi + 1) = 2 ^ lo * 2 ^ (hi + 1 - lo) := by rw [← pow_add]; congr 1; omega
  have hmid : v % 2 ^ (hi + 1 - lo) * 2 ^ lo + w.toNat % 2 ^ lo < 2 ^ (hi + 1) := by
    rw [e, mul_comm (2 ^ lo)]; exact two_part_lt hv hc
  rw [mul_comm, Nat.testBit_two_pow_mul_add _ hmid, mul_comm, Nat.testBit_two_pow_mul_add _ hc]
  by_cases hi1 : i < hi + 1
  · rw [if_pos hi1]
    by_cases hlo : i < lo
    · rw [if_pos hlo, if_neg (by omega), Nat.testBit_mod_two_pow]
      simp [hlo]
    · rw [if_neg hlo, if_pos (by omega), Nat.testBit_mod_two_pow]
      have : i - lo < hi + 1 - lo := by omega
      simp [this]
  · rw [if_neg hi1, if_neg (by omega), Nat.testBit_div_two_pow]
    congr 1
    omega

/-- The bits of a field. -/
theorem testBit_getBits (w : Word) (hi lo i : Nat) :
    (getBits w hi lo).testBit i = (decide (i < hi + 1 - lo) && w.toNat.testBit (lo + i)) := by
  unfold getBits
  rw [Nat.testBit_mod_two_pow, Nat.testBit_shiftRight]

/-- A field just replaced reads as the value's low bits. -/
theorem getBits_setBits (w : Word) (hi lo v : Nat) (h : lo ≤ hi) (h2 : hi < 32) :
    getBits (setBits w hi lo v) hi lo = v % 2 ^ (hi + 1 - lo) := by
  apply Nat.eq_of_testBit_eq
  intro i
  rw [testBit_getBits, testBit_setBits w hi lo v _ h h2, Nat.testBit_mod_two_pow]
  by_cases hi1 : i < hi + 1 - lo
  · rw [if_pos (by omega)]; simp
  · simp [hi1]

/-- A field beside the one replaced is unchanged. -/
theorem getBits_setBits_ne (w : Word) (hi lo hi' lo' v : Nat) (h : lo ≤ hi) (h2 : hi < 32) (hd : hi < lo' ∨ hi' < lo) :
    getBits (setBits w hi lo v) hi' lo' = getBits w hi' lo' := by
  apply Nat.eq_of_testBit_eq
  intro i
  rw [testBit_getBits, testBit_getBits, testBit_setBits w hi lo v _ h h2]
  by_cases hi1 : i < hi' + 1 - lo'
  · rw [if_neg (by omega)]
  · simp [hi1]

theorem getBits_lt (w : Word) (hi lo : Nat) : getBits w hi lo < 2 ^ (hi + 1 - lo) := Nat.mod_lt _ (by positivity)

@[simp] theorem b2n_true : b2n true = 1 := rfl
@[simp] theorem b2n_false : b2n false = 0 := rfl
theorem b2n_lt (b : Bool) : b2n b < 2 := by cases b <;> decide

/-- The number that `n` bytes of a number spell. -/
theorem ofLe_leBytes (n v : Nat) : ofLe (leBytes n v) = v % 256 ^ n := by
  induction n generalizing v with
  | zero => simp [leBytes, ofLe, Nat.mod_one]
  | succ n ih =>
    rw [leBytes, ofLe, ih, BitVec.toNat_ofNat, show (256 : Nat) ^ (n + 1) = 256 * 256 ^ n by rw [Nat.pow_succ, Nat.mul_comm]]
    exact Nat.mod_mul.symm

theorem ofBe_beBytes (n v : Nat) : ofBe (beBytes n v) = v % 256 ^ n := by
  rw [ofBe, beBytes, List.reverse_reverse, ofLe_leBytes]

@[simp] theorem leBytes_length (n v : Nat) : (leBytes n v).length = n := by
  induction n generalizing v with
  | zero => rfl
  | succ n ih => rw [leBytes, List.length_cons, ih]

@[simp] theorem beBytes_length (n v : Nat) : (beBytes n v).length = n := by rw [beBytes, List.length_reverse, leBytes_length]

@[simp] theorem crcBits_nil (w poly c : Nat) : crcBits w poly c [] = c := rfl

@[simp] theorem crcBits_cons (w poly c : Nat) (b : Bool) (bs : List Bool) : crcBits w poly c (b :: bs) = crcBits w poly (crcBit w poly c b) bs := by
  rw [crcBits]
  split
  · next h => rw [h]
  · rfl

/-- A CRC register keeps its width. -/
theorem crcBits_lt (w poly c : Nat) (bs : List Bool) (hp : poly < 2 ^ w) (hc : c < 2 ^ w) : crcBits w poly c bs < 2 ^ w := by
  induction bs generalizing c with
  | nil => exact hc
  | cons b bs ih =>
    rw [crcBits_cons]
    apply ih
    have hs : (2 * c) % 2 ^ w < 2 ^ w := Nat.mod_lt _ (Nat.two_pow_pos w)
    unfold crcBit
    dsimp only
    split
    · exact Nat.xor_lt_two_pow hs hp
    · exact hs

theorem crc32_lt (bs : List Byte) : crc32 bs < 2 ^ 32 :=
  Nat.xor_lt_two_pow (crcBits_lt 32 _ _ _ (by decide) (by decide)) (by decide)

end Sys2Proof.Machine
end

