-- ==== Sys2Proof/Laws/SMap.lean ====
section
/-! SUPPORT. What reading and writing a sparse map do, and that every operation on one keeps the canonical form. -/

namespace Sys2Proof.Machine

variable {α : Type}

/-! ### Read after write -/

theorem SMap.get_ins (d : Nat → α) (k k' : Nat) (v : α) (m : SMap α) (h : ∀ p ∈ m, p.1 ≠ k) :
    SMap.get d (SMap.ins k v m) k' = if k = k' then v else SMap.get d m k' := by
  induction m with
  | nil => rfl
  | cons p m ih =>
    have hp : p.1 ≠ k := h p (by simp)
    have hm : ∀ q ∈ m, q.1 ≠ k := fun q hq => h q (by simp [hq])
    simp only [SMap.ins]
    split
    · rfl
    · simp only [SMap.get]
      rw [ih hm]
      by_cases h1 : p.1 = k'
      · rw [if_pos h1, if_neg (fun h2 => hp (h1.trans h2.symm)), if_pos h1]
      · rw [if_neg h1, if_neg h1]

theorem SMap.get_del (d : Nat → α) (k k' : Nat) (m : SMap α) :
    SMap.get d (SMap.del k m) k' = if k = k' then d k' else SMap.get d m k' := by
  induction m with
  | nil => simp [SMap.get, SMap.del]
  | cons p m ih =>
    simp only [SMap.del, SMap.get]
    split
    · next h1 =>
      rw [ih]
      by_cases h2 : k = k'
      · rw [if_pos h2, if_pos h2]
      · rw [if_neg h2, if_neg h2, if_neg (fun h3 => h2 (h1.symm.trans h3))]
    · next h1 =>
      simp only [SMap.get]
      rw [ih]
      by_cases h2 : k = k'
      · subst h2; rw [if_neg h1, if_pos rfl, if_pos rfl]
      · rw [if_neg h2, if_neg h2]

theorem SMap.ne_of_mem_del (k : Nat) (m : SMap α) : ∀ p ∈ SMap.del k m, p.1 ≠ k := by
  induction m with
  | nil => simp [SMap.del]
  | cons q m ih =>
    intro p hp
    simp only [SMap.del] at hp
    split at hp
    · exact ih p hp
    · next h =>
      rcases List.mem_cons.1 hp with rfl | hp
      · exact h
      · exact ih p hp

/-- A read after a write: the value written at its key, the value before anywhere else. -/
theorem SMap.get_set [DecidableEq α] (d : Nat → α) (m : SMap α) (k k' : Nat) (v : α) :
    SMap.get d (SMap.set d m k v) k' = if k = k' then v else SMap.get d m k' := by
  unfold SMap.set
  split
  · next h =>
    rw [SMap.get_del]
    by_cases h2 : k = k'
    · rw [if_pos h2, if_pos h2, h, h2]
    · rw [if_neg h2, if_neg h2]
  · rw [SMap.get_ins _ _ _ _ _ (SMap.ne_of_mem_del k m), SMap.get_del]
    by_cases h2 : k = k'
    · rw [if_pos h2, if_pos h2]
    · rw [if_neg h2, if_neg h2, if_neg h2]

@[simp] theorem SMap.get_set_self [DecidableEq α] (d : Nat → α) (m : SMap α) (k : Nat) (v : α) :
    SMap.get d (SMap.set d m k v) k = v := by rw [SMap.get_set, if_pos rfl]

theorem SMap.get_set_ne [DecidableEq α] (d : Nat → α) (m : SMap α) {k k' : Nat} (v : α) (h : k ≠ k') :
    SMap.get d (SMap.set d m k v) k' = SMap.get d m k' := by rw [SMap.get_set, if_neg h]

/-! ### The canonical form -/

theorem SMap.wfFrom_mono [DecidableEq α] (d : Nat → α) (a b : Option Nat) (m : SMap α)
    (h : ∀ p ∈ m, (match a with | none => true | some x => decide (x < p.1)) = true) (hm : SMap.wfFrom d b m = true) :
    SMap.wfFrom d a m = true := by
  cases m with
  | nil => rfl
  | cons p m =>
    simp only [SMap.wfFrom, Bool.and_eq_true] at hm ⊢
    exact ⟨⟨h p (by simp), hm.1.2⟩, hm.2⟩

theorem SMap.lt_of_wfFrom [DecidableEq α] (d : Nat → α) (b : Nat) (m : SMap α) (h : SMap.wfFrom d (some b) m = true) :
    ∀ p ∈ m, b < p.1 := by
  induction m generalizing b with
  | nil => simp
  | cons q m ih =>
    simp only [SMap.wfFrom, Bool.and_eq_true, decide_eq_true_eq] at h
    intro p hp
    rcases List.mem_cons.1 hp with rfl | hp
    · exact h.1.1
    · exact Nat.lt_trans h.1.1 (ih q.1 h.2 p hp)

theorem SMap.wfFrom_del [DecidableEq α] (d : Nat → α) (b : Option Nat) (k : Nat) (m : SMap α) (h : SMap.wfFrom d b m = true) :
    SMap.wfFrom d b (SMap.del k m) = true := by
  induction m generalizing b with
  | nil => rfl
  | cons q m ih =>
    simp only [SMap.wfFrom, Bool.and_eq_true] at h
    simp only [SMap.del]
    split
    · refine ih b (SMap.wfFrom_mono d b (some q.1) m (fun p hp => ?_) h.2)
      have := SMap.lt_of_wfFrom d q.1 m h.2 p hp
      cases b with
      | none => rfl
      | some b =>
        have hb : b < q.1 := by simpa using h.1.1
        simpa using Nat.lt_trans hb this
    · simp only [SMap.wfFrom, Bool.and_eq_true]
      exact ⟨h.1, ih _ h.2⟩

theorem SMap.wfFrom_ins [DecidableEq α] (d : Nat → α) (b : Option Nat) (k : Nat) (v : α) (m : SMap α) (h : SMap.wfFrom d b m = true)
    (hk : ∀ x, b = some x → x < k) (hv : v ≠ d k) (hm : ∀ p ∈ m, p.1 ≠ k) :
    SMap.wfFrom d b (SMap.ins k v m) = true := by
  induction m generalizing b with
  | nil => cases b with
    | none => simp [SMap.ins, SMap.wfFrom, hv]
    | some x => simp [SMap.ins, SMap.wfFrom, hv, hk x rfl]
  | cons q m ih =>
    simp only [SMap.wfFrom, Bool.and_eq_true] at h
    simp only [SMap.ins]
    split
    · next hlt =>
      simp only [SMap.wfFrom, Bool.and_eq_true]
      refine ⟨⟨?_, by simp [hv]⟩, ⟨by simp [hlt], h.1.2⟩, h.2⟩
      cases b with
      | none => rfl
      | some x => simpa using hk x rfl
    · next hge =>
      simp only [SMap.wfFrom, Bool.and_eq_true]
      refine ⟨h.1, ih (some q.1) h.2 ?_ fun p hp => hm p (by simp [hp])⟩
      have := hm q (by simp)
      intro x hx
      cases hx
      omega

/-- A write keeps the canonical form. -/
theorem SMap.wf_set [DecidableEq α] (d : Nat → α) (m : SMap α) (k : Nat) (v : α) (h : SMap.wf d m = true) :
    SMap.wf d (SMap.set d m k v) = true := by
  unfold SMap.set SMap.wf at *
  split
  · exact SMap.wfFrom_del d none k m h
  · next hv => exact SMap.wfFrom_ins d none k v _ (SMap.wfFrom_del d none k m h) (by simp) hv (SMap.ne_of_mem_del k m)

/-- Keeping some of the entries keeps the canonical form. -/
theorem SMap.wfFrom_filter [DecidableEq α] (d : Nat → α) (b : Option Nat) (f : Nat × α → Bool) (m : SMap α)
    (h : SMap.wfFrom d b m = true) : SMap.wfFrom d b (m.filter f) = true := by
  induction m generalizing b with
  | nil => rfl
  | cons q m ih =>
    simp only [SMap.wfFrom, Bool.and_eq_true] at h
    rw [List.filter_cons]
    split
    · simp only [SMap.wfFrom, Bool.and_eq_true]; exact ⟨h.1, ih _ h.2⟩
    · refine ih b (SMap.wfFrom_mono d b (some q.1) m (fun p hp => ?_) h.2)
      have := SMap.lt_of_wfFrom d q.1 m h.2 p hp
      cases b with
      | none => rfl
      | some b =>
        have hb : b < q.1 := by simpa using h.1.1
        simpa using Nat.lt_trans hb this

theorem SMap.wf_filter [DecidableEq α] (d : Nat → α) (f : Nat × α → Bool) (m : SMap α) (h : SMap.wf d m = true) :
    SMap.wf d (m.filter f) = true := SMap.wfFrom_filter d none f m h

/-! ### Which keys are listed -/

theorem SMap.mem_del {k : Nat} {m : SMap α} {p : Nat × α} (h : p ∈ SMap.del k m) : p ∈ m := by
  induction m with
  | nil => simp [SMap.del] at h
  | cons q m ih =>
    simp only [SMap.del] at h
    split at h
    · exact List.mem_cons_of_mem _ (ih h)
    · rcases List.mem_cons.1 h with rfl | h
      · simp
      · exact List.mem_cons_of_mem _ (ih h)

theorem SMap.mem_ins {k : Nat} {v : α} {m : SMap α} {p : Nat × α} (h : p ∈ SMap.ins k v m) : p = (k, v) ∨ p ∈ m := by
  induction m with
  | nil => exact .inl (by simpa [SMap.ins] using h)
  | cons q m ih =>
    simp only [SMap.ins] at h
    split at h
    · rcases List.mem_cons.1 h with rfl | h
      · exact .inl rfl
      · exact .inr h
    · rcases List.mem_cons.1 h with rfl | h
      · exact .inr (by simp)
      · rcases ih h with h | h
        · exact .inl h
        · exact .inr (List.mem_cons_of_mem _ h)

/-- A write lists at most its own key beside those listed before. -/
theorem SMap.mem_set [DecidableEq α] {d : Nat → α} {m : SMap α} {k : Nat} {v : α} {p : Nat × α} (h : p ∈ SMap.set d m k v) :
    p.1 = k ∨ p ∈ m := by
  unfold SMap.set at h
  split at h
  · exact .inr (SMap.mem_del h)
  · rcases SMap.mem_ins h with h | h
    · exact .inl (by rw [h])
    · exact .inr (SMap.mem_del h)

end Sys2Proof.Machine
end

