-- ==== Sys2Proof/Laws/State.lean ====
section
/-! SUPPORT. What each named update of the state leaves as it was, field by field, and what registers and their fields read
after an update. -/

namespace Sys2Proof.Machine

/-! ### Frames -/

/-- Counting touches the counters and the list of those that wrapped. -/
theorem State.count_form (s : State) (k n : Nat) : ∃ c q, s.count k n = { s with ctrs := c, wrapQ := q } := by
  unfold State.count
  dsimp only
  split
  · exact ⟨_, s.wrapQ, rfl⟩
  · exact ⟨_, _, rfl⟩

@[simp] theorem State.setReg_frame (s : State) (off : Nat) (w : Word) :
    (s.setReg off w).shadow = s.shadow ∧ (s.setReg off w).shadowDue = s.shadowDue ∧ (s.setReg off w).pubQ = s.pubQ ∧ 
    (s.setReg off w).evQ = s.evQ ∧ (s.setReg off w).tick = s.tick ∧ (s.setReg off w).pending = s.pending ∧ 
    (s.setReg off w).out = s.out ∧ (s.setReg off w).freeCtr = s.freeCtr ∧ (s.setReg off w).newEv = s.newEv ∧ 
    (s.setReg off w).msixSent = s.msixSent ∧ (s.setReg off w).ctrs = s.ctrs ∧ (s.setReg off w).wrapQ = s.wrapQ ∧ 
    (s.setReg off w).bank = s.bank ∧ (s.setReg off w).bankTick = s.bankTick ∧ 
    (s.setReg off w).bankTime = s.bankTime ∧ (s.setReg off w).snapPend = s.snapPend ∧ 
    (s.setReg off w).lat0 = s.lat0 ∧ (s.setReg off w).lat2 = s.lat2 ∧ (s.setReg off w).wins = s.wins ∧ 
    (s.setReg off w).winOn = s.winOn ∧ (s.setReg off w).tel = s.tel ∧ (s.setReg off w).mor = s.mor ∧ 
    (s.setReg off w).pcie = s.pcie ∧ (s.setReg off w).pins = s.pins ∧ (s.setReg off w).fuses = s.fuses ∧ 
    (s.setReg off w).boot = s.boot ∧ (s.setReg off w).commit = s.commit ∧ (s.setReg off w).poolQ = s.poolQ ∧ 
    (s.setReg off w).alarmQ = s.alarmQ ∧ (s.setReg off w).noPair = s.noPair ∧ (s.setReg off w).nvm = s.nvm ∧ 
    (s.setReg off w).mem = s.mem ∧ (s.setReg off w).lnA = s.lnA ∧ (s.setReg off w).lnB = s.lnB ∧ 
    (s.setReg off w).thm = s.thm ∧ (s.setReg off w).mon0 = s.mon0 ∧ (s.setReg off w).mon1 = s.mon1 ∧ 
    (s.setReg off w).mon2 = s.mon2 ∧ (s.setReg off w).clk = s.clk ∧ (s.setReg off w).tim = s.tim ∧ 
    (s.setReg off w).rim = s.rim ∧ (s.setReg off w).d2d = s.d2d ∧ (s.setReg off w).flo = s.flo ∧ 
    (s.setReg off w).latQ = s.latQ ∧ (s.setReg off w).monUndet = s.monUndet ∧ (s.setReg off w).cph = s.cph ∧ 
    (s.setReg off w).held = s.held ∧ (s.setReg off w).stalled = s.stalled ∧ (s.setReg off w).consumed = s.consumed ∧ 
    (s.setReg off w).acted = s.acted ∧ (s.setReg off w).lockTick = s.lockTick ∧ 
    (s.setReg off w).wdogDone = s.wdogDone ∧ (s.setReg off w).esFaults = s.esFaults ∧ 
    (s.setReg off w).relockFaults = s.relockFaults ∧ (s.setReg off w).page = s.page ∧ 
    (s.setReg off w).timeNs = s.timeNs ∧ (s.setReg off w).timeFrac = s.timeFrac := by simp only [State.setReg, and_self]

@[simp] theorem State.setFld_frame (s : State) (f : Fr) (v : Nat) :
    (s.setFld f v).shadow = s.shadow ∧ (s.setFld f v).shadowDue = s.shadowDue ∧ (s.setFld f v).pubQ = s.pubQ ∧ 
    (s.setFld f v).evQ = s.evQ ∧ (s.setFld f v).tick = s.tick ∧ (s.setFld f v).pending = s.pending ∧ 
    (s.setFld f v).out = s.out ∧ (s.setFld f v).freeCtr = s.freeCtr ∧ (s.setFld f v).newEv = s.newEv ∧ 
    (s.setFld f v).msixSent = s.msixSent ∧ (s.setFld f v).ctrs = s.ctrs ∧ (s.setFld f v).wrapQ = s.wrapQ ∧ 
    (s.setFld f v).bank = s.bank ∧ (s.setFld f v).bankTick = s.bankTick ∧ (s.setFld f v).bankTime = s.bankTime ∧ 
    (s.setFld f v).snapPend = s.snapPend ∧ (s.setFld f v).lat0 = s.lat0 ∧ (s.setFld f v).lat2 = s.lat2 ∧ 
    (s.setFld f v).wins = s.wins ∧ (s.setFld f v).winOn = s.winOn ∧ (s.setFld f v).tel = s.tel ∧ 
    (s.setFld f v).mor = s.mor ∧ (s.setFld f v).pcie = s.pcie ∧ (s.setFld f v).pins = s.pins ∧ 
    (s.setFld f v).fuses = s.fuses ∧ (s.setFld f v).boot = s.boot ∧ (s.setFld f v).commit = s.commit ∧ 
    (s.setFld f v).poolQ = s.poolQ ∧ (s.setFld f v).alarmQ = s.alarmQ ∧ (s.setFld f v).noPair = s.noPair ∧ 
    (s.setFld f v).nvm = s.nvm ∧ (s.setFld f v).mem = s.mem ∧ (s.setFld f v).lnA = s.lnA ∧ 
    (s.setFld f v).lnB = s.lnB ∧ (s.setFld f v).thm = s.thm ∧ (s.setFld f v).mon0 = s.mon0 ∧ 
    (s.setFld f v).mon1 = s.mon1 ∧ (s.setFld f v).mon2 = s.mon2 ∧ (s.setFld f v).clk = s.clk ∧ 
    (s.setFld f v).tim = s.tim ∧ (s.setFld f v).rim = s.rim ∧ (s.setFld f v).d2d = s.d2d ∧ 
    (s.setFld f v).flo = s.flo ∧ (s.setFld f v).latQ = s.latQ ∧ (s.setFld f v).monUndet = s.monUndet ∧ 
    (s.setFld f v).cph = s.cph ∧ (s.setFld f v).held = s.held ∧ (s.setFld f v).stalled = s.stalled ∧ 
    (s.setFld f v).consumed = s.consumed ∧ (s.setFld f v).acted = s.acted ∧ (s.setFld f v).lockTick = s.lockTick ∧ 
    (s.setFld f v).wdogDone = s.wdogDone ∧ (s.setFld f v).esFaults = s.esFaults ∧ 
    (s.setFld f v).relockFaults = s.relockFaults ∧ (s.setFld f v).page = s.page ∧ (s.setFld f v).timeNs = s.timeNs ∧ 
    (s.setFld f v).timeFrac = s.timeFrac := by simp only [State.setFld, State.setReg, and_self]

@[simp] theorem State.emit_frame (s : State) (o : Out) :
    (s.emit o).regs = s.regs ∧ (s.emit o).shadow = s.shadow ∧ (s.emit o).shadowDue = s.shadowDue ∧ 
    (s.emit o).pubQ = s.pubQ ∧ (s.emit o).evQ = s.evQ ∧ (s.emit o).tick = s.tick ∧ (s.emit o).pending = s.pending ∧ 
    (s.emit o).freeCtr = s.freeCtr ∧ (s.emit o).newEv = s.newEv ∧ (s.emit o).msixSent = s.msixSent ∧ 
    (s.emit o).ctrs = s.ctrs ∧ (s.emit o).wrapQ = s.wrapQ ∧ (s.emit o).bank = s.bank ∧ 
    (s.emit o).bankTick = s.bankTick ∧ (s.emit o).bankTime = s.bankTime ∧ (s.emit o).snapPend = s.snapPend ∧ 
    (s.emit o).lat0 = s.lat0 ∧ (s.emit o).lat2 = s.lat2 ∧ (s.emit o).wins = s.wins ∧ (s.emit o).winOn = s.winOn ∧ 
    (s.emit o).tel = s.tel ∧ (s.emit o).mor = s.mor ∧ (s.emit o).pcie = s.pcie ∧ (s.emit o).pins = s.pins ∧ 
    (s.emit o).fuses = s.fuses ∧ (s.emit o).boot = s.boot ∧ (s.emit o).commit = s.commit ∧ 
    (s.emit o).poolQ = s.poolQ ∧ (s.emit o).alarmQ = s.alarmQ ∧ (s.emit o).noPair = s.noPair ∧ 
    (s.emit o).nvm = s.nvm ∧ (s.emit o).mem = s.mem ∧ (s.emit o).lnA = s.lnA ∧ (s.emit o).lnB = s.lnB ∧ 
    (s.emit o).thm = s.thm ∧ (s.emit o).mon0 = s.mon0 ∧ (s.emit o).mon1 = s.mon1 ∧ (s.emit o).mon2 = s.mon2 ∧ 
    (s.emit o).clk = s.clk ∧ (s.emit o).tim = s.tim ∧ (s.emit o).rim = s.rim ∧ (s.emit o).d2d = s.d2d ∧ 
    (s.emit o).flo = s.flo ∧ (s.emit o).latQ = s.latQ ∧ (s.emit o).monUndet = s.monUndet ∧ (s.emit o).cph = s.cph ∧ 
    (s.emit o).held = s.held ∧ (s.emit o).stalled = s.stalled ∧ (s.emit o).consumed = s.consumed ∧ 
    (s.emit o).acted = s.acted ∧ (s.emit o).lockTick = s.lockTick ∧ (s.emit o).wdogDone = s.wdogDone ∧ 
    (s.emit o).esFaults = s.esFaults ∧ (s.emit o).relockFaults = s.relockFaults ∧ (s.emit o).page = s.page ∧ 
    (s.emit o).timeNs = s.timeNs ∧ (s.emit o).timeFrac = s.timeFrac := by simp only [State.emit, and_self]

@[simp] theorem State.publish_frame (s : State) (f : Fr) (v : Nat) :
    (s.publish f v).regs = s.regs ∧ (s.publish f v).shadow = s.shadow ∧ (s.publish f v).shadowDue = s.shadowDue ∧ 
    (s.publish f v).evQ = s.evQ ∧ (s.publish f v).tick = s.tick ∧ (s.publish f v).pending = s.pending ∧ 
    (s.publish f v).out = s.out ∧ (s.publish f v).freeCtr = s.freeCtr ∧ (s.publish f v).newEv = s.newEv ∧ 
    (s.publish f v).msixSent = s.msixSent ∧ (s.publish f v).ctrs = s.ctrs ∧ (s.publish f v).wrapQ = s.wrapQ ∧ 
    (s.publish f v).bank = s.bank ∧ (s.publish f v).bankTick = s.bankTick ∧ (s.publish f v).bankTime = s.bankTime ∧ 
    (s.publish f v).snapPend = s.snapPend ∧ (s.publish f v).lat0 = s.lat0 ∧ (s.publish f v).lat2 = s.lat2 ∧ 
    (s.publish f v).wins = s.wins ∧ (s.publish f v).winOn = s.winOn ∧ (s.publish f v).tel = s.tel ∧ 
    (s.publish f v).mor = s.mor ∧ (s.publish f v).pcie = s.pcie ∧ (s.publish f v).pins = s.pins ∧ 
    (s.publish f v).fuses = s.fuses ∧ (s.publish f v).boot = s.boot ∧ (s.publish f v).commit = s.commit ∧ 
    (s.publish f v).poolQ = s.poolQ ∧ (s.publish f v).alarmQ = s.alarmQ ∧ (s.publish f v).noPair = s.noPair ∧ 
    (s.publish f v).nvm = s.nvm ∧ (s.publish f v).mem = s.mem ∧ (s.publish f v).lnA = s.lnA ∧ 
    (s.publish f v).lnB = s.lnB ∧ (s.publish f v).thm = s.thm ∧ (s.publish f v).mon0 = s.mon0 ∧ 
    (s.publish f v).mon1 = s.mon1 ∧ (s.publish f v).mon2 = s.mon2 ∧ (s.publish f v).clk = s.clk ∧ 
    (s.publish f v).tim = s.tim ∧ (s.publish f v).rim = s.rim ∧ (s.publish f v).d2d = s.d2d ∧ 
    (s.publish f v).flo = s.flo ∧ (s.publish f v).latQ = s.latQ ∧ (s.publish f v).monUndet = s.monUndet ∧ 
    (s.publish f v).cph = s.cph ∧ (s.publish f v).held = s.held ∧ (s.publish f v).stalled = s.stalled ∧ 
    (s.publish f v).consumed = s.consumed ∧ (s.publish f v).acted = s.acted ∧ (s.publish f v).lockTick = s.lockTick ∧ 
    (s.publish f v).wdogDone = s.wdogDone ∧ (s.publish f v).esFaults = s.esFaults ∧ 
    (s.publish f v).relockFaults = s.relockFaults ∧ (s.publish f v).page = s.page ∧ 
    (s.publish f v).timeNs = s.timeNs ∧ (s.publish f v).timeFrac = s.timeFrac := by simp only [State.publish, and_self]

@[simp] theorem State.publishReg_frame (s : State) (off v : Nat) :
    (s.publishReg off v).regs = s.regs ∧ (s.publishReg off v).shadow = s.shadow ∧ 
    (s.publishReg off v).shadowDue = s.shadowDue ∧ (s.publishReg off v).evQ = s.evQ ∧ 
    (s.publishReg off v).tick = s.tick ∧ (s.publishReg off v).pending = s.pending ∧ 
    (s.publishReg off v).out = s.out ∧ (s.publishReg off v).freeCtr = s.freeCtr ∧ 
    (s.publishReg off v).newEv = s.newEv ∧ (s.publishReg off v).msixSent = s.msixSent ∧ 
    (s.publishReg off v).ctrs = s.ctrs ∧ (s.publishReg off v).wrapQ = s.wrapQ ∧ (s.publishReg off v).bank = s.bank ∧ 
    (s.publishReg off v).bankTick = s.bankTick ∧ (s.publishReg off v).bankTime = s.bankTime ∧ 
    (s.publishReg off v).snapPend = s.snapPend ∧ (s.publishReg off v).lat0 = s.lat0 ∧ 
    (s.publishReg off v).lat2 = s.lat2 ∧ (s.publishReg off v).wins = s.wins ∧ (s.publishReg off v).winOn = s.winOn ∧ 
    (s.publishReg off v).tel = s.tel ∧ (s.publishReg off v).mor = s.mor ∧ (s.publishReg off v).pcie = s.pcie ∧ 
    (s.publishReg off v).pins = s.pins ∧ (s.publishReg off v).fuses = s.fuses ∧ (s.publishReg off v).boot = s.boot ∧ 
    (s.publishReg off v).commit = s.commit ∧ (s.publishReg off v).poolQ = s.poolQ ∧ 
    (s.publishReg off v).alarmQ = s.alarmQ ∧ (s.publishReg off v).noPair = s.noPair ∧ 
    (s.publishReg off v).nvm = s.nvm ∧ (s.publishReg off v).mem = s.mem ∧ (s.publishReg off v).lnA = s.lnA ∧ 
    (s.publishReg off v).lnB = s.lnB ∧ (s.publishReg off v).thm = s.thm ∧ (s.publishReg off v).mon0 = s.mon0 ∧ 
    (s.publishReg off v).mon1 = s.mon1 ∧ (s.publishReg off v).mon2 = s.mon2 ∧ (s.publishReg off v).clk = s.clk ∧ 
    (s.publishReg off v).tim = s.tim ∧ (s.publishReg off v).rim = s.rim ∧ (s.publishReg off v).d2d = s.d2d ∧ 
    (s.publishReg off v).flo = s.flo ∧ (s.publishReg off v).latQ = s.latQ ∧ 
    (s.publishReg off v).monUndet = s.monUndet ∧ (s.publishReg off v).cph = s.cph ∧ 
    (s.publishReg off v).held = s.held ∧ (s.publishReg off v).stalled = s.stalled ∧ 
    (s.publishReg off v).consumed = s.consumed ∧ (s.publishReg off v).acted = s.acted ∧ 
    (s.publishReg off v).lockTick = s.lockTick ∧ (s.publishReg off v).wdogDone = s.wdogDone ∧ 
    (s.publishReg off v).esFaults = s.esFaults ∧ (s.publishReg off v).relockFaults = s.relockFaults ∧ 
    (s.publishReg off v).page = s.page ∧ (s.publishReg off v).timeNs = s.timeNs ∧ 
    (s.publishReg off v).timeFrac = s.timeFrac := by simp only [State.publishReg, State.publish, and_self]

@[simp] theorem State.latch_frame (s : State) (f : Fr) (v : Nat) :
    (s.latch f v).regs = s.regs ∧ (s.latch f v).shadow = s.shadow ∧ (s.latch f v).shadowDue = s.shadowDue ∧ 
    (s.latch f v).pubQ = s.pubQ ∧ (s.latch f v).evQ = s.evQ ∧ (s.latch f v).tick = s.tick ∧ 
    (s.latch f v).pending = s.pending ∧ (s.latch f v).out = s.out ∧ (s.latch f v).freeCtr = s.freeCtr ∧ 
    (s.latch f v).newEv = s.newEv ∧ (s.latch f v).msixSent = s.msixSent ∧ (s.latch f v).ctrs = s.ctrs ∧ 
    (s.latch f v).wrapQ = s.wrapQ ∧ (s.latch f v).bank = s.bank ∧ (s.latch f v).bankTick = s.bankTick ∧ 
    (s.latch f v).bankTime = s.bankTime ∧ (s.latch f v).snapPend = s.snapPend ∧ (s.latch f v).lat0 = s.lat0 ∧ 
    (s.latch f v).lat2 = s.lat2 ∧ (s.latch f v).wins = s.wins ∧ (s.latch f v).winOn = s.winOn ∧ 
    (s.latch f v).tel = s.tel ∧ (s.latch f v).mor = s.mor ∧ (s.latch f v).pcie = s.pcie ∧ 
    (s.latch f v).pins = s.pins ∧ (s.latch f v).fuses = s.fuses ∧ (s.latch f v).boot = s.boot ∧ 
    (s.latch f v).commit = s.commit ∧ (s.latch f v).poolQ = s.poolQ ∧ (s.latch f v).alarmQ = s.alarmQ ∧ 
    (s.latch f v).noPair = s.noPair ∧ (s.latch f v).nvm = s.nvm ∧ (s.latch f v).mem = s.mem ∧ 
    (s.latch f v).lnA = s.lnA ∧ (s.latch f v).lnB = s.lnB ∧ (s.latch f v).thm = s.thm ∧ (s.latch f v).mon0 = s.mon0 ∧ 
    (s.latch f v).mon1 = s.mon1 ∧ (s.latch f v).mon2 = s.mon2 ∧ (s.latch f v).clk = s.clk ∧ 
    (s.latch f v).tim = s.tim ∧ (s.latch f v).rim = s.rim ∧ (s.latch f v).d2d = s.d2d ∧ (s.latch f v).flo = s.flo ∧ 
    (s.latch f v).monUndet = s.monUndet ∧ (s.latch f v).cph = s.cph ∧ (s.latch f v).held = s.held ∧ 
    (s.latch f v).stalled = s.stalled ∧ (s.latch f v).consumed = s.consumed ∧ (s.latch f v).acted = s.acted ∧ 
    (s.latch f v).lockTick = s.lockTick ∧ (s.latch f v).wdogDone = s.wdogDone ∧ (s.latch f v).esFaults = s.esFaults ∧ 
    (s.latch f v).relockFaults = s.relockFaults ∧ (s.latch f v).page = s.page ∧ (s.latch f v).timeNs = s.timeNs ∧ 
    (s.latch f v).timeFrac = s.timeFrac := by simp only [State.latch, and_self]

@[simp] theorem State.latchReg_frame (s : State) (off v : Nat) :
    (s.latchReg off v).regs = s.regs ∧ (s.latchReg off v).shadow = s.shadow ∧ 
    (s.latchReg off v).shadowDue = s.shadowDue ∧ (s.latchReg off v).pubQ = s.pubQ ∧ (s.latchReg off v).evQ = s.evQ ∧ 
    (s.latchReg off v).tick = s.tick ∧ (s.latchReg off v).pending = s.pending ∧ (s.latchReg off v).out = s.out ∧ 
    (s.latchReg off v).freeCtr = s.freeCtr ∧ (s.latchReg off v).newEv = s.newEv ∧ 
    (s.latchReg off v).msixSent = s.msixSent ∧ (s.latchReg off v).ctrs = s.ctrs ∧ 
    (s.latchReg off v).wrapQ = s.wrapQ ∧ (s.latchReg off v).bank = s.bank ∧ 
    (s.latchReg off v).bankTick = s.bankTick ∧ (s.latchReg off v).bankTime = s.bankTime ∧ 
    (s.latchReg off v).snapPend = s.snapPend ∧ (s.latchReg off v).lat0 = s.lat0 ∧ (s.latchReg off v).lat2 = s.lat2 ∧ 
    (s.latchReg off v).wins = s.wins ∧ (s.latchReg off v).winOn = s.winOn ∧ (s.latchReg off v).tel = s.tel ∧ 
    (s.latchReg off v).mor = s.mor ∧ (s.latchReg off v).pcie = s.pcie ∧ (s.latchReg off v).pins = s.pins ∧ 
    (s.latchReg off v).fuses = s.fuses ∧ (s.latchReg off v).boot = s.boot ∧ (s.latchReg off v).commit = s.commit ∧ 
    (s.latchReg off v).poolQ = s.poolQ ∧ (s.latchReg off v).alarmQ = s.alarmQ ∧ 
    (s.latchReg off v).noPair = s.noPair ∧ (s.latchReg off v).nvm = s.nvm ∧ (s.latchReg off v).mem = s.mem ∧ 
    (s.latchReg off v).lnA = s.lnA ∧ (s.latchReg off v).lnB = s.lnB ∧ (s.latchReg off v).thm = s.thm ∧ 
    (s.latchReg off v).mon0 = s.mon0 ∧ (s.latchReg off v).mon1 = s.mon1 ∧ (s.latchReg off v).mon2 = s.mon2 ∧ 
    (s.latchReg off v).clk = s.clk ∧ (s.latchReg off v).tim = s.tim ∧ (s.latchReg off v).rim = s.rim ∧ 
    (s.latchReg off v).d2d = s.d2d ∧ (s.latchReg off v).flo = s.flo ∧ (s.latchReg off v).monUndet = s.monUndet ∧ 
    (s.latchReg off v).cph = s.cph ∧ (s.latchReg off v).held = s.held ∧ (s.latchReg off v).stalled = s.stalled ∧ 
    (s.latchReg off v).consumed = s.consumed ∧ (s.latchReg off v).acted = s.acted ∧ 
    (s.latchReg off v).lockTick = s.lockTick ∧ (s.latchReg off v).wdogDone = s.wdogDone ∧ 
    (s.latchReg off v).esFaults = s.esFaults ∧ (s.latchReg off v).relockFaults = s.relockFaults ∧ 
    (s.latchReg off v).page = s.page ∧ (s.latchReg off v).timeNs = s.timeNs ∧ (s.latchReg off v).timeFrac = s.timeFrac := by simp only [State.latchReg, State.latch, and_self]

@[simp] theorem State.loadShadow_frame (s : State) (off : Nat) :
    (s.loadShadow off).regs = s.regs ∧ (s.loadShadow off).shadowDue = s.shadowDue ∧ 
    (s.loadShadow off).pubQ = s.pubQ ∧ (s.loadShadow off).evQ = s.evQ ∧ (s.loadShadow off).tick = s.tick ∧ 
    (s.loadShadow off).pending = s.pending ∧ (s.loadShadow off).out = s.out ∧ 
    (s.loadShadow off).freeCtr = s.freeCtr ∧ (s.loadShadow off).newEv = s.newEv ∧ 
    (s.loadShadow off).msixSent = s.msixSent ∧ (s.loadShadow off).ctrs = s.ctrs ∧ 
    (s.loadShadow off).wrapQ = s.wrapQ ∧ (s.loadShadow off).bank = s.bank ∧ 
    (s.loadShadow off).bankTick = s.bankTick ∧ (s.loadShadow off).bankTime = s.bankTime ∧ 
    (s.loadShadow off).snapPend = s.snapPend ∧ (s.loadShadow off).lat0 = s.lat0 ∧ (s.loadShadow off).lat2 = s.lat2 ∧ 
    (s.loadShadow off).wins = s.wins ∧ (s.loadShadow off).winOn = s.winOn ∧ (s.loadShadow off).tel = s.tel ∧ 
    (s.loadShadow off).mor = s.mor ∧ (s.loadShadow off).pcie = s.pcie ∧ (s.loadShadow off).pins = s.pins ∧ 
    (s.loadShadow off).fuses = s.fuses ∧ (s.loadShadow off).boot = s.boot ∧ (s.loadShadow off).commit = s.commit ∧ 
    (s.loadShadow off).poolQ = s.poolQ ∧ (s.loadShadow off).alarmQ = s.alarmQ ∧ 
    (s.loadShadow off).noPair = s.noPair ∧ (s.loadShadow off).nvm = s.nvm ∧ (s.loadShadow off).mem = s.mem ∧ 
    (s.loadShadow off).lnA = s.lnA ∧ (s.loadShadow off).lnB = s.lnB ∧ (s.loadShadow off).thm = s.thm ∧ 
    (s.loadShadow off).mon0 = s.mon0 ∧ (s.loadShadow off).mon1 = s.mon1 ∧ (s.loadShadow off).mon2 = s.mon2 ∧ 
    (s.loadShadow off).clk = s.clk ∧ (s.loadShadow off).tim = s.tim ∧ (s.loadShadow off).rim = s.rim ∧ 
    (s.loadShadow off).d2d = s.d2d ∧ (s.loadShadow off).flo = s.flo ∧ (s.loadShadow off).latQ = s.latQ ∧ 
    (s.loadShadow off).monUndet = s.monUndet ∧ (s.loadShadow off).cph = s.cph ∧ (s.loadShadow off).held = s.held ∧ 
    (s.loadShadow off).stalled = s.stalled ∧ (s.loadShadow off).consumed = s.consumed ∧ 
    (s.loadShadow off).acted = s.acted ∧ (s.loadShadow off).lockTick = s.lockTick ∧ 
    (s.loadShadow off).wdogDone = s.wdogDone ∧ (s.loadShadow off).esFaults = s.esFaults ∧ 
    (s.loadShadow off).relockFaults = s.relockFaults ∧ (s.loadShadow off).page = s.page ∧ 
    (s.loadShadow off).timeNs = s.timeNs ∧ (s.loadShadow off).timeFrac = s.timeFrac := by simp only [State.loadShadow, and_self]

@[simp] theorem State.alarm_frame (s : State) (code sev : Nat) (raised : Bool) (detail : Nat) :
    (s.alarm code sev raised detail).regs = s.regs ∧ (s.alarm code sev raised detail).shadow = s.shadow ∧ 
    (s.alarm code sev raised detail).shadowDue = s.shadowDue ∧ (s.alarm code sev raised detail).pubQ = s.pubQ ∧ 
    (s.alarm code sev raised detail).evQ = s.evQ ∧ (s.alarm code sev raised detail).tick = s.tick ∧ 
    (s.alarm code sev raised detail).pending = s.pending ∧ (s.alarm code sev raised detail).out = s.out ∧ 
    (s.alarm code sev raised detail).freeCtr = s.freeCtr ∧ (s.alarm code sev raised detail).newEv = s.newEv ∧ 
    (s.alarm code sev raised detail).msixSent = s.msixSent ∧ (s.alarm code sev raised detail).ctrs = s.ctrs ∧ 
    (s.alarm code sev raised detail).wrapQ = s.wrapQ ∧ (s.alarm code sev raised detail).bank = s.bank ∧ 
    (s.alarm code sev raised detail).bankTick = s.bankTick ∧ (s.alarm code sev raised detail).bankTime = s.bankTime ∧ 
    (s.alarm code sev raised detail).snapPend = s.snapPend ∧ (s.alarm code sev raised detail).lat0 = s.lat0 ∧ 
    (s.alarm code sev raised detail).lat2 = s.lat2 ∧ (s.alarm code sev raised detail).wins = s.wins ∧ 
    (s.alarm code sev raised detail).winOn = s.winOn ∧ (s.alarm code sev raised detail).tel = s.tel ∧ 
    (s.alarm code sev raised detail).mor = s.mor ∧ (s.alarm code sev raised detail).pcie = s.pcie ∧ 
    (s.alarm code sev raised detail).pins = s.pins ∧ (s.alarm code sev raised detail).fuses = s.fuses ∧ 
    (s.alarm code sev raised detail).boot = s.boot ∧ (s.alarm code sev raised detail).commit = s.commit ∧ 
    (s.alarm code sev raised detail).poolQ = s.poolQ ∧ (s.alarm code sev raised detail).noPair = s.noPair ∧ 
    (s.alarm code sev raised detail).nvm = s.nvm ∧ (s.alarm code sev raised detail).mem = s.mem ∧ 
    (s.alarm code sev raised detail).lnA = s.lnA ∧ (s.alarm code sev raised detail).lnB = s.lnB ∧ 
    (s.alarm code sev raised detail).thm = s.thm ∧ (s.alarm code sev raised detail).mon0 = s.mon0 ∧ 
    (s.alarm code sev raised detail).mon1 = s.mon1 ∧ (s.alarm code sev raised detail).mon2 = s.mon2 ∧ 
    (s.alarm code sev raised detail).clk = s.clk ∧ (s.alarm code sev raised detail).tim = s.tim ∧ 
    (s.alarm code sev raised detail).rim = s.rim ∧ (s.alarm code sev raised detail).d2d = s.d2d ∧ 
    (s.alarm code sev raised detail).flo = s.flo ∧ (s.alarm code sev raised detail).latQ = s.latQ ∧ 
    (s.alarm code sev raised detail).monUndet = s.monUndet ∧ (s.alarm code sev raised detail).cph = s.cph ∧ 
    (s.alarm code sev raised detail).held = s.held ∧ (s.alarm code sev raised detail).stalled = s.stalled ∧ 
    (s.alarm code sev raised detail).consumed = s.consumed ∧ (s.alarm code sev raised detail).acted = s.acted ∧ 
    (s.alarm code sev raised detail).lockTick = s.lockTick ∧ (s.alarm code sev raised detail).wdogDone = s.wdogDone ∧ 
    (s.alarm code sev raised detail).esFaults = s.esFaults ∧ 
    (s.alarm code sev raised detail).relockFaults = s.relockFaults ∧ (s.alarm code sev raised detail).page = s.page ∧ 
    (s.alarm code sev raised detail).timeNs = s.timeNs ∧ (s.alarm code sev raised detail).timeFrac = s.timeFrac := by simp only [State.alarm, and_self]

@[simp] theorem State.refreshPage_frame (s : State) :
    (s.refreshPage).regs = s.regs ∧ (s.refreshPage).shadow = s.shadow ∧ (s.refreshPage).shadowDue = s.shadowDue ∧ 
    (s.refreshPage).pubQ = s.pubQ ∧ (s.refreshPage).evQ = s.evQ ∧ (s.refreshPage).tick = s.tick ∧ 
    (s.refreshPage).pending = s.pending ∧ (s.refreshPage).out = s.out ∧ (s.refreshPage).freeCtr = s.freeCtr ∧ 
    (s.refreshPage).newEv = s.newEv ∧ (s.refreshPage).msixSent = s.msixSent ∧ (s.refreshPage).ctrs = s.ctrs ∧ 
    (s.refreshPage).wrapQ = s.wrapQ ∧ (s.refreshPage).bank = s.bank ∧ (s.refreshPage).bankTick = s.bankTick ∧ 
    (s.refreshPage).bankTime = s.bankTime ∧ (s.refreshPage).snapPend = s.snapPend ∧ (s.refreshPage).lat0 = s.lat0 ∧ 
    (s.refreshPage).lat2 = s.lat2 ∧ (s.refreshPage).wins = s.wins ∧ (s.refreshPage).winOn = s.winOn ∧ 
    (s.refreshPage).tel = s.tel ∧ (s.refreshPage).mor = s.mor ∧ (s.refreshPage).pcie = s.pcie ∧ 
    (s.refreshPage).pins = s.pins ∧ (s.refreshPage).fuses = s.fuses ∧ (s.refreshPage).boot = s.boot ∧ 
    (s.refreshPage).commit = s.commit ∧ (s.refreshPage).poolQ = s.poolQ ∧ (s.refreshPage).alarmQ = s.alarmQ ∧ 
    (s.refreshPage).noPair = s.noPair ∧ (s.refreshPage).nvm = s.nvm ∧ (s.refreshPage).mem = s.mem ∧ 
    (s.refreshPage).lnA = s.lnA ∧ (s.refreshPage).lnB = s.lnB ∧ (s.refreshPage).thm = s.thm ∧ 
    (s.refreshPage).mon0 = s.mon0 ∧ (s.refreshPage).mon1 = s.mon1 ∧ (s.refreshPage).mon2 = s.mon2 ∧ 
    (s.refreshPage).clk = s.clk ∧ (s.refreshPage).tim = s.tim ∧ (s.refreshPage).rim = s.rim ∧ 
    (s.refreshPage).d2d = s.d2d ∧ (s.refreshPage).flo = s.flo ∧ (s.refreshPage).latQ = s.latQ ∧ 
    (s.refreshPage).monUndet = s.monUndet ∧ (s.refreshPage).cph = s.cph ∧ (s.refreshPage).held = s.held ∧ 
    (s.refreshPage).stalled = s.stalled ∧ (s.refreshPage).consumed = s.consumed ∧ (s.refreshPage).acted = s.acted ∧ 
    (s.refreshPage).lockTick = s.lockTick ∧ (s.refreshPage).wdogDone = s.wdogDone ∧ 
    (s.refreshPage).esFaults = s.esFaults ∧ (s.refreshPage).relockFaults = s.relockFaults ∧ 
    (s.refreshPage).timeNs = s.timeNs ∧ (s.refreshPage).timeFrac = s.timeFrac := by simp only [State.refreshPage, and_self]

@[simp] theorem State.setFldIf_frame (s : State) (c : Bool) (f : Fr) (v : Nat) :
    (s.setFldIf c f v).shadow = s.shadow ∧ (s.setFldIf c f v).shadowDue = s.shadowDue ∧ 
    (s.setFldIf c f v).pubQ = s.pubQ ∧ (s.setFldIf c f v).evQ = s.evQ ∧ (s.setFldIf c f v).tick = s.tick ∧ 
    (s.setFldIf c f v).pending = s.pending ∧ (s.setFldIf c f v).out = s.out ∧ 
    (s.setFldIf c f v).freeCtr = s.freeCtr ∧ (s.setFldIf c f v).newEv = s.newEv ∧ 
    (s.setFldIf c f v).msixSent = s.msixSent ∧ (s.setFldIf c f v).ctrs = s.ctrs ∧ 
    (s.setFldIf c f v).wrapQ = s.wrapQ ∧ (s.setFldIf c f v).bank = s.bank ∧ 
    (s.setFldIf c f v).bankTick = s.bankTick ∧ (s.setFldIf c f v).bankTime = s.bankTime ∧ 
    (s.setFldIf c f v).snapPend = s.snapPend ∧ (s.setFldIf c f v).lat0 = s.lat0 ∧ (s.setFldIf c f v).lat2 = s.lat2 ∧ 
    (s.setFldIf c f v).wins = s.wins ∧ (s.setFldIf c f v).winOn = s.winOn ∧ (s.setFldIf c f v).tel = s.tel ∧ 
    (s.setFldIf c f v).mor = s.mor ∧ (s.setFldIf c f v).pcie = s.pcie ∧ (s.setFldIf c f v).pins = s.pins ∧ 
    (s.setFldIf c f v).fuses = s.fuses ∧ (s.setFldIf c f v).boot = s.boot ∧ (s.setFldIf c f v).commit = s.commit ∧ 
    (s.setFldIf c f v).poolQ = s.poolQ ∧ (s.setFldIf c f v).alarmQ = s.alarmQ ∧ 
    (s.setFldIf c f v).noPair = s.noPair ∧ (s.setFldIf c f v).nvm = s.nvm ∧ (s.setFldIf c f v).mem = s.mem ∧ 
    (s.setFldIf c f v).lnA = s.lnA ∧ (s.setFldIf c f v).lnB = s.lnB ∧ (s.setFldIf c f v).thm = s.thm ∧ 
    (s.setFldIf c f v).mon0 = s.mon0 ∧ (s.setFldIf c f v).mon1 = s.mon1 ∧ (s.setFldIf c f v).mon2 = s.mon2 ∧ 
    (s.setFldIf c f v).clk = s.clk ∧ (s.setFldIf c f v).tim = s.tim ∧ (s.setFldIf c f v).rim = s.rim ∧ 
    (s.setFldIf c f v).d2d = s.d2d ∧ (s.setFldIf c f v).flo = s.flo ∧ (s.setFldIf c f v).latQ = s.latQ ∧ 
    (s.setFldIf c f v).monUndet = s.monUndet ∧ (s.setFldIf c f v).cph = s.cph ∧ (s.setFldIf c f v).held = s.held ∧ 
    (s.setFldIf c f v).stalled = s.stalled ∧ (s.setFldIf c f v).consumed = s.consumed ∧ 
    (s.setFldIf c f v).acted = s.acted ∧ (s.setFldIf c f v).lockTick = s.lockTick ∧ 
    (s.setFldIf c f v).wdogDone = s.wdogDone ∧ (s.setFldIf c f v).esFaults = s.esFaults ∧ 
    (s.setFldIf c f v).relockFaults = s.relockFaults ∧ (s.setFldIf c f v).page = s.page ∧ 
    (s.setFldIf c f v).timeNs = s.timeNs ∧ (s.setFldIf c f v).timeFrac = s.timeFrac := by
  unfold State.setFldIf
  split <;> simp only [State.setFld, State.setReg, and_self]

@[simp] theorem State.dueShadow_frame (s : State) (off : Nat) :
    (s.dueShadow off).regs = s.regs ∧ (s.dueShadow off).shadow = s.shadow ∧ (s.dueShadow off).pubQ = s.pubQ ∧ 
    (s.dueShadow off).evQ = s.evQ ∧ (s.dueShadow off).tick = s.tick ∧ (s.dueShadow off).pending = s.pending ∧ 
    (s.dueShadow off).out = s.out ∧ (s.dueShadow off).freeCtr = s.freeCtr ∧ (s.dueShadow off).newEv = s.newEv ∧ 
    (s.dueShadow off).msixSent = s.msixSent ∧ (s.dueShadow off).ctrs = s.ctrs ∧ (s.dueShadow off).wrapQ = s.wrapQ ∧ 
    (s.dueShadow off).bank = s.bank ∧ (s.dueShadow off).bankTick = s.bankTick ∧ 
    (s.dueShadow off).bankTime = s.bankTime ∧ (s.dueShadow off).snapPend = s.snapPend ∧ 
    (s.dueShadow off).lat0 = s.lat0 ∧ (s.dueShadow off).lat2 = s.lat2 ∧ (s.dueShadow off).wins = s.wins ∧ 
    (s.dueShadow off).winOn = s.winOn ∧ (s.dueShadow off).tel = s.tel ∧ (s.dueShadow off).mor = s.mor ∧ 
    (s.dueShadow off).pcie = s.pcie ∧ (s.dueShadow off).pins = s.pins ∧ (s.dueShadow off).fuses = s.fuses ∧ 
    (s.dueShadow off).boot = s.boot ∧ (s.dueShadow off).commit = s.commit ∧ (s.dueShadow off).poolQ = s.poolQ ∧ 
    (s.dueShadow off).alarmQ = s.alarmQ ∧ (s.dueShadow off).noPair = s.noPair ∧ (s.dueShadow off).nvm = s.nvm ∧ 
    (s.dueShadow off).mem = s.mem ∧ (s.dueShadow off).lnA = s.lnA ∧ (s.dueShadow off).lnB = s.lnB ∧ 
    (s.dueShadow off).thm = s.thm ∧ (s.dueShadow off).mon0 = s.mon0 ∧ (s.dueShadow off).mon1 = s.mon1 ∧ 
    (s.dueShadow off).mon2 = s.mon2 ∧ (s.dueShadow off).clk = s.clk ∧ (s.dueShadow off).tim = s.tim ∧ 
    (s.dueShadow off).rim = s.rim ∧ (s.dueShadow off).d2d = s.d2d ∧ (s.dueShadow off).flo = s.flo ∧ 
    (s.dueShadow off).latQ = s.latQ ∧ (s.dueShadow off).monUndet = s.monUndet ∧ (s.dueShadow off).cph = s.cph ∧ 
    (s.dueShadow off).held = s.held ∧ (s.dueShadow off).stalled = s.stalled ∧ 
    (s.dueShadow off).consumed = s.consumed ∧ (s.dueShadow off).acted = s.acted ∧ 
    (s.dueShadow off).lockTick = s.lockTick ∧ (s.dueShadow off).wdogDone = s.wdogDone ∧ 
    (s.dueShadow off).esFaults = s.esFaults ∧ (s.dueShadow off).relockFaults = s.relockFaults ∧ 
    (s.dueShadow off).page = s.page ∧ (s.dueShadow off).timeNs = s.timeNs ∧ (s.dueShadow off).timeFrac = s.timeFrac := by
  unfold State.dueShadow
  split <;> simp only [and_self]

@[simp] theorem State.count_frame (s : State) (k n : Nat) :
    (s.count k n).regs = s.regs ∧ (s.count k n).shadow = s.shadow ∧ (s.count k n).shadowDue = s.shadowDue ∧ 
    (s.count k n).pubQ = s.pubQ ∧ (s.count k n).evQ = s.evQ ∧ (s.count k n).tick = s.tick ∧ 
    (s.count k n).pending = s.pending ∧ (s.count k n).out = s.out ∧ (s.count k n).freeCtr = s.freeCtr ∧ 
    (s.count k n).newEv = s.newEv ∧ (s.count k n).msixSent = s.msixSent ∧ (s.count k n).bank = s.bank ∧ 
    (s.count k n).bankTick = s.bankTick ∧ (s.count k n).bankTime = s.bankTime ∧ (s.count k n).snapPend = s.snapPend ∧ 
    (s.count k n).lat0 = s.lat0 ∧ (s.count k n).lat2 = s.lat2 ∧ (s.count k n).wins = s.wins ∧ 
    (s.count k n).winOn = s.winOn ∧ (s.count k n).tel = s.tel ∧ (s.count k n).mor = s.mor ∧ 
    (s.count k n).pcie = s.pcie ∧ (s.count k n).pins = s.pins ∧ (s.count k n).fuses = s.fuses ∧ 
    (s.count k n).boot = s.boot ∧ (s.count k n).commit = s.commit ∧ (s.count k n).poolQ = s.poolQ ∧ 
    (s.count k n).alarmQ = s.alarmQ ∧ (s.count k n).noPair = s.noPair ∧ (s.count k n).nvm = s.nvm ∧ 
    (s.count k n).mem = s.mem ∧ (s.count k n).lnA = s.lnA ∧ (s.count k n).lnB = s.lnB ∧ (s.count k n).thm = s.thm ∧ 
    (s.count k n).mon0 = s.mon0 ∧ (s.count k n).mon1 = s.mon1 ∧ (s.count k n).mon2 = s.mon2 ∧ 
    (s.count k n).clk = s.clk ∧ (s.count k n).tim = s.tim ∧ (s.count k n).rim = s.rim ∧ (s.count k n).d2d = s.d2d ∧ 
    (s.count k n).flo = s.flo ∧ (s.count k n).latQ = s.latQ ∧ (s.count k n).monUndet = s.monUndet ∧ 
    (s.count k n).cph = s.cph ∧ (s.count k n).held = s.held ∧ (s.count k n).stalled = s.stalled ∧ 
    (s.count k n).consumed = s.consumed ∧ (s.count k n).acted = s.acted ∧ (s.count k n).lockTick = s.lockTick ∧ 
    (s.count k n).wdogDone = s.wdogDone ∧ (s.count k n).esFaults = s.esFaults ∧ 
    (s.count k n).relockFaults = s.relockFaults ∧ (s.count k n).page = s.page ∧ (s.count k n).timeNs = s.timeNs ∧ 
    (s.count k n).timeFrac = s.timeFrac := by
  obtain ⟨c, q, h⟩ := s.count_form k n
  rw [h]
  simp only [and_self]

@[simp] theorem State.setReg64_frame (s : State) (lo hi v : Nat) :
    (s.setReg64 lo hi v).shadow = s.shadow ∧ (s.setReg64 lo hi v).shadowDue = s.shadowDue ∧ 
    (s.setReg64 lo hi v).pubQ = s.pubQ ∧ (s.setReg64 lo hi v).evQ = s.evQ ∧ (s.setReg64 lo hi v).tick = s.tick ∧ 
    (s.setReg64 lo hi v).pending = s.pending ∧ (s.setReg64 lo hi v).out = s.out ∧ 
    (s.setReg64 lo hi v).freeCtr = s.freeCtr ∧ (s.setReg64 lo hi v).newEv = s.newEv ∧ 
    (s.setReg64 lo hi v).msixSent = s.msixSent ∧ (s.setReg64 lo hi v).ctrs = s.ctrs ∧ 
    (s.setReg64 lo hi v).wrapQ = s.wrapQ ∧ (s.setReg64 lo hi v).bank = s.bank ∧ 
    (s.setReg64 lo hi v).bankTick = s.bankTick ∧ (s.setReg64 lo hi v).bankTime = s.bankTime ∧ 
    (s.setReg64 lo hi v).snapPend = s.snapPend ∧ (s.setReg64 lo hi v).lat0 = s.lat0 ∧ 
    (s.setReg64 lo hi v).lat2 = s.lat2 ∧ (s.setReg64 lo hi v).wins = s.wins ∧ (s.setReg64 lo hi v).winOn = s.winOn ∧ 
    (s.setReg64 lo hi v).tel = s.tel ∧ (s.setReg64 lo hi v).mor = s.mor ∧ (s.setReg64 lo hi v).pcie = s.pcie ∧ 
    (s.setReg64 lo hi v).pins = s.pins ∧ (s.setReg64 lo hi v).fuses = s.fuses ∧ (s.setReg64 lo hi v).boot = s.boot ∧ 
    (s.setReg64 lo hi v).commit = s.commit ∧ (s.setReg64 lo hi v).poolQ = s.poolQ ∧ 
    (s.setReg64 lo hi v).alarmQ = s.alarmQ ∧ (s.setReg64 lo hi v).noPair = s.noPair ∧ 
    (s.setReg64 lo hi v).nvm = s.nvm ∧ (s.setReg64 lo hi v).mem = s.mem ∧ (s.setReg64 lo hi v).lnA = s.lnA ∧ 
    (s.setReg64 lo hi v).lnB = s.lnB ∧ (s.setReg64 lo hi v).thm = s.thm ∧ (s.setReg64 lo hi v).mon0 = s.mon0 ∧ 
    (s.setReg64 lo hi v).mon1 = s.mon1 ∧ (s.setReg64 lo hi v).mon2 = s.mon2 ∧ (s.setReg64 lo hi v).clk = s.clk ∧ 
    (s.setReg64 lo hi v).tim = s.tim ∧ (s.setReg64 lo hi v).rim = s.rim ∧ (s.setReg64 lo hi v).d2d = s.d2d ∧ 
    (s.setReg64 lo hi v).flo = s.flo ∧ (s.setReg64 lo hi v).latQ = s.latQ ∧ 
    (s.setReg64 lo hi v).monUndet = s.monUndet ∧ (s.setReg64 lo hi v).cph = s.cph ∧ 
    (s.setReg64 lo hi v).held = s.held ∧ (s.setReg64 lo hi v).stalled = s.stalled ∧ 
    (s.setReg64 lo hi v).consumed = s.consumed ∧ (s.setReg64 lo hi v).acted = s.acted ∧ 
    (s.setReg64 lo hi v).lockTick = s.lockTick ∧ (s.setReg64 lo hi v).wdogDone = s.wdogDone ∧ 
    (s.setReg64 lo hi v).esFaults = s.esFaults ∧ (s.setReg64 lo hi v).relockFaults = s.relockFaults ∧ 
    (s.setReg64 lo hi v).page = s.page ∧ (s.setReg64 lo hi v).timeNs = s.timeNs ∧ 
    (s.setReg64 lo hi v).timeFrac = s.timeFrac := by simp only [State.setReg64, State.setReg, and_self]

/-! ### Registers -/

theorem State.reg_setReg (s : State) (off off' : Nat) (w : Word) : (s.setReg off w).reg off' = if off = off' then w else s.reg off' :=
  SMap.get_set regReset s.regs off off' w

@[simp] theorem State.reg_setReg_self (s : State) (off : Nat) (w : Word) : (s.setReg off w).reg off = w := by simp [State.reg_setReg]

theorem State.reg_setReg_ne (s : State) {off off' : Nat} (w : Word) (h : off ≠ off') : (s.setReg off w).reg off' = s.reg off' := by
  rw [State.reg_setReg, if_neg h]

theorem State.reg_setFld_ne (s : State) {f : Fr} {off : Nat} (v : Nat) (h : f.off ≠ off) : (s.setFld f v).reg off = s.reg off :=
  State.reg_setReg_ne s _ h

/-- A field just set reads as the value's low bits. -/
theorem State.fld_setFld (s : State) (f : Fr) (v : Nat) (h : f.lo ≤ f.hi) (h2 : f.hi < 32) :
    (s.setFld f v).fld f = v % 2 ^ (f.hi + 1 - f.lo) := by
  unfold State.fld State.setFld
  rw [State.reg_setReg_self, getBits_setBits _ _ _ _ h h2]

/-- A field of another register, or beside the one set in the same register, is unchanged. -/
theorem State.fld_setFld_ne (s : State) (f g : Fr) (v : Nat) (h : f.lo ≤ f.hi) (h2 : f.hi < 32)
    (hd : f.off ≠ g.off ∨ f.hi < g.lo ∨ g.hi < f.lo) : (s.setFld f v).fld g = s.fld g := by
  unfold State.fld State.setFld
  by_cases he : f.off = g.off
  · rw [← he, State.reg_setReg_self, getBits_setBits_ne _ _ _ _ _ _ h h2 (hd.resolve_left (fun hn => hn he))]
  · rw [State.reg_setReg_ne _ _ he]

theorem State.bit_eq (s : State) (f : Fr) : s.bit f = decide (s.fld f = 1) := rfl

theorem State.bit_setFld (s : State) (f : Fr) (h : f.lo = f.hi) (h2 : f.hi < 32) : (s.setFld f 1).bit f = true := by
  rw [State.bit_eq, State.fld_setFld s f 1 (le_of_eq h) h2, h]
  simp

theorem State.fld_congr (s t : State) (f : Fr) (h : t.reg f.off = s.reg f.off) : t.fld f = s.fld f := by
  unfold State.fld; rw [h]

/-- A field just published shows its value from the next boundary on. -/
theorem State.nextFld_publish (s : State) (f : Fr) (v : Nat) : (s.publish f v).nextFld f = v := by
  simp [State.nextFld, State.publish]

theorem State.nextFld_publish_ne (s : State) {f g : Fr} (v : Nat) (h : f ≠ g) : (s.publish f v).nextFld g = s.nextFld g := by
  simp [State.nextFld, State.publish, h, State.fld, State.reg]

/-- With no result waiting for the boundary, a field shows then what it shows now. -/
theorem State.nextFld_nil (s : State) (f : Fr) (h : s.pubQ = []) : s.nextFld f = s.fld f := by
  simp [State.nextFld, h]

/-- A state that differs elsewhere has the same registers. -/
theorem State.reg_congr (s t : State) (h : t.regs = s.regs) (off : Nat) : t.reg off = s.reg off := by
  unfold State.reg; rw [h]

end Sys2Proof.Machine
end

