-- ==== Sys2Proof/Laws/Flags.lean ====
section
/-! SUPPORT. What counting, raising events and phase 8 can touch, and what the registers read after them. -/

namespace Sys2Proof.Machine

/-! ### Frames -/

/-- Setting an event bit touches its register and the note for the block's message. -/
theorem State.setEvent_form (s : State) (f : Fr) : ∃ x0 x1,
    s.setEvent f = { s with regs := x0, newEv := x1 } := by
  unfold State.setEvent
  dsimp only
  split
  · exact ⟨_, _, rfl⟩
  · exact ⟨_, s.newEv, rfl⟩

@[simp] theorem State.setEvent_frame (s : State) (f : Fr) :
    (s.setEvent f).shadow = s.shadow ∧ (s.setEvent f).shadowDue = s.shadowDue ∧ (s.setEvent f).pubQ = s.pubQ ∧ 
    (s.setEvent f).evQ = s.evQ ∧ (s.setEvent f).tick = s.tick ∧ (s.setEvent f).pending = s.pending ∧ 
    (s.setEvent f).out = s.out ∧ (s.setEvent f).freeCtr = s.freeCtr ∧ (s.setEvent f).msixSent = s.msixSent ∧ 
    (s.setEvent f).ctrs = s.ctrs ∧ (s.setEvent f).wrapQ = s.wrapQ ∧ (s.setEvent f).bank = s.bank ∧ 
    (s.setEvent f).bankTick = s.bankTick ∧ (s.setEvent f).bankTime = s.bankTime ∧ 
    (s.setEvent f).snapPend = s.snapPend ∧ (s.setEvent f).lat0 = s.lat0 ∧ (s.setEvent f).lat2 = s.lat2 ∧ 
    (s.setEvent f).wins = s.wins ∧ (s.setEvent f).winOn = s.winOn ∧ (s.setEvent f).tel = s.tel ∧ 
    (s.setEvent f).mor = s.mor ∧ (s.setEvent f).pcie = s.pcie ∧ (s.setEvent f).pins = s.pins ∧ 
    (s.setEvent f).fuses = s.fuses ∧ (s.setEvent f).boot = s.boot ∧ (s.setEvent f).commit = s.commit ∧ 
    (s.setEvent f).poolQ = s.poolQ ∧ (s.setEvent f).alarmQ = s.alarmQ ∧ (s.setEvent f).noPair = s.noPair ∧ 
    (s.setEvent f).nvm = s.nvm ∧ (s.setEvent f).mem = s.mem ∧ (s.setEvent f).lnA = s.lnA ∧ 
    (s.setEvent f).lnB = s.lnB ∧ (s.setEvent f).thm = s.thm ∧ (s.setEvent f).mon0 = s.mon0 ∧ 
    (s.setEvent f).mon1 = s.mon1 ∧ (s.setEvent f).mon2 = s.mon2 ∧ (s.setEvent f).clk = s.clk ∧ 
    (s.setEvent f).tim = s.tim ∧ (s.setEvent f).rim = s.rim ∧ (s.setEvent f).d2d = s.d2d ∧ 
    (s.setEvent f).flo = s.flo ∧ (s.setEvent f).latQ = s.latQ ∧ (s.setEvent f).monUndet = s.monUndet ∧ 
    (s.setEvent f).cph = s.cph ∧ (s.setEvent f).held = s.held ∧ (s.setEvent f).stalled = s.stalled ∧ 
    (s.setEvent f).consumed = s.consumed ∧ (s.setEvent f).acted = s.acted ∧ (s.setEvent f).lockTick = s.lockTick ∧ 
    (s.setEvent f).wdogDone = s.wdogDone ∧ (s.setEvent f).esFaults = s.esFaults ∧ 
    (s.setEvent f).relockFaults = s.relockFaults ∧ (s.setEvent f).page = s.page ∧ (s.setEvent f).timeNs = s.timeNs ∧ 
    (s.setEvent f).timeFrac = s.timeFrac := by
  obtain ⟨x0, x1, h⟩ := s.setEvent_form f
  rw [h]
  simp only [and_self]

/-- Noting a FAULT record touches what Moraine's queue remembers. -/
theorem State.noteFault_form (s : State) (f : Fr) : ∃ x0,
    s.noteFault f = { s with mor := x0 } := by
  exact ⟨_, rfl⟩

@[simp] theorem State.noteFault_frame (s : State) (f : Fr) :
    (s.noteFault f).regs = s.regs ∧ (s.noteFault f).shadow = s.shadow ∧ (s.noteFault f).shadowDue = s.shadowDue ∧ 
    (s.noteFault f).pubQ = s.pubQ ∧ (s.noteFault f).evQ = s.evQ ∧ (s.noteFault f).tick = s.tick ∧ 
    (s.noteFault f).pending = s.pending ∧ (s.noteFault f).out = s.out ∧ (s.noteFault f).freeCtr = s.freeCtr ∧ 
    (s.noteFault f).newEv = s.newEv ∧ (s.noteFault f).msixSent = s.msixSent ∧ (s.noteFault f).ctrs = s.ctrs ∧ 
    (s.noteFault f).wrapQ = s.wrapQ ∧ (s.noteFault f).bank = s.bank ∧ (s.noteFault f).bankTick = s.bankTick ∧ 
    (s.noteFault f).bankTime = s.bankTime ∧ (s.noteFault f).snapPend = s.snapPend ∧ (s.noteFault f).lat0 = s.lat0 ∧ 
    (s.noteFault f).lat2 = s.lat2 ∧ (s.noteFault f).wins = s.wins ∧ (s.noteFault f).winOn = s.winOn ∧ 
    (s.noteFault f).tel = s.tel ∧ (s.noteFault f).pcie = s.pcie ∧ (s.noteFault f).pins = s.pins ∧ 
    (s.noteFault f).fuses = s.fuses ∧ (s.noteFault f).boot = s.boot ∧ (s.noteFault f).commit = s.commit ∧ 
    (s.noteFault f).poolQ = s.poolQ ∧ (s.noteFault f).alarmQ = s.alarmQ ∧ (s.noteFault f).noPair = s.noPair ∧ 
    (s.noteFault f).nvm = s.nvm ∧ (s.noteFault f).mem = s.mem ∧ (s.noteFault f).lnA = s.lnA ∧ 
    (s.noteFault f).lnB = s.lnB ∧ (s.noteFault f).thm = s.thm ∧ (s.noteFault f).mon0 = s.mon0 ∧ 
    (s.noteFault f).mon1 = s.mon1 ∧ (s.noteFault f).mon2 = s.mon2 ∧ (s.noteFault f).clk = s.clk ∧ 
    (s.noteFault f).tim = s.tim ∧ (s.noteFault f).rim = s.rim ∧ (s.noteFault f).d2d = s.d2d ∧ 
    (s.noteFault f).flo = s.flo ∧ (s.noteFault f).latQ = s.latQ ∧ (s.noteFault f).monUndet = s.monUndet ∧ 
    (s.noteFault f).cph = s.cph ∧ (s.noteFault f).held = s.held ∧ (s.noteFault f).stalled = s.stalled ∧ 
    (s.noteFault f).consumed = s.consumed ∧ (s.noteFault f).acted = s.acted ∧ (s.noteFault f).lockTick = s.lockTick ∧ 
    (s.noteFault f).wdogDone = s.wdogDone ∧ (s.noteFault f).esFaults = s.esFaults ∧ 
    (s.noteFault f).relockFaults = s.relockFaults ∧ (s.noteFault f).page = s.page ∧ 
    (s.noteFault f).timeNs = s.timeNs ∧ (s.noteFault f).timeFrac = s.timeFrac := by
  obtain ⟨x0, h⟩ := s.noteFault_form f
  rw [h]
  simp only [and_self]

/-- Losing a record: its count and MOR_LOST. -/
theorem State.loseOne_form (s : State)  : ∃ x0 x1 x2 x3 x4,
    s.loseOne = { s with regs := x0, newEv := x1, ctrs := x2, wrapQ := x3, mor := x4 } := by
  unfold State.loseOne
  obtain ⟨c, q, h⟩ := State.count_form { s with mor := { s.mor with lost := satAdd 0xFFFF s.mor.lost 1 } } (evCtrKey Reg.FLT_EVENT.MOR_LOST 0) 1
  rw [h]
  obtain ⟨r, n, h'⟩ := State.setEvent_form { s with mor := { s.mor with lost := satAdd 0xFFFF s.mor.lost 1 }, ctrs := c, wrapQ := q } Reg.FLT_EVENT.MOR_LOST
  exact ⟨r, n, c, q, _, h'⟩

@[simp] theorem State.loseOne_frame (s : State)  :
    (s.loseOne).shadow = s.shadow ∧ (s.loseOne).shadowDue = s.shadowDue ∧ (s.loseOne).pubQ = s.pubQ ∧ 
    (s.loseOne).evQ = s.evQ ∧ (s.loseOne).tick = s.tick ∧ (s.loseOne).pending = s.pending ∧ (s.loseOne).out = s.out ∧ 
    (s.loseOne).freeCtr = s.freeCtr ∧ (s.loseOne).msixSent = s.msixSent ∧ (s.loseOne).bank = s.bank ∧ 
    (s.loseOne).bankTick = s.bankTick ∧ (s.loseOne).bankTime = s.bankTime ∧ (s.loseOne).snapPend = s.snapPend ∧ 
    (s.loseOne).lat0 = s.lat0 ∧ (s.loseOne).lat2 = s.lat2 ∧ (s.loseOne).wins = s.wins ∧ (s.loseOne).winOn = s.winOn ∧ 
    (s.loseOne).tel = s.tel ∧ (s.loseOne).pcie = s.pcie ∧ (s.loseOne).pins = s.pins ∧ (s.loseOne).fuses = s.fuses ∧ 
    (s.loseOne).boot = s.boot ∧ (s.loseOne).commit = s.commit ∧ (s.loseOne).poolQ = s.poolQ ∧ 
    (s.loseOne).alarmQ = s.alarmQ ∧ (s.loseOne).noPair = s.noPair ∧ (s.loseOne).nvm = s.nvm ∧ 
    (s.loseOne).mem = s.mem ∧ (s.loseOne).lnA = s.lnA ∧ (s.loseOne).lnB = s.lnB ∧ (s.loseOne).thm = s.thm ∧ 
    (s.loseOne).mon0 = s.mon0 ∧ (s.loseOne).mon1 = s.mon1 ∧ (s.loseOne).mon2 = s.mon2 ∧ (s.loseOne).clk = s.clk ∧ 
    (s.loseOne).tim = s.tim ∧ (s.loseOne).rim = s.rim ∧ (s.loseOne).d2d = s.d2d ∧ (s.loseOne).flo = s.flo ∧ 
    (s.loseOne).latQ = s.latQ ∧ (s.loseOne).monUndet = s.monUndet ∧ (s.loseOne).cph = s.cph ∧ 
    (s.loseOne).held = s.held ∧ (s.loseOne).stalled = s.stalled ∧ (s.loseOne).consumed = s.consumed ∧ 
    (s.loseOne).acted = s.acted ∧ (s.loseOne).lockTick = s.lockTick ∧ (s.loseOne).wdogDone = s.wdogDone ∧ 
    (s.loseOne).esFaults = s.esFaults ∧ (s.loseOne).relockFaults = s.relockFaults ∧ (s.loseOne).page = s.page ∧ 
    (s.loseOne).timeNs = s.timeNs ∧ (s.loseOne).timeFrac = s.timeFrac := by
  obtain ⟨x0, x1, x2, x3, x4, h⟩ := s.loseOne_form
  rw [h]
  simp only [and_self]

/-- A record that finds the queue full. -/
theorem State.loseRec_form (s : State)  : ∃ x0 x1 x2 x3 x4,
    s.loseRec = { s with regs := x0, newEv := x1, ctrs := x2, wrapQ := x3, mor := x4 } := by
  unfold State.loseRec
  dsimp only
  obtain ⟨r, n, c, q, m, h⟩ := s.loseOne_form
  rw [h]
  split
  · exact ⟨r, n, c, q, m, rfl⟩
  · split
    · obtain ⟨c', q', h'⟩ := State.count_form { s with regs := r, newEv := n, ctrs := c, wrapQ := q, mor := m }
        (256 + 32 * summaryBit Reg.FLT_EVENT + Reg.FLT_EVENT.MOR_LOST.lo) 1
      exact ⟨r, n, c', q', m, h'⟩
    · obtain ⟨m1, h1⟩ := State.noteFault_form { s with regs := r, newEv := n, ctrs := c, wrapQ := q, mor := m } Reg.FLT_EVENT.MOR_LOST
      rw [h1]
      obtain ⟨r2, n2, c2, q2, m2, h2⟩ := State.loseOne_form { s with regs := r, newEv := n, ctrs := c, wrapQ := q, mor := m1 }
      rw [h2]
      obtain ⟨c', q', h'⟩ := State.count_form { s with regs := r2, newEv := n2, ctrs := c2, wrapQ := q2, mor := m2 }
        (256 + 32 * summaryBit Reg.FLT_EVENT + Reg.FLT_EVENT.MOR_LOST.lo) 1
      exact ⟨r2, n2, c', q', m2, h'⟩

@[simp] theorem State.loseRec_frame (s : State)  :
    (s.loseRec).shadow = s.shadow ∧ (s.loseRec).shadowDue = s.shadowDue ∧ (s.loseRec).pubQ = s.pubQ ∧ 
    (s.loseRec).evQ = s.evQ ∧ (s.loseRec).tick = s.tick ∧ (s.loseRec).pending = s.pending ∧ (s.loseRec).out = s.out ∧ 
    (s.loseRec).freeCtr = s.freeCtr ∧ (s.loseRec).msixSent = s.msixSent ∧ (s.loseRec).bank = s.bank ∧ 
    (s.loseRec).bankTick = s.bankTick ∧ (s.loseRec).bankTime = s.bankTime ∧ (s.loseRec).snapPend = s.snapPend ∧ 
    (s.loseRec).lat0 = s.lat0 ∧ (s.loseRec).lat2 = s.lat2 ∧ (s.loseRec).wins = s.wins ∧ (s.loseRec).winOn = s.winOn ∧ 
    (s.loseRec).tel = s.tel ∧ (s.loseRec).pcie = s.pcie ∧ (s.loseRec).pins = s.pins ∧ (s.loseRec).fuses = s.fuses ∧ 
    (s.loseRec).boot = s.boot ∧ (s.loseRec).commit = s.commit ∧ (s.loseRec).poolQ = s.poolQ ∧ 
    (s.loseRec).alarmQ = s.alarmQ ∧ (s.loseRec).noPair = s.noPair ∧ (s.loseRec).nvm = s.nvm ∧ 
    (s.loseRec).mem = s.mem ∧ (s.loseRec).lnA = s.lnA ∧ (s.loseRec).lnB = s.lnB ∧ (s.loseRec).thm = s.thm ∧ 
    (s.loseRec).mon0 = s.mon0 ∧ (s.loseRec).mon1 = s.mon1 ∧ (s.loseRec).mon2 = s.mon2 ∧ (s.loseRec).clk = s.clk ∧ 
    (s.loseRec).tim = s.tim ∧ (s.loseRec).rim = s.rim ∧ (s.loseRec).d2d = s.d2d ∧ (s.loseRec).flo = s.flo ∧ 
    (s.loseRec).latQ = s.latQ ∧ (s.loseRec).monUndet = s.monUndet ∧ (s.loseRec).cph = s.cph ∧ 
    (s.loseRec).held = s.held ∧ (s.loseRec).stalled = s.stalled ∧ (s.loseRec).consumed = s.consumed ∧ 
    (s.loseRec).acted = s.acted ∧ (s.loseRec).lockTick = s.lockTick ∧ (s.loseRec).wdogDone = s.wdogDone ∧ 
    (s.loseRec).esFaults = s.esFaults ∧ (s.loseRec).relockFaults = s.relockFaults ∧ (s.loseRec).page = s.page ∧ 
    (s.loseRec).timeNs = s.timeNs ∧ (s.loseRec).timeFrac = s.timeFrac := by
  obtain ⟨x0, x1, x2, x3, x4, h⟩ := s.loseRec_form
  rw [h]
  simp only [and_self]

/-- Queueing a record touches the queue, or loses the record. -/
theorem State.queueRec_form (s : State) (kind sev src : Nat) (detail : List Byte) : ∃ x0 x1 x2 x3 x4,
    s.queueRec kind sev src detail = { s with regs := x0, newEv := x1, ctrs := x2, wrapQ := x3, mor := x4 } := by
  unfold State.queueRec
  dsimp only
  split
  · exact ⟨s.regs, s.newEv, s.ctrs, s.wrapQ, _, rfl⟩
  · exact s.loseRec_form

@[simp] theorem State.queueRec_frame (s : State) (kind sev src : Nat) (detail : List Byte) :
    (s.queueRec kind sev src detail).shadow = s.shadow ∧ (s.queueRec kind sev src detail).shadowDue = s.shadowDue ∧ 
    (s.queueRec kind sev src detail).pubQ = s.pubQ ∧ (s.queueRec kind sev src detail).evQ = s.evQ ∧ 
    (s.queueRec kind sev src detail).tick = s.tick ∧ (s.queueRec kind sev src detail).pending = s.pending ∧ 
    (s.queueRec kind sev src detail).out = s.out ∧ (s.queueRec kind sev src detail).freeCtr = s.freeCtr ∧ 
    (s.queueRec kind sev src detail).msixSent = s.msixSent ∧ (s.queueRec kind sev src detail).bank = s.bank ∧ 
    (s.queueRec kind sev src detail).bankTick = s.bankTick ∧ (s.queueRec kind sev src detail).bankTime = s.bankTime ∧ 
    (s.queueRec kind sev src detail).snapPend = s.snapPend ∧ (s.queueRec kind sev src detail).lat0 = s.lat0 ∧ 
    (s.queueRec kind sev src detail).lat2 = s.lat2 ∧ (s.queueRec kind sev src detail).wins = s.wins ∧ 
    (s.queueRec kind sev src detail).winOn = s.winOn ∧ (s.queueRec kind sev src detail).tel = s.tel ∧ 
    (s.queueRec kind sev src detail).pcie = s.pcie ∧ (s.queueRec kind sev src detail).pins = s.pins ∧ 
    (s.queueRec kind sev src detail).fuses = s.fuses ∧ (s.queueRec kind sev src detail).boot = s.boot ∧ 
    (s.queueRec kind sev src detail).commit = s.commit ∧ (s.queueRec kind sev src detail).poolQ = s.poolQ ∧ 
    (s.queueRec kind sev src detail).alarmQ = s.alarmQ ∧ (s.queueRec kind sev src detail).noPair = s.noPair ∧ 
    (s.queueRec kind sev src detail).nvm = s.nvm ∧ (s.queueRec kind sev src detail).mem = s.mem ∧ 
    (s.queueRec kind sev src detail).lnA = s.lnA ∧ (s.queueRec kind sev src detail).lnB = s.lnB ∧ 
    (s.queueRec kind sev src detail).thm = s.thm ∧ (s.queueRec kind sev src detail).mon0 = s.mon0 ∧ 
    (s.queueRec kind sev src detail).mon1 = s.mon1 ∧ (s.queueRec kind sev src detail).mon2 = s.mon2 ∧ 
    (s.queueRec kind sev src detail).clk = s.clk ∧ (s.queueRec kind sev src detail).tim = s.tim ∧ 
    (s.queueRec kind sev src detail).rim = s.rim ∧ (s.queueRec kind sev src detail).d2d = s.d2d ∧ 
    (s.queueRec kind sev src detail).flo = s.flo ∧ (s.queueRec kind sev src detail).latQ = s.latQ ∧ 
    (s.queueRec kind sev src detail).monUndet = s.monUndet ∧ (s.queueRec kind sev src detail).cph = s.cph ∧ 
    (s.queueRec kind sev src detail).held = s.held ∧ (s.queueRec kind sev src detail).stalled = s.stalled ∧ 
    (s.queueRec kind sev src detail).consumed = s.consumed ∧ (s.queueRec kind sev src detail).acted = s.acted ∧ 
    (s.queueRec kind sev src detail).lockTick = s.lockTick ∧ (s.queueRec kind sev src detail).wdogDone = s.wdogDone ∧ 
    (s.queueRec kind sev src detail).esFaults = s.esFaults ∧ 
    (s.queueRec kind sev src detail).relockFaults = s.relockFaults ∧ (s.queueRec kind sev src detail).page = s.page ∧ 
    (s.queueRec kind sev src detail).timeNs = s.timeNs ∧ (s.queueRec kind sev src detail).timeFrac = s.timeFrac := by
  obtain ⟨x0, x1, x2, x3, x4, h⟩ := s.queueRec_form kind sev src detail
  rw [h]
  simp only [and_self]

/-- A FAULT record. -/
theorem State.faultRec_form (s : State) (f : Fr) : ∃ x0 x1 x2 x3 x4,
    s.faultRec f = { s with regs := x0, newEv := x1, ctrs := x2, wrapQ := x3, mor := x4 } := by
  unfold State.faultRec State.faultQueue
  split
  · obtain ⟨c, q, h⟩ := s.count_form (256 + 32 * summaryBit f.off + f.lo) 1
    exact ⟨s.regs, s.newEv, c, q, s.mor, h⟩
  · obtain ⟨m, h⟩ := s.noteFault_form f
    rw [h]
    obtain ⟨r, n, c, q, m', h'⟩ := State.queueRec_form { s with mor := m } 0x000E 1 (summaryBit f.off)
      (leBytes 4 f.off ++ leBytes 4 (s.reg f.off).toNat ++ leBytes 4 (s.statusWord (f.off - 4)).toNat)
    exact ⟨r, n, c, q, m', h'⟩

@[simp] theorem State.faultRec_frame (s : State) (f : Fr) :
    (s.faultRec f).shadow = s.shadow ∧ (s.faultRec f).shadowDue = s.shadowDue ∧ (s.faultRec f).pubQ = s.pubQ ∧ 
    (s.faultRec f).evQ = s.evQ ∧ (s.faultRec f).tick = s.tick ∧ (s.faultRec f).pending = s.pending ∧ 
    (s.faultRec f).out = s.out ∧ (s.faultRec f).freeCtr = s.freeCtr ∧ (s.faultRec f).msixSent = s.msixSent ∧ 
    (s.faultRec f).bank = s.bank ∧ (s.faultRec f).bankTick = s.bankTick ∧ (s.faultRec f).bankTime = s.bankTime ∧ 
    (s.faultRec f).snapPend = s.snapPend ∧ (s.faultRec f).lat0 = s.lat0 ∧ (s.faultRec f).lat2 = s.lat2 ∧ 
    (s.faultRec f).wins = s.wins ∧ (s.faultRec f).winOn = s.winOn ∧ (s.faultRec f).tel = s.tel ∧ 
    (s.faultRec f).pcie = s.pcie ∧ (s.faultRec f).pins = s.pins ∧ (s.faultRec f).fuses = s.fuses ∧ 
    (s.faultRec f).boot = s.boot ∧ (s.faultRec f).commit = s.commit ∧ (s.faultRec f).poolQ = s.poolQ ∧ 
    (s.faultRec f).alarmQ = s.alarmQ ∧ (s.faultRec f).noPair = s.noPair ∧ (s.faultRec f).nvm = s.nvm ∧ 
    (s.faultRec f).mem = s.mem ∧ (s.faultRec f).lnA = s.lnA ∧ (s.faultRec f).lnB = s.lnB ∧ 
    (s.faultRec f).thm = s.thm ∧ (s.faultRec f).mon0 = s.mon0 ∧ (s.faultRec f).mon1 = s.mon1 ∧ 
    (s.faultRec f).mon2 = s.mon2 ∧ (s.faultRec f).clk = s.clk ∧ (s.faultRec f).tim = s.tim ∧ 
    (s.faultRec f).rim = s.rim ∧ (s.faultRec f).d2d = s.d2d ∧ (s.faultRec f).flo = s.flo ∧ 
    (s.faultRec f).latQ = s.latQ ∧ (s.faultRec f).monUndet = s.monUndet ∧ (s.faultRec f).cph = s.cph ∧ 
    (s.faultRec f).held = s.held ∧ (s.faultRec f).stalled = s.stalled ∧ (s.faultRec f).consumed = s.consumed ∧ 
    (s.faultRec f).acted = s.acted ∧ (s.faultRec f).lockTick = s.lockTick ∧ (s.faultRec f).wdogDone = s.wdogDone ∧ 
    (s.faultRec f).esFaults = s.esFaults ∧ (s.faultRec f).relockFaults = s.relockFaults ∧ 
    (s.faultRec f).page = s.page ∧ (s.faultRec f).timeNs = s.timeNs ∧ (s.faultRec f).timeFrac = s.timeFrac := by
  obtain ⟨x0, x1, x2, x3, x4, h⟩ := s.faultRec_form f
  rw [h]
  simp only [and_self]

/-- Latching an event. -/
theorem State.latchEvent_form (s : State) (f : Fr) : ∃ x0 x1 x2 x3 x4,
    s.latchEvent f = { s with regs := x0, newEv := x1, ctrs := x2, wrapQ := x3, mor := x4 } := by
  unfold State.latchEvent
  dsimp only
  obtain ⟨r, n, h⟩ := s.setEvent_form f
  rw [h]
  split
  · obtain ⟨r', n', c, q, m, h'⟩ := State.faultRec_form { s with regs := r, newEv := n } f
    exact ⟨r', n', c, q, m, h'⟩
  · exact ⟨r, n, s.ctrs, s.wrapQ, s.mor, rfl⟩

@[simp] theorem State.latchEvent_frame (s : State) (f : Fr) :
    (s.latchEvent f).shadow = s.shadow ∧ (s.latchEvent f).shadowDue = s.shadowDue ∧ (s.latchEvent f).pubQ = s.pubQ ∧ 
    (s.latchEvent f).evQ = s.evQ ∧ (s.latchEvent f).tick = s.tick ∧ (s.latchEvent f).pending = s.pending ∧ 
    (s.latchEvent f).out = s.out ∧ (s.latchEvent f).freeCtr = s.freeCtr ∧ (s.latchEvent f).msixSent = s.msixSent ∧ 
    (s.latchEvent f).bank = s.bank ∧ (s.latchEvent f).bankTick = s.bankTick ∧ 
    (s.latchEvent f).bankTime = s.bankTime ∧ (s.latchEvent f).snapPend = s.snapPend ∧ 
    (s.latchEvent f).lat0 = s.lat0 ∧ (s.latchEvent f).lat2 = s.lat2 ∧ (s.latchEvent f).wins = s.wins ∧ 
    (s.latchEvent f).winOn = s.winOn ∧ (s.latchEvent f).tel = s.tel ∧ (s.latchEvent f).pcie = s.pcie ∧ 
    (s.latchEvent f).pins = s.pins ∧ (s.latchEvent f).fuses = s.fuses ∧ (s.latchEvent f).boot = s.boot ∧ 
    (s.latchEvent f).commit = s.commit ∧ (s.latchEvent f).poolQ = s.poolQ ∧ (s.latchEvent f).alarmQ = s.alarmQ ∧ 
    (s.latchEvent f).noPair = s.noPair ∧ (s.latchEvent f).nvm = s.nvm ∧ (s.latchEvent f).mem = s.mem ∧ 
    (s.latchEvent f).lnA = s.lnA ∧ (s.latchEvent f).lnB = s.lnB ∧ (s.latchEvent f).thm = s.thm ∧ 
    (s.latchEvent f).mon0 = s.mon0 ∧ (s.latchEvent f).mon1 = s.mon1 ∧ (s.latchEvent f).mon2 = s.mon2 ∧ 
    (s.latchEvent f).clk = s.clk ∧ (s.latchEvent f).tim = s.tim ∧ (s.latchEvent f).rim = s.rim ∧ 
    (s.latchEvent f).d2d = s.d2d ∧ (s.latchEvent f).flo = s.flo ∧ (s.latchEvent f).latQ = s.latQ ∧ 
    (s.latchEvent f).monUndet = s.monUndet ∧ (s.latchEvent f).cph = s.cph ∧ (s.latchEvent f).held = s.held ∧ 
    (s.latchEvent f).stalled = s.stalled ∧ (s.latchEvent f).consumed = s.consumed ∧ 
    (s.latchEvent f).acted = s.acted ∧ (s.latchEvent f).lockTick = s.lockTick ∧ 
    (s.latchEvent f).wdogDone = s.wdogDone ∧ (s.latchEvent f).esFaults = s.esFaults ∧ 
    (s.latchEvent f).relockFaults = s.relockFaults ∧ (s.latchEvent f).page = s.page ∧ 
    (s.latchEvent f).timeNs = s.timeNs ∧ (s.latchEvent f).timeFrac = s.timeFrac := by
  obtain ⟨x0, x1, x2, x3, x4, h⟩ := s.latchEvent_form f
  rw [h]
  simp only [and_self]

/-- Raising an event of an instance. -/
theorem State.raiseAt_form (s : State) (f : Fr) (inst : Nat) : ∃ x0 x1 x2 x3 x4,
    s.raiseAt f inst = { s with regs := x0, newEv := x1, ctrs := x2, wrapQ := x3, mor := x4 } := by
  unfold State.raiseAt
  obtain ⟨c, q, h⟩ := s.count_form (evCtrKey f inst) 1
  rw [h]
  obtain ⟨r, n, c', q', m, h'⟩ := State.latchEvent_form { s with ctrs := c, wrapQ := q } f
  exact ⟨r, n, c', q', m, h'⟩

@[simp] theorem State.raiseAt_frame (s : State) (f : Fr) (inst : Nat) :
    (s.raiseAt f inst).shadow = s.shadow ∧ (s.raiseAt f inst).shadowDue = s.shadowDue ∧ 
    (s.raiseAt f inst).pubQ = s.pubQ ∧ (s.raiseAt f inst).evQ = s.evQ ∧ (s.raiseAt f inst).tick = s.tick ∧ 
    (s.raiseAt f inst).pending = s.pending ∧ (s.raiseAt f inst).out = s.out ∧ 
    (s.raiseAt f inst).freeCtr = s.freeCtr ∧ (s.raiseAt f inst).msixSent = s.msixSent ∧ 
    (s.raiseAt f inst).bank = s.bank ∧ (s.raiseAt f inst).bankTick = s.bankTick ∧ 
    (s.raiseAt f inst).bankTime = s.bankTime ∧ (s.raiseAt f inst).snapPend = s.snapPend ∧ 
    (s.raiseAt f inst).lat0 = s.lat0 ∧ (s.raiseAt f inst).lat2 = s.lat2 ∧ (s.raiseAt f inst).wins = s.wins ∧ 
    (s.raiseAt f inst).winOn = s.winOn ∧ (s.raiseAt f inst).tel = s.tel ∧ (s.raiseAt f inst).pcie = s.pcie ∧ 
    (s.raiseAt f inst).pins = s.pins ∧ (s.raiseAt f inst).fuses = s.fuses ∧ (s.raiseAt f inst).boot = s.boot ∧ 
    (s.raiseAt f inst).commit = s.commit ∧ (s.raiseAt f inst).poolQ = s.poolQ ∧ 
    (s.raiseAt f inst).alarmQ = s.alarmQ ∧ (s.raiseAt f inst).noPair = s.noPair ∧ (s.raiseAt f inst).nvm = s.nvm ∧ 
    (s.raiseAt f inst).mem = s.mem ∧ (s.raiseAt f inst).lnA = s.lnA ∧ (s.raiseAt f inst).lnB = s.lnB ∧ 
    (s.raiseAt f inst).thm = s.thm ∧ (s.raiseAt f inst).mon0 = s.mon0 ∧ (s.raiseAt f inst).mon1 = s.mon1 ∧ 
    (s.raiseAt f inst).mon2 = s.mon2 ∧ (s.raiseAt f inst).clk = s.clk ∧ (s.raiseAt f inst).tim = s.tim ∧ 
    (s.raiseAt f inst).rim = s.rim ∧ (s.raiseAt f inst).d2d = s.d2d ∧ (s.raiseAt f inst).flo = s.flo ∧ 
    (s.raiseAt f inst).latQ = s.latQ ∧ (s.raiseAt f inst).monUndet = s.monUndet ∧ (s.raiseAt f inst).cph = s.cph ∧ 
    (s.raiseAt f inst).held = s.held ∧ (s.raiseAt f inst).stalled = s.stalled ∧ 
    (s.raiseAt f inst).consumed = s.consumed ∧ (s.raiseAt f inst).acted = s.acted ∧ 
    (s.raiseAt f inst).lockTick = s.lockTick ∧ (s.raiseAt f inst).wdogDone = s.wdogDone ∧ 
    (s.raiseAt f inst).esFaults = s.esFaults ∧ (s.raiseAt f inst).relockFaults = s.relockFaults ∧ 
    (s.raiseAt f inst).page = s.page ∧ (s.raiseAt f inst).timeNs = s.timeNs ∧ (s.raiseAt f inst).timeFrac = s.timeFrac := by
  obtain ⟨x0, x1, x2, x3, x4, h⟩ := s.raiseAt_form f inst
  rw [h]
  simp only [and_self]

/-- Raising an event. -/
theorem State.raise_form (s : State) (f : Fr) : ∃ x0 x1 x2 x3 x4,
    s.raise f = { s with regs := x0, newEv := x1, ctrs := x2, wrapQ := x3, mor := x4 } := by
  exact s.raiseAt_form f 0

@[simp] theorem State.raise_frame (s : State) (f : Fr) :
    (s.raise f).shadow = s.shadow ∧ (s.raise f).shadowDue = s.shadowDue ∧ (s.raise f).pubQ = s.pubQ ∧ 
    (s.raise f).evQ = s.evQ ∧ (s.raise f).tick = s.tick ∧ (s.raise f).pending = s.pending ∧ (s.raise f).out = s.out ∧ 
    (s.raise f).freeCtr = s.freeCtr ∧ (s.raise f).msixSent = s.msixSent ∧ (s.raise f).bank = s.bank ∧ 
    (s.raise f).bankTick = s.bankTick ∧ (s.raise f).bankTime = s.bankTime ∧ (s.raise f).snapPend = s.snapPend ∧ 
    (s.raise f).lat0 = s.lat0 ∧ (s.raise f).lat2 = s.lat2 ∧ (s.raise f).wins = s.wins ∧ (s.raise f).winOn = s.winOn ∧ 
    (s.raise f).tel = s.tel ∧ (s.raise f).pcie = s.pcie ∧ (s.raise f).pins = s.pins ∧ (s.raise f).fuses = s.fuses ∧ 
    (s.raise f).boot = s.boot ∧ (s.raise f).commit = s.commit ∧ (s.raise f).poolQ = s.poolQ ∧ 
    (s.raise f).alarmQ = s.alarmQ ∧ (s.raise f).noPair = s.noPair ∧ (s.raise f).nvm = s.nvm ∧ 
    (s.raise f).mem = s.mem ∧ (s.raise f).lnA = s.lnA ∧ (s.raise f).lnB = s.lnB ∧ (s.raise f).thm = s.thm ∧ 
    (s.raise f).mon0 = s.mon0 ∧ (s.raise f).mon1 = s.mon1 ∧ (s.raise f).mon2 = s.mon2 ∧ (s.raise f).clk = s.clk ∧ 
    (s.raise f).tim = s.tim ∧ (s.raise f).rim = s.rim ∧ (s.raise f).d2d = s.d2d ∧ (s.raise f).flo = s.flo ∧ 
    (s.raise f).latQ = s.latQ ∧ (s.raise f).monUndet = s.monUndet ∧ (s.raise f).cph = s.cph ∧ 
    (s.raise f).held = s.held ∧ (s.raise f).stalled = s.stalled ∧ (s.raise f).consumed = s.consumed ∧ 
    (s.raise f).acted = s.acted ∧ (s.raise f).lockTick = s.lockTick ∧ (s.raise f).wdogDone = s.wdogDone ∧ 
    (s.raise f).esFaults = s.esFaults ∧ (s.raise f).relockFaults = s.relockFaults ∧ (s.raise f).page = s.page ∧ 
    (s.raise f).timeNs = s.timeNs ∧ (s.raise f).timeFrac = s.timeFrac := by
  obtain ⟨x0, x1, x2, x3, x4, h⟩ := s.raise_form f
  rw [h]
  simp only [and_self]

/-- Raising an event when a condition holds. -/
theorem State.raiseIf_form (s : State) (c : Bool) (f : Fr) : ∃ x0 x1 x2 x3 x4,
    s.raiseIf c f = { s with regs := x0, newEv := x1, ctrs := x2, wrapQ := x3, mor := x4 } := by
  unfold State.raiseIf
  split
  · exact s.raise_form f
  · exact ⟨s.regs, s.newEv, s.ctrs, s.wrapQ, s.mor, rfl⟩

@[simp] theorem State.raiseIf_frame (s : State) (c : Bool) (f : Fr) :
    (s.raiseIf c f).shadow = s.shadow ∧ (s.raiseIf c f).shadowDue = s.shadowDue ∧ (s.raiseIf c f).pubQ = s.pubQ ∧ 
    (s.raiseIf c f).evQ = s.evQ ∧ (s.raiseIf c f).tick = s.tick ∧ (s.raiseIf c f).pending = s.pending ∧ 
    (s.raiseIf c f).out = s.out ∧ (s.raiseIf c f).freeCtr = s.freeCtr ∧ (s.raiseIf c f).msixSent = s.msixSent ∧ 
    (s.raiseIf c f).bank = s.bank ∧ (s.raiseIf c f).bankTick = s.bankTick ∧ (s.raiseIf c f).bankTime = s.bankTime ∧ 
    (s.raiseIf c f).snapPend = s.snapPend ∧ (s.raiseIf c f).lat0 = s.lat0 ∧ (s.raiseIf c f).lat2 = s.lat2 ∧ 
    (s.raiseIf c f).wins = s.wins ∧ (s.raiseIf c f).winOn = s.winOn ∧ (s.raiseIf c f).tel = s.tel ∧ 
    (s.raiseIf c f).pcie = s.pcie ∧ (s.raiseIf c f).pins = s.pins ∧ (s.raiseIf c f).fuses = s.fuses ∧ 
    (s.raiseIf c f).boot = s.boot ∧ (s.raiseIf c f).commit = s.commit ∧ (s.raiseIf c f).poolQ = s.poolQ ∧ 
    (s.raiseIf c f).alarmQ = s.alarmQ ∧ (s.raiseIf c f).noPair = s.noPair ∧ (s.raiseIf c f).nvm = s.nvm ∧ 
    (s.raiseIf c f).mem = s.mem ∧ (s.raiseIf c f).lnA = s.lnA ∧ (s.raiseIf c f).lnB = s.lnB ∧ 
    (s.raiseIf c f).thm = s.thm ∧ (s.raiseIf c f).mon0 = s.mon0 ∧ (s.raiseIf c f).mon1 = s.mon1 ∧ 
    (s.raiseIf c f).mon2 = s.mon2 ∧ (s.raiseIf c f).clk = s.clk ∧ (s.raiseIf c f).tim = s.tim ∧ 
    (s.raiseIf c f).rim = s.rim ∧ (s.raiseIf c f).d2d = s.d2d ∧ (s.raiseIf c f).flo = s.flo ∧ 
    (s.raiseIf c f).latQ = s.latQ ∧ (s.raiseIf c f).monUndet = s.monUndet ∧ (s.raiseIf c f).cph = s.cph ∧ 
    (s.raiseIf c f).held = s.held ∧ (s.raiseIf c f).stalled = s.stalled ∧ (s.raiseIf c f).consumed = s.consumed ∧ 
    (s.raiseIf c f).acted = s.acted ∧ (s.raiseIf c f).lockTick = s.lockTick ∧ (s.raiseIf c f).wdogDone = s.wdogDone ∧ 
    (s.raiseIf c f).esFaults = s.esFaults ∧ (s.raiseIf c f).relockFaults = s.relockFaults ∧ 
    (s.raiseIf c f).page = s.page ∧ (s.raiseIf c f).timeNs = s.timeNs ∧ (s.raiseIf c f).timeFrac = s.timeFrac := by
  obtain ⟨x0, x1, x2, x3, x4, h⟩ := s.raiseIf_form c f
  rw [h]
  simp only [and_self]

/-- Raising an event whose rule writes a record of its own. -/
theorem State.raiseOwn_form (s : State) (f : Fr) : ∃ x0 x1 x2 x3,
    s.raiseOwn f = { s with regs := x0, newEv := x1, ctrs := x2, wrapQ := x3 } := by
  unfold State.raiseOwn
  obtain ⟨c, q, h⟩ := s.count_form (evCtrKey f 0) 1
  rw [h]
  obtain ⟨r, n, h'⟩ := State.setEvent_form { s with ctrs := c, wrapQ := q } f
  exact ⟨r, n, c, q, h'⟩

@[simp] theorem State.raiseOwn_frame (s : State) (f : Fr) :
    (s.raiseOwn f).shadow = s.shadow ∧ (s.raiseOwn f).shadowDue = s.shadowDue ∧ (s.raiseOwn f).pubQ = s.pubQ ∧ 
    (s.raiseOwn f).evQ = s.evQ ∧ (s.raiseOwn f).tick = s.tick ∧ (s.raiseOwn f).pending = s.pending ∧ 
    (s.raiseOwn f).out = s.out ∧ (s.raiseOwn f).freeCtr = s.freeCtr ∧ (s.raiseOwn f).msixSent = s.msixSent ∧ 
    (s.raiseOwn f).bank = s.bank ∧ (s.raiseOwn f).bankTick = s.bankTick ∧ (s.raiseOwn f).bankTime = s.bankTime ∧ 
    (s.raiseOwn f).snapPend = s.snapPend ∧ (s.raiseOwn f).lat0 = s.lat0 ∧ (s.raiseOwn f).lat2 = s.lat2 ∧ 
    (s.raiseOwn f).wins = s.wins ∧ (s.raiseOwn f).winOn = s.winOn ∧ (s.raiseOwn f).tel = s.tel ∧ 
    (s.raiseOwn f).mor = s.mor ∧ (s.raiseOwn f).pcie = s.pcie ∧ (s.raiseOwn f).pins = s.pins ∧ 
    (s.raiseOwn f).fuses = s.fuses ∧ (s.raiseOwn f).boot = s.boot ∧ (s.raiseOwn f).commit = s.commit ∧ 
    (s.raiseOwn f).poolQ = s.poolQ ∧ (s.raiseOwn f).alarmQ = s.alarmQ ∧ (s.raiseOwn f).noPair = s.noPair ∧ 
    (s.raiseOwn f).nvm = s.nvm ∧ (s.raiseOwn f).mem = s.mem ∧ (s.raiseOwn f).lnA = s.lnA ∧ 
    (s.raiseOwn f).lnB = s.lnB ∧ (s.raiseOwn f).thm = s.thm ∧ (s.raiseOwn f).mon0 = s.mon0 ∧ 
    (s.raiseOwn f).mon1 = s.mon1 ∧ (s.raiseOwn f).mon2 = s.mon2 ∧ (s.raiseOwn f).clk = s.clk ∧ 
    (s.raiseOwn f).tim = s.tim ∧ (s.raiseOwn f).rim = s.rim ∧ (s.raiseOwn f).d2d = s.d2d ∧ 
    (s.raiseOwn f).flo = s.flo ∧ (s.raiseOwn f).latQ = s.latQ ∧ (s.raiseOwn f).monUndet = s.monUndet ∧ 
    (s.raiseOwn f).cph = s.cph ∧ (s.raiseOwn f).held = s.held ∧ (s.raiseOwn f).stalled = s.stalled ∧ 
    (s.raiseOwn f).consumed = s.consumed ∧ (s.raiseOwn f).acted = s.acted ∧ (s.raiseOwn f).lockTick = s.lockTick ∧ 
    (s.raiseOwn f).wdogDone = s.wdogDone ∧ (s.raiseOwn f).esFaults = s.esFaults ∧ 
    (s.raiseOwn f).relockFaults = s.relockFaults ∧ (s.raiseOwn f).page = s.page ∧ (s.raiseOwn f).timeNs = s.timeNs ∧ 
    (s.raiseOwn f).timeFrac = s.timeFrac := by
  obtain ⟨x0, x1, x2, x3, h⟩ := s.raiseOwn_form f
  rw [h]
  simp only [and_self]

/-- Raising a datapath event. -/
theorem State.raiseDpAt_form (s : State) (f : Fr) (i : Nat) : ∃ x0 x1 x2,
    s.raiseDpAt f i = { s with evQ := x0, ctrs := x1, wrapQ := x2 } := by
  unfold State.raiseDpAt
  dsimp only
  obtain ⟨c, q, h⟩ := s.count_form (evCtrKey f i) 1
  rw [h]
  exact ⟨_, c, q, rfl⟩

@[simp] theorem State.raiseDpAt_frame (s : State) (f : Fr) (i : Nat) :
    (s.raiseDpAt f i).regs = s.regs ∧ (s.raiseDpAt f i).shadow = s.shadow ∧ 
    (s.raiseDpAt f i).shadowDue = s.shadowDue ∧ (s.raiseDpAt f i).pubQ = s.pubQ ∧ (s.raiseDpAt f i).tick = s.tick ∧ 
    (s.raiseDpAt f i).pending = s.pending ∧ (s.raiseDpAt f i).out = s.out ∧ (s.raiseDpAt f i).freeCtr = s.freeCtr ∧ 
    (s.raiseDpAt f i).newEv = s.newEv ∧ (s.raiseDpAt f i).msixSent = s.msixSent ∧ (s.raiseDpAt f i).bank = s.bank ∧ 
    (s.raiseDpAt f i).bankTick = s.bankTick ∧ (s.raiseDpAt f i).bankTime = s.bankTime ∧ 
    (s.raiseDpAt f i).snapPend = s.snapPend ∧ (s.raiseDpAt f i).lat0 = s.lat0 ∧ (s.raiseDpAt f i).lat2 = s.lat2 ∧ 
    (s.raiseDpAt f i).wins = s.wins ∧ (s.raiseDpAt f i).winOn = s.winOn ∧ (s.raiseDpAt f i).tel = s.tel ∧ 
    (s.raiseDpAt f i).mor = s.mor ∧ (s.raiseDpAt f i).pcie = s.pcie ∧ (s.raiseDpAt f i).pins = s.pins ∧ 
    (s.raiseDpAt f i).fuses = s.fuses ∧ (s.raiseDpAt f i).boot = s.boot ∧ (s.raiseDpAt f i).commit = s.commit ∧ 
    (s.raiseDpAt f i).poolQ = s.poolQ ∧ (s.raiseDpAt f i).alarmQ = s.alarmQ ∧ (s.raiseDpAt f i).noPair = s.noPair ∧ 
    (s.raiseDpAt f i).nvm = s.nvm ∧ (s.raiseDpAt f i).mem = s.mem ∧ (s.raiseDpAt f i).lnA = s.lnA ∧ 
    (s.raiseDpAt f i).lnB = s.lnB ∧ (s.raiseDpAt f i).thm = s.thm ∧ (s.raiseDpAt f i).mon0 = s.mon0 ∧ 
    (s.raiseDpAt f i).mon1 = s.mon1 ∧ (s.raiseDpAt f i).mon2 = s.mon2 ∧ (s.raiseDpAt f i).clk = s.clk ∧ 
    (s.raiseDpAt f i).tim = s.tim ∧ (s.raiseDpAt f i).rim = s.rim ∧ (s.raiseDpAt f i).d2d = s.d2d ∧ 
    (s.raiseDpAt f i).flo = s.flo ∧ (s.raiseDpAt f i).latQ = s.latQ ∧ (s.raiseDpAt f i).monUndet = s.monUndet ∧ 
    (s.raiseDpAt f i).cph = s.cph ∧ (s.raiseDpAt f i).held = s.held ∧ (s.raiseDpAt f i).stalled = s.stalled ∧ 
    (s.raiseDpAt f i).consumed = s.consumed ∧ (s.raiseDpAt f i).acted = s.acted ∧ 
    (s.raiseDpAt f i).lockTick = s.lockTick ∧ (s.raiseDpAt f i).wdogDone = s.wdogDone ∧ 
    (s.raiseDpAt f i).esFaults = s.esFaults ∧ (s.raiseDpAt f i).relockFaults = s.relockFaults ∧ 
    (s.raiseDpAt f i).page = s.page ∧ (s.raiseDpAt f i).timeNs = s.timeNs ∧ (s.raiseDpAt f i).timeFrac = s.timeFrac := by
  obtain ⟨x0, x1, x2, h⟩ := s.raiseDpAt_form f i
  rw [h]
  simp only [and_self]

/-- Raising a datapath event of no instance. -/
theorem State.raiseDp_form (s : State) (f : Fr) : ∃ x0 x1 x2,
    s.raiseDp f = { s with evQ := x0, ctrs := x1, wrapQ := x2 } := by
  exact s.raiseDpAt_form f 0

@[simp] theorem State.raiseDp_frame (s : State) (f : Fr) :
    (s.raiseDp f).regs = s.regs ∧ (s.raiseDp f).shadow = s.shadow ∧ (s.raiseDp f).shadowDue = s.shadowDue ∧ 
    (s.raiseDp f).pubQ = s.pubQ ∧ (s.raiseDp f).tick = s.tick ∧ (s.raiseDp f).pending = s.pending ∧ 
    (s.raiseDp f).out = s.out ∧ (s.raiseDp f).freeCtr = s.freeCtr ∧ (s.raiseDp f).newEv = s.newEv ∧ 
    (s.raiseDp f).msixSent = s.msixSent ∧ (s.raiseDp f).bank = s.bank ∧ (s.raiseDp f).bankTick = s.bankTick ∧ 
    (s.raiseDp f).bankTime = s.bankTime ∧ (s.raiseDp f).snapPend = s.snapPend ∧ (s.raiseDp f).lat0 = s.lat0 ∧ 
    (s.raiseDp f).lat2 = s.lat2 ∧ (s.raiseDp f).wins = s.wins ∧ (s.raiseDp f).winOn = s.winOn ∧ 
    (s.raiseDp f).tel = s.tel ∧ (s.raiseDp f).mor = s.mor ∧ (s.raiseDp f).pcie = s.pcie ∧ 
    (s.raiseDp f).pins = s.pins ∧ (s.raiseDp f).fuses = s.fuses ∧ (s.raiseDp f).boot = s.boot ∧ 
    (s.raiseDp f).commit = s.commit ∧ (s.raiseDp f).poolQ = s.poolQ ∧ (s.raiseDp f).alarmQ = s.alarmQ ∧ 
    (s.raiseDp f).noPair = s.noPair ∧ (s.raiseDp f).nvm = s.nvm ∧ (s.raiseDp f).mem = s.mem ∧ 
    (s.raiseDp f).lnA = s.lnA ∧ (s.raiseDp f).lnB = s.lnB ∧ (s.raiseDp f).thm = s.thm ∧ (s.raiseDp f).mon0 = s.mon0 ∧ 
    (s.raiseDp f).mon1 = s.mon1 ∧ (s.raiseDp f).mon2 = s.mon2 ∧ (s.raiseDp f).clk = s.clk ∧ 
    (s.raiseDp f).tim = s.tim ∧ (s.raiseDp f).rim = s.rim ∧ (s.raiseDp f).d2d = s.d2d ∧ (s.raiseDp f).flo = s.flo ∧ 
    (s.raiseDp f).latQ = s.latQ ∧ (s.raiseDp f).monUndet = s.monUndet ∧ (s.raiseDp f).cph = s.cph ∧ 
    (s.raiseDp f).held = s.held ∧ (s.raiseDp f).stalled = s.stalled ∧ (s.raiseDp f).consumed = s.consumed ∧ 
    (s.raiseDp f).acted = s.acted ∧ (s.raiseDp f).lockTick = s.lockTick ∧ (s.raiseDp f).wdogDone = s.wdogDone ∧ 
    (s.raiseDp f).esFaults = s.esFaults ∧ (s.raiseDp f).relockFaults = s.relockFaults ∧ (s.raiseDp f).page = s.page ∧ 
    (s.raiseDp f).timeNs = s.timeNs ∧ (s.raiseDp f).timeFrac = s.timeFrac := by
  obtain ⟨x0, x1, x2, h⟩ := s.raiseDp_form f
  rw [h]
  simp only [and_self]

/-- Raising a datapath event when a condition holds. -/
theorem State.raiseDpIf_form (s : State) (c : Bool) (f : Fr) : ∃ x0 x1 x2,
    s.raiseDpIf c f = { s with evQ := x0, ctrs := x1, wrapQ := x2 } := by
  unfold State.raiseDpIf
  split
  · exact s.raiseDp_form f
  · exact ⟨s.evQ, s.ctrs, s.wrapQ, rfl⟩

@[simp] theorem State.raiseDpIf_frame (s : State) (c : Bool) (f : Fr) :
    (s.raiseDpIf c f).regs = s.regs ∧ (s.raiseDpIf c f).shadow = s.shadow ∧ 
    (s.raiseDpIf c f).shadowDue = s.shadowDue ∧ (s.raiseDpIf c f).pubQ = s.pubQ ∧ (s.raiseDpIf c f).tick = s.tick ∧ 
    (s.raiseDpIf c f).pending = s.pending ∧ (s.raiseDpIf c f).out = s.out ∧ (s.raiseDpIf c f).freeCtr = s.freeCtr ∧ 
    (s.raiseDpIf c f).newEv = s.newEv ∧ (s.raiseDpIf c f).msixSent = s.msixSent ∧ (s.raiseDpIf c f).bank = s.bank ∧ 
    (s.raiseDpIf c f).bankTick = s.bankTick ∧ (s.raiseDpIf c f).bankTime = s.bankTime ∧ 
    (s.raiseDpIf c f).snapPend = s.snapPend ∧ (s.raiseDpIf c f).lat0 = s.lat0 ∧ (s.raiseDpIf c f).lat2 = s.lat2 ∧ 
    (s.raiseDpIf c f).wins = s.wins ∧ (s.raiseDpIf c f).winOn = s.winOn ∧ (s.raiseDpIf c f).tel = s.tel ∧ 
    (s.raiseDpIf c f).mor = s.mor ∧ (s.raiseDpIf c f).pcie = s.pcie ∧ (s.raiseDpIf c f).pins = s.pins ∧ 
    (s.raiseDpIf c f).fuses = s.fuses ∧ (s.raiseDpIf c f).boot = s.boot ∧ (s.raiseDpIf c f).commit = s.commit ∧ 
    (s.raiseDpIf c f).poolQ = s.poolQ ∧ (s.raiseDpIf c f).alarmQ = s.alarmQ ∧ (s.raiseDpIf c f).noPair = s.noPair ∧ 
    (s.raiseDpIf c f).nvm = s.nvm ∧ (s.raiseDpIf c f).mem = s.mem ∧ (s.raiseDpIf c f).lnA = s.lnA ∧ 
    (s.raiseDpIf c f).lnB = s.lnB ∧ (s.raiseDpIf c f).thm = s.thm ∧ (s.raiseDpIf c f).mon0 = s.mon0 ∧ 
    (s.raiseDpIf c f).mon1 = s.mon1 ∧ (s.raiseDpIf c f).mon2 = s.mon2 ∧ (s.raiseDpIf c f).clk = s.clk ∧ 
    (s.raiseDpIf c f).tim = s.tim ∧ (s.raiseDpIf c f).rim = s.rim ∧ (s.raiseDpIf c f).d2d = s.d2d ∧ 
    (s.raiseDpIf c f).flo = s.flo ∧ (s.raiseDpIf c f).latQ = s.latQ ∧ (s.raiseDpIf c f).monUndet = s.monUndet ∧ 
    (s.raiseDpIf c f).cph = s.cph ∧ (s.raiseDpIf c f).held = s.held ∧ (s.raiseDpIf c f).stalled = s.stalled ∧ 
    (s.raiseDpIf c f).consumed = s.consumed ∧ (s.raiseDpIf c f).acted = s.acted ∧ 
    (s.raiseDpIf c f).lockTick = s.lockTick ∧ (s.raiseDpIf c f).wdogDone = s.wdogDone ∧ 
    (s.raiseDpIf c f).esFaults = s.esFaults ∧ (s.raiseDpIf c f).relockFaults = s.relockFaults ∧ 
    (s.raiseDpIf c f).page = s.page ∧ (s.raiseDpIf c f).timeNs = s.timeNs ∧ (s.raiseDpIf c f).timeFrac = s.timeFrac := by
  obtain ⟨x0, x1, x2, h⟩ := s.raiseDpIf_form c f
  rw [h]
  simp only [and_self]

/-- Rejecting a request that names a frame. -/
theorem State.frameReject_form (s : State) (now f : Nat) : ∃ x0 x1 x2 x3 x4,
    s.frameReject now f = { s with regs := x0, newEv := x1, ctrs := x2, wrapQ := x3, mor := x4 } := by
  exact s.raiseIf_form _ _

@[simp] theorem State.frameReject_frame (s : State) (now f : Nat) :
    (s.frameReject now f).shadow = s.shadow ∧ (s.frameReject now f).shadowDue = s.shadowDue ∧ 
    (s.frameReject now f).pubQ = s.pubQ ∧ (s.frameReject now f).evQ = s.evQ ∧ (s.frameReject now f).tick = s.tick ∧ 
    (s.frameReject now f).pending = s.pending ∧ (s.frameReject now f).out = s.out ∧ 
    (s.frameReject now f).freeCtr = s.freeCtr ∧ (s.frameReject now f).msixSent = s.msixSent ∧ 
    (s.frameReject now f).bank = s.bank ∧ (s.frameReject now f).bankTick = s.bankTick ∧ 
    (s.frameReject now f).bankTime = s.bankTime ∧ (s.frameReject now f).snapPend = s.snapPend ∧ 
    (s.frameReject now f).lat0 = s.lat0 ∧ (s.frameReject now f).lat2 = s.lat2 ∧ (s.frameReject now f).wins = s.wins ∧ 
    (s.frameReject now f).winOn = s.winOn ∧ (s.frameReject now f).tel = s.tel ∧ (s.frameReject now f).pcie = s.pcie ∧ 
    (s.frameReject now f).pins = s.pins ∧ (s.frameReject now f).fuses = s.fuses ∧ 
    (s.frameReject now f).boot = s.boot ∧ (s.frameReject now f).commit = s.commit ∧ 
    (s.frameReject now f).poolQ = s.poolQ ∧ (s.frameReject now f).alarmQ = s.alarmQ ∧ 
    (s.frameReject now f).noPair = s.noPair ∧ (s.frameReject now f).nvm = s.nvm ∧ (s.frameReject now f).mem = s.mem ∧ 
    (s.frameReject now f).lnA = s.lnA ∧ (s.frameReject now f).lnB = s.lnB ∧ (s.frameReject now f).thm = s.thm ∧ 
    (s.frameReject now f).mon0 = s.mon0 ∧ (s.frameReject now f).mon1 = s.mon1 ∧ (s.frameReject now f).mon2 = s.mon2 ∧ 
    (s.frameReject now f).clk = s.clk ∧ (s.frameReject now f).tim = s.tim ∧ (s.frameReject now f).rim = s.rim ∧ 
    (s.frameReject now f).d2d = s.d2d ∧ (s.frameReject now f).flo = s.flo ∧ (s.frameReject now f).latQ = s.latQ ∧ 
    (s.frameReject now f).monUndet = s.monUndet ∧ (s.frameReject now f).cph = s.cph ∧ 
    (s.frameReject now f).held = s.held ∧ (s.frameReject now f).stalled = s.stalled ∧ 
    (s.frameReject now f).consumed = s.consumed ∧ (s.frameReject now f).acted = s.acted ∧ 
    (s.frameReject now f).lockTick = s.lockTick ∧ (s.frameReject now f).wdogDone = s.wdogDone ∧ 
    (s.frameReject now f).esFaults = s.esFaults ∧ (s.frameReject now f).relockFaults = s.relockFaults ∧ 
    (s.frameReject now f).page = s.page ∧ (s.frameReject now f).timeNs = s.timeNs ∧ 
    (s.frameReject now f).timeFrac = s.timeFrac := by
  obtain ⟨x0, x1, x2, x3, x4, h⟩ := s.frameReject_form now f
  rw [h]
  simp only [and_self]

/-- Raising WRAP for a counter. -/
theorem State.wrapOne_form (s : State) (k : Nat) : ∃ x0 x1 x2 x3 x4,
    s.wrapOne k = { s with regs := x0, newEv := x1, ctrs := x2, wrapQ := x3, mor := x4 } := by
  unfold State.wrapOne
  dsimp only
  obtain ⟨r, n, c, q, m, h⟩ := s.raise_form Reg.PMC_EVENT.WRAP
  rw [h]
  split
  · exact ⟨r, n, c, q, m, rfl⟩
  · exact ⟨_, n, c, q, m, rfl⟩

@[simp] theorem State.wrapOne_frame (s : State) (k : Nat) :
    (s.wrapOne k).shadow = s.shadow ∧ (s.wrapOne k).shadowDue = s.shadowDue ∧ (s.wrapOne k).pubQ = s.pubQ ∧ 
    (s.wrapOne k).evQ = s.evQ ∧ (s.wrapOne k).tick = s.tick ∧ (s.wrapOne k).pending = s.pending ∧ 
    (s.wrapOne k).out = s.out ∧ (s.wrapOne k).freeCtr = s.freeCtr ∧ (s.wrapOne k).msixSent = s.msixSent ∧ 
    (s.wrapOne k).bank = s.bank ∧ (s.wrapOne k).bankTick = s.bankTick ∧ (s.wrapOne k).bankTime = s.bankTime ∧ 
    (s.wrapOne k).snapPend = s.snapPend ∧ (s.wrapOne k).lat0 = s.lat0 ∧ (s.wrapOne k).lat2 = s.lat2 ∧ 
    (s.wrapOne k).wins = s.wins ∧ (s.wrapOne k).winOn = s.winOn ∧ (s.wrapOne k).tel = s.tel ∧ 
    (s.wrapOne k).pcie = s.pcie ∧ (s.wrapOne k).pins = s.pins ∧ (s.wrapOne k).fuses = s.fuses ∧ 
    (s.wrapOne k).boot = s.boot ∧ (s.wrapOne k).commit = s.commit ∧ (s.wrapOne k).poolQ = s.poolQ ∧ 
    (s.wrapOne k).alarmQ = s.alarmQ ∧ (s.wrapOne k).noPair = s.noPair ∧ (s.wrapOne k).nvm = s.nvm ∧ 
    (s.wrapOne k).mem = s.mem ∧ (s.wrapOne k).lnA = s.lnA ∧ (s.wrapOne k).lnB = s.lnB ∧ (s.wrapOne k).thm = s.thm ∧ 
    (s.wrapOne k).mon0 = s.mon0 ∧ (s.wrapOne k).mon1 = s.mon1 ∧ (s.wrapOne k).mon2 = s.mon2 ∧ 
    (s.wrapOne k).clk = s.clk ∧ (s.wrapOne k).tim = s.tim ∧ (s.wrapOne k).rim = s.rim ∧ (s.wrapOne k).d2d = s.d2d ∧ 
    (s.wrapOne k).flo = s.flo ∧ (s.wrapOne k).latQ = s.latQ ∧ (s.wrapOne k).monUndet = s.monUndet ∧ 
    (s.wrapOne k).cph = s.cph ∧ (s.wrapOne k).held = s.held ∧ (s.wrapOne k).stalled = s.stalled ∧ 
    (s.wrapOne k).consumed = s.consumed ∧ (s.wrapOne k).acted = s.acted ∧ (s.wrapOne k).lockTick = s.lockTick ∧ 
    (s.wrapOne k).wdogDone = s.wdogDone ∧ (s.wrapOne k).esFaults = s.esFaults ∧ 
    (s.wrapOne k).relockFaults = s.relockFaults ∧ (s.wrapOne k).page = s.page ∧ (s.wrapOne k).timeNs = s.timeNs ∧ 
    (s.wrapOne k).timeFrac = s.timeFrac := by
  obtain ⟨x0, x1, x2, x3, x4, h⟩ := s.wrapOne_form k
  rw [h]
  simp only [and_self]

/-- A fold of steps that each touch only some fields touches only those. -/
theorem State.foldl_ev_form {α : Type} (f : State → α → State) (xs : List α) (s : State)
    (h : ∀ s a, ∃ x0 x1 x2 x3 x4, f s a = { s with regs := x0, newEv := x1, ctrs := x2, wrapQ := x3, mor := x4 }) :
    ∃ x0 x1 x2 x3 x4, xs.foldl f s = { s with regs := x0, newEv := x1, ctrs := x2, wrapQ := x3, mor := x4 } := by
  induction xs generalizing s with
  | nil => exact ⟨s.regs, s.newEv, s.ctrs, s.wrapQ, s.mor, rfl⟩
  | cons a xs ih =>
    obtain ⟨a0, a1, a2, a3, a4, ha⟩ := h s a
    obtain ⟨b0, b1, b2, b3, b4, hb⟩ := ih (f s a)
    rw [List.foldl_cons, hb, ha]
    exact ⟨b0, b1, b2, b3, b4, rfl⟩

/-- Raising WRAP for every counter that wrapped. -/
theorem State.wraps_form (s : State)  : ∃ x0 x1 x2 x3 x4,
    s.wraps = { s with regs := x0, newEv := x1, ctrs := x2, wrapQ := x3, mor := x4 } := by
  unfold State.wraps
  obtain ⟨r, n, c, q, m, h⟩ := State.foldl_ev_form State.wrapOne s.wrapQ { s with wrapQ := [] } State.wrapOne_form
  exact ⟨r, n, c, q, m, h⟩

@[simp] theorem State.wraps_frame (s : State)  :
    (s.wraps).shadow = s.shadow ∧ (s.wraps).shadowDue = s.shadowDue ∧ (s.wraps).pubQ = s.pubQ ∧ 
    (s.wraps).evQ = s.evQ ∧ (s.wraps).tick = s.tick ∧ (s.wraps).pending = s.pending ∧ (s.wraps).out = s.out ∧ 
    (s.wraps).freeCtr = s.freeCtr ∧ (s.wraps).msixSent = s.msixSent ∧ (s.wraps).bank = s.bank ∧ 
    (s.wraps).bankTick = s.bankTick ∧ (s.wraps).bankTime = s.bankTime ∧ (s.wraps).snapPend = s.snapPend ∧ 
    (s.wraps).lat0 = s.lat0 ∧ (s.wraps).lat2 = s.lat2 ∧ (s.wraps).wins = s.wins ∧ (s.wraps).winOn = s.winOn ∧ 
    (s.wraps).tel = s.tel ∧ (s.wraps).pcie = s.pcie ∧ (s.wraps).pins = s.pins ∧ (s.wraps).fuses = s.fuses ∧ 
    (s.wraps).boot = s.boot ∧ (s.wraps).commit = s.commit ∧ (s.wraps).poolQ = s.poolQ ∧ (s.wraps).alarmQ = s.alarmQ ∧ 
    (s.wraps).noPair = s.noPair ∧ (s.wraps).nvm = s.nvm ∧ (s.wraps).mem = s.mem ∧ (s.wraps).lnA = s.lnA ∧ 
    (s.wraps).lnB = s.lnB ∧ (s.wraps).thm = s.thm ∧ (s.wraps).mon0 = s.mon0 ∧ (s.wraps).mon1 = s.mon1 ∧ 
    (s.wraps).mon2 = s.mon2 ∧ (s.wraps).clk = s.clk ∧ (s.wraps).tim = s.tim ∧ (s.wraps).rim = s.rim ∧ 
    (s.wraps).d2d = s.d2d ∧ (s.wraps).flo = s.flo ∧ (s.wraps).latQ = s.latQ ∧ (s.wraps).monUndet = s.monUndet ∧ 
    (s.wraps).cph = s.cph ∧ (s.wraps).held = s.held ∧ (s.wraps).stalled = s.stalled ∧ 
    (s.wraps).consumed = s.consumed ∧ (s.wraps).acted = s.acted ∧ (s.wraps).lockTick = s.lockTick ∧ 
    (s.wraps).wdogDone = s.wdogDone ∧ (s.wraps).esFaults = s.esFaults ∧ (s.wraps).relockFaults = s.relockFaults ∧ 
    (s.wraps).page = s.page ∧ (s.wraps).timeNs = s.timeNs ∧ (s.wraps).timeFrac = s.timeFrac := by
  obtain ⟨x0, x1, x2, x3, x4, h⟩ := s.wraps_form
  rw [h]
  simp only [and_self]

/-- Asserting SERVICE_N. -/
theorem State.assertService_form (s : State)  : ∃ x0 x1 x2 x3 x4,
    s.assertService = { s with regs := x0, newEv := x1, ctrs := x2, wrapQ := x3, mor := x4 } := by
  unfold State.assertService
  split
  · exact ⟨s.regs, s.newEv, s.ctrs, s.wrapQ, s.mor, rfl⟩
  · obtain ⟨r, n, c, q, m, h⟩ := (s.setFld Reg.FLT_STATUS.SERVICE 1).raise_form Reg.FLT_EVENT.SERVICE_ON
    exact ⟨r, n, c, q, m, h⟩

@[simp] theorem State.assertService_frame (s : State)  :
    (s.assertService).shadow = s.shadow ∧ (s.assertService).shadowDue = s.shadowDue ∧ 
    (s.assertService).pubQ = s.pubQ ∧ (s.assertService).evQ = s.evQ ∧ (s.assertService).tick = s.tick ∧ 
    (s.assertService).pending = s.pending ∧ (s.assertService).out = s.out ∧ (s.assertService).freeCtr = s.freeCtr ∧ 
    (s.assertService).msixSent = s.msixSent ∧ (s.assertService).bank = s.bank ∧ 
    (s.assertService).bankTick = s.bankTick ∧ (s.assertService).bankTime = s.bankTime ∧ 
    (s.assertService).snapPend = s.snapPend ∧ (s.assertService).lat0 = s.lat0 ∧ (s.assertService).lat2 = s.lat2 ∧ 
    (s.assertService).wins = s.wins ∧ (s.assertService).winOn = s.winOn ∧ (s.assertService).tel = s.tel ∧ 
    (s.assertService).pcie = s.pcie ∧ (s.assertService).pins = s.pins ∧ (s.assertService).fuses = s.fuses ∧ 
    (s.assertService).boot = s.boot ∧ (s.assertService).commit = s.commit ∧ (s.assertService).poolQ = s.poolQ ∧ 
    (s.assertService).alarmQ = s.alarmQ ∧ (s.assertService).noPair = s.noPair ∧ (s.assertService).nvm = s.nvm ∧ 
    (s.assertService).mem = s.mem ∧ (s.assertService).lnA = s.lnA ∧ (s.assertService).lnB = s.lnB ∧ 
    (s.assertService).thm = s.thm ∧ (s.assertService).mon0 = s.mon0 ∧ (s.assertService).mon1 = s.mon1 ∧ 
    (s.assertService).mon2 = s.mon2 ∧ (s.assertService).clk = s.clk ∧ (s.assertService).tim = s.tim ∧ 
    (s.assertService).rim = s.rim ∧ (s.assertService).d2d = s.d2d ∧ (s.assertService).flo = s.flo ∧ 
    (s.assertService).latQ = s.latQ ∧ (s.assertService).monUndet = s.monUndet ∧ (s.assertService).cph = s.cph ∧ 
    (s.assertService).held = s.held ∧ (s.assertService).stalled = s.stalled ∧ 
    (s.assertService).consumed = s.consumed ∧ (s.assertService).acted = s.acted ∧ 
    (s.assertService).lockTick = s.lockTick ∧ (s.assertService).wdogDone = s.wdogDone ∧ 
    (s.assertService).esFaults = s.esFaults ∧ (s.assertService).relockFaults = s.relockFaults ∧ 
    (s.assertService).page = s.page ∧ (s.assertService).timeNs = s.timeNs ∧ (s.assertService).timeFrac = s.timeFrac := by
  obtain ⟨x0, x1, x2, x3, x4, h⟩ := s.assertService_form
  rw [h]
  simp only [and_self]

/-- The degraded steps of a pool. -/
theorem State.degradePool_form (s : State) (p : Nat × Nat) : ∃ x0 x1 x2 x3 x4 x5 x6,
    s.degradePool p = { s with regs := x0, newEv := x1, ctrs := x2, wrapQ := x3, mor := x4, alarmQ := x5, boot := x6 } := by
  unfold State.degradePool
  extract_lets a b src c src2
  obtain ⟨r0, ha⟩ : ∃ r0, a = { s with regs := r0 } := ⟨_, rfl⟩
  obtain ⟨r, n, c0, q, h⟩ := a.raiseOwn_form Reg.FLT_EVENT.DEGRADED
  obtain ⟨r1, n1, c1, q1, m1, h1⟩ := (a.raiseOwn Reg.FLT_EVENT.DEGRADED).assertService_form
  obtain ⟨r', n', c', q', m, hb⟩ := (a.raiseOwn Reg.FLT_EVENT.DEGRADED).assertService.queueRec_form 0x000D 2 2 (leBytes 2 p.2)
  have hb' : b = { s with regs := r', newEv := n', ctrs := c', wrapQ := q', mor := m } := by
    rw [show b = _ from hb, h1, h, ha]
  obtain ⟨al, bo, hc⟩ : ∃ al bo, c = { b with alarmQ := al, boot := bo } := by
    by_cases h7 : b.fld Reg.GLB_HOST_STATUS.BOOT_STEP = 7
    · exact ⟨_, b.boot, if_pos h7⟩
    · exact ⟨b.alarmQ, _, if_neg h7⟩
  clear_value c b
  subst hc
  rw [hb']
  exact ⟨r', n', c', q', m, al, _, rfl⟩

@[simp] theorem State.degradePool_frame (s : State) (p : Nat × Nat) :
    (s.degradePool p).shadow = s.shadow ∧ (s.degradePool p).shadowDue = s.shadowDue ∧ 
    (s.degradePool p).pubQ = s.pubQ ∧ (s.degradePool p).evQ = s.evQ ∧ (s.degradePool p).tick = s.tick ∧ 
    (s.degradePool p).pending = s.pending ∧ (s.degradePool p).out = s.out ∧ (s.degradePool p).freeCtr = s.freeCtr ∧ 
    (s.degradePool p).msixSent = s.msixSent ∧ (s.degradePool p).bank = s.bank ∧ 
    (s.degradePool p).bankTick = s.bankTick ∧ (s.degradePool p).bankTime = s.bankTime ∧ 
    (s.degradePool p).snapPend = s.snapPend ∧ (s.degradePool p).lat0 = s.lat0 ∧ (s.degradePool p).lat2 = s.lat2 ∧ 
    (s.degradePool p).wins = s.wins ∧ (s.degradePool p).winOn = s.winOn ∧ (s.degradePool p).tel = s.tel ∧ 
    (s.degradePool p).pcie = s.pcie ∧ (s.degradePool p).pins = s.pins ∧ (s.degradePool p).fuses = s.fuses ∧ 
    (s.degradePool p).commit = s.commit ∧ (s.degradePool p).poolQ = s.poolQ ∧ (s.degradePool p).noPair = s.noPair ∧ 
    (s.degradePool p).nvm = s.nvm ∧ (s.degradePool p).mem = s.mem ∧ (s.degradePool p).lnA = s.lnA ∧ 
    (s.degradePool p).lnB = s.lnB ∧ (s.degradePool p).thm = s.thm ∧ (s.degradePool p).mon0 = s.mon0 ∧ 
    (s.degradePool p).mon1 = s.mon1 ∧ (s.degradePool p).mon2 = s.mon2 ∧ (s.degradePool p).clk = s.clk ∧ 
    (s.degradePool p).tim = s.tim ∧ (s.degradePool p).rim = s.rim ∧ (s.degradePool p).d2d = s.d2d ∧ 
    (s.degradePool p).flo = s.flo ∧ (s.degradePool p).latQ = s.latQ ∧ (s.degradePool p).monUndet = s.monUndet ∧ 
    (s.degradePool p).cph = s.cph ∧ (s.degradePool p).held = s.held ∧ (s.degradePool p).stalled = s.stalled ∧ 
    (s.degradePool p).consumed = s.consumed ∧ (s.degradePool p).acted = s.acted ∧ 
    (s.degradePool p).lockTick = s.lockTick ∧ (s.degradePool p).wdogDone = s.wdogDone ∧ 
    (s.degradePool p).esFaults = s.esFaults ∧ (s.degradePool p).relockFaults = s.relockFaults ∧ 
    (s.degradePool p).page = s.page ∧ (s.degradePool p).timeNs = s.timeNs ∧ (s.degradePool p).timeFrac = s.timeFrac := by
  obtain ⟨x0, x1, x2, x3, x4, x5, x6, h⟩ := s.degradePool_form p
  rw [h]
  simp only [and_self]

theorem State.foldl_dg_form {α : Type} (f : State → α → State) (xs : List α) (s : State)
    (h : ∀ s a, ∃ x0 x1 x2 x3 x4 x5 x6, f s a =
      { s with regs := x0, newEv := x1, ctrs := x2, wrapQ := x3, mor := x4, alarmQ := x5, boot := x6 }) :
    ∃ x0 x1 x2 x3 x4 x5 x6, xs.foldl f s =
      { s with regs := x0, newEv := x1, ctrs := x2, wrapQ := x3, mor := x4, alarmQ := x5, boot := x6 } := by
  induction xs generalizing s with
  | nil => exact ⟨s.regs, s.newEv, s.ctrs, s.wrapQ, s.mor, s.alarmQ, s.boot, rfl⟩
  | cons a xs ih =>
    obtain ⟨a0, a1, a2, a3, a4, a5, a6, ha⟩ := h s a
    obtain ⟨b0, b1, b2, b3, b4, b5, b6, hb⟩ := ih (f s a)
    rw [List.foldl_cons, hb, ha]
    exact ⟨b0, b1, b2, b3, b4, b5, b6, rfl⟩

/-- Taking the degraded steps that are due. -/
theorem State.degrade_form (s : State)  : ∃ x0 x1 x2 x3 x4 x5 x6 x7,
    s.degrade = { s with regs := x0, newEv := x1, ctrs := x2, wrapQ := x3, mor := x4, alarmQ := x5, boot := x6, poolQ := x7 } := by
  unfold State.degrade
  obtain ⟨r, n, c, q, m, a, b, h⟩ := State.foldl_dg_form State.degradePool s.poolQ { s with poolQ := [] } State.degradePool_form
  exact ⟨r, n, c, q, m, a, b, [], h⟩

@[simp] theorem State.degrade_frame (s : State)  :
    (s.degrade).shadow = s.shadow ∧ (s.degrade).shadowDue = s.shadowDue ∧ (s.degrade).pubQ = s.pubQ ∧ 
    (s.degrade).evQ = s.evQ ∧ (s.degrade).tick = s.tick ∧ (s.degrade).pending = s.pending ∧ (s.degrade).out = s.out ∧ 
    (s.degrade).freeCtr = s.freeCtr ∧ (s.degrade).msixSent = s.msixSent ∧ (s.degrade).bank = s.bank ∧ 
    (s.degrade).bankTick = s.bankTick ∧ (s.degrade).bankTime = s.bankTime ∧ (s.degrade).snapPend = s.snapPend ∧ 
    (s.degrade).lat0 = s.lat0 ∧ (s.degrade).lat2 = s.lat2 ∧ (s.degrade).wins = s.wins ∧ (s.degrade).winOn = s.winOn ∧ 
    (s.degrade).tel = s.tel ∧ (s.degrade).pcie = s.pcie ∧ (s.degrade).pins = s.pins ∧ (s.degrade).fuses = s.fuses ∧ 
    (s.degrade).commit = s.commit ∧ (s.degrade).noPair = s.noPair ∧ (s.degrade).nvm = s.nvm ∧ 
    (s.degrade).mem = s.mem ∧ (s.degrade).lnA = s.lnA ∧ (s.degrade).lnB = s.lnB ∧ (s.degrade).thm = s.thm ∧ 
    (s.degrade).mon0 = s.mon0 ∧ (s.degrade).mon1 = s.mon1 ∧ (s.degrade).mon2 = s.mon2 ∧ (s.degrade).clk = s.clk ∧ 
    (s.degrade).tim = s.tim ∧ (s.degrade).rim = s.rim ∧ (s.degrade).d2d = s.d2d ∧ (s.degrade).flo = s.flo ∧ 
    (s.degrade).latQ = s.latQ ∧ (s.degrade).monUndet = s.monUndet ∧ (s.degrade).cph = s.cph ∧ 
    (s.degrade).held = s.held ∧ (s.degrade).stalled = s.stalled ∧ (s.degrade).consumed = s.consumed ∧ 
    (s.degrade).acted = s.acted ∧ (s.degrade).lockTick = s.lockTick ∧ (s.degrade).wdogDone = s.wdogDone ∧ 
    (s.degrade).esFaults = s.esFaults ∧ (s.degrade).relockFaults = s.relockFaults ∧ (s.degrade).page = s.page ∧ 
    (s.degrade).timeNs = s.timeNs ∧ (s.degrade).timeFrac = s.timeFrac := by
  obtain ⟨x0, x1, x2, x3, x4, x5, x6, x7, h⟩ := s.degrade_form
  rw [h]
  simp only [and_self]

/-- FLT_SUMMARY and FAULT_N. -/
theorem State.aggregate_form (s : State)  : ∃ x0 x1,
    s.aggregate = { s with regs := x0, newEv := x1 } := by
  exact ⟨_, _, rfl⟩

@[simp] theorem State.aggregate_frame (s : State)  :
    (s.aggregate).shadow = s.shadow ∧ (s.aggregate).shadowDue = s.shadowDue ∧ (s.aggregate).pubQ = s.pubQ ∧ 
    (s.aggregate).evQ = s.evQ ∧ (s.aggregate).tick = s.tick ∧ (s.aggregate).pending = s.pending ∧ 
    (s.aggregate).out = s.out ∧ (s.aggregate).freeCtr = s.freeCtr ∧ (s.aggregate).msixSent = s.msixSent ∧ 
    (s.aggregate).ctrs = s.ctrs ∧ (s.aggregate).wrapQ = s.wrapQ ∧ (s.aggregate).bank = s.bank ∧ 
    (s.aggregate).bankTick = s.bankTick ∧ (s.aggregate).bankTime = s.bankTime ∧ (s.aggregate).snapPend = s.snapPend ∧ 
    (s.aggregate).lat0 = s.lat0 ∧ (s.aggregate).lat2 = s.lat2 ∧ (s.aggregate).wins = s.wins ∧ 
    (s.aggregate).winOn = s.winOn ∧ (s.aggregate).tel = s.tel ∧ (s.aggregate).mor = s.mor ∧ 
    (s.aggregate).pcie = s.pcie ∧ (s.aggregate).pins = s.pins ∧ (s.aggregate).fuses = s.fuses ∧ 
    (s.aggregate).boot = s.boot ∧ (s.aggregate).commit = s.commit ∧ (s.aggregate).poolQ = s.poolQ ∧ 
    (s.aggregate).alarmQ = s.alarmQ ∧ (s.aggregate).noPair = s.noPair ∧ (s.aggregate).nvm = s.nvm ∧ 
    (s.aggregate).mem = s.mem ∧ (s.aggregate).lnA = s.lnA ∧ (s.aggregate).lnB = s.lnB ∧ (s.aggregate).thm = s.thm ∧ 
    (s.aggregate).mon0 = s.mon0 ∧ (s.aggregate).mon1 = s.mon1 ∧ (s.aggregate).mon2 = s.mon2 ∧ 
    (s.aggregate).clk = s.clk ∧ (s.aggregate).tim = s.tim ∧ (s.aggregate).rim = s.rim ∧ (s.aggregate).d2d = s.d2d ∧ 
    (s.aggregate).flo = s.flo ∧ (s.aggregate).latQ = s.latQ ∧ (s.aggregate).monUndet = s.monUndet ∧ 
    (s.aggregate).cph = s.cph ∧ (s.aggregate).held = s.held ∧ (s.aggregate).stalled = s.stalled ∧ 
    (s.aggregate).consumed = s.consumed ∧ (s.aggregate).acted = s.acted ∧ (s.aggregate).lockTick = s.lockTick ∧ 
    (s.aggregate).wdogDone = s.wdogDone ∧ (s.aggregate).esFaults = s.esFaults ∧ 
    (s.aggregate).relockFaults = s.relockFaults ∧ (s.aggregate).page = s.page ∧ (s.aggregate).timeNs = s.timeNs ∧ 
    (s.aggregate).timeFrac = s.timeFrac := by
  obtain ⟨x0, x1, h⟩ := s.aggregate_form
  rw [h]
  simp only [and_self]

/-- A vector's message. -/
theorem State.msix_form (s : State) (v : Nat) : ∃ x0 x1,
    s.msix v = { s with regs := x0, out := x1 } := by
  unfold State.msix
  split
  · exact ⟨s.regs, s.out, rfl⟩
  · split
    · exact ⟨_, s.out, rfl⟩
    · exact ⟨s.regs, _, rfl⟩

@[simp] theorem State.msix_frame (s : State) (v : Nat) :
    (s.msix v).shadow = s.shadow ∧ (s.msix v).shadowDue = s.shadowDue ∧ (s.msix v).pubQ = s.pubQ ∧ 
    (s.msix v).evQ = s.evQ ∧ (s.msix v).tick = s.tick ∧ (s.msix v).pending = s.pending ∧ 
    (s.msix v).freeCtr = s.freeCtr ∧ (s.msix v).newEv = s.newEv ∧ (s.msix v).msixSent = s.msixSent ∧ 
    (s.msix v).ctrs = s.ctrs ∧ (s.msix v).wrapQ = s.wrapQ ∧ (s.msix v).bank = s.bank ∧ 
    (s.msix v).bankTick = s.bankTick ∧ (s.msix v).bankTime = s.bankTime ∧ (s.msix v).snapPend = s.snapPend ∧ 
    (s.msix v).lat0 = s.lat0 ∧ (s.msix v).lat2 = s.lat2 ∧ (s.msix v).wins = s.wins ∧ (s.msix v).winOn = s.winOn ∧ 
    (s.msix v).tel = s.tel ∧ (s.msix v).mor = s.mor ∧ (s.msix v).pcie = s.pcie ∧ (s.msix v).pins = s.pins ∧ 
    (s.msix v).fuses = s.fuses ∧ (s.msix v).boot = s.boot ∧ (s.msix v).commit = s.commit ∧ 
    (s.msix v).poolQ = s.poolQ ∧ (s.msix v).alarmQ = s.alarmQ ∧ (s.msix v).noPair = s.noPair ∧ 
    (s.msix v).nvm = s.nvm ∧ (s.msix v).mem = s.mem ∧ (s.msix v).lnA = s.lnA ∧ (s.msix v).lnB = s.lnB ∧ 
    (s.msix v).thm = s.thm ∧ (s.msix v).mon0 = s.mon0 ∧ (s.msix v).mon1 = s.mon1 ∧ (s.msix v).mon2 = s.mon2 ∧ 
    (s.msix v).clk = s.clk ∧ (s.msix v).tim = s.tim ∧ (s.msix v).rim = s.rim ∧ (s.msix v).d2d = s.d2d ∧ 
    (s.msix v).flo = s.flo ∧ (s.msix v).latQ = s.latQ ∧ (s.msix v).monUndet = s.monUndet ∧ (s.msix v).cph = s.cph ∧ 
    (s.msix v).held = s.held ∧ (s.msix v).stalled = s.stalled ∧ (s.msix v).consumed = s.consumed ∧ 
    (s.msix v).acted = s.acted ∧ (s.msix v).lockTick = s.lockTick ∧ (s.msix v).wdogDone = s.wdogDone ∧ 
    (s.msix v).esFaults = s.esFaults ∧ (s.msix v).relockFaults = s.relockFaults ∧ (s.msix v).page = s.page ∧ 
    (s.msix v).timeNs = s.timeNs ∧ (s.msix v).timeFrac = s.timeFrac := by
  obtain ⟨x0, x1, h⟩ := s.msix_form v
  rw [h]
  simp only [and_self]

/-- A block's message. -/
theorem State.blockMsg_form (s : State) (v : Nat) : ∃ x0 x1 x2 x3,
    s.blockMsg v = { s with regs := x0, newEv := x1, msixSent := x2, out := x3 } := by
  unfold State.blockMsg
  split
  · obtain ⟨r, o, h⟩ := State.msix_form { s with newEv := s.newEv - 2 ^ v, msixSent := s.msixSent ||| 2 ^ v } v
    exact ⟨r, _, _, o, h⟩
  · exact ⟨s.regs, s.newEv, s.msixSent, s.out, rfl⟩

@[simp] theorem State.blockMsg_frame (s : State) (v : Nat) :
    (s.blockMsg v).shadow = s.shadow ∧ (s.blockMsg v).shadowDue = s.shadowDue ∧ (s.blockMsg v).pubQ = s.pubQ ∧ 
    (s.blockMsg v).evQ = s.evQ ∧ (s.blockMsg v).tick = s.tick ∧ (s.blockMsg v).pending = s.pending ∧ 
    (s.blockMsg v).freeCtr = s.freeCtr ∧ (s.blockMsg v).ctrs = s.ctrs ∧ (s.blockMsg v).wrapQ = s.wrapQ ∧ 
    (s.blockMsg v).bank = s.bank ∧ (s.blockMsg v).bankTick = s.bankTick ∧ (s.blockMsg v).bankTime = s.bankTime ∧ 
    (s.blockMsg v).snapPend = s.snapPend ∧ (s.blockMsg v).lat0 = s.lat0 ∧ (s.blockMsg v).lat2 = s.lat2 ∧ 
    (s.blockMsg v).wins = s.wins ∧ (s.blockMsg v).winOn = s.winOn ∧ (s.blockMsg v).tel = s.tel ∧ 
    (s.blockMsg v).mor = s.mor ∧ (s.blockMsg v).pcie = s.pcie ∧ (s.blockMsg v).pins = s.pins ∧ 
    (s.blockMsg v).fuses = s.fuses ∧ (s.blockMsg v).boot = s.boot ∧ (s.blockMsg v).commit = s.commit ∧ 
    (s.blockMsg v).poolQ = s.poolQ ∧ (s.blockMsg v).alarmQ = s.alarmQ ∧ (s.blockMsg v).noPair = s.noPair ∧ 
    (s.blockMsg v).nvm = s.nvm ∧ (s.blockMsg v).mem = s.mem ∧ (s.blockMsg v).lnA = s.lnA ∧ 
    (s.blockMsg v).lnB = s.lnB ∧ (s.blockMsg v).thm = s.thm ∧ (s.blockMsg v).mon0 = s.mon0 ∧ 
    (s.blockMsg v).mon1 = s.mon1 ∧ (s.blockMsg v).mon2 = s.mon2 ∧ (s.blockMsg v).clk = s.clk ∧ 
    (s.blockMsg v).tim = s.tim ∧ (s.blockMsg v).rim = s.rim ∧ (s.blockMsg v).d2d = s.d2d ∧ 
    (s.blockMsg v).flo = s.flo ∧ (s.blockMsg v).latQ = s.latQ ∧ (s.blockMsg v).monUndet = s.monUndet ∧ 
    (s.blockMsg v).cph = s.cph ∧ (s.blockMsg v).held = s.held ∧ (s.blockMsg v).stalled = s.stalled ∧ 
    (s.blockMsg v).consumed = s.consumed ∧ (s.blockMsg v).acted = s.acted ∧ (s.blockMsg v).lockTick = s.lockTick ∧ 
    (s.blockMsg v).wdogDone = s.wdogDone ∧ (s.blockMsg v).esFaults = s.esFaults ∧ 
    (s.blockMsg v).relockFaults = s.relockFaults ∧ (s.blockMsg v).page = s.page ∧ (s.blockMsg v).timeNs = s.timeNs ∧ 
    (s.blockMsg v).timeFrac = s.timeFrac := by
  obtain ⟨x0, x1, x2, x3, h⟩ := s.blockMsg_form v
  rw [h]
  simp only [and_self]

theorem State.foldl_bm_form {α : Type} (f : State → α → State) (xs : List α) (s : State)
    (h : ∀ s a, ∃ x0 x1 x2 x3, f s a = { s with regs := x0, newEv := x1, msixSent := x2, out := x3 }) :
    ∃ x0 x1 x2 x3, xs.foldl f s = { s with regs := x0, newEv := x1, msixSent := x2, out := x3 } := by
  induction xs generalizing s with
  | nil => exact ⟨s.regs, s.newEv, s.msixSent, s.out, rfl⟩
  | cons a xs ih =>
    obtain ⟨a0, a1, a2, a3, ha⟩ := h s a
    obtain ⟨b0, b1, b2, b3, hb⟩ := ih (f s a)
    rw [List.foldl_cons, hb, ha]
    exact ⟨b0, b1, b2, b3, rfl⟩

/-- The messages of R443. -/
theorem State.blockMsgs_form (s : State)  : ∃ x0 x1 x2 x3,
    s.blockMsgs = { s with regs := x0, newEv := x1, msixSent := x2, out := x3 } := by
  exact State.foldl_bm_form State.blockMsg blockVectors s State.blockMsg_form

@[simp] theorem State.blockMsgs_frame (s : State)  :
    (s.blockMsgs).shadow = s.shadow ∧ (s.blockMsgs).shadowDue = s.shadowDue ∧ (s.blockMsgs).pubQ = s.pubQ ∧ 
    (s.blockMsgs).evQ = s.evQ ∧ (s.blockMsgs).tick = s.tick ∧ (s.blockMsgs).pending = s.pending ∧ 
    (s.blockMsgs).freeCtr = s.freeCtr ∧ (s.blockMsgs).ctrs = s.ctrs ∧ (s.blockMsgs).wrapQ = s.wrapQ ∧ 
    (s.blockMsgs).bank = s.bank ∧ (s.blockMsgs).bankTick = s.bankTick ∧ (s.blockMsgs).bankTime = s.bankTime ∧ 
    (s.blockMsgs).snapPend = s.snapPend ∧ (s.blockMsgs).lat0 = s.lat0 ∧ (s.blockMsgs).lat2 = s.lat2 ∧ 
    (s.blockMsgs).wins = s.wins ∧ (s.blockMsgs).winOn = s.winOn ∧ (s.blockMsgs).tel = s.tel ∧ 
    (s.blockMsgs).mor = s.mor ∧ (s.blockMsgs).pcie = s.pcie ∧ (s.blockMsgs).pins = s.pins ∧ 
    (s.blockMsgs).fuses = s.fuses ∧ (s.blockMsgs).boot = s.boot ∧ (s.blockMsgs).commit = s.commit ∧ 
    (s.blockMsgs).poolQ = s.poolQ ∧ (s.blockMsgs).alarmQ = s.alarmQ ∧ (s.blockMsgs).noPair = s.noPair ∧ 
    (s.blockMsgs).nvm = s.nvm ∧ (s.blockMsgs).mem = s.mem ∧ (s.blockMsgs).lnA = s.lnA ∧ (s.blockMsgs).lnB = s.lnB ∧ 
    (s.blockMsgs).thm = s.thm ∧ (s.blockMsgs).mon0 = s.mon0 ∧ (s.blockMsgs).mon1 = s.mon1 ∧ 
    (s.blockMsgs).mon2 = s.mon2 ∧ (s.blockMsgs).clk = s.clk ∧ (s.blockMsgs).tim = s.tim ∧ (s.blockMsgs).rim = s.rim ∧ 
    (s.blockMsgs).d2d = s.d2d ∧ (s.blockMsgs).flo = s.flo ∧ (s.blockMsgs).latQ = s.latQ ∧ 
    (s.blockMsgs).monUndet = s.monUndet ∧ (s.blockMsgs).cph = s.cph ∧ (s.blockMsgs).held = s.held ∧ 
    (s.blockMsgs).stalled = s.stalled ∧ (s.blockMsgs).consumed = s.consumed ∧ (s.blockMsgs).acted = s.acted ∧ 
    (s.blockMsgs).lockTick = s.lockTick ∧ (s.blockMsgs).wdogDone = s.wdogDone ∧ (s.blockMsgs).esFaults = s.esFaults ∧ 
    (s.blockMsgs).relockFaults = s.relockFaults ∧ (s.blockMsgs).page = s.page ∧ (s.blockMsgs).timeNs = s.timeNs ∧ 
    (s.blockMsgs).timeFrac = s.timeFrac := by
  obtain ⟨x0, x1, x2, x3, h⟩ := s.blockMsgs_form
  rw [h]
  simp only [and_self]

/-- Phase 8. -/
theorem State.phase8_form (s : State)  : ∃ x0 x1 x2 x3 x4 x5 x6 x7 x8 x9 x10,
    s.phase8 = { s with regs := x0, newEv := x1, ctrs := x2, wrapQ := x3, mor := x4, alarmQ := x5, boot := x6, poolQ := x7, msixSent := x8, out := x9, page := x10 } := by
  unfold State.phase8
  dsimp only
  obtain ⟨r, n, c, q, m, a, b, pq, h⟩ := s.degrade_form
  rw [h]
  split
  · obtain ⟨r2, n2, c2, q2, m2, h2⟩ := State.assertService_form { s with regs := r, newEv := n, ctrs := c, wrapQ := q, mor := m, alarmQ := a, boot := b, poolQ := pq }
    rw [h2]
    obtain ⟨r3, n3, h3⟩ := State.aggregate_form { s with regs := r2, newEv := n2, ctrs := c2, wrapQ := q2, mor := m2, alarmQ := a, boot := b, poolQ := pq }
    rw [h3]
    obtain ⟨r4, n4, x4, o4, h4⟩ := State.blockMsgs_form { s with regs := r3, newEv := n3, ctrs := c2, wrapQ := q2, mor := m2, alarmQ := a, boot := b, poolQ := pq }
    rw [h4]
    exact ⟨r4, n4, c2, q2, m2, a, b, pq, x4, o4, _, rfl⟩
  · obtain ⟨r3, n3, h3⟩ := State.aggregate_form { s with regs := r, newEv := n, ctrs := c, wrapQ := q, mor := m, alarmQ := a, boot := b, poolQ := pq }
    rw [h3]
    obtain ⟨r4, n4, x4, o4, h4⟩ := State.blockMsgs_form { s with regs := r3, newEv := n3, ctrs := c, wrapQ := q, mor := m, alarmQ := a, boot := b, poolQ := pq }
    rw [h4]
    exact ⟨r4, n4, c, q, m, a, b, pq, x4, o4, _, rfl⟩

@[simp] theorem State.phase8_frame (s : State)  :
    (s.phase8).shadow = s.shadow ∧ (s.phase8).shadowDue = s.shadowDue ∧ (s.phase8).pubQ = s.pubQ ∧ 
    (s.phase8).evQ = s.evQ ∧ (s.phase8).tick = s.tick ∧ (s.phase8).pending = s.pending ∧ 
    (s.phase8).freeCtr = s.freeCtr ∧ (s.phase8).bank = s.bank ∧ (s.phase8).bankTick = s.bankTick ∧ 
    (s.phase8).bankTime = s.bankTime ∧ (s.phase8).snapPend = s.snapPend ∧ (s.phase8).lat0 = s.lat0 ∧ 
    (s.phase8).lat2 = s.lat2 ∧ (s.phase8).wins = s.wins ∧ (s.phase8).winOn = s.winOn ∧ (s.phase8).tel = s.tel ∧ 
    (s.phase8).pcie = s.pcie ∧ (s.phase8).pins = s.pins ∧ (s.phase8).fuses = s.fuses ∧ (s.phase8).commit = s.commit ∧ 
    (s.phase8).noPair = s.noPair ∧ (s.phase8).nvm = s.nvm ∧ (s.phase8).mem = s.mem ∧ (s.phase8).lnA = s.lnA ∧ 
    (s.phase8).lnB = s.lnB ∧ (s.phase8).thm = s.thm ∧ (s.phase8).mon0 = s.mon0 ∧ (s.phase8).mon1 = s.mon1 ∧ 
    (s.phase8).mon2 = s.mon2 ∧ (s.phase8).clk = s.clk ∧ (s.phase8).tim = s.tim ∧ (s.phase8).rim = s.rim ∧ 
    (s.phase8).d2d = s.d2d ∧ (s.phase8).flo = s.flo ∧ (s.phase8).latQ = s.latQ ∧ (s.phase8).monUndet = s.monUndet ∧ 
    (s.phase8).cph = s.cph ∧ (s.phase8).held = s.held ∧ (s.phase8).stalled = s.stalled ∧ 
    (s.phase8).consumed = s.consumed ∧ (s.phase8).acted = s.acted ∧ (s.phase8).lockTick = s.lockTick ∧ 
    (s.phase8).wdogDone = s.wdogDone ∧ (s.phase8).esFaults = s.esFaults ∧ (s.phase8).relockFaults = s.relockFaults ∧ 
    (s.phase8).timeNs = s.timeNs ∧ (s.phase8).timeFrac = s.timeFrac := by
  obtain ⟨x0, x1, x2, x3, x4, x5, x6, x7, x8, x9, x10, h⟩ := s.phase8_form
  rw [h]
  simp only [and_self]

/-! ### Registers after an event -/

/-- Frames of `reg` for steps that do not touch the registers. -/
@[simp] theorem State.reg_count (s : State) (k n off : Nat) : (s.count k n).reg off = s.reg off :=
  State.reg_congr _ _ (s.count_frame k n).1 off

/-- A setting bit keeps every bit that is 1. -/
theorem State.bit_setFld_mono (s : State) (f g : Fr) (h : f.lo = f.hi) (h2 : f.hi < 32) (hg : s.bit g = true) (hl : g.lo = g.hi) :
    (s.setFld f 1).bit g = true := by
  by_cases he : f.off ≠ g.off ∨ f.hi < g.lo ∨ g.hi < f.lo
  · rw [State.bit_eq, State.fld_setFld_ne s f g 1 (le_of_eq h) h2 he, ← State.bit_eq, hg]
  · rw [not_or, not_or, not_not] at he
    obtain ⟨h0, h1, h3⟩ := he
    have : f = g := by cases f; cases g; simp only [Fr.mk.injEq]; simp only at h h0 h1 h3 hl; omega
    rw [← this]
    exact State.bit_setFld s f h h2

theorem State.reg_setEvent (s : State) (f : Fr) : (s.setEvent f).regs = (s.setFld f 1).regs := by
  unfold State.setEvent
  dsimp only
  split <;> rfl

theorem State.reg_setEvent_ne (s : State) (f : Fr) {off : Nat} (h : off ≠ f.off) : (s.setEvent f).reg off = s.reg off := by
  rw [State.reg_congr _ _ (s.reg_setEvent f)]
  exact State.reg_setFld_ne s 1 (fun e => h e.symm)

theorem State.bit_setEvent_mono (s : State) (f g : Fr) (h : f.lo = f.hi) (h2 : f.hi < 32) (hl : g.lo = g.hi) (hg : s.bit g = true) :
    (s.setEvent f).bit g = true := by
  rw [State.bit_eq, State.fld_congr _ _ g (State.reg_congr _ _ (s.reg_setEvent f) g.off), ← State.bit_eq]
  exact State.bit_setFld_mono s f g h h2 hg hl

theorem State.bit_setEvent (s : State) (f : Fr) (h : f.lo = f.hi) (h2 : f.hi < 32) : (s.setEvent f).bit f = true := by
  rw [State.bit_eq, State.fld_congr _ _ f (State.reg_congr _ _ (s.reg_setEvent f) f.off), ← State.bit_eq]
  exact State.bit_setFld s f h h2

theorem State.bit_count (s : State) (k n : Nat) (g : Fr) : (s.count k n).bit g = s.bit g := by
  rw [State.bit_eq, State.fld_congr s _ g (State.reg_count ..), ← State.bit_eq]

/-- Losing a record writes FLT_EVENT alone. -/
theorem State.reg_loseOne_ne (s : State) {off : Nat} (h : off ≠ Reg.FLT_EVENT) : s.loseOne.reg off = s.reg off := by
  unfold State.loseOne
  rw [State.reg_setEvent_ne _ _ h, State.reg_count]
  rfl

theorem State.bit_loseOne (s : State) (g : Fr) (hl : g.lo = g.hi) (h : s.bit g = true) : s.loseOne.bit g = true := by
  refine State.bit_setEvent_mono _ _ g rfl (by decide) hl ?_
  rw [State.bit_count]
  exact h

/-- Every way in which a record that finds the queue full is lost. -/
theorem State.loseRec_cases (s : State) : s.loseRec = s.loseOne ∨
    s.loseRec = s.loseOne.count (256 + 32 * summaryBit Reg.FLT_EVENT + Reg.FLT_EVENT.MOR_LOST.lo) 1 ∨
    s.loseRec = ((s.loseOne.noteFault Reg.FLT_EVENT.MOR_LOST).loseOne).count (256 + 32 * summaryBit Reg.FLT_EVENT + Reg.FLT_EVENT.MOR_LOST.lo) 1 := by
  unfold State.loseRec
  extract_lets a k
  by_cases h : (!a.evEn Reg.FLT_EVENT.MOR_LOST) = true
  · exact .inl (if_pos h)
  · by_cases h2 : a.recentFault Reg.FLT_EVENT.MOR_LOST = true
    · exact .inr (.inl ((if_neg h).trans (if_pos h2)))
    · exact .inr (.inr ((if_neg h).trans (if_neg h2)))

theorem State.reg_loseRec_ne (s : State) {off : Nat} (h : off ≠ Reg.FLT_EVENT) : s.loseRec.reg off = s.reg off := by
  rcases s.loseRec_cases with e | e | e <;> rw [e]
  · exact s.reg_loseOne_ne h
  · rw [State.reg_count, s.reg_loseOne_ne h]
  · rw [State.reg_count, State.reg_loseOne_ne _ h]
    exact s.reg_loseOne_ne h

theorem State.bit_loseRec (s : State) (g : Fr) (hl : g.lo = g.hi) (h : s.bit g = true) : s.loseRec.bit g = true := by
  rcases s.loseRec_cases with e | e | e <;> rw [e]
  · exact s.bit_loseOne g hl h
  · rw [State.bit_count]; exact s.bit_loseOne g hl h
  · rw [State.bit_count]; exact State.bit_loseOne _ g hl (s.bit_loseOne g hl h)

theorem State.reg_queueRec_ne (s : State) (kind sev src : Nat) (detail : List Byte) {off : Nat} (h : off ≠ Reg.FLT_EVENT) :
    (s.queueRec kind sev src detail).reg off = s.reg off := by
  unfold State.queueRec
  dsimp only
  split
  · rfl
  · exact s.reg_loseRec_ne h

theorem State.bit_queueRec (s : State) (kind sev src : Nat) (detail : List Byte) (g : Fr) (hl : g.lo = g.hi) (h : s.bit g = true) :
    (s.queueRec kind sev src detail).bit g = true := by
  unfold State.queueRec
  dsimp only
  split
  · exact h
  · exact s.bit_loseRec g hl h

theorem State.faultRec_split (s : State) (f : Fr) :
    s.faultRec f = s.count (256 + 32 * summaryBit f.off + f.lo) 1 ∨
    ∃ kind sev src d, s.faultRec f = (s.noteFault f).queueRec kind sev src d := by
  unfold State.faultRec State.faultQueue
  by_cases hr : s.recentFault f = true
  · exact .inl (if_pos hr)
  · exact .inr ⟨_, _, _, _, if_neg hr⟩

theorem State.reg_faultRec_ne (s : State) (f : Fr) {off : Nat} (h : off ≠ Reg.FLT_EVENT) : (s.faultRec f).reg off = s.reg off := by
  obtain e | ⟨kind, sev, src, d, e⟩ := s.faultRec_split f
  · rw [e, State.reg_count]
  · rw [e, State.reg_queueRec_ne _ _ _ _ _ h]; rfl

theorem State.bit_faultRec (s : State) (f g : Fr) (hl : g.lo = g.hi) (h : s.bit g = true) : (s.faultRec f).bit g = true := by
  obtain e | ⟨kind, sev, src, d, e⟩ := s.faultRec_split f
  · rw [e, State.bit_count]; exact h
  · rw [e]; exact State.bit_queueRec _ _ _ _ _ g hl h

theorem State.reg_latchEvent_ne (s : State) (f : Fr) {off : Nat} (h : off ≠ f.off) (h2 : off ≠ Reg.FLT_EVENT) :
    (s.latchEvent f).reg off = s.reg off := by
  unfold State.latchEvent
  dsimp only
  split
  · rw [State.reg_faultRec_ne _ _ h2, State.reg_setEvent_ne s f h]
  · exact State.reg_setEvent_ne s f h

theorem State.bit_latchEvent_mono (s : State) (f g : Fr) (h : f.lo = f.hi) (h2 : f.hi < 32) (hl : g.lo = g.hi) (hg : s.bit g = true) :
    (s.latchEvent f).bit g = true := by
  unfold State.latchEvent
  dsimp only
  split
  · exact State.bit_faultRec _ _ g hl (State.bit_setEvent_mono s f g h h2 hl hg)
  · exact State.bit_setEvent_mono s f g h h2 hl hg

theorem State.bit_latchEvent (s : State) (f : Fr) (h : f.lo = f.hi) (h2 : f.hi < 32) : (s.latchEvent f).bit f = true := by
  unfold State.latchEvent
  dsimp only
  split
  · exact State.bit_faultRec _ _ f h (State.bit_setEvent s f h h2)
  · exact State.bit_setEvent s f h h2

/-- Raising an event writes its own EVENT register, and FLT_EVENT when Moraine's queue is full. -/
theorem State.reg_raiseAt_ne (s : State) (f : Fr) (i : Nat) {off : Nat} (h : off ≠ f.off) (h2 : off ≠ Reg.FLT_EVENT) :
    (s.raiseAt f i).reg off = s.reg off := by
  unfold State.raiseAt
  rw [State.reg_latchEvent_ne _ _ h h2, State.reg_count]

theorem State.reg_raise_ne (s : State) (f : Fr) {off : Nat} (h : off ≠ f.off) (h2 : off ≠ Reg.FLT_EVENT) :
    (s.raise f).reg off = s.reg off := s.reg_raiseAt_ne f 0 h h2

theorem State.reg_raiseIf_ne (s : State) (c : Bool) (f : Fr) {off : Nat} (h : off ≠ f.off) (h2 : off ≠ Reg.FLT_EVENT) :
    (s.raiseIf c f).reg off = s.reg off := by
  unfold State.raiseIf
  split
  · exact s.reg_raise_ne f h h2
  · rfl

theorem State.reg_raiseOwn_ne (s : State) (f : Fr) {off : Nat} (h : off ≠ f.off) : (s.raiseOwn f).reg off = s.reg off := by
  unfold State.raiseOwn
  rw [State.reg_setEvent_ne _ _ h, State.reg_count]

@[simp] theorem State.reg_raiseDp (s : State) (f : Fr) (off : Nat) : (s.raiseDp f).reg off = s.reg off :=
  State.reg_congr _ _ (s.raiseDp_frame f).1 off

@[simp] theorem State.reg_raiseDpIf (s : State) (c : Bool) (f : Fr) (off : Nat) : (s.raiseDpIf c f).reg off = s.reg off :=
  State.reg_congr _ _ (s.raiseDpIf_frame c f).1 off

/-- A raised event's bit is 1. -/
theorem State.bit_raiseAt (s : State) (f : Fr) (i : Nat) (h : f.lo = f.hi) (h2 : f.hi < 32) : (s.raiseAt f i).bit f = true :=
  State.bit_latchEvent _ f h h2

theorem State.bit_raise (s : State) (f : Fr) (h : f.lo = f.hi) (h2 : f.hi < 32) : (s.raise f).bit f = true := s.bit_raiseAt f 0 h h2

theorem State.bit_raiseOwn (s : State) (f : Fr) (h : f.lo = f.hi) (h2 : f.hi < 32) : (s.raiseOwn f).bit f = true :=
  State.bit_setEvent _ f h h2

theorem State.bit_raiseAt_mono (s : State) (f g : Fr) (i : Nat) (h : f.lo = f.hi) (h2 : f.hi < 32) (hl : g.lo = g.hi)
    (hg : s.bit g = true) : (s.raiseAt f i).bit g = true := by
  refine State.bit_latchEvent_mono _ f g h h2 hl ?_
  rw [State.bit_eq, State.fld_congr s _ g (State.reg_count ..), ← State.bit_eq, hg]

theorem State.bit_raiseOwn_mono (s : State) (f g : Fr) (h : f.lo = f.hi) (h2 : f.hi < 32) (hl : g.lo = g.hi)
    (hg : s.bit g = true) : (s.raiseOwn f).bit g = true := by
  refine State.bit_setEvent_mono _ f g h h2 hl ?_
  rw [State.bit_eq, State.fld_congr s _ g (State.reg_count ..), ← State.bit_eq, hg]

/-! ### Registers after the wraps and phase 8 -/

theorem State.reg_wrapOne (s : State) (k : Nat) {off : Nat} (h : off ∉ wrapRegs) : (s.wrapOne k).reg off = s.reg off := by
  simp only [wrapRegs, List.mem_cons, List.not_mem_nil, or_false, not_or] at h
  unfold State.wrapOne
  dsimp only
  have h1 : (s.raise Reg.PMC_EVENT.WRAP).reg off = s.reg off := s.reg_raise_ne _ h.1 h.2.2
  split
  · exact h1
  · rw [State.reg_setFld_ne _ _ (fun e => h.2.1 e.symm), State.reg_setFld_ne _ _ (fun e => h.2.1 e.symm), h1]

theorem State.reg_foldl {α : Type} (f : State → α → State) (off : Nat) (hf : ∀ s a, (f s a).reg off = s.reg off) (xs : List α) (s : State) :
    (xs.foldl f s).reg off = s.reg off := by
  induction xs generalizing s with
  | nil => rfl
  | cons a xs ih => rw [List.foldl_cons, ih, hf]

theorem State.bit_foldl {α : Type} (f : State → α → State) (g : Fr) (hf : ∀ s a, s.bit g = true → (f s a).bit g = true) (xs : List α)
    (s : State) (h : s.bit g = true) : (xs.foldl f s).bit g = true := by
  induction xs generalizing s with
  | nil => exact h
  | cons a xs ih => exact ih _ (hf _ _ h)

/-- The wraps write no register but these. -/
theorem State.reg_wraps (s : State) {off : Nat} (h : off ∉ wrapRegs) : s.wraps.reg off = s.reg off :=
  State.reg_foldl _ _ (fun s k => s.reg_wrapOne k h) _ _

/-- The wraps leave a bit that is 1, outside PMC_WRAP_LOG. -/
theorem State.bit_wraps (s : State) (g : Fr) (hl : g.lo = g.hi) (hw : g.off ≠ Reg.PMC_WRAP_LOG) (h : s.bit g = true) :
    s.wraps.bit g = true := by
  refine State.bit_foldl _ _ (fun s k hs => ?_) _ _ h
  unfold State.wrapOne
  dsimp only
  have h1 : (s.raise Reg.PMC_EVENT.WRAP).bit g = true := s.bit_raiseAt_mono _ g 0 rfl (by decide) hl hs
  split
  · exact h1
  · rw [State.bit_eq, State.fld_congr _ _ g ((State.reg_setFld_ne _ _ (fun e => hw e.symm)).trans (State.reg_setFld_ne _ _ (fun e => hw e.symm))),
      ← State.bit_eq, h1]

theorem State.reg_assertService (s : State) {off : Nat} (h : off ∉ faultRegs) : s.assertService.reg off = s.reg off := by
  simp only [faultRegs, wrapRegs, List.cons_append, List.nil_append, List.mem_cons, List.not_mem_nil, or_false, not_or] at h
  unfold State.assertService
  split
  · rfl
  · exact (State.reg_raise_ne _ _ h.2.2.1 h.2.2.1).trans (State.reg_setFld_ne _ _ (fun e => h.2.2.2.1 e.symm))

theorem State.reg_degradePool (s : State) (p : Nat × Nat) {off : Nat} (h : off ∉ faultRegs) : (s.degradePool p).reg off = s.reg off := by
  have hf := h
  simp only [faultRegs, wrapRegs, List.cons_append, List.nil_append, List.mem_cons, List.not_mem_nil, or_false, not_or] at h
  unfold State.degradePool
  extract_lets a b src c src2
  have hb : b.reg off = s.reg off := by
    refine (State.reg_queueRec_ne _ _ _ _ _ h.2.2.1).trans ((State.reg_assertService _ hf).trans ((State.reg_raiseOwn_ne _ _ h.2.2.1).trans ?_))
    exact (State.reg_setFld_ne _ _ (fun e => h.2.2.2.1 e.symm)).trans (State.reg_setFld_ne _ _ (fun e => h.2.2.2.1 e.symm))
  obtain ⟨al, bo, hc'⟩ : ∃ al bo, c = { b with alarmQ := al, boot := bo } := by
    by_cases h7 : b.fld Reg.GLB_HOST_STATUS.BOOT_STEP = 7
    · exact ⟨_, b.boot, if_pos h7⟩
    · exact ⟨b.alarmQ, _, if_neg h7⟩
  have hc : c.reg off = b.reg off := by rw [hc']; rfl
  exact hc.trans hb

theorem State.reg_degrade (s : State) {off : Nat} (h : off ∉ faultRegs) : s.degrade.reg off = s.reg off :=
  State.reg_foldl _ _ (fun s p => s.reg_degradePool p h) _ _

theorem State.reg_aggregate (s : State) {off : Nat} (h : off ∉ faultRegs) : s.aggregate.reg off = s.reg off := by
  simp only [faultRegs, wrapRegs, List.cons_append, List.nil_append, List.mem_cons, List.not_mem_nil, or_false, not_or] at h
  exact (State.reg_setFld_ne _ _ (fun e => h.2.2.2.1 e.symm)).trans (State.reg_setReg_ne _ _ (fun e => h.2.2.2.2.1 e.symm))

theorem State.reg_msix (s : State) (v : Nat) (hv : v < 64) {off : Nat} (h : off ∉ faultRegs) : (s.msix v).reg off = s.reg off := by
  simp only [faultRegs, wrapRegs, List.cons_append, List.nil_append, List.mem_cons, List.not_mem_nil, or_false, not_or] at h
  unfold State.msix
  split
  · rfl
  · split
    · refine State.reg_setFld_ne _ _ (fun e => ?_)
      have : v / 32 = 0 ∨ v / 32 = 1 := by omega
      obtain hz | hz := this
      · exact h.2.2.2.2.2.1 (by rw [← e, hz])
      · exact h.2.2.2.2.2.2 (by rw [← e, hz])
    · rfl

theorem State.reg_blockMsg (s : State) (v : Nat) (hv : v < 64) {off : Nat} (h : off ∉ faultRegs) : (s.blockMsg v).reg off = s.reg off := by
  unfold State.blockMsg
  split
  · exact State.reg_msix _ v hv h
  · rfl

theorem State.reg_blockMsgs (s : State) {off : Nat} (h : off ∉ faultRegs) : s.blockMsgs.reg off = s.reg off := by
  unfold State.blockMsgs
  have hb : ∀ v ∈ blockVectors, v < 64 := by decide
  generalize blockVectors = vs at hb
  induction vs generalizing s with
  | nil => rfl
  | cons v vs ih =>
    rw [List.foldl_cons, ih _ (fun w hw => hb w (List.mem_cons_of_mem _ hw)), State.reg_blockMsg s v (hb v List.mem_cons_self) h]

/-- Phase 8 writes no register but these. -/
theorem State.reg_phase8 (s : State) {off : Nat} (h : off ∉ faultRegs) : s.phase8.reg off = s.reg off := by
  unfold State.phase8
  extract_lets a b
  have ha : a.reg off = s.reg off := s.reg_degrade h
  have hb : b.reg off = a.reg off := by
    by_cases hs : a.serviceDue = true
    · exact (congrArg (fun x => State.reg x off) (show b = _ from if_pos hs)).trans (State.reg_assertService _ h)
    · exact congrArg (fun x => State.reg x off) (show b = _ from if_neg hs)
  show (b.aggregate.blockMsgs).reg off = _
  rw [State.reg_blockMsgs _ h, State.reg_aggregate _ h, hb, ha]

/-! ### A command's result -/

/-- Nothing but the output differs in the state a command finds. -/
@[simp] theorem State.cleared_frame (s : State) :
    s.cleared.shadow = s.shadow ∧
    s.cleared.shadowDue = s.shadowDue ∧
    s.cleared.pubQ = s.pubQ ∧
    s.cleared.evQ = s.evQ ∧
    s.cleared.tick = s.tick ∧
    s.cleared.freeCtr = s.freeCtr ∧
    s.cleared.msixSent = s.msixSent ∧
    s.cleared.bank = s.bank ∧
    s.cleared.bankTick = s.bankTick ∧
    s.cleared.bankTime = s.bankTime ∧
    s.cleared.snapPend = s.snapPend ∧
    s.cleared.lat0 = s.lat0 ∧
    s.cleared.lat2 = s.lat2 ∧
    s.cleared.wins = s.wins ∧
    s.cleared.winOn = s.winOn ∧
    s.cleared.tel = s.tel ∧
    s.cleared.pcie = s.pcie ∧
    s.cleared.pins = s.pins ∧
    s.cleared.fuses = s.fuses ∧
    s.cleared.boot = s.boot ∧
    s.cleared.commit = s.commit ∧
    s.cleared.poolQ = s.poolQ ∧
    s.cleared.alarmQ = s.alarmQ ∧
    s.cleared.noPair = s.noPair ∧
    s.cleared.nvm = s.nvm ∧
    s.cleared.mem = s.mem ∧
    s.cleared.lnA = s.lnA ∧
    s.cleared.lnB = s.lnB ∧
    s.cleared.thm = s.thm ∧
    s.cleared.mon0 = s.mon0 ∧
    s.cleared.mon1 = s.mon1 ∧
    s.cleared.mon2 = s.mon2 ∧
    s.cleared.clk = s.clk ∧
    s.cleared.tim = s.tim ∧
    s.cleared.rim = s.rim ∧
    s.cleared.d2d = s.d2d ∧
    s.cleared.flo = s.flo ∧
    s.cleared.latQ = s.latQ ∧
    s.cleared.monUndet = s.monUndet ∧
    s.cleared.cph = s.cph ∧
    s.cleared.held = s.held ∧
    s.cleared.stalled = s.stalled ∧
    s.cleared.lockTick = s.lockTick ∧
    s.cleared.wdogDone = s.wdogDone ∧
    s.cleared.acted = s.acted ∧
    s.cleared.esFaults = s.esFaults ∧ s.cleared.relockFaults = s.relockFaults ∧ s.cleared.consumed = s.consumed ∧
    s.cleared.page = s.page ∧
    s.cleared.timeNs = s.timeNs ∧
    s.cleared.timeFrac = s.timeFrac ∧
    s.cleared.pending = s.pending ∧
    s.cleared.ctrs = s.ctrs ∧
    s.cleared.wrapQ = s.wrapQ ∧
    s.cleared.mor = s.mor ∧
    s.cleared.newEv = s.newEv ∧
    s.cleared.pending = s.pending ∧
    s.cleared.regs = s.regs ∧
    s.cleared.out = [] := by
  simp only [State.cleared, and_self]

@[simp] theorem State.reg_cleared (s : State) (off : Nat) : s.cleared.reg off = s.reg off := rfl
@[simp] theorem State.fld_cleared (s : State) (f : Fr) : s.cleared.fld f = s.fld f := rfl
@[simp] theorem State.bit_cleared (s : State) (f : Fr) : s.cleared.bit f = s.bit f := rfl

theorem State.cmd_live (s : State) (f : State → State) (h : s.live) :
    s.cmd f = { (f s.cleared).wraps with pending := s.pending } := by
  unfold State.cmd
  rw [if_neg (by rw [show s.held = false from h]; decide)]

theorem State.cmd_held (s : State) (f : State → State) (h : s.held = true) : s.cmd f = s.cleared := by
  unfold State.cmd
  rw [if_pos h]

theorem State.cmdTick_ticking (s : State) (f : State → State) (h : s.ticking) :
    s.cmdTick f = { ((f s.cleared).wraps.phase8).wraps with pending := s.pending } := by
  unfold State.cmdTick
  rw [State.cmd_live s _ h.1, if_neg (by rw [show s.cleared.stalled = false from h.2.1, show s.cleared.consumed = false from h.2.2]; decide)]

/-- What a command leaves in a register is what its effect left there, but for the wraps' registers. -/
theorem State.reg_cmd (s : State) (f : State → State) (h : s.live) {off : Nat} (ho : off ∉ wrapRegs) :
    (s.cmd f).reg off = (f s.cleared).reg off := by
  rw [State.cmd_live s f h]
  exact State.reg_wraps _ ho

theorem State.reg_cmdTick (s : State) (f : State → State) (h : s.ticking) {off : Nat} (ho : off ∉ faultRegs) :
    (s.cmdTick f).reg off = (f s.cleared).reg off := by
  have hw : off ∉ wrapRegs := fun hm => ho (List.mem_append_left _ hm)
  rw [State.cmdTick_ticking s f h]
  exact (State.reg_wraps _ hw).trans ((State.reg_phase8 _ ho).trans (State.reg_wraps _ hw))

/-- A bit that the effect left 1 is 1 after the command. -/
theorem State.bit_cmd (s : State) (f : State → State) (h : s.live) (g : Fr) (hl : g.lo = g.hi) (hw : g.off ≠ Reg.PMC_WRAP_LOG)
    (hb : (f s.cleared).bit g = true) : (s.cmd f).bit g = true := by
  rw [State.cmd_live s f h]
  exact State.bit_wraps _ g hl hw hb

/-- What a command leaves outside the registers, the counters and Moraine's queue is what its effect left there. -/
theorem State.cmd_frame (s : State) (f : State → State) (h : s.live) :
    (s.cmd f).shadow = (f s.cleared).shadow ∧ (s.cmd f).shadowDue = (f s.cleared).shadowDue ∧ 
    (s.cmd f).pubQ = (f s.cleared).pubQ ∧ (s.cmd f).evQ = (f s.cleared).evQ ∧ 
    (s.cmd f).tick = (f s.cleared).tick ∧ 
    (s.cmd f).out = (f s.cleared).out ∧ (s.cmd f).freeCtr = (f s.cleared).freeCtr ∧ 
    (s.cmd f).msixSent = (f s.cleared).msixSent ∧ (s.cmd f).bank = (f s.cleared).bank ∧ 
    (s.cmd f).bankTick = (f s.cleared).bankTick ∧ (s.cmd f).bankTime = (f s.cleared).bankTime ∧ 
    (s.cmd f).snapPend = (f s.cleared).snapPend ∧ (s.cmd f).lat0 = (f s.cleared).lat0 ∧ 
    (s.cmd f).lat2 = (f s.cleared).lat2 ∧ (s.cmd f).wins = (f s.cleared).wins ∧ 
    (s.cmd f).winOn = (f s.cleared).winOn ∧ (s.cmd f).tel = (f s.cleared).tel ∧ 
    (s.cmd f).pcie = (f s.cleared).pcie ∧ (s.cmd f).pins = (f s.cleared).pins ∧ 
    (s.cmd f).fuses = (f s.cleared).fuses ∧ (s.cmd f).boot = (f s.cleared).boot ∧ 
    (s.cmd f).commit = (f s.cleared).commit ∧ (s.cmd f).poolQ = (f s.cleared).poolQ ∧ 
    (s.cmd f).alarmQ = (f s.cleared).alarmQ ∧ (s.cmd f).noPair = (f s.cleared).noPair ∧ 
    (s.cmd f).nvm = (f s.cleared).nvm ∧ (s.cmd f).mem = (f s.cleared).mem ∧ 
    (s.cmd f).lnA = (f s.cleared).lnA ∧ (s.cmd f).lnB = (f s.cleared).lnB ∧ 
    (s.cmd f).thm = (f s.cleared).thm ∧ (s.cmd f).mon0 = (f s.cleared).mon0 ∧ 
    (s.cmd f).mon1 = (f s.cleared).mon1 ∧ (s.cmd f).mon2 = (f s.cleared).mon2 ∧ 
    (s.cmd f).clk = (f s.cleared).clk ∧ (s.cmd f).tim = (f s.cleared).tim ∧ 
    (s.cmd f).rim = (f s.cleared).rim ∧ (s.cmd f).d2d = (f s.cleared).d2d ∧ 
    (s.cmd f).flo = (f s.cleared).flo ∧ (s.cmd f).latQ = (f s.cleared).latQ ∧ 
    (s.cmd f).monUndet = (f s.cleared).monUndet ∧ (s.cmd f).cph = (f s.cleared).cph ∧ 
    (s.cmd f).held = (f s.cleared).held ∧ (s.cmd f).stalled = (f s.cleared).stalled ∧ 
    (s.cmd f).lockTick = (f s.cleared).lockTick ∧ (s.cmd f).wdogDone = (f s.cleared).wdogDone ∧ 
    (s.cmd f).acted = (f s.cleared).acted ∧ (s.cmd f).esFaults = (f s.cleared).esFaults ∧ (s.cmd f).relockFaults = (f s.cleared).relockFaults ∧ (s.cmd f).consumed = (f s.cleared).consumed ∧ (s.cmd f).page = (f s.cleared).page ∧ 
    (s.cmd f).timeNs = (f s.cleared).timeNs ∧ (s.cmd f).timeFrac = (f s.cleared).timeFrac := by
  rw [State.cmd_live s f h]
  simp only [State.wraps_frame, and_self]

/-- The same for a step of the running tick, but for what phase 8 touches. -/
theorem State.cmdTick_frame (s : State) (f : State → State) (h : s.ticking) :
    (s.cmdTick f).shadow = (f s.cleared).shadow ∧ 
    (s.cmdTick f).shadowDue = (f s.cleared).shadowDue ∧ 
    (s.cmdTick f).pubQ = (f s.cleared).pubQ ∧ (s.cmdTick f).evQ = (f s.cleared).evQ ∧ 
    (s.cmdTick f).tick = (f s.cleared).tick ∧ 
    (s.cmdTick f).freeCtr = (f s.cleared).freeCtr ∧ (s.cmdTick f).bank = (f s.cleared).bank ∧ 
    (s.cmdTick f).bankTick = (f s.cleared).bankTick ∧ 
    (s.cmdTick f).bankTime = (f s.cleared).bankTime ∧ 
    (s.cmdTick f).snapPend = (f s.cleared).snapPend ∧ (s.cmdTick f).lat0 = (f s.cleared).lat0 ∧ 
    (s.cmdTick f).lat2 = (f s.cleared).lat2 ∧ (s.cmdTick f).wins = (f s.cleared).wins ∧ 
    (s.cmdTick f).winOn = (f s.cleared).winOn ∧ (s.cmdTick f).tel = (f s.cleared).tel ∧ 
    (s.cmdTick f).pcie = (f s.cleared).pcie ∧ (s.cmdTick f).pins = (f s.cleared).pins ∧ 
    (s.cmdTick f).fuses = (f s.cleared).fuses ∧ (s.cmdTick f).commit = (f s.cleared).commit ∧ 
    (s.cmdTick f).noPair = (f s.cleared).noPair ∧ (s.cmdTick f).nvm = (f s.cleared).nvm ∧ 
    (s.cmdTick f).mem = (f s.cleared).mem ∧ (s.cmdTick f).lnA = (f s.cleared).lnA ∧ 
    (s.cmdTick f).lnB = (f s.cleared).lnB ∧ (s.cmdTick f).thm = (f s.cleared).thm ∧ 
    (s.cmdTick f).mon0 = (f s.cleared).mon0 ∧ (s.cmdTick f).mon1 = (f s.cleared).mon1 ∧ 
    (s.cmdTick f).mon2 = (f s.cleared).mon2 ∧ (s.cmdTick f).clk = (f s.cleared).clk ∧ 
    (s.cmdTick f).tim = (f s.cleared).tim ∧ (s.cmdTick f).rim = (f s.cleared).rim ∧ 
    (s.cmdTick f).d2d = (f s.cleared).d2d ∧ (s.cmdTick f).flo = (f s.cleared).flo ∧ 
    (s.cmdTick f).latQ = (f s.cleared).latQ ∧ (s.cmdTick f).monUndet = (f s.cleared).monUndet ∧ 
    (s.cmdTick f).cph = (f s.cleared).cph ∧ (s.cmdTick f).held = (f s.cleared).held ∧ 
    (s.cmdTick f).stalled = (f s.cleared).stalled ∧ 
    (s.cmdTick f).lockTick = (f s.cleared).lockTick ∧ 
    (s.cmdTick f).wdogDone = (f s.cleared).wdogDone ∧ 
    (s.cmdTick f).acted = (f s.cleared).acted ∧ (s.cmdTick f).esFaults = (f s.cleared).esFaults ∧ (s.cmdTick f).relockFaults = (f s.cleared).relockFaults ∧ (s.cmdTick f).consumed = (f s.cleared).consumed ∧ 
    (s.cmdTick f).timeNs = (f s.cleared).timeNs ∧ 
    (s.cmdTick f).timeFrac = (f s.cleared).timeFrac := by
  rw [State.cmdTick_ticking s f h]
  simp only [State.wraps_frame, State.phase8_frame, and_self]

@[simp] theorem State.cmd_pending (s : State) (f : State → State) : (s.cmd f).pending = s.pending := by
  unfold State.cmd
  dsimp only
  split <;> rfl

@[simp] theorem State.cmdTick_pending (s : State) (f : State → State) : (s.cmdTick f).pending = s.pending := s.cmd_pending _

/-- While no thermal shutdown has taken effect, the phases it would stop run as any step of the tick (R32). -/
theorem State.cmdLive_up (s : State) (f : State → State) (h : s.down = false) : s.cmdLive f = s.cmdTick f := by
  have hd : s.cleared.down = false := h
  unfold State.cmdLive State.cmdTick State.cmd
  simp only [hd, Bool.false_eq_true, if_false]

/-- The same for the datapath's commands (R395). -/
theorem State.cmdRun_up (s : State) (f : State → State) (h : s.down = false) : s.cmdRun f = s.cmd f := by
  have hd : s.cleared.down = false := h
  unfold State.cmdRun State.cmd
  simp only [hd, Bool.false_eq_true, if_false]

@[simp] theorem State.cmdLive_pending (s : State) (f : State → State) : (s.cmdLive f).pending = s.pending := s.cmdTick_pending _

@[simp] theorem State.cmdRun_pending (s : State) (f : State → State) : (s.cmdRun f).pending = s.pending := s.cmd_pending _

/-- While no commit has taken effect in the running tick, a decision runs as any step of the tick (R33). -/
theorem State.cmdDecide_early (s : State) (f : State → State) (h : s.acted = false) : s.cmdDecide f = s.cmdTick f := by
  have ha : s.cleared.acted = false := h
  unfold State.cmdDecide State.cmdTick State.cmd
  simp only [ha, Bool.false_eq_true, if_false]

theorem State.cmdDecideLive_early (s : State) (f : State → State) (h : s.acted = false) : s.cmdDecideLive f = s.cmdLive f := by
  have ha : s.cleared.acted = false := h
  unfold State.cmdDecideLive State.cmdLive State.cmdTick State.cmd
  simp only [ha, Bool.false_eq_true, if_false]

@[simp] theorem State.cmdDecide_pending (s : State) (f : State → State) : (s.cmdDecide f).pending = s.pending := s.cmdTick_pending _

@[simp] theorem State.cmdDecideLive_pending (s : State) (f : State → State) : (s.cmdDecideLive f).pending = s.pending := s.cmdLive_pending _

end Sys2Proof.Machine
end

