-- ==== Sys2Proof/Laws/Cmd.lean ====
section
/-! SUPPORT. What a command leaves as it was, said once: the rest of the state and the registers outside a list. -/

namespace Sys2Proof.Machine

/-- Taking a pool's degraded steps touches two fields of the boot state. -/
theorem State.degradePool_boot (s : State) (p : Nat × Nat) :
    (s.degradePool p).boot.kept = s.boot.kept := by
  unfold State.degradePool
  extract_lets a b src c src2
  have hb : b.boot = s.boot := by simp only [b, a, State.queueRec_frame, State.assertService_frame, State.raiseOwn_frame, State.setFld_frame]
  have hc : c.boot.kept = b.boot.kept := by
    by_cases h7 : b.fld Reg.GLB_HOST_STATUS.BOOT_STEP = 7
    · rw [show c = b.alarm 1 2 true p.2 from if_pos h7]; rfl
    · rw [show c = _ from if_neg h7]; rfl
  exact hc.trans (by rw [hb])

theorem State.degrade_boot (s : State) : s.degrade.boot.kept = s.boot.kept := by
  have key : ∀ (xs : List (Nat × Nat)) (u : State),
      (xs.foldl State.degradePool u).boot.kept = u.boot.kept := by
    intro xs
    induction xs with
    | nil => intro u; rfl
    | cons x xs ih => intro u; exact (ih _).trans (u.degradePool_boot x)
  exact key s.poolQ { s with poolQ := [] }

theorem State.phase8_boot (s : State) : s.phase8.boot.kept = s.boot.kept := by
  unfold State.phase8
  extract_lets a b
  have hb : b.boot = a.boot := by
    by_cases hd : a.serviceDue = true
    · rw [show b = a.assertService from if_pos hd]; simp only [State.assertService_frame]
    · rw [show b = a from if_neg hd]
  have : (b.aggregate.blockMsgs.refreshPage).boot = a.boot := by
    simp only [State.refreshPage_frame, State.blockMsgs_frame, State.aggregate_frame, hb]
  rw [this]
  exact s.degrade_boot

/-- Equal in every field but those that `rest` leaves out. -/
theorem State.rest_congr {s t : State}
    (h : t.shadow = s.shadow ∧ t.shadowDue = s.shadowDue ∧ t.pubQ = s.pubQ ∧ t.evQ = s.evQ ∧ t.tick = s.tick ∧
      t.pending = s.pending ∧ t.freeCtr = s.freeCtr ∧ t.bank = s.bank ∧ t.bankTick = s.bankTick ∧ t.bankTime = s.bankTime ∧
      t.snapPend = s.snapPend ∧ t.lat0 = s.lat0 ∧ t.lat2 = s.lat2 ∧ t.wins = s.wins ∧ t.winOn = s.winOn ∧ t.tel = s.tel ∧
      t.pcie = s.pcie ∧ t.pins = s.pins ∧ t.fuses = s.fuses ∧ t.commit = s.commit ∧ t.noPair = s.noPair ∧ t.nvm = s.nvm ∧
      t.mem = s.mem ∧ t.lnA = s.lnA ∧ t.lnB = s.lnB ∧ t.thm = s.thm ∧ t.mon0 = s.mon0 ∧ t.mon1 = s.mon1 ∧ t.mon2 = s.mon2 ∧
      t.clk = s.clk ∧ t.tim = s.tim ∧ t.rim = s.rim ∧ t.d2d = s.d2d ∧ t.flo = s.flo ∧ t.latQ = s.latQ ∧ t.monUndet = s.monUndet ∧
      t.cph = s.cph ∧ t.held = s.held ∧ t.stalled = s.stalled ∧ t.consumed = s.consumed ∧ t.acted = s.acted ∧ t.lockTick = s.lockTick ∧ t.wdogDone = s.wdogDone ∧
      t.esFaults = s.esFaults ∧ t.relockFaults = s.relockFaults ∧ t.timeNs = s.timeNs ∧ t.timeFrac = s.timeFrac)
    (hb : t.boot.kept = s.boot.kept) :
    t.rest = s.rest := by
  unfold State.rest
  rw [hb]
  obtain ⟨a0, a1, a2, a3, a4, a5, a6, a7, a8, a9, b0, b1, b2, b3, b4, b5, b6, b7, b8, b9, c0, c1, c2, c3, c4, c5, c6, c7, c8, c9, d0, d1,
    d2, d3, d4, d5, d6, d7, d8, d9, e0, e1, e2, e3, e4, e5, e6⟩ := h
  rw [a0, a1, a2, a3, a4, a5, a6, a7, a8, a9, b0, b1, b2, b3, b4, b5, b6, b7, b8, b9, c0, c1, c2, c3, c4, c5, c6, c7, c8, c9, d0, d1,
    d2, d3, d4, d5, d6, d7, d8, d9, e0, e1, e2, e3, e4, e5, e6]

@[simp] theorem State.rest_wraps (s : State) : s.wraps.rest = s.rest :=
  State.rest_congr (by simp only [State.wraps_frame, and_self]) (by simp only [State.wraps_frame])

@[simp] theorem State.rest_phase8 (s : State) : s.phase8.rest = s.rest :=
  State.rest_congr (by simp only [State.phase8_frame, and_self]) s.phase8_boot

@[simp] theorem State.rest_cleared (s : State) : s.cleared.rest = s.rest := rfl

theorem State.rest_pending (s : State) (p : List Sys2Proof.Instr) : ({ s with pending := p } : State).rest = { s.rest with pending := p } := rfl

theorem State.rest_eq_pending {s t : State} (h : t.rest = s.rest) : { t.rest with pending := s.pending } = s.rest := by
  rw [h]; rfl

/-- What a command leaves beside the registers is what its effect leaves there. -/
theorem State.rest_cmd (s u : State) (f : State → State) (h : s.live) (hu : (f s.cleared).rest = u.rest) (hp : u.pending = s.pending) :
    (s.cmd f).rest = u.rest := by
  rw [State.cmd_live s f h, State.rest_pending, State.rest_wraps, hu, ← hp]
  rfl

theorem State.rest_cmdTick (s u : State) (f : State → State) (h : s.ticking) (hu : (f s.cleared).rest = u.rest) (hp : u.pending = s.pending) :
    (s.cmdTick f).rest = u.rest := by
  rw [State.cmdTick_ticking s f h, State.rest_pending, State.rest_wraps, State.rest_phase8, State.rest_wraps, hu, ← hp]
  rfl

/-- A command leaves what its effect leaves. -/
theorem State.sameBut_cmd (s u : State) (offs : List Nat) (f : State → State) (h : s.live) (hu : (f s.cleared).rest = u.rest)
    (hp : u.pending = s.pending) (ho : ∀ off, off ∉ offs → off ∉ wrapRegs ∧ (f s.cleared).reg off = u.reg off) : u.sameBut (s.cmd f) offs :=
  ⟨s.rest_cmd u f h hu hp, fun off hn => (s.reg_cmd f h (ho off hn).1).trans (ho off hn).2⟩

theorem State.sameBut_cmdTick (s u : State) (offs : List Nat) (f : State → State) (h : s.ticking) (hu : (f s.cleared).rest = u.rest)
    (hp : u.pending = s.pending) (ho : ∀ off, off ∉ offs → off ∉ faultRegs ∧ (f s.cleared).reg off = u.reg off) : u.sameBut (s.cmdTick f) offs :=
  ⟨s.rest_cmdTick u f h hu hp, fun off hn => (s.reg_cmdTick f h (ho off hn).1).trans (ho off hn).2⟩

/-! ### Counters -/

theorem State.ctr_congr {s t : State} (h : t.ctrs = s.ctrs) (k : Nat) : t.ctr k = s.ctr k := by unfold State.ctr; rw [h]

theorem State.ctr_count_ne (s : State) {k j : Nat} (n : Nat) (h : j ≠ k) : (s.count j n).ctr k = s.ctr k := by
  unfold State.count State.ctr
  dsimp only
  split <;> exact SMap.get_set_ne _ _ _ h

/-- Counting without a carry adds. -/
theorem State.ctr_count (s : State) (k n : Nat) (h : (s.ctr k).v + n < 2 ^ 64) : ((s.count k n).ctr k).v = (s.ctr k).v + n := by
  unfold State.count
  dsimp only
  rw [if_pos h]
  unfold State.ctr
  dsimp only
  rw [SMap.get_set_self]

theorem summaryBit_lt (off : Nat) : summaryBit off < 32 := by
  unfold summaryBit
  have h : off % 0x100000 / 0x20000 < 8 := by omega
  generalize off % 0x100000 / 0x20000 = x at h
  have ite (c : Prop) [Decidable c] (a b : Nat) (ha : a < 32) (hb : b < 32) : (if c then a else b) < 32 := by split <;> assumption
  iterate 14 refine ite _ _ _ (by decide) ?_
  by_cases h3 : off < 0x300000
  · rw [if_pos h3]; omega
  · rw [if_neg h3]; omega

/-- The counters that no event and no suppressed record counts in. -/
def plainCtr (k : Nat) : Prop := k < 256 ∨ (1280 ≤ k ∧ k < 16384)

theorem evCtrKey_ne (f : Fr) (i : Nat) {k : Nat} (h : plainCtr k) : evCtrKey f i ≠ k := by
  unfold evCtrKey plainCtr at *
  omega

theorem State.ctr_setEvent (s : State) (f : Fr) (k : Nat) : (s.setEvent f).ctr k = s.ctr k := State.ctr_congr (by simp only [State.setEvent_frame]) k

/-- The counter of an event's suppressed FAULT records is no plain one. -/
theorem suppressed_ne (off lo : Nat) (hl : lo < 32) {k : Nat} (h : plainCtr k) : 256 + 32 * summaryBit off + lo ≠ k := by
  have := summaryBit_lt off
  unfold plainCtr at h
  omega

theorem State.ctr_loseOne (s : State) {k : Nat} (h : plainCtr k) : s.loseOne.ctr k = s.ctr k := by
  unfold State.loseOne
  rw [State.ctr_setEvent, State.ctr_count_ne _ 1 (evCtrKey_ne _ 0 h)]
  exact State.ctr_congr rfl k

theorem State.ctr_loseRec (s : State) {k : Nat} (h : plainCtr k) : s.loseRec.ctr k = s.ctr k := by
  have hn := suppressed_ne Reg.FLT_EVENT Reg.FLT_EVENT.MOR_LOST.lo (by decide) h
  rcases s.loseRec_cases with e | e | e <;> rw [e]
  · exact s.ctr_loseOne h
  · rw [State.ctr_count_ne _ 1 hn, s.ctr_loseOne h]
  · rw [State.ctr_count_ne _ 1 hn, State.ctr_loseOne _ h]
    exact (State.ctr_congr rfl k).trans (s.ctr_loseOne h)

theorem State.ctr_queueRec (s : State) (kind sev src : Nat) (detail : List Byte) {k : Nat} (h : plainCtr k) :
    (s.queueRec kind sev src detail).ctr k = s.ctr k := by
  unfold State.queueRec
  dsimp only
  split
  · exact State.ctr_congr rfl k
  · exact s.ctr_loseRec h

theorem State.ctr_faultRec (s : State) (f : Fr) (hf : f.lo < 32) {k : Nat} (h : plainCtr k) : (s.faultRec f).ctr k = s.ctr k := by
  rcases s.faultRec_split f with e | ⟨kind, sev, src, d, e⟩
  · rw [e, State.ctr_count_ne _ 1 (suppressed_ne f.off f.lo hf h)]
  · rw [e, State.ctr_queueRec _ _ _ _ _ h]
    exact State.ctr_congr rfl k

/-- Raising an event counts in no plain counter. -/
theorem State.ctr_raiseAt (s : State) (f : Fr) (i : Nat) (hf : f.lo < 32) {k : Nat} (h : plainCtr k) : (s.raiseAt f i).ctr k = s.ctr k := by
  have hc : (s.count (evCtrKey f i) 1).ctr k = s.ctr k := s.ctr_count_ne 1 (evCtrKey_ne f i h)
  unfold State.raiseAt State.latchEvent
  dsimp only
  split
  · rw [State.ctr_faultRec _ f hf h, State.ctr_setEvent, hc]
  · rw [State.ctr_setEvent, hc]

theorem wrap_lo : Reg.PMC_EVENT.WRAP.lo < 32 := Nat.zero_lt_succ 31

theorem State.ctr_raise (s : State) (f : Fr) (hf : f.lo < 32) {k : Nat} (h : plainCtr k) : (s.raise f).ctr k = s.ctr k :=
  s.ctr_raiseAt f 0 hf h

theorem State.ctr_raiseOwn (s : State) (f : Fr) {k : Nat} (h : plainCtr k) : (s.raiseOwn f).ctr k = s.ctr k := by
  unfold State.raiseOwn
  rw [State.ctr_setEvent]
  exact s.ctr_count_ne 1 (evCtrKey_ne f 0 h)

theorem State.ctr_setReg (s : State) (off : Nat) (w : Word) (k : Nat) : (s.setReg off w).ctr k = s.ctr k := rfl

theorem State.ctr_wraps (s : State) {k : Nat} (h : plainCtr k) : s.wraps.ctr k = s.ctr k := by
  have one : ∀ (u : State) (j : Nat), (u.wrapOne j).ctr k = u.ctr k := by
    intro u j
    unfold State.wrapOne
    extract_lets v
    have hv : v.ctr k = u.ctr k := u.ctr_raise Reg.PMC_EVENT.WRAP wrap_lo h
    by_cases hb : v.bit Reg.PMC_WRAP_LOG.VALID = true
    · rw [if_pos hb]; exact hv
    · rw [if_neg hb]; exact (State.ctr_congr (by simp only [State.setFld_frame]) k).trans hv
  have all : ∀ (xs : List Nat) (u : State), (xs.foldl State.wrapOne u).ctr k = u.ctr k := by
    intro xs
    induction xs with
    | nil => intro u; rfl
    | cons x xs ih => intro u; exact (ih _).trans (one u x)
  exact all s.wrapQ { s with wrapQ := [] }

/-- What a command counts in a plain counter is what its effect counts there. -/
theorem State.ctr_cmd (s : State) (f : State → State) (h : s.live) {k : Nat} (hk : plainCtr k) : (s.cmd f).ctr k = (f s.cleared).ctr k := by
  rw [State.cmd_live s f h]
  exact State.ctr_wraps _ hk

end Sys2Proof.Machine
end

