-- ==== Sys2Proof/Laws/Nvm.lean ====
section
/-! SUPPORT. The NVM's frame: every operation outside the NVM's own leaves the NVM as it was. -/

namespace Sys2Proof.Machine

open Sys2Proof

/-! ### Folds -/

@[simp] theorem foldl_nvm {α : Type} (f : State → α → State) (xs : List α) (s : State) (h : ∀ a x, (f a x).nvm = a.nvm) :
    (xs.foldl f s).nvm = s.nvm := by
  induction xs generalizing s with
  | nil => rfl
  | cons x xs ih => rw [List.foldl_cons, ih, h]
@[simp] theorem foldl_snd_nvm {α β : Type} (f : β × State → α → β × State) (xs : List α) (p : β × State) (h : ∀ a x, (f a x).2.nvm = a.2.nvm) :
    (xs.foldl f p).2.nvm = p.2.nvm := by
  induction xs generalizing p with
  | nil => rfl
  | cons x xs ih => rw [List.foldl_cons, ih, h]
@[simp] theorem foldl_snd2_nvm {α β γ : Type} (f : β × γ × State → α → β × γ × State) (xs : List α) (p : β × γ × State) (h : ∀ a x, (f a x).2.2.nvm = a.2.2.nvm) :
    (xs.foldl f p).2.2.nvm = p.2.2.nvm := by
  induction xs generalizing p with
  | nil => rfl
  | cons x xs ih => rw [List.foldl_cons, ih, h]
@[simp] theorem foldl_fst_nvm {α β : Type} (f : State × β → α → State × β) (xs : List α) (p : State × β) (h : ∀ a x, (f a x).1.nvm = a.1.nvm) :
    (xs.foldl f p).1.nvm = p.1.nvm := by
  induction xs generalizing p with
  | nil => rfl
  | cons x xs ih => rw [List.foldl_cons, ih, h]
@[simp] theorem State.setReg_nvm (s : State) (off : Nat) (w : Word) : (State.setReg s off w).nvm = s.nvm := by
  simp only [State.setReg_frame]
@[simp] theorem State.setFld_nvm (s : State) (f : Fr) (v : Nat) : (State.setFld s f v).nvm = s.nvm := by
  simp only [State.setFld_frame]
@[simp] theorem State.setFldIf_nvm (s : State) (c : Bool) (f : Fr) (v : Nat) : (State.setFldIf s c f v).nvm = s.nvm := by
  simp only [State.setFldIf_frame]
@[simp] theorem State.setReg64_nvm (s : State) (lo : Nat) (hi : Nat) (v : Nat) : (State.setReg64 s lo hi v).nvm = s.nvm := by
  simp only [State.setReg64_frame]
@[simp] theorem State.loadShadow_nvm (s : State) (off : Nat) : (State.loadShadow s off).nvm = s.nvm := by
  simp only [State.loadShadow_frame]
@[simp] theorem State.dueShadow_nvm (s : State) (off : Nat) : (State.dueShadow s off).nvm = s.nvm := by
  simp only [State.dueShadow_frame]
@[simp] theorem State.publish_nvm (s : State) (f : Fr) (v : Nat) : (State.publish s f v).nvm = s.nvm := by
  simp only [State.publish_frame]
@[simp] theorem State.publishReg_nvm (s : State) (off : Nat) (v : Nat) : (State.publishReg s off v).nvm = s.nvm := by
  simp only [State.publishReg_frame]
@[simp] theorem State.latch_nvm (s : State) (f : Fr) (v : Nat) : (State.latch s f v).nvm = s.nvm := by
  simp only [State.latch_frame]
@[simp] theorem State.latchReg_nvm (s : State) (off : Nat) (v : Nat) : (State.latchReg s off v).nvm = s.nvm := by
  simp only [State.latchReg_frame]
@[simp] theorem State.setLn_nvm (s : State) (l : Nat) (x : Line) : (State.setLn s l x).nvm = s.nvm := by
  unfold State.setLn
  repeat' split
  all_goals simp only
@[simp] theorem State.modLn_nvm (s : State) (l : Nat) (f : Line → Line) : (State.modLn s l f).nvm = s.nvm := by
  unfold State.modLn
  simp only [State.setLn_nvm]
@[simp] theorem State.accepted_nvm (s : State) (l : Nat) (code : Nat) : (State.accepted s l code).nvm = s.nvm := by
  unfold State.accepted
  simp only [State.modLn_nvm]
@[simp] theorem State.emit_nvm (s : State) (o : Out) : (State.emit s o).nvm = s.nvm := by
  simp only [State.emit_frame]
@[simp] theorem State.draw_nvm (s : State) (bound : Nat) : (State.draw s bound).2.nvm = s.nvm := by
  unfold State.draw
  dsimp only
@[simp] theorem State.count_nvm (s : State) (k : Nat) (n : Nat) : (State.count s k n).nvm = s.nvm := by
  simp only [State.count_frame]
@[simp] theorem State.setEvent_nvm (s : State) (f : Fr) : (State.setEvent s f).nvm = s.nvm := by
  simp only [State.setEvent_frame]
@[simp] theorem State.noteFault_nvm (s : State) (f : Fr) : (State.noteFault s f).nvm = s.nvm := by
  simp only [State.noteFault_frame]
@[simp] theorem State.loseOne_nvm (s : State) : (State.loseOne s).nvm = s.nvm := by
  simp only [State.loseOne_frame]
@[simp] theorem State.loseRec_nvm (s : State) : (State.loseRec s).nvm = s.nvm := by
  simp only [State.loseRec_frame]
@[simp] theorem State.queueRec_nvm (s : State) (kind : Nat) (sev : Nat) (src : Nat) (detail : List Byte) : (State.queueRec s kind sev src detail).nvm = s.nvm := by
  simp only [State.queueRec_frame]
@[simp] theorem State.faultQueue_nvm (s : State) (f : Fr) : (State.faultQueue s f).nvm = s.nvm := by
  unfold State.faultQueue
  simp only [State.noteFault_nvm, State.queueRec_nvm]
@[simp] theorem State.faultRec_nvm (s : State) (f : Fr) : (State.faultRec s f).nvm = s.nvm := by
  simp only [State.faultRec_frame]
@[simp] theorem State.latchEvent_nvm (s : State) (f : Fr) : (State.latchEvent s f).nvm = s.nvm := by
  simp only [State.latchEvent_frame]
@[simp] theorem State.raiseAt_nvm (s : State) (f : Fr) (inst : Nat) : (State.raiseAt s f inst).nvm = s.nvm := by
  simp only [State.raiseAt_frame]
@[simp] theorem State.raise_nvm (s : State) (f : Fr) : (State.raise s f).nvm = s.nvm := by
  simp only [State.raise_frame]
@[simp] theorem State.raiseOwn_nvm (s : State) (f : Fr) : (State.raiseOwn s f).nvm = s.nvm := by
  simp only [State.raiseOwn_frame]
@[simp] theorem State.raiseIf_nvm (s : State) (c : Bool) (f : Fr) : (State.raiseIf s c f).nvm = s.nvm := by
  simp only [State.raiseIf_frame]
@[simp] theorem State.frameReject_nvm (s : State) (now : Nat) (f : Nat) : (State.frameReject s now f).nvm = s.nvm := by
  simp only [State.frameReject_frame]
@[simp] theorem State.raiseDpAt_nvm (s : State) (f : Fr) (inst : Nat) : (State.raiseDpAt s f inst).nvm = s.nvm := by
  unfold State.raiseDpAt
  dsimp only
  all_goals simp only [State.count_nvm]
@[simp] theorem State.raiseDp_nvm (s : State) (f : Fr) : (State.raiseDp s f).nvm = s.nvm := by
  simp only [State.raiseDp_frame]
@[simp] theorem State.raiseDpIf_nvm (s : State) (c : Bool) (f : Fr) : (State.raiseDpIf s c f).nvm = s.nvm := by
  simp only [State.raiseDpIf_frame]
@[simp] theorem State.dmaWrite_nvm (s : State) (addr : Nat) (bs : List Byte) : (State.dmaWrite s addr bs).nvm = s.nvm := by
  unfold State.dmaWrite
  simp only [State.emit_nvm, foldl_nvm, implies_true]
@[simp] theorem State.dmaRead_nvm (s : State) (addr : Nat) (len : Nat) : (State.dmaRead s addr len).nvm = s.nvm := by
  unfold State.dmaRead
  simp only [State.emit_nvm, foldl_nvm, implies_true]
@[simp] theorem State.msix_nvm (s : State) (v : Nat) : (State.msix s v).nvm = s.nvm := by
  simp only [State.msix_frame]
@[simp] theorem State.wrapOne_nvm (s : State) (k : Nat) : (State.wrapOne s k).nvm = s.nvm := by
  simp only [State.wrapOne_frame]
@[simp] theorem State.wraps_nvm (s : State) : (State.wraps s).nvm = s.nvm := by
  simp only [State.wraps_frame]
@[simp] theorem State.refreshPage_nvm (s : State) : (State.refreshPage s).nvm = s.nvm := by
  simp only [State.refreshPage_frame]
@[simp] theorem State.assertService_nvm (s : State) : (State.assertService s).nvm = s.nvm := by
  simp only [State.assertService_frame]
@[simp] theorem State.alarm_nvm (s : State) (code : Nat) (sev : Nat) (raised : Bool) (detail : Nat) : (State.alarm s code sev raised detail).nvm = s.nvm := by
  simp only [State.alarm_frame]
@[simp] theorem State.degradePool_nvm (s : State) (p : Nat × Nat) : (State.degradePool s p).nvm = s.nvm := by
  simp only [State.degradePool_frame]
@[simp] theorem State.degrade_nvm (s : State) : (State.degrade s).nvm = s.nvm := by
  simp only [State.degrade_frame]
@[simp] theorem State.aggregate_nvm (s : State) : (State.aggregate s).nvm = s.nvm := by
  simp only [State.aggregate_frame]
@[simp] theorem State.blockMsg_nvm (s : State) (v : Nat) : (State.blockMsg s v).nvm = s.nvm := by
  simp only [State.blockMsg_frame]
@[simp] theorem State.blockMsgs_nvm (s : State) : (State.blockMsgs s).nvm = s.nvm := by
  simp only [State.blockMsgs_frame]
@[simp] theorem State.phase8_nvm (s : State) : (State.phase8 s).nvm = s.nvm := by
  simp only [State.phase8_frame]
@[simp] theorem State.cleared_nvm (s : State) : (State.cleared s).nvm = s.nvm := by
  unfold State.cleared
  dsimp only
@[simp] theorem State.countLevel_nvm (s : State) (k : Nat) (rose : Bool) : (State.countLevel s k rose).nvm = s.nvm := by
  unfold State.countLevel
  repeat' split
  all_goals simp only [State.count_nvm]
@[simp] theorem State.telDrop_nvm (s : State) : (State.telDrop s).nvm = s.nvm := by
  unfold State.telDrop
  dsimp only
  all_goals simp only [State.raise_nvm, State.setFld_nvm]
@[simp] theorem State.telemetry_nvm (s : State) (sn : Snap) (busy : Bool) : (State.telemetry s sn busy).nvm = s.nvm := by
  unfold State.telemetry
  dsimp only
  repeat' split
  all_goals simp only [State.dmaWrite_nvm, State.msix_nvm, State.raise_nvm, State.setFld_nvm, State.telDrop_nvm]
@[simp] theorem State.formSnap_nvm (s : State) (busy : Bool) : (State.formSnap s busy).nvm = s.nvm := by
  unfold State.formSnap
  dsimp only
  repeat' split
  all_goals simp only [State.setFld_nvm, State.telemetry_nvm]
@[simp] theorem State.captureSnap_nvm (s : State) (ctrs : SMap Ctr) : (State.captureSnap s ctrs).nvm = s.nvm := by
  unfold State.captureSnap
  repeat' split
  all_goals simp only [State.setFld_nvm]
@[simp] theorem State.missSnap_nvm (s : State) : (State.missSnap s).nvm = s.nvm := by
  unfold State.missSnap
  dsimp only
  repeat' split
  all_goals simp only [State.raise_nvm, State.setFld_nvm]
@[simp] theorem State.presetWrap_nvm (s : State) (slot : Nat) : (State.presetWrap s slot).nvm = s.nvm := by
  unfold State.presetWrap
  dsimp only
@[simp] theorem State.applyPreset_nvm (s : State) (ctrs : SMap Ctr) : (State.applyPreset s ctrs).nvm = s.nvm := by
  unfold State.applyPreset
  dsimp only
  repeat' split
  all_goals simp only [State.count_nvm, State.presetWrap_nvm, State.raise_nvm, State.setFld_nvm]
@[simp] theorem State.setWin_nvm (s : State) (w : Nat) (x : Win) : (State.setWin s w x).nvm = s.nvm := by
  unfold State.setWin
  dsimp only
@[simp] theorem State.winAdd_nvm (s : State) (w : Nat) (bytes : Nat) (units : Nat) : (State.winAdd s w bytes units).nvm = s.nvm := by
  unfold State.winAdd
  dsimp only
  repeat' split
  all_goals simp only [State.setWin_nvm]
@[simp] theorem State.winStart_nvm (s : State) (w : Nat) : (State.winStart s w).nvm = s.nvm := by
  unfold State.winStart
  dsimp only
  all_goals simp only [State.setWin_nvm]
@[simp] theorem State.winPublish_nvm (s : State) (w : Nat) : (State.winPublish s w).nvm = s.nvm := by
  unfold State.winPublish
  dsimp only
  repeat' split
  all_goals simp only [State.setFld_nvm, State.setReg64_nvm, State.setWin_nvm]
@[simp] theorem State.winBoundary_nvm (s : State) (w : Nat) : (State.winBoundary s w).nvm = s.nvm := by
  unfold State.winBoundary
  dsimp only
  repeat' split
  all_goals simp only [State.setWin_nvm, State.winPublish_nvm]
@[simp] theorem State.rdTimeout_nvm (s : State) (r : Rd) : (State.rdTimeout s r).nvm = s.nvm := by
  unfold State.rdTimeout
  simp only [State.raiseIf_nvm]
@[simp] theorem State.rolledBack_nvm (s : State) : (State.rolledBack s).nvm = s.nvm := by
  unfold State.rolledBack
  dsimp only
  repeat' split
  all_goals simp only [State.alarm_nvm, State.raise_nvm, State.setFld_nvm]
@[simp] theorem State.morRead_nvm (s : State) (r : Rd) : (State.morRead s r).nvm = s.nvm := by
  unfold State.morRead
  dsimp only
  repeat' split
  all_goals simp only [State.raise_nvm, State.rdTimeout_nvm, State.rolledBack_nvm, State.setFld_nvm]
@[simp] theorem State.morTake_nvm (s : State) (i : Nat) : (State.morTake s i).nvm = s.nvm := by
  unfold State.morTake
  dsimp only
@[simp] theorem State.morEnd_nvm (s : State) (qi : Nat) (i : Nat) (seq : Nat) (kind : Nat) (good : Bool) : (State.morEnd s qi i seq kind good).nvm = s.nvm := by
  unfold State.morEnd
  dsimp only
  repeat' split
  all_goals simp only [State.count_nvm, State.morTake_nvm, State.raise_nvm, State.setFld_nvm]
@[simp] theorem State.queueFirst_nvm (s : State) (kind : Nat) (sev : Nat) (src : Nat) (detail : List Byte) : (State.queueFirst s kind sev src detail).nvm = s.nvm := by
  unfold State.queueFirst
  dsimp only
  repeat' split
  all_goals simp only [State.loseRec_nvm]
@[simp] theorem State.wdogFire_nvm (s : State) (cause : Nat) : (State.wdogFire s cause).nvm = s.nvm := by
  unfold State.wdogFire
  dsimp only
  all_goals simp only [State.assertService_nvm, State.queueRec_nvm, State.raiseOwn_nvm, State.setFld_nvm]
@[simp] theorem State.lockstep_nvm (s : State) : (State.lockstep s).nvm = s.nvm := by
  unfold State.lockstep
  dsimp only
  repeat' split
  all_goals simp only [State.raise_nvm, State.setFld_nvm, State.wdogFire_nvm]
@[simp] theorem State.wdog_nvm (s : State) (us : Nat) : (State.wdog s us).nvm = s.nvm := by
  unfold State.wdog
  repeat' split
  all_goals simp only [State.wdogFire_nvm]
@[simp] theorem State.xoFail_nvm (s : State) (edgeUs : Nat) (offUs : Nat) (vsInput : Bool) : (State.xoFail s edgeUs offUs vsInput).nvm = s.nvm := by
  unfold State.xoFail
  dsimp only
  repeat' split
  all_goals simp only [State.raise_nvm, State.setFld_nvm]
@[simp] theorem State.putLane_nvm (s : State) (lane : Nat) (d : Nat) (syn : Nat) : (State.putLane s lane d syn).nvm = s.nvm := by
  unfold State.putLane
  dsimp only
@[simp] theorem State.setSyn_nvm (s : State) (key : Nat) (syn : Nat) : (State.setSyn s key syn).nvm = s.nvm := by
  unfold State.setSyn
  dsimp only
@[simp] theorem State.flipLane_nvm (s : State) (lane : Nat) (mask : Nat) : (State.flipLane s lane mask).nvm = s.nvm := by
  unfold State.flipLane
  simp only [State.putLane_nvm]
@[simp] theorem State.logRepair_nvm (s : State) (src : Nat) (kind : Nat) (st : Nat) (loc : List Byte) : (State.logRepair s src kind st loc).nvm = s.nvm := by
  unfold State.logRepair
  dsimp only
  all_goals simp only [State.queueRec_nvm]
@[simp] theorem State.noteMacro_nvm (s : State) (m : Nat) : (State.noteMacro s m).nvm = s.nvm := by
  unfold State.noteMacro
  dsimp only
@[simp] theorem State.takeSpare_nvm (s : State) (inst : Nat) (row : Nat) (i : Nat) : (State.takeSpare s inst row i).nvm = s.nvm := by
  unfold State.takeSpare
  dsimp only
  all_goals simp only [State.noteMacro_nvm]
@[simp] theorem State.checkRowPool_nvm (s : State) (inst : Nat) : (State.checkRowPool s inst).nvm = s.nvm := by
  unfold State.checkRowPool
  dsimp only
  repeat' split
  all_goals simp only [State.raise_nvm, State.setFld_nvm]
@[simp] theorem State.logRow_nvm (s : State) (inst : Nat) (row : Nat) (i : Nat) (st : Nat) (old : Nat) : (State.logRow s inst row i st old).nvm = s.nvm := by
  unfold State.logRow
  dsimp only
  repeat' split
  all_goals simp only [State.logRepair_nvm]
@[simp] theorem State.repairRow_nvm (s : State) (r : Nat × Nat) : (State.repairRow s r).nvm = s.nvm := by
  unfold State.repairRow
  dsimp only
  repeat' split
  all_goals simp only [State.checkRowPool_nvm, State.logRepair_nvm, State.logRow_nvm, State.noteMacro_nvm, State.publish_nvm, State.raise_nvm, State.takeSpare_nvm]
@[simp] theorem State.repairRows_nvm (s : State) : (State.repairRows s).nvm = s.nvm := by
  unfold State.repairRows
  dsimp only
  all_goals simp only [State.repairRow_nvm, foldl_nvm, implies_true]
@[simp] theorem State.freeRow_nvm (s : State) (inst : Nat) (row : Nat) : (State.freeRow s inst row).nvm = s.nvm := by
  unfold State.freeRow
  refine foldl_nvm _ _ _ (fun a x => ?_)
  dsimp only
  split
  · exact State.setReg_nvm _ _ _
  · rfl
@[simp] theorem State.rowWritten_nvm (s : State) (inst : Nat) (row : Nat) : (State.rowWritten s inst row).nvm = s.nvm := by
  unfold State.rowWritten
  dsimp only
@[simp] theorem State.putCopy_nvm (s : State) (l : LaneCopy) : (State.putCopy s l).nvm = s.nvm := by
  unfold State.putCopy
  repeat' split
  all_goals simp only [State.putLane_nvm, State.setSyn_nvm]
@[simp] theorem State.publishMove_nvm (s : State) (m : RowMove) : (State.publishMove s m).nvm = s.nvm := by
  unfold State.publishMove
  dsimp only
  all_goals simp only [State.freeRow_nvm, State.putCopy_nvm, State.raiseAt_nvm, State.rowWritten_nvm, foldl_nvm, implies_true]
@[simp] theorem State.publishMoves_nvm (s : State) : (State.publishMoves s).nvm = s.nvm := by
  unfold State.publishMoves
  dsimp only
  all_goals simp only [State.publishMove_nvm, State.setFldIf_nvm, foldl_nvm, implies_true]
@[simp] theorem State.applyPend_nvm (s : State) (p : Nat × Nat × Nat) : (State.applyPend s p).nvm = s.nvm := by
  unfold State.applyPend
  extract_lets old n src a b
  have ha : a.nvm = s.nvm := (State.takeSpare_nvm _ _ _ _).trans (State.noteMacro_nvm s p.1)
  have hb : b.nvm = a.nvm := (State.rowWritten_nvm _ _ _).trans (foldl_nvm _ _ _ (fun c k => State.setSyn_nvm c k _))
  clear_value a b
  rw [State.raiseAt_nvm, State.freeRow_nvm, State.logRow_nvm, hb, ha]
@[simp] theorem State.applyPendLine_nvm (s : State) (l : Nat) : (State.applyPendLine s l).nvm = s.nvm := by
  unfold State.applyPendLine
  extract_lets a b
  have ha : a.nvm = s.nvm := foldl_nvm _ _ _ (fun c p => State.applyPend_nvm c p)
  have hb : b.nvm = s.nvm := (State.publish_nvm _ _ _).trans ha
  clear_value b
  split
  · exact (State.publish_nvm _ _ _).trans hb
  · exact hb
@[simp] theorem State.sweepLine_nvm (s : State) (l : Nat) : (State.sweepLine s l).nvm = s.nvm := by
  unfold State.sweepLine
  dsimp only
  all_goals simp only [State.applyPendLine_nvm]
@[simp] theorem State.trkSet_nvm (s : State) (c : Nat) (e : Nat) (inst : Nat) (word : Nat) (n : Nat) (fresh : Bool) : (State.trkSet s c e inst word n fresh).nvm = s.nvm := by
  unfold State.trkSet
  dsimp only
  repeat' split
  all_goals simp only [State.setReg_nvm]
@[simp] theorem State.trkOffer_nvm (s : State) (inst : Nat) (word : Nat) (lane : Nat) (hard : Bool) : (State.trkOffer s inst word lane hard).nvm = s.nvm := by
  unfold State.trkOffer
  dsimp only
  repeat' split
  all_goals simp only [State.raise_nvm, State.trkSet_nvm]
@[simp] theorem State.trkWrote_nvm (s : State) (inst : Nat) (word : Nat) (lane : Nat) : (State.trkWrote s inst word lane).nvm = s.nvm := by
  unfold State.trkWrote
  dsimp only
  repeat' split
  all_goals simp only
@[simp] theorem State.logUncorr_nvm (s : State) (inst : Nat) (word : Nat) (lane : Nat) (syn : Nat) (rmw : Bool) (at_ : Nat) : (State.logUncorr s inst word lane syn rmw at_).nvm = s.nvm := by
  unfold State.logUncorr
  dsimp only
  repeat' split
  all_goals simp only [State.setFld_nvm, State.setReg_nvm]
@[simp] theorem State.reportCorr_nvm (s : State) (inst : Nat) (word : Nat) (lane : Nat) (rmw : Bool) : (State.reportCorr s inst word lane rmw).nvm = s.nvm := by
  unfold State.reportCorr
  dsimp only
  repeat' split
  all_goals simp only [State.raiseAt_nvm, State.trkOffer_nvm]
@[simp] theorem State.reportUncorr_nvm (s : State) (inst : Nat) (word : Nat) (lane : Nat) (syn : Nat) (rmw : Bool) (at_ : Nat) : (State.reportUncorr s inst word lane syn rmw at_).nvm = s.nvm := by
  unfold State.reportUncorr
  dsimp only
  repeat' split
  all_goals simp only [State.logUncorr_nvm, State.raiseAt_nvm, State.trkOffer_nvm]
@[simp] theorem State.memWrote_nvm (s : State) (inst : Nat) (word : Nat) (lane : Nat) (syn : Nat) : (State.memWrote s inst word lane syn).nvm = s.nvm := by
  unfold State.memWrote
  dsimp only
  repeat' split
  all_goals simp only [State.raiseAt_nvm, State.setFld_nvm, State.setSyn_nvm, State.trkWrote_nvm]
@[simp] theorem State.memErr_nvm (s : State) (e : MemErr) : (State.memErr s e).nvm = s.nvm := by
  unfold State.memErr
  dsimp only
  repeat' split
  all_goals simp only [State.memWrote_nvm, State.raiseAt_nvm, State.reportCorr_nvm, State.reportUncorr_nvm]
@[simp] theorem State.memAcc_nvm (s : State) (a : MemAcc) : (State.memAcc s a).nvm = s.nvm := by
  unfold State.memAcc
  dsimp only
  repeat' split
  all_goals simp only [State.memErr_nvm, State.memWrote_nvm, State.setSyn_nvm]
@[simp] theorem State.storeLane_nvm (s : State) (lane : Nat) (d : Nat) (syn : Nat) : (State.storeLane s lane d syn).nvm = s.nvm := by
  unfold State.storeLane
  dsimp only
  repeat' split
  all_goals simp only [State.flipLane_nvm, State.putLane_nvm, State.raiseAt_nvm, State.setFld_nvm, State.trkWrote_nvm]
@[simp] theorem State.readLane_nvm (s : State) (lane : Nat) : (State.readLane s lane).2.2.nvm = s.nvm := by
  unfold State.readLane
  dsimp only
  repeat' split
  all_goals simp only [State.reportCorr_nvm, State.reportUncorr_nvm]
@[simp] theorem State.mergeLane_nvm (s : State) (lane : Nat) (mask : Nat) (d : Nat) : (State.mergeLane s lane mask d).2.nvm = s.nvm := by
  unfold State.mergeLane
  dsimp only
  repeat' split
  all_goals simp only [State.raiseAt_nvm, State.reportCorr_nvm, State.reportUncorr_nvm, State.storeLane_nvm]
@[simp] theorem State.stRead_nvm (s : State) (a : Nat) (n : Nat) : (State.stRead s a n).2.2.nvm = s.nvm := by
  unfold State.stRead
  dsimp only
  all_goals simp only [State.readLane_nvm, foldl_snd2_nvm, implies_true]
@[simp] theorem State.stWrite_nvm (s : State) (a : Nat) (bs : List Byte) : (State.stWrite s a bs).2.nvm = s.nvm := by
  unfold State.stWrite
  refine foldl_snd_nvm _ _ _ (fun b x => ?_)
  extract_lets byteAt mask d r
  split
  · exact State.storeLane_nvm _ _ _ _
  · exact State.mergeLane_nvm _ _ _ _
@[simp] theorem State.upsets_nvm (s : State) (us : List (Nat × Nat)) : (State.upsets s us).nvm = s.nvm := by
  unfold State.upsets
  simp only [State.flipLane_nvm, foldl_nvm, implies_true]
@[simp] theorem State.accErr_nvm (s : State) (off : Nat) (kind : Nat) : (State.accErr s off kind).nvm = s.nvm := by
  unfold State.accErr
  dsimp only
  repeat' split
  all_goals simp only [State.raise_nvm, State.setFld_nvm, State.setReg_nvm]
@[simp] theorem State.bar4Read_nvm (s : State) (a : Nat) (n : Nat) : (State.bar4Read s a n).nvm = s.nvm := by
  unfold State.bar4Read
  dsimp only
  repeat' split
  all_goals simp only [State.accErr_nvm, State.count_nvm, State.emit_nvm, State.stRead_nvm]
@[simp] theorem State.bar4Write_nvm (s : State) (a : Nat) (bs : List Byte) : (State.bar4Write s a bs).nvm = s.nvm := by
  unfold State.bar4Write
  dsimp only
  repeat' split
  all_goals simp only [State.accErr_nvm, State.count_nvm, State.stWrite_nvm]
@[simp] theorem State.sweep_nvm (s : State) : (State.sweep s).nvm = s.nvm := by
  unfold State.sweep
  dsimp only
  all_goals simp only [State.setFld_nvm]
@[simp] theorem State.halveTrack_nvm (s : State) (i : Nat) : (State.halveTrack s i).nvm = s.nvm := by
  unfold State.halveTrack
  dsimp only
  repeat' split
  all_goals simp only [State.setFld_nvm, State.setReg_nvm]
@[simp] theorem State.trackerDecay_nvm (s : State) : (State.trackerDecay s).nvm = s.nvm := by
  unfold State.trackerDecay
  extract_lets d a
  split
  · rfl
  · exact foldl_nvm _ _ _ (fun b x => State.halveTrack_nvm b x)

@[simp] theorem State.mapRetry_nvm (s : State) : (State.mapRetry s).nvm = s.nvm := by
  unfold State.mapRetry
  dsimp only
@[simp] theorem State.layRegs_nvm (s : State) (v : ImageVals) (sel : Nat → Fld → Bool) : (State.layRegs s v sel).nvm = s.nvm := by
  unfold State.layRegs
  refine foldl_nvm _ _ _ (fun a x => ?_)
  dsimp only
  split
  · rfl
  · rw [State.dueShadow_nvm, State.setReg_nvm]
@[simp] theorem State.epochWon_nvm (s : State) (e : Nat) (n : Nat) : (State.epochWon s e n).nvm = s.nvm := by
  unfold State.epochWon
  simp only [State.setFld_nvm]
@[simp] theorem State.epochLost_nvm (s : State) (n : Nat) (detail : List Byte) : (State.epochLost s n detail).nvm = s.nvm := by
  unfold State.epochLost
  dsimp only
  all_goals simp only [State.queueRec_nvm, State.raiseOwn_nvm, State.setFld_nvm]
@[simp] theorem State.epochReadFailed_nvm (s : State) : (State.epochReadFailed s).nvm = s.nvm := by
  unfold State.epochReadFailed
  simp only [State.queueRec_nvm, State.raiseOwn_nvm, State.setFld_nvm]
@[simp] theorem State.setKey_nvm (s : State) (k : Nat) (v : List Byte) : (State.setKey s k v).nvm = s.nvm := by
  unfold State.setKey
  dsimp only
@[simp] theorem State.loadKey_nvm (s : State) (k : Nat) (usage : Nat) (wrapped : List Byte) : (State.loadKey s k usage wrapped).2.nvm = s.nvm := by
  unfold State.loadKey
  repeat' split
  all_goals simp only [State.setFld_nvm, State.setKey_nvm]
@[simp] theorem State.zeroKey_nvm (s : State) (k : Nat) : (State.zeroKey s k).2.nvm = s.nvm := by
  unfold State.zeroKey
  repeat' split
  all_goals simp only [State.setFld_nvm, State.setKey_nvm]
@[simp] theorem State.imageKey_nvm (s : State) (k : Nat × Nat × List Byte) : (State.imageKey s k).2.nvm = s.nvm := by
  unfold State.imageKey
  dsimp only
  all_goals simp only [State.loadKey_nvm, State.raiseIf_nvm]
@[simp] theorem State.clearWrap_nvm (s : State) : (State.clearWrap s).nvm = s.nvm := by
  unfold State.clearWrap
  simp only [State.setReg_nvm, foldl_nvm, implies_true]
@[simp] theorem State.keyLoad_nvm (s : State) (k : Nat) (usage : Nat) (zero : Bool) : (State.keyLoad s k usage zero).nvm = s.nvm := by
  unfold State.keyLoad
  dsimp only
  repeat' split
  all_goals simp only [State.clearWrap_nvm, State.loadKey_nvm, State.raiseIf_nvm, State.setFld_nvm, State.zeroKey_nvm]
@[simp] theorem State.startHost_nvm (s : State) : (State.startHost s).nvm = s.nvm := by
  unfold State.startHost
  dsimp only
  repeat' split
  all_goals simp only [State.dmaRead_nvm, State.setFld_nvm, State.stRead_nvm]
@[simp] theorem State.reqStart_nvm (s : State) : (State.reqStart s).nvm = s.nvm := by
  unfold State.reqStart
  dsimp only
  repeat' split
  all_goals simp only [State.startHost_nvm]
@[simp] theorem State.reqOut_nvm (s : State) (r : Req) (bs : List Byte) : (State.reqOut s r bs).2.nvm = s.nvm := by
  unfold State.reqOut
  dsimp only
  repeat' split
  all_goals simp only [State.dmaWrite_nvm, State.stWrite_nvm]
@[simp] theorem State.reqRecord_nvm (s : State) (r : Req) (status : Nat) (outLen : Nat) (ivMac : List Byte) : (State.reqRecord s r status outLen ivMac).nvm = s.nvm := by
  unfold State.reqRecord
  dsimp only
  repeat' split
  all_goals simp only [State.count_nvm, State.msix_nvm, State.raiseIf_nvm, State.setFld_nvm, State.stWrite_nvm]
@[simp] theorem State.freeBytes_nvm (s : State) (n : Nat) : (State.freeBytes s n).2.nvm = s.nvm := by
  unfold State.freeBytes
  dsimp only
@[simp] theorem State.reqComplete_nvm (s : State) : (State.reqComplete s).nvm = s.nvm := by
  unfold State.reqComplete
  dsimp only
  repeat' split
  all_goals simp only [State.freeBytes_nvm, State.reqOut_nvm, State.reqRecord_nvm, State.stRead_nvm]
@[simp] theorem State.scratchLost_nvm (s : State) : (State.scratchLost s).nvm = s.nvm := by
  unfold State.scratchLost
  dsimp only
  repeat' split
  all_goals simp only
@[simp] theorem State.dmaDone_nvm (s : State) (bs : List Byte) (ok : Bool) : (State.dmaDone s bs ok).nvm = s.nvm := by
  unfold State.dmaDone
  dsimp only
  repeat' split
  all_goals simp only [State.raise_nvm]
@[simp] theorem State.dmaTimeout_nvm (s : State) (us : Nat) : (State.dmaTimeout s us).nvm = s.nvm := by
  unfold State.dmaTimeout
  dsimp only
  repeat' split
  all_goals simp only [State.raise_nvm]
@[simp] theorem State.katDone_nvm (s : State) (pass : Bool) : (State.katDone s pass).nvm = s.nvm := by
  unfold State.katDone
  dsimp only
  repeat' split
  all_goals simp only [State.raiseIf_nvm]
@[simp] theorem State.slotRefresh_nvm (s : State) (k : Nat) : (State.slotRefresh s k).nvm = s.nvm := by
  unfold State.slotRefresh
  dsimp only
  repeat' split
  all_goals simp only [State.setFldIf_nvm, State.setFld_nvm, State.setReg_nvm]
@[simp] theorem State.markStart_nvm (s : State) (k : Nat) (kind : Nat) (cause : Nat) : (State.markStart s k kind cause).nvm = s.nvm := by
  unfold State.markStart
  dsimp only
@[simp] theorem State.markRetry_nvm (s : State) : (State.markRetry s).nvm = s.nvm := by
  unfold State.markRetry
  dsimp only
@[simp] theorem State.abandonCommit_nvm (s : State) (cause : Nat) : (State.abandonCommit s cause).nvm = s.nvm := by
  unfold State.abandonCommit
  dsimp only
  repeat' split
  all_goals simp only [State.queueRec_nvm, State.raiseOwn_nvm, State.setFld_nvm, State.setKey_nvm, foldl_nvm, implies_true]
@[simp] theorem State.startHealth_nvm (s : State) : (State.startHealth s).nvm = s.nvm := by
  unfold State.startHealth
  dsimp only
  all_goals simp only [State.setFld_nvm]
@[simp] theorem State.stopHealth_nvm (s : State) : (State.stopHealth s).nvm = s.nvm := by
  unfold State.stopHealth
  dsimp only
  all_goals simp only [State.setFld_nvm]
@[simp] theorem State.evalHealth_nvm (s : State) : (State.evalHealth s).nvm = s.nvm := by
  unfold State.evalHealth
  dsimp only
  repeat' split
  all_goals simp only [State.faultQueue_nvm, State.markStart_nvm, State.queueRec_nvm, State.raiseOwn_nvm, State.raise_nvm, State.setFldIf_nvm, State.setFld_nvm, State.stopHealth_nvm]
@[simp] theorem State.epochStep_nvm (s : State) : (State.epochStep s).nvm = s.nvm := by
  unfold State.epochStep
  dsimp only
  repeat' split
  all_goals simp only [State.raise_nvm, State.setFld_nvm]
@[simp] theorem State.overrode_nvm (s : State) (off : Nat) (old : Nat) (new : Nat) : (State.overrode s off old new).nvm = s.nvm := by
  unfold State.overrode
  dsimp only
  all_goals simp only [State.epochStep_nvm, State.queueRec_nvm, State.raiseOwn_nvm, State.setFld_nvm]
@[simp] theorem State.cmdEnd_nvm (s : State) (code : Nat) (rec_ : Nat) : (State.cmdEnd s code rec_).nvm = s.nvm := by
  unfold State.cmdEnd
  dsimp only
  repeat' split
  all_goals simp only [State.count_nvm, State.raise_nvm, State.setFld_nvm]
@[simp] theorem State.doCommit_nvm (s : State) : (State.doCommit s).nvm = s.nvm := by
  unfold State.doCommit
  dsimp only
  repeat' split
  all_goals simp only [State.accepted_nvm, State.cmdEnd_nvm, State.setFld_nvm]
@[simp] theorem State.doCancel_nvm (s : State) : (State.doCancel s).nvm = s.nvm := by
  unfold State.doCancel
  repeat' split
  all_goals simp only [State.abandonCommit_nvm, State.cmdEnd_nvm]
@[simp] theorem State.sensorCheck_nvm (s : State) : (State.sensorCheck s).nvm = s.nvm := by
  unfold State.sensorCheck
  dsimp only
@[simp] theorem State.flagSensor_nvm (s : State) (i : Nat) : (State.flagSensor s i).nvm = s.nvm := by
  unfold State.flagSensor
  simp only [State.raiseAt_nvm, State.setFld_nvm]
@[simp] theorem State.pairCheck_nvm (s : State) (d : Nat) : (State.pairCheck s d).nvm = s.nvm := by
  unfold State.pairCheck
  dsimp only
  repeat' split
  all_goals simp only [State.raiseAt_nvm]
@[simp] theorem State.sensorFault_nvm (s : State) : (State.sensorFault s).nvm = s.nvm := by
  unfold State.sensorFault
  dsimp only
  repeat' split
  all_goals simp only [State.flagSensor_nvm, State.pairCheck_nvm, foldl_nvm, implies_true]
@[simp] theorem State.bandEval_nvm (s : State) (d : Nat) : (State.bandEval s d).nvm = s.nvm := by
  unfold State.bandEval
  dsimp only
  repeat' split
  all_goals simp only [State.publish_nvm, State.raiseAt_nvm]
@[simp] theorem State.publishT_nvm (s : State) (f : Fr) (t : Option Int) : (State.publishT s f t).nvm = s.nvm := by
  unfold State.publishT
  repeat' split
  all_goals simp only [State.publish_nvm]
@[simp] theorem State.publishSensor_nvm (s : State) (i : Nat) : (State.publishSensor s i).nvm = s.nvm := by
  unfold State.publishSensor
  simp only [State.publishT_nvm, State.publish_nvm]
@[simp] theorem State.thermalShow_nvm (s : State) : (State.thermalShow s).nvm = s.nvm := by
  unfold State.thermalShow
  extract_lets s1 s2 s3 s4
  have h1 : s1.nvm = s.nvm := (State.publish_nvm _ _ _).trans ((State.publish_nvm _ _ _).trans (State.publish_nvm _ _ _))
  have h2 : s2.nvm = s1.nvm := (State.publish_nvm _ _ _).trans (State.publish_nvm _ _ _)
  have h3 : s3.nvm = s2.nvm := (State.publishT_nvm _ _ _).trans (State.publishT_nvm _ _ _)
  have h4 : s4.nvm = s3.nvm := (State.publishT_nvm _ _ _).trans (State.publishT_nvm _ _ _)
  rw [foldl_nvm _ _ _ (fun a i => State.publishSensor_nvm a i), h4, h3, h2, h1]
@[simp] theorem State.thermal_nvm (s : State) : (State.thermal s).nvm = s.nvm := by
  unfold State.thermal
  dsimp only
  repeat' split
  all_goals simp only [State.bandEval_nvm, State.count_nvm, State.raiseIf_nvm, State.sensorCheck_nvm, State.thermalShow_nvm, foldl_nvm, implies_true]
@[simp] theorem State.shutdown_nvm (s : State) (loc : Nat) (a : Int) (b : Int) : (State.shutdown s loc a b).nvm = s.nvm := by
  unfold State.shutdown
  dsimp only
  repeat' split
  all_goals simp only [State.abandonCommit_nvm, State.modLn_nvm, State.queueRec_nvm, State.raiseOwn_nvm, State.setFld_nvm, State.stopHealth_nvm]
@[simp] theorem State.shutdownCheck_nvm (s : State) : (State.shutdownCheck s).nvm = s.nvm := by
  unfold State.shutdownCheck
  repeat' split
  all_goals simp only [State.shutdown_nvm]
@[simp] theorem State.gateClear_nvm (s : State) : (State.gateClear s).nvm = s.nvm := by
  unfold State.gateClear
  dsimp only
  repeat' split
  all_goals simp only [State.queueFirst_nvm, State.raiseOwn_nvm, State.setFld_nvm]
@[simp] theorem State.setMon_nvm (s : State) (u : Nat) (x : MonUnit) : (State.setMon s u x).nvm = s.nvm := by
  unfold State.setMon
  repeat' split
  all_goals simp only
@[simp] theorem State.monFollow_nvm (s : State) (u : Nat) : (State.monFollow s u).nvm = s.nvm := by
  unfold State.monFollow
  dsimp only
  repeat' split
  all_goals simp only [State.publish_nvm, State.setFld_nvm, State.setMon_nvm, foldl_nvm, implies_true]
@[simp] theorem State.monFollows_nvm (s : State) : (State.monFollows s).nvm = s.nvm := by
  unfold State.monFollows
  simp only [State.monFollow_nvm, foldl_nvm, implies_true]
@[simp] theorem State.monConvert_nvm (s : State) (u : Nat) (code : Nat) (value : Nat) : (State.monConvert s u code value).nvm = s.nvm := by
  unfold State.monConvert
  dsimp only
  repeat' split
  all_goals simp only [State.setMon_nvm]
@[simp] theorem State.monPublish1_nvm (s : State) (u : Nat) (p : Nat × MonRes) : (State.monPublish1 s u p).nvm = s.nvm := by
  unfold State.monPublish1
  dsimp only
  all_goals simp only [State.publish_nvm, State.setMon_nvm]
@[simp] theorem State.monPublish_nvm (s : State) (u : Nat) : (State.monPublish s u).nvm = s.nvm := by
  unfold State.monPublish
  dsimp only
  repeat' split
  all_goals simp only [State.monPublish1_nvm, State.publish_nvm, State.raiseIf_nvm, State.setMon_nvm, foldl_nvm, implies_true]
@[simp] theorem State.excursion_nvm (s : State) (u : Nat) (n : Nat) : (State.excursion s u n).nvm = s.nvm := by
  unfold State.excursion
  dsimp only
  repeat' split
  all_goals simp only [State.publish_nvm, State.raiseAt_nvm, State.setMon_nvm]
@[simp] theorem State.monOutcome_nvm (s : State) (o : Nat) : (State.monOutcome s o).nvm = s.nvm := by
  unfold State.monOutcome
  dsimp only
  repeat' split
  all_goals simp only [State.count_nvm, State.raiseIf_nvm]
@[simp] theorem State.monUsed_nvm (s : State) (us : List Nat) : (State.monUsed s us).nvm = s.nvm := by
  unfold State.monUsed
  dsimp only
  all_goals simp only [State.setMon_nvm, foldl_nvm, implies_true]
@[simp] theorem State.monReadmit_nvm (s : State) (u : Nat) : (State.monReadmit s u).nvm = s.nvm := by
  unfold State.monReadmit
  dsimp only
  repeat' split
  all_goals simp only [State.setFld_nvm, State.setMon_nvm, foldl_nvm, implies_true]
@[simp] theorem State.monCompare_nvm (s : State) : (State.monCompare s).nvm = s.nvm := by
  unfold State.monCompare
  dsimp only
  repeat' split
  all_goals simp only [State.monOutcome_nvm, State.monReadmit_nvm, State.monUsed_nvm, foldl_nvm, implies_true]
@[simp] theorem State.monFault_nvm (s : State) (u : Nat) : (State.monFault s u).nvm = s.nvm := by
  unfold State.monFault
  dsimp only
  repeat' split
  all_goals simp only [State.raiseAt_nvm, State.setFld_nvm, State.setMon_nvm]
@[simp] theorem State.refSettled_nvm (s : State) (u : Nat) : (State.refSettled s u).nvm = s.nvm := by
  unfold State.refSettled
  repeat' split
  all_goals simp only [State.raiseAt_nvm, State.setFld_nvm]
@[simp] theorem State.urgent_nvm (s : State) (last : Bool) : (State.urgent s last).nvm = s.nvm := by
  unfold State.urgent
  dsimp only
  repeat' split
  all_goals simp only [State.raise_nvm, State.setFld_nvm, State.setMon_nvm]
@[simp] theorem State.phase5_nvm (s : State) : (State.phase5 s).nvm = s.nvm := by
  unfold State.phase5
  simp only [State.monCompare_nvm, State.monPublish_nvm]
@[simp] theorem State.setRefIn_nvm (s : State) (i : Nat) (x : RefIn) : (State.setRefIn s i x).nvm = s.nvm := by
  unfold State.setRefIn
  dsimp only
@[simp] theorem State.refShow_nvm (s : State) (i : Nat) : (State.refShow s i).nvm = s.nvm := by
  unfold State.refShow
  dsimp only
  repeat' split
  all_goals simp only [State.publishReg_nvm]
@[simp] theorem State.refDrop_nvm (s : State) (i : Nat) : (State.refDrop s i).nvm = s.nvm := by
  unfold State.refDrop
  dsimp only
  all_goals simp only [State.raiseAt_nvm, State.setRefIn_nvm]
@[simp] theorem State.refLatch_nvm (s : State) (t : TickIn) (i : Nat) : (State.refLatch s t i).nvm = s.nvm := by
  unfold State.refLatch
  dsimp only
  repeat' split
  all_goals simp only [State.setRefIn_nvm]
@[simp] theorem State.refJudge_nvm (s : State) (t : TickIn) (sel : Option Nat) (i : Nat) : (State.refJudge s t sel i).nvm = s.nvm := by
  unfold State.refJudge
  dsimp only
  repeat' split
  all_goals simp only [State.raiseAt_nvm, State.refDrop_nvm, State.setRefIn_nvm]
@[simp] theorem State.findDisputes_nvm (s : State) : (State.findDisputes s).nvm = s.nvm := by
  unfold State.findDisputes
  extract_lets pairs
  refine foldl_nvm _ _ _ (fun b x => ?_)
  extract_lets p q
  split
  · exact State.raiseAt_nvm _ _ _
  · rfl
@[simp] theorem State.makeOutlier_nvm (s : State) (i : Nat) (arb : Nat) : (State.makeOutlier s i arb).nvm = s.nvm := by
  unfold State.makeOutlier
  dsimp only
  all_goals simp only [State.raiseAt_nvm, State.refDrop_nvm, State.setRefIn_nvm]
@[simp] theorem State.arbitrate_nvm (s : State) (d : Dispute) : (State.arbitrate s d).nvm = s.nvm := by
  unfold State.arbitrate
  repeat' split
  all_goals simp only [State.makeOutlier_nvm]
@[simp] theorem State.disputeStep_nvm (s : State) : (State.disputeStep s).nvm = s.nvm := by
  unfold State.disputeStep
  dsimp only
  all_goals simp only [State.arbitrate_nvm, State.findDisputes_nvm, foldl_nvm, implies_true]
@[simp] theorem State.disputeClear_nvm (s : State) : (State.disputeClear s).nvm = s.nvm := by
  unfold State.disputeClear
  dsimp only
@[simp] theorem State.refChoose_nvm (s : State) : (State.refChoose s).nvm = s.nvm := by
  unfold State.refChoose
  dsimp only
  repeat' split
  all_goals simp only [State.raiseAt_nvm]
@[simp] theorem State.refShowAll_nvm (s : State) : (State.refShowAll s).nvm = s.nvm := by
  unfold State.refShowAll
  repeat' split
  all_goals simp only [State.publish_nvm, State.refShow_nvm, foldl_nvm, implies_true]
@[simp] theorem State.refDecide_nvm (s : State) : (State.refDecide s).nvm = s.nvm := by
  unfold State.refDecide
  simp only [State.disputeStep_nvm, State.refChoose_nvm, State.refShowAll_nvm]
@[simp] theorem State.setDpll_nvm (s : State) (v : Nat) : (State.setDpll s v).nvm = s.nvm := by
  unfold State.setDpll
  simp only [State.setFld_nvm]
@[simp] theorem State.selPublish_nvm (s : State) : (State.selPublish s).nvm = s.nvm := by
  unfold State.selPublish
  dsimp only
  repeat' split
  all_goals simp only [State.raise_nvm, State.setDpll_nvm]
@[simp] theorem State.dpllTick_nvm (s : State) (t : TickIn) : (State.dpllTick s t).nvm = s.nvm := by
  unfold State.dpllTick
  dsimp only
  all_goals simp only [State.publishReg_nvm]
@[simp] theorem State.numStep_nvm (s : State) : (State.numStep s).nvm = s.nvm := by
  unfold State.numStep
  dsimp only
  all_goals simp only [State.setFld_nvm]
@[simp] theorem State.secondEnd_nvm (s : State) : (State.secondEnd s).nvm = s.nvm := by
  unfold State.secondEnd
  dsimp only
  repeat' split
  all_goals simp only
@[simp] theorem State.refoutShow_nvm (s : State) : (State.refoutShow s).nvm = s.nvm := by
  unfold State.refoutShow
  dsimp only
@[simp] theorem State.clkBoundary_nvm (s : State) (t : TickIn) : (State.clkBoundary s t).nvm = s.nvm := by
  unfold State.clkBoundary
  simp only [State.dpllTick_nvm, State.numStep_nvm, State.refoutShow_nvm, State.secondEnd_nvm, State.selPublish_nvm]
@[simp] theorem State.showFree_nvm (s : State) : (State.showFree s).nvm = s.nvm := by
  unfold State.showFree
  simp only [State.setFld_nvm]
@[simp] theorem State.clkPhase3_nvm (s : State) (t : TickIn) : (State.clkPhase3 s t).nvm = s.nvm := by
  unfold State.clkPhase3
  dsimp only
  all_goals simp only [State.refDecide_nvm, State.refJudge_nvm, State.refLatch_nvm, State.showFree_nvm, foldl_nvm, implies_true]
@[simp] theorem State.qual_nvm (s : State) (i : Nat) : (State.qual s i).nvm = s.nvm := by
  unfold State.qual
  dsimp only
  repeat' split
  all_goals simp only [State.raiseAt_nvm, State.refDecide_nvm, State.setRefIn_nvm]
@[simp] theorem State.lockedRow_nvm (s : State) : (State.lockedRow s).nvm = s.nvm := by
  unfold State.lockedRow
  dsimp only
  repeat' split
  all_goals simp only [State.raise_nvm, State.setDpll_nvm]
@[simp] theorem State.holdRecord_nvm (s : State) : (State.holdRecord s).nvm = s.nvm := by
  unfold State.holdRecord
  dsimp only
  repeat' split
  all_goals simp only [State.publishReg_nvm, State.publish_nvm]
@[simp] theorem State.setTime_nvm (s : State) (t : Int) : (State.setTime s t).nvm = s.nvm := by
  unfold State.setTime
  dsimp only
@[simp] theorem State.timeJump_nvm (s : State) (t : Int) : (State.timeJump s t).nvm = s.nvm := by
  unfold State.timeJump
  dsimp only
  all_goals simp only [State.modLn_nvm, State.setTime_nvm]
@[simp] theorem State.adjApply_nvm (s : State) : (State.adjApply s).nvm = s.nvm := by
  unfold State.adjApply
  dsimp only
  repeat' split
  all_goals simp only [State.setFld_nvm, State.timeJump_nvm]
@[simp] theorem State.ttStepNow_nvm (s : State) (l : Nat) : (State.ttStepNow s l).nvm = s.nvm := by
  unfold State.ttStepNow
  repeat' split
  all_goals simp only [State.timeJump_nvm]
@[simp] theorem State.timBoundary_nvm (s : State) : (State.timBoundary s).nvm = s.nvm := by
  unfold State.timBoundary
  dsimp only
  repeat' split
  all_goals simp only [State.adjApply_nvm, State.setTime_nvm, State.ttStepNow_nvm]
@[simp] theorem State.adjDone_nvm (s : State) : (State.adjDone s).nvm = s.nvm := by
  unfold State.adjDone
  dsimp only
  repeat' split
  all_goals simp only [State.raiseIf_nvm, State.raise_nvm]
@[simp] theorem State.adjArm_nvm (s : State) : (State.adjArm s).nvm = s.nvm := by
  unfold State.adjArm
  repeat' split
  all_goals simp only [State.raise_nvm, State.setFld_nvm]
@[simp] theorem State.cmp_nvm (s : State) (k : Nat) (cyc : Nat) : (State.cmp s k cyc).nvm = s.nvm := by
  unfold State.cmp
  dsimp only
  repeat' split
  all_goals simp only [State.raise_nvm, State.setFld_nvm]
@[simp] theorem State.todMsg_nvm (s : State) (m : List Byte) (cyc : Nat) : (State.todMsg s m cyc).nvm = s.nvm := by
  unfold State.todMsg
  dsimp only
  repeat' split
  all_goals simp only [State.setReg64_nvm]
@[simp] theorem State.ppsEdge_nvm (s : State) (widthNs cyc sub : Nat) : (State.ppsEdge s widthNs cyc sub).nvm = s.nvm := by
  unfold State.ppsEdge
  split
  · exact State.count_nvm _ _ _
  · extract_lets edge mark sec near usable at_ early src tim x load src2
    have hx' : x.nvm = s.nvm := State.setFld_nvm { s with tim := tim } _ _
    have hl : ∀ (y : State) (n : Nat), (load y n).nvm = y.nvm := fun y n => by
      unfold load
      clear_value near
      extract_lets u w
      have hw : u.nvm = y.nvm := (State.setFld_nvm _ _ _).trans (State.timeJump_nvm _ _)
      clear_value u
      exact (State.raise_nvm _ _).trans hw
    clear_value load src2 x usable
    repeat' split
    all_goals first | exact hx' | exact (hl _ _).trans hx' | exact (State.raise_nvm _ _).trans hx'
@[simp] theorem State.ppsPulse_nvm (s : State) (cyc : Nat) : (State.ppsPulse s cyc).nvm = s.nvm := by
  unfold State.ppsPulse
  dsimp only
  repeat' split
  all_goals simp only [State.emit_nvm]
@[simp] theorem State.todSend_nvm (s : State) : (State.todSend s).nvm = s.nvm := by
  unfold State.todSend
  dsimp only
  repeat' split
  all_goals simp only [State.emit_nvm]
@[simp] theorem State.ttSnap_nvm (s : State) (l : Nat) (fn : Nat) : (State.ttSnap s l fn).nvm = s.nvm := by
  unfold State.ttSnap
  dsimp only
  repeat' split
  all_goals simp only [State.modLn_nvm]
@[simp] theorem State.ttReceive_nvm (s : State) (l : Nat) (fn : Nat) (t : Nat) (b : List Byte) : (State.ttReceive s l fn t b).nvm = s.nvm := by
  unfold State.ttReceive
  dsimp only
  repeat' split
  all_goals simp only [State.modLn_nvm, State.publishReg_nvm]
@[simp] theorem State.ttTick_nvm (s : State) (l : Nat) : (State.ttTick s l).nvm = s.nvm := by
  unfold State.ttTick
  dsimp only
  repeat' split
  all_goals simp only [State.count_nvm, State.modLn_nvm, State.publishReg_nvm, State.publish_nvm, State.raiseAt_nvm, State.raiseIf_nvm, State.setTime_nvm]
@[simp] theorem State.ttLost_nvm (s : State) (l : Nat) : (State.ttLost s l).nvm = s.nvm := by
  unfold State.ttLost
  dsimp only
  repeat' split
  all_goals simp only [State.modLn_nvm, State.publish_nvm, State.raiseAt_nvm, State.setReg_nvm]
@[simp] theorem State.timPhase3_nvm (s : State) : (State.timPhase3 s).nvm = s.nvm := by
  unfold State.timPhase3
  dsimp only
  all_goals simp only [State.publish_nvm, State.ttTick_nvm]
@[simp] theorem State.setRp_nvm (s : State) (k : Nat) (x : RimePort) : (State.setRp s k x).nvm = s.nvm := by
  unfold State.setRp
  dsimp only
  repeat' split
  all_goals simp only
@[simp] theorem State.rimCount_nvm (s : State) (k : Nat) (c : Nat) (what : Nat) : (State.rimCount s k c what).nvm = s.nvm := by
  unfold State.rimCount
  simp only [State.count_nvm]
@[simp] theorem State.rimShow_nvm (s : State) (k : Nat) : (State.rimShow s k).nvm = s.nvm := by
  unfold State.rimShow
  simp only [State.setFld_nvm]
@[simp] theorem State.rimMask_nvm (s : State) (k : Nat) : (State.rimMask s k).nvm = s.nvm := by
  unfold State.rimMask
  dsimp only
  all_goals simp only [State.raiseIf_nvm, State.setFld_nvm]
@[simp] theorem State.rimTraceSent_nvm (s : State) (p : RimePkt) (sent : Bool) : (State.rimTraceSent s p sent).nvm = s.nvm := by
  unfold State.rimTraceSent
  dsimp only
  repeat' split
  all_goals simp only [State.setFld_nvm]
@[simp] theorem State.rimDrop_nvm (s : State) : (State.rimDrop s).nvm = s.nvm := by
  unfold State.rimDrop
  simp only [State.raise_nvm]
@[simp] theorem State.rimLost_nvm (s : State) (p : RimePkt) : (State.rimLost s p).nvm = s.nvm := by
  unfold State.rimLost
  simp only [State.rimDrop_nvm, State.rimTraceSent_nvm]
@[simp] theorem State.rimQueue_nvm (s : State) (k : Nat) (p : RimePkt) : (State.rimQueue s k p).nvm = s.nvm := by
  unfold State.rimQueue
  dsimp only
  repeat' split
  all_goals simp only [State.rimLost_nvm, State.rimShow_nvm, State.setRp_nvm]
@[simp] theorem State.rimDrawId_nvm (s : State) : (State.rimDrawId s).2.nvm = s.nvm := by
  unfold State.rimDrawId
  dsimp only
  all_goals simp only [State.draw]
@[simp] theorem State.rimTick_nvm (s : State) (k : Nat) : (State.rimTick s k).nvm = s.nvm := by
  unfold State.rimTick
  dsimp only
  repeat' split
  all_goals simp only [State.rimDrawId_nvm, State.rimShow_nvm, State.setRp_nvm]
@[simp] theorem State.rimAnnounce_nvm (s : State) : (State.rimAnnounce s).nvm = s.nvm := by
  unfold State.rimAnnounce
  dsimp only
  all_goals simp only [State.setRp_nvm]
@[simp] theorem State.rimIdentityDue_nvm (s : State) (k : Nat) : (State.rimIdentityDue s k).nvm = s.nvm := by
  unfold State.rimIdentityDue
  dsimp only
  repeat' split
  all_goals simp only [State.rimDrawId_nvm, State.rimQueue_nvm, State.setRp_nvm]
@[simp] theorem State.rimConfigDue_nvm (s : State) (k : Nat) : (State.rimConfigDue s k).nvm = s.nvm := by
  unfold State.rimConfigDue
  dsimp only
  repeat' split
  all_goals simp only [State.rimQueue_nvm, State.setRp_nvm]
@[simp] theorem State.rimAlarmDue_nvm (s : State) (k : Nat) : (State.rimAlarmDue s k).nvm = s.nvm := by
  unfold State.rimAlarmDue
  dsimp only
  repeat' split
  all_goals simp only [State.rimQueue_nvm, State.setRp_nvm]
@[simp] theorem State.rimSign_nvm (s : State) (k : Nat) (p : RimePkt) : (State.rimSign s k p).nvm = s.nvm := by
  unfold State.rimSign
  dsimp only
  all_goals simp only [State.setRp_nvm]
@[simp] theorem State.rimYield_nvm (s : State) (k : Nat) : (State.rimYield s k).nvm = s.nvm := by
  unfold State.rimYield
  dsimp only
  repeat' split
  all_goals simp only [State.setRp_nvm]
@[simp] theorem State.rimBegin_nvm (s : State) (k : Nat) : (State.rimBegin s k).nvm = s.nvm := by
  unfold State.rimBegin
  dsimp only
  repeat' split
  all_goals simp only [State.rimSign_nvm, State.setRp_nvm]
@[simp] theorem State.rimLeave_nvm (s : State) (k : Nat) : (State.rimLeave s k).nvm = s.nvm := by
  unfold State.rimLeave
  dsimp only
  all_goals simp only [State.rimShow_nvm, State.setRp_nvm]
@[simp] theorem State.rimSend_nvm (s : State) (k : Nat) (p : RimePkt) (mac : List Byte) : (State.rimSend s k p mac).nvm = s.nvm := by
  unfold State.rimSend
  dsimp only
  all_goals simp only [State.emit_nvm, State.rimTraceSent_nvm, State.setRp_nvm]
@[simp] theorem State.rimEnd_nvm (s : State) (k : Nat) : (State.rimEnd s k).nvm = s.nvm := by
  unfold State.rimEnd
  dsimp only
  all_goals simp only [State.count_nvm, State.rimLeave_nvm]
@[simp] theorem State.rimAttempt_nvm (s : State) (k : Nat) (power : Int) (noise : Int) (idleUs : Nat) : (State.rimAttempt s k power noise idleUs).nvm = s.nvm := by
  unfold State.rimAttempt
  dsimp only
  repeat' split
  all_goals simp only [State.rimBegin_nvm, State.rimCount_nvm, State.rimLeave_nvm, State.rimLost_nvm, State.rimSend_nvm, State.rimSign_nvm, State.rimYield_nvm, State.setRp_nvm, State.draw]
@[simp] theorem State.rimSent_nvm (s : State) (k : Nat) : (State.rimSent s k).nvm = s.nvm := by
  unfold State.rimSent
  dsimp only
  repeat' split
  all_goals simp only [State.rimEnd_nvm]
@[simp] theorem State.rimCut_nvm (s : State) (k : Nat) : (State.rimCut s k).nvm = s.nvm := by
  unfold State.rimCut
  dsimp only
  repeat' split
  all_goals simp only [State.raise_nvm, State.rimCount_nvm, State.rimEnd_nvm, State.rimQueue_nvm]
@[simp] theorem State.rimWaves_nvm (s : State) : (State.rimWaves s).nvm = s.nvm := by
  unfold State.rimWaves
  simp only [State.rimCut_nvm, State.rimMask_nvm]
@[simp] theorem State.rimExpire_nvm (s : State) (k : Nat) : (State.rimExpire s k).nvm = s.nvm := by
  unfold State.rimExpire
  dsimp only
  repeat' split
  all_goals simp only [State.rimLost_nvm, State.rimShow_nvm, State.setRp_nvm, foldl_nvm, implies_true]
@[simp] theorem State.rimSync_nvm (s : State) (k : Nat) (c : Nat) (bits : Nat) (level : Nat) (corr : List Nat) : (State.rimSync s k c bits level corr).nvm = s.nvm := by
  unfold State.rimSync
  dsimp only
  repeat' split
  all_goals simp only [State.rimCount_nvm, State.setRp_nvm]
@[simp] theorem State.rimHeader_nvm (s : State) (k : Nat) (c : Nat) (h : List Byte) : (State.rimHeader s k c h).nvm = s.nvm := by
  unfold State.rimHeader
  dsimp only
  repeat' split
  all_goals simp only [State.rimCount_nvm, State.setRp_nvm]
@[simp] theorem State.nbCount_nvm (s : State) : (State.nbCount s).nvm = s.nvm := by
  unfold State.nbCount
  simp only [State.setFld_nvm]
@[simp] theorem State.nbClear_nvm (s : State) (n : Nat) : (State.nbClear s n).nvm = s.nvm := by
  unfold State.nbClear
  dsimp only
  all_goals simp only [State.setReg_nvm, foldl_nvm, implies_true]
@[simp] theorem State.nbNew_nvm (s : State) (port : Nat) (src : Nat) (seq : Nat) : (State.nbNew s port src seq).2.nvm = s.nvm := by
  unfold State.nbNew
  dsimp only
  repeat' split
  all_goals simp only [State.nbClear_nvm, State.raise_nvm, State.setFld_nvm, State.setReg_nvm]
@[simp] theorem State.nbVersion_nvm (s : State) (n : Nat) (ver : Nat) (epoch : Nat) : (State.nbVersion s n ver epoch).nvm = s.nvm := by
  unfold State.nbVersion
  dsimp only
  all_goals simp only [State.raiseIf_nvm, State.setFld_nvm]
@[simp] theorem State.nbIdentity_nvm (s : State) (n : Nat) (m : RimeMsg) : (State.nbIdentity s n m).nvm = s.nvm := by
  unfold State.nbIdentity
  dsimp only
  repeat' split
  all_goals simp only [State.nbClear_nvm, State.nbVersion_nvm, State.raise_nvm, State.setFld_nvm, State.setReg_nvm]
@[simp] theorem State.nbConfig_nvm (s : State) (n : Nat) (m : RimeMsg) : (State.nbConfig s n m).nvm = s.nvm := by
  unfold State.nbConfig
  dsimp only
  all_goals simp only [State.nbVersion_nvm, State.setFldIf_nvm]
@[simp] theorem State.nbUpdate_nvm (s : State) (m : RimeMsg) : (State.nbUpdate s m).nvm = s.nvm := by
  unfold State.nbUpdate
  dsimp only
  repeat' split
  all_goals simp only [State.nbConfig_nvm, State.nbCount_nvm, State.nbIdentity_nvm, State.nbNew_nvm, State.setFld_nvm, State.setReg_nvm]
@[simp] theorem State.nbLost_nvm (s : State) : (State.nbLost s).nvm = s.nvm := by
  unfold State.nbLost
  dsimp only
  all_goals simp only [State.nbClear_nvm, State.nbCount_nvm, State.raise_nvm, foldl_nvm, implies_true]
@[simp] theorem State.nbStale_nvm (s : State) : (State.nbStale s).nvm = s.nvm := by
  unfold State.nbStale
  dsimp only
  repeat' split
  all_goals simp only [State.setFld_nvm, foldl_nvm, implies_true]
@[simp] theorem State.rimRing_nvm (s : State) (m : RimeMsg) : (State.rimRing s m).nvm = s.nvm := by
  unfold State.rimRing
  dsimp only
  repeat' split
  all_goals simp only [State.raise_nvm, State.setFld_nvm, State.stWrite_nvm]
@[simp] theorem State.rimTraced_nvm (s : State) (m : RimeMsg) : (State.rimTraced s m).nvm = s.nvm := by
  unfold State.rimTraced
  dsimp only
  repeat' split
  all_goals simp only [State.draw]
@[simp] theorem State.rimDeliver_nvm (s : State) (m : RimeMsg) : (State.rimDeliver s m).nvm = s.nvm := by
  unfold State.rimDeliver
  simp only [State.nbUpdate_nvm, State.rimRing_nvm, State.rimTraced_nvm]
@[simp] theorem State.rimTrailer_nvm (s : State) (k : Nat) (c : Nat) (body : List Byte) (evm : Nat) : (State.rimTrailer s k c body evm).nvm = s.nvm := by
  unfold State.rimTrailer
  dsimp only
  repeat' split
  all_goals simp only [State.raise_nvm, State.rimCount_nvm, State.rimDeliver_nvm, State.setRp_nvm]
@[simp] theorem State.rimGone_nvm (s : State) (k : Nat) : (State.rimGone s k).nvm = s.nvm := by
  unfold State.rimGone
  repeat' split
  all_goals simp only [State.rimLeave_nvm, State.rimTraceSent_nvm]
@[simp] theorem State.rimAuthDone_nvm (s : State) : (State.rimAuthDone s).nvm = s.nvm := by
  unfold State.rimAuthDone
  dsimp only
  repeat' split
  all_goals simp only [State.raise_nvm, State.rimCount_nvm, State.rimDeliver_nvm, State.rimGone_nvm, State.setRp_nvm]
@[simp] theorem State.rimAuthTimeout_nvm (s : State) : (State.rimAuthTimeout s).nvm = s.nvm := by
  unfold State.rimAuthTimeout
  extract_lets late queued running ids a
  refine (foldl_nvm _ _ _ (fun b x => ?_)).trans rfl
  repeat' split
  all_goals first | rfl | simp only [State.raise_nvm, State.rimGone_nvm]
@[simp] theorem State.rimTraceReq_nvm (s : State) : (State.rimTraceReq s).nvm = s.nvm := by
  unfold State.rimTraceReq
  dsimp only
  repeat' split
  all_goals simp only [State.rimDrop_nvm, State.rimQueue_nvm, State.setFld_nvm]
@[simp] theorem State.rimReplies_nvm (s : State) : (State.rimReplies s).nvm = s.nvm := by
  unfold State.rimReplies
  extract_lets due a
  refine (foldl_nvm _ _ _ (fun b x => foldl_nvm _ _ _ (fun c y => ?_))).trans rfl
  split
  · exact State.rimQueue_nvm _ _ _
  · rfl
@[simp] theorem State.rimTraceDone_nvm (s : State) : (State.rimTraceDone s).nvm = s.nvm := by
  unfold State.rimTraceDone
  dsimp only
  repeat' split
  all_goals simp only [State.raise_nvm, State.setFld_nvm]
@[simp] theorem State.rimRecord_nvm (s : State) (b : List Byte) (bad : Bool) : (State.rimRecord s b bad).nvm = s.nvm := by
  unfold State.rimRecord
  dsimp only
  repeat' split
  all_goals simp only [State.rimDrop_nvm, State.rimQueue_nvm]
@[simp] theorem State.setSub_nvm (s : State) (j : Nat) (x : SubLink) : (State.setSub s j x).nvm = s.nvm := by
  unfold State.setSub
  dsimp only
@[simp] theorem State.modSnd_nvm (s : State) (j : Nat) (f : SendSub → SendSub) : (State.modSnd s j f).nvm = s.nvm := by
  unfold State.modSnd
  dsimp only
@[simp] theorem State.subCount_nvm (s : State) (j : Nat) (n : Nat) : (State.subCount s j n).nvm = s.nvm := by
  unfold State.subCount
  simp only [State.count_nvm]
@[simp] theorem State.d2dPool_nvm (s : State) : (State.d2dPool s).nvm = s.nvm := by
  unfold State.d2dPool
  dsimp only
  repeat' split
  all_goals simp only [State.publish_nvm, State.raise_nvm]
@[simp] theorem State.logLane_nvm (s : State) (k : Nat) (st : Nat) : (State.logLane s k st).nvm = s.nvm := by
  unfold State.logLane
  simp only [State.logRepair_nvm]
@[simp] theorem State.laneErr_nvm (s : State) (k : Nat) : (State.laneErr s k).nvm = s.nvm := by
  unfold State.laneErr
  dsimp only
  all_goals simp only [State.count_nvm]
@[simp] theorem State.attribute_nvm (s : State) (j : Nat) (lanes : List Nat) (a : List Byte) (b : List Byte) : (State.attribute s j lanes a b).nvm = s.nvm := by
  unfold State.attribute
  dsimp only
  all_goals simp only [State.laneErr_nvm, foldl_nvm, implies_true]
@[simp] theorem State.sendCtl_nvm (s : State) (d : Nat) (g : Nat) (c : Ctl) : (State.sendCtl s d g c).nvm = s.nvm := by
  unfold State.sendCtl
  simp only [State.modSnd_nvm]
@[simp] theorem State.ctlMove_nvm (s : State) (j : Nat) : (State.ctlMove s j).nvm = s.nvm := by
  unfold State.ctlMove
  dsimp only
  repeat' split
  all_goals simp only [State.modSnd_nvm]
@[simp] theorem State.ctlMoves_nvm (s : State) : (State.ctlMoves s).nvm = s.nvm := by
  unfold State.ctlMoves
  simp only [State.ctlMove_nvm, foldl_nvm, implies_true]
@[simp] theorem State.fillSlot_nvm (s : State) (j : Nat) (bad : Bool) : (State.fillSlot s j bad).nvm = s.nvm := by
  unfold State.fillSlot
  dsimp only
  repeat' split
  all_goals simp only [State.count_nvm, State.emit_nvm, State.modSnd_nvm]
@[simp] theorem State.queueFlits_nvm (s : State) (g : Nat) (fs : List (Nat × List Byte)) : (State.queueFlits s g fs).nvm = s.nvm := by
  unfold State.queueFlits
  dsimp only
  all_goals simp only [State.modSnd_nvm, foldl_nvm, implies_true]
@[simp] theorem State.queueDac_nvm (s : State) (l : Nat) (rs : Nat) (d : Nat) (codes : List Int) : (State.queueDac s l rs d codes).nvm = s.nvm := by
  unfold State.queueDac
  dsimp only
  all_goals simp only [State.queueFlits_nvm]
@[simp] theorem State.replaceLane_nvm (s : State) (k : Nat) : (State.replaceLane s k).nvm = s.nvm := by
  unfold State.replaceLane
  dsimp only
  repeat' split
  all_goals simp only [State.publish_nvm, State.raiseAt_nvm, State.setSub_nvm]
@[simp] theorem State.tellLanes_nvm (s : State) : (State.tellLanes s).nvm = s.nvm := by
  unfold State.tellLanes
  dsimp only
  all_goals simp only [State.sendCtl_nvm, foldl_nvm, implies_true]
@[simp] theorem State.replaceLanes_nvm (s : State) : (State.replaceLanes s).nvm = s.nvm := by
  unfold State.replaceLanes
  dsimp only
  repeat' split
  all_goals simp only [State.d2dPool_nvm, State.replaceLane_nvm, foldl_nvm, implies_true]
@[simp] theorem State.lanesDue_nvm (s : State) (ks : List Nat) : (State.lanesDue s ks).nvm = s.nvm := by
  unfold State.lanesDue
  dsimp only
@[simp] theorem State.failLanes_nvm (s : State) (ks : List Nat) : (State.failLanes s ks).nvm = s.nvm := by
  unfold State.failLanes
  dsimp only
  all_goals simp only [State.lanesDue_nvm, State.logLane_nvm, State.publish_nvm, State.raiseAt_nvm, foldl_nvm, implies_true]
@[simp] theorem State.laneHard_nvm (s : State) (k : Nat) : (State.laneHard s k).nvm = s.nvm := by
  unfold State.laneHard
  repeat' split
  all_goals simp only [State.failLanes_nvm]
@[simp] theorem State.suspect_nvm (s : State) (k : Nat) : (State.suspect s k).nvm = s.nvm := by
  unfold State.suspect
  dsimp only
  repeat' split
  all_goals simp only [State.logLane_nvm, State.publish_nvm, State.raiseAt_nvm]
@[simp] theorem State.errWindow_nvm (s : State) : (State.errWindow s).nvm = s.nvm := by
  unfold State.errWindow
  dsimp only
  repeat' split
  all_goals simp only [State.lanesDue_nvm, State.publish_nvm, State.suspect_nvm, foldl_nvm, implies_true]
@[simp] theorem State.resend_nvm (s : State) (j : Nat) (seq : Nat) : (State.resend s j seq).nvm = s.nvm := by
  unfold State.resend
  dsimp only
  repeat' split
  all_goals simp only [State.modSnd_nvm]
@[simp] theorem State.flitTake_nvm (s : State) (j : Nat) (w : List Nat) (seq : Nat) : (State.flitTake s j w seq).nvm = s.nvm := by
  unfold State.flitTake
  dsimp only
  repeat' split
  all_goals simp only [State.attribute_nvm, State.modSnd_nvm, State.resend_nvm, State.setSub_nvm, State.subCount_nvm]
@[simp] theorem State.sendReady_nvm (s : State) (p : Nat) (x : SendIn) : (State.sendReady s p x).nvm = s.nvm := by
  unfold State.sendReady
  dsimp only
  repeat' split
  all_goals simp only [State.modSnd_nvm, State.queueFlits_nvm]
@[simp] theorem State.flitIn_nvm (s : State) (j : Nat) (w : List Nat) (seq : Nat) (x : SendIn) : (State.flitIn s j w seq x).nvm = s.nvm := by
  unfold State.flitIn
  simp only [State.fillSlot_nvm, State.flitTake_nvm, State.sendReady_nvm]
@[simp] theorem State.ctlLate_nvm (s : State) (t : Nat) : (State.ctlLate s t).nvm = s.nvm := by
  unfold State.ctlLate
  repeat' split
  all_goals simp only [State.modLn_nvm, State.raiseDp_nvm]
@[simp] theorem State.diag_nvm (s : State) (j : Nat) : (State.diag s j).nvm = s.nvm := by
  unfold State.diag
  dsimp only
  repeat' split
  all_goals simp only [State.publish_nvm, State.raiseAt_nvm, State.setSub_nvm]
@[simp] theorem State.diagDone_nvm (s : State) (j : Nat) (bad : List Nat) : (State.diagDone s j bad).nvm = s.nvm := by
  unfold State.diagDone
  dsimp only
  repeat' split
  all_goals simp only [State.failLanes_nvm, State.publish_nvm, State.setSub_nvm]
@[simp] theorem State.latFault_nvm (s : State) (g : Nat) : (State.latFault s g).nvm = s.nvm := by
  unfold State.latFault
  dsimp only
  repeat' split
  all_goals simp only [State.raiseAt_nvm, State.draw]
@[simp] theorem State.trainGroup_nvm (s : State) (base : Nat) (bad : List Nat) (stale : Bool) : (State.trainGroup s base bad stale).1.nvm = s.nvm := by
  unfold State.trainGroup
  extract_lets ks failed sus s1 good act s2 s3 s4 d s5 s6
  simp only [s6, s5, s4, s3, s2, s1, d, foldl_nvm, State.publish_nvm, State.raiseAt_nvm, State.logLane_nvm, State.setSub_nvm, State.modSnd_nvm, implies_true]
@[simp] theorem State.subDown_nvm (s : State) : (State.subDown s).nvm = s.nvm := by
  unfold State.subDown
  simp only [State.publish_nvm]
@[simp] theorem State.linkPreset_nvm (s : State) (d : Nat) : (State.linkPreset s d).nvm = s.nvm := by
  unfold State.linkPreset
  dsimp only
@[simp] theorem State.presetBoundary_nvm (s : State) (d : Nat) : (State.presetBoundary s d).nvm = s.nvm := by
  unfold State.presetBoundary
  repeat' split
  all_goals simp only [State.linkPreset_nvm]
@[simp] theorem State.linkStop_nvm (s : State) (d : Nat) : (State.linkStop s d).nvm = s.nvm := by
  unfold State.linkStop
  extract_lets a src b
  have ha : a.nvm = s.nvm := State.setFld_nvm s _ _
  clear_value src a
  have hb : b.nvm = s.nvm := ha
  clear_value b
  refine (State.d2dPool_nvm _).trans ((foldl_nvm _ _ _ (fun c x => ?_)).trans hb)
  exact (State.setFld_nvm _ _ _).trans (State.setFld_nvm _ _ _)
@[simp] theorem State.trainNote_nvm (s : State) (t : Nat) (r : Nat) : (State.trainNote s t r).nvm = s.nvm := by
  unfold State.trainNote
  dsimp only
  repeat' split
  all_goals simp only [State.linkPreset_nvm, State.modLn_nvm]
@[simp] theorem State.trainUp_nvm (s : State) (d f : Nat) : (State.trainUp s d f).nvm = s.nvm := by
  unfold State.trainUp
  extract_lets a
  rw [State.subDown_nvm, foldl_nvm _ _ _ (fun b x => (State.setFld_nvm _ _ _).trans (State.setFld_nvm _ _ _))]
  exact (State.setFld_nvm _ _ _).trans (State.setFld_nvm _ _ _)
@[simp] theorem State.trainNext_nvm (t r : Nat) (bad : List (List Nat)) (stale : Bool) (a : State × Bool) (g : Nat) :
    (State.trainNext t r bad stale a g).1.nvm = a.1.nvm := State.trainGroup_nvm _ _ _ _
@[simp] theorem State.trainDir_nvm (s : State) (t : Nat) (r : Nat) (bad : List (List Nat)) (f : Nat) : (State.trainDir s t r bad f).1.nvm = s.nvm := by
  unfold State.trainDir
  extract_lets d res s1
  have h1 : s1.nvm = s.nvm := (State.trainNote_nvm _ _ _).trans ((foldl_fst_nvm _ _ _ (fun a g => State.trainNext_nvm _ _ _ _ a g)).trans (State.linkStop_nvm _ _))
  clear_value s1
  split
  · exact (State.d2dPool_nvm _).trans ((State.trainUp_nvm _ _ _).trans h1)
  · exact (State.queueRec_nvm _ _ _ _ _).trans ((State.raiseOwn_nvm _ _).trans ((State.d2dPool_nvm _).trans h1))
@[simp] theorem State.modCnv_nvm (s : State) (l : Nat) (f : CnvSt → CnvSt) : (State.modCnv s l f).nvm = s.nvm := by
  unfold State.modCnv
  simp only [State.modLn_nvm]
@[simp] theorem State.cnvCount_nvm (s : State) (l : Nat) (n : Nat) : (State.cnvCount s l n).nvm = s.nvm := by
  unfold State.cnvCount
  simp only [State.count_nvm]
@[simp] theorem State.cnvDirty_nvm (s : State) (l : Nat) : (State.cnvDirty s l).nvm = s.nvm := by
  unfold State.cnvDirty
  simp only [State.modCnv_nvm]
@[simp] theorem State.setRole_nvm (s : State) (l : Nat) (i : Nat) (r : Nat) (slot : Nat) : (State.setRole s l i r slot).nvm = s.nvm := by
  unfold State.setRole
  repeat' split
  all_goals simp only [State.cnvDirty_nvm, State.publish_nvm]
@[simp] theorem State.setTap_nvm (s : State) (l : Nat) (br : Nat) (v : Nat) : (State.setTap s l br v).nvm = s.nvm := by
  unfold State.setTap
  repeat' split
  all_goals simp only [State.cnvDirty_nvm, State.publish_nvm]
@[simp] theorem State.showUnit_nvm (s : State) (l : Nat) (i : Nat) (v : UnitVal) : (State.showUnit s l i v).nvm = s.nvm := by
  unfold State.showUnit
  simp only [State.publish_nvm]
@[simp] theorem State.setUnit_nvm (s : State) (l : Nat) (i : Nat) (v : UnitVal) : (State.setUnit s l i v).nvm = s.nvm := by
  unfold State.setUnit
  simp only [State.cnvDirty_nvm, State.modCnv_nvm, State.showUnit_nvm]
@[simp] theorem State.cnvInterp_nvm (s : State) (l : Nat) : (State.cnvInterp s l).nvm = s.nvm := by
  unfold State.cnvInterp
  dsimp only
  repeat' split
  all_goals simp only [State.modCnv_nvm, State.setTap_nvm, State.setUnit_nvm, foldl_nvm, implies_true, apply_ite State.nvm, ite_self]
@[simp] theorem State.cnvPool_nvm (s : State) (l : Nat) : (State.cnvPool s l).nvm = s.nvm := by
  unfold State.cnvPool
  dsimp only
  repeat' split
  all_goals simp only [State.publish_nvm, State.raise_nvm, foldl_nvm, implies_true]
@[simp] theorem State.cnvStale_nvm (s : State) (l : Nat) : (State.cnvStale s l).nvm = s.nvm := by
  unfold State.cnvStale
  dsimp only
  all_goals simp only [State.modCnv_nvm, State.publish_nvm, foldl_nvm, implies_true, apply_ite State.nvm, ite_self]
@[simp] theorem State.showSets_nvm (s : State) (l : Nat) : (State.showSets s l).nvm = s.nvm := by
  unfold State.showSets
  extract_lets c s1
  rw [State.setFld_nvm]
  refine foldl_nvm _ _ _ (fun b x => ?_)
  extract_lets nvm
  split <;> exact State.setReg_nvm _ _ _
@[simp] theorem State.assignBranch_nvm (s : State) (l : Nat) (br : Nat) : (State.assignBranch s l br).nvm = s.nvm := by
  unfold State.assignBranch
  dsimp only
  repeat' split
  all_goals simp only [State.setRole_nvm, foldl_nvm, implies_true, apply_ite State.nvm, ite_self]
@[simp] theorem State.assignRoles_nvm (s : State) (l : Nat) : (State.assignRoles s l).nvm = s.nvm := by
  unfold State.assignRoles
  dsimp only
  all_goals simp only [State.assignBranch_nvm, State.modCnv_nvm, foldl_nvm, implies_true]
@[simp] theorem State.fixRover_nvm (s : State) (l : Nat) (br : Nat) : (State.fixRover s l br).nvm = s.nvm := by
  unfold State.fixRover
  repeat' split
  all_goals simp only [State.setRole_nvm]
@[simp] theorem State.unitFailed_nvm (s : State) (l : Nat) (i : Nat) : (State.unitFailed s l i).nvm = s.nvm := by
  unfold State.unitFailed
  dsimp only
  all_goals simp only [State.cnvCount_nvm, State.cnvDirty_nvm, State.logRepair_nvm, State.publish_nvm, State.raiseAt_nvm]
@[simp] theorem State.spareTakes_nvm (s : State) (l : Nat) (i : Nat) (slot : Nat) : (State.spareTakes s l i slot).nvm = s.nvm := by
  unfold State.spareTakes
  dsimp only
  repeat' split
  all_goals simp only [State.fixRover_nvm, State.modCnv_nvm, State.raiseAt_nvm, State.setRole_nvm]
@[simp] theorem State.openSlot_nvm (s : State) (l : Nat) (br : Nat) (slot : Nat) : (State.openSlot s l br slot).nvm = s.nvm := by
  unfold State.openSlot
  simp only [State.cnvDirty_nvm, State.modCnv_nvm, State.raiseAt_nvm]
@[simp] theorem State.prioStart_nvm (s : State) (l : Nat) (br : Nat) (slot : Nat) : (State.prioStart s l br slot).nvm = s.nvm := by
  unfold State.prioStart
  dsimp only
  repeat' split
  all_goals simp only [State.modCnv_nvm]
@[simp] theorem State.maskSlot_nvm (s : State) (l : Nat) (br : Nat) (slot : Nat) (planned : Bool) : (State.maskSlot s l br slot planned).nvm = s.nvm := by
  unfold State.maskSlot
  repeat' split
  all_goals simp only [State.openSlot_nvm, State.prioStart_nvm, State.spareTakes_nvm]
@[simp] theorem State.remask_nvm (l : Nat) (s : State) (br : Nat) : (State.remask l s br).nvm = s.nvm := by
  unfold State.remask
  split
  · rfl
  · refine foldl_nvm _ _ _ (fun a k => ?_)
    repeat' split
    all_goals first | rfl | exact State.spareTakes_nvm _ _ _ _ | exact State.prioStart_nvm _ _ _ _
@[simp] theorem State.failUnit_nvm (s : State) (l : Nat) (i : Nat) : (State.failUnit s l i).nvm = s.nvm := by
  unfold State.failUnit
  dsimp only
  repeat' split
  all_goals simp only [State.fixRover_nvm, State.maskSlot_nvm, State.unitFailed_nvm]
@[simp] theorem State.judgeWin_nvm (l : Nat) (s : State) (i : Nat) : (State.judgeWin l s i).nvm = s.nvm := by
  unfold State.judgeWin
  dsimp only
  repeat' split
  all_goals simp only [State.failUnit_nvm, State.modCnv_nvm]
@[simp] theorem State.moveTap_nvm (l : Nat) (rho : Nat → Int) (s : State) (br : Nat) : (State.moveTap l rho s br).nvm = s.nvm := by
  unfold State.moveTap
  repeat' split
  all_goals simp only [State.setTap_nvm]
@[simp] theorem State.skewWindow_nvm (s : State) (l : Nat) : (State.skewWindow s l).nvm = s.nvm := by
  unfold State.skewWindow
  dsimp only
  repeat' split
  all_goals simp only [State.cnvPool_nvm, State.cnvStale_nvm, State.judgeWin_nvm, State.modCnv_nvm, State.moveTap_nvm, foldl_nvm, implies_true]
@[simp] theorem State.passStart_nvm (s : State) (l : Nat) : (State.passStart s l).nvm = s.nvm := by
  unfold State.passStart
  dsimp only
  repeat' split
  all_goals simp only [State.modCnv_nvm, State.setFld_nvm]
@[simp] theorem State.storeSet_nvm (s : State) (l : Nat) (t : Int) (tap : Nat → Nat) : (State.storeSet s l t tap).nvm = s.nvm := by
  unfold State.storeSet
  dsimp only
  all_goals simp only [State.modCnv_nvm, State.setFld_nvm, State.showSets_nvm]
@[simp] theorem State.passDone_nvm (s : State) (l : Nat) : (State.passDone s l).nvm = s.nvm := by
  unfold State.passDone
  dsimp only
  repeat' split
  all_goals simp only [State.modCnv_nvm, State.publish_nvm, State.raise_nvm, State.setFld_nvm, State.storeSet_nvm]
@[simp] theorem State.branchStep_nvm (s : State) (l : Nat) (st : Nat) (br : Nat) : (State.branchStep s l st br).nvm = s.nvm := by
  unfold State.branchStep
  dsimp only
  repeat' split
  all_goals simp only [State.cnvCount_nvm, State.fixRover_nvm, State.modCnv_nvm, State.setRole_nvm, State.setUnit_nvm, State.spareTakes_nvm, State.unitFailed_nvm]
@[simp] theorem State.openSlots_nvm (s : State) (l : Nat) (br : Nat) : (State.openSlots s l br).nvm = s.nvm := by
  unfold State.openSlots
  refine foldl_nvm _ _ _ (fun a x => ?_)
  split
  · rfl
  · exact State.maskSlot_nvm _ _ _ _ _
@[simp] theorem State.prioEnd_nvm (l : Nat) (s : State) (p : PrioStep) : (State.prioEnd l s p).nvm = s.nvm := by
  unfold State.prioEnd
  dsimp only
  repeat' split
  all_goals simp only [State.failUnit_nvm, State.modCnv_nvm, State.setUnit_nvm, State.spareTakes_nvm]
@[simp] theorem State.stepNext_nvm (s : State) (l : Nat) (st : Nat) : (State.stepNext s l st).nvm = s.nvm := by
  unfold State.stepNext
  dsimp only
  all_goals simp only [State.modCnv_nvm, State.setFld_nvm]
@[simp] theorem State.passStep_nvm (s : State) (l : Nat) : (State.passStep s l).nvm = s.nvm := by
  rw [State.passStep.eq_1]
  split
  all_goals simp only [State.branchStep_nvm, State.openSlots_nvm, State.cnvCount_nvm, State.passDone_nvm, State.stepNext_nvm, foldl_nvm, implies_true]
@[simp] theorem State.stepEnd_nvm (s : State) (l : Nat) : (State.stepEnd s l).nvm = s.nvm := by
  unfold State.stepEnd
  dsimp only
  repeat' split
  all_goals simp only [State.cnvPool_nvm, State.cnvStale_nvm, State.modCnv_nvm, State.passStep_nvm, State.prioEnd_nvm, State.remask_nvm, foldl_nvm, implies_true]
@[simp] theorem State.cellFail_nvm (s : State) (l : Nat) (d : Nat) (i : Nat) : (State.cellFail s l d i).nvm = s.nvm := by
  unfold State.cellFail
  dsimp only
  repeat' split
  all_goals simp only [State.logRepair_nvm, State.modCnv_nvm, State.raiseAt_nvm, State.raiseIf_nvm]
@[simp] theorem State.cellTake_nvm (s : State) (l : Nat) (d : Nat) (i : Nat) (dev : Int) : (State.cellTake s l d i dev).nvm = s.nvm := by
  unfold State.cellTake
  dsimp only
  repeat' split
  all_goals simp only [State.cellFail_nvm, State.modCnv_nvm]
@[simp] theorem State.obsUsed_nvm (s : State) (l : Nat) (d : Nat) : (State.obsUsed s l d).nvm = s.nvm := by
  unfold State.obsUsed
  dsimp only
@[simp] theorem State.cellMeasured_nvm (s : State) (l : Nat) (d : Nat) (dev : Int) : (State.cellMeasured s l d dev).nvm = s.nvm := by
  unfold State.cellMeasured
  dsimp only
  repeat' split
  all_goals simp only [State.cellTake_nvm, State.cnvDirty_nvm, State.cnvPool_nvm, State.modCnv_nvm, State.obsUsed_nvm]
@[simp] theorem State.cnvBoundary_nvm (s : State) (l : Nat) : (State.cnvBoundary s l).nvm = s.nvm := by
  unfold State.cnvBoundary
  dsimp only
  repeat' split
  all_goals simp only [State.modCnv_nvm, State.sendCtl_nvm, foldl_nvm, implies_true]
@[simp] theorem State.showMaps_nvm (s : State) (l : Nat) (x : TileCfg) (y : TileCfg) : (State.showMaps s l x y).nvm = s.nvm := by
  unfold State.showMaps
  dsimp only
  all_goals simp only [State.emit_nvm, foldl_nvm, implies_true, apply_ite State.nvm, ite_self]
@[simp] theorem State.tileAdopt_nvm (s : State) (l : Nat) (all : Bool) : (State.tileAdopt s l all).nvm = s.nvm := by
  unfold State.tileAdopt
  dsimp only
  repeat' split
  all_goals simp only [State.modCnv_nvm, State.modLn_nvm, State.showMaps_nvm]
@[simp] theorem State.showCells_nvm (s : State) (l : Nat) : (State.showCells s l).nvm = s.nvm := by
  unfold State.showCells
  dsimp only
  all_goals simp only [State.publish_nvm, foldl_nvm, implies_true, apply_ite State.nvm, ite_self]
@[simp] theorem State.cnvTick_nvm (s : State) (l : Nat) : (State.cnvTick s l).nvm = s.nvm := by
  unfold State.cnvTick
  dsimp only
  repeat' split
  all_goals simp only [State.cnvInterp_nvm, State.cnvStale_nvm, State.modCnv_nvm, State.publish_nvm, State.showCells_nvm]
@[simp] theorem State.setsRead_nvm (s : State) (l : Nat) (r : Rd) : (State.setsRead s l r).nvm = s.nvm := by
  unfold State.setsRead
  dsimp only
  repeat' split
  all_goals simp only [State.modCnv_nvm, State.raiseIf_nvm, State.rdTimeout_nvm, State.setFld_nvm, State.showSets_nvm, foldl_nvm, implies_true, apply_ite State.nvm, ite_self]
@[simp] theorem State.setLost_nvm (s : State) (l : Nat) (k : Nat) : (State.setLost s l k).nvm = s.nvm := by
  unfold State.setLost
  dsimp only
  repeat' split
  all_goals simp only [State.modCnv_nvm, State.showSets_nvm]
@[simp] theorem State.setAgain_nvm (l : Nat) (s : State) (k : Nat) : (State.setAgain l s k).nvm = s.nvm := by
  unfold State.setAgain
  dsimp only
  repeat' split
  all_goals simp only [State.modCnv_nvm, State.setFld_nvm]
@[simp] theorem State.setReload_nvm (s : State) (l : Nat) : (State.setReload s l).nvm = s.nvm := by
  unfold State.setReload
  repeat' split
  all_goals simp only [State.modCnv_nvm, State.setAgain_nvm, State.showSets_nvm, foldl_nvm, implies_true]
@[simp] theorem State.setEnd_nvm (s : State) (l : Nat) (k : Nat) (ok : Bool) (rest : List Nat) (q : Nat) : (State.setEnd s l k ok rest q).nvm = s.nvm := by
  unfold State.setEnd
  repeat' split
  all_goals simp only [State.modCnv_nvm, State.queueRec_nvm, State.raiseOwn_nvm, State.setFld_nvm]
@[simp] theorem State.holdLine_nvm (s : State) (l : Nat) (cause : Nat) (mute : Nat) : (State.holdLine s l cause mute).nvm = s.nvm := by
  unfold State.holdLine
  dsimp only
  all_goals simp only [State.modLn_nvm, State.queueRec_nvm, State.setFld_nvm]
@[simp] theorem State.fgCell_nvm (l : Nat) (s : State) (p : Nat × Int) : (State.fgCell l s p).nvm = s.nvm := by
  unfold State.fgCell
  repeat' split
  all_goals simp only [State.cellTake_nvm]
@[simp] theorem State.fgUnit_nvm (l : Nat) (s : State) (p : Nat × Option UnitVal) : (State.fgUnit l s p).nvm = s.nvm := by
  unfold State.fgUnit
  repeat' split
  all_goals simp only [State.setUnit_nvm, State.unitFailed_nvm]
@[simp] theorem State.fgSkew_nvm (s : State) (l : Nat) (rhos : List (List Int)) : (State.fgSkew s l rhos).nvm = s.nvm := by
  unfold State.fgSkew
  simp only [State.setTap_nvm, foldl_nvm, implies_true]
@[simp] theorem State.fgEnd_nvm (s : State) (l : Nat) : (State.fgEnd s l).nvm = s.nvm := by
  unfold State.fgEnd
  dsimp only
  all_goals simp only [State.assignRoles_nvm, State.cnvPool_nvm, State.cnvStale_nvm, State.modCnv_nvm, State.modLn_nvm, State.setFld_nvm, State.storeSet_nvm]
@[simp] theorem State.fgStart_nvm (s : State) (l : Nat) (n : Nat) : (State.fgStart s l n).nvm = s.nvm := by
  unfold State.fgStart
  dsimp only
  repeat' split
  all_goals simp only [State.emit_nvm, State.modCnv_nvm, foldl_nvm, implies_true]
@[simp] theorem State.foreground_nvm (s : State) (l : Nat) (x : FgIn) : (State.foreground s l x).1.nvm = s.nvm := by
  unfold State.foreground
  dsimp only
  repeat' split
  all_goals simp only [State.cnvPool_nvm, State.fgCell_nvm, State.fgEnd_nvm, State.fgSkew_nvm, State.fgStart_nvm, State.fgUnit_nvm, State.holdLine_nvm, State.modCnv_nvm, State.raiseOwn_nvm, foldl_nvm, implies_true]
@[simp] theorem State.cnvStop_nvm (s : State) (l : Nat) : (State.cnvStop s l).nvm = s.nvm := by
  unfold State.cnvStop
  dsimp only
  all_goals simp only [State.modCnv_nvm, State.setFld_nvm]
@[simp] theorem State.tileReturn_nvm (s : State) (l : Nat) : (State.tileReturn s l).nvm = s.nvm := by
  unfold State.tileReturn
  dsimp only
  repeat' split
  all_goals simp only [State.assignRoles_nvm, State.cnvInterp_nvm, State.cnvStale_nvm, State.modCnv_nvm, State.modLn_nvm, foldl_nvm, implies_true]
@[simp] theorem State.setCtx_nvm (s : State) (n : Nat) (x : ChTx) : (State.setCtx s n x).nvm = s.nvm := by
  unfold State.setCtx
  dsimp only
@[simp] theorem State.setCrx_nvm (s : State) (n : Nat) (x : ChRx) : (State.setCrx s n x).nvm = s.nvm := by
  unfold State.setCrx
  dsimp only
@[simp] theorem State.chCount_nvm (s : State) (n : Nat) (o : Nat) (k : Nat) : (State.chCount s n o k).nvm = s.nvm := by
  unfold State.chCount
  simp only [State.count_nvm]
@[simp] theorem State.buildBlock_nvm (s : State) (n : Nat) (twin : Bool) : (State.buildBlock s n twin).2.nvm = s.nvm := by
  unfold State.buildBlock
  dsimp only
  all_goals simp only [State.setCtx_nvm, State.winAdd_nvm]
@[simp] theorem State.txDrop_nvm (s : State) (n : Nat) (k : Nat) : (State.txDrop s n k).nvm = s.nvm := by
  unfold State.txDrop
  repeat' split
  all_goals simp only [State.chCount_nvm, State.raiseDp_nvm]
@[simp] theorem State.dropMark_nvm (l : Nat) (s : State) (c : Nat × BlockMark) : (State.dropMark l s c).nvm = s.nvm := by
  unfold State.dropMark
  dsimp only
  all_goals simp only [State.setCtx_nvm, State.txDrop_nvm]
@[simp] theorem State.passMark_nvm (l : Nat) (s : State) (c : Nat × BlockMark) : (State.passMark l s c).nvm = s.nvm := by
  unfold State.passMark
  dsimp only
  repeat' split
  all_goals simp only [State.setCtx_nvm]
@[simp] theorem State.twinShed_nvm (s : State) (n l k fuel : Nat) : (s.twinShed n l k fuel).nvm = s.nvm := by
  induction fuel generalizing s with
  | zero => rfl
  | succ fuel ih =>
    unfold State.twinShed
    dsimp only
    repeat' split
    all_goals first | rfl | exact (ih _).trans ((State.txDrop_nvm _ _ _).trans (State.setCtx_nvm _ _ _))
@[simp] theorem State.queueTwin_nvm (s : State) (n : Nat) (l : Nat) (b : List Byte) : (State.queueTwin s n l b).nvm = s.nvm := by
  unfold State.queueTwin
  extract_lets a
  exact (State.setCtx_nvm _ _ _).trans (State.twinShed_nvm _ _ _ _ _)
@[simp] theorem State.twinBlock_nvm (s : State) (n : Nat) (l : Nat) : (State.twinBlock s n l).2.nvm = s.nvm := by
  unfold State.twinBlock
  dsimp only
  repeat' split
  all_goals simp only [State.buildBlock_nvm, State.queueTwin_nvm, State.setCtx_nvm]
@[simp] theorem State.slotBlock_nvm (s : State) (l : Nat) (w : Word) : (State.slotBlock s l w).2.nvm = s.nvm := by
  unfold State.slotBlock
  extract_lets n label twin r
  split
  · rfl
  · split
    · rfl
    · split
      · have h := State.twinBlock_nvm s n l
        split
        · next e => rw [e] at h; exact (State.chCount_nvm _ _ _ _).trans h
        · next e => rw [e] at h; exact h
      · split
        · exact (State.chCount_nvm _ _ _ _).trans (State.buildBlock_nvm _ _ _)
        · rfl
@[simp] theorem State.frameBlocks_nvm (s : State) (l : Nat) (f : Nat) (sl : Nat) (bad : List Nat) : (State.frameBlocks s l f sl bad).2.nvm = s.nvm := by
  unfold State.frameBlocks
  dsimp only
  all_goals simp only [State.slotBlock_nvm, foldl_snd_nvm, implies_true]
@[simp] theorem State.txStop_nvm (s : State) (n : Nat) : (State.txStop s n).nvm = s.nvm := by
  unfold State.txStop
  dsimp only
  repeat' split
  all_goals simp only [State.setCtx_nvm, State.txDrop_nvm]
@[simp] theorem State.accept_nvm (s : State) (n : Nat) (b : List Byte) : (State.accept s n b).nvm = s.nvm := by
  unfold State.accept
  split
  · exact State.txDrop_nvm _ _ _
  · extract_lets a x
    exact (State.winAdd_nvm _ _ _ _).trans ((State.chCount_nvm _ _ _ _).trans ((State.setCtx_nvm _ _ _).trans
      ((State.twinShed_nvm _ _ _ _ _).trans (State.twinShed_nvm _ _ _ _ _))))
@[simp] theorem State.tcIngress_nvm (s : State) (n : Nat) (x : IngIn) : (State.tcIngress s n x).2.nvm = s.nvm := by
  unfold State.tcIngress
  repeat' split
  all_goals simp only [State.count_nvm]
@[simp] theorem State.ingress_nvm (s : State) (x : IngIn) : (State.ingress s x).nvm = s.nvm := by
  unfold State.ingress
  dsimp only
  repeat' split
  all_goals simp only [State.accept_nvm, State.count_nvm, State.tcIngress_nvm, State.winAdd_nvm]
@[simp] theorem State.setEgrQ_nvm (s : State) (e : Nat) (q : List (Nat × List Byte)) : (State.setEgrQ s e q).nvm = s.nvm := by
  unfold State.setEgrQ
  dsimp only
@[simp] theorem State.egrJoin_nvm (s : State) (e : Nat) (n : Nat) : (State.egrJoin s e n).nvm = s.nvm := by
  unfold State.egrJoin
  dsimp only
  repeat' split
  all_goals simp only
@[simp] theorem State.egrPut_nvm (s : State) (n : Nat) (b : List Byte) : (State.egrPut s n b).nvm = s.nvm := by
  unfold State.egrPut
  dsimp only
  repeat' split
  all_goals simp only [State.count_nvm, State.egrJoin_nvm, State.raiseDp_nvm, State.setEgrQ_nvm, State.winAdd_nvm]
@[simp] theorem State.tcEgress_nvm (s : State) (n : Nat) (p : Nat) (cyc : Nat) (sub : Nat) (b : List Byte) : (State.tcEgress s n p cyc sub b).2.nvm = s.nvm := by
  unfold State.tcEgress
  dsimp only
  repeat' split
  all_goals simp only [State.count_nvm, State.raiseDp_nvm]
@[simp] theorem State.egress_nvm (s : State) (e : Nat) (n : Nat) (cyc : Nat) (sub : Nat) (cut : Option Nat) : (State.egress s e n cyc sub cut).nvm = s.nvm := by
  unfold State.egress
  dsimp only
  repeat' split
  all_goals simp only [State.count_nvm, State.emit_nvm, State.raiseDp_nvm, State.setEgrQ_nvm, State.tcEgress_nvm, State.winAdd_nvm]
@[simp] theorem State.cutPkt_nvm (s : State) (n : Nat) : (State.cutPkt s n).nvm = s.nvm := by
  unfold State.cutPkt
  dsimp only
  repeat' split
  all_goals simp only [State.chCount_nvm, State.setCrx_nvm]
@[simp] theorem State.rebuildAt_nvm (s : State) (n : Nat) (pl : List Byte) (k o : Nat) : (s.rebuildAt n pl k o).nvm = s.nvm := by
  induction k generalizing s o with
  | zero => rfl
  | succ k ih =>
    unfold State.rebuildAt
    dsimp only
    repeat' split
    all_goals simp only [ih, State.setCrx_nvm, State.chCount_nvm, State.egrPut_nvm]
@[simp] theorem State.rebuild_nvm (s : State) (n : Nat) (bptr : Nat) (pl : List Byte) : (State.rebuild s n bptr pl).nvm = s.nvm := by
  unfold State.rebuild
  dsimp only
  repeat' split
  all_goals simp only [State.cutPkt_nvm, State.egrPut_nvm, State.rebuildAt_nvm, State.setCrx_nvm]
@[simp] theorem State.seqReset_nvm (s : State) (n : Nat) : (State.seqReset s n).nvm = s.nvm := by
  unfold State.seqReset
  dsimp only
  all_goals simp only [State.chCount_nvm, State.cutPkt_nvm, State.publishReg_nvm, State.raiseDp_nvm, State.setCrx_nvm]
@[simp] theorem State.seqOld_nvm (s : State) (n : Nat) : (State.seqOld s n).nvm = s.nvm := by
  unfold State.seqOld
  dsimp only
  repeat' split
  all_goals simp only [State.seqReset_nvm, State.setCrx_nvm]
@[simp] theorem State.seqLost_nvm (s : State) (n : Nat) (k : Nat) : (State.seqLost s n k).nvm = s.nvm := by
  unfold State.seqLost
  repeat' split
  all_goals simp only [State.chCount_nvm, State.cutPkt_nvm, State.raiseDp_nvm]
@[simp] theorem State.seqTake_nvm (s : State) (n : Nat) (seq : Nat) (b : List Byte) : (State.seqTake s n seq b).nvm = s.nvm := by
  unfold State.seqTake
  dsimp only
  repeat' split
  all_goals simp only [State.rebuild_nvm, State.seqLost_nvm, State.setCrx_nvm, State.winAdd_nvm]
@[simp] theorem State.single_nvm (s : State) (n : Nat) (seq : Nat) (b : List Byte) : (State.single s n seq b).nvm = s.nvm := by
  unfold State.single
  repeat' split
  all_goals simp only [State.count_nvm, State.seqOld_nvm, State.seqTake_nvm]
@[simp] theorem State.release_nvm (s : State) (n : Nat) (c : Cell) (now : Nat) (bad : Bool) : (State.release s n c now bad).nvm = s.nvm := by
  unfold State.release
  dsimp only
  repeat' split
  all_goals simp only [State.seqTake_nvm, State.setCrx_nvm]
@[simp] theorem State.releases_nvm (s : State) (n now : Nat) (bad : Bool) (k : Nat) : (s.releases n now bad k).nvm = s.nvm := by
  induction k generalizing s bad with
  | zero => rfl
  | succ k ih =>
    unfold State.releases
    repeat' split
    all_goals simp only [ih, State.release_nvm]
@[simp] theorem State.releaseDue_nvm (s : State) (n : Nat) (now : Nat) (bad : Bool) : (State.releaseDue s n now bad).nvm = s.nvm := by
  unfold State.releaseDue
  simp only [State.releases_nvm]
@[simp] theorem State.twinIn_nvm (s : State) (n : Nat) (l : Nat) (seq : Nat) (now : Nat) (b : List Byte) : (State.twinIn s n l seq now b).nvm = s.nvm := by
  unfold State.twinIn
  dsimp only
  repeat' split
  all_goals simp only [State.chCount_nvm, State.raiseDp_nvm, State.seqOld_nvm, State.setCrx_nvm]
@[simp] theorem State.demap_nvm (s : State) (l : Nat) (now : Nat) (errored : Bool) (b : List Byte) : (State.demap s l now errored b).nvm = s.nvm := by
  unfold State.demap
  dsimp only
  repeat' split
  all_goals simp only [State.chCount_nvm, State.count_nvm, State.raiseDpAt_nvm, State.raiseDp_nvm, State.setCrx_nvm, State.single_nvm, State.twinIn_nvm]
@[simp] theorem State.deliver_nvm (s : State) (l : Nat) (cyc : Nat) (mem : List Nat) : (State.deliver s l cyc mem).nvm = s.nvm := by
  unfold State.deliver
  dsimp only
  repeat' split
  all_goals simp only [State.cutPkt_nvm, State.demap_nvm, State.modLn_nvm, foldl_nvm, implies_true, apply_ite State.nvm, ite_self]
@[simp] theorem State.twinTick_nvm (s : State) (n : Nat) : (State.twinTick s n).nvm = s.nvm := by
  unfold State.twinTick
  extract_lets x now a rs p recent d flip d2 a2 ds m s1 s2 s3 on c1 c2 un s4 s5 s6
  have h2 : s2.nvm = s.nvm := by
    by_cases hc : flip = true
    · rw [show s2 = _ from if_pos hc, State.releaseDue_nvm, State.chCount_nvm, State.raise_nvm]
      exact State.setCrx_nvm _ _ _
    · rw [show s2 = _ from if_neg hc]
      exact State.setCrx_nvm _ _ _
  have h3 : s3.nvm = s2.nvm := State.publishReg_nvm _ _ _
  have h4 : s4.nvm = s3.nvm := State.raiseIf_nvm _ _ _
  have h5 : s5.nvm = s4.nvm := by
    by_cases hc : un = true
    · rw [show s5 = _ from if_pos hc, State.countLevel_nvm]
    · rw [show s5 = _ from if_neg hc]
  rw [State.publish_nvm, State.publish_nvm, State.publish_nvm]
  show (State.setCrx _ _ _).nvm = _
  rw [State.setCrx_nvm, h5, h4, h3, h2]
@[simp] theorem State.floTick_nvm (s : State) : (State.floTick s).nvm = s.nvm := by
  unfold State.floTick
  extract_lets a tw b
  rw [State.publish_nvm]
  refine (foldl_nvm _ _ _ State.twinTick_nvm).trans (foldl_nvm _ _ _ (fun x n => State.setFld_nvm _ _ _))
@[simp] theorem State.setSwap_nvm (s : State) (l : Nat) (v : Option Nat) : (State.setSwap s l v).nvm = s.nvm := by
  unfold State.setSwap
  dsimp only
  repeat' split
  all_goals simp only [State.latch_nvm]
@[simp] theorem State.calArm_nvm (s : State) (l : Nat) : (State.calArm s l).nvm = s.nvm := by
  unfold State.calArm
  extract_lets f
  split
  · rw [State.frameReject_nvm, State.raiseAt_nvm, State.setFld_nvm]
  · rw [State.accepted_nvm, State.setFld_nvm, State.setSwap_nvm]
@[simp] theorem State.flipBank_nvm (s : State) (l : Nat) : (State.flipBank s l).nvm = s.nvm := by
  unfold State.flipBank
  dsimp only
  all_goals simp only [State.latch_nvm, State.modLn_nvm, State.raiseDpAt_nvm]
@[simp] theorem State.calSwap_nvm (s : State) (l : Nat) (fn : Nat) : (State.calSwap s l fn).nvm = s.nvm := by
  unfold State.calSwap
  dsimp only
  repeat' split
  all_goals simp only [State.flipBank_nvm, State.latch_nvm, State.raiseDpAt_nvm, State.setSwap_nvm]
@[simp] theorem State.modLcy_nvm (s : State) (l : Nat) (f : LcySt → LcySt) : (State.modLcy s l f).nvm = s.nvm := by
  unfold State.modLcy
  simp only [State.modLn_nvm]
@[simp] theorem State.pipeRotate_nvm (s : State) (l : Nat) : (State.pipeRotate s l).nvm = s.nvm := by
  unfold State.pipeRotate
  dsimp only
  repeat' split
  all_goals simp only [State.modLcy_nvm]
@[simp] theorem State.pipeTest_nvm (s : State) (l : Nat) (pass : Bool) : (State.pipeTest s l pass).nvm = s.nvm := by
  unfold State.pipeTest
  dsimp only
  repeat' split
  all_goals simp only [State.logRepair_nvm, State.modLcy_nvm, State.queueRec_nvm, State.raiseOwn_nvm, State.setFld_nvm]
@[simp] theorem State.pipeCheck_nvm (s : State) (l : Nat) : (State.pipeCheck s l).nvm = s.nvm := by
  unfold State.pipeCheck
  simp only [State.raiseDpIf_nvm]
@[simp] theorem State.cryptMute_nvm (s : State) (l : Nat) : (State.cryptMute s l).nvm = s.nvm := by
  unfold State.cryptMute
  dsimp only
  all_goals simp only [State.modLcy_nvm, State.raiseDpIf_nvm]
@[simp] theorem State.encrypt_nvm (s : State) (l : Nat) (fn : Nat) (flags : Byte) (pt : List Byte) : (State.encrypt s l fn flags pt).2.nvm = s.nvm := by
  unfold State.encrypt
  dsimp only
  all_goals simp only [State.modLcy_nvm]
@[simp] theorem State.keyAge_nvm (s : State) (l : Nat) : (State.keyAge s l).nvm = s.nvm := by
  unfold State.keyAge
  dsimp only
  repeat' split
  all_goals simp only [State.modLcy_nvm, State.raiseDp_nvm]
@[simp] theorem State.flipArm_nvm (s : State) (l : Nat) : (State.flipArm s l).nvm = s.nvm := by
  unfold State.flipArm
  extract_lets f
  split
  · rw [State.frameReject_nvm, State.raise_nvm, State.setFld_nvm]
  · rw [State.accepted_nvm, State.setFld_nvm, State.modLcy_nvm]
@[simp] theorem State.keyFlip_nvm (s : State) (l : Nat) (fn : Nat) : (State.keyFlip s l fn).nvm = s.nvm := by
  unfold State.keyFlip
  dsimp only
  repeat' split
  all_goals simp only [State.latch_nvm, State.modLcy_nvm, State.raiseDp_nvm]
@[simp] theorem State.rotDue_nvm (s : State) (l : Nat) : (State.rotDue s l).nvm = s.nvm := by
  unfold State.rotDue
  dsimp only
  repeat' split
  all_goals simp only [State.accepted_nvm, State.modLcy_nvm, State.raise_nvm, State.setFld_nvm]
@[simp] theorem State.searchStart_nvm (s : State) (l : Nat) : (State.searchStart s l).nvm = s.nvm := by
  unfold State.searchStart
  repeat' split
  all_goals simp only [State.modLcy_nvm]
@[simp] theorem State.searchTick_nvm (s : State) (l : Nat) (again : Bool) : (State.searchTick s l again).nvm = s.nvm := by
  unfold State.searchTick
  dsimp only
  repeat' split
  all_goals simp only [State.modLcy_nvm]
@[simp] theorem State.epochFound_nvm (s : State) (l : Nat) : (State.epochFound s l).nvm = s.nvm := by
  unfold State.epochFound
  dsimp only
  repeat' split
  all_goals simp only [State.modLcy_nvm, State.publishReg_nvm, State.raise_nvm]
@[simp] theorem State.epochMissed_nvm (s : State) (l : Nat) : (State.epochMissed s l).nvm = s.nvm := by
  unfold State.epochMissed
  repeat' split
  all_goals simp only [State.modLcy_nvm, State.raise_nvm]
@[simp] theorem State.rxEpochSet_nvm (s : State) (l : Nat) : (State.rxEpochSet s l).nvm = s.nvm := by
  unfold State.rxEpochSet
  simp only [State.modLcy_nvm]
@[simp] theorem State.rxEpochTake_nvm (s : State) (l : Nat) : (State.rxEpochTake s l).nvm = s.nvm := by
  unfold State.rxEpochTake
  repeat' split
  all_goals simp only [State.modLcy_nvm]
@[simp] theorem State.modFrm_nvm (s : State) (l : Nat) (f : FrmSt → FrmSt) : (State.modFrm s l f).nvm = s.nvm := by
  unfold State.modFrm
  simp only [State.modLn_nvm]
@[simp] theorem State.frameReady_nvm (s : State) (l : Nat) (bytes : List Byte) (sl : Nat) (errored : Bool) : (State.frameReady s l bytes sl errored).nvm = s.nvm := by
  unfold State.frameReady
  dsimp only
  all_goals simp only [State.modLn_nvm]
@[simp] theorem State.tagTest_nvm (s : State) (l : Nat) (f : RxFrame) (tag : List Byte) (ct : List Byte) : (State.tagTest s l f tag ct).nvm = s.nvm := by
  unfold State.tagTest
  dsimp only
  repeat' split
  all_goals simp only [State.frameReady_nvm, State.modFrm_nvm, State.modLcy_nvm, State.raiseDp_nvm, State.searchStart_nvm]
@[simp] theorem State.tagCheck_nvm (s : State) (l : Nat) : (State.tagCheck s l).nvm = s.nvm := by
  unfold State.tagCheck
  dsimp only
  repeat' split
  all_goals simp only [State.frameReady_nvm, State.modLn_nvm, State.raiseDpIf_nvm, State.raiseDp_nvm, State.tagTest_nvm]
@[simp] theorem State.lcyTick_nvm (s : State) (l : Nat) (again : Bool) : (State.lcyTick s l again).nvm = s.nvm := by
  unfold State.lcyTick
  dsimp only
  repeat' split
  all_goals simp only [State.modLcy_nvm, State.searchTick_nvm, State.setFld_nvm, State.setReg64_nvm]
@[simp] theorem State.modRxp_nvm (s : State) (l : Nat) (f : RxpSt → RxpSt) : (State.modRxp s l f).nvm = s.nvm := by
  unfold State.modRxp
  simp only [State.modLn_nvm]
@[simp] theorem State.modDsp_nvm (s : State) (l : Nat) (f : DspSt → DspSt) : (State.modDsp s l f).nvm = s.nvm := by
  unfold State.modDsp
  simp only [State.modLn_nvm]
@[simp] theorem State.dspFeed_nvm (s : State) (l : Nat) (a : Nat) (v : List (Int × Bool)) : (State.dspFeed s l a v).nvm = s.nvm := by
  unfold State.dspFeed
  repeat' split
  all_goals simp only [State.modDsp_nvm]
@[simp] theorem State.scanTick_nvm (s : State) (l : Nat) : (State.scanTick s l).nvm = s.nvm := by
  unfold State.scanTick
  dsimp only
  repeat' split
  all_goals simp only [State.modDsp_nvm]
@[simp] theorem State.acqTally_nvm (s : State) (l : Nat) (c : Nat) (b : Bool) : (State.acqTally s l c b).nvm = s.nvm := by
  unfold State.acqTally
  repeat' split
  all_goals simp only [State.count_nvm]
@[simp] theorem State.acqGo_nvm (s : State) (l : Nat) (st : Nat) : (State.acqGo s l st).nvm = s.nvm := by
  unfold State.acqGo
  dsimp only
  repeat' split
  all_goals simp only [State.acqTally_nvm, State.modDsp_nvm, State.modRxp_nvm]
@[simp] theorem State.acqFail_nvm (s : State) (l : Nat) : (State.acqFail s l).nvm = s.nvm := by
  unfold State.acqFail
  simp only [State.acqGo_nvm, State.modRxp_nvm, State.raise_nvm]
@[simp] theorem State.acqDone_nvm (s : State) (l : Nat) : (State.acqDone s l).nvm = s.nvm := by
  unfold State.acqDone
  dsimp only
  repeat' split
  all_goals simp only [State.acqFail_nvm, State.acqGo_nvm, State.modRxp_nvm, State.raise_nvm]
@[simp] theorem State.acqExpiry_nvm (s : State) (l : Nat) : (State.acqExpiry s l).nvm = s.nvm := by
  unfold State.acqExpiry
  dsimp only
  repeat' split
  all_goals simp only [State.acqFail_nvm, State.acqGo_nvm, State.modRxp_nvm]
@[simp] theorem State.acqRestart_nvm (s : State) (l : Nat) (k : Nat) : (State.acqRestart s l k).nvm = s.nvm := by
  unfold State.acqRestart
  simp only [State.modRxp_nvm]
@[simp] theorem State.lockLoss_nvm (s : State) (l : Nat) : (State.lockLoss s l).nvm = s.nvm := by
  unfold State.lockLoss
  dsimp only
  repeat' split
  all_goals simp only [State.acqRestart_nvm, State.raise_nvm]
@[simp] theorem State.frmLost_nvm (s : State) (l : Nat) : (State.frmLost s l).nvm = s.nvm := by
  unfold State.frmLost
  dsimp only
  all_goals simp only [State.modFrm_nvm]
@[simp] theorem State.acqApply_nvm (s : State) (l : Nat) : (State.acqApply s l).nvm = s.nvm := by
  unfold State.acqApply
  dsimp only
  repeat' split
  all_goals simp only [State.acqFail_nvm, State.acqGo_nvm, State.acqTally_nvm, State.frmLost_nvm, State.modDsp_nvm, State.modFrm_nvm, State.modLn_nvm, State.modRxp_nvm, State.setFld_nvm]
@[simp] theorem State.pairTick_nvm (s : State) : (State.pairTick s).nvm = s.nvm := by
  unfold State.pairTick
  dsimp only
  repeat' split
  all_goals simp only [State.modRxp_nvm, State.raise_nvm]
@[simp] theorem State.pairOn_nvm (s : State) : (State.pairOn s).nvm = s.nvm := by
  unfold State.pairOn
  repeat' split
  all_goals simp only [State.modRxp_nvm, State.raise_nvm]
@[simp] theorem State.rxpMonitors_nvm (s : State) (l : Nat) (pwr : Nat) : (State.rxpMonitors s l pwr).nvm = s.nvm := by
  unfold State.rxpMonitors
  dsimp only
  repeat' split
  all_goals simp only [State.modRxp_nvm, State.publish_nvm, foldl_nvm, implies_true]
@[simp] theorem State.rxpLimits_nvm (s : State) (l : Nat) : (State.rxpLimits s l).nvm = s.nvm := by
  unfold State.rxpLimits
  dsimp only
  repeat' split
  all_goals simp only [State.modRxp_nvm]
@[simp] theorem State.snrLow_nvm (s : State) (l : Nat) : (State.snrLow s l).nvm = s.nvm := by
  unfold State.snrLow
  dsimp only
  repeat' split
  all_goals simp only [State.modRxp_nvm, State.raise_nvm]
@[simp] theorem State.rxpTick_nvm (s : State) (l : Nat) : (State.rxpTick s l).nvm = s.nvm := by
  unfold State.rxpTick
  dsimp only
  repeat' split
  all_goals simp only [State.acqApply_nvm, State.modDsp_nvm, State.modRxp_nvm, State.raiseIf_nvm, State.rxpLimits_nvm, State.rxpMonitors_nvm, State.scanTick_nvm]
@[simp] theorem State.cdStep_nvm (s : State) (l : Nat) : (State.cdStep s l).nvm = s.nvm := by
  unfold State.cdStep
  dsimp only
  repeat' split
  all_goals simp only [State.modRxp_nvm, State.raise_nvm]
@[simp] theorem State.rxpLatch_nvm (s : State) (l : Nat) : (State.rxpLatch s l).nvm = s.nvm := by
  unfold State.rxpLatch
  dsimp only
  all_goals simp only [State.setFld_nvm]
@[simp] theorem State.takeGains_nvm (s : State) (l : Nat) (n : Nat) : (State.takeGains s l n).nvm = s.nvm := by
  unfold State.takeGains
  dsimp only
  repeat' split
  all_goals simp only [State.modDsp_nvm]
@[simp] theorem State.capTake_nvm (s : State) (l : Nat) (m : Nat × Nat × List Nat) (ok : Bool) : (State.capTake s l m ok).nvm = s.nvm := by
  unfold State.capTake
  dsimp only
  repeat' split
  all_goals simp only [State.latch_nvm, State.modRxp_nvm, State.raiseDp_nvm, foldl_nvm, implies_true]
@[simp] theorem State.frameEnd_nvm (s : State) (l : Nat) : (State.frameEnd s l).nvm = s.nvm := by
  unfold State.frameEnd
  dsimp only
  repeat' split
  all_goals simp only [State.capTake_nvm, State.modRxp_nvm, State.takeGains_nvm]
@[simp] theorem State.rxpHead_nvm (s : State) (l : Nat) : (State.rxpHead s l).nvm = s.nvm := by
  unfold State.rxpHead
  dsimp only
  repeat' split
  all_goals simp only [State.frameEnd_nvm, State.modDsp_nvm, State.modRxp_nvm]
@[simp] theorem State.capArm_nvm (s : State) (l : Nat) : (State.capArm s l).nvm = s.nvm := by
  unfold State.capArm
  extract_lets f
  split
  · rw [State.frameReject_nvm, State.setFld_nvm]
  · rw [State.accepted_nvm, State.setFld_nvm, State.modRxp_nvm]
@[simp] theorem State.capMiss_nvm (s : State) (l : Nat) : (State.capMiss s l).nvm = s.nvm := by
  unfold State.capMiss
  simp only [State.latch_nvm, State.modRxp_nvm, State.raiseDp_nvm]
@[simp] theorem State.capLost_nvm (s : State) (l : Nat) : (State.capLost s l).nvm = s.nvm := by
  unfold State.capLost
  repeat' split
  all_goals simp only [State.capMiss_nvm]
@[simp] theorem State.capture_nvm (s : State) (l : Nat) (fn : Nat) : (State.capture s l fn).nvm = s.nvm := by
  unfold State.capture
  repeat' split
  all_goals simp only [State.capMiss_nvm, State.modRxp_nvm]
@[simp] theorem State.setTxFmt_nvm (s : State) (l : Nat) (k : Nat) : (State.setTxFmt s l k).nvm = s.nvm := by
  unfold State.setTxFmt
  dsimp only
  repeat' split
  all_goals simp only [State.modLn_nvm]
@[simp] theorem State.setRxFmt_nvm (s : State) (l : Nat) (k : Nat) (shift : Bool) : (State.setRxFmt s l k shift).nvm = s.nvm := by
  unfold State.setRxFmt
  dsimp only
  repeat' split
  all_goals simp only [State.acqRestart_nvm, State.modFrm_nvm, State.modLn_nvm, State.modRxp_nvm]
@[simp] theorem State.slotShrink_nvm (s : State) (l : Nat) (d : Nat) : (State.slotShrink s l d).nvm = s.nvm := by
  unfold State.slotShrink
  dsimp only
  repeat' split
  all_goals simp only [State.count_nvm, State.modLn_nvm, State.raiseDp_nvm]
@[simp] theorem State.layHead_nvm (s : State) (v : ImageVals) (sel : Nat → Fld → Bool) : (State.layHead s v sel).nvm = s.nvm := by
  unfold State.layHead
  dsimp only
  all_goals simp only [foldl_nvm, implies_true]
@[simp] theorem State.commitBoth_nvm (s : State) (l : Nat) : (State.commitBoth s l).nvm = s.nvm := by
  unfold State.commitBoth
  repeat' split
  all_goals simp only [State.layHead_nvm]
@[simp] theorem State.applyTx_nvm (s : State) (v : ImageVals) (l : Nat) : (State.applyTx s v l).nvm = s.nvm := by
  unfold State.applyTx
  dsimp only
  repeat' split
  all_goals simp only [State.flipBank_nvm, State.layHead_nvm, State.modLn_nvm, State.setTxFmt_nvm]
@[simp] theorem State.applyRx_nvm (s : State) (v : ImageVals) (l : Nat) : (State.applyRx s v l).nvm = s.nvm := by
  unfold State.applyRx
  dsimp only
  repeat' split
  all_goals simp only [State.acqRestart_nvm, State.layHead_nvm, State.modLcy_nvm, State.modLn_nvm, State.setRxFmt_nvm, State.slotShrink_nvm]
@[simp] theorem State.commitTx_nvm (s : State) (l : Nat) (fn : Nat) : (State.commitTx s l fn).nvm = s.nvm := by
  unfold State.commitTx
  dsimp only
  repeat' split
  all_goals simp only [State.abandonCommit_nvm, State.applyTx_nvm, State.commitBoth_nvm]
@[simp] theorem State.commitRx_nvm (s : State) (l : Nat) (fn : Nat) : (State.commitRx s l fn).nvm = s.nvm := by
  unfold State.commitRx
  dsimp only
  repeat' split
  all_goals simp only [State.abandonCommit_nvm, State.applyRx_nvm, State.commitBoth_nvm]
@[simp] theorem State.adoptLine_nvm (s : State) (l : Nat) (o : Nat) (old : Word) (new : Word) : (State.adoptLine s l o old new).nvm = s.nvm := by
  unfold State.adoptLine
  dsimp only
  repeat' split
  all_goals simp only [State.setRxFmt_nvm, State.setTxFmt_nvm, State.slotShrink_nvm]
@[simp] theorem State.adoptPart_nvm (l : Nat) (tx : Bool) (s : State) (a : Adoption) : (State.adoptPart l tx s a).nvm = s.nvm := by
  unfold State.adoptPart
  dsimp only
  repeat' split
  all_goals simp only [State.adoptLine_nvm, State.modLn_nvm]
@[simp] theorem State.adoptSide_nvm (s : State) (l : Nat) (tx : Bool) : (State.adoptSide s l tx).nvm = s.nvm := by
  unfold State.adoptSide
  dsimp only
  repeat' split
  all_goals simp only [State.adoptPart_nvm, State.modLn_nvm, foldl_nvm, implies_true]
@[simp] theorem State.adoptLater_nvm (s : State) (l : Nat) (off : Nat) (m : Word) : (State.adoptLater s l off m).nvm = s.nvm := by
  unfold State.adoptLater
  dsimp only
  repeat' split
  all_goals simp only [State.modLn_nvm]
@[simp] theorem State.adoptIdle_nvm (s : State) (l : Nat) : (State.adoptIdle s l).nvm = s.nvm := by
  unfold State.adoptIdle
  dsimp only
  repeat' split
  all_goals simp only [State.adoptSide_nvm]
@[simp] theorem State.adoptAll_nvm (s : State) (l : Nat) : (State.adoptAll s l).nvm = s.nvm := by
  unfold State.adoptAll
  dsimp only
  all_goals simp only [State.loadShadow_nvm, State.modLn_nvm, foldl_nvm, implies_true]
@[simp] theorem State.frmCount_nvm (s : State) (l : Nat) (n : Nat) : (State.frmCount s l n).nvm = s.nvm := by
  unfold State.frmCount
  simp only [State.count_nvm]
@[simp] theorem State.modShift_nvm (s : State) (l : Nat) (f : ShiftSt → ShiftSt) : (State.modShift s l f).nvm = s.nvm := by
  unfold State.modShift
  simp only [State.modFrm_nvm]
@[simp] theorem State.shiftRequest_nvm (s : State) (l : Nat) : (State.shiftRequest s l).nvm = s.nvm := by
  unfold State.shiftRequest
  dsimp only
  repeat' split
  all_goals simp only [State.accepted_nvm, State.frameReject_nvm, State.modShift_nvm, State.raise_nvm, State.setFld_nvm]
@[simp] theorem State.shiftFail_nvm (s : State) (l : Nat) (cause : Nat) : (State.shiftFail s l cause).nvm = s.nvm := by
  unfold State.shiftFail
  simp only [State.modShift_nvm, State.raiseDp_nvm]
@[simp] theorem State.shiftWithdraw_nvm (s : State) (l : Nat) : (State.shiftWithdraw s l).nvm = s.nvm := by
  unfold State.shiftWithdraw
  dsimp only
  repeat' split
  all_goals simp only [State.shiftFail_nvm]
@[simp] theorem State.shiftDone_nvm (s : State) (l : Nat) : (State.shiftDone s l).nvm = s.nvm := by
  unfold State.shiftDone
  dsimp only
  repeat' split
  all_goals simp only [State.modShift_nvm, State.raiseDp_nvm]
@[simp] theorem State.shiftTx_nvm (s : State) (l : Nat) (fn : Nat) : (State.shiftTx s l fn).nvm = s.nvm := by
  unfold State.shiftTx
  dsimp only
  repeat' split
  all_goals simp only [State.modShift_nvm, State.setTxFmt_nvm, State.shiftDone_nvm]
@[simp] theorem State.shiftRx_nvm (s : State) (l : Nat) (fn : Nat) : (State.shiftRx s l fn).nvm = s.nvm := by
  unfold State.shiftRx
  dsimp only
  repeat' split
  all_goals simp only [State.modShift_nvm, State.setRxFmt_nvm, State.shiftDone_nvm]
@[simp] theorem State.shiftRuns_nvm (s : State) (l : Nat) (h : ShiftSeen) : (State.shiftRuns s l h).nvm = s.nvm := by
  unfold State.shiftRuns
  dsimp only
  repeat' split
  all_goals simp only [State.modShift_nvm]
@[simp] theorem State.shiftLate_nvm (s : State) (l : Nat) (fn : Nat) : (State.shiftLate s l fn).nvm = s.nvm := by
  rw [State.shiftLate.eq_1]
  generalize actFrame fn (s.shiftOf l).far.2.1 = o
  cases o with
  | none => rfl
  | some f => exact State.raiseDpIf_nvm _ _ _
@[simp] theorem State.shiftArm_nvm (s : State) (l : Nat) (fn : Nat) : (State.shiftArm s l fn).nvm = s.nvm := by
  unfold State.shiftArm
  extract_lets x k mine
  split
  · rfl
  · split
    · rfl
    · split
      · rfl
      · split
        · exact (State.accepted_nvm _ _ _).trans (State.modShift_nvm _ _ _)
        · exact (State.accepted_nvm _ _ _).trans ((State.accepted_nvm _ _ _).trans (State.modShift_nvm _ _ _))
@[simp] theorem State.shiftHead_nvm (s : State) (l : Nat) (fn : Nat) (h : ShiftSeen) : (State.shiftHead s l fn h).nvm = s.nvm := by
  unfold State.shiftHead
  dsimp only
  repeat' split
  all_goals simp only [State.modShift_nvm, State.shiftArm_nvm, State.shiftFail_nvm, State.shiftLate_nvm, State.shiftRuns_nvm]
@[simp] theorem State.defSet_nvm (s : State) (l : Nat) (d : Nat) (on : Bool) : (State.defSet s l d on).nvm = s.nvm := by
  unfold State.defSet
  dsimp only
  repeat' split
  all_goals simp only [State.alarm_nvm, State.modFrm_nvm, State.raiseDp_nvm, foldl_nvm, implies_true]
@[simp] theorem State.defDeclare_nvm (s : State) (l : Nat) (d : Nat) : (State.defDeclare s l d).nvm = s.nvm := by
  unfold State.defDeclare
  dsimp only
  repeat' split
  all_goals simp only [State.acqRestart_nvm, State.defSet_nvm, State.modRxp_nvm]
@[simp] theorem State.defClear_nvm (s : State) (l : Nat) (d : Nat) : (State.defClear s l d).nvm = s.nvm := by
  unfold State.defClear
  dsimp only
  repeat' split
  all_goals simp only [State.defSet_nvm]
@[simp] theorem State.degEnd_nvm (s : State) (l : Nat) : (State.degEnd s l).nvm = s.nvm := by
  unfold State.degEnd
  dsimp only
  repeat' split
  all_goals simp only [State.modFrm_nvm]
@[simp] theorem State.syncMatch_nvm (s : State) (l : Nat) (pos : Nat) (rho : Nat) (side : Nat) : (State.syncMatch s l pos rho side).nvm = s.nvm := by
  unfold State.syncMatch
  repeat' split
  all_goals simp only [State.modFrm_nvm, State.raiseDp_nvm]
@[simp] theorem State.syncHeard_nvm (s : State) (l : Nat) (pos : Nat) (rho : Nat) (side : Nat) : (State.syncHeard s l pos rho side).nvm = s.nvm := by
  unfold State.syncHeard
  dsimp only
  all_goals simp only [State.syncMatch_nvm]
@[simp] theorem State.alignGain_nvm (s : State) (l : Nat) (pos : Nat) (exch : Bool) : (State.alignGain s l pos exch).nvm = s.nvm := by
  unfold State.alignGain
  dsimp only
  all_goals simp only [State.modDsp_nvm, State.modFrm_nvm, State.modRxp_nvm, State.raiseDp_nvm]
@[simp] theorem State.candCheck_nvm (s : State) (l : Nat) (pos : Nat) (exch : Bool) (h : HeadIn) : (State.candCheck s l pos exch h).nvm = s.nvm := by
  unfold State.candCheck
  dsimp only
  repeat' split
  all_goals simp only [State.alignGain_nvm, State.modFrm_nvm]
@[simp] theorem State.candHeard_nvm (s : State) (l : Nat) (pos : Nat) (exch : Bool) (h : HeadIn) : (State.candHeard s l pos exch h).nvm = s.nvm := by
  unfold State.candHeard
  dsimp only
  all_goals simp only [State.candCheck_nvm]
@[simp] theorem State.frameNumber_nvm (s : State) (l : Nat) (good : Bool) (fn : Nat) : (State.frameNumber s l good fn).nvm = s.nvm := by
  unfold State.frameNumber
  dsimp only
  repeat' split
  all_goals simp only [State.modFrm_nvm, State.modLn_nvm, State.raiseDp_nvm, State.searchStart_nvm]
@[simp] theorem State.clmEntry_nvm (s : State) (l : Nat) (mf : Nat) (n : Nat) (e : Nat) : (State.clmEntry s l mf n e).nvm = s.nvm := by
  unfold State.clmEntry
  dsimp only
  repeat' split
  all_goals simp only [State.latch_nvm, State.modFrm_nvm]
@[simp] theorem State.clmHead_nvm (s : State) (l : Nat) (fn : Nat) (b : List Byte) : (State.clmHead s l fn b).nvm = s.nvm := by
  unfold State.clmHead
  dsimp only
  all_goals simp only [State.clmEntry_nvm, State.modFrm_nvm, foldl_nvm, implies_true]
@[simp] theorem State.ttiPart_nvm (s : State) (l : Nat) (p : Nat) (v : Option (List Byte)) : (State.ttiPart s l p v).nvm = s.nvm := by
  unfold State.ttiPart
  dsimp only
  repeat' split
  all_goals simp only [State.latchReg_nvm, State.modFrm_nvm, foldl_nvm, implies_true]
@[simp] theorem State.gccReceive_nvm (s : State) (l : Nat) (fn : Nat) (good : Bool) (b : List Byte) : (State.gccReceive s l fn good b).nvm = s.nvm := by
  unfold State.gccReceive
  dsimp only
  repeat' split
  all_goals simp only [State.modFrm_nvm, State.raiseDp_nvm, State.stWrite_nvm]
@[simp] theorem State.descHead_nvm (s : State) (l : Nat) (d : Nat) : (State.descHead s l d).nvm = s.nvm := by
  unfold State.descHead
  dsimp only
  repeat' split
  all_goals simp only [State.modFrm_nvm, State.modRxp_nvm]
@[simp] theorem State.followTake_nvm (s : State) (l : Nat) : (State.followTake s l).nvm = s.nvm := by
  unfold State.followTake
  repeat' split
  all_goals simp only [State.raiseDp_nvm, State.setRxFmt_nvm]
@[simp] theorem State.followHead_nvm (s : State) (l : Nat) : (State.followHead s l).nvm = s.nvm := by
  unfold State.followHead
  repeat' split
  all_goals simp only [State.followTake_nvm, State.modFrm_nvm]
@[simp] theorem State.headFields_nvm (s : State) (l : Nat) (h : HeadIn) : (State.headFields s l h).nvm = s.nvm := by
  unfold State.headFields
  extract_lets b fn flags compat s1 s2 s3 ok s4 s5 s6 s7 s8 s9
  have h4 : s4.nvm = s.nvm := by
    show (State.modFrm _ _ _).nvm = _
    rw [State.modFrm_nvm]
    show (State.descHead _ _ _).nvm = _
    rw [State.descHead_nvm]
    show (State.modLcy _ _ _).nvm = _
    rw [State.modLcy_nvm]
    show (State.modFrm _ _ _).nvm = _
    rw [State.modFrm_nvm, State.modLn_nvm]
  have h5 : s5.nvm = s4.nvm := by
    by_cases hc : s4.checksTags l = true
    · rw [show s5 = _ from if_pos hc, State.modFrm_nvm]
    · rw [show s5 = _ from if_neg hc]
  have h7 : s7.nvm = s5.nvm := by
    show (State.ttiPart _ _ _ _).nvm = _
    rw [State.ttiPart_nvm]
    exact State.clmHead_nvm _ _ _ _
  have h8 : s8.nvm = s7.nvm := by
    show (match s7.timBad l with | some bad => s7.modFrm l (·.evidence 6 bad 1) | none => s7).nvm = _
    split
    · exact State.modFrm_nvm _ _ _
    · rfl
  have h9 : s9.nvm = s8.nvm := by
    by_cases hc : compat = true
    · rw [show s9 = _ from if_pos hc]
    · rw [show s9 = _ from if_neg hc, State.ttReceive_nvm]
  split
  · rw [h9, h8, h7, h5, h4]
  · rw [State.shiftHead_nvm, h9, h8, h7, h5, h4]
@[simp] theorem State.rxChange_nvm (l : Nat) (fn : Nat) (s : State) (c : Nat) : (State.rxChange l fn s c).nvm = s.nvm := by
  unfold State.rxChange
  repeat' split
  all_goals simp only [State.capture_nvm, State.commitRx_nvm, State.shiftRx_nvm]
@[simp] theorem State.rxNamed_nvm (s : State) (l : Nat) : (State.rxNamed s l).nvm = s.nvm := by
  unfold State.rxNamed
  simp only [State.rxChange_nvm, foldl_nvm, implies_true]
@[simp] theorem State.pushFrame_nvm (s : State) (l : Nat) (good : Bool) (h : HeadIn) : (State.pushFrame s l good h).nvm = s.nvm := by
  unfold State.pushFrame
  dsimp only
  repeat' split
  all_goals simp only [State.modLn_nvm]
@[simp] theorem State.setSucc_nvm (s : State) (l : Nat) (good : Bool) (tag : List Byte) : (State.setSucc s l good tag).nvm = s.nvm := by
  unfold State.setSucc
  simp only [State.modLn_nvm]
@[simp] theorem State.alignLoss_nvm (s : State) (l : Nat) : (State.alignLoss s l).nvm = s.nvm := by
  unfold State.alignLoss
  dsimp only
  all_goals simp only [State.capTake_nvm, State.frmLost_nvm, State.modDsp_nvm, State.modFrm_nvm, State.modLn_nvm, State.modRxp_nvm, State.raiseDp_nvm, State.setSucc_nvm]
@[simp] theorem State.headTake_nvm (s : State) (l : Nat) (good : Bool) (h : HeadIn) : (State.headTake s l good h).nvm = s.nvm := by
  unfold State.headTake
  dsimp only
  repeat' split
  all_goals simp only [State.adoptSide_nvm, State.followHead_nvm, State.frameNumber_nvm, State.frmCount_nvm, State.gccReceive_nvm, State.headFields_nvm, State.modFrm_nvm, State.modRxp_nvm, State.pipeCheck_nvm, State.pushFrame_nvm, State.rxEpochTake_nvm, State.rxNamed_nvm, State.rxpHead_nvm, State.setSucc_nvm, State.tagCheck_nvm, State.ttiPart_nvm]
@[simp] theorem State.rxHead_nvm (s : State) (l : Nat) (h : HeadIn) : (State.rxHead s l h).nvm = s.nvm := by
  unfold State.rxHead
  dsimp only
  repeat' split
  all_goals simp only [State.alignLoss_nvm, State.headTake_nvm, State.modFrm_nvm, State.modLn_nvm]
@[simp] theorem State.headHeard_nvm (s : State) (l : Nat) (h : HeadIn) : (State.headHeard s l h).nvm = s.nvm := by
  unfold State.headHeard
  simp only [State.rxHead_nvm]
@[simp] theorem State.frmTick_nvm (s : State) (l : Nat) (pwr : Nat) : (State.frmTick s l pwr).nvm = s.nvm := by
  unfold State.frmTick
  dsimp only
  repeat' split
  all_goals simp only [State.capLost_nvm, State.modFrm_nvm, State.modLn_nvm, State.setFld_nvm, State.setReg64_nvm]
@[simp] theorem State.dropPlaced_nvm (s : State) (l : Nat) : (State.dropPlaced s l).nvm = s.nvm := by
  unfold State.dropPlaced
  simp only [State.dropMark_nvm, State.modLn_nvm, foldl_nvm, implies_true]
@[simp] theorem State.setMute_nvm (s : State) (l : Nat) (m : Nat) : (State.setMute s l m).nvm = s.nvm := by
  unfold State.setMute
  dsimp only
  repeat' split
  all_goals simp only [State.modLn_nvm, State.raiseDp_nvm, State.rimCut_nvm]
@[simp] theorem State.setDacZero_nvm (s : State) (l : Nat) (z : Bool) : (State.setDacZero s l z).nvm = s.nvm := by
  unfold State.setDacZero
  dsimp only
@[simp] theorem State.txQuiet_nvm (s : State) (l : Nat) : (State.txQuiet s l).nvm = s.nvm := by
  unfold State.txQuiet
  simp only [State.modLcy_nvm, State.modLn_nvm]
@[simp] theorem State.tileMute_nvm (s : State) (l : Nat) : (State.tileMute s l).nvm = s.nvm := by
  unfold State.tileMute
  simp only [State.dropPlaced_nvm, State.setDacZero_nvm, State.setMute_nvm, State.txQuiet_nvm]
@[simp] theorem State.relockDone_nvm (s : State) (l : Nat) : (State.relockDone s l).nvm = s.nvm := by
  unfold State.relockDone
  dsimp only
  repeat' split
  all_goals simp only [State.modCnv_nvm, State.modLn_nvm]
@[simp] theorem State.relockTimeout_nvm (s : State) (l : Nat) : (State.relockTimeout s l).nvm = s.nvm := by
  unfold State.relockTimeout
  dsimp only
  repeat' split
  all_goals simp only [State.modLn_nvm, State.tileMute_nvm]
@[simp] theorem State.gccSend_nvm (s : State) (l : Nat) : (State.gccSend s l).2.nvm = s.nvm := by
  unfold State.gccSend
  dsimp only
  repeat' split
  all_goals simp only [State.modFrm_nvm, State.raiseDp_nvm, State.stRead_nvm]
@[simp] theorem State.sendRails_nvm (s : State) (l : Nat) (at_ : Nat) (rails : List Int) : (State.sendRails s l at_ rails).nvm = s.nvm := by
  unfold State.sendRails
  dsimp only
  all_goals simp only [State.modLn_nvm, State.queueDac_nvm, foldl_nvm, implies_true]
@[simp] theorem State.dropBlocks_nvm (s : State) (l : Nat) (fn : Nat) : (State.dropBlocks s l fn).nvm = s.nvm := by
  unfold State.dropBlocks
  dsimp only
  repeat' split
  all_goals simp only [State.dropMark_nvm, State.frameBlocks_nvm, foldl_nvm, implies_true]
@[simp] theorem State.muteFrame_nvm (s : State) (l : Nat) (fn : Nat) : (State.muteFrame s l fn).nvm = s.nvm := by
  unfold State.muteFrame
  dsimp only
  repeat' split
  all_goals simp only [State.dropBlocks_nvm, State.emit_nvm, State.txQuiet_nvm]
@[simp] theorem State.sendFrame_nvm (s : State) (l : Nat) (fn : Nat) (t : Nat) (at_ : Nat) (bad : List Nat) : (State.sendFrame s l fn t at_ bad).nvm = s.nvm := by
  unfold State.sendFrame
  extract_lets s1 w sl en p r s2 tag flags e g s3 head info rails
  have h1 : s1.nvm = s.nvm := by
    by_cases hc : (s.ln l).relocked = true
    · rw [show s1 = _ from if_pos hc, State.modLn_nvm, State.raiseDp_nvm]
    · rw [show s1 = _ from if_neg hc]
  have h2 : s2.nvm = s1.nvm := by
    show r.2.nvm = _
    by_cases hc : s1.sh (Reg.FRM_CTL.TX_PSL l) = 0
    · rw [show r = _ from if_pos hc]
      exact State.modLn_nvm _ _ _
    · rw [show r = _ from if_neg hc]
      exact (State.modLn_nvm _ _ _).trans ((foldl_nvm _ _ _ (fun a c => State.passMark_nvm _ a c)).trans (State.frameBlocks_nvm _ _ _ _ _))
  have h3 : s3.nvm = s2.nvm := by
    show (State.gccSend _ _).2.nvm = _
    rw [State.gccSend_nvm]
    by_cases hc : en = true
    · rw [show e = _ from if_pos hc, State.encrypt_nvm]
    · rw [show e = _ from if_neg hc]
      exact State.modLcy_nvm _ _ _
  rw [State.sendRails_nvm, State.emit_nvm, State.emit_nvm, h3, h2, h1]
@[simp] theorem State.txChange_nvm (l : Nat) (fn : Nat) (s : State) (c : Nat) : (State.txChange l fn s c).nvm = s.nvm := by
  unfold State.txChange
  repeat' split
  all_goals simp only [State.calSwap_nvm, State.commitTx_nvm, State.keyFlip_nvm, State.shiftTx_nvm]
@[simp] theorem State.txNamed_nvm (s : State) (l : Nat) (fn : Nat) : (State.txNamed s l fn).nvm = s.nvm := by
  unfold State.txNamed
  simp only [State.txChange_nvm, foldl_nvm, implies_true]
@[simp] theorem State.txPrepare_nvm (s : State) (l : Nat) : (State.txPrepare s l).nvm = s.nvm := by
  unfold State.txPrepare
  dsimp only
  all_goals simp only [State.adoptSide_nvm, State.cryptMute_nvm, State.modLn_nvm, State.pipeCheck_nvm, State.setMute_nvm, State.tileAdopt_nvm, State.ttSnap_nvm, State.txNamed_nvm]
@[simp] theorem State.txHead_nvm (s : State) (l : Nat) (cyc : Nat) (sub : Nat) (bad : List Nat) : (State.txHead s l cyc sub bad).nvm = s.nvm := by
  unfold State.txHead
  dsimp only
  repeat' split
  all_goals simp only [State.modLn_nvm, State.muteFrame_nvm, State.sendFrame_nvm, State.setDacZero_nvm, State.setMute_nvm, State.txPrepare_nvm, State.txQuiet_nvm]
@[simp] theorem State.maskTick_nvm (s : State) (l : Nat) : (State.maskTick s l).nvm = s.nvm := by
  unfold State.maskTick
  dsimp only
  repeat' split
  all_goals simp only [State.modLn_nvm, State.publish_nvm, foldl_nvm, implies_true]
@[simp] theorem State.maskViol_nvm (s : State) (l : Nat) : (State.maskViol s l).nvm = s.nvm := by
  unfold State.maskViol
  dsimp only
  repeat' split
  all_goals simp only [State.modLn_nvm, State.raise_nvm, State.setFld_nvm]
@[simp] theorem State.maskClear_nvm (s : State) (l : Nat) : (State.maskClear s l).nvm = s.nvm := by
  unfold State.maskClear
  dsimp only
  repeat' split
  all_goals simp only [State.modLn_nvm, State.raise_nvm, State.setFld_nvm]
@[simp] theorem State.txpTick_nvm (s : State) (l : Nat) : (State.txpTick s l).nvm = s.nvm := by
  unfold State.txpTick
  dsimp only
  repeat' split
  all_goals simp only [State.count_nvm, State.modLn_nvm, State.raiseIf_nvm, State.setFld_nvm, State.setReg_nvm, State.tileMute_nvm, foldl_nvm, implies_true]
@[simp] theorem State.modFec_nvm (s : State) (l : Nat) (f : FecSt → FecSt) : (State.modFec s l f).nvm = s.nvm := by
  unfold State.modFec
  simp only [State.modLn_nvm]
@[simp] theorem State.setRx_nvm (s : State) (l : Nat) (i : Nat) (f : RxFrame) : (State.setRx s l i f).nvm = s.nvm := by
  unfold State.setRx
  simp only [State.modLn_nvm]
@[simp] theorem State.decEntry_nvm (s : State) (l : Nat) (errs : List StoreErr) : (State.decEntry s l errs).nvm = s.nvm := by
  unfold State.decEntry
  dsimp only
  repeat' split
  all_goals simp only [State.raiseDpIf_nvm, State.setRx_nvm]
@[simp] theorem State.refine_nvm (s : State) (l : Nat) (errs : List StoreErr) : (State.refine s l errs).nvm = s.nvm := by
  unfold State.refine
  dsimp only
  repeat' split
  all_goals simp only [State.emit_nvm, State.raiseDpIf_nvm, State.setRx_nvm]
@[simp] theorem State.decRelease_nvm (s : State) (l : Nat) (cut : List (Nat × Nat)) : (State.decRelease s l cut).nvm = s.nvm := by
  unfold State.decRelease
  dsimp only
  repeat' split
  all_goals simp only [State.count_nvm, State.emit_nvm, State.modFec_nvm, State.raiseDpIf_nvm, State.raiseDp_nvm, State.setRx_nvm, State.tagCheck_nvm, foldl_nvm, implies_true]
@[simp] theorem State.fecTick_nvm (s : State) (l : Nat) : (State.fecTick s l).nvm = s.nvm := by
  unfold State.fecTick
  dsimp only
  all_goals simp only [State.count_nvm, State.modFec_nvm, State.modFrm_nvm, State.publish_nvm, State.raiseIf_nvm, State.setFld_nvm, State.setReg_nvm, foldl_nvm, implies_true, apply_ite State.nvm, ite_self]
@[simp] theorem State.tallyFlit_nvm (s : State) (t : Nat) (a : Nat) (k : Nat) (at_ : Int) (codes : List Int) (erased : Bool) : (State.tallyFlit s t a k at_ codes erased).nvm = s.nvm := by
  unfold State.tallyFlit
  dsimp only
  all_goals simp only [State.modCnv_nvm]
@[simp] theorem State.adcFlit_nvm (s : State) (t : Nat) (a : Nat) (n : Nat) (b : List Byte) (erased : Bool) : (State.adcFlit s t a n b erased).nvm = s.nvm := by
  unfold State.adcFlit
  dsimp only
  repeat' split
  all_goals simp only [State.dspFeed_nvm, State.emit_nvm, State.tallyFlit_nvm]
@[simp] theorem State.calFlit_nvm (s : State) (t : Nat) (a : Nat) (b : List Byte) : (State.calFlit s t a b).nvm = s.nvm := by
  unfold State.calFlit
  dsimp only
  repeat' split
  all_goals simp only [State.modCnv_nvm]
@[simp] theorem State.dacSend_nvm (s : State) (t : Nat) (d : Nat) (b : List Byte) : (State.dacSend s t d b).nvm = s.nvm := by
  unfold State.dacSend
  repeat' split
  all_goals simp only [State.emit_nvm]
@[simp] theorem State.smpFlit_nvm (s : State) (g : Nat) (n : Nat) (f : Option (List Byte)) : (State.smpFlit s g n f).nvm = s.nvm := by
  unfold State.smpFlit
  dsimp only
  repeat' split
  all_goals simp only [State.adcFlit_nvm, State.dacSend_nvm, State.emit_nvm]
@[simp] theorem State.smpNext_nvm (s : State) (g k : Nat) : (s.smpNext g k).nvm = s.nvm := by
  induction k generalizing s with
  | zero => rfl
  | succ k ih =>
    unfold State.smpNext
    dsimp only
    split
    · rfl
    · exact (ih _).trans (State.smpFlit_nvm _ _ _ _)
@[simp] theorem State.smpTake_nvm (s : State) (j : Nat) (f : Option (List Byte)) : (State.smpTake s j f).nvm = s.nvm := by
  unfold State.smpTake
  dsimp only
  all_goals simp only [State.setSub_nvm, State.smpNext_nvm]
@[simp] theorem State.unsend_nvm (s : State) (j : Nat) (q : Nat) : (State.unsend s j q).nvm = s.nvm := by
  unfold State.unsend
  simp only [State.modSnd_nvm]
@[simp] theorem State.ctlTake_nvm (s : State) (j : Nat) (q : Nat) : (State.ctlTake s j q).nvm = s.nvm := by
  unfold State.ctlTake
  repeat' split
  all_goals simp only [State.modSnd_nvm, State.sendCtl_nvm, State.unsend_nvm]
@[simp] theorem State.ctlAgain_nvm (s : State) (j : Nat) (q : Nat) : (State.ctlAgain s j q).nvm = s.nvm := by
  unfold State.ctlAgain
  repeat' split
  all_goals simp only [State.sendCtl_nvm, State.unsend_nvm]
@[simp] theorem State.flitLand_nvm (s : State) (j : Nat) (q : Nat) (type : Nat) (b : List Byte) : (State.flitLand s j q type b).nvm = s.nvm := by
  unfold State.flitLand
  dsimp only
  repeat' split
  all_goals simp only [State.calFlit_nvm, State.ctlTake_nvm, State.emit_nvm, State.smpTake_nvm]
@[simp] theorem State.eraseNote_nvm (s : State) : (State.eraseNote s).nvm = s.nvm := by
  unfold State.eraseNote
  dsimp only
  repeat' split
  all_goals simp only [State.raiseDp_nvm]
@[simp] theorem State.erase_nvm (s : State) (j : Nat) (q : Nat) (type : Nat) : (State.erase s j q type).nvm = s.nvm := by
  unfold State.erase
  dsimp only
  repeat' split
  all_goals simp only [State.ctlAgain_nvm, State.eraseNote_nvm, State.smpTake_nvm, State.subCount_nvm]
@[simp] theorem State.flitOut_nvm (s : State) (j : Nat) (seq : Nat) (type : Nat) (bad : Bool) : (State.flitOut s j seq type bad).nvm = s.nvm := by
  unfold State.flitOut
  dsimp only
  repeat' split
  all_goals simp only [State.erase_nvm, State.flitLand_nvm, State.setSub_nvm]
@[simp] theorem State.adoptRxEn_nvm (old : Word) (new : Word) (s : State) (l : Nat) : (State.adoptRxEn old new s l).nvm = s.nvm := by
  unfold State.adoptRxEn
  repeat' split
  all_goals simp only [State.modFrm_nvm, State.modLn_nvm, State.modRxp_nvm]
@[simp] theorem State.adoptEng_nvm (old : Word) (new : Word) (s : State) (l : Nat) : (State.adoptEng old new s l).nvm = s.nvm := by
  unfold State.adoptEng
  repeat' split
  all_goals simp only [State.modLn_nvm]
@[simp] theorem State.adoptChan_nvm (s : State) (n : Nat) (old : Word) (new : Word) : (State.adoptChan s n old new).nvm = s.nvm := by
  unfold State.adoptChan
  dsimp only
  repeat' split
  all_goals simp only [State.seqReset_nvm, State.setCtx_nvm, State.txStop_nvm]
@[simp] theorem State.adopt_nvm (s : State) (off : Nat) : (State.adopt s off).nvm = s.nvm := by
  unfold State.adopt
  dsimp only
  repeat' split
  all_goals simp only [State.adoptChan_nvm, State.adoptEng_nvm, State.adoptLater_nvm, State.adoptRxEn_nvm, State.loadShadow_nvm, foldl_nvm, implies_true]
@[simp] theorem State.publishHeld_nvm (s : State) (off : Nat) : (State.publishHeld s off).nvm = s.nvm := by
  unfold State.publishHeld
  simp only [State.adoptLater_nvm]
@[simp] theorem State.publishShadow_nvm (s : State) : (State.publishShadow s).nvm = s.nvm := by
  unfold State.publishShadow
  dsimp only
  all_goals simp only [State.adoptIdle_nvm, State.adopt_nvm, State.publishHeld_nvm, State.setFld_nvm, foldl_nvm, implies_true]
@[simp] theorem State.tileIdle_nvm (s : State) (l : Nat) : (State.tileIdle s l).nvm = s.nvm := by
  unfold State.tileIdle
  repeat' split
  all_goals simp only [State.tileAdopt_nvm]
@[simp] theorem State.showFld_nvm (s : State) (p : Fr × Nat) : (State.showFld s p).nvm = s.nvm := by
  unfold State.showFld
  simp only [State.setFld_nvm]
@[simp] theorem State.assistBoundary_nvm (s : State) : (State.assistBoundary s).nvm = s.nvm := by
  unfold State.assistBoundary
  dsimp only
@[simp] theorem State.publishAll_nvm (s : State) : (State.publishAll s).nvm = s.nvm := by
  unfold State.publishAll
  dsimp only
  all_goals simp only [State.assistBoundary_nvm, State.cnvBoundary_nvm, State.ctlMoves_nvm, State.presetBoundary_nvm, State.publishShadow_nvm, State.showFld_nvm, State.tellLanes_nvm, State.tileIdle_nvm, foldl_nvm, implies_true]
@[simp] theorem State.boundary_nvm (s : State) (t : TickIn) : (State.boundary s t).nvm = s.nvm := by
  unfold State.boundary
  simp only [State.clkBoundary_nvm, State.publishAll_nvm, State.publishMoves_nvm, State.timBoundary_nvm]
@[simp] theorem State.clockOnly_nvm (s : State) (t : TickIn) : (State.clockOnly s t).nvm = s.nvm := by
  unfold State.clockOnly
  simp only [State.dpllTick_nvm, State.numStep_nvm, State.secondEnd_nvm, State.setTime_nvm]
@[simp] theorem State.phase1_nvm (s : State) (ctrs : SMap Ctr) : (State.phase1 s ctrs).nvm = s.nvm := by
  unfold State.phase1
  simp only [State.applyPreset_nvm, State.captureSnap_nvm, State.formSnap_nvm, State.winBoundary_nvm, foldl_nvm, implies_true]
@[simp] theorem State.portDown_nvm (s : State) (p : Nat) : (State.portDown s p).nvm = s.nvm := by
  unfold State.portDown
  repeat' split
  all_goals simp only [State.countLevel_nvm]
@[simp] theorem State.hostFec_nvm (s : State) (x : Nat × Nat × Nat) : (State.hostFec s x).nvm = s.nvm := by
  unfold State.hostFec
  repeat' split
  all_goals simp only [State.count_nvm]
@[simp] theorem State.latchLine_nvm (t : TickIn) (s : State) (l : Nat) : (State.latchLine t s l).nvm = s.nvm := by
  unfold State.latchLine
  dsimp only
  all_goals simp only [State.fecTick_nvm, State.frmTick_nvm, State.lcyTick_nvm, State.maskTick_nvm, State.rxpLatch_nvm, State.rxpTick_nvm, State.txpTick_nvm]
@[simp] theorem State.dspLost_nvm (s : State) (l : Nat) (word : Nat) : (State.dspLost s l word).nvm = s.nvm := by
  unfold State.dspLost
  simp only [State.modDsp_nvm, State.raise_nvm]
@[simp] theorem State.unitLost_nvm (s : State) (e : MemErr) : (State.unitLost s e).nvm = s.nvm := by
  unfold State.unitLost
  repeat' split
  all_goals simp only [State.dspLost_nvm, State.scratchLost_nvm, State.setLost_nvm]
@[simp] theorem State.memUnit_nvm (s : State) (a : MemAcc) : (State.memUnit s a).nvm = s.nvm := by
  unfold State.memUnit
  dsimp only
  repeat' split
  all_goals simp only [State.memAcc_nvm, State.unitLost_nvm]
@[simp] theorem State.showErrs_nvm (s : State) : (State.showErrs s).nvm = s.nvm := by
  unfold State.showErrs
  simp only [State.setFld_nvm, foldl_nvm, implies_true]
@[simp] theorem State.phase2_nvm (s : State) (t : TickIn) : (State.phase2 s t).nvm = s.nvm := by
  unfold State.phase2
  dsimp only
  repeat' split
  all_goals simp only [State.hostFec_nvm, State.latchEvent_nvm, State.latchLine_nvm, State.memUnit_nvm, State.pairTick_nvm, State.portDown_nvm, State.setReload_nvm, State.showErrs_nvm, State.showFld_nvm, foldl_nvm, implies_true]
@[simp] theorem State.phase3_nvm (s : State) (t : TickIn) : (State.phase3 s t).nvm = s.nvm := by
  unfold State.phase3
  simp only [State.clkPhase3_nvm, State.timPhase3_nvm]
@[simp] theorem State.clocksStop_nvm (s : State) (l : Nat) : (State.clocksStop s l).nvm = s.nvm := by
  unfold State.clocksStop
  dsimp only
  all_goals simp only [State.dropPlaced_nvm, State.linkStop_nvm, State.publish_nvm, State.raiseDpIf_nvm]
@[simp] theorem State.phase4_nvm (s : State) : (State.phase4 s).nvm = s.nvm := by
  unfold State.phase4
  dsimp only
  repeat' split
  all_goals simp only [State.clocksStop_nvm, State.rimCut_nvm, State.shutdownCheck_nvm, State.thermal_nvm, foldl_nvm, implies_true]
@[simp] theorem State.phase6_nvm (s : State) : (State.phase6 s).nvm = s.nvm := by
  unfold State.phase6
  repeat' split
  all_goals simp only [State.cnvTick_nvm, State.repairRows_nvm]
@[simp] theorem State.commitLate_nvm (s : State) : (State.commitLate s).nvm = s.nvm := by
  unfold State.commitLate
  repeat' split
  all_goals simp only [State.abandonCommit_nvm]
@[simp] theorem State.katDue_nvm (s : State) : (State.katDue s).nvm = s.nvm := by
  unfold State.katDue
  dsimp only
  repeat' split
  all_goals simp only
@[simp] theorem State.phase7_nvm (s : State) : (State.phase7 s).nvm = s.nvm := by
  unfold State.phase7
  dsimp only
  repeat' split
  all_goals simp only [State.commitLate_nvm, State.floTick_nvm, State.katDue_nvm, State.monFollows_nvm, State.nbStale_nvm, State.rimTick_nvm]
@[simp] theorem State.runTick_nvm (s : State) (t : TickIn) : (State.runTick s t).nvm = s.nvm := by
  unfold State.runTick
  dsimp only
  all_goals simp only [State.boundary_nvm, State.phase1_nvm, State.phase2_nvm, State.phase3_nvm, State.phase4_nvm, State.phase5_nvm, State.phase6_nvm, State.phase7_nvm, State.phase8_nvm, State.wraps_nvm]
@[simp] theorem State.overrunTick_nvm (s : State) (t : TickIn) : (State.overrunTick s t).nvm = s.nvm := by
  unfold State.overrunTick
  dsimp only
  all_goals simp only [State.clockOnly_nvm, State.missSnap_nvm, State.raise_nvm, State.setFld_nvm]
@[simp] theorem State.tickStep_nvm (s : State) (t : TickIn) : (State.tickStep s t).nvm = s.nvm := by
  unfold State.tickStep
  dsimp only
  repeat' split
  all_goals simp only [State.overrunTick_nvm, State.repairRows_nvm, State.replaceLanes_nvm, State.runTick_nvm]
@[simp] theorem State.captureOne_nvm (path : Nat) (cyc : Nat) (from_ : Nat) (s : State) (off : Nat) : (State.captureOne path cyc from_ s off).nvm = s.nvm := by
  unfold State.captureOne
  dsimp only
  repeat' split
  all_goals simp only
@[simp] theorem State.readWord_nvm (s : State) (path : Nat) (cyc : Nat) (off : Nat) : (State.readWord s path cyc off).2.nvm = s.nvm := by
  unfold State.readWord
  dsimp only
  all_goals simp only [State.captureOne_nvm, foldl_nvm, implies_true]
@[simp] theorem State.readForm_nvm (s : State) (path : Nat) (cyc : Nat) (form : Form) (off : Nat) : (State.readForm s path cyc form off).2.nvm = s.nvm := by
  unfold State.readForm
  dsimp only
  repeat' split
  all_goals simp only [State.readWord_nvm]
@[simp] theorem State.barRead_nvm (s : State) (form : Form) (off : Nat) (cyc : Nat) : (State.barRead s form off cyc).nvm = s.nvm := by
  unfold State.barRead
  dsimp only
  repeat' split
  all_goals simp only [State.emit_nvm, State.readForm_nvm]
@[simp] theorem State.mirrorDenied_nvm (s : State) (o : Nat) : (State.mirrorDenied s o).nvm = s.nvm := by
  unfold State.mirrorDenied
  dsimp only
  repeat' split
  all_goals simp only [State.emit_nvm, State.raise_nvm, State.setFld_nvm]
@[simp] theorem State.mirrorRead_nvm (s : State) (form : Form) (o : Nat) (cyc : Nat) : (State.mirrorRead s form o cyc).nvm = s.nvm := by
  unfold State.mirrorRead
  dsimp only
  repeat' split
  all_goals simp only [State.emit_nvm, State.mirrorDenied_nvm, State.readForm_nvm]
@[simp] theorem State.reject_nvm (s : State) (off : Nat) (v : Nat) (cause : Nat) : (State.reject s off v cause).nvm = s.nvm := by
  unfold State.reject
  dsimp only
  repeat' split
  all_goals simp only [State.count_nvm, State.raise_nvm, State.setReg_nvm]
@[simp] theorem State.store_nvm (s : State) (off : Nat) (v : Word) : (State.store s off v).nvm = s.nvm := by
  unfold State.store
  dsimp only
  repeat' split
  all_goals simp only [State.dueShadow_nvm, State.overrode_nvm, State.setReg_nvm]
@[simp] theorem State.msixSend_nvm (s : State) (v : Nat) : (State.msixSend s v).nvm = s.nvm := by
  unfold State.msixSend
  dsimp only
  repeat' split
  all_goals simp only [State.msix_nvm, State.setFld_nvm]
@[simp] theorem State.msixFlush_nvm (s : State) : (State.msixFlush s).nvm = s.nvm := by
  unfold State.msixFlush
  simp only [State.msixSend_nvm, foldl_nvm, implies_true]
@[simp] theorem State.lineEffect_nvm (s : State) (o : Nat) (l : Nat) : (State.lineEffect s o l).nvm = s.nvm := by
  unfold State.lineEffect
  repeat' split
  all_goals simp only [State.acqRestart_nvm, State.capArm_nvm, State.flipArm_nvm, State.rxEpochSet_nvm, State.shiftRequest_nvm]
@[simp] theorem State.winClear_nvm (s : State) (w : Nat) : (State.winClear s w).nvm = s.nvm := by
  unfold State.winClear
  simp only [State.setFld_nvm]
@[simp] theorem State.winEffect_nvm (s : State) (off : Nat) (old : Word) : (State.winEffect s off old).nvm = s.nvm := by
  unfold State.winEffect
  dsimp only
  repeat' split
  all_goals simp only [State.setFld_nvm, State.winClear_nvm, State.winPublish_nvm, State.winStart_nvm]
@[simp] theorem State.pmcEffect_nvm (s : State) (off : Nat) (old : Word) : (State.pmcEffect s off old).nvm = s.nvm := by
  unfold State.pmcEffect
  dsimp only
  repeat' split
  all_goals simp only [State.setFld_nvm]
@[simp] theorem rimTake_nvm (n : Nat) (s : State) : (rimTake n s).nvm = s.nvm := by
  induction n generalizing s with
  | zero => rfl
  | succ n ih =>
    unfold rimTake
    dsimp only
    split
    · rfl
    · rw [ih, State.rimRecord_nvm, State.setFld_nvm, State.stRead_nvm]
@[simp] theorem State.coreEffect_nvm (s : State) (off : Nat) : (State.coreEffect s off).nvm = s.nvm := by
  unfold State.coreEffect
  dsimp only
  repeat' split
  all_goals simp only [State.adjArm_nvm, State.calArm_nvm, State.keyLoad_nvm, State.msixSend_nvm, State.rimTraceReq_nvm, State.rimWaves_nvm, State.setFldIf_nvm, State.setFld_nvm, State.setMon_nvm, State.setReg_nvm, rimTake_nvm]
@[simp] theorem State.effect_nvm (s : State) (off : Nat) (old : Word) : (State.effect s off old).nvm = s.nvm := by
  unfold State.effect
  repeat' split
  all_goals simp only [State.coreEffect_nvm, State.lineEffect_nvm, State.pmcEffect_nvm, State.winEffect_nvm]
@[simp] theorem State.rejectToo_nvm (s : State) (form : Form) (off : Nat) (v : Nat) (cause : Nat) : (State.rejectToo s form off v cause).nvm = s.nvm := by
  unfold State.rejectToo
  simp only [State.raiseIf_nvm, foldl_nvm, implies_true]
@[simp] theorem State.barWrite_nvm (s : State) (form : Form) (off : Nat) (v : Nat) : (State.barWrite s form off v).nvm = s.nvm := by
  unfold State.barWrite
  dsimp only
  repeat' split
  all_goals simp only [State.effect_nvm, State.rejectToo_nvm, State.reject_nvm, State.store_nvm, foldl_nvm, implies_true]
@[simp] theorem State.write32_nvm (s : State) (off : Nat) (v : Nat) : (State.write32 s off v).nvm = s.nvm := by
  unfold State.write32
  simp only [State.barWrite_nvm]
@[simp] theorem State.startBit_nvm (s : State) (f : Fr) (v : Nat) : (State.startBit s f v).nvm = s.nvm := by
  unfold State.startBit
  repeat' split
  all_goals simp only [State.write32_nvm]
@[simp] theorem State.urgentConv_nvm (s : State) (v : Nat) (last : Bool) : (State.urgentConv s v last).nvm = s.nvm := by
  unfold State.urgentConv
  dsimp only
  repeat' split
  all_goals simp only [State.startBit_nvm, State.urgent_nvm]
@[simp] theorem State.calSwitch_nvm (s : State) (g : Nat) (v : Nat) (ack : Bool) : (State.calSwitch s g v ack).nvm = s.nvm := by
  unfold State.calSwitch
  dsimp only
  repeat' split
  all_goals simp only [State.latch_nvm, State.raiseDpAt_nvm, State.setFld_nvm, State.startBit_nvm]
@[simp] theorem State.morCopy_nvm (dst idx k : Nat) (rs : List Rd) (s : State) : (State.morCopy dst idx k rs s).1.nvm = s.nvm := by
  induction rs generalizing idx k s with
  | nil => rfl
  | cons r rs ih =>
    unfold State.morCopy
    split
    · rfl
    · rw [ih, State.stWrite_nvm]
@[simp] theorem State.moraineRead_nvm (s : State) (v : Nat) (rs : List Rd) : (State.moraineRead s v rs).nvm = s.nvm := by
  unfold State.moraineRead
  dsimp only
  repeat' split
  all_goals simp only [State.morCopy_nvm, State.raise_nvm, State.rdTimeout_nvm, State.setFld_nvm, State.startBit_nvm]
@[simp] theorem State.framesBad_nvm (s : State) (c : Commit) : (State.framesBad s c).nvm = s.nvm := by
  unfold State.framesBad
  dsimp only
  all_goals simp only [State.raiseAt_nvm, State.raiseIf_nvm, foldl_nvm, implies_true]
@[simp] theorem State.putCal_nvm (s : State) (p : Nat × List Nat) : (State.putCal s p).nvm = s.nvm := by
  unfold State.putCal
  dsimp only
  all_goals simp only [State.setReg_nvm, foldl_nvm, implies_true]
@[simp] theorem loadKeys_nvm (ks : List (Nat × Nat × List Byte)) (done : List Nat) (s : State) : (loadKeys ks done s).2.2.nvm = s.nvm := by
  induction ks generalizing done s with
  | nil => rfl
  | cons k ks ih =>
    unfold loadKeys
    dsimp only
    split
    · rw [ih, State.imageKey_nvm]
    · rfl
@[simp] theorem State.putImage_nvm (s : State) (c : Commit) (v : ImageVals) : (s.putImage c v).2.2.nvm = s.nvm := by
  unfold State.putImage
  dsimp only
  rw [loadKeys_nvm]
  simp only [State.putCal_nvm, foldl_nvm, implies_true]
@[simp] theorem State.prepare_nvm (s : State) (r : Rd) : (State.prepare s r).nvm = s.nvm := by
  unfold State.prepare
  dsimp only
  repeat' split
  all_goals simp only [State.abandonCommit_nvm, State.framesBad_nvm, State.putImage_nvm, State.rdTimeout_nvm, State.setFld_nvm]
@[simp] theorem State.imgEffect_nvm (old s : State) (off : Nat) : (State.imgEffect old s off).nvm = s.nvm := by
  unfold State.imgEffect
  split
  · rfl
  · exact State.effect_nvm _ _ _
@[simp] theorem State.putRimeId_nvm (s : State) (id : Option (List Byte)) : (State.putRimeId s id).nvm = s.nvm := by
  unfold State.putRimeId
  dsimp only
  repeat' split
  all_goals simp only
@[simp] theorem State.layImage_nvm (s : State) (v : ImageVals) (sel : Nat → Fld → Bool) : (State.layImage s v sel).nvm = s.nvm := by
  unfold State.layImage
  dsimp only
  repeat' split
  all_goals simp only [State.imgEffect_nvm, State.layRegs_nvm, State.putRimeId_nvm, State.rimWaves_nvm, foldl_nvm, implies_true]
@[simp] theorem State.idleSides_nvm (c : Commit) (s : State) (l : Nat) : (State.idleSides c s l).nvm = s.nvm := by
  unfold State.idleSides
  dsimp only
  repeat' split
  all_goals simp only [State.applyRx_nvm, State.applyTx_nvm]
@[simp] theorem State.activate_nvm (s : State) : (State.activate s).nvm = s.nvm := by
  unfold State.activate
  dsimp only
  repeat' split
  all_goals simp only [State.applyPendLine_nvm, State.commitBoth_nvm, State.epochStep_nvm, State.idleSides_nvm, State.layImage_nvm, State.monFollows_nvm, State.nbStale_nvm, State.raiseIf_nvm, State.setFld_nvm, foldl_nvm, implies_true, apply_ite State.nvm, ite_self]
@[simp] theorem State.commitDone_nvm (s : State) : (State.commitDone s).nvm = s.nvm := by
  unfold State.commitDone
  dsimp only
  repeat' split
  all_goals simp only [State.markStart_nvm, State.raise_nvm, State.rimAnnounce_nvm, State.setFld_nvm, State.slotRefresh_nvm, State.startHealth_nvm]
@[simp] theorem State.pcieFunction_nvm (s : State) : (State.pcieFunction s).nvm = s.nvm := by
  unfold State.pcieFunction
  dsimp only
  all_goals simp only [State.setReg_nvm, foldl_nvm, implies_true]
@[simp] theorem State.linkGone_nvm (s : State) : (State.linkGone s).nvm = s.nvm := by
  unfold State.linkGone
  simp only [State.setFld_nvm]
@[simp] theorem State.pcieReset_nvm (s : State) (r : PcieRst) : (State.pcieReset s r).nvm = s.nvm := by
  unfold State.pcieReset
  repeat' split
  all_goals simp only [State.count_nvm, State.linkGone_nvm, State.pcieFunction_nvm, State.raise_nvm]
@[simp] theorem State.linkTrained_nvm (s : State) (gen : Nat) (width : Nat) (ssc : Bool) : (State.linkTrained s gen width ssc).nvm = s.nvm := by
  unfold State.linkTrained
  dsimp only
  all_goals simp only [State.setFld_nvm]
@[simp] theorem State.cfgWrite_nvm (s : State) (w : CfgWrite) : (State.cfgWrite s w).nvm = s.nvm := by
  unfold State.cfgWrite
  dsimp only
  repeat' split
  all_goals simp only [State.emit_nvm, State.msixFlush_nvm]
@[simp] theorem State.unmask_nvm (s : State) (u : Unmask) : (State.unmask s u).nvm = s.nvm := by
  unfold State.unmask
  repeat' split
  all_goals simp only [State.cfgWrite_nvm, State.write32_nvm]
@[simp] theorem State.smbAnswer_nvm (s : State) (cmd : Nat) (bs : List Byte) (pec : Bool) : (State.smbAnswer s cmd bs pec).nvm = s.nvm := by
  unfold State.smbAnswer
  repeat' split
  all_goals simp only [State.emit_nvm]
@[simp] theorem State.pageBytes_nvm (s : State) (c : Nat) (n : Nat) : (State.pageBytes s c n).2.nvm = s.nvm := by
  unfold State.pageBytes
  refine foldl_snd_nvm _ _ _ (fun b x => ?_)
  dsimp only
  split <;> rfl
@[simp] theorem State.smbRead_nvm (s : State) (c : Nat) (n : Nat) (pec : Bool) : (State.smbRead s c n pec).nvm = s.nvm := by
  unfold State.smbRead
  dsimp only
  all_goals simp only [State.pageBytes_nvm, State.smbAnswer_nvm]
@[simp] theorem State.portLink_nvm (s : State) (p : Nat) (up : Bool) (pcs : Bool) (fec : Bool) (lt : Bool) : (State.portLink s p up pcs fec lt).nvm = s.nvm := by
  unfold State.portLink
  dsimp only
  repeat' split
  all_goals simp only [State.count_nvm, State.latch_nvm, State.raiseDpAt_nvm]
@[simp] theorem State.groupLock_nvm (s : State) (g : Nat) (lock : Bool) (match_ : Bool) : (State.groupLock s g lock match_).nvm = s.nvm := by
  unfold State.groupLock
  dsimp only
  repeat' split
  all_goals simp only [State.latch_nvm, State.raiseDpAt_nvm]
@[simp] theorem State.lineStart_nvm (s : State) (l : Nat) : (State.lineStart s l).nvm = s.nvm := by
  unfold State.lineStart
  simp only [State.modFrm_nvm, State.modLn_nvm, State.setFld_nvm, State.sweepLine_nvm]
@[simp] theorem State.bringUp_nvm (s : State) (l : Nat) : (State.bringUp s l).nvm = s.nvm := by
  unfold State.bringUp
  dsimp only
  all_goals simp only [State.adoptAll_nvm, State.modFrm_nvm, State.modLn_nvm, State.modRxp_nvm, State.setFld_nvm]
@[simp] theorem State.lineEnable_nvm (s : State) (l : Nat) : (State.lineEnable s l).nvm = s.nvm := by
  unfold State.lineEnable
  repeat' split
  all_goals simp only [State.lineStart_nvm]
@[simp] theorem State.tileCheck_nvm (s : State) (l : Nat) : (State.tileCheck s l).nvm = s.nvm := by
  unfold State.tileCheck
  repeat' split
  all_goals simp only [State.bringUp_nvm, State.modCnv_nvm, State.raise_nvm, State.tileReturn_nvm]
@[simp] theorem State.trainOne_nvm (s : State) (d : Nat) (x : TrainIn) : (State.trainOne s d x).nvm = s.nvm := by
  unfold State.trainOne
  dsimp only
  repeat' split
  all_goals simp only [State.modLn_nvm, State.setFld_nvm, State.trainDir_nvm]
@[simp] theorem State.linkTraining_nvm (s : State) (d : Nat) (x : TrainIn) : (State.linkTraining s d x).nvm = s.nvm := by
  unfold State.linkTraining
  repeat' split
  all_goals simp only [State.tileCheck_nvm, State.trainOne_nvm]
@[simp] theorem State.fgCal_nvm (s : State) (l : Nat) (x : FgIn) : (State.fgCal s l x).nvm = s.nvm := by
  unfold State.fgCal
  dsimp only
  repeat' split
  all_goals simp only [State.bringUp_nvm, State.foreground_nvm, State.modCnv_nvm]
@[simp] theorem State.lineDisable_nvm (s : State) (l : Nat) : (State.lineDisable s l).nvm = s.nvm := by
  unfold State.lineDisable
  dsimp only
  repeat' split
  all_goals simp only [State.cnvStop_nvm, State.linkStop_nvm, State.modLn_nvm, State.modRxp_nvm, State.setDacZero_nvm, State.setFld_nvm, State.setMute_nvm, State.subDown_nvm]
@[simp] theorem State.stepDone_nvm (s : State) (n : Nat) : (State.stepDone s n).nvm = s.nvm := by
  unfold State.stepDone
  dsimp only
  all_goals simp only [State.setFld_nvm]
@[simp] theorem State.bootFuses_nvm (s : State) (f : Fuses) : (State.bootFuses s f).nvm = s.nvm := by
  unfold State.bootFuses
  dsimp only
  repeat' split
  all_goals simp only [State.setFld_nvm, State.setKey_nvm, State.setReg64_nvm, State.stepDone_nvm]
@[simp] theorem State.epochHigh_nvm (s : State) : (State.epochHigh s).nvm = s.nvm := by
  unfold State.epochHigh
  dsimp only
  all_goals simp only [State.setFld_nvm]
@[simp] theorem State.slotRead_nvm (s : State) (k : Nat) (r : Rd) : (State.slotRead s k r).nvm = s.nvm := by
  unfold State.slotRead
  dsimp only
  repeat' split
  all_goals simp only [State.rdTimeout_nvm, State.slotRefresh_nvm]
@[simp] theorem State.bootNvm_nvm (s : State) (x : Sfdp) (h0 : Rd) (h1 : Rd) (slots : List Rd) (epoch : Rd) : (State.bootNvm s x h0 h1 slots epoch).nvm = s.nvm := by
  unfold State.bootNvm
  dsimp only
  repeat' split
  all_goals simp only [State.epochHigh_nvm, State.rdTimeout_nvm, State.setFld_nvm, State.slotRead_nvm, State.stepDone_nvm, foldl_nvm, implies_true]
@[simp] theorem State.imageBad_nvm (s : State) (k : Nat) (cause : Nat) : (State.imageBad s k cause).nvm = s.nvm := by
  unfold State.imageBad
  dsimp only
  all_goals simp only [State.markStart_nvm, State.queueRec_nvm, State.raiseOwn_nvm]
@[simp] theorem State.enterSafe_nvm (s : State) : (State.enterSafe s).nvm = s.nvm := by
  unfold State.enterSafe
  dsimp only
  all_goals simp only [State.queueRec_nvm, State.raiseOwn_nvm, State.setFld_nvm, State.setMute_nvm, foldl_nvm, implies_true]
@[simp] theorem State.bootKey_nvm (s : State) (k : Nat × Nat × List Byte) : (State.bootKey s k).nvm = s.nvm := by
  unfold State.bootKey
  simp only [State.imageKey_nvm]
@[simp] theorem State.bootCal_nvm (s : State) (p : Nat × List Nat) : (State.bootCal s p).nvm = s.nvm := by
  unfold State.bootCal
  simp only [State.setReg_nvm, foldl_nvm, implies_true]
@[simp] theorem State.applyImage_nvm (s : State) (k : Nat) (v : ImageVals) : (State.applyImage s k v).nvm = s.nvm := by
  unfold State.applyImage
  dsimp only
  all_goals simp only [State.bootCal_nvm, State.bootKey_nvm, State.layImage_nvm, State.rimWaves_nvm, State.setFld_nvm, State.slotRefresh_nvm, foldl_nvm, implies_true]
@[simp] theorem State.bootApply_nvm (s : State) (rs : List Rd) : (State.bootApply s rs).nvm = s.nvm := by
  unfold State.bootApply
  dsimp only
  repeat' split
  all_goals simp only [State.applyImage_nvm, State.imageBad_nvm, State.raise_nvm, State.setFld_nvm, State.stepDone_nvm]
@[simp] theorem State.oldLane_nvm (s : State) (k : Nat) (st : Nat) : (State.oldLane s k st).nvm = s.nvm := by
  unfold State.oldLane
  dsimp only
  repeat' split
  all_goals simp only [State.setFld_nvm]
@[simp] theorem State.fuseLane_nvm (s : State) (k : Nat) : (State.fuseLane s k).nvm = s.nvm := by
  unfold State.fuseLane
  repeat' split
  all_goals simp only [State.oldLane_nvm, State.setFld_nvm]
@[simp] theorem State.oldRow_nvm (s : State) (inst : Nat) (row : Nat) (spare : Nat) (st : Nat) : (State.oldRow s inst row spare st).nvm = s.nvm := by
  unfold State.oldRow
  dsimp only
@[simp] theorem State.oldMove_nvm (cur : List (Nat × Nat × List Byte)) (s : State) (e : Nat × Nat × List Byte) : (State.oldMove cur s e).nvm = s.nvm := by
  unfold State.oldMove
  dsimp only
  repeat' split
  all_goals simp only [State.logRow_nvm, State.oldRow_nvm, State.raiseAt_nvm]
@[simp] theorem State.oldRepair_nvm (s : State) (e : Nat × Nat × List Byte) : (State.oldRepair s e).nvm = s.nvm := by
  unfold State.oldRepair
  dsimp only
  repeat' split
  all_goals simp only [State.modCnv_nvm, State.modLcy_nvm, State.oldLane_nvm, State.setFld_nvm]
@[simp] theorem State.fuseRow_nvm (s : State) (p : Nat × Nat) : (State.fuseRow s p).nvm = s.nvm := by
  unfold State.fuseRow
  repeat' split
  all_goals simp only [State.oldRow_nvm]
@[simp] theorem State.bootTrain_nvm (ts : List TrainIn) (s : State) (l : Nat) : (State.bootTrain ts s l).nvm = s.nvm := by
  unfold State.bootTrain
  dsimp only
  repeat' split
  all_goals simp only [State.modLn_nvm, State.setFld_nvm, State.trainOne_nvm]
@[simp] theorem State.bootCal6_nvm (s : State) (l : Nat) (sets : Rd) (x : FgIn) : (State.bootCal6 s l sets x).nvm = s.nvm := by
  unfold State.bootCal6
  dsimp only
  repeat' split
  all_goals simp only [State.foreground_nvm, State.setsRead_nvm]
@[simp] theorem State.bootMoraine_nvm (s : State) (r : Rd) : (State.bootMoraine s r).nvm = s.nvm := by
  unfold State.bootMoraine
  dsimp only
  repeat' split
  all_goals simp only [State.morRead_nvm, State.setFld_nvm]
@[simp] theorem State.bootLines_nvm (s : State) : (State.bootLines s).nvm = s.nvm := by
  unfold State.bootLines
  dsimp only
  repeat' split
  all_goals simp only [State.alarm_nvm, State.bringUp_nvm, State.raise_nvm, State.rimAnnounce_nvm, State.startHealth_nvm, foldl_nvm, implies_true, apply_ite State.nvm, ite_self]
@[simp] theorem State.bootLast_nvm (s : State) : (State.bootLast s).nvm = s.nvm := by
  unfold State.bootLast
  dsimp only
  repeat' split
  all_goals simp only [State.bootLines_nvm, State.queueFirst_nvm, State.setReg_nvm, State.stepDone_nvm]
end Sys2Proof.Machine
end

