-- ==== Sys2Proof/Laws/NvmOps.lean ====
section
/-! SUPPORT. Every operation that programs or erases NVM keeps the NVM in order. -/

namespace Sys2Proof.Machine

open Sys2Proof

theorem nvmIn_program (m : SMap Byte) (a : Nat) (bs : List Byte) (h : NvmIn m) (hb : a + bs.length ≤ 0x4000000) : NvmIn (nvmProgram m a bs) := by
  induction bs generalizing m a with
  | nil => exact h
  | cons b bs ih =>
    rw [List.length_cons] at hb
    refine ih _ (a + 1) ⟨SMap.wf_set _ _ _ _ h.wf, fun p hp => ?_⟩ (by omega)
    obtain he | hm := SMap.mem_set hp
    · rw [he]
      show a < 0x4000000
      omega
    · exact h.inside p hm

theorem nvmIn_take (m : SMap Byte) (a n : Nat) (bs : List Byte) (h : NvmIn m) (hb : a + bs.length ≤ 0x4000000) :
    NvmIn (nvmProgram m a (bs.take n)) := by
  refine nvmIn_program m a _ h ?_
  rw [List.length_take]
  omega

theorem nvmIn_erase (m : SMap Byte) (a n : Nat) (h : NvmIn m) : NvmIn (nvmErase m a n) :=
  ⟨SMap.wf_filter _ _ _ h.wf, fun p hp => h.inside p (List.mem_of_mem_filter hp)⟩

theorem nvmWrite_ok (s : State) (a : Nat) (bs : List Byte) (p : Pg) (h : NvmIn s.nvm) (hb : a + bs.length ≤ 0x4000000) :
    NvmIn (s.nvmWrite a bs p).1.nvm := by
  unfold State.nvmWrite
  split
  · exact nvmIn_program _ _ _ h hb
  · exact nvmIn_take _ _ _ _ h hb
  · rw [State.raise_nvm]; exact nvmIn_take _ _ _ _ h hb

theorem nvmWipe_ok (s : State) (a n : Nat) (p : Pg) (h : NvmIn s.nvm) : NvmIn (s.nvmWipe a n p).1.nvm := by
  unfold State.nvmWipe
  split
  · exact nvmIn_erase _ _ _ h
  · exact h
  · rw [State.raise_nvm]; exact h

theorem eraseSlot_ok (s : State) (k : Nat) (p : Pg) (h : NvmIn s.nvm) : NvmIn (s.eraseSlot k p).nvm := by
  unfold State.eraseSlot
  split
  · exact nvmIn_erase _ _ _ h
  · exact nvmIn_erase _ _ _ h
  · rw [State.raise_nvm]; exact nvmIn_erase _ _ _ h

theorem resetTo_nvm (s : State) (c : Nat) : (s.resetTo c).nvm = s.nvm := by
  unfold State.resetTo; rw [State.setFld_nvm]

@[simp] theorem length_leBytes (n v : Nat) : (leBytes n v).length = n := by
  induction n generalizing v with
  | zero => rfl
  | succ n ih => unfold leBytes; rw [List.length_cons, ih]

@[simp] theorem length_padTo (n : Nat) (bs : List Byte) : (padTo n bs).length = n := by
  unfold padTo; simp; omega

theorem morBytes_length (q : Nat) (r : MorRec) : (morBytes q r).length = 64 := by
  unfold morBytes; simp

theorem getBits_le (w : Word) (hi lo : Nat) : getBits w hi lo < 2 ^ (hi + 1 - lo) := Nat.mod_lt _ (by positivity)

theorem morErase_ok (s : State) (i : Nat) (e : Pg) (h : NvmIn s.nvm) : NvmIn (s.morErase i e).nvm := by
  unfold State.morErase
  split
  · exact nvmWipe_ok _ _ _ _ h
  · exact h

theorem morWrite_ok (s : State) (p : Pg) (back : Bool) (e : Pg) (h : NvmIn s.nvm) : NvmIn (s.morWrite p back e).nvm := by
  unfold State.morWrite
  split
  · split
    · exact h
    · next r hr =>
      extract_lets i seq bs w
      have hi : i < 65536 := getBits_le _ 15 0
      have hw : NvmIn w.1.nvm := nvmWrite_ok _ _ _ _ h (by rw [morBytes_length]; unfold morBase; omega)
      refine morErase_ok _ _ _ ?_
      rw [State.morEnd_nvm]
      exact hw
  · exact h

theorem epochFree_lt (s : State) (a i : Nat) (h : s.epochFree a = some i) : i < 16384 := by
  unfold State.epochFree at h
  have := List.mem_of_find?_eq_some h
  rw [List.mem_map] at this
  obtain ⟨d, _, he⟩ := this
  omega

theorem epochRoom_ok (s : State) (a k : Nat) (er : Pg) (h : NvmIn s.nvm) :
    NvmIn (s.epochRoom a k er).1.nvm ∧ ∀ i, (s.epochRoom a k er).2.2 = some i → i < 16384 := by
  unfold State.epochRoom
  split
  · next i hi => exact ⟨h, fun j hj => by cases hj; exact epochFree_lt _ _ _ hi⟩
  · refine ⟨nvmWipe_ok _ _ _ _ h, fun j hj => ?_⟩
    extract_lets w at hj
    dsimp only at hj
    split at hj
    · exact epochFree_lt _ _ _ hj
    · cases hj

theorem epochTries_nil (bs : List Byte) (a k n : Nat) (l : Option Nat) (s : State) : epochTries bs [] a k n l s = (s, .failed l n) := rfl

theorem epochTries_cons (bs : List Byte) (t : Pg × Bool × Pg) (ts : List (Pg × Bool × Pg)) (a k n : Nat) (l : Option Nat) (s : State) :
    epochTries bs (t :: ts) a k n l s =
      (let r := s.epochRoom a k t.2.2
       match r.2.2 with
       | some i =>
         let w := r.1.epochPut i bs t.1 t.2.1
         if w.2 then (w.1, .written i (n + 1)) else epochTries bs ts (epochNext i) (epochSec i) (n + 1) (some i) w.1
       | none => (r.1, if r.2.1 then .failed l n else .eraseFailed k n)) := rfl

theorem epochTries_ok (bs : List Byte) (hb : bs.length = 16) (ts : List (Pg × Bool × Pg)) (a k n : Nat) (l : Option Nat) (s : State)
    (h : NvmIn s.nvm) : NvmIn (epochTries bs ts a k n l s).1.nvm := by
  induction ts generalizing a k n l s with
  | nil => rw [epochTries_nil]; exact h
  | cons t ts ih =>
    rw [epochTries_cons]
    extract_lets r
    have hr := epochRoom_ok s a k t.2.2 h
    split
    · next i hi =>
      have hi' : i < 16384 := hr.2 i hi
      extract_lets w
      have hw : NvmIn w.1.nvm := nvmWrite_ok _ _ _ _ hr.1 (by rw [hb]; unfold epochBase; omega)
      split
      · exact hw
      · exact ih _ _ _ _ _ hw
    · exact hr.1

theorem epochAhead_ok (s : State) (i : Nat) (p : Pg) (h : NvmIn s.nvm) : NvmIn (s.epochAhead i p).nvm := by
  unfold State.epochAhead
  extract_lets k w
  have hw : NvmIn w.1.nvm := nvmWipe_ok _ _ _ _ h
  split
  · split
    · exact hw
    · rw [State.queueRec_nvm]; exact hw
  · exact h

theorem epochRun_ok (s : State) (ts : List (Pg × Bool × Pg)) (p : Pg) (h : NvmIn s.nvm) : NvmIn (s.epochRun ts p).nvm := by
  unfold State.epochRun
  extract_lets e ref at_ sec r
  have hr : NvmIn r.1.nvm := epochTries_ok _ (by unfold epochRec; simp) _ _ _ _ _ _ h
  clear_value e
  split
  · rw [State.queueRec_nvm, State.setFld_nvm]; exact h
  · split
    · exact epochAhead_ok _ _ _ (by rw [State.epochWon_nvm]; exact hr)
    · rw [State.epochLost_nvm]; exact hr
    · rw [State.epochLost_nvm]; exact hr

theorem markWrite_ok (s : State) (k kind cause : Nat) (p : Pg) (h : NvmIn s.nvm) : NvmIn (s.markWrite k kind cause p).1.nvm := by
  unfold State.markWrite
  extract_lets m w
  have hm : m.1 + m.2.length ≤ 64 := by
    show (markerBytes kind cause).1 + (markerBytes kind cause).2.length ≤ 64
    unfold markerBytes
    split <;> simp
  have hw : NvmIn w.1.nvm := nvmWrite_ok _ _ _ _ h (by unfold markAddr slotBase; have := Nat.mod_lt k (show 0 < 4 by decide); omega)
  have e : ((w.1.raiseIf (!w.2) Reg.CFG_EVENT.MARKER_FAIL).slotRefresh k).nvm = w.1.nvm :=
    (State.slotRefresh_nvm _ _).trans (State.raiseIf_nvm _ _ _)
  clear_value w
  rw [e]
  exact hw

theorem markDone_ok (s : State) (p : Pg) (h : NvmIn s.nvm) : NvmIn (s.markDone p).nvm := by
  unfold State.markDone
  split
  · exact h
  · split
    · exact h
    · next j hj =>
      extract_lets w ms
      have hw : NvmIn w.1.nvm := markWrite_ok s j.slot j.kind j.cause p h
      clear_value ms w
      exact hw

theorem mapWrite_ok (s : State) (p : Pg) (h : NvmIn s.nvm) : NvmIn (s.mapWrite p).nvm := by
  unfold State.mapWrite
  split
  · exact h
  · split
    · exact h
    · split
      · rw [State.raise_nvm]; exact h
      · next hn =>
        extract_lets b bs w q
        have hw : NvmIn w.1.nvm := nvmWrite_ok _ _ _ _ h (by simp [bs, b, mapAddr]; omega)
        split
        · exact hw
        · rw [State.raise_nvm]; exact hw

theorem length_flatMap_const {α : Type} (xs : List α) (f : α → List Byte) (n : Nat) (h : ∀ x, (f x).length = n) :
    (xs.flatMap f).length = n * xs.length := by
  induction xs with
  | nil => rfl
  | cons x xs ih => rw [List.flatMap_cons, List.length_append, ih, h, List.length_cons]; ring

theorem setBytes_length (x : CalSet) (l k q d : Nat) : (setBytes x l k q d).length = 4096 := by
  unfold setBytes
  extract_lets unit dac b
  have hu : ∀ i, (unit i).length = 6 := fun i => by simp [unit]
  have hd : ∀ i, (dac i).length = 128 := fun i => by
    simp only [dac, List.length_append, List.length_replicate]
    rw [length_flatMap_const _ _ 1 (fun i => length_leBytes _ _), List.length_range]
  simp only [b, List.length_append, length_leBytes, List.length_replicate, length_flatMap_const _ _ _ hu, length_flatMap_const _ _ _ hd,
    length_flatMap_const _ _ 1 (fun i => length_leBytes _ _), List.length_range, List.length_cons, List.length_nil]

theorem setWrite_ok (s : State) (l : Nat) (e p : Pg) (r : Rd) (h : NvmIn s.nvm) : NvmIn (s.setWrite l e p r).nvm := by
  unfold State.setWrite
  extract_lets c early
  split
  · exact h
  · next k rest hk =>
    split
    · exact h
    · split
      · exact h
      · next hg =>
        rw [not_or, not_or] at hg
        extract_lets q copy seq bs w w2 ok
        have hc : copy ≤ 1 := by
          by_cases hq : q = 0
          · rw [show copy = _ from if_pos hq]; decide
          · rw [show copy = _ from if_neg hq]; exact Nat.sub_le _ _
        have hw : NvmIn w.1.nvm := nvmWipe_ok _ _ _ _ ((State.modCnv_nvm s l _).symm ▸ h)
        have h2 : NvmIn w2.1.nvm := by
          by_cases h0 : w.2 = true
          · rw [show w2 = _ from if_pos h0]
            refine nvmWrite_ok _ _ _ _ hw ?_
            rw [setBytes_length]
            unfold setAddr
            omega
          · rw [show w2 = _ from if_neg h0]; exact hw
        rw [State.setEnd_nvm, State.rdTimeout_nvm]
        exact h2

theorem stRead_len (s : State) (a n : Nat) : (s.stRead a n).1.length ≤ n := by
  unfold State.stRead
  extract_lets r
  show ((r.1.drop (a % 4)).take n).length ≤ n
  rw [List.length_take]
  exact Nat.min_le_left _ _

theorem writePages_ok (n src dst len : Nat) (bud : Option Nat) (s : State) (h : NvmIn s.nvm) (hb : dst + len ≤ 0x4000000) :
    NvmIn (State.writePages n src dst len bud s).1.nvm := by
  induction n generalizing src dst len bud s with
  | zero => unfold State.writePages; exact h
  | succ n ih =>
    unfold State.writePages
    split
    · exact h
    · extract_lets m d
      have hm : m ≤ len := Nat.min_le_left _ _
      have hd : d.1.length ≤ m := stRead_len _ _ _
      have h2 : d.2.2.nvm = s.nvm := State.stRead_nvm _ _ _
      clear_value d m
      split
      · exact h2 ▸ h
      · split
        · exact ih _ _ _ _ _ (nvmIn_program _ _ _ h (by omega)) (by omega)
        · split
          · exact nvmIn_take _ _ _ _ h (by omega)
          · exact ih _ _ _ _ _ (nvmIn_program _ _ _ h (by omega)) (by omega)

theorem doErase_ok (s : State) (p : Pg) (h : NvmIn s.nvm) : NvmIn (s.doErase p).nvm := by
  unfold State.doErase
  split
  · exact h
  · extract_lets k b s1
    split
    · rw [State.cmdEnd_nvm]; exact h
    · have h1 : s1.nvm = s.nvm := by
        by_cases hc : Pg.code p = 0
        · rw [show s1 = _ from if_pos hc]
        · rw [show s1 = _ from if_neg hc]
      rw [State.cmdEnd_nvm, State.slotRefresh_nvm]
      exact eraseSlot_ok _ _ _ (h1.symm ▸ h)

theorem doWrite_ok (s : State) (p : Pg) (r : Rd) (h : NvmIn s.nvm) : NvmIn (s.doWrite p r).nvm := by
  unfold State.doWrite
  split
  · exact h
  · extract_lets k src dst len w want
    split
    · rw [State.cmdEnd_nvm]; exact h
    · split
      · rw [State.cmdEnd_nvm]; exact h
      · next hg =>
        rw [not_or] at hg
        have hk : k < 4 := getBits_le _ _ _
        have hw : NvmIn w.1.nvm := writePages_ok _ _ _ _ _ _ h (by unfold imageBase slotBase; unfold imageRegion at hg; omega)
        clear_value w
        split
        · rw [State.cmdEnd_nvm, State.slotRefresh_nvm]; exact hw
        · split
          · rw [State.cmdEnd_nvm, State.slotRefresh_nvm, State.raiseIf_nvm]; exact hw
          · split
            · rw [State.cmdEnd_nvm, State.slotRefresh_nvm, State.rdTimeout_nvm]; exact hw
            · rw [State.cmdEnd_nvm, State.slotRefresh_nvm]; exact hw

theorem doVerify_ok (s : State) (r : Rd) (p : Pg) (h : NvmIn s.nvm) : NvmIn (s.doVerify r p).nvm := by
  unfold State.doVerify
  split
  · exact h
  · extract_lets k j s1 w
    have h1 : NvmIn s1.nvm := (State.rdTimeout_nvm s r).symm ▸ h
    have hw : NvmIn w.1.nvm := markWrite_ok _ _ _ _ _ h1
    clear_value w s1 j
    split
    · rw [State.cmdEnd_nvm]; exact h
    · split
      · exact h
      · split
        · rw [State.cmdEnd_nvm, State.slotRefresh_nvm]; exact h1
        · rw [State.cmdEnd_nvm]; exact hw

theorem doInstall_ok (s : State) (p : Pg) (h : NvmIn s.nvm) : NvmIn (s.doInstall p).nvm := by
  unfold State.doInstall
  split
  · exact h
  · extract_lets k
    split
    · rw [State.cmdEnd_nvm]; exact h
    · split
      · rw [State.cmdEnd_nvm]; exact h
      · rw [State.cmdEnd_nvm]; exact markWrite_ok _ _ _ _ _ h

theorem doMarkBad_ok (s : State) (p : Pg) (h : NvmIn s.nvm) : NvmIn (s.doMarkBad p).nvm := by
  unfold State.doMarkBad
  split
  · exact h
  · extract_lets k
    split
    · rw [State.cmdEnd_nvm]; exact h
    · rw [State.cmdEnd_nvm]; exact markWrite_ok _ _ _ _ _ h

theorem doRaiseMin_ok (s : State) (e p : Pg) (r : Rd) (h : NvmIn s.nvm) : NvmIn (s.doRaiseMin e p r).nvm := by
  unfold State.doRaiseMin
  split
  · exact h
  · split
    · rw [State.cmdEnd_nvm]; exact h
    · extract_lets tgt bs w w2 s1 src s2
      have hl : bs.length = 64 := by show (bootHeader _ _).length = 64; unfold bootHeader; simp
      have ht : tgt.1 ≤ 1 := by
        show (match s.boot.hdr with | some (c, q) => (1 - c, (q + 1) % 2 ^ 32) | none => (0, 1)).1 ≤ 1
        split
        · exact Nat.sub_le _ _
        · decide
      have hw : NvmIn w.1.nvm := nvmWipe_ok _ _ _ _ h
      have hw2 : NvmIn w2.1.nvm := nvmWrite_ok _ _ _ _ hw (by rw [hl]; omega)
      clear_value bs tgt w w2
      split
      · rw [State.cmdEnd_nvm]; exact hw
      · split
        · rw [State.cmdEnd_nvm]; exact hw2
        · split
          · rw [State.cmdEnd_nvm, State.rdTimeout_nvm]; exact hw2
          · split
            · have h1 : s1.nvm = w2.1.nvm := (State.setFld_nvm _ _ _).trans (State.setFld_nvm _ _ _)
              have h2 : s2.nvm = s1.nvm := rfl
              clear_value s2 s1
              rw [State.cmdEnd_nvm, foldl_nvm _ _ _ (fun a x => State.slotRefresh_nvm a x), h2, h1]
              exact hw2
            · rw [State.cmdEnd_nvm]; exact hw2

theorem epochRetry_ok (s : State) (v : Nat) (r : Rd) (ts : List (Pg × Bool × Pg)) (p : Pg) (h : NvmIn s.nvm) : NvmIn (s.epochRetry v r ts p).nvm := by
  unfold State.epochRetry
  extract_lets s1 s2
  have h1 : NvmIn s1.nvm := (State.startBit_nvm s _ _).symm ▸ h
  have h2 : NvmIn s2.nvm := by
    by_cases hr : Rd.code r = 0
    · rw [show s2 = _ from if_pos hr]; exact epochRun_ok _ _ _ h1
    · rw [show s2 = _ from if_neg hr, State.epochReadFailed_nvm, State.rdTimeout_nvm]; exact h1
  clear_value s2 s1
  split
  · exact h1
  · rw [State.setFld_nvm]; exact h2

theorem bootEpoch_ok (s : State) (r : Rd) (ts : List (Pg × Bool × Pg)) (p : Pg) (h : NvmIn s.nvm) : NvmIn (s.bootEpoch r ts p).nvm := by
  unfold State.bootEpoch
  split
  · exact epochRun_ok _ _ _ h
  · split
    · exact epochRun_ok _ _ _ (by rw [State.epochHigh_nvm]; exact h)
    · rw [State.epochReadFailed_nvm, State.rdTimeout_nvm]; exact h

theorem bootCalib_ok (s : State) (c : Rd) (a b : FgIn) (r : Rd) (ts : List (Pg × Bool × Pg)) (p : Pg) (m : Rd) (h : NvmIn s.nvm) :
    NvmIn (s.bootCalib c a b r ts p m).nvm := by
  unfold State.bootCalib
  split
  · exact h
  · extract_lets s1
    have h1 : NvmIn s1.nvm := by
      by_cases hs : s.safe = true
      · rw [show s1 = _ from if_pos hs]; exact h
      · rw [show s1 = _ from if_neg hs]; exact bootEpoch_ok _ _ _ _ (by rw [State.bootCal6_nvm, State.bootCal6_nvm]; exact h)
    clear_value s1
    rw [State.stepDone_nvm, State.bootMoraine_nvm]
    exact h1

theorem readLog_ok (s : State) (r : Rd) (e p : Pg) (h : NvmIn s.nvm) : NvmIn (s.readLog r e p).nvm := by
  unfold State.readLog
  extract_lets s1 w hd m1 m2 m3 cur s3
  have h1 : NvmIn s1.nvm := (State.rdTimeout_nvm s r).symm ▸ h
  have h2 : NvmIn w.1.nvm := nvmWipe_ok _ _ _ _ h1
  clear_value w
  split
  · exact h1
  · split
    · split
      · exact nvmWrite_ok _ _ _ _ h2 (by simp [hd, logBase])
      · exact h2
    · show NvmIn s3.nvm
      rw [show s3.nvm = s1.nvm from (foldl_nvm _ _ _ (fun a x => State.oldRepair_nvm a x)).trans (foldl_nvm _ _ _ (fun a x => State.oldMove_nvm _ a x))]
      exact h1

theorem bootRepair_ok (s : State) (r : Rd) (e p : Pg) (ts : List TrainIn) (h : NvmIn s.nvm) : NvmIn (s.bootRepair r e p ts).nvm := by
  unfold State.bootRepair
  split
  · exact h
  · extract_lets s1 s2 s3 s4
    have h1 : NvmIn s1.nvm := by
      rw [show s1.nvm = _ from (foldl_nvm _ _ _ (fun a x => State.fuseRow_nvm a x)).trans (foldl_nvm _ _ _ (fun a x => State.fuseLane_nvm a x))]
      exact h
    have h2 : NvmIn s2.nvm := by
      rw [show s2.nvm = _ from State.sweep_nvm _]; exact readLog_ok _ _ _ _ h1
    have h3 : s3.nvm = s2.nvm := foldl_nvm _ _ _ (fun a x => State.checkRowPool_nvm a x)
    have h4 : s4.nvm = s3.nvm := (State.d2dPool_nvm _).trans ((State.cnvPool_nvm _ _).trans (State.cnvPool_nvm _ _))
    clear_value s4 s3 s2
    rw [State.stepDone_nvm]
    split
    · rw [h4, h3]; exact h2
    · rw [foldl_nvm _ _ _ (fun a x => State.bootTrain_nvm _ a x), h4, h3]; exact h2

theorem consume_ok (as : List Nat) (ps : List Pg) (s : State) (ha : ∀ a ∈ as, a < 0x4000000) (h : NvmIn s.nvm) :
    NvmIn (consume as ps s).1.nvm := by
  induction as generalizing ps s with
  | nil => exact h
  | cons a as ih =>
    unfold consume
    extract_lets w
    have hw : NvmIn w.1.nvm := nvmWrite_ok _ _ _ _ h (ha a List.mem_cons_self)
    clear_value w
    split
    · exact hw
    · exact ih _ _ (fun x hx => ha x (List.mem_cons_of_mem _ hx)) ((State.raise_nvm _ _).symm ▸ hw)

theorem bestSlot_lt (s : State) (p : Nat → Bool) (k : Nat) (h : s.bestSlot p = some k) : k < 4 := by
  unfold State.bestSlot at h
  have key : ∀ (xs : List Nat) (b : Option Nat), (∀ x ∈ xs, x < 4) → (∀ j, b = some j → j < 4) → ∀ k, xs.foldl (fun b k => match b with
    | none => some k
    | some j => if imgVer (s.slotHeader j) < imgVer (s.slotHeader k) then some k else some j) b = some k → k < 4 := by
    intro xs
    induction xs with
    | nil => intro b _ hb k hk; exact hb k hk
    | cons x xs ih =>
      intro b hx hb k hk
      refine ih _ (fun y hy => hx y (List.mem_cons_of_mem _ hy)) ?_ k hk
      intro j hj
      cases b with
      | none => cases hj; exact hx _ List.mem_cons_self
      | some i =>
        dsimp only at hj
        split at hj
        · cases hj; exact hx _ List.mem_cons_self
        · cases hj; exact hb _ rfl
  exact key _ none (fun x hx => List.mem_range.mp (List.mem_of_mem_filter hx)) (fun j hj => by cases hj) k h

theorem choose_ok (n : Nat) (ps : List Pg) (s : State) (h : NvmIn s.nvm) : NvmIn (choose n ps s).1.nvm := by
  induction n generalizing ps s with
  | zero => unfold choose; exact h
  | succ n ih =>
    unfold choose
    split
    · exact h
    · next k hk =>
      have hk4 : k < 4 := bestSlot_lt _ _ _ hk
      split
      · exact h
      · extract_lets r
        have hr : NvmIn r.1.nvm := consume_ok _ _ _ (fun a ha => by
          unfold State.freeAttempts slotBase at ha
          have := List.mem_of_mem_filter ha
          simp at this
          omega) h
        clear_value r
        split
        · rw [State.slotRefresh_nvm]; exact hr
        · exact ih _ _ (by rw [State.imageBad_nvm, State.slotRefresh_nvm]; exact hr)

theorem select_ok (s : State) (ps : List Pg) (h : NvmIn s.nvm) : NvmIn (s.select ps).nvm := by
  unfold State.select
  split
  · exact h
  · extract_lets spent s1 r src s2
    have h1 : s1.nvm = s.nvm := foldl_nvm _ _ _ (fun a x => State.imageBad_nvm _ _ _)
    have hr : NvmIn r.1.nvm := choose_ok 4 ps s1 (by rw [h1]; exact h)
    clear_value r
    rw [State.stepDone_nvm]
    split
    · rw [State.enterSafe_nvm]; exact hr
    · exact hr

theorem reset_ok (s : State) (c : Nat) (h : NvmIn s.nvm) : NvmIn (s.resetTo c).nvm := (resetTo_nvm s c).symm ▸ h

theorem wraps_in (s : State) (h : NvmIn s.nvm) : NvmIn s.wraps.nvm := (s.wraps_nvm).symm ▸ h

theorem cmd_in (s : State) (f : State → State) (h : NvmIn s.nvm) (hf : ∀ s, NvmIn s.nvm → NvmIn (f s).nvm) : NvmIn (s.cmd f).nvm := by
  unfold State.cmd
  split
  · exact h
  · exact wraps_in _ (hf s.cleared h)

theorem cmd_eq (s : State) (f : State → State) (h : NvmIn s.nvm) (hf : ∀ s, (f s).nvm = s.nvm) : NvmIn (s.cmd f).nvm :=
  cmd_in s f h (fun s h => (hf s).symm ▸ h)

theorem cmdTick_in (s : State) (f : State → State) (h : NvmIn s.nvm) (hf : ∀ s, NvmIn s.nvm → NvmIn (f s).nvm) : NvmIn (s.cmdTick f).nvm := by
  refine cmd_in s _ h (fun s h => ?_)
  split
  · exact h
  · rw [State.phase8_nvm]; exact wraps_in _ (hf s h)

theorem cmdTick_eq (s : State) (f : State → State) (h : NvmIn s.nvm) (hf : ∀ s, (f s).nvm = s.nvm) : NvmIn (s.cmdTick f).nvm :=
  cmdTick_in s f h (fun s h => (hf s).symm ▸ h)

theorem command_ok (s : State) (n w : Nat) (f : State → State) (h : NvmIn s.nvm) (hf : ∀ s, NvmIn s.nvm → NvmIn (f s).nvm) :
    NvmIn (s.command n w f).nvm := by
  unfold State.command
  extract_lets a
  have ha : NvmIn a.nvm := (State.startBit_nvm s _ _).symm ▸ h
  clear_value a
  split
  · exact hf a ha
  · exact ha

theorem resetLow_ok (s : State) (n : Nat) (h : NvmIn s.nvm) : NvmIn (s.resetLow n).nvm := by
  unfold State.resetLow
  split
  · rw [State.count_nvm]; exact h
  · exact reset_ok s 0 h

theorem supplyLow_ok (s : State) (n : Nat) (h : NvmIn s.nvm) : NvmIn (s.supplyLow n).nvm := by
  unfold State.supplyLow
  split
  · exact reset_ok s 0 h
  · exact h

theorem wdogReboot_ok (s : State) (n : Nat) (h : NvmIn s.nvm) : NvmIn (s.wdogReboot n).nvm := by
  unfold State.wdogReboot
  split
  · exact reset_ok s 3 h
  · exact h

theorem rollback_ok (s : State) (h : NvmIn s.nvm) : NvmIn (s.rollback).nvm := by
  unfold State.rollback
  split
  · exact h
  · dsimp only
    split
    · exact reset_ok s 2 h
    · exact h

theorem doReboot_ok (s : State) (h : NvmIn s.nvm) : NvmIn (s.doReboot).nvm := by
  unfold State.doReboot
  split
  · exact reset_ok s 1 h
  · exact h

theorem release_ok (s : State) (a b : Bool) (h : NvmIn s.nvm) : NvmIn (s.releaseReset a b).nvm := by
  unfold State.releaseReset
  split
  · exact reset_ok s 0 h
  · exact h

end Sys2Proof.Machine
end

