-- ==== Sys2Proof/Laws/Ticks.lean ====
section
/-! SUPPORT. The tick count's frame: no phase of a tick changes it beside the step that begins the tick. -/

namespace Sys2Proof.Machine

open Sys2Proof

@[simp] theorem foldl_tick {α : Type} (f : State → α → State) (xs : List α) (s : State) (h : ∀ a x, (f a x).tick = a.tick) :
    (xs.foldl f s).tick = s.tick := by
  induction xs generalizing s with
  | nil => rfl
  | cons x xs ih => rw [List.foldl_cons, ih, h]
@[simp] theorem foldl_snd_tick {α β : Type} (f : β × State → α → β × State) (xs : List α) (p : β × State) (h : ∀ a x, (f a x).2.tick = a.2.tick) :
    (xs.foldl f p).2.tick = p.2.tick := by
  induction xs generalizing p with
  | nil => rfl
  | cons x xs ih => rw [List.foldl_cons, ih, h]
@[simp] theorem foldl_snd2_tick {α β γ : Type} (f : β × γ × State → α → β × γ × State) (xs : List α) (p : β × γ × State) (h : ∀ a x, (f a x).2.2.tick = a.2.2.tick) :
    (xs.foldl f p).2.2.tick = p.2.2.tick := by
  induction xs generalizing p with
  | nil => rfl
  | cons x xs ih => rw [List.foldl_cons, ih, h]
@[simp] theorem foldl_fst_tick {α β : Type} (f : State × β → α → State × β) (xs : List α) (p : State × β) (h : ∀ a x, (f a x).1.tick = a.1.tick) :
    (xs.foldl f p).1.tick = p.1.tick := by
  induction xs generalizing p with
  | nil => rfl
  | cons x xs ih => rw [List.foldl_cons, ih, h]
@[simp] theorem State.setReg_tick (s : State) (off : Nat) (w : Word) : (State.setReg s off w).tick = s.tick := by
  simp only [State.setReg_frame]
@[simp] theorem State.setFld_tick (s : State) (f : Fr) (v : Nat) : (State.setFld s f v).tick = s.tick := by
  simp only [State.setFld_frame]
@[simp] theorem State.setFldIf_tick (s : State) (c : Bool) (f : Fr) (v : Nat) : (State.setFldIf s c f v).tick = s.tick := by
  simp only [State.setFldIf_frame]
@[simp] theorem State.setReg64_tick (s : State) (lo : Nat) (hi : Nat) (v : Nat) : (State.setReg64 s lo hi v).tick = s.tick := by
  simp only [State.setReg64_frame]
@[simp] theorem State.loadShadow_tick (s : State) (off : Nat) : (State.loadShadow s off).tick = s.tick := by
  simp only [State.loadShadow_frame]
@[simp] theorem State.publish_tick (s : State) (f : Fr) (v : Nat) : (State.publish s f v).tick = s.tick := by
  simp only [State.publish_frame]
@[simp] theorem State.publishReg_tick (s : State) (off : Nat) (v : Nat) : (State.publishReg s off v).tick = s.tick := by
  simp only [State.publishReg_frame]
@[simp] theorem State.latch_tick (s : State) (f : Fr) (v : Nat) : (State.latch s f v).tick = s.tick := by
  simp only [State.latch_frame]
@[simp] theorem State.setLn_tick (s : State) (l : Nat) (x : Line) : (State.setLn s l x).tick = s.tick := by
  unfold State.setLn
  repeat' split
  all_goals simp only
@[simp] theorem State.modLn_tick (s : State) (l : Nat) (f : Line → Line) : (State.modLn s l f).tick = s.tick := by
  unfold State.modLn
  simp only [State.setLn_tick]
@[simp] theorem State.emit_tick (s : State) (o : Out) : (State.emit s o).tick = s.tick := by
  simp only [State.emit_frame]
@[simp] theorem State.count_tick (s : State) (k : Nat) (n : Nat) : (State.count s k n).tick = s.tick := by
  simp only [State.count_frame]
@[simp] theorem State.queueRec_tick (s : State) (kind : Nat) (sev : Nat) (src : Nat) (detail : List Byte) : (State.queueRec s kind sev src detail).tick = s.tick := by
  simp only [State.queueRec_frame]
@[simp] theorem State.latchEvent_tick (s : State) (f : Fr) : (State.latchEvent s f).tick = s.tick := by
  simp only [State.latchEvent_frame]
@[simp] theorem State.raiseAt_tick (s : State) (f : Fr) (inst : Nat) : (State.raiseAt s f inst).tick = s.tick := by
  simp only [State.raiseAt_frame]
@[simp] theorem State.raise_tick (s : State) (f : Fr) : (State.raise s f).tick = s.tick := by
  simp only [State.raise_frame]
@[simp] theorem State.raiseOwn_tick (s : State) (f : Fr) : (State.raiseOwn s f).tick = s.tick := by
  simp only [State.raiseOwn_frame]
@[simp] theorem State.raiseIf_tick (s : State) (c : Bool) (f : Fr) : (State.raiseIf s c f).tick = s.tick := by
  simp only [State.raiseIf_frame]
@[simp] theorem State.raiseDp_tick (s : State) (f : Fr) : (State.raiseDp s f).tick = s.tick := by
  simp only [State.raiseDp_frame]
@[simp] theorem State.raiseDpIf_tick (s : State) (c : Bool) (f : Fr) : (State.raiseDpIf s c f).tick = s.tick := by
  simp only [State.raiseDpIf_frame]
@[simp] theorem State.dmaWrite_tick (s : State) (addr : Nat) (bs : List Byte) : (State.dmaWrite s addr bs).tick = s.tick := by
  unfold State.dmaWrite
  simp only [State.emit_tick, foldl_tick, implies_true]
@[simp] theorem State.msix_tick (s : State) (v : Nat) : (State.msix s v).tick = s.tick := by
  simp only [State.msix_frame]
@[simp] theorem State.wraps_tick (s : State) : (State.wraps s).tick = s.tick := by
  simp only [State.wraps_frame]
@[simp] theorem State.phase8_tick (s : State) : (State.phase8 s).tick = s.tick := by
  simp only [State.phase8_frame]
@[simp] theorem State.countLevel_tick (s : State) (k : Nat) (rose : Bool) : (State.countLevel s k rose).tick = s.tick := by
  unfold State.countLevel
  repeat' split
  all_goals simp only [State.count_tick]
@[simp] theorem State.telDrop_tick (s : State) : (State.telDrop s).tick = s.tick := by
  unfold State.telDrop
  dsimp only
  all_goals simp only [State.raise_tick, State.setFld_tick]
@[simp] theorem State.telemetry_tick (s : State) (sn : Snap) (busy : Bool) : (State.telemetry s sn busy).tick = s.tick := by
  unfold State.telemetry
  dsimp only
  repeat' split
  all_goals simp only [State.dmaWrite_tick, State.msix_tick, State.raise_tick, State.setFld_tick, State.telDrop_tick]
@[simp] theorem State.formSnap_tick (s : State) (busy : Bool) : (State.formSnap s busy).tick = s.tick := by
  unfold State.formSnap
  dsimp only
  repeat' split
  all_goals simp only [State.setFld_tick, State.telemetry_tick]
@[simp] theorem State.captureSnap_tick (s : State) (ctrs : SMap Ctr) : (State.captureSnap s ctrs).tick = s.tick := by
  unfold State.captureSnap
  repeat' split
  all_goals simp only [State.setFld_tick]
@[simp] theorem State.missSnap_tick (s : State) : (State.missSnap s).tick = s.tick := by
  unfold State.missSnap
  dsimp only
  repeat' split
  all_goals simp only [State.raise_tick, State.setFld_tick]
@[simp] theorem State.presetWrap_tick (s : State) (slot : Nat) : (State.presetWrap s slot).tick = s.tick := by
  unfold State.presetWrap
  dsimp only
@[simp] theorem State.applyPreset_tick (s : State) (ctrs : SMap Ctr) : (State.applyPreset s ctrs).tick = s.tick := by
  unfold State.applyPreset
  dsimp only
  repeat' split
  all_goals simp only [State.count_tick, State.presetWrap_tick, State.raise_tick, State.setFld_tick]
@[simp] theorem State.setWin_tick (s : State) (w : Nat) (x : Win) : (State.setWin s w x).tick = s.tick := by
  unfold State.setWin
  dsimp only
@[simp] theorem State.winAdd_tick (s : State) (w : Nat) (bytes : Nat) (units : Nat) : (State.winAdd s w bytes units).tick = s.tick := by
  unfold State.winAdd
  dsimp only
  repeat' split
  all_goals simp only [State.setWin_tick]
@[simp] theorem State.winPublish_tick (s : State) (w : Nat) : (State.winPublish s w).tick = s.tick := by
  unfold State.winPublish
  dsimp only
  repeat' split
  all_goals simp only [State.setFld_tick, State.setReg64_tick, State.setWin_tick]
@[simp] theorem State.winBoundary_tick (s : State) (w : Nat) : (State.winBoundary s w).tick = s.tick := by
  unfold State.winBoundary
  dsimp only
  repeat' split
  all_goals simp only [State.setWin_tick, State.winPublish_tick]
@[simp] theorem State.putLane_tick (s : State) (lane : Nat) (d : Nat) (syn : Nat) : (State.putLane s lane d syn).tick = s.tick := by
  unfold State.putLane
  dsimp only
@[simp] theorem State.setSyn_tick (s : State) (key : Nat) (syn : Nat) : (State.setSyn s key syn).tick = s.tick := by
  unfold State.setSyn
  dsimp only
@[simp] theorem State.logRepair_tick (s : State) (src : Nat) (kind : Nat) (st : Nat) (loc : List Byte) : (State.logRepair s src kind st loc).tick = s.tick := by
  unfold State.logRepair
  dsimp only
  all_goals simp only [State.queueRec_tick]
@[simp] theorem State.noteMacro_tick (s : State) (m : Nat) : (State.noteMacro s m).tick = s.tick := by
  unfold State.noteMacro
  dsimp only
@[simp] theorem State.takeSpare_tick (s : State) (inst : Nat) (row : Nat) (i : Nat) : (State.takeSpare s inst row i).tick = s.tick := by
  unfold State.takeSpare
  dsimp only
  all_goals simp only [State.noteMacro_tick]
@[simp] theorem State.checkRowPool_tick (s : State) (inst : Nat) : (State.checkRowPool s inst).tick = s.tick := by
  unfold State.checkRowPool
  dsimp only
  repeat' split
  all_goals simp only [State.raise_tick, State.setFld_tick]
@[simp] theorem State.logRow_tick (s : State) (inst : Nat) (row : Nat) (i : Nat) (st : Nat) (old : Nat) : (State.logRow s inst row i st old).tick = s.tick := by
  unfold State.logRow
  dsimp only
  repeat' split
  all_goals simp only [State.logRepair_tick]
@[simp] theorem State.repairRow_tick (s : State) (r : Nat × Nat) : (State.repairRow s r).tick = s.tick := by
  unfold State.repairRow
  dsimp only
  repeat' split
  all_goals simp only [State.checkRowPool_tick, State.logRepair_tick, State.logRow_tick, State.noteMacro_tick, State.publish_tick, State.raise_tick, State.takeSpare_tick]
@[simp] theorem State.repairRows_tick (s : State) : (State.repairRows s).tick = s.tick := by
  unfold State.repairRows
  dsimp only
  all_goals simp only [State.repairRow_tick, foldl_tick, implies_true]
@[simp] theorem State.freeRow_tick (s : State) (inst : Nat) (row : Nat) : (State.freeRow s inst row).tick = s.tick := by
  unfold State.freeRow
  refine foldl_tick _ _ _ (fun a x => ?_)
  dsimp only
  split
  · exact State.setReg_tick _ _ _
  · rfl
@[simp] theorem State.rowWritten_tick (s : State) (inst : Nat) (row : Nat) : (State.rowWritten s inst row).tick = s.tick := by
  unfold State.rowWritten
  dsimp only
@[simp] theorem State.putCopy_tick (s : State) (l : LaneCopy) : (State.putCopy s l).tick = s.tick := by
  unfold State.putCopy
  repeat' split
  all_goals simp only [State.putLane_tick, State.setSyn_tick]
@[simp] theorem State.publishMove_tick (s : State) (m : RowMove) : (State.publishMove s m).tick = s.tick := by
  unfold State.publishMove
  dsimp only
  all_goals simp only [State.freeRow_tick, State.putCopy_tick, State.raiseAt_tick, State.rowWritten_tick, foldl_tick, implies_true]
@[simp] theorem State.publishMoves_tick (s : State) : (State.publishMoves s).tick = s.tick := by
  unfold State.publishMoves
  dsimp only
  all_goals simp only [State.publishMove_tick, State.setFldIf_tick, foldl_tick, implies_true]
@[simp] theorem State.trkSet_tick (s : State) (c : Nat) (e : Nat) (inst : Nat) (word : Nat) (n : Nat) (fresh : Bool) : (State.trkSet s c e inst word n fresh).tick = s.tick := by
  unfold State.trkSet
  dsimp only
  repeat' split
  all_goals simp only [State.setReg_tick]
@[simp] theorem State.trkOffer_tick (s : State) (inst : Nat) (word : Nat) (lane : Nat) (hard : Bool) : (State.trkOffer s inst word lane hard).tick = s.tick := by
  unfold State.trkOffer
  dsimp only
  repeat' split
  all_goals simp only [State.raise_tick, State.trkSet_tick]
@[simp] theorem State.trkWrote_tick (s : State) (inst : Nat) (word : Nat) (lane : Nat) : (State.trkWrote s inst word lane).tick = s.tick := by
  unfold State.trkWrote
  dsimp only
  repeat' split
  all_goals simp only
@[simp] theorem State.logUncorr_tick (s : State) (inst : Nat) (word : Nat) (lane : Nat) (syn : Nat) (rmw : Bool) (at_ : Nat) : (State.logUncorr s inst word lane syn rmw at_).tick = s.tick := by
  unfold State.logUncorr
  dsimp only
  repeat' split
  all_goals simp only [State.setFld_tick, State.setReg_tick]
@[simp] theorem State.reportCorr_tick (s : State) (inst : Nat) (word : Nat) (lane : Nat) (rmw : Bool) : (State.reportCorr s inst word lane rmw).tick = s.tick := by
  unfold State.reportCorr
  dsimp only
  repeat' split
  all_goals simp only [State.raiseAt_tick, State.trkOffer_tick]
@[simp] theorem State.reportUncorr_tick (s : State) (inst : Nat) (word : Nat) (lane : Nat) (syn : Nat) (rmw : Bool) (at_ : Nat) : (State.reportUncorr s inst word lane syn rmw at_).tick = s.tick := by
  unfold State.reportUncorr
  dsimp only
  repeat' split
  all_goals simp only [State.logUncorr_tick, State.raiseAt_tick, State.trkOffer_tick]
@[simp] theorem State.memWrote_tick (s : State) (inst : Nat) (word : Nat) (lane : Nat) (syn : Nat) : (State.memWrote s inst word lane syn).tick = s.tick := by
  unfold State.memWrote
  dsimp only
  repeat' split
  all_goals simp only [State.raiseAt_tick, State.setFld_tick, State.setSyn_tick, State.trkWrote_tick]
@[simp] theorem State.memErr_tick (s : State) (e : MemErr) : (State.memErr s e).tick = s.tick := by
  unfold State.memErr
  dsimp only
  repeat' split
  all_goals simp only [State.memWrote_tick, State.raiseAt_tick, State.reportCorr_tick, State.reportUncorr_tick]
@[simp] theorem State.memAcc_tick (s : State) (a : MemAcc) : (State.memAcc s a).tick = s.tick := by
  unfold State.memAcc
  dsimp only
  repeat' split
  all_goals simp only [State.memErr_tick, State.memWrote_tick, State.setSyn_tick]
@[simp] theorem State.setKey_tick (s : State) (k : Nat) (v : List Byte) : (State.setKey s k v).tick = s.tick := by
  unfold State.setKey
  dsimp only
@[simp] theorem State.scratchLost_tick (s : State) : (State.scratchLost s).tick = s.tick := by
  unfold State.scratchLost
  dsimp only
  repeat' split
  all_goals simp only
@[simp] theorem State.abandonCommit_tick (s : State) (cause : Nat) : (State.abandonCommit s cause).tick = s.tick := by
  unfold State.abandonCommit
  dsimp only
  repeat' split
  all_goals simp only [State.queueRec_tick, State.raiseOwn_tick, State.setFld_tick, State.setKey_tick, foldl_tick, implies_true]
@[simp] theorem State.stopHealth_tick (s : State) : (State.stopHealth s).tick = s.tick := by
  unfold State.stopHealth
  dsimp only
  all_goals simp only [State.setFld_tick]
@[simp] theorem State.sensorCheck_tick (s : State) : (State.sensorCheck s).tick = s.tick := by
  unfold State.sensorCheck
  dsimp only
@[simp] theorem State.bandEval_tick (s : State) (d : Nat) : (State.bandEval s d).tick = s.tick := by
  unfold State.bandEval
  dsimp only
  repeat' split
  all_goals simp only [State.publish_tick, State.raiseAt_tick]
@[simp] theorem State.publishT_tick (s : State) (f : Fr) (t : Option Int) : (State.publishT s f t).tick = s.tick := by
  unfold State.publishT
  repeat' split
  all_goals simp only [State.publish_tick]
@[simp] theorem State.publishSensor_tick (s : State) (i : Nat) : (State.publishSensor s i).tick = s.tick := by
  unfold State.publishSensor
  simp only [State.publishT_tick, State.publish_tick]
@[simp] theorem State.thermalShow_tick (s : State) : (State.thermalShow s).tick = s.tick := by
  unfold State.thermalShow
  extract_lets s1 s2 s3 s4
  have h1 : s1.tick = s.tick := (State.publish_tick _ _ _).trans ((State.publish_tick _ _ _).trans (State.publish_tick _ _ _))
  have h2 : s2.tick = s1.tick := (State.publish_tick _ _ _).trans (State.publish_tick _ _ _)
  have h3 : s3.tick = s2.tick := (State.publishT_tick _ _ _).trans (State.publishT_tick _ _ _)
  have h4 : s4.tick = s3.tick := (State.publishT_tick _ _ _).trans (State.publishT_tick _ _ _)
  rw [foldl_tick _ _ _ (fun a i => State.publishSensor_tick a i), h4, h3, h2, h1]
@[simp] theorem State.thermal_tick (s : State) : (State.thermal s).tick = s.tick := by
  unfold State.thermal
  dsimp only
  repeat' split
  all_goals simp only [State.bandEval_tick, State.count_tick, State.raiseIf_tick, State.sensorCheck_tick, State.thermalShow_tick, foldl_tick, implies_true]
@[simp] theorem State.shutdown_tick (s : State) (loc : Nat) (a : Int) (b : Int) : (State.shutdown s loc a b).tick = s.tick := by
  unfold State.shutdown
  dsimp only
  repeat' split
  all_goals simp only [State.abandonCommit_tick, State.modLn_tick, State.queueRec_tick, State.raiseOwn_tick, State.setFld_tick, State.stopHealth_tick]
@[simp] theorem State.shutdownCheck_tick (s : State) : (State.shutdownCheck s).tick = s.tick := by
  unfold State.shutdownCheck
  repeat' split
  all_goals simp only [State.shutdown_tick]
@[simp] theorem State.setMon_tick (s : State) (u : Nat) (x : MonUnit) : (State.setMon s u x).tick = s.tick := by
  unfold State.setMon
  repeat' split
  all_goals simp only
@[simp] theorem State.monFollow_tick (s : State) (u : Nat) : (State.monFollow s u).tick = s.tick := by
  unfold State.monFollow
  dsimp only
  repeat' split
  all_goals simp only [State.publish_tick, State.setFld_tick, State.setMon_tick, foldl_tick, implies_true]
@[simp] theorem State.monFollows_tick (s : State) : (State.monFollows s).tick = s.tick := by
  unfold State.monFollows
  simp only [State.monFollow_tick, foldl_tick, implies_true]
@[simp] theorem State.monPublish1_tick (s : State) (u : Nat) (p : Nat × MonRes) : (State.monPublish1 s u p).tick = s.tick := by
  unfold State.monPublish1
  dsimp only
  all_goals simp only [State.publish_tick, State.setMon_tick]
@[simp] theorem State.monPublish_tick (s : State) (u : Nat) : (State.monPublish s u).tick = s.tick := by
  unfold State.monPublish
  dsimp only
  repeat' split
  all_goals simp only [State.monPublish1_tick, State.publish_tick, State.raiseIf_tick, State.setMon_tick, foldl_tick, implies_true]
@[simp] theorem State.monOutcome_tick (s : State) (o : Nat) : (State.monOutcome s o).tick = s.tick := by
  unfold State.monOutcome
  dsimp only
  repeat' split
  all_goals simp only [State.count_tick, State.raiseIf_tick]
@[simp] theorem State.monUsed_tick (s : State) (us : List Nat) : (State.monUsed s us).tick = s.tick := by
  unfold State.monUsed
  dsimp only
  all_goals simp only [State.setMon_tick, foldl_tick, implies_true]
@[simp] theorem State.monReadmit_tick (s : State) (u : Nat) : (State.monReadmit s u).tick = s.tick := by
  unfold State.monReadmit
  dsimp only
  repeat' split
  all_goals simp only [State.setFld_tick, State.setMon_tick, foldl_tick, implies_true]
@[simp] theorem State.monCompare_tick (s : State) : (State.monCompare s).tick = s.tick := by
  unfold State.monCompare
  dsimp only
  repeat' split
  all_goals simp only [State.monOutcome_tick, State.monReadmit_tick, State.monUsed_tick, foldl_tick, implies_true]
@[simp] theorem State.phase5_tick (s : State) : (State.phase5 s).tick = s.tick := by
  unfold State.phase5
  simp only [State.monCompare_tick, State.monPublish_tick]
@[simp] theorem State.setRefIn_tick (s : State) (i : Nat) (x : RefIn) : (State.setRefIn s i x).tick = s.tick := by
  unfold State.setRefIn
  dsimp only
@[simp] theorem State.refShow_tick (s : State) (i : Nat) : (State.refShow s i).tick = s.tick := by
  unfold State.refShow
  dsimp only
  repeat' split
  all_goals simp only [State.publishReg_tick]
@[simp] theorem State.refDrop_tick (s : State) (i : Nat) : (State.refDrop s i).tick = s.tick := by
  unfold State.refDrop
  dsimp only
  all_goals simp only [State.raiseAt_tick, State.setRefIn_tick]
@[simp] theorem State.refLatch_tick (s : State) (t : TickIn) (i : Nat) : (State.refLatch s t i).tick = s.tick := by
  unfold State.refLatch
  dsimp only
  repeat' split
  all_goals simp only [State.setRefIn_tick]
@[simp] theorem State.refJudge_tick (s : State) (t : TickIn) (sel : Option Nat) (i : Nat) : (State.refJudge s t sel i).tick = s.tick := by
  unfold State.refJudge
  dsimp only
  repeat' split
  all_goals simp only [State.raiseAt_tick, State.refDrop_tick, State.setRefIn_tick]
@[simp] theorem State.findDisputes_tick (s : State) : (State.findDisputes s).tick = s.tick := by
  unfold State.findDisputes
  extract_lets pairs
  refine foldl_tick _ _ _ (fun b x => ?_)
  extract_lets p q
  split
  · exact State.raiseAt_tick _ _ _
  · rfl
@[simp] theorem State.makeOutlier_tick (s : State) (i : Nat) (arb : Nat) : (State.makeOutlier s i arb).tick = s.tick := by
  unfold State.makeOutlier
  dsimp only
  all_goals simp only [State.raiseAt_tick, State.refDrop_tick, State.setRefIn_tick]
@[simp] theorem State.arbitrate_tick (s : State) (d : Dispute) : (State.arbitrate s d).tick = s.tick := by
  unfold State.arbitrate
  repeat' split
  all_goals simp only [State.makeOutlier_tick]
@[simp] theorem State.disputeStep_tick (s : State) : (State.disputeStep s).tick = s.tick := by
  unfold State.disputeStep
  dsimp only
  all_goals simp only [State.arbitrate_tick, State.findDisputes_tick, foldl_tick, implies_true]
@[simp] theorem State.refChoose_tick (s : State) : (State.refChoose s).tick = s.tick := by
  unfold State.refChoose
  dsimp only
  repeat' split
  all_goals simp only [State.raiseAt_tick]
@[simp] theorem State.refShowAll_tick (s : State) : (State.refShowAll s).tick = s.tick := by
  unfold State.refShowAll
  repeat' split
  all_goals simp only [State.publish_tick, State.refShow_tick, foldl_tick, implies_true]
@[simp] theorem State.refDecide_tick (s : State) : (State.refDecide s).tick = s.tick := by
  unfold State.refDecide
  simp only [State.disputeStep_tick, State.refChoose_tick, State.refShowAll_tick]
@[simp] theorem State.setDpll_tick (s : State) (v : Nat) : (State.setDpll s v).tick = s.tick := by
  unfold State.setDpll
  simp only [State.setFld_tick]
@[simp] theorem State.selPublish_tick (s : State) : (State.selPublish s).tick = s.tick := by
  unfold State.selPublish
  dsimp only
  repeat' split
  all_goals simp only [State.raise_tick, State.setDpll_tick]
@[simp] theorem State.dpllTick_tick (s : State) (t : TickIn) : (State.dpllTick s t).tick = s.tick := by
  unfold State.dpllTick
  dsimp only
  all_goals simp only [State.publishReg_tick]
@[simp] theorem State.numStep_tick (s : State) : (State.numStep s).tick = s.tick := by
  unfold State.numStep
  dsimp only
  all_goals simp only [State.setFld_tick]
@[simp] theorem State.secondEnd_tick (s : State) : (State.secondEnd s).tick = s.tick := by
  unfold State.secondEnd
  dsimp only
  repeat' split
  all_goals simp only
@[simp] theorem State.refoutShow_tick (s : State) : (State.refoutShow s).tick = s.tick := by
  unfold State.refoutShow
  dsimp only
@[simp] theorem State.clkBoundary_tick (s : State) (t : TickIn) : (State.clkBoundary s t).tick = s.tick := by
  unfold State.clkBoundary
  simp only [State.dpllTick_tick, State.numStep_tick, State.refoutShow_tick, State.secondEnd_tick, State.selPublish_tick]
@[simp] theorem State.showFree_tick (s : State) : (State.showFree s).tick = s.tick := by
  unfold State.showFree
  simp only [State.setFld_tick]
@[simp] theorem State.clkPhase3_tick (s : State) (t : TickIn) : (State.clkPhase3 s t).tick = s.tick := by
  unfold State.clkPhase3
  dsimp only
  all_goals simp only [State.refDecide_tick, State.refJudge_tick, State.refLatch_tick, State.showFree_tick, foldl_tick, implies_true]
@[simp] theorem State.setTime_tick (s : State) (t : Int) : (State.setTime s t).tick = s.tick := by
  unfold State.setTime
  dsimp only
@[simp] theorem State.timeJump_tick (s : State) (t : Int) : (State.timeJump s t).tick = s.tick := by
  unfold State.timeJump
  dsimp only
  all_goals simp only [State.modLn_tick, State.setTime_tick]
@[simp] theorem State.adjApply_tick (s : State) : (State.adjApply s).tick = s.tick := by
  unfold State.adjApply
  dsimp only
  repeat' split
  all_goals simp only [State.setFld_tick, State.timeJump_tick]
@[simp] theorem State.ttStepNow_tick (s : State) (l : Nat) : (State.ttStepNow s l).tick = s.tick := by
  unfold State.ttStepNow
  repeat' split
  all_goals simp only [State.timeJump_tick]
@[simp] theorem State.timBoundary_tick (s : State) : (State.timBoundary s).tick = s.tick := by
  unfold State.timBoundary
  dsimp only
  repeat' split
  all_goals simp only [State.adjApply_tick, State.setTime_tick, State.ttStepNow_tick]
@[simp] theorem State.ttTick_tick (s : State) (l : Nat) : (State.ttTick s l).tick = s.tick := by
  unfold State.ttTick
  dsimp only
  repeat' split
  all_goals simp only [State.count_tick, State.modLn_tick, State.publishReg_tick, State.publish_tick, State.raiseAt_tick, State.raiseIf_tick, State.setTime_tick]
@[simp] theorem State.timPhase3_tick (s : State) : (State.timPhase3 s).tick = s.tick := by
  unfold State.timPhase3
  dsimp only
  all_goals simp only [State.publish_tick, State.ttTick_tick]
@[simp] theorem State.setRp_tick (s : State) (k : Nat) (x : RimePort) : (State.setRp s k x).tick = s.tick := by
  unfold State.setRp
  dsimp only
  repeat' split
  all_goals simp only
@[simp] theorem State.rimCount_tick (s : State) (k : Nat) (c : Nat) (what : Nat) : (State.rimCount s k c what).tick = s.tick := by
  unfold State.rimCount
  simp only [State.count_tick]
@[simp] theorem State.rimShow_tick (s : State) (k : Nat) : (State.rimShow s k).tick = s.tick := by
  unfold State.rimShow
  simp only [State.setFld_tick]
@[simp] theorem State.rimTraceSent_tick (s : State) (p : RimePkt) (sent : Bool) : (State.rimTraceSent s p sent).tick = s.tick := by
  unfold State.rimTraceSent
  dsimp only
  repeat' split
  all_goals simp only [State.setFld_tick]
@[simp] theorem State.rimDrop_tick (s : State) : (State.rimDrop s).tick = s.tick := by
  unfold State.rimDrop
  simp only [State.raise_tick]
@[simp] theorem State.rimLost_tick (s : State) (p : RimePkt) : (State.rimLost s p).tick = s.tick := by
  unfold State.rimLost
  simp only [State.rimDrop_tick, State.rimTraceSent_tick]
@[simp] theorem State.rimQueue_tick (s : State) (k : Nat) (p : RimePkt) : (State.rimQueue s k p).tick = s.tick := by
  unfold State.rimQueue
  dsimp only
  repeat' split
  all_goals simp only [State.rimLost_tick, State.rimShow_tick, State.setRp_tick]
@[simp] theorem State.rimDrawId_tick (s : State) : (State.rimDrawId s).2.tick = s.tick := by
  unfold State.rimDrawId
  dsimp only
  all_goals simp only [State.draw]
@[simp] theorem State.rimTick_tick (s : State) (k : Nat) : (State.rimTick s k).tick = s.tick := by
  unfold State.rimTick
  dsimp only
  repeat' split
  all_goals simp only [State.rimDrawId_tick, State.rimShow_tick, State.setRp_tick]
@[simp] theorem State.rimLeave_tick (s : State) (k : Nat) : (State.rimLeave s k).tick = s.tick := by
  unfold State.rimLeave
  dsimp only
  all_goals simp only [State.rimShow_tick, State.setRp_tick]
@[simp] theorem State.rimEnd_tick (s : State) (k : Nat) : (State.rimEnd s k).tick = s.tick := by
  unfold State.rimEnd
  dsimp only
  all_goals simp only [State.count_tick, State.rimLeave_tick]
@[simp] theorem State.rimCut_tick (s : State) (k : Nat) : (State.rimCut s k).tick = s.tick := by
  unfold State.rimCut
  dsimp only
  repeat' split
  all_goals simp only [State.raise_tick, State.rimCount_tick, State.rimEnd_tick, State.rimQueue_tick]
@[simp] theorem State.nbStale_tick (s : State) : (State.nbStale s).tick = s.tick := by
  unfold State.nbStale
  dsimp only
  repeat' split
  all_goals simp only [State.setFld_tick, foldl_tick, implies_true]
@[simp] theorem State.modSnd_tick (s : State) (j : Nat) (f : SendSub → SendSub) : (State.modSnd s j f).tick = s.tick := by
  unfold State.modSnd
  dsimp only
@[simp] theorem State.d2dPool_tick (s : State) : (State.d2dPool s).tick = s.tick := by
  unfold State.d2dPool
  dsimp only
  repeat' split
  all_goals simp only [State.publish_tick, State.raise_tick]
@[simp] theorem State.sendCtl_tick (s : State) (d : Nat) (g : Nat) (c : Ctl) : (State.sendCtl s d g c).tick = s.tick := by
  unfold State.sendCtl
  simp only [State.modSnd_tick]
@[simp] theorem State.ctlMove_tick (s : State) (j : Nat) : (State.ctlMove s j).tick = s.tick := by
  unfold State.ctlMove
  dsimp only
  repeat' split
  all_goals simp only [State.modSnd_tick]
@[simp] theorem State.ctlMoves_tick (s : State) : (State.ctlMoves s).tick = s.tick := by
  unfold State.ctlMoves
  simp only [State.ctlMove_tick, foldl_tick, implies_true]
@[simp] theorem State.tellLanes_tick (s : State) : (State.tellLanes s).tick = s.tick := by
  unfold State.tellLanes
  dsimp only
  all_goals simp only [State.sendCtl_tick, foldl_tick, implies_true]
@[simp] theorem State.linkPreset_tick (s : State) (d : Nat) : (State.linkPreset s d).tick = s.tick := by
  unfold State.linkPreset
  dsimp only
@[simp] theorem State.presetBoundary_tick (s : State) (d : Nat) : (State.presetBoundary s d).tick = s.tick := by
  unfold State.presetBoundary
  repeat' split
  all_goals simp only [State.linkPreset_tick]
@[simp] theorem State.linkStop_tick (s : State) (d : Nat) : (State.linkStop s d).tick = s.tick := by
  unfold State.linkStop
  extract_lets a src b
  have ha : a.tick = s.tick := State.setFld_tick s _ _
  clear_value src a
  have hb : b.tick = s.tick := ha
  clear_value b
  refine (State.d2dPool_tick _).trans ((foldl_tick _ _ _ (fun c x => ?_)).trans hb)
  exact (State.setFld_tick _ _ _).trans (State.setFld_tick _ _ _)
@[simp] theorem State.modCnv_tick (s : State) (l : Nat) (f : CnvSt → CnvSt) : (State.modCnv s l f).tick = s.tick := by
  unfold State.modCnv
  simp only [State.modLn_tick]
@[simp] theorem State.cnvDirty_tick (s : State) (l : Nat) : (State.cnvDirty s l).tick = s.tick := by
  unfold State.cnvDirty
  simp only [State.modCnv_tick]
@[simp] theorem State.setTap_tick (s : State) (l : Nat) (br : Nat) (v : Nat) : (State.setTap s l br v).tick = s.tick := by
  unfold State.setTap
  repeat' split
  all_goals simp only [State.cnvDirty_tick, State.publish_tick]
@[simp] theorem State.showUnit_tick (s : State) (l : Nat) (i : Nat) (v : UnitVal) : (State.showUnit s l i v).tick = s.tick := by
  unfold State.showUnit
  simp only [State.publish_tick]
@[simp] theorem State.setUnit_tick (s : State) (l : Nat) (i : Nat) (v : UnitVal) : (State.setUnit s l i v).tick = s.tick := by
  unfold State.setUnit
  simp only [State.cnvDirty_tick, State.modCnv_tick, State.showUnit_tick]
@[simp] theorem State.cnvInterp_tick (s : State) (l : Nat) : (State.cnvInterp s l).tick = s.tick := by
  unfold State.cnvInterp
  dsimp only
  repeat' split
  all_goals simp only [State.modCnv_tick, State.setTap_tick, State.setUnit_tick, foldl_tick, implies_true, apply_ite State.tick, ite_self]
@[simp] theorem State.cnvStale_tick (s : State) (l : Nat) : (State.cnvStale s l).tick = s.tick := by
  unfold State.cnvStale
  dsimp only
  all_goals simp only [State.modCnv_tick, State.publish_tick, foldl_tick, implies_true, apply_ite State.tick, ite_self]
@[simp] theorem State.showSets_tick (s : State) (l : Nat) : (State.showSets s l).tick = s.tick := by
  unfold State.showSets
  extract_lets c s1
  rw [State.setFld_tick]
  refine foldl_tick _ _ _ (fun b x => ?_)
  extract_lets tick
  split <;> exact State.setReg_tick _ _ _
@[simp] theorem State.cnvBoundary_tick (s : State) (l : Nat) : (State.cnvBoundary s l).tick = s.tick := by
  unfold State.cnvBoundary
  dsimp only
  repeat' split
  all_goals simp only [State.modCnv_tick, State.sendCtl_tick, foldl_tick, implies_true]
@[simp] theorem State.showMaps_tick (s : State) (l : Nat) (x : TileCfg) (y : TileCfg) : (State.showMaps s l x y).tick = s.tick := by
  unfold State.showMaps
  dsimp only
  all_goals simp only [State.emit_tick, foldl_tick, implies_true, apply_ite State.tick, ite_self]
@[simp] theorem State.tileAdopt_tick (s : State) (l : Nat) (all : Bool) : (State.tileAdopt s l all).tick = s.tick := by
  unfold State.tileAdopt
  dsimp only
  repeat' split
  all_goals simp only [State.modCnv_tick, State.modLn_tick, State.showMaps_tick]
@[simp] theorem State.showCells_tick (s : State) (l : Nat) : (State.showCells s l).tick = s.tick := by
  unfold State.showCells
  dsimp only
  all_goals simp only [State.publish_tick, foldl_tick, implies_true, apply_ite State.tick, ite_self]
@[simp] theorem State.cnvTick_tick (s : State) (l : Nat) : (State.cnvTick s l).tick = s.tick := by
  unfold State.cnvTick
  dsimp only
  repeat' split
  all_goals simp only [State.cnvInterp_tick, State.cnvStale_tick, State.modCnv_tick, State.publish_tick, State.showCells_tick]
@[simp] theorem State.setLost_tick (s : State) (l : Nat) (k : Nat) : (State.setLost s l k).tick = s.tick := by
  unfold State.setLost
  dsimp only
  repeat' split
  all_goals simp only [State.modCnv_tick, State.showSets_tick]
@[simp] theorem State.setAgain_tick (l : Nat) (s : State) (k : Nat) : (State.setAgain l s k).tick = s.tick := by
  unfold State.setAgain
  dsimp only
  repeat' split
  all_goals simp only [State.modCnv_tick, State.setFld_tick]
@[simp] theorem State.setReload_tick (s : State) (l : Nat) : (State.setReload s l).tick = s.tick := by
  unfold State.setReload
  repeat' split
  all_goals simp only [State.modCnv_tick, State.setAgain_tick, State.showSets_tick, foldl_tick, implies_true]
@[simp] theorem State.setCtx_tick (s : State) (n : Nat) (x : ChTx) : (State.setCtx s n x).tick = s.tick := by
  unfold State.setCtx
  dsimp only
@[simp] theorem State.setCrx_tick (s : State) (n : Nat) (x : ChRx) : (State.setCrx s n x).tick = s.tick := by
  unfold State.setCrx
  dsimp only
@[simp] theorem State.chCount_tick (s : State) (n : Nat) (o : Nat) (k : Nat) : (State.chCount s n o k).tick = s.tick := by
  unfold State.chCount
  simp only [State.count_tick]
@[simp] theorem State.txDrop_tick (s : State) (n : Nat) (k : Nat) : (State.txDrop s n k).tick = s.tick := by
  unfold State.txDrop
  repeat' split
  all_goals simp only [State.chCount_tick, State.raiseDp_tick]
@[simp] theorem State.dropMark_tick (l : Nat) (s : State) (c : Nat × BlockMark) : (State.dropMark l s c).tick = s.tick := by
  unfold State.dropMark
  dsimp only
  all_goals simp only [State.setCtx_tick, State.txDrop_tick]
@[simp] theorem State.txStop_tick (s : State) (n : Nat) : (State.txStop s n).tick = s.tick := by
  unfold State.txStop
  dsimp only
  repeat' split
  all_goals simp only [State.setCtx_tick, State.txDrop_tick]
@[simp] theorem State.setEgrQ_tick (s : State) (e : Nat) (q : List (Nat × List Byte)) : (State.setEgrQ s e q).tick = s.tick := by
  unfold State.setEgrQ
  dsimp only
@[simp] theorem State.egrJoin_tick (s : State) (e : Nat) (n : Nat) : (State.egrJoin s e n).tick = s.tick := by
  unfold State.egrJoin
  dsimp only
  repeat' split
  all_goals simp only
@[simp] theorem State.egrPut_tick (s : State) (n : Nat) (b : List Byte) : (State.egrPut s n b).tick = s.tick := by
  unfold State.egrPut
  dsimp only
  repeat' split
  all_goals simp only [State.count_tick, State.egrJoin_tick, State.raiseDp_tick, State.setEgrQ_tick, State.winAdd_tick]
@[simp] theorem State.cutPkt_tick (s : State) (n : Nat) : (State.cutPkt s n).tick = s.tick := by
  unfold State.cutPkt
  dsimp only
  repeat' split
  all_goals simp only [State.chCount_tick, State.setCrx_tick]
@[simp] theorem State.rebuildAt_tick (s : State) (n : Nat) (pl : List Byte) (k o : Nat) : (s.rebuildAt n pl k o).tick = s.tick := by
  induction k generalizing s o with
  | zero => rfl
  | succ k ih =>
    unfold State.rebuildAt
    dsimp only
    repeat' split
    all_goals simp only [ih, State.setCrx_tick, State.chCount_tick, State.egrPut_tick]
@[simp] theorem State.rebuild_tick (s : State) (n : Nat) (bptr : Nat) (pl : List Byte) : (State.rebuild s n bptr pl).tick = s.tick := by
  unfold State.rebuild
  dsimp only
  repeat' split
  all_goals simp only [State.cutPkt_tick, State.egrPut_tick, State.rebuildAt_tick, State.setCrx_tick]
@[simp] theorem State.seqReset_tick (s : State) (n : Nat) : (State.seqReset s n).tick = s.tick := by
  unfold State.seqReset
  dsimp only
  all_goals simp only [State.chCount_tick, State.cutPkt_tick, State.publishReg_tick, State.raiseDp_tick, State.setCrx_tick]
@[simp] theorem State.seqLost_tick (s : State) (n : Nat) (k : Nat) : (State.seqLost s n k).tick = s.tick := by
  unfold State.seqLost
  repeat' split
  all_goals simp only [State.chCount_tick, State.cutPkt_tick, State.raiseDp_tick]
@[simp] theorem State.seqTake_tick (s : State) (n : Nat) (seq : Nat) (b : List Byte) : (State.seqTake s n seq b).tick = s.tick := by
  unfold State.seqTake
  dsimp only
  repeat' split
  all_goals simp only [State.rebuild_tick, State.seqLost_tick, State.setCrx_tick, State.winAdd_tick]
@[simp] theorem State.release_tick (s : State) (n : Nat) (c : Cell) (now : Nat) (bad : Bool) : (State.release s n c now bad).tick = s.tick := by
  unfold State.release
  dsimp only
  repeat' split
  all_goals simp only [State.seqTake_tick, State.setCrx_tick]
@[simp] theorem State.releases_tick (s : State) (n now : Nat) (bad : Bool) (k : Nat) : (s.releases n now bad k).tick = s.tick := by
  induction k generalizing s bad with
  | zero => rfl
  | succ k ih =>
    unfold State.releases
    repeat' split
    all_goals simp only [ih, State.release_tick]
@[simp] theorem State.releaseDue_tick (s : State) (n : Nat) (now : Nat) (bad : Bool) : (State.releaseDue s n now bad).tick = s.tick := by
  unfold State.releaseDue
  simp only [State.releases_tick]
@[simp] theorem State.twinTick_tick (s : State) (n : Nat) : (State.twinTick s n).tick = s.tick := by
  unfold State.twinTick
  extract_lets x now a rs p recent d flip d2 a2 ds m s1 s2 s3 on c1 c2 un s4 s5 s6
  have h2 : s2.tick = s.tick := by
    by_cases hc : flip = true
    · rw [show s2 = _ from if_pos hc, State.releaseDue_tick, State.chCount_tick, State.raise_tick]
      exact State.setCrx_tick _ _ _
    · rw [show s2 = _ from if_neg hc]
      exact State.setCrx_tick _ _ _
  have h3 : s3.tick = s2.tick := State.publishReg_tick _ _ _
  have h4 : s4.tick = s3.tick := State.raiseIf_tick _ _ _
  have h5 : s5.tick = s4.tick := by
    by_cases hc : un = true
    · rw [show s5 = _ from if_pos hc, State.countLevel_tick]
    · rw [show s5 = _ from if_neg hc]
  rw [State.publish_tick, State.publish_tick, State.publish_tick]
  show (State.setCrx _ _ _).tick = _
  rw [State.setCrx_tick, h5, h4, h3, h2]
@[simp] theorem State.floTick_tick (s : State) : (State.floTick s).tick = s.tick := by
  unfold State.floTick
  extract_lets a tw b
  rw [State.publish_tick]
  refine (foldl_tick _ _ _ State.twinTick_tick).trans (foldl_tick _ _ _ (fun x n => State.setFld_tick _ _ _))
@[simp] theorem State.modLcy_tick (s : State) (l : Nat) (f : LcySt → LcySt) : (State.modLcy s l f).tick = s.tick := by
  unfold State.modLcy
  simp only [State.modLn_tick]
@[simp] theorem State.searchTick_tick (s : State) (l : Nat) (again : Bool) : (State.searchTick s l again).tick = s.tick := by
  unfold State.searchTick
  dsimp only
  repeat' split
  all_goals simp only [State.modLcy_tick]
@[simp] theorem State.modFrm_tick (s : State) (l : Nat) (f : FrmSt → FrmSt) : (State.modFrm s l f).tick = s.tick := by
  unfold State.modFrm
  simp only [State.modLn_tick]
@[simp] theorem State.lcyTick_tick (s : State) (l : Nat) (again : Bool) : (State.lcyTick s l again).tick = s.tick := by
  unfold State.lcyTick
  dsimp only
  repeat' split
  all_goals simp only [State.modLcy_tick, State.searchTick_tick, State.setFld_tick, State.setReg64_tick]
@[simp] theorem State.modRxp_tick (s : State) (l : Nat) (f : RxpSt → RxpSt) : (State.modRxp s l f).tick = s.tick := by
  unfold State.modRxp
  simp only [State.modLn_tick]
@[simp] theorem State.modDsp_tick (s : State) (l : Nat) (f : DspSt → DspSt) : (State.modDsp s l f).tick = s.tick := by
  unfold State.modDsp
  simp only [State.modLn_tick]
@[simp] theorem State.scanTick_tick (s : State) (l : Nat) : (State.scanTick s l).tick = s.tick := by
  unfold State.scanTick
  dsimp only
  repeat' split
  all_goals simp only [State.modDsp_tick]
@[simp] theorem State.acqTally_tick (s : State) (l : Nat) (c : Nat) (b : Bool) : (State.acqTally s l c b).tick = s.tick := by
  unfold State.acqTally
  repeat' split
  all_goals simp only [State.count_tick]
@[simp] theorem State.acqGo_tick (s : State) (l : Nat) (st : Nat) : (State.acqGo s l st).tick = s.tick := by
  unfold State.acqGo
  dsimp only
  repeat' split
  all_goals simp only [State.acqTally_tick, State.modDsp_tick, State.modRxp_tick]
@[simp] theorem State.acqFail_tick (s : State) (l : Nat) : (State.acqFail s l).tick = s.tick := by
  unfold State.acqFail
  simp only [State.acqGo_tick, State.modRxp_tick, State.raise_tick]
@[simp] theorem State.acqRestart_tick (s : State) (l : Nat) (k : Nat) : (State.acqRestart s l k).tick = s.tick := by
  unfold State.acqRestart
  simp only [State.modRxp_tick]
@[simp] theorem State.frmLost_tick (s : State) (l : Nat) : (State.frmLost s l).tick = s.tick := by
  unfold State.frmLost
  dsimp only
  all_goals simp only [State.modFrm_tick]
@[simp] theorem State.acqApply_tick (s : State) (l : Nat) : (State.acqApply s l).tick = s.tick := by
  unfold State.acqApply
  dsimp only
  repeat' split
  all_goals simp only [State.acqFail_tick, State.acqGo_tick, State.acqTally_tick, State.frmLost_tick, State.modDsp_tick, State.modFrm_tick, State.modLn_tick, State.modRxp_tick, State.setFld_tick]
@[simp] theorem State.pairTick_tick (s : State) : (State.pairTick s).tick = s.tick := by
  unfold State.pairTick
  dsimp only
  repeat' split
  all_goals simp only [State.modRxp_tick, State.raise_tick]
@[simp] theorem State.rxpMonitors_tick (s : State) (l : Nat) (pwr : Nat) : (State.rxpMonitors s l pwr).tick = s.tick := by
  unfold State.rxpMonitors
  dsimp only
  repeat' split
  all_goals simp only [State.modRxp_tick, State.publish_tick, foldl_tick, implies_true]
@[simp] theorem State.rxpLimits_tick (s : State) (l : Nat) : (State.rxpLimits s l).tick = s.tick := by
  unfold State.rxpLimits
  dsimp only
  repeat' split
  all_goals simp only [State.modRxp_tick]
@[simp] theorem State.rxpTick_tick (s : State) (l : Nat) : (State.rxpTick s l).tick = s.tick := by
  unfold State.rxpTick
  dsimp only
  repeat' split
  all_goals simp only [State.acqApply_tick, State.modDsp_tick, State.modRxp_tick, State.raiseIf_tick, State.rxpLimits_tick, State.rxpMonitors_tick, State.scanTick_tick]
@[simp] theorem State.rxpLatch_tick (s : State) (l : Nat) : (State.rxpLatch s l).tick = s.tick := by
  unfold State.rxpLatch
  dsimp only
  all_goals simp only [State.setFld_tick]
@[simp] theorem State.capMiss_tick (s : State) (l : Nat) : (State.capMiss s l).tick = s.tick := by
  unfold State.capMiss
  simp only [State.latch_tick, State.modRxp_tick, State.raiseDp_tick]
@[simp] theorem State.capLost_tick (s : State) (l : Nat) : (State.capLost s l).tick = s.tick := by
  unfold State.capLost
  repeat' split
  all_goals simp only [State.capMiss_tick]
@[simp] theorem State.setTxFmt_tick (s : State) (l : Nat) (k : Nat) : (State.setTxFmt s l k).tick = s.tick := by
  unfold State.setTxFmt
  dsimp only
  repeat' split
  all_goals simp only [State.modLn_tick]
@[simp] theorem State.setRxFmt_tick (s : State) (l : Nat) (k : Nat) (shift : Bool) : (State.setRxFmt s l k shift).tick = s.tick := by
  unfold State.setRxFmt
  dsimp only
  repeat' split
  all_goals simp only [State.acqRestart_tick, State.modFrm_tick, State.modLn_tick, State.modRxp_tick]
@[simp] theorem State.slotShrink_tick (s : State) (l : Nat) (d : Nat) : (State.slotShrink s l d).tick = s.tick := by
  unfold State.slotShrink
  dsimp only
  repeat' split
  all_goals simp only [State.count_tick, State.modLn_tick, State.raiseDp_tick]
@[simp] theorem State.adoptLine_tick (s : State) (l : Nat) (o : Nat) (old : Word) (new : Word) : (State.adoptLine s l o old new).tick = s.tick := by
  unfold State.adoptLine
  dsimp only
  repeat' split
  all_goals simp only [State.setRxFmt_tick, State.setTxFmt_tick, State.slotShrink_tick]
@[simp] theorem State.adoptPart_tick (l : Nat) (tx : Bool) (s : State) (a : Adoption) : (State.adoptPart l tx s a).tick = s.tick := by
  unfold State.adoptPart
  dsimp only
  repeat' split
  all_goals simp only [State.adoptLine_tick, State.modLn_tick]
@[simp] theorem State.adoptSide_tick (s : State) (l : Nat) (tx : Bool) : (State.adoptSide s l tx).tick = s.tick := by
  unfold State.adoptSide
  dsimp only
  repeat' split
  all_goals simp only [State.adoptPart_tick, State.modLn_tick, foldl_tick, implies_true]
@[simp] theorem State.adoptLater_tick (s : State) (l : Nat) (off : Nat) (m : Word) : (State.adoptLater s l off m).tick = s.tick := by
  unfold State.adoptLater
  dsimp only
  repeat' split
  all_goals simp only [State.modLn_tick]
@[simp] theorem State.adoptIdle_tick (s : State) (l : Nat) : (State.adoptIdle s l).tick = s.tick := by
  unfold State.adoptIdle
  dsimp only
  repeat' split
  all_goals simp only [State.adoptSide_tick]
@[simp] theorem State.frmTick_tick (s : State) (l : Nat) (pwr : Nat) : (State.frmTick s l pwr).tick = s.tick := by
  unfold State.frmTick
  dsimp only
  repeat' split
  all_goals simp only [State.capLost_tick, State.modFrm_tick, State.modLn_tick, State.setFld_tick, State.setReg64_tick]
@[simp] theorem State.dropPlaced_tick (s : State) (l : Nat) : (State.dropPlaced s l).tick = s.tick := by
  unfold State.dropPlaced
  simp only [State.dropMark_tick, State.modLn_tick, foldl_tick, implies_true]
@[simp] theorem State.setMute_tick (s : State) (l : Nat) (m : Nat) : (State.setMute s l m).tick = s.tick := by
  unfold State.setMute
  dsimp only
  repeat' split
  all_goals simp only [State.modLn_tick, State.raiseDp_tick, State.rimCut_tick]
@[simp] theorem State.setDacZero_tick (s : State) (l : Nat) (z : Bool) : (State.setDacZero s l z).tick = s.tick := by
  unfold State.setDacZero
  dsimp only
@[simp] theorem State.txQuiet_tick (s : State) (l : Nat) : (State.txQuiet s l).tick = s.tick := by
  unfold State.txQuiet
  simp only [State.modLcy_tick, State.modLn_tick]
@[simp] theorem State.tileMute_tick (s : State) (l : Nat) : (State.tileMute s l).tick = s.tick := by
  unfold State.tileMute
  simp only [State.dropPlaced_tick, State.setDacZero_tick, State.setMute_tick, State.txQuiet_tick]
@[simp] theorem State.maskTick_tick (s : State) (l : Nat) : (State.maskTick s l).tick = s.tick := by
  unfold State.maskTick
  dsimp only
  repeat' split
  all_goals simp only [State.modLn_tick, State.publish_tick, foldl_tick, implies_true]
@[simp] theorem State.txpTick_tick (s : State) (l : Nat) : (State.txpTick s l).tick = s.tick := by
  unfold State.txpTick
  dsimp only
  repeat' split
  all_goals simp only [State.count_tick, State.modLn_tick, State.raiseIf_tick, State.setFld_tick, State.setReg_tick, State.tileMute_tick, foldl_tick, implies_true]
@[simp] theorem State.modFec_tick (s : State) (l : Nat) (f : FecSt → FecSt) : (State.modFec s l f).tick = s.tick := by
  unfold State.modFec
  simp only [State.modLn_tick]
@[simp] theorem State.fecTick_tick (s : State) (l : Nat) : (State.fecTick s l).tick = s.tick := by
  unfold State.fecTick
  dsimp only
  all_goals simp only [State.count_tick, State.modFec_tick, State.modFrm_tick, State.publish_tick, State.raiseIf_tick, State.setFld_tick, State.setReg_tick, foldl_tick, implies_true, apply_ite State.tick, ite_self]
@[simp] theorem State.adoptRxEn_tick (old : Word) (new : Word) (s : State) (l : Nat) : (State.adoptRxEn old new s l).tick = s.tick := by
  unfold State.adoptRxEn
  repeat' split
  all_goals simp only [State.modFrm_tick, State.modLn_tick, State.modRxp_tick]
@[simp] theorem State.adoptEng_tick (old : Word) (new : Word) (s : State) (l : Nat) : (State.adoptEng old new s l).tick = s.tick := by
  unfold State.adoptEng
  repeat' split
  all_goals simp only [State.modLn_tick]
@[simp] theorem State.adoptChan_tick (s : State) (n : Nat) (old : Word) (new : Word) : (State.adoptChan s n old new).tick = s.tick := by
  unfold State.adoptChan
  dsimp only
  repeat' split
  all_goals simp only [State.seqReset_tick, State.setCtx_tick, State.txStop_tick]
@[simp] theorem State.adopt_tick (s : State) (off : Nat) : (State.adopt s off).tick = s.tick := by
  unfold State.adopt
  dsimp only
  repeat' split
  all_goals simp only [State.adoptChan_tick, State.adoptEng_tick, State.adoptLater_tick, State.adoptRxEn_tick, State.loadShadow_tick, foldl_tick, implies_true]
@[simp] theorem State.publishHeld_tick (s : State) (off : Nat) : (State.publishHeld s off).tick = s.tick := by
  unfold State.publishHeld
  simp only [State.adoptLater_tick]
@[simp] theorem State.publishShadow_tick (s : State) : (State.publishShadow s).tick = s.tick := by
  unfold State.publishShadow
  dsimp only
  all_goals simp only [State.adoptIdle_tick, State.adopt_tick, State.publishHeld_tick, State.setFld_tick, foldl_tick, implies_true]
@[simp] theorem State.tileIdle_tick (s : State) (l : Nat) : (State.tileIdle s l).tick = s.tick := by
  unfold State.tileIdle
  repeat' split
  all_goals simp only [State.tileAdopt_tick]
@[simp] theorem State.showFld_tick (s : State) (p : Fr × Nat) : (State.showFld s p).tick = s.tick := by
  unfold State.showFld
  simp only [State.setFld_tick]
@[simp] theorem State.assistBoundary_tick (s : State) : (State.assistBoundary s).tick = s.tick := by
  unfold State.assistBoundary
  dsimp only
@[simp] theorem State.publishAll_tick (s : State) : (State.publishAll s).tick = s.tick := by
  unfold State.publishAll
  dsimp only
  all_goals simp only [State.assistBoundary_tick, State.cnvBoundary_tick, State.ctlMoves_tick, State.presetBoundary_tick, State.publishShadow_tick, State.showFld_tick, State.tellLanes_tick, State.tileIdle_tick, foldl_tick, implies_true]
@[simp] theorem State.boundary_tick (s : State) (t : TickIn) : (State.boundary s t).tick = s.tick := by
  unfold State.boundary
  simp only [State.clkBoundary_tick, State.publishAll_tick, State.publishMoves_tick, State.timBoundary_tick]
@[simp] theorem State.clockOnly_tick (s : State) (t : TickIn) : (State.clockOnly s t).tick = s.tick := by
  unfold State.clockOnly
  simp only [State.dpllTick_tick, State.numStep_tick, State.secondEnd_tick, State.setTime_tick]
@[simp] theorem State.phase1_tick (s : State) (ctrs : SMap Ctr) : (State.phase1 s ctrs).tick = s.tick := by
  unfold State.phase1
  simp only [State.applyPreset_tick, State.captureSnap_tick, State.formSnap_tick, State.winBoundary_tick, foldl_tick, implies_true]
@[simp] theorem State.portDown_tick (s : State) (p : Nat) : (State.portDown s p).tick = s.tick := by
  unfold State.portDown
  repeat' split
  all_goals simp only [State.countLevel_tick]
@[simp] theorem State.hostFec_tick (s : State) (x : Nat × Nat × Nat) : (State.hostFec s x).tick = s.tick := by
  unfold State.hostFec
  repeat' split
  all_goals simp only [State.count_tick]
@[simp] theorem State.latchLine_tick (t : TickIn) (s : State) (l : Nat) : (State.latchLine t s l).tick = s.tick := by
  unfold State.latchLine
  dsimp only
  all_goals simp only [State.fecTick_tick, State.frmTick_tick, State.lcyTick_tick, State.maskTick_tick, State.rxpLatch_tick, State.rxpTick_tick, State.txpTick_tick]
@[simp] theorem State.dspLost_tick (s : State) (l : Nat) (word : Nat) : (State.dspLost s l word).tick = s.tick := by
  unfold State.dspLost
  simp only [State.modDsp_tick, State.raise_tick]
@[simp] theorem State.unitLost_tick (s : State) (e : MemErr) : (State.unitLost s e).tick = s.tick := by
  unfold State.unitLost
  repeat' split
  all_goals simp only [State.dspLost_tick, State.scratchLost_tick, State.setLost_tick]
@[simp] theorem State.memUnit_tick (s : State) (a : MemAcc) : (State.memUnit s a).tick = s.tick := by
  unfold State.memUnit
  dsimp only
  repeat' split
  all_goals simp only [State.memAcc_tick, State.unitLost_tick]
@[simp] theorem State.showErrs_tick (s : State) : (State.showErrs s).tick = s.tick := by
  unfold State.showErrs
  simp only [State.setFld_tick, foldl_tick, implies_true]
@[simp] theorem State.phase2_tick (s : State) (t : TickIn) : (State.phase2 s t).tick = s.tick := by
  unfold State.phase2
  dsimp only
  repeat' split
  all_goals simp only [State.hostFec_tick, State.latchEvent_tick, State.latchLine_tick, State.memUnit_tick, State.pairTick_tick, State.portDown_tick, State.setReload_tick, State.showErrs_tick, State.showFld_tick, foldl_tick, implies_true]
@[simp] theorem State.phase3_tick (s : State) (t : TickIn) : (State.phase3 s t).tick = s.tick := by
  unfold State.phase3
  simp only [State.clkPhase3_tick, State.timPhase3_tick]
@[simp] theorem State.clocksStop_tick (s : State) (l : Nat) : (State.clocksStop s l).tick = s.tick := by
  unfold State.clocksStop
  dsimp only
  all_goals simp only [State.dropPlaced_tick, State.linkStop_tick, State.publish_tick, State.raiseDpIf_tick]
@[simp] theorem State.phase4_tick (s : State) : (State.phase4 s).tick = s.tick := by
  unfold State.phase4
  dsimp only
  repeat' split
  all_goals simp only [State.clocksStop_tick, State.rimCut_tick, State.shutdownCheck_tick, State.thermal_tick, foldl_tick, implies_true]
@[simp] theorem State.phase6_tick (s : State) : (State.phase6 s).tick = s.tick := by
  unfold State.phase6
  repeat' split
  all_goals simp only [State.cnvTick_tick, State.repairRows_tick]
@[simp] theorem State.commitLate_tick (s : State) : (State.commitLate s).tick = s.tick := by
  unfold State.commitLate
  repeat' split
  all_goals simp only [State.abandonCommit_tick]
@[simp] theorem State.katDue_tick (s : State) : (State.katDue s).tick = s.tick := by
  unfold State.katDue
  dsimp only
  repeat' split
  all_goals simp only
@[simp] theorem State.phase7_tick (s : State) : (State.phase7 s).tick = s.tick := by
  unfold State.phase7
  dsimp only
  repeat' split
  all_goals simp only [State.commitLate_tick, State.floTick_tick, State.katDue_tick, State.monFollows_tick, State.nbStale_tick, State.rimTick_tick]
@[simp] theorem State.runTick_tick (s : State) (t : TickIn) : (State.runTick s t).tick = s.tick := by
  unfold State.runTick
  dsimp only
  all_goals simp only [State.boundary_tick, State.phase1_tick, State.phase2_tick, State.phase3_tick, State.phase4_tick, State.phase5_tick, State.phase6_tick, State.phase7_tick, State.phase8_tick, State.wraps_tick]
@[simp] theorem State.overrunTick_tick (s : State) (t : TickIn) : (State.overrunTick s t).tick = s.tick := by
  unfold State.overrunTick
  dsimp only
  all_goals simp only [State.clockOnly_tick, State.missSnap_tick, State.raise_tick, State.setFld_tick]

end Sys2Proof.Machine
end

