-- ==== Sys2Proof/WellFormed.lean ====
section
/-! DEFINITION. Which commands are well formed: the operands that the outside can present.  The bounds that are plain
facts about one operand stand in its type (Syntax). -/

namespace Sys2Proof

/-- One of the 500 time-base cycles of a tick (R351). -/
def cycOk (cyc : Nat) : Bool := decide (cyc < 500)

/-- The fuse map: a 64-bit identifier, 256-bit keys, lanes and instances that exist, at most two rows of a macro (R156, R378, R379). -/
def Fuses.wf (f : Fuses) : Bool :=
  decide (f.deviceId < 2 ^ 64) && f.key63.length == 32 && f.kek.length == 32 && f.lanes.all (decide <| · < 1056) &&
    f.rows.all fun p => decide (p.1 < 1272) && decide (p.2 < 512) && decide ((f.rows.filter fun q => q.1 == p.1).length ≤ 2)

/-- Four groups in a direction, of 66 lanes each (R303). -/
def TrainIn.wf (x : TrainIn) : Bool := x.bad.length == 4 && x.bad.all fun g => g.all (decide <| · < 66)

/-- A reference source: input 0 to 4, or host lane 0 to 63 from 16 on (R336). -/
def refSource (r : Nat) : Bool := decide (r < 5) || (decide (16 ≤ r) && decide (r < 80))

/-- 24 sensors (R385), 64 ports, sources that exist, two lines. -/
def TickIn.wf (t : TickIn) : Bool :=
  t.temps.length == 24 && t.hostFec.all (fun h => decide (h.1 < 64)) && t.refOn.all refSource &&
    t.refFofs.all (fun r => refSource r.1) && t.refMoves.all (fun r => refSource r.1) &&
    t.again.all (decide <| · < 2)

/-- A head's 128 overhead bytes (R97). -/
def HeadIn.wf (h : HeadIn) : Bool := h.bytes.length == 128 && cycOk h.cyc && decide (h.sub < 131072)

/-- A frame at a port that exists, with at least one byte (R52). -/
def IngIn.wf (x : IngIn) : Bool := decide (x.port < 64) && !x.bytes.isEmpty && cycOk x.cyc && decide (x.sub < 32)

/-- Whether a command's operands can be presented. -/
def Instr.wf : Instr → Bool
  | .fuses f => f.wf
  | .nvmDiscovery _ _ _ slots _ => slots.length == 4
  | .repairsSweepTraining _ _ _ ts => ts.length == 4 && ts.all TrainIn.wf
  | .tick t => t.wf
  | .linkTraining _ x => x.wf
  | .txFrameHead _ cyc sub _ => cycOk cyc && decide (sub < 131072)
  | .candidateCheck _ _ _ h => h.wf
  | .rxHead _ h => h.wf
  | .frameDelivered _ cyc mem => cycOk cyc && mem.all (decide <| · < 512)
  | .mergeRelease _ cyc _ => cycOk cyc
  | .seqResync _ cyc => cycOk cyc
  | .ingressFrame x => x.wf
  | .egressFrame _ _ cyc sub _ => cycOk cyc && decide (sub < 32)
  | .keyLoad slot _ => decide (slot.val < 63)
  | .keyZero slot => decide (slot.val < 63)
  | .flitReceived _ w _ x => w.length == 66 && (x.samples ++ x.obs).all (·.length == 120) && x.cal.all fun c => decide (c.1 < 144) && c.2.2.length == 112
  | .rimeSyncDetect _ _ _ _ corr => corr.length == 129
  | .rimeHeaderEnd _ _ h => h.length == 6
  | .cmp _ cyc => cycOk cyc
  | .ppsInEdge _ cyc sub => cycOk cyc && decide (sub < 32)
  | .todMessage m cyc => m.length == 24 && cycOk cyc
  | .ppsOutPulse cyc => cycOk cyc
  | .latchingRead _ off cyc => decide (off < 2 ^ 23) && cycOk cyc
  | .mirrorRead _ off cyc => decide (off < 2 ^ 20) && cycOk cyc
  | .registerWrite _ off _ => decide (off < 2 ^ 23)
  | .override _ off _ => decide (off < 2 ^ 23)
  | .bar4Read a n _ => decide (a + n ≤ 2 ^ 22)
  | .bar4Write a bs _ => decide (a + bs.length ≤ 2 ^ 22)
  | .pcieLinkTrained gen width _ => decide (1 ≤ gen) && decide (gen ≤ 4) && [1, 2, 4].contains width
  | _ => true

end Sys2Proof
end

