-- ==== Sys2Proof/Tests/Slice0.lean ====
section
/-! SUPPORT. Tests: an ill-formed command for each check of WellFormed; for every statement with hypotheses, states and
operands that meet them; and single steps whose results come from the spec's own words. -/

namespace Sys2Proof.Tests

open Sys2Proof Sys2Proof.Machine

set_option Elab.async false

/-! ### Small states -/

/-- A state with fields set. -/
def sets (s : State) (fs : List (Fr × Nat)) : State := fs.foldl (fun s f => s.setFld f.1 f.2) s

/-- A state with fields set, as its datapath sees them too. -/
def pub (s : State) (fs : List (Fr × Nat)) : State := fs.foldl (fun s f => (s.setFld f.1 f.2).loadShadow f.1.off) s

/-- The word with one field set. -/
def word (f : Fr) (v : Nat) : Word := BitVec.ofNat 32 (v * 2 ^ f.lo)

/-- After boot step 4: the whole register map can be written. -/
def up : State := sets State.reset [(Reg.GLB_HOST_STATUS.READY, 1)]

/-- Boot has reached a step. -/
def booted (k : Nat) : State := sets State.reset [(Reg.GLB_HOST_STATUS.BOOT_STEP, k)]

/-- A signed image of its header alone, version 7. -/
def image : List Byte :=
  let h := leBytes 4 0x414F534F ++ leBytes 2 1 ++ leBytes 2 0 ++ leBytes 4 7 ++ List.replicate 8 0#8 ++ leBytes 4 4096 ++ leBytes 4 64 ++
    List.replicate 20 0#8
  h ++ aesCmac (List.replicate 32 0#8) h

/-- The image in slot 0, whose markers are `m`. -/
def slot0 (s : State) (m : List Byte) : State := { s with nvm := nvmProgram (nvmProgram [] (imageBase 0) image) (slotBase 0) m }

/-- A command of CFG_CMD for slot 0, ready to be started. -/
def running (op : Nat) (s : State) : State := s.started op 0

/-! ### Witnesses: reset, boot -/

theorem witness_StepRunsFront : ({ State.reset with pending := [.reboot, .smbusWrite] } : State).pending = .reboot :: [.smbusWrite] ∧
    State.reset.pending = [] := by decide

theorem witness_HeldIgnores : ({ State.reset with held := true } : State).held = true ∧ (∀ a b, Instr.reboot ≠ .resetNRelease a b) :=
  ⟨rfl, by intro a b h; cases h⟩

theorem witness_NvmInvariant : State.reset.nvmOk ∧ ∃ t, step { State.reset with pending := [.smbusWrite] } = .next t :=
  ⟨⟨by decide, by decide⟩, ⟨_, rfl⟩⟩

theorem witness_NvmFrame : usesNvm .reboot = false := by decide

theorem witness_ResetAsserts : State.reset.live ∧ 1000 ≤ 1000 ∧ 999 < 1000 ∧ (State.reset.ctr 192).v + 1 < 2 ^ 64 ∧ 1000 < 1001 := by decide +kernel

theorem witness_ReleaseStartsBoot : ({ State.reset with held := true } : State).held = true ∧ State.reset.held = false := by decide

/-- A watchdog that has expired with WDOG_REBOOT set. -/
def bitten : State := { sets up [(Reg.FLT_CTL.WDOG_REBOOT, 1)] with wdogDone := true }

theorem witness_Reboots : up.live ∧ (up.started 9 0).cmdIs 9 = true ∧
    (bitten.wdogDone = true ∧ bitten.bit Reg.FLT_CTL.WDOG_REBOOT = true ∧ bitten.mor.queue.all (fun r => r.kind != 0x10) = true) ∧
    up.wdogDone = false ∧
    (let s : State := { up with boot := { up.boot with rollbackFrom := some 4 }, tick := 5 }
     s.boot.rollbackFrom = some 4 ∧ 4 < s.tick ∧ s.boot.markers.all (fun j => j.kind != 2 || j.slot != s.fld Reg.CFG_STATUS.RUN_SLOT) = true ∧ s.mor.queue.all (fun r => r.kind != 3) = true) ∧
    up.boot.rollbackFrom = none := by decide +kernel

/-- Boot at step 4 with the image of slot 0 as its candidate. -/
def applying : State := { slot0 (booted 3) [] with boot := { State.reset.boot with cand := some 0, slotHdr := [image, [], [], []] } }

theorem witness_BootFirstSteps : State.reset.ticking ∧ State.reset.bootStep = 0 ∧ (booted 1).bootStep = 1 ∧ (booted 2).bootStep = 2 ∧
    ((booted 3).bootStep = 3 ∧ (booted 3).boot.reselect = false ∧ (booted 3).boot.cand = none) ∧ Rd.code ({} : Sfdp).read = 0 ∧ Rd.code ({ read := .fail } : Sfdp).read ≠ 0 ∧
    (applying.bootStep = 3 ∧ applying.boot.reselect = false ∧ applying.boot.cand = some 0 ∧ applying.cph.running = none ∧
      (applying.cleared.passes 0 4 [] 0 0).isRight = true ∧ (applying.cleared.passes 0 4 [.fail, .timeout] 0 0).isLeft = true) := by decide +kernel

theorem witness_BootLastSteps : (booted 4).ticking ∧ (booted 4).bootStep = 4 ∧ (booted 5).bootStep = 5 ∧ (∀ q ∈ [0, 1], (booted 5).calibrates q = false) ∧
    ((booted 6).bootStep = 6 ∧ (booted 6).bit Reg.THM_STATUS.GATE = false ∧ (booted 6).down = false ∧ (booted 6).safe = false) ∧
    (sets (booted 6) [(Reg.THM_STATUS.GATE, 1)]).bit Reg.THM_STATUS.GATE = true := by decide +kernel

theorem witness_BootInOrder : (booted 7).ticking ∧ (booted 7).bootStep ≠ 0 ∧ (booted 7).boot.reselect = false ∧
    (let s : State := { applying with cph := { applying.cph with running := some { queue := 3 } } }
     s.boot.cand ≠ none ∧ s.cph.running ≠ none) ∧
    (let s := sets (booted 5) [(lineState 0, 1)]
     s.safe = false ∧ s.calibrates 0 = true ∧ s.fgReady 0 ⟨true, [], [], [], [], 0⟩ = false ∧ s.fgReady 0 ⟨false, [], [], [], [], 0⟩ = true) ∧
    ({ booted 7 with stalled := true } : State).live ∧ ({ booted 7 with stalled := true } : State).stalled = true := by decide +kernel

/-! ### Witnesses: faults, Moraine -/

theorem witness_SequencerFaults : up.live ∧ up.stalled = false ∧ up.bit Reg.FLT_STATUS.XO_FAIL = false ∧ (sets up [(Reg.FLT_STATUS.XO_FAIL, 1)]).bit Reg.FLT_STATUS.XO_FAIL = true ∧ up.lockTick ≠ some up.tick ∧
    ({ up with lockTick := some 0 } : State).lockTick = some up.tick ∧ ({ up with stalled := true } : State).stalled = true ∧
    up.wdogDone = false ∧ ({ up with wdogDone := true } : State).wdogDone = true ∧
    (sets up [(Reg.CLK_STATUS.STATE, 1)]).fld Reg.CLK_STATUS.STATE = 1 ∧
    ({ up with pcie := { up.pcie with refclk := true } } : State).pcie.refclk = true ∧ up.pcie.ssc = false ∧ up.pcie.refclk = false := by decide +kernel

/-- Moraine open with one record waiting. -/
def record : MorRec := ⟨1, 0, 0, 0, 0, 0, 0, []⟩
def moraine : State := { booted 7 with mor := { State.reset.mor with readOk := true, queue := [record] } }

theorem witness_MoraineWrites : moraine.live ∧ moraine.morOpen = true ∧ moraine.morNext = some 0 ∧ moraine.mor.queue[0]? = some record ∧
    (booted 6).morOpen = false := by decide +kernel

/-- A retry is due and NVM holds one record. -/
def morRetry : State := { booted 7 with tick := 10, mor := { State.reset.mor with retryAt := some 10 }, nvm := nvmProgram [] morBase (morBytes 0 record) }

theorem witness_MoraineReads : morRetry.live ∧ morRetry.mor.retryAt = some 10 ∧ 10 ≤ morRetry.tick ∧ Rd.code .ok = 0 ∧ Rd.code .timeout ≠ 0 ∧
    ((morNewest morRetry.morReadSet).isSome = true ∧
      (({ morRetry with nvm := nvmProgram [] morBase (morBytes 0 { record with kind := 3 }) } : State).morGoverning 0).map (·.1) = some 3) ∧ (∀ t0, up.mor.retryAt = some t0 → up.tick < t0) ∧
    (up.cleared.startBit Reg.FLT_MOR_RD_CTL.GO (word Reg.FLT_MOR_RD_CTL.GO 1).toNat).bit Reg.FLT_MOR_RD_CTL.GO = true := by
  refine ⟨by decide +kernel, by decide +kernel, by decide +kernel, by decide, by decide, by decide +kernel, ?_, by decide +kernel⟩
  intro t h; cases h

/-! ### Witnesses: the configuration manager -/

/-- Slot 0 with an image whose CMAC does not match. -/
def forged (s : State) : State := { s with nvm := nvmProgram [] (imageBase 0) (image.take 63 ++ [0#8]) }

/-- A pending commit of slot 0. -/
def waiting (prepared tick : Bool) : Commit :=
  { slot := 0, ver := 7, actTick := 9, actTx := [0, 0], actRx := [0, 0], capTx := [0, 0], capRx := [none, none], enTx := [false, false],
    enRx := [false, false], prepared := prepared, vals := {}, healthS := 0, keysLoaded := [], doneTick := tick, doneTx := [false, false],
    doneRx := [false, false] }

/-- A state with that commit pending. -/
def committing (s : State) (prepared tick : Bool) : State := { s with commit := some (waiting prepared tick) }

/-- In safe mode. -/
def safeUp : State := sets up [(Reg.CFG_STATUS.SAFE, 1)]

/-- Slot 0 staged with the image. -/
def staged (s : State) : State := slot0 s (List.replicate 4 0#8)

theorem witness_SlotCommands : up.live ∧
    ((running 1 up).cmdIs 1 = true ∧ (running 1 up).fld Reg.CFG_CMD.SLOT = 0 ∧ (running 1 up).slotFree 0 = true) ∧
    (let u := running 1 (committing up false false)
     u.cmdIs 1 = true ∧ u.slotFree 0 = false) ∧
    (let u := running 2 (sets up [(Reg.CFG_CMD_LEN.LEN, 64)])
     u.cmdIs 2 = true ∧ u.slotFree 0 = true ∧ u.fld Reg.CFG_CMD_SRC.OFFSET + u.fld Reg.CFG_CMD_LEN.LEN ≤ stBytes ∧
       u.fld Reg.CFG_CMD_DST.OFFSET + u.fld Reg.CFG_CMD_LEN.LEN ≤ imageRegion ∧
       (u.writePages (u.fld Reg.CFG_CMD_LEN.LEN / 16 + 1) (u.fld Reg.CFG_CMD_SRC.OFFSET) (imageBase 0 + u.fld Reg.CFG_CMD_DST.OFFSET)
          (u.fld Reg.CFG_CMD_LEN.LEN) (Pg.budget .ok)).2 = 0 ∧
       (u.writePages (u.fld Reg.CFG_CMD_LEN.LEN / 16 + 1) (u.fld Reg.CFG_CMD_SRC.OFFSET) (imageBase 0 + u.fld Reg.CFG_CMD_DST.OFFSET)
          (u.fld Reg.CFG_CMD_LEN.LEN) (Pg.budget (.fail 0))).2 = 3) ∧
    (let u := running 2 { sets up [(Reg.CFG_CMD_LEN.LEN, 64)] with mem := { up.mem with syn := [(stFirst, 3)] } }
     u.cmdIs 2 = true ∧ u.slotFree 0 = true ∧
       (u.writePages (u.fld Reg.CFG_CMD_LEN.LEN / 16 + 1) (u.fld Reg.CFG_CMD_SRC.OFFSET) (imageBase 0 + u.fld Reg.CFG_CMD_DST.OFFSET)
          (u.fld Reg.CFG_CMD_LEN.LEN) (Pg.budget .ok)).2 = 11) ∧
    (let u := running 2 (sets up [(Reg.CFG_CMD_SRC.OFFSET, 4), (Reg.CFG_CMD_LEN.LEN, 0x400000)])
     u.cmdIs 2 = true ∧ u.slotFree 0 = true ∧ stBytes < u.fld Reg.CFG_CMD_SRC.OFFSET + u.fld Reg.CFG_CMD_LEN.LEN) ∧
    ((running 2 (committing up false false)).cmdIs 2 = true ∧ (running 2 (committing up false false)).slotFree 0 = false) := by decide +kernel

theorem witness_SlotCommands_checks :
    ((running 3 (committing up false false)).cmdIs 3 = true ∧ (running 3 (committing up false false)).slotFree 0 = false) ∧
    ((running 3 (forged up)).cmdIs 3 = true ∧ (running 3 (forged up)).slotFree 0 = true ∧ ((running 3 (forged up)).judgeSlot 0 .ok).1 ≠ 0) ∧
    (let u := running 3 (slot0 up [])
     u.cmdIs 3 = true ∧ u.slotFree 0 = true ∧ (u.judgeSlot 0 .ok).1 = 0 ∧ u.cph.running = none) ∧
    (let u := running 3 { slot0 up [] with cph := { up.cph with running := some { queue := 3 } } }
     u.cmdIs 3 = true ∧ u.slotFree 0 = true ∧ u.cph.running.isSome = true) ∧
    ((running 6 up).cmdIs 6 = true ∧ (running 6 up).bit Reg.CFG_STATUS.SAFE = false) ∧
    ((running 6 safeUp).cmdIs 6 = true ∧ (running 6 safeUp).bit Reg.CFG_STATUS.SAFE = true ∧ ((running 6 safeUp).slotSt 0).staged = false) ∧
    ((running 6 (staged safeUp)).cmdIs 6 = true ∧ ((running 6 (staged safeUp)).slotSt 0).staged = true) ∧
    ((running 7 (committing up false false)).cmdIs 7 = true ∧ (running 7 (committing up false false)).inCommit 0 = true) ∧
    ((running 7 up).cmdIs 7 = true ∧ (running 7 up).isRunning 0 = false ∧ (running 7 up).inCommit 0 = false) := by decide +kernel

/-- Slot 0 holds a proven image that runs. -/
def proven : State := sets (slot0 up (List.replicate 12 0#8)) [(Reg.CFG_IMAGE_VER.VER, 7)]

theorem witness_CommitCommands :
    ((running 4 safeUp).cmdIs 4 = true ∧ (running 4 safeUp).bit Reg.CFG_STATUS.SAFE = true) ∧
    (let u := running 4 up
     u.cmdIs 4 = true ∧ (u.bit Reg.CFG_STATUS.SAFE || u.commit.isSome || u.bit Reg.CFG_STATUS.HEALTH_RUN) = false ∧ (u.slotSt 0).staged = false) ∧
    (let u := running 4 proven
     u.cmdIs 4 = true ∧ (u.slotSt 0).staged = true ∧ (u.slotSt 0).bad = false ∧ imgVer (u.slotHeader 0) ≤ u.runVer) ∧
    (let u := running 4 (sets (staged up) [(⟨Reg.CFG_ACT_TICK_LO, 31, 0⟩, 1)])
     u.cmdIs 4 = true ∧ (u.slotSt 0).staged = true ∧ (u.slotSt 0).bad = false ∧ u.runVer < imgVer (u.slotHeader 0) ∧
       u.tick < u.reg64 Reg.CFG_ACT_TICK_LO Reg.CFG_ACT_TICK_HI) ∧
    ((up.started 5 0).cmdIs 5 = true ∧ (up.started 5 0).commit = none) ∧
    (((committing up true true).started 5 0).cmdIs 5 = true ∧ (waiting true true).begun = true) ∧
    (((committing up true false).started 5 0).commit = some (waiting true false) ∧ (waiting true false).begun = false) ∧
    ((up.started 8 0).cmdIs 8 = true ∧ (up.started 8 0).hasImage = false) ∧
    (let u := proven.started 8 0
     let bs := bootHeader 1 u.runVer
     let m := nvmProgram (nvmErase u.nvm 0 4096) 0 bs
     u.cmdIs 8 = true ∧ u.hasImage = true ∧ (u.slotSt (u.fld Reg.CFG_STATUS.RUN_SLOT)).proven = true ∧ u.boot.hdr = none ∧
       ({ u with nvm := m } : State).nvmBytes 0 64 = bs) := by decide +kernel

theorem witness_CommitSteps : (committing (slot0 up []) false false).live ∧
    ((committing (forged up) false false).judgeSlot 0 .ok).1 ≠ 0 ∧
    ((committing (slot0 up []) false false).judgeSlot 0 .ok).1 = 0 ∧
    (let s : State := { committing up true false with tick := 9 }
     s.commit = some (waiting true false) ∧ s.ticking ∧ (waiting true false).actTick ≤ s.tick ∧ s.down = false) ∧
    (waiting false false).prepared = false ∧ (waiting true true).doneTick = true ∧ up.tick < (waiting true false).actTick ∧
    ((waiting true true).doneTick && (waiting true true).txIn 0 && (waiting true true).txIn 1 && (waiting true true).rxIn 0 &&
      (waiting true true).rxIn 1) = true := by decide +kernel

theorem witness_HealthAndMarkers :
    (let s : State := { up with boot := { up.boot with healthEnd := some 0, healthS := 5, health := [[1#8, 0#8, 0#8, 0#8, 0#8, 0#8, 0#8, 0#8]] } }
     s.ticking ∧ s.boot.healthEnd = some 0 ∧ 0 ≤ s.tick ∧ s.bit Reg.THM_STATUS.SHUTDOWN = false ∧ s.condFails ≠ 0 ∧
       (s.slotSt (s.fld Reg.CFG_STATUS.RUN_SLOT)).proven = false) ∧
    (let s : State := { up with boot := { up.boot with markers := [⟨0, 1, 0, true, 0⟩] } }
     s.boot.markers.findIdx? (·.running) = some 0 ∧ s.boot.markers[0]? = some ⟨0, 1, 0, true, 0⟩) ∧
    up.boot.markers.findIdx? (·.running) = none ∧ up.boot.healthEnd = none := by decide +kernel

/-- An image of nothing passes every check of R429, and one that makes both lines secondary in time transfer fails R365. -/
theorem witness_CommitSteps_prepare :
    (let q := (committing (slot0 up []) false false).cleared.putImage (waiting false false) {}
     q.2.1 = true ∧ q.1.passes = true ∧ q.2.2.commitOk {} = true) ∧
    (let v : ImageVals := { regs := [(Reg.TIM_TT_CFG 0, 2), (Reg.TIM_TT_CFG 1, 2)] }
     let q := (committing (slot0 up []) false false).cleared.putImage (waiting false false) v
     q.2.2.commitOk v = false) ∧
    (committing up false false).cph.running = none := by decide +kernel

/-! ### Witnesses: register writes -/

/-- The override is unlocked. -/
def unlocked : State := sets up [(Reg.CFG_OVR.UNLOCK, 1)]

theorem witness_WritesAreWhole : writeOf (.snapshotNow 1) = some (Reg.PMC_SNAP_CTL, 1) ∧ up.live ∧ up.takes Reg.PMC_SNAP_CTL 1 ∧
    ({ up with pcie := { up.pcie with d3hot := true } } : State).pcie.d3hot = true ∧
    (up.pcie.d3hot = false ∧ up.cleared.accessCause .w32 Reg.PMC_SNAP_CTL 0x80 ≠ 0 ∧
      writeOf (.snapshotNow 0x80) = some (Reg.PMC_SNAP_CTL, 0x80) ∧
      (up.ctr (2240 + up.cleared.accessCause .w32 Reg.PMC_SNAP_CTL 0x80)).v + 1 < 2 ^ 64 ∧ up.bit Reg.GLB_REJ_LOG_0.VALID = false) := by decide +kernel

theorem witness_AccessForms : up.live ∧ up.pcie.d3hot = false ∧ up.cleared.accessCause .w32 3 0 ≠ 0 ∧ up.cleared.accessCause .other 0 0 ≠ 0 ∧
    up.cleared.accessCause .w64 (Reg.TIM_CMP_LO 0) 5 = 0 := by decide +kernel

theorem witness_RegisterWrites : unlocked.live ∧ (∀ (x : State) (old : Word), x.effect Reg.MEM_TRACK_CFG old = x) ∧ Reg.MEM_TRACK_CFG ∉ wrapRegs ∧
    (let ovr (s : State) (v : Word) : Bool := (regFlds Reg.MEM_TRACK_CFG).any fun f => f.acc == .rwo && getBits (s.reg Reg.MEM_TRACK_CFG) f.hi f.lo !=
       getBits (writtenWord Reg.MEM_TRACK_CFG (s.reg Reg.MEM_TRACK_CFG) v) f.hi f.lo
     (unlocked.takes Reg.MEM_TRACK_CFG 60 ∧ ovr unlocked 60 = true) ∧ (up.takes Reg.MEM_TRACK_CFG 0xE10 ∧ ovr up 0xE10 = false) ∧
       (up.pcie.d3hot = false ∧ up.bit Reg.CFG_OVR.UNLOCK = false ∧ ovr up 60 = true)) ∧
    up.takes Reg.CFG_OVR 0x1A5C3 ∧ ((0x10000 : Word).getLsbD 16 = true ∧ getBits (0x10000 : Word) 15 0 ≠ 0xA5C3) :=
  ⟨by decide +kernel, fun _ _ => rfl, by decide +kernel, by decide +kernel, by decide +kernel, by decide +kernel⟩

/-! ### Witnesses: the framer and the line cipher -/

/-- Both lines run: engines, transmitters and receivers enabled, in service. -/
def lines : State := (sets up [(lineState 0, 2), (lineState 1, 2), (⟨Reg.GLB_LINE_CTL, 31, 0⟩, 0x77)]).loadShadow Reg.GLB_LINE_CTL

/-- Line A in its search for alignment. -/
def hunting (cands : List (Nat × Nat)) (compat : Bool) : State :=
  (lines.modLn 0 fun x => { x with compatRx := compat }).modFrm 0 (fun x => { x with cands := cands }) |>.modRxp 0 fun x => { x with lock := true }

/-- The 128 bytes of a head whose CRC is right; byte 9 is `b9`. -/
def headBytes (b9 : Byte) : List Byte := (List.replicate 9 0#8 ++ b9 :: List.replicate 114 0#8) ++
  beBytes 4 (crc32 (List.replicate 9 0#8 ++ b9 :: List.replicate 114 0#8))

/-- A received head. -/
def head (bytes : List Byte) (rho : Nat) : HeadIn := ⟨bytes, rho, 0, 0, 0⟩

theorem witness_Alignment : lines.live ∧
    (let s := hunting [] false
     s.hunts 0 = true ∧ (s.dsp 0).matchAt false 5 (65536, 0) = (65536, 0) ∧ s.sh (Reg.FRM_HUNT_CFG.SYNC_THR 0) * 256 ≤ 65536 ∧ (s.frm 0).cands.length < 4) ∧
    (hunting [(1, 0), (2, 0), (3, 0), (4, 0)] false).hunts 0 = true ∧ 4 ≤ ((hunting [(1, 0), (2, 0), (3, 0), (4, 0)] false).frm 0).cands.length ∧
    up.hunts 0 = false ∧
    (let s := hunting [(5, 0)] false
     s.rxOn 0 = true ∧ (s.frm 0).oof = true ∧ (s.rxp 0).lock = true ∧ (s.frm 0).cands.find? (fun d => d.1 == 5) = some (5, 0) ∧
       (s.ln 0).compatRx = false ∧ s.hear 0 5 false (head [] 65536) = head [] 65536 ∧ s.syncAt 0 65536 0 = true ∧ s.syncAt 0 0 0 = false) ∧
    ((lines.rxp 0).lock = false ∧ lines.rxOn 0 = true ∧ up.rxOn 0 = false) ∧
    (let s := hunting [(5, 0), (6, 2)] true
     s.hunts 0 = true ∧ (s.ln 0).compatRx = true ∧
       (s.frm 0).cands.find? (fun d => d.1 == 5) = some (5, 0) ∧ 0 + 1 < s.sh (Reg.FRM_HUNT_CFG.COMPAT_N 0) ∧
       (s.frm 0).cands.find? (fun d => d.1 == 6) = some (6, 2) ∧ s.sh (Reg.FRM_HUNT_CFG.COMPAT_N 0) ≤ 2 + 1) := by decide +kernel

theorem witness_Alignment_compat : headGood true true (head (headBytes 8#8) 65536) = true ∧ headGood true true (head [] 65536) = false := by decide +kernel

/-- Line A in frame. -/
def framed (hist : List Bool) (compat : Bool) : State :=
  (lines.modLn 0 fun x => { x with compatRx := compat }).modFrm 0 fun x => { x with oof := false, hist := hist, follow := some (3, 2) }

theorem witness_ReceivedHeads : lines.live ∧
    (let s := framed [true] false
     s.rxOn 0 = true ∧ (s.frm 0).oof = false ∧ (s.ln 0).compatRx = false ∧ (s.frm 0).follow = some (3, 2) ∧ s.hear 0 (((s.dsp 0).head).getD 0) false (head [] 65536) = head [] 65536 ∧
       (((headGood false true (head [] 65536) :: (s.frm 0).hist).take 16).filter (! ·)).length < 8) ∧
    8 ≤ (((headGood false true (head [] 65536) :: ((framed (List.replicate 7 false) false).frm 0).hist).take 16).filter (! ·)).length ∧
    ((framed [] true).ln 0).compatRx = true ∧ (lines.frm 0).oof = true ∧ (lines.frm 0).follow = none := by decide +kernel

theorem witness_Defects : up.live ∧
    (let s := up.modFrm 0 fun x => { x with defects := 0, up := [(0, 10), (1, 9999999)] }
     (s.frm 0).defects.testBit 0 = false ∧ (s.frm 0).masked 0 = false ∧ (s.defLimits 0 0).1 ≤ (s.frm 0).up.get (fun _ => 0) 0) ∧
    (let s := up.modFrm 0 fun x => { x with defects := 1, dn := [(0, 100)] }
     (s.frm 0).defects.testBit 0 = true ∧ (s.frm 0).masked 0 = false ∧ (s.defLimits 0 0).2 ≤ (s.frm 0).dn.get (fun _ => 0) 0 ∧ (s.frm 0).masked 4 = true) ∧
    (let s : State := { pub up [(Reg.FRM_DEG_CFG.DEG_INT 0, 5)] with tick := 10 }
     s.working ∧ s.sh (Reg.FRM_DEG_CFG.DEG_INT 0) ≠ 0 ∧ s.tick % s.sh (Reg.FRM_DEG_CFG.DEG_INT 0) = 0 ∧ (s.frm 0).degAt < s.tick) ∧
    (let s : State := { pub up [(Reg.FRM_DEG_CFG.DEG_INT 0, 5)] with tick := 11 }
     s.tick % s.sh (Reg.FRM_DEG_CFG.DEG_INT 0) ≠ 0) := by decide +kernel

/-- Format entry 1 of line A is valid; the activation frame is 1024. -/
def shiftable (f : Nat) : State := (sets up [(⟨Reg.FRM_FMT 0 1, 31, 31⟩, 1), (⟨Reg.FRM_SHIFT_ACT_LO 0, 31, 0⟩, f)]).loadShadow (Reg.FRM_FMT 0 1)
def shiftWord : Word := word (Reg.FRM_SHIFT_CTL.START 0) 1 ||| word (Reg.FRM_SHIFT_CTL.NEW_IDX 0) 1

theorem witness_ShiftStarts : up.live ∧
    (let s := shiftable 1024
     let u := (s.stored (Reg.FRM_SHIFT_CTL 0) shiftWord.toNat).setFld (Reg.FRM_SHIFT_CTL.START 0) 0
     s.takes (Reg.FRM_SHIFT_CTL 0) shiftWord.toNat ∧ (s.stored (Reg.FRM_SHIFT_CTL 0) shiftWord.toNat).bit (Reg.FRM_SHIFT_CTL.START 0) = true ∧
       u.shiftFmtOk 0 (u.fld (Reg.FRM_SHIFT_CTL.NEW_IDX 0)) = true ∧ u.reg64 (Reg.FRM_SHIFT_ACT_LO 0) (Reg.FRM_SHIFT_ACT_HI 0) = 1024 ∧
       (u.ln 0).txFn = 0 ∧ u.shifting 0 = false) ∧
    (let s := shiftable 1023
     let u := (s.stored (Reg.FRM_SHIFT_CTL 0) shiftWord.toNat).setFld (Reg.FRM_SHIFT_CTL.START 0) 0
     s.takes (Reg.FRM_SHIFT_CTL 0) shiftWord.toNat ∧ u.reg64 (Reg.FRM_SHIFT_ACT_LO 0) (Reg.FRM_SHIFT_ACT_HI 0) < 0 + 1024) ∧
    (let s := up.modFrm 0 fun x => { x with shift := { x.shift with tx := 1, act := 256 } }
     (s.shiftOf 0).tx = 1 ∧ (s.shiftOf 0).act ≤ (s.ln 0).txFn + 256) ∧
    (up.shiftOf 0).tx ≠ 1 := by decide +kernel

/-- The standby phase of line A has a valid key; the flip frame is `f`. -/
def flippable (f : Nat) : State :=
  (sets lines [(⟨Reg.LCY_TX_KEY 0, 14, 14⟩, 1), (⟨Reg.LCY_FLIP_FRAME_LO 0, 31, 0⟩, f), (Reg.LCY_CTL.AUTO_ROT 0, 1)]).loadShadow (Reg.LCY_TX_KEY 0)
def armWord : Word := word (Reg.LCY_FLIP_CTL.ARM 0) 1

theorem witness_KeyPhases :
    (let s := flippable 64
     let u := s.stored (Reg.LCY_FLIP_CTL 0) armWord.toNat
     s.live ∧ s.takes (Reg.LCY_FLIP_CTL 0) armWord.toNat ∧ u.bit (Reg.LCY_FLIP_CTL.ARM 0) = true ∧
       u.reg64 (Reg.LCY_FLIP_FRAME_LO 0) (Reg.LCY_FLIP_FRAME_HI 0) = 64 ∧ (u.ln 0).txFn = 0 ∧ (u.lcy 0).txPhase = 0 ∧
       u.bit ⟨Reg.LCY_TX_KEY 0, 14, 14⟩ = true ∧ (u.lcy 0).flip = none) ∧
    (let s := flippable 63
     let u := s.stored (Reg.LCY_FLIP_CTL 0) armWord.toNat
     s.takes (Reg.LCY_FLIP_CTL 0) armWord.toNat ∧ u.bit (Reg.LCY_FLIP_CTL.ARM 0) = true ∧
       u.reg64 (Reg.LCY_FLIP_FRAME_LO 0) (Reg.LCY_FLIP_FRAME_HI 0) % 64 ≠ 0) ∧
    (let s := (flippable 64).modLcy 0 fun x => { x with inForce := 10 ^ 15 }
     s.working ∧ s.bit (Reg.LCY_CTL.AUTO_ROT 0) = true ∧
       max (s.lcy 0).rotNext (s.fld (Reg.LCY_CTL.ROT_HOURS 0) * hourTicks) ≤ (s.lcy 0).inForce ∧
       s.keyValid (Reg.LCY_TX_KEY 0) (1 - (s.lcy 0).txPhase) = true ∧ (s.lcy 0).flip = none ∧ (s.lcy 0).rotNext = 0) ∧
    (let s := (sets up [(Reg.LCY_CTL.AUTO_ROT 0, 1)]).modLcy 0 fun x => { x with inForce := 10 ^ 15 }
     s.bit (Reg.LCY_CTL.AUTO_ROT 0) = true ∧
       max (s.lcy 0).rotNext (s.fld (Reg.LCY_CTL.ROT_HOURS 0) * hourTicks) ≤ (s.lcy 0).inForce ∧
       s.keyValid (Reg.LCY_TX_KEY 0) (1 - (s.lcy 0).txPhase) = false) ∧
    (up.bit (Reg.LCY_CTL.AUTO_ROT 0) && decide (max (up.lcy 0).rotNext (up.fld (Reg.LCY_CTL.ROT_HOURS 0) * hourTicks) ≤ (up.lcy 0).inForce)) = false := by
  decide +kernel

/-- A search of line A that has tested `done` candidates and matches when `hit`. -/
def seeking (hit : Bool) (done : Nat) : State :=
  { lines with cph := { lines.cph with keys := [(0, List.replicate 32 0#8)] } }.modLcy 0 fun x => { x with rxEpoch := 1, search := some ⟨if hit then aesEnc (List.replicate 32 0#8) (frameIv ((1 + done) % 2 ^ 32) 9 ++ [0#8, 0#8, 0#8, 1#8]) else [1#8],
    9, 0, 0, done⟩ }

theorem witness_EpochSearch : (seeking true 2).working ∧
    (∃ r, ((seeking true 2).lcy 0).search = some r ∧ r.done ≠ 0 ∧ (seeking true 2).epochHit r 3 = true) ∧
    (∃ r, ((seeking false 2).lcy 0).search = some r ∧ (seeking false 2).epochHit r 3 = false ∧ r.done < 2 ^ 32 - 1) ∧
    (∃ r, ((seeking false (2 ^ 32 - 1)).lcy 0).search = some r ∧ 2 ^ 32 - 1 ≤ r.done ∧ (seeking false (2 ^ 32 - 1)).epochHit r 0 = false) ∧
    (up.lcy 0).search = none ∧ up.takes (Reg.LCY_RX_EPOCH 0) 77 :=
  ⟨by decide +kernel, ⟨_, rfl, by decide +kernel, by decide +kernel⟩, ⟨_, rfl, by decide +kernel, by decide +kernel⟩,
    ⟨_, rfl, by decide +kernel, by decide +kernel⟩, by decide +kernel, by decide +kernel⟩

theorem witness_PipelineRotation :
    (let s : State := { up with tick := 50 }.modLcy 0 fun x => { x with tested := true }
     (s.lcy 0).out = some 17 ∧ s.clocked ∧ (s.lcy 0).outAt + 50 ≤ s.tick ∧ (s.lcy 0).tested = true) ∧
    (up.lcy 0).out = some 17 ∧ up.tick < (up.lcy 0).outAt + 50 ∧ up.tick < (up.lcy 0).outAt + 2 ∧
    (let s : State := { up with tick := 2 }
     s.working ∧ (s.lcy 0).outAt + 2 ≤ s.tick ∧ (s.lcy 0).tested = false) := by decide +kernel

/-! ### Witnesses: key slots and requests -/

/-- The key-encryption key and the wrapped key of RFC 3394, 4.6, in the registers. -/
def wrapped : State :=
  let w := beBytes 8 0x28C9F404C4B810F4 ++ beBytes 8 0xCBCCB35CFB87F826 ++ beBytes 8 0x3F5786E2D80ED326 ++ beBytes 8 0xCBC7F0E71A99F43B ++
    beBytes 8 0xFB988B9B7A02DD21
  { (List.range 10).foldl (fun (s : State) i => s.setReg (Reg.CPH_KEY_WRAP i) (BitVec.ofNat 32 (ofLe ((w.drop (4 * i)).take 4)))) up with
    fuses := { up.fuses with kek := (List.range 32).map (BitVec.ofNat 8 ·) } }

/-- RFC 3394, 4.6. -/
theorem test_unwrap : keyUnwrap wrapped.fuses.kek wrapped.wrapBytes =
    some (beBytes 16 0x00112233445566778899AABBCCDDEEFF ++ beBytes 16 0x000102030405060708090A0B0C0D0E0F) := by decide +kernel

theorem witness_KeySlots : up.live ∧
    (let v := 5 + 2 ^ 8 * 1 + 2 ^ 11
     let u := (wrapped.stored Reg.CPH_KEY_LOAD v).setReg Reg.CPH_KEY_LOAD 0
     wrapped.takes Reg.CPH_KEY_LOAD v ∧ u.bit (Reg.CPH_KEY_STATE.LOCKED 5) = false ∧ u.keyInUse 5 = false ∧
       u.fuses.kek = wrapped.fuses.kek ∧ u.wrapBytes = wrapped.wrapBytes) ∧ (keyUnwrap wrapped.fuses.kek wrapped.wrapBytes).isNone = false ∧
    up.takes Reg.CPH_KEY_LOAD (5 + 2 ^ 8 * 7 + 2 ^ 11) ∧ up.takes Reg.CPH_KEY_LOAD (63 + 2 ^ 12) ∧ up.takes Reg.CPH_KEY_LOAD (5 + 2 ^ 12) :=
  ⟨by decide +kernel, by decide +kernel, by rw [test_unwrap]; rfl, by decide +kernel, by decide +kernel, by decide +kernel⟩

/-- The engine runs a request. -/
def busy (r : Req) : State := { up with cph := { up.cph with running := some r } }

theorem witness_RequestEngine : up.live ∧ up.takes Reg.CPH_HQ_WR 3 ∧ (busy { queue := 4 }).cph.running.isSome = true ∧ up.cph.running = none ∧
    ({ up with cph := { up.cph with rimeQ := [⟨0, true, 5, [], [], 0⟩] } } : State).cph.rimeQ = ⟨0, true, 5, [], [], 0⟩ :: [] ∧
    ({ up with cph := { up.cph with kat := true } } : State).cph.kat = true ∧ up.cph.rimeQ = [] ∧ up.cph.kat = false ∧ up.cfgWaits = 0 ∧
    (committing up false false).cfgWaits ≠ 0 ∧
    (let s := sets up [(Reg.CPH_HQ_CFG.EN, 1), (Reg.CPH_HQ_CFG.LOG2, 4), (Reg.CPH_HQ_WR.IDX, 3)]
     (s.bit Reg.CPH_HQ_CFG.EN && !(ringEmpty (s.fld Reg.CPH_HQ_WR.IDX % 2 ^ s.fld Reg.CPH_HQ_CFG.LOG2) (s.fld Reg.CPH_HQ_RD.IDX % 2 ^ s.fld Reg.CPH_HQ_CFG.LOG2)) &&
       !(ringFull (2 ^ s.fld Reg.CPH_HQ_CFG.LOG2) (s.fld Reg.CPH_HQ_CPL_WR.IDX) (s.fld Reg.CPH_HQ_CPL_RD.IDX))) = true) ∧
    (let r : Req := { queue := 4, srcHost := true, len := 16 }
     r.status = none ∧ r.waits = true ∧ r.srcHost = true ∧ r.got.length + 16 ≤ r.len ∧ r.len < r.got.length + 17 ∧ up.pcie.ctoUs ≤ 10 ^ 9) ∧
    (let r : Req := { queue := 4 }
     r.waits = false) ∧ ({ queue := 3 } : Req).queue = 3 ∧ ({ queue := 3, status := some 0x22 } : Req).status ≠ none := by decide +kernel

/-! ### Witnesses: transmission, clients, channels -/

/-- After a confirmed thermal shutdown. -/
def shut : State := sets lines [(Reg.THM_STATUS.SHUTDOWN, 1)]

theorem witness_TransmitHeads : lines.clocked ∧ lines.txOn 0 = true ∧ up.clocked ∧ up.txOn 0 = false ∧ shut.down = true ∧
    ((((sets lines [(Reg.D2D_STATUS.TRAINED, 15)]).modLn 0 fun x => { x with tileLock := true }).cleared.txPrepare 0).ln 0).mute = 0 ∧ (((pub lines [(Reg.TXP_CTL.MUTE 0, 1)]).cleared.txPrepare 0).ln 0).mute ≠ 0 ∧
    (let s := lines.modLn 0 fun x => { x with txRelock := some 0 }
     (s.ln 0).txRelock.isSome = true) ∧
    ((lines.ln 0).txRelock = none ∧ (lines.ln 0).rxRelock = none) ∧
    (let s : State := { lines with tick := 1000 }.modLn 0 fun x => { x with rxRelock := some 0 }
     s.working ∧ (s.ln 0).rxRelock = some 0 ∧ 0 + 1000 ≤ s.tick ∧ (s.ln 0).relockBad = false) := by decide +kernel

theorem witness_SpectrumMask : lines.working ∧
    (let s := (pub lines [(Reg.TXP_MASK_CFG.DEBOUNCE 0, 3)]).modLn 0 fun x => { x with maskRun := [(5, 3)] }
     (s.ln 0).maskBad = false ∧ (s.ln 0).maskRun.any (fun p => decide (s.sh (Reg.TXP_MASK_CFG.DEBOUNCE 0) ≤ p.2)) = true ∧
       1 ≤ s.sh (Reg.TXP_MASK_CFG.DEBOUNCE 0)) ∧
    (let s := (pub lines [(Reg.TXP_MASK_CFG.DEBOUNCE 0, 3)]).modLn 0 fun x => { x with maskBad := true, maskCalm := 3 }
     (s.ln 0).maskBad = true ∧ s.sh (Reg.TXP_MASK_CFG.DEBOUNCE 0) ≤ (s.ln 0).maskCalm) ∧
    (lines.ln 0).maskBad = false := by decide +kernel

/-- Port 0 is Ethernet; its frames go to channel 0, which may send when `en`. -/
def clients (en : Nat) : State :=
  pub lines [(Reg.FLO_PORT_CFG.MODE 0, 1), (Reg.FLO_PORT_CFG.MAX_LEN 0, 1518), (Reg.FLO_CH_CFG.TX_EN 0, en)]

/-- A frame of 64 bytes with its FCS. -/
def frame : IngIn := ⟨0, none, List.replicate 60 0#8 ++ ethFcs (List.replicate 60 0#8), false, false, 0, 0⟩

theorem witness_Ingress : up.live ∧ up.sh (Reg.FLO_PORT_CFG.MODE 0) = 0 ∧ shut.down = true ∧
    ((clients 1).sh (Reg.FLO_PORT_CFG.MODE 0) ≠ 0 ∧ (clients 1).down = false ∧ macDrop ((clients 1).sh (Reg.FLO_PORT_CFG.MAX_LEN 0)) frame = none ∧
      macDrop 1518 ⟨0, none, [], false, false, 0, 0⟩ = some 4 ∧ ((clients 1).ctr (portCtr 0 4)).v + 1 < 2 ^ 64) ∧
    ((clients 1).classify frame = .chan 0 ∧ (clients 1).tcOn 0 = false ∧ (clients 1).shBit (Reg.FLO_CH_CFG.TX_EN 0) = true ∧
      (clients 0).shBit (Reg.FLO_CH_CFG.TX_EN 0) = false ∧ frame.mem = false) := by decide +kernel

theorem witness_Ingress_room : (clients 1).hasRoom 0 ((clients 1).ingDepth 0) 64 = true := by decide +kernel

theorem witness_Egress : (let s := lines.setEgrQ 0 [(0, [1#8])]
      s.live ∧ (s.egrQ 0).find? (fun f => f.1 == 0) = some (0, [1#8]) ∧ s.egrNext 0 = some 0 ∧ s.down = false ∧ s.tcOn 0 = false) ∧
    (lines.egrQ 0).find? (fun f => f.1 == 0) = none := by decide +kernel

/-- Channel 0 holds one block for release at 0 ns. -/
def merging : State := lines.setCrx 0 { held := [⟨4, 0, 0, []⟩], anchor := some 0, next := some 4 }

theorem witness_ChannelReceive : lines.live ∧
    (let s := lines.modLn 0 fun x => { x with ready := [⟨[[1#8]], true⟩] }
     (s.ln 0).ready = ⟨[[1#8]], true⟩ :: []) ∧
    (lines.ln 0).ready = [] ∧
    ((merging.crx 0).oldest = some ⟨4, 0, 0, []⟩ ∧ ({ merging with tick := 1000000 } : State).relTime 0 ⟨4, 0, 0, []⟩ ≤ ({ merging with tick := 1000000 } : State).nsAt 0) ∧
    (lines.crx 0).oldest = none ∧ ({ merging with tick := 1000000 } : State).silent 0 0 = true ∧ lines.silent 0 0 = false ∧
    (let s := sets lines [(⟨Reg.FLO_CAL_FRAME_LO 0, 31, 0⟩, 63)]
     let v := word (Reg.FLO_CAL_CTL.ARM 0) 1
     let u := s.stored (Reg.FLO_CAL_CTL 0) v.toNat
     s.takes (Reg.FLO_CAL_CTL 0) v.toNat ∧ u.bit (Reg.FLO_CAL_CTL.ARM 0) = true ∧ u.reg64 (Reg.FLO_CAL_FRAME_LO 0) (Reg.FLO_CAL_FRAME_HI 0) % 64 ≠ 0) := by decide +kernel

theorem witness_ChannelReceive_swap :
    (let s := sets lines [(⟨Reg.FLO_CAL_FRAME_LO 0, 31, 0⟩, 64)]
     let v := word (Reg.FLO_CAL_CTL.ARM 0) 1
     let u := s.stored (Reg.FLO_CAL_CTL 0) v.toNat
     s.takes (Reg.FLO_CAL_CTL 0) v.toNat ∧ u.bit (Reg.FLO_CAL_CTL.ARM 0) = true ∧ u.reg64 (Reg.FLO_CAL_FRAME_LO 0) (Reg.FLO_CAL_FRAME_HI 0) = 64 ∧
       (u.ln 0).txFn = 0 ∧ u.swapAt 0 = none ∧
       u.swapFits 0 = true) := by
  decide +kernel

/-! ### Witnesses: the decoder, acquisition, monitoring -/

/-- One frame in the decoder of line A. -/
def decoding (stage : Nat) : State :=
  lines.modLn 0 fun x => { x with rxq := [{ fn := some 5, good := true, head := [], flags := 0#8, fmt := 0x80000000, iterCap := 20, loop := true, stage := stage }] }

theorem witness_DecoderPassage : (decoding 0).live ∧ ((decoding 0).rxAt 0 (·.stage == 0)).isSome = true ∧ (decoding 1).rxAt 0 (·.stage == 0) = none ∧
    ((decoding 1).rxAt 0 (·.stage == 1)).isSome = true ∧ (decoding 0).rxAt 0 (·.stage == 1) = none ∧
    ((decoding 2).rxAt 0 (·.stage < 3)).any (fun p => p.2.stage != 0) = true ∧ lines.rxAt 0 (·.stage < 3) = none := by decide +kernel

/-- Line A in a state of acquisition. -/
def acq (f : RxpSt → RxpSt) : State := (lines.modLn 0 fun x => { x with tileLock := true }).modRxp 0 f

theorem witness_Acquisition : lines.working ∧ lines.rxOn 0 = true ∧
    (((acq id).rxp 0).state = 0 ∧ ((acq id).ln 0).tileLock = true ∧ ((acq id).ln 0).rxRelock = none) ∧
    (((acq fun x => { x with state := 1, light := 120 }).rxp 0).state = 1 ∧ 120 ≤ ((acq fun x => { x with state := 1, light := 120 }).rxp 0).light) ∧
    (let s := acq fun x => { x with state := 2 }
     (s.rxp 0).state = 2 ∧ (s.rxp 0).scanLeft = 0 ∧ s.sh (Reg.RXP_CD_CFG.CD_MODE 0) ≠ 1) ∧
    (let s := pub (acq fun x => { x with state := 2 }) [(Reg.RXP_CD_CFG.CD_MODE 0, 1), (Reg.RXP_CD_SET.CD_SET 0, 0)]
     s.sh (Reg.RXP_CD_CFG.CD_MODE 0) = 1 ∧ s.cdClip 0 (s.cdSet 0) = s.cdSet 0) ∧
    (let s := pub (acq fun x => { x with state := 2 }) [(Reg.RXP_CD_CFG.CD_MODE 0, 1), (Reg.RXP_CD_SET.CD_SET 0, 5)]
     s.sh (Reg.RXP_CD_CFG.CD_MODE 0) = 1 ∧ s.cdClip 0 (s.cdSet 0) ≠ s.cdSet 0) ∧
    ((acq fun x => { x with state := 3, clkLock := true }).rxp 0).clkLock = true ∧ 16 ≤ ((acq fun x => { x with state := 4, calm := 16 }).rxp 0).calm ∧
    ((acq fun x => { x with state := 5, freqLock := true }).rxp 0).freqLock = true ∧
    (let s := (acq fun x => { x with state := 6 }).modFrm 0 fun x => { x with oof := false }
     (s.rxp 0).state = 6 ∧ (s.frm 0).oof = false) ∧
    ((acq fun x => { x with state := 7 }).rxp 0).state = 7 ∧
    (let s := acq fun x => { x with state := 3, ticks := 1000, attempt := true }
     acqBudget (s.rxp 0).state = some 1000 ∧ 1000 ≤ (s.rxp 0).ticks ∧ (s.rxp 0).attempt = true) ∧
    ((acq fun x => { x with state := 3, ticks := 1000 }).rxp 0).attempt = false ∧ acqBudget 1 = none := by decide +kernel

theorem witness_AcquisitionRestarts :
    (let v := word (Reg.RXP_CTL.ACQ_RESTART 0) 1 ||| up.reg (Reg.RXP_CTL 0)
     up.live ∧ up.takes (Reg.RXP_CTL 0) v.toNat ∧ (up.stored (Reg.RXP_CTL 0) v.toNat).bit (Reg.RXP_CTL.ACQ_RESTART 0) = true) ∧
    (let s := (acq fun x => { x with state := 7 }).modFrm 0 fun x => { x with noLock := 1024 * 40960 }
     s.working ∧ (s.rxp 0).state = 7 ∧ (s.rxp 0).restart = none ∧ 1024 * 40960 ≤ (s.frm 0).noLock) ∧
    (let s := (acq fun x => { x with state := 7, lock := true }).modFrm 0 fun x => { x with noFrame := 8192 * 40960 }
     (s.rxp 0).state = 7 ∧ (s.frm 0).noLock < 1024 * 40960 ∧ 8192 * 40960 ≤ (s.frm 0).noFrame ∧ (s.rxp 0).lock = true) ∧
    (lines.rxp 0).state ≠ 7 ∧
    (let v := word (Reg.RXP_CAP_CTL.ARM 0) 1
     let arm (f : Nat) : State := (sets up [(⟨Reg.RXP_CAP_FRAME_LO 0, 31, 0⟩, f)]).stored (Reg.RXP_CAP_CTL 0) v.toNat
     (sets up [(⟨Reg.RXP_CAP_FRAME_LO 0, 31, 0⟩, 64)]).takes (Reg.RXP_CAP_CTL 0) v.toNat ∧ (arm 64).bit (Reg.RXP_CAP_CTL.ARM 0) = true ∧
       ((arm 64).ln 0).rxFn + 64 ≤ (arm 64).reg64 (Reg.RXP_CAP_FRAME_LO 0) (Reg.RXP_CAP_FRAME_HI 0) ∧
       (arm 63).reg64 (Reg.RXP_CAP_FRAME_LO 0) (Reg.RXP_CAP_FRAME_HI 0) < ((arm 63).ln 0).rxFn + 64) := by decide +kernel

theorem witness_ReceiveMonitors : lines.working ∧
    (let s := (pub lines [(Reg.RXP_CTL.CD_TRACK 0, 1)]).modRxp 0 fun x => { x with resRun := 1000 }
     (s.shBit (Reg.RXP_CTL.CD_TRACK 0) && decide (1000 ≤ (s.rxp 0).resRun) && s.rxOn 0) = true) ∧
    (let s := lines.modRxp 0 fun x => { x with pairRun := 1000, snrRun := 9999999 }
     1000 ≤ (s.rxp 0).pairRun ∧ (s.rxp 0).paired = false ∧
       (decide (s.sh (Reg.RXP_MON_LIM.DEB 0) ≤ (s.rxp 0).snrRun) && decide (1 ≤ (s.rxp 0).snrRun) && !(s.rxp 0).snrUp) = true) ∧
    (lines.rxp 0).pairRun < 1000 := by decide +kernel

/-! ### Witnesses: ticks and line engines -/

/-- What the outside presents in a quiet tick. -/
def quiet (overrun : Bool) : TickIn := ⟨overrun, List.replicate 24 400, [], [], [], [], [], []⟩

theorem witness_Ticks : up.live ∧ up.stalled = false ∧ (quiet false).overrun = false ∧ (quiet true).overrun = true ∧ ({ up with stalled := true } : State).stalled = true ∧
    up.noSource = false ∧ (sets up [(Reg.FLT_STATUS.XO_FAIL, 1)]).noSource = true := by
  decide +kernel

/-- Line A's engine is enabled and begins to start; its two directions are trained. -/
def starting (ready : Bool) (trained : Nat) : State :=
  { (sets up [(lineState 0, 1), (Reg.D2D_STATUS.TRAINED, trained), (⟨Reg.GLB_LINE_CTL, 31, 0⟩, 0x7)]).loadShadow Reg.GLB_LINE_CTL with
    boot := { up.boot with ready := ready } }

/-- Correlations of eight windows in which no tap moves. -/
def stillRhos : List (List Int) := List.replicate 8 (List.replicate 32 0)

theorem witness_LineEngines : (starting true 3).ticking ∧
    (let s := sets (starting true 3) [(lineState 0, 0)]
     s.boot.ready = true ∧ s.engOn 0 = true ∧ s.fld (lineState 0) = 0 ∧ s.down = false) ∧
    (starting false 3).boot.ready = false ∧
    (up.engOn 0 = false ∧ (sets up [(lineState 0, 2)]).fld (lineState 0) = 2 ∧ (sets up [(lineState 0, 2)]).engOn 0 = false) ∧
    lines.engOn 0 = true ∧
    (let s := starting true 3
     (s.boot.ready && s.starting 0 && s.trained 0 && s.trained 1 && !s.down) = true ∧ ((s.cleared.foreground 0 ⟨true, [0], [], stillRhos, [], 0⟩).2 = true) ∧ s.fgReady 0 ⟨true, [0], [], stillRhos, [], 0⟩ = true ∧ s.fgReady 0 ⟨false, [], [], [], [], 0⟩ = true ∧ s.fgReady 0 ⟨true, [], [], [], [], 0⟩ = false ∧
       ([-2001].any fun p => decide (p < (-2000 : Int))) = true ∧ (s.cleared.foreground 0 ⟨false, [], [], [], [], 0⟩).2 = false) ∧
    (let s : State := { starting true 3 with tick := 7 }.modLn 0 fun x => { x with offAt := some 7 }
     (s.ln 0).offAt = some s.tick ∧ (up.ln 0).offAt ≠ some up.tick) ∧
    (let s := starting true 0
     (s.boot.ready && s.starting 0 && !s.trained 0 && !s.down) = true ∧ s.trained 1 = false ∧
       (∀ g, g < 4 → 64 ≤ ((List.range 66).filter fun k => !([0, 1].contains k) && s.laneState (66 * g + k) != 2 && s.laneState (66 * g + k) != 3).length) ∧
       ((List.range 66).filter fun k => !([0, 1, 2].contains k) && s.laneState k != 2 && s.laneState k != 3).length < 64) := by decide +kernel

/-! ### Witnesses: ports, memory, NVM records, converters -/

theorem witness_PortsAndGroups : up.live ∧ up.shownBit (Reg.HST_PORT_STATUS.LINK_UP 3) = false ∧
    (sets up [(Reg.HST_FXG_STATUS.LOCK 2, 1)]).shownBit (Reg.HST_FXG_STATUS.LOCK 2) = true ∧ up.shownBit (Reg.HST_FXG_STATUS.LOCK 2) = false ∧
    (up.cleared.startBit (Reg.HST_FXG_CTL.CAL_REQ 2) (word (Reg.HST_FXG_CTL.CAL_REQ 2) 1).toNat).bit (Reg.HST_FXG_CTL.CAL_REQ 2) = true ∧
    (up.cleared.startBit (Reg.HST_FXG_CTL.CAL_REQ 2) 0).bit (Reg.HST_FXG_CTL.CAL_REQ 2) = false := by decide +kernel

/-- After the sweep. -/
def swept : State := sets up [(Reg.MEM_STATUS.SWEEP_DONE, 1)]

theorem witness_StagingMemory : swept.live ∧ swept.pcie.d3hot = false ∧ 4 + 4 ≤ stBytes ∧ swept.bit Reg.MEM_STATUS.SWEEP_DONE = true ∧
    (∀ k ∈ lanesOf 4 4, swept.laneSyn k = 0) ∧
    (∃ k ∈ lanesOf 4 4, laneRead (({ swept with mem := { swept.mem with syn := [(stFirst + 1, 3)] } } : State).laneSyn k) = .uncorr) ∧
    up.bit Reg.MEM_STATUS.SWEEP_DONE = false ∧ swept.bit Reg.MEM_INJ_CTL.ARM = false ∧
    (let s := sets swept [(Reg.MEM_INJ_CTL.ARM, 1), (Reg.MEM_INJ_CTL.INSTANCE, laneInst 1), (Reg.MEM_INJ_CTL.LANE, laneSub 1)]
     s.bit Reg.MEM_INJ_CTL.ARM = true ∧ s.fld Reg.MEM_INJ_CTL.INSTANCE = laneInst 1 ∧ s.fld Reg.MEM_INJ_CTL.LANE = laneSub 1) ∧
    ({ up with pcie := { up.pcie with d3hot := true } } : State).pcie.d3hot = true ∧ up.takes Reg.MEM_INJ_CTL 0 ∧
    (let s : State := { sets up [(Reg.MEM_TRACK_CFG.DECAY_S, 60)] with tick := 60000000 }
     s.ticking ∧ s.acted = false ∧ ({ s with acted := true } : State).acted = true ∧ s.fld Reg.MEM_TRACK_CFG.DECAY_S = 60 ∧ s.tick ≠ 0 ∧ s.tick % (60 * 1000000) = 0 ∧ s.mem.decayDone ≠ s.tick) ∧
    up.tick = 0 := by decide +kernel

/-- A calibration set of nothing. -/
def emptySet : CalSet := ⟨0, 0, 0, 0, [], [], [], []⟩

theorem witness_NvmRecords : up.live ∧
    (let s := up.modLn 0 fun x => { x with cnv := { x.cnv with pend := [2], sets := (List.replicate 8 none).set 2 (some emptySet) } }
     (s.cnv 0).pend = 2 :: [] ∧ (s.cnv 0).sets.getD 2 none = some emptySet ∧ (s.cnv 0).lastWr = none) ∧
    (up.cnv 0).pend = [] ∧
    (let s : State := { up with mem := { up.mem with mapQ := [⟨[], none⟩] } }
     s.mem.mapQ.findIdx? (·.waitUntil.isNone) = some 0 ∧ s.mem.mapQ[0]? = some ⟨[], none⟩ ∧ s.mem.mapNext < 8192) ∧
    8192 ≤ ({ up with mem := { up.mem with mapQ := [⟨[], none⟩], mapNext := 8192 } } : State).mem.mapNext ∧
    up.mem.mapQ.findIdx? (·.waitUntil.isNone) = none ∧
    (let u := up.cleared.startBit Reg.CPH_EPOCH_CTL.RETRY (word Reg.CPH_EPOCH_CTL.RETRY 1).toNat
     u.bit Reg.CPH_EPOCH_CTL.RETRY = true ∧ u.epochMax < 0xFFFFFFFF ∧ (u.epochFree ((u.epochRef.map epochNext).getD 0)).isSome = true) ∧
    (up.cleared.startBit Reg.CPH_EPOCH_CTL.RETRY 0).bit Reg.CPH_EPOCH_CTL.RETRY = false := by decide +kernel

/-- Line A's converters run in the background. -/
def calm : State :=
  sets ((lines.modLn 0 fun x => { x with tileLock := true, psl := 1, cnv := { x.cnv with want := true } }))
    [(Reg.CNV_CTL.BG_EN 0, 1), (Reg.CNV_CTL.SKEW_EN 0, 1), (Reg.CNV_UNIT.ROLE 0 17, 2)]

/-- A step of a pass of line A's converters ends, abandoned on every branch; the slots are marked as unmasked. -/
def stepping (st : Nat) : State :=
  sets (calm.modLn 0 fun x => { x with cnv := { x.cnv with stepLen := 3, stepTicks := 3, skip := List.range 32, unmasked := List.range 512 } })
    [(Reg.CNV_STATUS.PASS_RUN 0, 1), (Reg.CNV_PASS_INFO.STEP 0, st)]

/-- The same after the steps of every branch. -/
def stepped (st : Nat) : State := (List.range 32).foldl (fun (u : State) br => (u.branchStep 0 st br).openSlots 0 br) (stepping st).cleared

theorem witness_Converters : calm.working ∧ calm.acted = false ∧ ({ calm with acted := true } : State).working ∧ calm.passDue 0 = true ∧ up.passDue 0 = false ∧
    ((stepping 0).stepEnds 0 = true ∧ (∀ p ∈ ((stepping 0).cnv 0).prio, p.left ≠ 0) ∧ (stepping 0).fld (Reg.CNV_PASS_INFO.STEP 0) = 0) ∧
    ((stepping 17).stepEnds 0 = true ∧ (stepping 17).fld (Reg.CNV_PASS_INFO.STEP 0) = 17) ∧ calm.stepEnds 0 = false ∧ calm.tick % 256 ≠ 255 ∧
    (let s := calm.modLn 0 fun x => { x with cnv := { x.cnv with cellTicks := [16, 0, 0, 0] } }
     16 ≤ (s.cnv 0).cellTicks.getD 0 0 ∧ (s.cnv 0).cell.getD 0 0 < 76) ∧ 32 < (33 : Int).natAbs ∧ (calm.cnv 0).cellTicks.getD 0 0 < 16 := by decide +kernel

/-- A fold that changes nothing. -/
theorem foldl_same {α β : Type} (f : α → β → α) (a : α) (bs : List β) (h : ∀ b ∈ bs, f a b = a) : bs.foldl f a = a := by
  induction bs with
  | nil => rfl
  | cons b bs ih => rw [List.foldl_cons, h b (by simp)]; exact ih fun c hc => h c (by simp [hc])

theorem witness_Converters_next : 0 + 1 < (stepped 0).passSteps 0 := by
  rw [stepped, foldl_same _ _ _ (by decide +kernel)]; decide +kernel
theorem witness_Converters_last : (stepped 17).passSteps 0 ≤ 17 + 1 := by
  rw [stepped, foldl_same _ _ _ (by decide +kernel)]; decide +kernel

theorem witness_Converters_priority :
    (let s := calm.modLn 0 fun x => { x with cnv := { x.cnv with prio := [⟨0, 3, 17, 0, 4⟩], sumR := [(17, ⟨2, 0, 8⟩)], sumA := [(17, ⟨2, 0, 8 * 2 ^ 36⟩)] } }
     (s.cnv 0).prio = [⟨0, 3, 17, 0, 4⟩] ∧ s.role 0 17 = 2 ∧ ((s.cnv 0).stepValues 17).isSome = true ∧ s.stepEnds 0 = false) := by decide +kernel

theorem witness_Converters_window :
    (let s : State := { calm.modLn 0 fun x => { x with cnv := { x.cnv with fails := [(3, 1)], win := [(2, ⟨1, 0, 0⟩), (3, ⟨1, 10 ^ 9, 10 ^ 18⟩)] } } with tick := 255 }
     s.tick % 256 = 255 ∧ (s.cnv 0).winTick ≠ some s.tick ∧ s.skewRuns 0 = true ∧ s.calSuspend 0 ≠ 1 ∧ s.role 0 3 = 0 ∧
       ((s.cnv 0).win.get noSums 3).n ≠ 0 ∧ (s.cnv 0).winX.get natZero 3 ≤ ((s.cnv 0).win.get noSums 3).n ∧
       s.winFails 0 3 = true ∧ (s.cnv 0).fails.get natZero 3 = 1) ∧
    ({ up with tick := 255 } : State).skewRuns 0 = false := by decide +kernel

/-! ### Witnesses: die-to-die links -/

/-- The words of 66 lanes that carry flit 5 on lanes 0 to 15, idle (R287): position p's bit 63 - i is the flit's bit 16 i + p. -/
def idleFlit : List Nat := [1, 0, 2, 0, 2, 1, 1, 3, 1, 2 ^ 63, 0, 2 ^ 63 + 3, 3, 2, 2, 0] ++ List.replicate 50 0
/-- The same with a request for flit 7. -/
def askFlit : List Nat := [1, 2, 1, 2 ^ 62, 3, 1, 0, 3, 2, 2 ^ 63 + 1, 3, 2 ^ 63 + 2, 3, 2 ^ 62 + 1, 2 ^ 62 + 2, 2 ^ 62 + 1] ++ List.replicate 50 0

/-- Every direction is trained, sub-link 0 up and its receiver on lanes 0 to 15. -/
def linked (slots : SMap (Option FlitSlot)) : State :=
  { sets up [(Reg.D2D_STATUS.TRAINED, 15), (Reg.D2D_SUB.UP 0, 1), (Reg.D2D_SUB.DIAG 0, 0)] with
    d2d := { up.d2d with subs := [(0, { map := List.range 16, slots := slots })] } }

theorem witness_Flits : (linked []).clocked ∧ (sets up [(Reg.D2D_SUB.UP 0, 0)]).bit (Reg.D2D_SUB.UP 0) = false ∧
    (sets up [(Reg.D2D_SUB.UP 0, 0)]).subLive 0 = false ∧ (linked []).subLive 0 = true ∧
    (((linked []).sub 0).decode (List.replicate 66 0)).2.1 = false ∧ ((linked []).sub 0).slots.get noSlot 9 = none ∧
    (((linked []).sub 0).decode (List.replicate 66 0)).2.2.late 9 = false ∧ ({ (linked []).sub 0 with last := some 9 } : SubLink).late 9 = true ∧
    (let s := linked [(5, some ⟨some (1, []), none⟩)]
     s.trained 0 = true ∧ ((s.sub 0).slots.get noSlot 5).bind FlitSlot.good = some (1, []) ∧ (s.subLive 0 && !false && !s.retrains 0) = true ∧
       4 * (s.sub 0).num + 0 % 4 = s.d2d.smp.get natZero 0 ∧ s.d2d.wait.get (fun _ => []) 0 = []) ∧
    (let s : State := { linked [] with d2d := { (linked []).d2d with smp := [(0, 1)] } }
     4 * (s.sub 0).num + 0 % 4 ≠ s.d2d.smp.get natZero 0 ∧ s.d2d.wait.get (fun _ => []) 0 = []) ∧
    ((linked []).trained 0 = true ∧ (((linked []).sub 0).slots.get noSlot 5).bind FlitSlot.good = none ∧ (linked []).d2d.eraTick ≠ some (linked []).tick) ∧
    up.trained 0 = false ∧
    (let s := (up.modSnd 0 fun x => { x with ctl := [.tile 0 0 []] }).modLn 0 fun x => { x with cnv := { x.cnv with due := [(0, {})] } }
     (s.ctlOpen 0 && !(s.ln 0).cnv.due.isEmpty && !(s.ln 0).ctlHeld) = true) ∧ up.ctlOpen 0 = false := by decide +kernel

/-- A sender with a ready sample flit, whose pair is down. -/
theorem witness_Flits_sample :
    (let s := (sets up [(Reg.D2D_STATUS.TRAINED, 15), (Reg.D2D_SUB.UP 16, 1), (Reg.D2D_SUB.DIAG 16, 0), (Reg.D2D_SUB.UP 0, 0)]).modSnd 16 fun x => { x with smp := [(0, [1#8])] }
     let r := s.modSnd 16 fun x => { x with resend := [3], replay := [(3, 1, [2#8])] }
     s.subLive 0 = false ∧ subPair 0 = 16 ∧ s.trained 1 = true ∧ s.subLive 16 = true ∧ (s.snd 16).resend = [] ∧ (s.snd 16).smp = (0, [1#8]) :: [] ∧
       0 ≤ (s.snd 16).cyc ∧ (r.snd 16).resend = 3 :: [] ∧ (r.snd 16).replay.find? (fun f => f.1 == 3) = some (3, 1, [2#8])) := by decide +kernel

theorem witness_Flits_control :
    (let s := (linked []).modSnd 0 fun x => { x with replay := [(5, 3, [])], sent := [(5, .ack 0 0 [])] }
     (s.snd 0).replay.find? (fun p => p.1 == 5) = some (5, 3, []) ∧ (s.snd 0).sentAt 5 = some (.ack 0 0 [])) := by decide +kernel

theorem witness_Flits_correct :
    (let d := ((linked []).sub 0).decode idleFlit
     let e := ((linked [(5, some ⟨none, some (List.replicate 128 0#8, List.range 16)⟩)]).sub 0).decode idleFlit
     d.2.1 = true ∧ flitRq d.1 = none ∧ flitSeq d.1 = 5 ∧ d.2.2.slots.get noSlot (flitSeq d.1) = none ∧ d.2.2.late 5 = false ∧
       e.2.1 = true ∧ e.2.2.slots.get noSlot (flitSeq e.1) = some ⟨none, some (List.replicate 128 0#8, List.range 16)⟩) := by decide +kernel

theorem witness_Flits_resend :
    (let d := ((linked []).sub 0).decode askFlit
     let s := (linked []).modSnd 16 fun x => { x with replay := [(7, 0, [])] }
     d.2.1 = true ∧ flitRq d.1 = some 7 ∧ (s.snd 16).resent.contains 7 = false ∧ (s.snd 16).resend.contains 7 = false ∧
       ((s.snd 16).replay.any fun f => f.1 == 7) = true ∧ (((linked []).snd 16).replay.any fun f => f.1 == 7) = false) := by decide +kernel

theorem witness_Lanes : (linked []).working ∧ up.trained 0 = false ∧ (linked []).trained 0 = true ∧
    (let s := sets (linked []) [(Reg.D2D_CTL.AUTO_SPARE, 1), (Reg.D2D_LANE.STATE 64, 1)]
     let u : State := { s with d2d := { s.d2d with laneDue := [0] } }
     s.acted = false ∧ s.laneState 0 = 0 ∧ s.laneState 0 ≠ 3 ∧ u.d2d.laneDue = [0] ∧ u.laneUsed 0 = true ∧ u.bit Reg.D2D_CTL.AUTO_SPARE = true ∧
       u.groupSpares 0 = 64 :: (u.groupSpares 0).tail) ∧
    (let s := (List.range 66).foldl (fun s k => sets s [(Reg.D2D_LANE.STATE k, 0)]) (sets (linked []) [(Reg.D2D_CTL.AUTO_SPARE, 1)])
     s.groupSpares 0 = []) ∧ ({ linked [] with acted := true } : State).working ∧
    (sets (linked []) [(Reg.D2D_LANE.STATE 0, 3)]).laneState 0 = 3 ∧
    (let s : State := { sets (linked []) [(Reg.D2D_CTL.ERR_THR, 3)] with tick := 10 ^ 9, d2d := { (linked []).d2d with err := [(0, 4)] } }
     s.d2d.winFrom + s.fld Reg.D2D_ERR_WIN.WIN ≤ s.tick ∧ s.laneState 0 = 0 ∧ s.fld Reg.D2D_CTL.ERR_THR < s.d2d.err.get natZero 0) ∧
    (linked []).tick < (linked []).d2d.winFrom + (linked []).fld Reg.D2D_ERR_WIN.WIN ∧
    (let s := (linked []).setSub 0 { map := List.range 16, run := 64 }
     (decide (64 ≤ (s.sub 0).run) && s.bit (Reg.D2D_SUB.UP 0) && s.nextFld (Reg.D2D_SUB.DIAG 0) == 0 && !s.subSick 0) = true) ∧
    (let s : State := { sets (linked []) [(Reg.D2D_SUB.DIAG 0, 1)] with tick := 20 }
     s.bit (Reg.D2D_SUB.DIAG 0) = true ∧ s.nextFld (Reg.D2D_SUB.DIAG 0) = 1 ∧ (s.sub 0).diagFrom + 20 ≤ s.tick ∧ 3 ∈ (s.sub 0).map) := by decide +kernel

/-! ### Witnesses: the Rime channel -/

/-- Rime receives on port 0; `x` is its channel receiver 0's packet. -/
def rime (x : Option RimeRx) (cand : Option RimeRx) : State :=
  (sets up [(Reg.RIM_CTL.EN, 1), (Reg.RIM_PORT_CFG.RX_EN 0, 1), (Reg.RIM_ID.SHORT_ID, 9)]).setRp 0 { act := [(0, x)], cand := [(0, cand)] }

/-- A TRACE_REQ from 2 with a right header CRC, and its payload with a right CRC. -/
def rimeHead (type len : Byte) : List Byte := let h := [type, len, 0#8, 2#8, 1#8]; h ++ beBytes 1 (rimHcrc h)
def rimeBody (h p : List Byte) : List Byte := p ++ beBytes 4 (crc32 (h ++ p))

theorem witness_RimeReception : (rime none none).live ∧
    (let s := rime none none
     let corr : List Nat := (List.replicate 129 1).set 64 2
     (s.bit Reg.RIM_CTL.EN && s.bit (Reg.RIM_PORT_CFG.RX_EN 0) && corrPeak corr && decide (popCount 32 (0xE3D42B9C ^^^ 0xE3D42B9C) ≤ s.fld Reg.RIM_CTL.SYNC_ERR)) = true ∧
       (s.rp 0).act.get noRx 0 = none) ∧
    up.bit Reg.RIM_CTL.EN = false ∧
    (let s := rime (some ⟨100, 5, none⟩) none
     (s.rp 0).act.get noRx 0 = some ⟨100, 5, none⟩ ∧ 0 + 2 * s.fld Reg.RIM_CTL.CAPTURE ≤ 100 ∧ 100 < 100 + 2 * s.fld Reg.RIM_CTL.CAPTURE ∧
       (s.rp 0).cand.get noRx 0 = none ∧ ((rime (some ⟨100, 5, none⟩) (some ⟨90, 1, none⟩)).rp 0).cand.get noRx 0 = some ⟨90, 1, none⟩ ∧ (ofBe ((rimeHead 4#8 4#8).drop 5) == rimHcrc ((rimeHead 4#8 4#8).take 5)) = true ∧ (rimeHead 4#8 4#8).length = 6) ∧
    (let s := rime (some ⟨100, 5, some (rimeHead 4#8 4#8)⟩) none
     ((s.rp 0).act.get noRx 0).any (fun a => a.hdr.isSome) = true ∧ s.bit Reg.RIM_CTL.REQUIRE_AUTH = false ∧
       (let p : List Byte := List.replicate 4 0#8
        let b := rimeBody (rimeHead 4#8 4#8) p
        b.length = 4 + 4 ∧ ofBe (b.drop 4) = crc32 (rimeHead 4#8 4#8 ++ b.take 4) ∧ rimLenOk 4 false p = true ∧ 2 ≠ s.fld Reg.RIM_ID.SHORT_ID)) ∧
    (sets up [(Reg.RIM_CTL.REQUIRE_AUTH, 1)]).bit Reg.RIM_CTL.REQUIRE_AUTH = true ∧
    (let p : List Byte := List.replicate 12 0#8
     let b := rimeBody (rimeHead 0x84#8 12#8) p
     b.length = 12 + 4 ∧ ofBe (b.drop 12) = crc32 (rimeHead 0x84#8 12#8 ++ b.take 12) ∧ rimLenOk (0x84 % 128) true (p.take 4) = true) := by decide +kernel

/-- The engine runs Rime's request 0 on slot 5, whose key is of usage `u`. -/
def signing (sign : Bool) (u : Nat) (mac : List Byte) : State :=
  { sets (rime none none) [(Reg.CPH_KEY_STATE.USAGE 5, u)] with
    cph := { up.cph with running := some { queue := 2, slot := 5, rimeId := 0, rimeSign := sign, iv := mac, got := [1#8] }, keys := [(5, List.replicate 32 0#8)] } }

theorem witness_RimeAuthentication : up.live ∧ (∀ r, up.cph.running = some r → r.queue ≠ 2) ∧
    (let s := (signing true 3 []).setRp 0 { sig := .asked 0 }
     (s.keyUsage 5 == 3) = true ∧ s.rimSigner 0 = some 0) ∧
    ((signing true 1 []).keyUsage 5 ≠ 3 ∧ (signing true 1 []).keyUsage 5 ≠ 4) ∧
    (let mac := (aesCmac (List.replicate 32 0#8) [1#8]).take 8
     let m : RimeMsg := ⟨0, 0, [], [], [], 0, 0, 0, true⟩
     let s : State := { signing false 3 mac with rim := { up.rim with verify := [(0, m, 0)] } }
     s.rim.verify.find? (fun v => v.1 == 0) = some (0, m, 0) ∧ ((s.keyUsage 5 == 3) && (aesCmac (s.key 5) [1#8]).take 8 == mac) = true ∧ m.port < 2) ∧
    (let q : RimeReq := ⟨0, false, 5, [], [], 0⟩
     let s : State := { up with tick := 10000, cph := { up.cph with rimeQ := [q] }, rim := { up.rim with verify := [(0, ⟨0, 0, [], [], [], 0, 0, 0, true⟩, 0)] } }
     q ∈ s.cph.rimeQ ∧ q.made + 10000 ≤ s.tick ∧ s.rimSigner q.id = none ∧ s.rim.verify.any (fun v => v.1 == q.id) = true) ∧
    up.cph.rimeQ = [] ∧
    (let s : State := { sets up [(Reg.RIM_NB_0.VALID 7, 1)] with tick := 10000000 }
     s.bit (Reg.RIM_NB_0.VALID 7) = true ∧ s.nbHeard 7 + 10000000 ≤ s.tick) ∧ up.bit (Reg.RIM_NB_0.VALID 7) = false := by
  refine ⟨by decide +kernel, (by intro r h; cases h), by decide +kernel, by decide +kernel, by decide +kernel, by decide +kernel, rfl, by decide +kernel,
    by decide +kernel⟩

/-- A packet, and Rime sending on port 0 over line A. -/
def packet (busy : Nat) : RimePkt := { type := 4, payload := [], pri := 4, made := 0, busy := busy }
def sending (x : RimePort) : State :=
  (sets (lines.modLn 0 fun y => { y with mute := 0 }) [(Reg.RIM_CTL.EN, 1), (Reg.RIM_PORT_CFG.TX_EN 0, 1), (Reg.RIM_PORT_CFG.TX_LINES 0, 1),
    (Reg.TXP_CTL.RIME_EN 0, 1), (Reg.RIM_ID.SHORT_ID, 9), (Reg.RIM_CTL.AUTH_EN, 1)]).setRp 0 x

theorem witness_RimeSending : (sending {}).live ∧ up.rimCan 0 = false ∧
    (let s := sending { queue := [packet 0] }
     s.rimCan 0 = true ∧ (s.rp 0).onAir = false ∧ (s.rp 0).cur = none ∧ (s.rp 0).queue ≠ [] ∧ s.bit Reg.RIM_CTL.AUTH_EN = true) ∧
    (let s := sending { cur := some (packet 0) }
     s.rimCan 0 = true ∧ (s.rp 0).cur = some (packet 0) ∧ (s.rp 0).queue = [] ∧ (s.rp 0).sig = .none ∧ s.rimBusy 0 0 0 = false ∧ s.rimBusy 0 100000 0 = true ∧
       (packet 0).busy < 15) ∧
    (((sending { cur := some (packet 0), sig := .done [] }).rp 0).sig = .done [] ∧ ((sending { cur := some (packet 0), sig := .asked 3 }).rp 0).sig = .asked 3 ∧
      ({ packet 0 with pri := 0 } : RimePkt).pri < (packet 0).pri) ∧
    15 ≤ (packet 15).busy ∧ ((sending { onAir := true }).rp 0).onAir = true ∧ 0 + ({ onAir := true } : RimePort).airTime ≤ ({ sending {} with tick := 200 } : State).tick ∧
    ((sending {}).rp 0).onAir = false ∧ worstPri (List.replicate 16 (packet 0)) = 4 ∧ worstPri [{ packet 0 with pri := 0 }] = 0 ∧
    (List.replicate 16 (packet 0)).findIdx? (fun p => p.pri == 4) = some 0 ∧
    (let s := sending { idDue := some 0, cvLeft := 2, alarms := [(⟨1, 0, true, 0, 0⟩, 3, 0)] }
     (s.rp 0).idDue = some 0 ∧ 0 ≤ s.tick ∧ (s.rp 0).depth < 16 ∧ (s.rp 0).cvLeft ≠ 0 ∧ (s.rp 0).cvDue ≤ s.tick ∧
       (s.rp 0).alarms.findIdx? (fun a => decide (a.2.2 ≤ s.tick)) = some 0 ∧ (s.rp 0).alarms[0]? = some (⟨1, 0, true, 0, 0⟩, 3, 0)) ∧
    ((sending {}).rp 0).idDue = none ∧ ((sending {}).rp 0).cvLeft = 0 ∧
    ((sending {}).rp 0).alarms.findIdx? (fun a => decide (a.2.2 ≤ (sending {}).tick)) = none := by
  refine ⟨by decide +kernel, by decide +kernel, by decide +kernel,
    ⟨by decide +kernel, rfl, by decide +kernel, by decide +kernel, by decide +kernel, by decide +kernel, by decide⟩, by decide +kernel, by decide, by decide +kernel,
    by decide +kernel, by decide +kernel, by decide +kernel, by decide +kernel, by decide +kernel, by decide +kernel, by decide +kernel, by decide +kernel, by decide +kernel⟩

theorem witness_RimeTracing : up.live ∧
    (let s := sending {}
     let v := word Reg.RIM_TRACE_CTL.START 1
     let u := s.stored Reg.RIM_TRACE_CTL v.toNat
     s.takes Reg.RIM_TRACE_CTL v.toNat ∧ u.bit Reg.RIM_TRACE_CTL.START = true ∧ u.fld Reg.RIM_TRACE_CTL.PORT = 0 ∧ u.rimTx 0 = true ∧ (u.rp 0).depth < 16) ∧
    (let v := word Reg.RIM_TRACE_CTL.START 1
     up.takes Reg.RIM_TRACE_CTL v.toNat ∧ (up.stored Reg.RIM_TRACE_CTL v.toNat).rimTx 0 = false) ∧
    (let s : State := { sending {} with rim := { (sending {}).rim with replies := [⟨3, 2, 0, 0, 0, 0⟩] } }
     s.rim.replies.filter (fun r => decide (r.due ≤ s.tick)) = [⟨3, 2, 0, 0, 0, 0⟩] ∧ s.rimTx 0 = true) ∧
    up.rim.replies = [] ∧ ({ up with rim := { up.rim with traceEnd := some 0 } } : State).rim.traceEnd = some 0 ∧ up.rim.traceEnd = none ∧
    up.takes Reg.RIM_TX_WR 3 ∧ (sets up [(Reg.RIM_RING_CFG.TX_EN, 1)]).bit Reg.RIM_RING_CFG.TX_EN = true ∧ up.bit Reg.RIM_RING_CFG.TX_EN = false := by
  decide +kernel

/-! ### Witnesses: timing -/

/-- Input 2 holds the conditions of a qualified input; the DPLL is in state `st` on it. -/
def reference (st : Nat) : State :=
  { sets up [(Reg.CLK_STATUS.STATE, st)] with
    clk := { up.clk with ins := up.clk.ins.set 2 { active := true, tot := some 0, rank := 1, held := 2000001 }, pub := some 2, there := true, due := some (0, true) } }

theorem witness_References : (reference 2).deciding ∧ ({ reference 2 with acted := true } : State).ticking ∧
    (((reference 2).refIn 2).qualified = false ∧ ((reference 2).refIn 2).rank ≠ 0 ∧ (reference 2).refWait 2 < ((reference 2).refIn 2).held) ∧
    (up.refIn 2).rank = 0 ∧ (reference 2).dpll = 2 ∧ (reference 2).clk.pub = some 2 ∧ (reference 2).clk.there = true ∧ (reference 2).clk.first = false ∧
    ({ reference 2 with clk := { (reference 2).clk with first := true } } : State).clk.first = true ∧ ((reference 2).refFreq 2 - (reference 2).clk.out).natAbs = 0 ∧
    (reference 1).dpll ≠ 2 ∧
    (reference 2).clk.due = some (0, true) ∧ up.clk.due = none ∧ up.takes Reg.CLK_NUM_FREQ 5 := by decide +kernel

theorem witness_TimeCounter :
    (let s := sets up [(Reg.TIM_CMP_CTL.ARM 1, 1)]
     s.live ∧ s.bit (Reg.TIM_CMP_CTL.ARM 1) = true ∧ 0 ≤ sx 64 (twos 64 ((s.nowNs 0 : Int) - s.reg64 (Reg.TIM_CMP_LO 1) (Reg.TIM_CMP_HI 1)))) ∧
    (let s := sets up [(Reg.TIM_CMP_CTL.ARM 1, 1), (⟨Reg.TIM_CMP_LO 1, 31, 0⟩, 1)]
     sx 64 (twos 64 ((s.nowNs 0 : Int) - s.reg64 (Reg.TIM_CMP_LO 1) (Reg.TIM_CMP_HI 1))) < 0) ∧
    up.bit (Reg.TIM_CMP_CTL.ARM 1) = false ∧ up.takes (Reg.TIM_CMP_CTL 1) 1 ∧ up.takes Reg.TIM_ADJ_CTL 1 ∧ up.takes Reg.TIM_ADJ_CTL 2 ∧
    (let s := sets up [(⟨Reg.TIM_ACT_TICK_LO, 31, 0⟩, 5)]
     decide (s.reg64 Reg.TIM_ACT_TICK_LO Reg.TIM_ACT_TICK_HI ≤ s.tick) = false ∧ s.takes Reg.TIM_ADJ_CTL 1) ∧
    (let s : State := { sets up [(⟨Reg.TIM_ACT_TICK_LO, 31, 0⟩, 5), (Reg.TIM_ADJ_CTL.STEP, 1)] with tick := 6 }
     s.ticking ∧ s.adjDue = true ∧ s.bit Reg.TIM_ADJ_CTL.STEP = true ∧ s.reg64 Reg.TIM_ACT_TICK_LO Reg.TIM_ACT_TICK_HI ≠ s.tick) ∧
    (let s : State := { sets up [(Reg.TIM_ADJ_CTL.SET, 1)] with tick := 6 }
     s.adjDue = true ∧ s.bit Reg.TIM_ADJ_CTL.STEP = false) ∧ up.adjDue = false ∧ up.tim.done = none ∧
    ({ up with tim := { up.tim with done := some true } } : State).tim.done = some true := by decide +kernel

/-- A ToD message says second 1; the edge of PPS_IN comes two seconds later. -/
def timed : State := { up with tick := 2000000, tim := { up.tim with tod := some (1, 0) }, timeNs := 2000000000 }

/-- `TOD 000000000007 01 ` with its checksum (R355). -/
def todBytes : List Byte :=
  [0x54#8, 0x4F#8, 0x44#8, 0x20#8, 0x30#8, 0x30#8, 0x30#8, 0x30#8, 0x30#8, 0x30#8, 0x30#8, 0x30#8, 0x30#8, 0x30#8, 0x30#8, 0x37#8, 0x20#8,
   0x30#8, 0x31#8, 0x20#8, 0x37#8, 0x39#8, 0x0D#8, 0x0A#8]

theorem witness_TimeOfDay : up.live ∧ 999 < 1000 ∧ (up.ctr 194).v + 1 < 2 ^ 64 ∧ 1000 ≤ 1000 ∧ up.tim.tod = none ∧
    (timed.tim.tod = some (1, 0) ∧ 0 + 50000000 ≤ 500 * timed.tick + 0 ∧ 500 * up.tick + 0 < 0 + 50000000 ∧ ({ timed.tim with mismatch := 3 } : TimSt).mismatch = 3 ∧ timed.bit Reg.TIM_STATUS.LOADED = false) ∧
    (let s := sets timed [(Reg.TIM_STATUS.LOADED, 1)]
     s.bit Reg.TIM_STATUS.LOADED = true ∧ s.tim.mismatch < 3 ∧ sx 16 (s.fld (Reg.TIM_PPS_CFG.IN_DLY)) = 0 ∧
       (1 : Int) ≠ ((s.timeAt 0 : Int) + (10 ^ 9 * 2 ^ 32 : Nat) / 2) / (10 ^ 9 * 2 ^ 32 : Nat)) ∧
    todParse todBytes = some 7 ∧ todParse [] = none ∧
    (timed.tim.outMark < timed.outSecond (timed.timeAt 0) ∧ up.outSecond (up.timeAt 0) ≤ up.tim.outMark) ∧
    (timed.bit Reg.TIM_PPS_OUT.SQUELCH && !timed.bit Reg.TIM_STATUS.LOADED) = timed.bit Reg.TIM_PPS_OUT.SQUELCH ∧
    ({ up with tim := { up.tim with todOut := some 0 } } : State).tim.todOut = some 0 ∧ up.tim.todOut = none ∧
    (let s : State := { up with tick := 1000 }
     s.ticking ∧ (decide ((s.ln 0).tt.last + 1000 ≤ s.tick) && !(s.ln 0).tt.lost && !s.acted) = true) ∧
    up.tick < (up.ln 0).tt.last + 1000 := by decide +kernel

/-! ### Witnesses: sensors, counters, reads, the host link -/

/-- Monitor 0 runs with its reference settled; `x` is its unit. -/
def monitor (x : MonUnit) : State :=
  (sets up [(Reg.MON_CTL.EN 0, 1), (Reg.MON_CTL.LEN 0, 4), (Reg.MON_LIST.VALID 0 0, 1), (Reg.MON_STATUS.SETTLED, 1)]).setMon 0 x

theorem witness_SensorsAndMonitors : up.deciding ∧ ({ up with acted := true } : State).ticking ∧
    (let s : State := { up with thm := { up.thm with due := [3], gateOk := true } }
     s.thm.due ≠ [] ∧ s.thm.gateOk = true) ∧
    (sets up [(Reg.THM_STATUS.GATE, 1)]).bit Reg.THM_STATUS.GATE = true ∧ up.thm.due = [] ∧ up.bit Reg.THM_STATUS.GATE = false ∧
    ((monitor { on := true }).monRuns 0 = true ∧ ((monitor { on := true }).mon 0).on = true ∧ ((monitor { on := true }).mon 0).urg = none) ∧
    ((monitor { on := true, urg := some 3 }).mon 0).urg = some 3 ∧ ((monitor {}).mon 0).on = false ∧
    (up.monSettled 0 = false ∧ (({ up with tick := 50 } : State).mon 0).settleAt ≤ ({ up with tick := 50 } : State).tick) ∧
    (monitor {}).monSettled 0 = true ∧
    (3 ≤ ((monitor { fails := 3 }).mon 0).fails ∧ (monitor { fails := 3 }).monIsolated 0 = false) ∧ ((monitor {}).mon 0).fails < 3 ∧
    (let s := monitor { runs := [(2, 2 * 100000 + 1)] }
     let q := (s.mon 0).runs.get (fun _ => 0) 2
     (!s.monIsolated 0 && decide (s.fld (Reg.MON_LIST.DEB 0 2) ≤ q / 2) && decide (0 < q / 2) && ((q % 2 == 1) != (s.mon 0).out.get (fun _ => false) 2)) = true) ∧
    (let v := word (Reg.MON_CTL.RETEST 0) 1 ||| up.reg (Reg.MON_CTL 0)
     up.takes (Reg.MON_CTL 0) v.toNat ∧ (up.stored (Reg.MON_CTL 0) v.toNat).bit (Reg.MON_CTL.RETEST 0) = true) ∧
    (let v := word Reg.MON_URG.GO 1
     let w := (monitor { on := true }).cleared.startBit Reg.MON_URG.GO v.toNat
     w.bit Reg.MON_URG.GO = true ∧ w.fld Reg.MON_URG.UNIT = 0 ∧ w.fld Reg.MON_URG.ENTRY = 0 ∧
       (!w.bit (Reg.MON_LIST.VALID 0 0) || w.monIsolated 0 || !w.monSettled 0 || !(w.mon 0).on) = false) ∧
    (let v := word Reg.MON_URG.GO 1
     let w := up.cleared.startBit Reg.MON_URG.GO v.toNat
     w.bit Reg.MON_URG.GO = true ∧ (w.mon 0).on = false) ∧
    (up.cleared.startBit Reg.MON_URG.GO 0).bit Reg.MON_URG.GO = false := by decide +kernel

theorem witness_Counters : up.ticking ∧ up.snapPend = none ∧ ({ up with snapPend := some ⟨1, 2, []⟩ } : State).snapPend = some ⟨1, 2, []⟩ ∧
    up.bit Reg.PMC_SNAP_CTL.FREEZE = false ∧ (sets up [(Reg.PMC_SNAP_CTL.FREEZE, 1)]).bit Reg.PMC_SNAP_CTL.FREEZE = true ∧
    up.takes Reg.PMC_SNAP_CTL 1 ∧ up.takes Reg.PMC_PRESET_IDX 3 ∧ (up.win 7).fin = none ∧
    (({ up with wins := [(7, { fin := some (8000, 3, 1000, 1000) })] } : State).win 7).fin = some (8000, 3, 1000, 1000) := by decide +kernel

theorem witness_Reads : up.live ∧ up.captured 0 0x80 = none ∧ ({ up with lat0 := [(0x80, some 1)] } : State).captured 0 0x80 ≠ none ∧ ({ up with pcie := { up.pcie with d3hot := true } } : State).pcie.d3hot = true ∧ up.pcie.d3hot = false ∧ 0x80 % 4 = 0 ∧
    companions 0x80 = [0x84] ∧ companions 0x10000 = [] ∧ companions 0x10004 = [] ∧ 3 % 4 ≠ 0 ∧
    (sets up [(Reg.PMC_USER_EN.EN, 1)]).bit Reg.PMC_USER_EN.EN = true ∧ up.bit Reg.PMC_USER_EN.EN = false ∧ up.lat0 = up.lat2 ∧
    mirrorOf 0 = some 0x540000 ∧ mirrorOf 0x92000 = none ∧ up.bit Reg.PMC_MIR_LOG.VALID = false ∧
    (sets up [(Reg.PMC_MIR_LOG.VALID, 1)]).bit Reg.PMC_MIR_LOG.VALID = true := by decide +kernel

/-- Vector 33's message is pending and the link is up. -/
def pendingMsg (bme mask : Bool) : State :=
  { sets up [(⟨Reg.MSIX_PBA 1, 1, 1⟩, 1), (Reg.MSIX_CTL.MASK 33, 0), (Reg.GLB_HOST_STATUS.LINK_GEN, 4)] with pcie := { up.pcie with bme := bme, msixMask := mask } }

theorem witness_HostLink : up.live ∧ 999 < 1000 ∧ (up.ctr 193).v + 1 < 2 ^ 64 ∧ (∀ ns, PcieRst.flr = .perst ns → 1000 ≤ ns) ∧
    (cfgSet up.pcie (.power true)).d3hot = true ∧
    (let s := pendingMsg true true
     s.bit ⟨Reg.MSIX_PBA 1, 1, 1⟩ = true ∧ s.bit (Reg.MSIX_CTL.MASK 33) = false ∧ s.fld Reg.GLB_HOST_STATUS.LINK_GEN ≠ 0 ∧
       (cfgSet s.pcie (.msixMask false)).msixMask = false ∧ (cfgSet s.pcie (.msixMask false)).bme = true ∧ (cfgSet s.pcie (.msixMask false)).d3hot = false) ∧
    (cfgSet (pendingMsg false false).pcie (.busMaster true)).bme = true ∧
    ((pendingMsg true false).takes (Reg.MSIX_CTL 33) 0 ∧
      ((pendingMsg true false).bit ⟨Reg.MSIX_PBA 1, 1, 1⟩ && !(pendingMsg true false).pcie.msixMask && (pendingMsg true false).pcie.bme &&
        (pendingMsg true false).fld Reg.GLB_HOST_STATUS.LINK_GEN != 0) = true) ∧
    up.takes (Reg.MSIX_CTL 33) 0 := by
  refine ⟨by decide +kernel, by decide, by decide +kernel, (by intro ns h; cases h), by decide +kernel, by decide +kernel, by decide +kernel, by decide +kernel, by decide +kernel⟩

theorem witness_SmBus : up.live ∧ up.page[0]? = some 0xB0#8 ∧ up.page[1]? = some 0#8 ∧ up.page[32]? = none ∧ up.page.length ≤ 255 := by decide +kernel

/-! ### Witnesses: clauses that the ones above leave -/

theorem witness_HeldIgnores_down : shut.live ∧ shut.down = true ∧ stopsWhenDown (.maskViol 0) = true := by decide +kernel

theorem witness_HealthAndMarkers_pass :
    (let s : State := { up with boot := { up.boot with healthEnd := some 0 } }
     s.ticking ∧ s.boot.healthEnd = some 0 ∧ 0 ≤ s.tick ∧ s.bit Reg.THM_STATUS.SHUTDOWN = false ∧ (s.boot.healthS == 0 || s.boot.health.isEmpty) = true) := by
  decide +kernel

/-- A commit whose image says nothing of a format in use, and one whose frames have all come. -/
theorem witness_CommitSteps_ends :
    (let s := committing (pub (slot0 lines []) [(⟨Reg.FRM_FMT 0 0, 31, 0⟩, 0x12)]) false false
     s.live ∧ s.commit = some (waiting false false) ∧ s.cph.running = none ∧ (s.judgeSlot 0 .ok).1 = 0 ∧
       (let v := (s.judgeSlot 0 .ok).2.2
        let q := s.cleared.putImage (waiting false false) v
        (q.2.1 && q.1.framesOk 0 && q.1.framesOk 1 && q.2.2.commitOk v) = false)) ∧
    (let s := committing up true true
     s.ticking ∧ s.commit = some (waiting true true) ∧ s.down = false) := by decide +kernel

/-- A line cipher's flip is armed. -/
theorem witness_WritesAreWhole_armed :
    (let s := sets up [(Reg.LCY_FLIP_CTL.ARM 0, 1)]
     s.live ∧ s.pcie.d3hot = false ∧ s.bit (Reg.LCY_FLIP_CTL.ARM 0) = true ∧ writeOf (.flipArm 0 1) = some (Reg.LCY_FLIP_CTL 0, 1) ∧
       s.cleared.accessCause .w32 (Reg.LCY_FLIP_CTL 0) 1 = 4) := by decide +kernel

theorem witness_Alignment_check :
    (let s := (hunting [(5, 0)] false).modRxp 0 fun x => { x with lock := false }
     s.clocked ∧ s.rxOn 0 = true ∧ (s.frm 0).oof = true ∧ (s.frm 0).cands.find? (fun d => d.1 == 5) = some (5, 0) ∧ (s.rxp 0).lock = false) ∧
    (let s := hunting [(5, 0)] false
     let h := head [] 0
     s.clocked ∧ s.rxOn 0 = true ∧ (s.frm 0).oof = true ∧ (s.rxp 0).lock = true ∧ (s.ln 0).compatRx = false ∧ s.syncAt 0 h.rho h.side = false) ∧
    (let s := hunting [(6, 2)] true
     let h := head (headBytes 8#8) 65536
     s.clocked ∧ s.rxOn 0 = true ∧ (s.frm 0).oof = true ∧ (s.rxp 0).lock = true ∧ (s.ln 0).compatRx = true ∧ s.hear 0 6 false h = h ∧
       headGood true (s.syncAt 0 h.rho h.side) h = true ∧ s.sh (Reg.FRM_HUNT_CFG.COMPAT_N 0) ≤ 2 + 1) ∧
    (let s := hunting [(5, 0)] true
     let h := head [] 65536
     s.clocked ∧ s.rxOn 0 = true ∧ (s.frm 0).oof = true ∧ (s.rxp 0).lock = true ∧ (s.ln 0).compatRx = true ∧
       headGood true (s.syncAt 0 h.rho h.side) h = false ∧ headGood true (s.syncAt 0 65536 0) (head (headBytes 8#8) 65536) = true ∧
       0 + 1 < s.sh (Reg.FRM_HUNT_CFG.COMPAT_N 0)) := by decide +kernel

theorem witness_ReceivedHeads_loss :
    (let s := framed (List.replicate 7 false) false
     let h := head [] 65536
     s.clocked ∧ s.rxOn 0 = true ∧ (s.frm 0).oof = false ∧ (s.ln 0).compatRx = false ∧
       8 ≤ (((headGood false (s.syncAt 0 h.rho h.side) h :: (s.frm 0).hist).take 16).filter (! ·)).length) ∧
    (let s := framed [] true
     s.clocked ∧ s.rxOn 0 = true ∧ (s.frm 0).oof = false ∧ (s.ln 0).compatRx = true ∧ headGood true (s.syncAt 0 65536 0) (head [] 65536) = false) := by
  decide +kernel

theorem witness_Defects_more :
    (let s := up.modFrm 0 fun x => { x with defects := 0, up := [(4, 3)] }
     (s.frm 0).defects.testBit 4 = false ∧ (s.frm 0).masked 4 = false ∧ (s.defLimits 0 4).1 ≤ (s.frm 0).up.get (fun _ => 0) 4) ∧
    (let s : State := { pub up [(Reg.FRM_DEG_CFG.DEG_INT 0, 5)] with tick := 10 }.modFrm 0 fun x => { x with degOof := true }
     s.working ∧ s.sh (Reg.FRM_DEG_CFG.DEG_INT 0) ≠ 0 ∧ s.tick % s.sh (Reg.FRM_DEG_CFG.DEG_INT 0) = 0 ∧ (s.frm 0).degAt < s.tick ∧
       (s.frm 0).degOof = true) := by decide +kernel

theorem witness_RequestEngine_host :
    (let s := busy { queue := 4, srcHost := true, len := 16 }
     s.live ∧ s.cph.running = some { queue := 4, srcHost := true, len := 16 } ∧ s.pcie.ctoUs ≤ 10 ^ 9 ∧
       ({ queue := 4, srcHost := true, len := 16 } : Req).waits = true) ∧
    ((busy { queue := 3 }).live ∧ (busy { queue := 3 }).cph.running = some { queue := 3 }) ∧
    (up.cph.running = none ∧ up.cfgWaits = 0 ∧ up.cph.rimeQ = [] ∧ up.cph.kat = false ∧ up.bit Reg.CPH_HQ_CFG.EN = false) := by decide +kernel

/-- A client frame that no classifier matches. -/
theorem witness_Ingress_unmatched :
    (let s := pub lines [(Reg.FLO_PORT_CFG.MODE 0, 2), (Reg.FLO_PORT_CFG.UNMATCHED_DROP 0, 1), (Reg.FLO_PORT_CFG.MAX_LEN 0, 1518)]
     s.live ∧ s.sh (Reg.FLO_PORT_CFG.MODE frame.port) ≠ 0 ∧ s.down = false ∧ macDrop (s.sh (Reg.FLO_PORT_CFG.MAX_LEN 0)) frame = none ∧
       s.classify frame = .unmatched) := by decide +kernel

theorem witness_DecoderPassage_slot :
    (let s := (decoding 0).modLn 0 fun x => { x with rxSym := 3000000 }
     s.live ∧ ∃ p, s.rxAt 0 (·.stage < 3) = some p ∧ s.slotDue 0 p.2 = true ∧ (p.2.leaves []).2 ≠ []) := by
  refine ⟨by decide +kernel, ?_⟩
  exact ⟨_, rfl, by decide +kernel, by decide +kernel⟩

theorem witness_Acquisition_budget :
    (∀ s ∈ [(1, true), (0, true), (0, false)].map fun p => pub (acq fun x => { x with state := 3, ticks := 1000, scanned := p.2, second := 77 }) [(Reg.RXP_CD_CFG.CD_MODE 0, p.1)],
      s.working ∧ s.rxOn 0 = true ∧ acqBudget (s.rxp 0).state = some 1000 ∧ 1000 ≤ (s.rxp 0).ticks ∧ (s.rxp 0).attempt = false) ∧
    (pub (acq fun x => { x with state := 3, ticks := 1000 }) [(Reg.RXP_CD_CFG.CD_MODE 0, 1)]).sh (Reg.RXP_CD_CFG.CD_MODE 0) = 1 ∧
    ((pub (acq fun x => { x with state := 3, ticks := 1000, scanned := true, second := 77 }) [(Reg.RXP_CD_CFG.CD_MODE 0, 0)]).rxp 0).scanned = true := by
  decide +kernel

theorem witness_ReceiveMonitors_dgd :
    (let s := lines.modRxp 0 fun x => { x with dgdRun := 9999999 }
     s.working ∧ (decide (s.sh (Reg.RXP_MON_LIM.DEB 0) ≤ (s.rxp 0).dgdRun) && decide (1 ≤ (s.rxp 0).dgdRun) && !(s.rxp 0).dgdUp) = true) := by decide +kernel

theorem witness_Ticks_service :
    (let s := sets up [(Reg.CFG_STATUS.SAFE, 1)]
     s.live ∧ s.stalled = false ∧ s.serviceDue = true) := by decide +kernel

theorem witness_LineEngines_trains :
    (let s := starting true 0
     let x : TrainIn := ⟨[], 3⟩
     s.ticking ∧ (s.boot.ready && s.starting 0 && !s.trained 0 && !s.down) = true ∧
       ((List.range 4).all fun g => decide (64 ≤ ((List.range 66).filter fun k => !(x.bad.getD g []).contains k &&
         s.laneState (66 * g + k) != 2 && s.laneState (66 * g + k) != 3).length)) = true) ∧
    (let s := starting true 0
     let x : TrainIn := ⟨[[0, 1, 2]], 3⟩
     ((List.range 4).all fun g => decide (64 ≤ ((List.range 66).filter fun k => !(x.bad.getD g []).contains k &&
       s.laneState (66 * g + k) != 2 && s.laneState (66 * g + k) != 3).length)) = false) := by decide +kernel

theorem witness_Flits_idle :
    (let s := linked [(5, some ⟨some (0, []), none⟩)]
     s.trained 0 = true ∧ ((s.sub 0).slots.get noSlot 5).bind FlitSlot.good = some (0, []) ∧
       (s.subLive 0 && !false && !s.retrains 0) = true) := by decide +kernel

theorem witness_RimeReception_auth :
    (let h := rimeHead 4#8 4#8
     let s := sets (rime (some ⟨100, 5, some h⟩) none) [(Reg.RIM_CTL.REQUIRE_AUTH, 1)]
     s.live ∧ (s.rp 0).act.get noRx 0 = some ⟨100, 5, some h⟩ ∧ s.bit Reg.RIM_CTL.REQUIRE_AUTH = true ∧ rimLenOk 4 false (List.replicate 4 0#8) = true) ∧
    (let h := rimeHead 0x84#8 12#8
     let s := rime (some ⟨100, 5, some h⟩) none
     s.live ∧ (s.rp 0).act.get noRx 0 = some ⟨100, 5, some h⟩ ∧ 128 ≤ ofBe (h.take 1) ∧ 8 ≤ ofBe ((h.drop 1).take 1) ∧
       ofBe ((h.drop 2).take 2) ≠ s.fld Reg.RIM_ID.SHORT_ID) ∧
    (let h : List Byte := List.replicate 5 0#8 ++ [0xFF#8]
     h.length = 6 ∧ (ofBe (h.drop 5) == rimHcrc (h.take 5) && decide (ofBe ((h.drop 1).take 1) ≤ 240)) = false) := by decide +kernel

theorem witness_RimeAuthentication_fails :
    (let s := (signing true 1 []).setRp 0 { sig := .asked 0 }
     s.live ∧ (s.keyUsage 5 == 3 || s.keyUsage 5 == 4) = false ∧ s.rimSigner 0 = some 0) ∧
    (let s : State := { signing false 3 [] with rim := { up.rim with verify := [(0, ⟨0, 0, [], [], [], 0, 0, 0, true⟩, 0)] } }
     s.live ∧ (s.rim.verify.find? (fun v => v.1 == 0)).isSome = true ∧ ((aesCmac (s.key 5) [1#8]).take 8 == []) = false) := by decide +kernel

theorem witness_RimeSending_drop :
    (let s := sending { cur := some (packet 15), sig := .done [] }
     s.live ∧ s.rimCan 0 = true ∧ (s.rp 0).onAir = false ∧ (s.rp 0).cur = some (packet 15) ∧ (s.rp 0).queue = [] ∧ (s.rp 0).sig = .done [] ∧ s.rimBusy 0 100000 0 = true ∧ 15 ≤ (packet 15).busy) ∧
    (let s : State := { sending { queue := [packet 0] } with tick := 1000000 }
     s.live ∧ (s.rp 0).queue.any (fun p => decide (p.made + 1000000 ≤ s.tick)) = true) := by decide +kernel

theorem witness_RimeSending_full :
    (let s := sending { cur := some (packet 0), queue := [{ packet 0 with pri := 0 }] }
     s.live ∧ s.rimCan 0 = true ∧ (s.rp 0).onAir = false ∧ (s.rp 0).cur = some (packet 0) ∧ (s.rp 0).queue = [{ packet 0 with pri := 0 }] ∧
       s.bit Reg.RIM_CTL.AUTH_EN = true) ∧
    (let s := sending { queue := List.replicate 16 (packet 0), alarms := [(⟨1, 0, true, 0, 0⟩, 3, 0)] }
     s.live ∧ (s.rp 0).alarms.findIdx? (fun a => decide (a.2.2 ≤ s.tick)) = some 0 ∧ (s.rp 0).alarms[0]? = some (⟨1, 0, true, 0, 0⟩, 3, 0) ∧
       (s.rp 0).cur = none ∧ 16 ≤ (s.rp 0).queue.length ∧ 0 < worstPri (s.rp 0).queue ∧
       (s.rp 0).queue.findIdx? (fun p => p.pri == worstPri (s.rp 0).queue) = some 0) ∧
    (let s := sending { queue := List.replicate 16 { packet 0 with pri := 0 }, alarms := [(⟨1, 0, true, 0, 0⟩, 3, 0)] }
     s.live ∧ (s.rp 0).alarms.findIdx? (fun a => decide (a.2.2 ≤ s.tick)) = some 0 ∧ (s.rp 0).cur = none ∧ 16 ≤ (s.rp 0).queue.length ∧
       worstPri (s.rp 0).queue = 0) := by decide +kernel

theorem witness_TimeOfDay_load :
    (let s := sets { timed with tim := { timed.tim with tod := some (1, 0), mismatch := 3 } } [(Reg.TIM_STATUS.LOADED, 1)]
     s.live ∧ s.tim.tod = some (1, 0) ∧ 0 + 50000000 ≤ 500 * s.tick + 0 ∧ s.bit Reg.TIM_STATUS.LOADED = true ∧ 3 ≤ s.tim.mismatch) ∧
    (let s : State := { up with tim := { up.tim with tod := some (1, 0) } }
     s.live ∧ s.tim.tod = some (1, 0) ∧ 500 * s.tick + 0 < 0 + 50000000) := by decide +kernel

theorem witness_Counters_frozen :
    (let s : State := { sets up [(Reg.PMC_SNAP_CTL.FREEZE, 1)] with snapPend := some ⟨1, 2, []⟩ }
     s.ticking ∧ s.snapPend = some ⟨1, 2, []⟩ ∧ s.bit Reg.PMC_SNAP_CTL.FREEZE = true) := by decide +kernel

theorem witness_Lanes_spent :
    (let s := (List.range 66).foldl (fun s k => sets s [(Reg.D2D_LANE.STATE k, 0)]) (sets (linked []) [(Reg.D2D_CTL.AUTO_SPARE, 1)])
     let u : State := { s with d2d := { s.d2d with laneDue := [0] } }
     u.working ∧ u.acted = false ∧ u.d2d.laneDue = [0] ∧ u.laneUsed 0 = true ∧ u.bit Reg.D2D_CTL.AUTO_SPARE = true ∧ u.groupSpares 0 = []) := by
  decide +kernel

/-- The second that a ToD message gives is the time's own. -/
theorem witness_TimeOfDay_equal :
    (let s := sets { timed with tim := { timed.tim with tod := some (2, 0) } } [(Reg.TIM_STATUS.LOADED, 1)]
     s.live ∧ s.tim.tod = some (2, 0) ∧ s.bit Reg.TIM_STATUS.LOADED = true ∧ s.tim.mismatch < 3 ∧ sx 16 (s.fld Reg.TIM_PPS_CFG.IN_DLY) = 0 ∧
       (2 : Int) = ((s.timeAt 0 : Int) + (10 ^ 9 * 2 ^ 32 : Nat) / 2) / (10 ^ 9 * 2 ^ 32 : Nat)) := by decide +kernel

theorem witness_SensorsAndMonitors_gate :
    (let s : State := sets { up with thm := { up.thm with gateOk := true } } [(Reg.THM_STATUS.GATE, 1)]
     s.ticking ∧ s.bit Reg.THM_STATUS.GATE = true ∧ s.thm.gateOk = true) := by decide +kernel

/-! ### Ill-formed commands -/

/-- Every check of WellFormed refuses a command that breaks it alone. -/
theorem smoke_lists : Instr.wf (.fuses { key63 := [] }) = false ∧ Instr.wf (.fuses { kek := [] }) = false ∧ Instr.wf (.fuses { lanes := [1056] }) = false ∧
    Instr.wf (.fuses { deviceId := 2 ^ 64 }) = false ∧ Instr.wf (.rimeSyncDetect 0 0 0 0 []) = false ∧
    Instr.wf (.nvmDiscovery {} .ok .ok [] .ok) = false ∧ Instr.wf (.repairsSweepTraining .ok .ok .ok []) = false ∧
    Instr.wf (.repairsSweepTraining .ok .ok .ok [⟨[], 0⟩, ⟨[[], [], [], []], 0⟩, ⟨[[], [], [], []], 0⟩, ⟨[[], [], [], []], 0⟩]) = false ∧
    Instr.wf (.linkTraining 0 ⟨[[66], [], [], []], 0⟩) = false ∧ Instr.wf (.flitReceived 0 [] 0 {}) = false ∧
    Instr.wf (.flitReceived 0 (List.replicate 66 0) 0 { samples := [[]] }) = false ∧
    Instr.wf (.flitReceived 0 (List.replicate 66 0) 0 { obs := [[]] }) = false ∧
    Instr.wf (.flitReceived 0 (List.replicate 66 0) 0 { cal := [(144, 0, List.replicate 112 0#8)] }) = false ∧
    Instr.wf (.flitReceived 0 (List.replicate 66 0) 0 { cal := [(0, 0, [])] }) = false ∧ Instr.wf (.rimeHeaderEnd 0 0 []) = false ∧
    Instr.wf (.todMessage [] 0) = false ∧ Instr.wf (.frameDelivered 0 0 [512]) = false := by decide

theorem smoke_moments : Instr.wf (.txFrameHead 0 500 0 []) = false ∧ Instr.wf (.txFrameHead 0 0 131072 []) = false ∧ Instr.wf (.frameDelivered 0 500 []) = false ∧
    Instr.wf (.mergeRelease 0 500 false) = false ∧ Instr.wf (.seqResync 0 500) = false ∧ Instr.wf (.egressFrame 0 0 500 0 none) = false ∧
    Instr.wf (.egressFrame 0 0 0 32 none) = false ∧ Instr.wf (.cmp 0 500) = false ∧ Instr.wf (.ppsInEdge 0 500 0) = false ∧ Instr.wf (.ppsInEdge 0 0 32) = false ∧
    Instr.wf (.todMessage todBytes 500) = false ∧ Instr.wf (.ppsOutPulse 500) = false ∧ Instr.wf (.latchingRead .w32 0 500) = false ∧
    Instr.wf (.mirrorRead .w32 0 500) = false := by decide

theorem smoke_ranges : Instr.wf (.keyLoad 63 1) = false ∧ Instr.wf (.keyZero 63) = false ∧ Instr.wf (.latchingRead .w32 (2 ^ 23) 0) = false ∧
    Instr.wf (.mirrorRead .w32 (2 ^ 20) 0) = false ∧ Instr.wf (.registerWrite .w32 (2 ^ 23) 0) = false ∧ Instr.wf (.override .w32 (2 ^ 23) 0) = false ∧
    Instr.wf (.bar4Read (2 ^ 22) 1 []) = false ∧ Instr.wf (.bar4Write (2 ^ 22) [0#8] []) = false ∧ Instr.wf (.pcieLinkTrained 0 1 false) = false ∧
    Instr.wf (.pcieLinkTrained 5 1 false) = false ∧ Instr.wf (.pcieLinkTrained 1 3 false) = false := by decide

theorem smoke_records : Instr.wf (.ingressFrame { frame with port := 64 }) = false ∧ Instr.wf (.ingressFrame { frame with bytes := [] }) = false ∧
    Instr.wf (.ingressFrame { frame with cyc := 500 }) = false ∧ Instr.wf (.ingressFrame { frame with sub := 32 }) = false ∧
    Instr.wf (.rxHead 0 (head [] 0)) = false ∧ Instr.wf (.candidateCheck 0 0 false { head (List.replicate 128 0#8) 0 with cyc := 500 }) = false ∧
    Instr.wf (.rxHead 0 { head (List.replicate 128 0#8) 0 with sub := 131072 }) = false := by decide +kernel

theorem smoke_ticks : Instr.wf (.tick (quiet false)) = true ∧ Instr.wf (.tick { quiet false with temps := [] }) = false ∧
    Instr.wf (.tick { quiet false with hostFec := [(64, 0, 0)] }) = false ∧ Instr.wf (.tick { quiet false with refOn := [5] }) = false ∧
    Instr.wf (.tick { quiet false with refFofs := [(80, 0)] }) = false ∧ Instr.wf (.tick { quiet false with refMoves := [(5, 0)] }) = false ∧
    Instr.wf (.tick { quiet false with again := [2] }) = false := by decide

/-! ### Published vectors -/

/-- The characters 1 to 9. -/
def digits : List Byte := (List.range 9).map fun i => BitVec.ofNat 8 (49 + i)

/-- R187's worked example: rate 5/6, 1.00e-2, caps 14 and 13. -/
theorem test_margin : fecMargin 512 1 14 = 23 ∧ fecMargin 512 1 13 = 22 := by decide +kernel

/-- The check value of CRC-32 with polynomial 0x04C11DB7, initial and final all ones, no reflection (R60). -/
theorem test_crc32 : crc32 digits = 0xFC891918 := by decide +kernel
/-- The check value of CRC-8 with polynomial 0x07 and initial value 0 (R312, R495). -/
theorem test_crc8 : rimHcrc digits = 0xF4 := by decide +kernel
/-- The check value of the Ethernet FCS, least significant byte first. -/
theorem test_fcs : ethFcs digits = [0x26#8, 0x39#8, 0xF4#8, 0xCB#8] := by decide +kernel
/-- FIPS 197, C.3. -/
theorem test_aes256 : aesEnc ((List.range 32).map (BitVec.ofNat 8 ·)) ((List.range 16).map fun i => BitVec.ofNat 8 (17 * i)) =
    beBytes 16 0x8EA2B7CA516745BFEAFC49904B496089 := by decide +kernel
/-- NIST SP 800-38B, D.3, the message of one block. -/
theorem test_cmac : aesCmac (beBytes 32 0x603DEB1015CA71BE2B73AEF0857D77811F352C073B6108D72D9810A30914DFF4) (beBytes 16 0x6BC1BEE22E409F96E93D7E117393172A) =
    beBytes 16 0x28A7023F452E8F82BD4BF28D8C37C35C := by decide +kernel
/-- NIST SP 800-38A, F.5.5, the first block. -/
theorem test_ctr : aesCtr (beBytes 32 0x603DEB1015CA71BE2B73AEF0857D77811F352C073B6108D72D9810A30914DFF4) (beBytes 16 0xF0F1F2F3F4F5F6F7F8F9FAFBFCFDFEFF)
    (beBytes 16 0x6BC1BEE22E409F96E93D7E117393172A) = beBytes 16 0x601EC313775789A5B7A7F504BBF3D228 := by decide +kernel
/-- The GCM specification's test case 14: a zero key, nonce and block. -/
theorem test_gcm : gcmSeal (List.replicate 32 0#8) (List.replicate 12 0#8) [] (List.replicate 16 0#8) =
    (beBytes 16 0xCEA7403D4D606B6E074EC5D3BAF39D18, beBytes 16 0xD0D1C8A799996BF0265B98B5D48AB919) := by decide +kernel
/-! ### Single steps -/

/-- The state after a command. -/
def after (c : Instr) (s : State) : State := match exec c s with | .next t => t | _ => s

/-- R43: the first tick makes the tick count 1. -/
theorem test_first_tick : (after (.tick (quiet false)) State.reset).tick = 1 := by decide +kernel
/-- R459: a RESET_N pulse below 1 µs is counted. -/
theorem test_glitch : ((after (.resetNAssert 999) up).ctr 192).v = 1 ∧ (after (.resetNAssert 999) up).held = false := by decide +kernel
/-- R508: a pulse of 1 µs resets. -/
theorem test_reset : (after (.resetNAssert 1000) up).held = true ∧ (after (.resetNAssert 1000) up).bit Reg.GLB_HOST_STATUS.READY = false := by decide +kernel
/-- R14: a RW1C bit is cleared by writing 1, another bit stays. -/
theorem test_rw1c : (after (.registerWrite .w32 Reg.GLB_HOST_EVENT (word Reg.GLB_HOST_EVENT.WR_REJ 1).toNat)
    (sets up [(Reg.GLB_HOST_EVENT.WR_REJ, 1), (Reg.GLB_HOST_EVENT.ACC_ERR, 1)])).reg Reg.GLB_HOST_EVENT = word Reg.GLB_HOST_EVENT.ACC_ERR 1 := by decide +kernel
/-- R491: a write of an unmapped offset is rejected with cause 1. -/
theorem test_reject : (after (.registerWrite .w32 0x7FFFFC 1) up).fld Reg.GLB_REJ_LOG_0.CAUSE = 1 ∧
    (after (.registerWrite .w32 0x7FFFFC 1) up).bit Reg.GLB_HOST_EVENT.WR_REJ = true := by decide +kernel
/-- R353: a compare unit that fires clears its ARM. -/
theorem test_compare : (after (.cmp 1 0) (sets up [(Reg.TIM_CMP_CTL.ARM 1, 1)])).bit (Reg.TIM_CMP_CTL.ARM 1) = false := by decide +kernel
/-- R370: a staging read returns what was written. -/
theorem test_staging : (after (.bar4Read 8 4 []) (after (.bar4Write 8 [1#8, 2#8, 3#8, 4#8] []) swept)).out = [.readData 0x04030201 false] := by decide +kernel
/-- R495: an SMBus write is not acknowledged. -/
theorem test_smbus_write : (after .smbusWrite up).out = [.smbNack] := by decide +kernel
/-- R355: a valid ToD message is shown. -/
theorem test_tod : (after (.todMessage todBytes 0) up).reg Reg.TIM_TOD_LO = 7 := by decide +kernel
/-- R495: with both address pins high the target answers at 0x5D. -/
theorem test_smbus_address : (after (.resetNRelease true true) { State.reset with held := true }).pins.smbAddr = 0x5D := by decide +kernel

end Sys2Proof.Tests
end

section
/-! SUPPORT. The queue's frame: what a taken write sets in motion leaves the queue of waiting commands as it was. -/

namespace Sys2Proof.Machine

open Sys2Proof

/-- A fold of steps that leave the queue leaves it. -/
theorem foldl_pending {α : Type} (f : State → α → State) (xs : List α) (s : State) (h : ∀ a x, (f a x).pending = a.pending) :
    (xs.foldl f s).pending = s.pending :=
  List.foldlRecOn (motive := fun a => a.pending = s.pending) xs f rfl fun a ha x _ => (h a x).trans ha

/-! ### Line engines -/

@[simp] theorem State.modLn_pending (s : State) (l : Nat) (f : Line → Line) : (s.modLn l f).pending = s.pending := by
  unfold State.modLn State.setLn
  split <;> rfl

@[simp] theorem State.accepted_pending (s : State) (l code : Nat) : (s.accepted l code).pending = s.pending := s.modLn_pending l _

@[simp] theorem State.modLcy_pending (s : State) (l : Nat) (f : LcySt → LcySt) : (s.modLcy l f).pending = s.pending := s.modLn_pending l _

@[simp] theorem State.modRxp_pending (s : State) (l : Nat) (f : RxpSt → RxpSt) : (s.modRxp l f).pending = s.pending := s.modLn_pending l _

@[simp] theorem State.modShift_pending (s : State) (l : Nat) (f : ShiftSt → ShiftSt) : (s.modShift l f).pending = s.pending := s.modLn_pending l _

@[simp] theorem State.shiftRequest_pending (s : State) (l : Nat) : (s.shiftRequest l).pending = s.pending := by
  unfold State.shiftRequest
  extract_lets k f now u
  split
  · simp only [State.frameReject_frame, State.raise_frame, u, State.setFld_frame]
  · simp only [State.accepted_pending, State.modShift_pending, u, State.setFld_frame]

@[simp] theorem State.flipArm_pending (s : State) (l : Nat) : (s.flipArm l).pending = s.pending := by
  unfold State.flipArm
  extract_lets f
  split
  · simp only [State.frameReject_frame, State.raise_frame, State.setFld_frame]
  · simp only [State.accepted_pending, State.modLcy_pending, State.setFld_frame]

@[simp] theorem State.capArm_pending (s : State) (l : Nat) : (s.capArm l).pending = s.pending := by
  unfold State.capArm
  extract_lets f
  split
  · simp only [State.frameReject_frame, State.setFld_frame]
  · simp only [State.accepted_pending, State.modRxp_pending, State.setFld_frame]

@[simp] theorem State.lineEffect_pending (s : State) (o l : Nat) : (s.lineEffect o l).pending = s.pending := by
  have he : (s.rxEpochSet l).pending = s.pending := s.modLcy_pending l _
  have ha : (s.acqRestart l 0).pending = s.pending := s.modRxp_pending l _
  unfold State.lineEffect
  simp only [apply_ite State.pending, State.shiftRequest_pending, State.flipArm_pending, State.capArm_pending, he, ha, ite_self]

/-! ### Counters, windows, telemetry -/

@[simp] theorem State.winStart_pending (s : State) (w : Nat) : (s.winStart w).pending = s.pending := by
  simp only [State.winStart, State.setWin]

@[simp] theorem State.winClear_pending (s : State) (w : Nat) : (s.winClear w).pending = s.pending := by
  simp only [State.winClear, State.setFld_frame]

@[simp] theorem State.winPublish_pending (s : State) (w : Nat) : (s.winPublish w).pending = s.pending := by
  unfold State.winPublish State.setWin
  split
  · rfl
  · simp only [State.setFld_frame, State.setReg64_frame]

@[simp] theorem State.winEffect_pending (s : State) (off : Nat) (old : Word) : (s.winEffect off old).pending = s.pending := by
  unfold State.winEffect
  simp only [apply_ite State.pending, State.winStart_pending, State.winClear_pending, State.winPublish_pending, State.setFld_frame, ite_self]

@[simp] theorem State.pmcEffect_pending (s : State) (off : Nat) (old : Word) : (s.pmcEffect off old).pending = s.pending := by
  unfold State.pmcEffect
  simp only [apply_ite State.pending, State.setFld_frame, ite_self]

/-! ### The staging memory's reads -/

@[simp] theorem State.trkOffer_pending (s : State) (inst word lane : Nat) (hard : Bool) : (s.trkOffer inst word lane hard).pending = s.pending := by
  unfold State.trkOffer State.trkSet
  simp only [apply_ite State.pending, State.raise_frame, State.setReg_frame, ite_self]

@[simp] theorem State.logUncorr_pending (s : State) (inst word lane syn : Nat) (rmw : Bool) (at_ : Nat) :
    (s.logUncorr inst word lane syn rmw at_).pending = s.pending := by
  unfold State.logUncorr
  simp only [apply_ite State.pending, State.setFld_frame, State.setReg_frame, ite_self]

@[simp] theorem State.readLane_pending (s : State) (lane : Nat) : (s.readLane lane).2.2.pending = s.pending := by
  unfold State.readLane State.reportUncorr State.reportCorr
  dsimp only
  split
  · rfl
  · simp only [apply_ite State.pending, State.logUncorr_pending, State.raiseAt_frame, State.trkOffer_pending, ite_self]
  · simp only [apply_ite State.pending, State.raiseAt_frame, State.trkOffer_pending, ite_self]

@[simp] theorem State.stRead_pending (s : State) (a n : Nat) : (s.stRead a n).2.2.pending = s.pending :=
  List.foldlRecOn (motive := fun r : List Byte × Option Nat × State => r.2.2.pending = s.pending) (lanesOf a n) _ rfl
    fun r hr lane _ => (r.2.2.readLane_pending lane).trans hr

/-! ### The Rime channel -/

@[simp] theorem State.setRp_pending (s : State) (k : Nat) (x : RimePort) : (s.setRp k x).pending = s.pending := by
  unfold State.setRp
  split <;> rfl

@[simp] theorem State.rimShow_pending (s : State) (k : Nat) : (s.rimShow k).pending = s.pending := by
  simp only [State.rimShow, State.setFld_frame]

@[simp] theorem State.rimDrop_pending (s : State) : s.rimDrop.pending = s.pending := by
  simp only [State.rimDrop, State.raise_frame]

@[simp] theorem State.rimLost_pending (s : State) (p : RimePkt) : (s.rimLost p).pending = s.pending := by
  unfold State.rimLost State.rimTraceSent
  simp only [State.rimDrop_pending, apply_ite State.pending, State.setFld_frame, ite_self]

@[simp] theorem State.rimQueue_pending (s : State) (k : Nat) (p : RimePkt) : (s.rimQueue k p).pending = s.pending := by
  unfold State.rimQueue
  dsimp only
  rw [State.rimShow_pending]
  repeat' split
  all_goals simp only [State.rimLost_pending, State.setRp_pending]

theorem rimTake_pending (n : Nat) (s : State) : (rimTake n s).pending = s.pending := by
  induction n generalizing s with
  | zero => rfl
  | succ n ih =>
    unfold rimTake State.rimRecord
    simp only [apply_ite State.pending, ih, State.rimDrop_pending, State.rimQueue_pending, State.setFld_frame, State.stRead_pending, ite_self]

@[simp] theorem State.rimTraceReq_pending (s : State) : s.rimTraceReq.pending = s.pending := by
  unfold State.rimTraceReq
  simp only [apply_ite State.pending, State.rimDrop_pending, State.rimQueue_pending, State.setFld_frame, ite_self]

@[simp] theorem State.rimCut_pending (s : State) (k : Nat) : (s.rimCut k).pending = s.pending := by
  unfold State.rimCut State.rimEnd State.rimLeave State.rimCount
  dsimp only
  split
  · rfl
  · simp only [apply_ite State.pending, State.rimQueue_pending, State.raise_frame, State.count_frame, State.rimShow_pending,
      State.setRp_pending, ite_self]

@[simp] theorem State.rimWaves_pending (s : State) : s.rimWaves.pending = s.pending := by
  simp only [State.rimWaves, State.rimMask, State.rimCut_pending, State.raiseIf_frame, State.setFld_frame]

/-! ### The key slots, the calendars, the other blocks -/

@[simp] theorem State.keyLoad_pending (s : State) (k usage : Nat) (zero : Bool) : (s.keyLoad k usage zero).pending = s.pending := by
  have hz : (s.zeroKey k).2.pending = s.pending := by
    unfold State.zeroKey
    split <;> simp only [State.setKey, State.setFld_frame]
  have hl : (s.loadKey k usage s.wrapBytes).2.pending = s.pending := by
    unfold State.loadKey
    repeat' split
    all_goals simp only [State.setKey, State.setFld_frame]
  unfold State.keyLoad State.clearWrap
  simp only [State.raiseIf_frame, State.setFld_frame]
  rw [foldl_pending _ _ _ fun a w => by simp only [State.setReg_frame]]
  split
  · exact hz
  · exact hl

@[simp] theorem State.calArm_pending (s : State) (l : Nat) : (s.calArm l).pending = s.pending := by
  have hs (v : Option Nat) : (s.setSwap l v).pending = s.pending := by simp only [State.setSwap, State.latch_frame]
  unfold State.calArm
  extract_lets f
  split
  · simp only [State.frameReject_frame, State.raiseAt_frame, State.setFld_frame]
  · simp only [State.accepted_pending, State.setFld_frame, hs]

@[simp] theorem State.adjArm_pending (s : State) : s.adjArm.pending = s.pending := by
  unfold State.adjArm
  simp only [apply_ite State.pending, State.raise_frame, State.setFld_frame, ite_self]

@[simp] theorem State.setMon_pending (s : State) (u : Nat) (x : MonUnit) : (s.setMon u x).pending = s.pending := by
  unfold State.setMon
  simp only [apply_ite State.pending, ite_self]

@[simp] theorem State.msixSend_pending (s : State) (v : Nat) : (s.msixSend v).pending = s.pending := by
  unfold State.msixSend
  simp only [apply_ite State.pending, State.msix_frame, State.setFld_frame, ite_self]

@[simp] theorem State.coreEffect_pending (s : State) (off : Nat) : (s.coreEffect off).pending = s.pending := by
  unfold State.coreEffect
  simp only [apply_ite State.pending, State.calArm_pending, State.keyLoad_pending, State.rimTraceReq_pending, rimTake_pending,
    State.adjArm_pending, State.setMon_pending, State.msixSend_pending, State.rimWaves_pending, State.setFldIf_frame,
    State.setFld_frame, State.setReg_frame, ite_self]

/-! ### A taken write -/

/-- What a write sets in motion leaves the queue of waiting commands (log 1). -/
@[simp] theorem State.effect_pending (s : State) (off : Nat) (old : Word) : (s.effect off old).pending = s.pending := by
  unfold State.effect
  simp only [apply_ite State.pending, State.lineEffect_pending, State.winEffect_pending, State.pmcEffect_pending, State.coreEffect_pending,
    ite_self]

@[simp] theorem State.overrode_pending (s : State) (off old new : Nat) : (s.overrode off old new).pending = s.pending := by
  unfold State.overrode State.epochStep
  simp only [apply_ite State.pending, State.raise_frame, State.setFld_frame, State.queueRec_frame, State.raiseOwn_frame, ite_self]

@[simp] theorem State.store_pending (s : State) (off : Nat) (v : Word) : (s.store off v).pending = s.pending := by
  unfold State.store
  simp only [apply_ite State.pending, State.overrode_pending, State.dueShadow_frame, State.setReg_frame, ite_self]

@[simp] theorem State.taken_pending (s : State) (off v : Nat) : (s.taken off v).pending = s.pending := by
  simp only [State.taken, State.stored, State.effect_pending, State.store_pending, State.cleared_frame]

end Sys2Proof.Machine
end

section
/-! SUPPORT. What a rejected write leaves: the log of rejections, its counter, its events, and nothing else (R140, R490, R491). -/

namespace Sys2Proof.Machine

open Sys2Proof

/-! ### The rest of the state -/

@[simp] theorem State.rest_setReg (s : State) (off : Nat) (w : Word) : (s.setReg off w).rest = s.rest :=
  State.rest_congr (by simp only [State.setReg_frame, and_self]) (by simp only [State.setReg_frame])

@[simp] theorem State.rest_setFld (s : State) (f : Fr) (v : Nat) : (s.setFld f v).rest = s.rest := s.rest_setReg _ _

@[simp] theorem State.rest_count (s : State) (k n : Nat) : (s.count k n).rest = s.rest :=
  State.rest_congr (by simp only [State.count_frame, and_self]) (by simp only [State.count_frame])

@[simp] theorem State.rest_raise (s : State) (f : Fr) : (s.raise f).rest = s.rest :=
  State.rest_congr (by simp only [State.raise_frame, and_self]) (by simp only [State.raise_frame])

@[simp] theorem State.rest_emit (s : State) (o : Out) : (s.emit o).rest = s.rest :=
  State.rest_congr (by simp only [State.emit_frame, and_self]) (by simp only [State.emit_frame])

/-! ### The first cause -/

/-- The registers as a taken 32-bit write would leave them. -/
def State.lookWritten (s : State) (base : Nat) (w : Word) (o : Nat) : Word :=
  match [(base, w)].find? fun p => p.1 == o with | some p => writtenWord o (s.reg o) p.2 | none => s.reg o

@[simp] theorem State.lookWritten_self (s : State) (base : Nat) (w : Word) : s.lookWritten base w base = writtenWord base (s.reg base) w := by
  unfold State.lookWritten
  rw [List.find?_cons_of_pos (by simp)]

/-- The causes that a 32-bit write meets, in order. -/
theorem State.accessCause_w32 (s : State) (off v : Nat) : s.accessCause .w32 off v =
    if mapped (off / 4 * 4) = false then 1 else if off % 4 ≠ 0 then 2
    else s.writeCause (s.lookWritten (off / 4 * 4) (half v 0)) (off / 4 * 4) (half v 0) := by
  have hs (c : Nat) : ([c].filter (· != 0)).foldl (fun a c => if a = 0 then c else min a c) 0 = c := by
    by_cases h : c = 0
    · rw [h]; rfl
    · rw [List.filter_cons_of_pos (by simpa using h)]; rfl
  unfold State.accessCause
  simp only [writeParts, List.any_cons, List.any_nil, Bool.or_false, Bool.not_eq_true', formOk, beq_eq_false_iff_ne, ne_eq,
    List.map_cons, List.map_nil, hs]
  rfl

/-- What holds of a write that no cause of R491 rejects. -/
theorem State.writeCause_eq_zero {s : State} {look : Nat → Word} {off : Nat} {v : Word} (h : s.writeCause look off v = 0) :
    s.lockBars off (look off) = false ∧ ((regDesc off).isSome = true → legalWord off v = true) := by
  unfold State.writeCause at h
  split at h; · exact absurd h (by decide)
  split at h; · exact absurd h (by decide)
  split at h; · exact absurd h (by decide)
  split at h; · exact absurd h (by decide)
  next hl =>
  split at h; · exact absurd h (by decide)
  next hw =>
  refine ⟨by simpa using hl, fun hd => ?_⟩
  simp only [hd, Bool.true_and, Bool.or_eq_true, Bool.not_eq_true', not_or, Bool.not_eq_false] at hw
  exact hw.2

theorem State.writeCause_le (s : State) (look : Nat → Word) (off : Nat) (v : Word) : s.writeCause look off v ≤ 7 := by
  unfold State.writeCause
  repeat' split
  all_goals decide

theorem State.accessCause_w32_le (s : State) (off v : Nat) : s.accessCause .w32 off v ≤ 7 := by
  rw [s.accessCause_w32]
  split
  · decide
  · split
    · decide
    · exact s.writeCause_le _ _ _

/-- A taken 32-bit write is aligned, changes no field that the lock keeps, and has legal values. -/
theorem State.accessCause_w32_eq_zero {s : State} {off v : Nat} (h : s.accessCause .w32 off v = 0) :
    off % 4 = 0 ∧ s.lockBars off (writtenWord off (s.reg off) (half v 0)) = false ∧
      ((regDesc off).isSome = true → legalWord off (half v 0) = true) := by
  rw [s.accessCause_w32] at h
  split at h
  · exact absurd h (by decide)
  · split at h
    · exact absurd h (by decide)
    · next ha =>
      have ha : off % 4 = 0 := not_not.1 ha
      rw [show off / 4 * 4 = off by omega] at h
      obtain ⟨hl, hw⟩ := State.writeCause_eq_zero h
      rw [State.lookWritten_self] at hl
      exact ⟨ha, hl, hw⟩

/-! ### The log -/

/-- A rejection counts and raises WR_REJ; it writes the log unless that holds a record. -/
theorem State.reject_cases (s : State) (off v c : Nat) : let r := (s.count (2240 + c) 1).raise Reg.GLB_HOST_EVENT.WR_REJ
    (s.bit Reg.GLB_REJ_LOG_0.VALID = true ∧ s.reject off v c = r) ∨
    (s.bit Reg.GLB_REJ_LOG_0.VALID = false ∧ s.reject off v c =
      ((r.setReg Reg.GLB_REJ_LOG_0 (BitVec.ofNat 32 (off % 2 ^ 24 + c * 2 ^ 24 + 2 ^ 31))).setReg Reg.GLB_REJ_LOG_1 (BitVec.ofNat 32 v)).setReg
        Reg.GLB_REJ_LOG_2 (BitVec.ofNat 32 r.tick)) := by
  intro r
  have hr : r.bit Reg.GLB_REJ_LOG_0.VALID = s.bit Reg.GLB_REJ_LOG_0.VALID := by
    rw [State.bit_eq, State.fld_congr s r _ ((State.reg_raise_ne _ _ (by decide) (by decide)).trans (State.reg_count ..)), ← State.bit_eq]
  rw [← hr]
  by_cases hb : r.bit Reg.GLB_REJ_LOG_0.VALID = true
  · exact .inl ⟨hb, if_pos hb⟩
  · exact .inr ⟨by simpa using hb, if_neg hb⟩

@[simp] theorem State.rest_reject (s : State) (off v c : Nat) : (s.reject off v c).rest = s.rest := by
  obtain ⟨-, e⟩ | ⟨-, e⟩ := s.reject_cases off v c <;> rw [e] <;> simp only [State.rest_setReg, State.rest_raise, State.rest_count]

theorem State.reg_reject_ne (s : State) (off v c : Nat) {o : Nat} (h : o ∉ rejectRegs) : (s.reject off v c).reg o = s.reg o := by
  simp only [rejectRegs, wrapRegs, List.cons_append, List.nil_append, List.mem_cons, List.not_mem_nil, or_false, not_or] at h
  obtain ⟨-, -, hf, hh, h0, h1, h2⟩ := h
  have hr : ((s.count (2240 + c) 1).raise Reg.GLB_HOST_EVENT.WR_REJ).reg o = s.reg o :=
    (State.reg_raise_ne _ _ hh hf).trans (State.reg_count ..)
  obtain ⟨-, e⟩ | ⟨-, e⟩ := s.reject_cases off v c <;> rw [e]
  · exact hr
  · rw [State.reg_setReg_ne _ _ (Ne.symm h2), State.reg_setReg_ne _ _ (Ne.symm h1), State.reg_setReg_ne _ _ (Ne.symm h0), hr]

/-- The log's three registers after a rejection that finds it empty. -/
theorem State.reg_reject_log (s : State) (off v c : Nat) (h : s.bit Reg.GLB_REJ_LOG_0.VALID = false) :
    (s.reject off v c).reg Reg.GLB_REJ_LOG_0 = BitVec.ofNat 32 (off % 2 ^ 24 + c * 2 ^ 24 + 2 ^ 31) ∧
    (s.reject off v c).reg Reg.GLB_REJ_LOG_1 = BitVec.ofNat 32 v := by
  obtain ⟨hv, -⟩ | ⟨-, e⟩ := s.reject_cases off v c
  · rw [h] at hv; exact absurd hv (by decide)
  · rw [e]
    exact ⟨by rw [State.reg_setReg_ne _ _ (by decide), State.reg_setReg_ne _ _ (by decide), State.reg_setReg_self],
      by rw [State.reg_setReg_ne _ _ (by decide), State.reg_setReg_self]⟩

/-- The fields of GLB_REJ_LOG_0 as a rejection writes them. -/
theorem rejLog_fields (off c : Nat) (hc : c ≤ 7) : let w : Word := BitVec.ofNat 32 (off % 2 ^ 24 + c * 2 ^ 24 + 2 ^ 31)
    getBits w 23 0 = off % 2 ^ 24 ∧ getBits w 27 24 = c ∧ getBits w 31 31 = 1 := by
  intro w
  have hw : w.toNat = off % 2 ^ 24 + c * 2 ^ 24 + 2 ^ 31 := by
    rw [BitVec.toNat_ofNat]; omega
  simp only [getBits, hw, Nat.shiftRight_eq_div_pow]
  omega

theorem State.bit_reject_valid (s : State) (off v c : Nat) (hc : c ≤ 7) : (s.reject off v c).bit Reg.GLB_REJ_LOG_0.VALID = true := by
  obtain ⟨hv, e⟩ | ⟨hv, -⟩ := s.reject_cases off v c
  · rw [e]
    exact State.bit_raiseAt_mono _ _ _ 0 rfl (by decide) rfl ((State.bit_count ..).trans hv)
  · rw [State.bit_eq, State.fld, (s.reg_reject_log off v c hv).1, (rejLog_fields off c hc).2.2]
    rfl

theorem State.bit_reject_wrRej (s : State) (off v c : Nat) : (s.reject off v c).bit Reg.GLB_HOST_EVENT.WR_REJ = true := by
  have hr : ((s.count (2240 + c) 1).raise Reg.GLB_HOST_EVENT.WR_REJ).bit Reg.GLB_HOST_EVENT.WR_REJ = true :=
    State.bit_raise _ _ rfl (by decide)
  obtain ⟨-, e⟩ | ⟨-, e⟩ := s.reject_cases off v c <;> rw [e]
  · exact hr
  · rw [State.bit_eq, State.fld, State.reg_setReg_ne _ _ (by decide), State.reg_setReg_ne _ _ (by decide),
      State.reg_setReg_ne _ _ (by decide), ← State.fld, ← State.bit_eq, hr]

/-- A rejection counts itself by its cause, and in no other plain counter. -/
theorem State.ctr_reject (s : State) (off v c : Nat) {k : Nat} (hk : plainCtr k) :
    (s.reject off v c).ctr k = (s.count (2240 + c) 1).ctr k := by
  have hr : ((s.count (2240 + c) 1).raise Reg.GLB_HOST_EVENT.WR_REJ).ctr k = (s.count (2240 + c) 1).ctr k :=
    State.ctr_raise _ _ (by decide) hk
  obtain ⟨-, e⟩ | ⟨-, e⟩ := s.reject_cases off v c <;> rw [e]
  · exact hr
  · rw [State.ctr_setReg, State.ctr_setReg, State.ctr_setReg, hr]

/-! ### A flip asked for while one is armed -/

/-- What holds before, and is kept by raising FLIP_REJECT, holds after a rejection's second part. -/
theorem State.rejectToo_induct {P : State → Prop} (s : State) (form : Sys2Proof.Form) (off v c : Nat) (h : P s)
    (hr : ∀ u l, l < 2 → P u → P (u.raise (Reg.LCY_EVENT.FLIP_REJECT l))) : P (s.rejectToo form off v c) := by
  refine List.foldlRecOn [0, 1] _ h fun u hu l hl => ?_
  unfold State.raiseIf
  split
  · exact hr u l (by simp only [List.mem_cons, List.not_mem_nil, or_false] at hl; omega) hu
  · exact hu

@[simp] theorem State.rest_rejectToo (s : State) (form : Sys2Proof.Form) (off v c : Nat) : (s.rejectToo form off v c).rest = s.rest :=
  s.rejectToo_induct (P := fun u => u.rest = s.rest) form off v c rfl fun u _ _ hu => (u.rest_raise _).trans hu

theorem State.reg_rejectToo_ne (s : State) (form : Sys2Proof.Form) (off v c : Nat) {o : Nat} (h0 : o ≠ Reg.LCY_EVENT 0) (h1 : o ≠ Reg.LCY_EVENT 1)
    (hf : o ≠ Reg.FLT_EVENT) : (s.rejectToo form off v c).reg o = s.reg o :=
  s.rejectToo_induct (P := fun u => u.reg o = s.reg o) form off v c rfl fun u l hl hu =>
    (u.reg_raise_ne _ (by obtain rfl | rfl : l = 0 ∨ l = 1 := by omega
                          · exact h0
                          · exact h1) hf).trans hu

theorem State.bit_rejectToo (s : State) (form : Sys2Proof.Form) (off v c : Nat) (g : Fr) (hl : g.lo = g.hi) (hg : s.bit g = true) :
    (s.rejectToo form off v c).bit g = true :=
  s.rejectToo_induct (P := fun u => u.bit g = true) form off v c hg fun u _ _ hu => u.bit_raiseAt_mono _ g 0 rfl (by decide : 1 < 32) hl hu

theorem State.ctr_rejectToo (s : State) (form : Sys2Proof.Form) (off v c : Nat) {k : Nat} (hk : plainCtr k) :
    (s.rejectToo form off v c).ctr k = s.ctr k :=
  s.rejectToo_induct (P := fun u => u.ctr k = s.ctr k) form off v c rfl fun u _ _ hu => (u.ctr_raise _ (by decide : 1 < 32) hk).trans hu

/-- Where no flip is armed, nothing more is raised. -/
theorem State.rejectToo_idle (s : State) (form : Sys2Proof.Form) (off v c : Nat) (h0 : s.bit (Reg.LCY_FLIP_CTL.ARM 0) = false)
    (h1 : s.bit (Reg.LCY_FLIP_CTL.ARM 1) = false) : s.rejectToo form off v c = s := by
  simp only [State.rejectToo, List.foldl_cons, List.foldl_nil, h0, h1, Bool.and_false, Bool.false_and, State.raiseIf, Bool.false_eq_true,
    if_false]

theorem State.bit_raiseIf_mono (s : State) (c : Bool) (f g : Fr) (h : f.lo = f.hi) (h2 : f.hi < 32) (hl : g.lo = g.hi)
    (hg : s.bit g = true) : (s.raiseIf c f).bit g = true := by
  unfold State.raiseIf
  split
  · exact s.bit_raiseAt_mono f g 0 h h2 hl hg
  · exact hg

/-- A write of ARM that is rejected as busy raises FLIP_REJECT. -/
theorem State.bit_rejectToo_flip (s : State) (l : Fin 2) (v : Nat) (hl : s.bit (Reg.LCY_FLIP_CTL.ARM l) = true) (hv : v % 2 = 1) :
    (s.rejectToo .w32 (Reg.LCY_FLIP_CTL l) v 4).bit (Reg.LCY_EVENT.FLIP_REJECT l) = true := by
  have hb : (half v 0).getLsbD 0 = true := by
    simp only [half, BitVec.getLsbD_ofNat, Nat.testBit_zero]
    simpa using hv
  have raised (u : State) (hu : u.bit (Reg.LCY_FLIP_CTL.ARM l) = true) :
      (u.raiseIf (4 == 4 && u.bit (Reg.LCY_FLIP_CTL.ARM l) && (writeParts .w32 (Reg.LCY_FLIP_CTL l) v).any fun p =>
        p.1 == Reg.LCY_FLIP_CTL l && p.2.getLsbD 0) (Reg.LCY_EVENT.FLIP_REJECT l)).bit (Reg.LCY_EVENT.FLIP_REJECT l) = true := by
    simp only [hu, writeParts, List.any_cons, List.any_nil, Bool.or_false, beq_self_eq_true, hb, Bool.and_self]
    exact u.bit_raise _ rfl (by decide : 1 < 32)
  unfold State.rejectToo
  rw [List.foldl_cons, List.foldl_cons, List.foldl_nil]
  match l with
  | 0 => exact State.bit_raiseIf_mono _ _ _ _ rfl (by decide) rfl (raised s hl)
  | 1 => exact raised _ (s.bit_raiseIf_mono _ _ _ rfl (by decide) rfl hl)

end Sys2Proof.Machine
end

section
/-! SUPPORT. 32-bit writes: taken, rejected, or not decoded in D3hot (R14, R17, R484, R491). -/

namespace Sys2Proof.Machine

open Sys2Proof

/-! ### What a 32-bit write comes to -/

/-- A command that is one 32-bit write runs as that write. -/
theorem exec_of_writeOf {c : Instr} {off v : Nat} (h : writeOf c = some (off, v)) (s : State) : exec c s = .next (s.cmd (·.write32 off v)) := by
  cases c with
  | registerWrite form _ _ => cases form <;> cases h; rfl
  | override form _ _ => cases form <;> cases h; rfl
  | msixUnmask u => cases u <;> cases h; rfl
  | _ => cases h <;> rfl

theorem State.write32_d3hot (s : State) (off v : Nat) (h : s.pcie.d3hot = true) : s.write32 off v = s := by
  unfold State.write32 State.barWrite
  rw [if_pos h]

theorem State.write32_taken {s : State} {off v : Nat} (h : s.takes off v) : s.cleared.write32 off v = s.taken off v := by
  obtain ⟨hd, hc⟩ := h
  have hd : ¬ s.cleared.pcie.d3hot = true := by rw [show s.cleared.pcie = s.pcie from rfl, hd]; decide
  unfold State.write32 State.barWrite
  rw [if_neg hd]
  dsimp only
  rw [if_neg (not_not.2 hc)]
  rfl

theorem State.write32_rejected (s : State) (off v : Nat) (hd : s.pcie.d3hot = false) (hc : s.accessCause .w32 off v ≠ 0) :
    s.write32 off v = (s.reject (off / 4 * 4) v (s.accessCause .w32 off v)).rejectToo .w32 (off / 4 * 4) v (s.accessCause .w32 off v) := by
  unfold State.write32 State.barWrite
  rw [if_neg (by rw [hd]; decide)]
  exact if_pos hc

/-! ### What the command leaves -/

/-- A command that does nothing. -/
theorem State.sameBut_cmd_idle (s : State) (f : State → State) (h : s.live) (hf : f s.cleared = s.cleared) : s.sameBut (s.cmd f) wrapRegs :=
  s.sameBut_cmd s wrapRegs f h (by rw [hf]; rfl) rfl fun off ho => ⟨ho, by rw [hf]; rfl⟩

theorem State.sameBut_write32_taken {s : State} {off v : Nat} (h : s.live) (ht : s.takes off v) :
    (s.taken off v).sameBut (s.cmd (·.write32 off v)) wrapRegs :=
  s.sameBut_cmd _ _ _ h (by rw [State.write32_taken ht]) (s.taken_pending off v) fun o ho => ⟨ho, by rw [State.write32_taken ht]⟩

section Rejected

variable {s : State} {off v : Nat} (h : s.live) (hd : s.pcie.d3hot = false) (hc : s.cleared.accessCause .w32 off v ≠ 0)
include h hd hc

/-- A rejected write changes the log's registers and LCY_EVENT at most. -/
theorem State.sameBut_write32_rejected : s.sameBut (s.cmd (·.write32 off v)) (Reg.LCY_EVENT 0 :: Reg.LCY_EVENT 1 :: rejectRegs) := by
  have hw := s.cleared.write32_rejected off v hd hc
  refine s.sameBut_cmd s _ _ h (by rw [hw, State.rest_rejectToo, State.rest_reject, State.rest_cleared]) rfl fun o ho => ?_
  simp only [List.mem_cons, not_or] at ho
  obtain ⟨h0, h1, hr⟩ := ho
  have hwr : o ∉ wrapRegs := fun hm => hr (List.mem_append_left _ hm)
  have hf : o ≠ Reg.FLT_EVENT := fun e => hwr (by rw [e]; decide)
  exact ⟨hwr, by rw [hw, State.reg_rejectToo_ne _ _ _ _ _ h0 h1 hf, State.reg_reject_ne _ _ _ _ hr, State.reg_cleared]⟩

/-- Where no flip is armed, LCY_EVENT stays as well. -/
theorem State.sameBut_write32_rejected_idle (ha : ∀ l : Fin 2, s.bit (Reg.LCY_FLIP_CTL.ARM l) = false) :
    s.sameBut (s.cmd (·.write32 off v)) rejectRegs := by
  have arm (l : Fin 2) (c : Nat) : (s.cleared.reject (off / 4 * 4) v c).bit (Reg.LCY_FLIP_CTL.ARM l) = false := by
    rw [← ha l, State.bit_eq, State.bit_eq, State.fld_congr s _ _ (State.reg_reject_ne s.cleared _ _ _ ((by decide : ∀ l : Fin 2, Reg.LCY_FLIP_CTL l ∉ rejectRegs) l))]
  have hw := s.cleared.write32_rejected off v hd hc
  rw [State.rejectToo_idle _ _ _ _ _ (arm 0 _) (arm 1 _)] at hw
  exact s.sameBut_cmd s _ _ h (by rw [hw, State.rest_reject, State.rest_cleared]) rfl fun o ho =>
    ⟨fun hm => ho (List.mem_append_left _ hm), by rw [hw, State.reg_reject_ne _ _ _ _ ho, State.reg_cleared]⟩

/-- A bit that the rejection sets is 1 after the command. -/
theorem State.bit_write32_rejected (g : Fr) (hl : g.lo = g.hi) (hg : g.off ≠ Reg.PMC_WRAP_LOG)
    (hb : ((s.cleared.reject (off / 4 * 4) v (s.cleared.accessCause .w32 off v)).rejectToo .w32 (off / 4 * 4) v
      (s.cleared.accessCause .w32 off v)).bit g = true) : (s.cmd (·.write32 off v)).bit g = true :=
  s.bit_cmd _ h g hl hg (by rw [s.cleared.write32_rejected off v hd hc]; exact hb)

theorem State.wrRej_write32_rejected : (s.cmd (·.write32 off v)).bit Reg.GLB_HOST_EVENT.WR_REJ = true :=
  State.bit_write32_rejected h hd hc _ rfl (by decide) (State.bit_rejectToo _ _ _ _ _ _ rfl (State.bit_reject_wrRej ..))

theorem State.logValid_write32_rejected : (s.cmd (·.write32 off v)).bit Reg.GLB_REJ_LOG_0.VALID = true :=
  State.bit_write32_rejected h hd hc _ rfl (by decide)
    (State.bit_rejectToo _ _ _ _ _ _ rfl (State.bit_reject_valid _ _ _ _ (s.cleared.accessCause_w32_le off v)))

/-- A flip asked for while one is armed is rejected as busy (R140, R490). -/
theorem State.flipReject_write32_rejected (l : Fin 2) (ha : s.bit (Reg.LCY_FLIP_CTL.ARM l) = true) (ho : off = Reg.LCY_FLIP_CTL l) (hv : v % 2 = 1)
    (h4 : s.cleared.accessCause .w32 off v = 4) : (s.cmd (·.write32 off v)).bit (Reg.LCY_EVENT.FLIP_REJECT l) = true := by
  refine State.bit_write32_rejected h hd hc _ rfl ((by decide : ∀ l : Fin 2, Reg.LCY_EVENT l ≠ Reg.PMC_WRAP_LOG) l) ?_
  have hb : off / 4 * 4 = Reg.LCY_FLIP_CTL l := by
    rw [ho]
    exact (by decide : ∀ l : Fin 2, Reg.LCY_FLIP_CTL l / 4 * 4 = Reg.LCY_FLIP_CTL l) l
  rw [h4, hb]
  refine State.bit_rejectToo_flip _ l v ?_ hv
  rw [← ha, State.bit_eq, State.bit_eq, State.fld_congr s _ _ (State.reg_reject_ne s.cleared _ _ _ ((by decide : ∀ l : Fin 2, Reg.LCY_FLIP_CTL l ∉ rejectRegs) l))]

/-- A rejected write is counted by its cause. -/
theorem State.ctr_write32_rejected (hn : (s.ctr (2240 + s.cleared.accessCause .w32 off v)).v + 1 < 2 ^ 64) :
    ((s.cmd (·.write32 off v)).ctr (2240 + s.cleared.accessCause .w32 off v)).v = (s.ctr (2240 + s.cleared.accessCause .w32 off v)).v + 1 := by
  have hle := s.cleared.accessCause_w32_le off v
  have hk : plainCtr (2240 + s.cleared.accessCause .w32 off v) := .inr (by omega)
  rw [s.ctr_cmd _ h hk, s.cleared.write32_rejected off v hd hc, State.ctr_rejectToo _ _ _ _ _ hk, State.ctr_reject _ _ _ _ hk]
  exact State.ctr_count s.cleared _ 1 hn

/-- An empty log takes the rejected write: offset, cause, value. -/
theorem State.log_write32_rejected (he : s.bit Reg.GLB_REJ_LOG_0.VALID = false) :
    (s.cmd (·.write32 off v)).fld Reg.GLB_REJ_LOG_0.OFFSET = off / 4 * 4 % 2 ^ 24 ∧
    (s.cmd (·.write32 off v)).fld Reg.GLB_REJ_LOG_0.CAUSE = s.cleared.accessCause .w32 off v ∧
    (s.cmd (·.write32 off v)).reg Reg.GLB_REJ_LOG_1 = BitVec.ofNat 32 v := by
  obtain ⟨h0, h1⟩ := s.cleared.reg_reject_log (off / 4 * 4) v (s.cleared.accessCause .w32 off v) he
  obtain ⟨ho, hcause, -⟩ := rejLog_fields (off / 4 * 4) _ (s.cleared.accessCause_w32_le off v)
  have left {o : Nat} (hw : o ∉ wrapRegs) (hl : o ≠ Reg.LCY_EVENT 0) (hl1 : o ≠ Reg.LCY_EVENT 1) : (s.cmd (·.write32 off v)).reg o =
      (s.cleared.reject (off / 4 * 4) v (s.cleared.accessCause .w32 off v)).reg o := by
    rw [s.reg_cmd _ h hw, s.cleared.write32_rejected off v hd hc]
    exact State.reg_rejectToo_ne _ _ _ _ _ hl hl1 fun e => hw (by rw [e]; decide)
  refine ⟨?_, ?_, (left (by decide) (by decide) (by decide)).trans h1⟩
  · rw [State.fld, left (by decide) (by decide) (by decide), h0, ho]
  · rw [State.fld, left (by decide) (by decide) (by decide), h0, hcause]

end Rejected

/-- Settles O20: a command that is one write runs it, and the write is taken, rejected, or not decoded. -/
theorem writesAreWhole : Obligations.WritesAreWhole := by
  unfold Obligations.WritesAreWhole
  intro c s off v hc h
  have he := exec_of_writeOf hc s
  refine ⟨fun ht => ⟨_, he, State.sameBut_write32_taken h ht⟩,
    fun hd => ⟨_, he, s.sameBut_cmd_idle _ h (s.cleared.write32_d3hot off v hd)⟩, fun hd hr => ⟨_, he, ?_⟩⟩
  exact ⟨State.sameBut_write32_rejected h hd hr, State.sameBut_write32_rejected_idle h hd hr, State.flipReject_write32_rejected h hd hr,
    State.wrRej_write32_rejected h hd hr, State.logValid_write32_rejected h hd hr, State.ctr_write32_rejected h hd hr,
    State.log_write32_rejected h hd hr⟩

end Sys2Proof.Machine
end

section
/-! SUPPORT. What a taken write stores, what an override does beside it, and CFG_OVR (R14, R41, R431, R432, R434). -/

namespace Sys2Proof.Machine

open Sys2Proof

/-! ### Storing a write -/

/-- Whether a register word changes in an RWO field: an override (R432). -/
def overrides (off : Nat) (old new : Word) : Bool :=
  (regFlds off).any fun f => f.acc == .rwo && getBits old f.hi f.lo != getBits new f.hi f.lo

/-- A store sets its register and notes it for publication; an override is accepted beside it; a counter's flag lies with the counters. -/
theorem State.store_form (s : State) (off : Nat) (v : Word) : ∃ (b : State) (c : SMap Ctr), s.store off v = { b with ctrs := c } ∧
    b = if overrides off (s.reg off) (writtenWord off (s.reg off) v) then
      ((s.setReg off (writtenWord off (s.reg off) v)).dueShadow off).overrode off (s.reg off).toNat (writtenWord off (s.reg off) v).toNat
      else (s.setReg off (writtenWord off (s.reg off) v)).dueShadow off := by
  unfold State.store
  extract_lets old new ovr a b k
  have hb : b = if overrides off old new then a.overrode off old.toNat new.toNat else a := rfl
  clear_value b
  by_cases hc : 0x500000 ≤ off ∧ off < 0x540000 ∧ off % 16 = 8 ∧ v.getLsbD 8 = true
  · exact ⟨b, _, if_pos hc, hb⟩
  · exact ⟨b, b.ctrs, if_neg hc, hb⟩

/-- A store that overrides nothing. -/
theorem State.store_plain (s : State) (off : Nat) (v : Word) (h : overrides off (s.reg off) (writtenWord off (s.reg off) v) = false) :
    ∃ c, s.store off v = { (s.setReg off (writtenWord off (s.reg off) v)).dueShadow off with ctrs := c } := by
  obtain ⟨b, c, e, hb⟩ := s.store_form off v
  rw [h, if_neg Bool.false_ne_true] at hb
  exact ⟨c, by rw [e, hb]⟩

/-- A store that overrides: what `overrode` leaves, but for the counters. -/
theorem State.store_override (s : State) (off : Nat) (v : Word) (h : overrides off (s.reg off) (writtenWord off (s.reg off) v) = true) :
    ∃ c o n, s.store off v = { ((s.setReg off (writtenWord off (s.reg off) v)).dueShadow off).overrode off o n with ctrs := c } := by
  obtain ⟨b, c, e, hb⟩ := s.store_form off v
  rw [h, if_pos rfl] at hb
  exact ⟨c, _, _, by rw [e, hb]⟩

@[simp] theorem State.reg_dueShadow (s : State) (off o : Nat) : (s.dueShadow off).reg o = s.reg o :=
  State.reg_congr _ _ (by simp only [State.dueShadow_frame]) o

theorem State.mem_dueShadow (s : State) (off : Nat) : off ∈ (s.dueShadow off).shadowDue := by
  unfold State.dueShadow
  split
  · next h => exact List.contains_iff_mem.1 h
  · exact List.mem_append_right _ (List.mem_singleton_self off)

/-- Noting a register for publication touches the list of those noted alone. -/
theorem State.rest_dueShadow (s : State) (off : Nat) : (s.dueShadow off).rest = { s.rest with shadowDue := (s.dueShadow off).shadowDue } := by
  unfold State.dueShadow
  split <;> rfl

/-- The registers that a rejected write or an override changes beside its own have no RWO field. -/
theorem overrides_off_notMem {off : Nat} {old new : Word} (h : overrides off old new = true) :
    off ∉ Reg.CFG_EVENT :: Reg.CFG_OVR_CNT :: Reg.CFG_EPOCH :: Reg.LCY_EVENT 0 :: Reg.LCY_EVENT 1 :: rejectRegs := by
  intro hm
  have hn : ∀ o ∈ Reg.CFG_EVENT :: Reg.CFG_OVR_CNT :: Reg.CFG_EPOCH :: Reg.LCY_EVENT 0 :: Reg.LCY_EVENT 1 :: rejectRegs,
      ∀ f ∈ regFlds o, (f.acc == .rwo) = false := by decide +kernel
  obtain ⟨f, hf, hx⟩ := List.any_eq_true.1 h
  rw [hn off hm f hf, Bool.false_and] at hx
  exact absurd hx Bool.false_ne_true

/-! ### The override's consequences -/

/-- The configuration epoch after one more (R434). -/
def epochAfter (e : Nat) : Nat := if e % 65536 = 65535 then e - 65535 else e + 1

/-- A step of the epoch sets CFG_EPOCH, and raises EPOCH_WRAP where its low half wraps. -/
theorem State.epochStep_cases (s : State) :
    (∃ b, s.epochStep = { (s.setFld Reg.CFG_EPOCH.EPOCH (epochAfter (s.fld Reg.CFG_EPOCH.EPOCH))).raise Reg.CFG_EVENT.EPOCH_WRAP with boot := b }) ∨
    s.epochStep = s.setFld Reg.CFG_EPOCH.EPOCH (epochAfter (s.fld Reg.CFG_EPOCH.EPOCH)) := by
  by_cases h : s.fld Reg.CFG_EPOCH.EPOCH % 65536 = 65535
  · rw [show epochAfter (s.fld Reg.CFG_EPOCH.EPOCH) = s.fld Reg.CFG_EPOCH.EPOCH - 65535 from if_pos h]
    exact .inl ⟨_, if_pos h⟩
  · rw [show epochAfter (s.fld Reg.CFG_EPOCH.EPOCH) = s.fld Reg.CFG_EPOCH.EPOCH + 1 from if_neg h]
    exact .inr (if_neg h)

theorem State.reg_epochStep_ne (s : State) {o : Nat} (h : o ≠ Reg.CFG_EPOCH) (he : o ≠ Reg.CFG_EVENT) (hf : o ≠ Reg.FLT_EVENT) :
    s.epochStep.reg o = s.reg o := by
  have hs (v : Nat) : (s.setFld Reg.CFG_EPOCH.EPOCH v).reg o = s.reg o := s.reg_setFld_ne v (Ne.symm h)
  obtain ⟨b, e⟩ | e := s.epochStep_cases <;> rw [e]
  · exact (State.reg_raise_ne _ _ he hf).trans (hs _)
  · exact hs _

theorem epochAfter_lt {e : Nat} (h : e < 2 ^ 32) : epochAfter e < 2 ^ 32 := by
  unfold epochAfter
  split <;> omega

theorem State.fld_epochStep (s : State) : s.epochStep.fld Reg.CFG_EPOCH.EPOCH = epochAfter (s.fld Reg.CFG_EPOCH.EPOCH) := by
  have hs : (s.setFld Reg.CFG_EPOCH.EPOCH (epochAfter (s.fld Reg.CFG_EPOCH.EPOCH))).fld Reg.CFG_EPOCH.EPOCH = epochAfter (s.fld Reg.CFG_EPOCH.EPOCH) := by
    rw [State.fld_setFld _ _ _ (by decide) (by decide)]
    exact Nat.mod_eq_of_lt (epochAfter_lt (getBits_lt _ 31 0))
  obtain ⟨b, e⟩ | e := s.epochStep_cases <;> rw [e]
  · exact (State.fld_congr _ _ _ (State.reg_raise_ne _ _ (by decide) (by decide))).trans hs
  · exact hs

theorem State.bit_epochStep (s : State) (g : Fr) (hl : g.lo = g.hi) (hg : g.off ≠ Reg.CFG_EPOCH) (h : s.bit g = true) : s.epochStep.bit g = true := by
  have hs (v : Nat) : (s.setFld Reg.CFG_EPOCH.EPOCH v).bit g = true := by
    rw [State.bit_eq, State.fld_congr s _ g (s.reg_setFld_ne v (Ne.symm hg)), ← State.bit_eq, h]
  obtain ⟨b, e⟩ | e := s.epochStep_cases <;> rw [e]
  · exact State.bit_raiseAt_mono _ _ g 0 rfl (by decide) hl (hs _)
  · exact hs _

/-- The state in which an override's epoch step is taken: OVERRIDE raised, CFG_OVR_CNT advanced, the record queued. -/
def State.overrideNoted (s : State) (off old new : Nat) : State :=
  ((s.raiseOwn Reg.CFG_EVENT.OVERRIDE).setFld Reg.CFG_OVR_CNT.CNT ((s.raiseOwn Reg.CFG_EVENT.OVERRIDE).fld Reg.CFG_OVR_CNT.CNT + 1)).queueRec
    0x0006 1 1 (leBytes 4 off ++ leBytes 4 old ++ leBytes 4 new)

theorem State.overrode_eq (s : State) (off old new : Nat) : s.overrode off old new = (s.overrideNoted off old new).epochStep := rfl

theorem State.reg_overrideNoted_ne (s : State) (off old new : Nat) {o : Nat} (he : o ≠ Reg.CFG_EVENT) (hc : o ≠ Reg.CFG_OVR_CNT)
    (hf : o ≠ Reg.FLT_EVENT) : (s.overrideNoted off old new).reg o = s.reg o := by
  rw [State.overrideNoted, State.reg_queueRec_ne _ _ _ _ _ hf, State.reg_setFld_ne _ _ (Ne.symm hc), State.reg_raiseOwn_ne _ _ he]

/-- An override writes CFG_EVENT, CFG_OVR_CNT and CFG_EPOCH alone, with Moraine's FLT_EVENT. -/
theorem State.reg_overrode_ne (s : State) (off old new : Nat) {o : Nat} (he : o ≠ Reg.CFG_EVENT) (hc : o ≠ Reg.CFG_OVR_CNT) (hp : o ≠ Reg.CFG_EPOCH)
    (hf : o ≠ Reg.FLT_EVENT) : (s.overrode off old new).reg o = s.reg o := by
  rw [State.overrode_eq, State.reg_epochStep_ne _ hp he hf, State.reg_overrideNoted_ne _ _ _ _ he hc hf]

theorem State.fld_overrode_epoch (s : State) (off old new : Nat) :
    (s.overrode off old new).fld Reg.CFG_EPOCH.EPOCH = epochAfter (s.fld Reg.CFG_EPOCH.EPOCH) := by
  rw [State.overrode_eq, State.fld_epochStep, State.fld_congr s _ _ (s.reg_overrideNoted_ne _ _ _ (by decide) (by decide) (by decide))]

theorem State.fld_overrode_cnt (s : State) (off old new : Nat) :
    (s.overrode off old new).fld Reg.CFG_OVR_CNT.CNT = (s.fld Reg.CFG_OVR_CNT.CNT + 1) % 2 ^ 32 := by
  rw [State.overrode_eq, State.fld_congr _ _ _ (State.reg_epochStep_ne _ (by decide) (by decide) (by decide)), State.overrideNoted,
    State.fld_congr _ _ _ (State.reg_queueRec_ne _ _ _ _ _ (by decide)), State.fld_setFld _ _ _ (by decide) (by decide),
    State.fld_congr s _ _ (State.reg_raiseOwn_ne _ _ (by decide))]
  rfl

theorem State.bit_overrode_event (s : State) (off old new : Nat) : (s.overrode off old new).bit Reg.CFG_EVENT.OVERRIDE = true := by
  refine State.bit_epochStep _ _ rfl (by decide) (State.bit_queueRec _ _ _ _ _ _ rfl ?_)
  rw [State.bit_eq, State.fld_congr _ _ _ (State.reg_setFld_ne _ _ (by decide)), ← State.bit_eq]
  exact State.bit_raiseOwn _ _ rfl (by decide)

@[simp] theorem State.overrode_shadowDue (s : State) (off old new : Nat) : (s.overrode off old new).shadowDue = s.shadowDue := by
  unfold State.overrode State.epochStep
  simp only [apply_ite State.shadowDue, State.raise_frame, State.setFld_frame, State.queueRec_frame, State.raiseOwn_frame, ite_self]

/-! ### Writes that set nothing else in motion -/

/-- Such a write leaves what it stored. -/
theorem State.write32_quiet {s : State} {off v : Nat} (hq : ∀ (x : State) (old : Word), x.effect off old = x) (ht : s.takes off v) :
    s.cleared.write32 off v = s.stored off v := by
  rw [State.write32_taken ht, State.taken, hq]

section Quiet

variable {s : State} {off v : Nat} (h : s.live) (hq : ∀ (x : State) (old : Word), x.effect off old = x) (hw : off ∉ wrapRegs) (ht : s.takes off v)
include h hq hw ht

/-- One that overrides nothing changes its register alone. -/
theorem State.plainWrite_leaves (ho : overrides off (s.reg off) (writtenWord off (s.reg off) (half v 0)) = false) :
    let t := s.cmd (·.write32 off v)
    s.sameBut { t with shadowDue := s.shadowDue } (off :: wrapRegs) ∧ t.reg off = writtenWord off (s.reg off) (half v 0) ∧ off ∈ t.shadowDue := by
  intro t
  obtain ⟨c, e⟩ := s.cleared.store_plain off (half v 0) ho
  generalize hu : (s.cleared.setReg off (writtenWord off (s.cleared.reg off) (half v 0))).dueShadow off = u at e
  have hs : s.cleared.write32 off v = { u with ctrs := c } := (State.write32_quiet hq ht).trans e
  have hreg {o : Nat} (hn : o ∉ wrapRegs) : t.reg o = (s.cleared.setReg off (writtenWord off (s.reg off) (half v 0))).reg o := by
    rw [s.reg_cmd _ h hn, hs]
    exact (State.reg_congr u _ rfl o).trans (by rw [← hu, State.reg_dueShadow, State.reg_cleared])
  have hrest : t.rest = { s.rest with shadowDue := u.shadowDue } := by
    refine s.rest_cmd { s with shadowDue := u.shadowDue } _ h ?_ rfl
    rw [hs, show ({ u with ctrs := c } : State).rest = u.rest from rfl, ← hu, State.rest_dueShadow, State.rest_setReg]
    rfl
  refine ⟨⟨?_, fun o hn => ?_⟩, ?_, ?_⟩
  · exact congrArg (fun r : State => { r with shadowDue := s.shadowDue }) hrest
  · obtain ⟨h1, h2⟩ := not_or.1 (List.mem_cons.not.1 hn)
    exact (hreg h2).trans (State.reg_setReg_ne s.cleared _ (Ne.symm h1))
  · rw [hreg hw, State.reg_setReg_self]
  · have hsd : t.shadowDue = (s.cleared.write32 off v).shadowDue := by simp only [t, s.cmd_frame _ h]
    rw [hsd, hs, ← hu]
    exact State.mem_dueShadow _ off

/-- One that overrides stores its register, is counted and raised, and advances CFG_EPOCH. -/
theorem State.overrideWrite_leaves (ho : overrides off (s.reg off) (writtenWord off (s.reg off) (half v 0)) = true) :
    let t := s.cmd (·.write32 off v)
    t.reg off = writtenWord off (s.reg off) (half v 0) ∧ off ∈ t.shadowDue ∧
      t.fld Reg.CFG_OVR_CNT.CNT = (s.fld Reg.CFG_OVR_CNT.CNT + 1) % 2 ^ 32 ∧ t.bit Reg.CFG_EVENT.OVERRIDE = true ∧
      t.fld Reg.CFG_EPOCH.EPOCH = epochAfter (s.fld Reg.CFG_EPOCH.EPOCH) := by
  intro t
  obtain ⟨c, o, n, e⟩ := s.cleared.store_override off (half v 0) ho
  have hs := (State.write32_quiet hq ht).trans e
  generalize hu : (s.cleared.setReg off (writtenWord off (s.cleared.reg off) (half v 0))).dueShadow off = u at hs
  have hur (k : Nat) (hk : off ≠ k) : u.reg k = s.reg k := by
    rw [← hu, State.reg_dueShadow, State.reg_setReg_ne _ _ hk, State.reg_cleared]
  have huo : u.reg off = writtenWord off (s.reg off) (half v 0) := by
    rw [← hu, State.reg_dueShadow, State.reg_setReg_self, State.reg_cleared]
  generalize hx : u.overrode off o n = x at hs
  have hreg {k : Nat} (hn : k ∉ wrapRegs) : t.reg k = x.reg k := by
    rw [s.reg_cmd _ h hn, hs]
    exact State.reg_congr x _ rfl k
  have hne := overrides_off_notMem ho
  simp only [List.mem_cons, not_or] at hne
  obtain ⟨hev, hcnt, hep, -⟩ := hne
  refine ⟨?_, ?_, ?_, ?_, ?_⟩
  · rw [hreg hw, ← hx, State.reg_overrode_ne _ _ _ _ hev hcnt hep (fun e => hw (by rw [e]; decide)), huo]
  · have hsd : t.shadowDue = x.shadowDue := by simp only [t, s.cmd_frame _ h, hs]
    rw [hsd, ← hx, State.overrode_shadowDue, ← hu]
    exact State.mem_dueShadow _ off
  · rw [State.fld_congr _ _ _ (hreg (by decide)), ← hx, State.fld_overrode_cnt, State.fld_congr s u _ (hur _ hcnt)]
  · refine s.bit_cmd _ h _ rfl (by decide) ?_
    have hbit : x.bit Reg.CFG_EVENT.OVERRIDE = true := by rw [← hx]; exact u.bit_overrode_event off o n
    rw [hs]
    exact hbit
  · rw [State.fld_congr _ _ _ (hreg (by decide)), ← hx, State.fld_overrode_epoch, State.fld_congr s u _ (hur _ hep)]

end Quiet

/-! ### Locked overrides -/

/-- While the override is locked, a write that overrides has a cause. -/
theorem State.accessCause_locked (s : State) (off v : Nat) (hu : s.bit Reg.CFG_OVR.UNLOCK = false)
    (ho : overrides off (s.reg off) (writtenWord off (s.reg off) (half v 0)) = true) : s.accessCause .w32 off v ≠ 0 := by
  intro h0
  obtain ⟨-, hl, -⟩ := State.accessCause_w32_eq_zero h0
  unfold State.lockBars at hl
  unfold overrides at ho
  simp only [hu, ho, Bool.not_false, Bool.true_and, Bool.true_or] at hl
  exact absurd hl (by decide)

/-- A rejected write leaves the registers outside those of the rejection. -/
theorem State.reg_write32_rejected {s : State} {off v : Nat} (h : s.live) (hd : s.pcie.d3hot = false)
    (hc : s.cleared.accessCause .w32 off v ≠ 0) {o : Nat} (ho : o ∉ Reg.LCY_EVENT 0 :: Reg.LCY_EVENT 1 :: rejectRegs) :
    (s.cmd (·.write32 off v)).reg o = s.reg o := (State.sameBut_write32_rejected h hd hc).2 o ho

/-! ### The unlock -/

theorem half_word (w : Word) : half w.toNat 0 = w := by
  unfold half
  rw [Nat.mul_zero, Nat.pow_zero, Nat.div_one, BitVec.ofNat_toNat, BitVec.setWidth_eq]

theorem regFlds_CFG_OVR : regFlds Reg.CFG_OVR = [fA 15 0 .wo 0, fA 16 16 .rw 0] := by decide +kernel

theorem effect_CFG_OVR (x : State) (old : Word) : x.effect Reg.CFG_OVR old = x.setFld Reg.CFG_STATUS.OVR_UNLOCKED (x.fld Reg.CFG_OVR.UNLOCK) := rfl

/-- A word stored in CFG_OVR shows its UNLOCK. -/
theorem getBits_writtenWord_unlock (old w : Word) : getBits (writtenWord Reg.CFG_OVR old w) 16 16 = getBits w 16 16 := by
  rw [writtenWord, regFlds_CFG_OVR]
  simp only [List.foldl_cons, List.foldl_nil, fA]
  rw [getBits_setBits _ _ _ _ (by decide) (by decide)]
  exact Nat.mod_eq_of_lt (getBits_lt w 16 16)

theorem getBits_beq_one (w : Word) (i : Nat) : (getBits w i i == 1) = w.getLsbD i := by
  have h : getBits w i i = (w.getLsbD i).toNat := by
    rw [getBits, show i + 1 - i = 1 by omega, pow_one, Nat.shiftRight_eq_div_pow, BitVec.getLsbD, Nat.toNat_testBit]
  rw [h]
  cases w.getLsbD i <;> rfl

/-- A taken write of CFG_OVR locks or unlocks, and STATUS shows which. -/
theorem State.unlockWrite_leaves {s : State} (h : s.live) (w : Word) (ht : s.takes Reg.CFG_OVR w.toNat) :
    let t := s.cmd (·.write32 Reg.CFG_OVR w.toNat)
    t.bit Reg.CFG_OVR.UNLOCK = w.getLsbD 16 ∧ t.bit Reg.CFG_STATUS.OVR_UNLOCKED = w.getLsbD 16 := by
  intro t
  have hno : overrides Reg.CFG_OVR (s.reg Reg.CFG_OVR) (writtenWord Reg.CFG_OVR (s.reg Reg.CFG_OVR) (half w.toNat 0)) = false := by
    rw [overrides, regFlds_CFG_OVR]; rfl
  obtain ⟨c, e⟩ := s.cleared.store_plain Reg.CFG_OVR (half w.toNat 0) hno
  have hst : (s.stored Reg.CFG_OVR w.toNat).fld Reg.CFG_OVR.UNLOCK = getBits w 16 16 := by
    rw [State.stored, e]
    refine Eq.trans ?_ ((getBits_writtenWord_unlock (s.reg Reg.CFG_OVR) (half w.toNat 0)).trans (by rw [half_word]))
    exact congrArg (getBits · 16 16) ((State.reg_dueShadow _ _ _).trans (s.cleared.reg_setReg_self Reg.CFG_OVR _))
  have hf : s.cleared.write32 Reg.CFG_OVR w.toNat = (s.stored Reg.CFG_OVR w.toNat).setFld Reg.CFG_STATUS.OVR_UNLOCKED (getBits w 16 16) := by
    rw [State.write32_taken ht, State.taken, effect_CFG_OVR, hst]
  have hreg {k : Nat} (hn : k ∉ wrapRegs) :
      t.reg k = ((s.stored Reg.CFG_OVR w.toNat).setFld Reg.CFG_STATUS.OVR_UNLOCKED (getBits w 16 16)).reg k := by
    rw [s.reg_cmd _ h hn, hf]
  rw [← getBits_beq_one]
  constructor
  · rw [State.bit, State.fld_congr _ _ _ (hreg (by decide)), State.fld_setFld_ne _ _ _ _ (by decide) (by decide) (.inl (by decide)), hst]
  · rw [State.bit, State.fld_congr _ _ _ (hreg (by decide)), State.fld_setFld _ _ _ (by decide) (by decide)]
    exact congrArg (· == 1) (Nat.mod_eq_of_lt (getBits_lt w 16 16))

/-- UNLOCK without the key has a cause (R431). -/
theorem State.accessCause_badKey (s : State) (w : Word) (hb : w.getLsbD 16 = true) (hk : getBits w 15 0 ≠ 0xA5C3) :
    s.accessCause .w32 Reg.CFG_OVR w.toNat ≠ 0 := by
  intro h0
  obtain ⟨-, -, hl⟩ := State.accessCause_w32_eq_zero h0
  have hl := hl (by decide +kernel)
  have hx : legalExtra Reg.CFG_OVR w = (!w.getLsbD 16 || getBits w 15 0 == 0xA5C3) := rfl
  rw [half_word, legalWord, hx, hb, beq_false_of_ne hk] at hl
  simp only [Bool.not_true, Bool.or_self, Bool.and_false] at hl
  exact absurd hl (by decide)

/-- Settles O22: the field-by-field store, the override beside it, its lock, and the unlock's key. -/
theorem registerWrites : Obligations.RegisterWrites := by
  unfold Obligations.RegisterWrites
  intro s off v h hq hw new ovr
  have run (c : Instr) (o n : Nat) (hc : writeOf c = some (o, n)) : exec c s = .next (s.cmd (·.write32 o n)) := exec_of_writeOf hc s
  refine ⟨fun ht ho => ⟨_, run _ off v.toNat rfl, State.plainWrite_leaves h hq hw ht ho⟩,
    fun ht ho => ⟨_, run _ off v.toNat rfl, State.overrideWrite_leaves h hq hw ht ho⟩, fun hd hu ho => ⟨_, run _ off v.toNat rfl, ?_⟩,
    fun w ht => ⟨_, run _ _ w.toNat rfl, State.unlockWrite_leaves h w ht⟩, fun w hd hb hk => ⟨_, run _ _ w.toNat rfl, ?_⟩⟩
  · have hc := s.cleared.accessCause_locked off v.toNat hu ho
    have hne := overrides_off_notMem ho
    simp only [List.mem_cons, not_or] at hne
    obtain ⟨-, -, -, h0, h1, hr⟩ := hne
    exact ⟨State.reg_write32_rejected h hd hc (by simp only [List.mem_cons, not_or]; exact ⟨h0, h1, hr⟩), State.wrRej_write32_rejected h hd hc⟩
  · have hc := s.cleared.accessCause_badKey w hb hk
    exact ⟨by rw [State.bit_eq, State.fld_congr s _ _ (State.reg_write32_rejected h hd hc (by decide)), ← State.bit_eq],
      State.wrRej_write32_rejected h hd hc⟩

end Sys2Proof.Machine
end

section
/-! SUPPORT. Reads through BAR0 and the BAR2 mirror: what they answer, what they capture, what they leave (R15, R475, R476, R484, R487). -/

namespace Sys2Proof.Machine

open Sys2Proof

/-! ### A path's captures

A read touches the captures of its path alone, so that it is a function of the values in effect and of those captures. -/

/-- The captures of a path (0 BAR0, 2 BAR2). -/
def State.lat (s : State) (path : Nat) : SMap (Option Word) := if path = 2 then s.lat2 else s.lat0

/-- The state with a path's captures replaced. -/
def State.setLat (s : State) (path : Nat) (m : SMap (Option Word)) : State := if path = 2 then { s with lat2 := m } else { s with lat0 := m }

@[simp] theorem State.lat_setLat (s : State) (path : Nat) (m : SMap (Option Word)) : (s.setLat path m).lat path = m := by
  unfold State.lat State.setLat
  by_cases h : path = 2
  · rw [if_pos h, if_pos h]
  · rw [if_neg h, if_neg h]

@[simp] theorem State.setLat_setLat (s : State) (path : Nat) (m m' : SMap (Option Word)) : (s.setLat path m).setLat path m' = s.setLat path m' := by
  unfold State.setLat
  split <;> rfl

@[simp] theorem State.view_setLat (s : State) (path : Nat) (m : SMap (Option Word)) (cyc off : Nat) : (s.setLat path m).view cyc off = s.view cyc off := by
  unfold State.setLat
  split <;> rfl

theorem State.setLat_lat (s : State) (path : Nat) : s.setLat path (s.lat path) = s := by
  unfold State.setLat State.lat
  split <;> rfl

/-- What a path with captures `m` reads at a register. -/
def latWord (view : Nat → Word) (m : SMap (Option Word)) (off : Nat) : Word :=
  match m.get noCapture off with
  | some w => w
  | none => if off = 0x84 ∨ (0x400024 ≤ off ∧ off ≤ 0x400030) then 0 else view off

/-- The captures after one companion of `from_` is captured anew. -/
def latCapture (view : Nat → Word) (from_ : Nat) (m : SMap (Option Word)) (off : Nat) : SMap (Option Word) :=
  m.set noCapture off (some (if (m.get noCapture from_).isSome then latWord view m off else view off))

/-- The captures after a 32-bit read. -/
def latAfter (view : Nat → Word) (m : SMap (Option Word)) (off : Nat) : SMap (Option Word) := (companions off).foldl (latCapture view off) m

/-- What a read of any form answers, and the captures after it. -/
def latRead (view : Nat → Word) (form : Form) (m : SMap (Option Word)) (off : Nat) : Nat × SMap (Option Word) :=
  match form with
  | .w32 => if off % 4 = 0 then ((latWord view m off).toNat, latAfter view m off) else (0, m)
  | .w64 => if off % 8 = 0 then ((latWord view m off).toNat + (latWord view (latAfter view m off) (off + 4)).toNat * 2 ^ 32,
      latAfter view (latAfter view m off) (off + 4)) else (0, m)
  | .other => (0, m)

theorem State.captured_eq (s : State) (path off : Nat) : s.captured path off = (s.lat path).get noCapture off := rfl

theorem State.pathWord_eq (s : State) (path cyc off : Nat) : s.pathWord path cyc off = latWord (s.view cyc) (s.lat path) off := rfl

theorem State.captureOne_eq (s : State) (path cyc from_ off : Nat) :
    State.captureOne path cyc from_ s off = s.setLat path (latCapture (s.view cyc) from_ (s.lat path) off) := by
  unfold State.captureOne State.setLat State.lat latCapture
  by_cases h : path = 2
  · subst h; rfl
  · rw [if_neg h, if_neg h, State.captured_eq, State.pathWord_eq, State.lat, if_neg h]

theorem State.captures_eq (s : State) (path cyc from_ : Nat) (offs : List Nat) : offs.foldl (State.captureOne path cyc from_) s =
    s.setLat path (offs.foldl (latCapture (s.view cyc) from_) (s.lat path)) := by
  induction offs generalizing s with
  | nil => exact (s.setLat_lat path).symm
  | cons o offs ih =>
    have hv (m : SMap (Option Word)) : (s.setLat path m).view cyc = s.view cyc := funext fun _ => s.view_setLat ..
    rw [List.foldl_cons, List.foldl_cons, ih, s.captureOne_eq, State.lat_setLat, State.setLat_setLat, hv]

theorem State.readWord_eq (s : State) (path cyc off : Nat) :
    s.readWord path cyc off = (latWord (s.view cyc) (s.lat path) off, s.setLat path (latAfter (s.view cyc) (s.lat path) off)) := by
  rw [State.readWord, State.captures_eq]
  rfl

/-- A read of a path answers and captures what its values in effect and its captures give. -/
theorem State.readForm_eq (s : State) (path cyc : Nat) (form : Form) (off : Nat) :
    s.readForm path cyc form off =
      ((latRead (s.view cyc) form (s.lat path) off).1, s.setLat path (latRead (s.view cyc) form (s.lat path) off).2) := by
  have hv (m : SMap (Option Word)) : (s.setLat path m).view cyc = s.view cyc := funext fun _ => s.view_setLat ..
  have h0 : ((0, s) : Nat × State) = (0, s.setLat path (s.lat path)) := by rw [s.setLat_lat]
  cases form with
  | w32 =>
    by_cases ha : off % 4 = 0
    · simp only [State.readForm, latRead, if_pos ha, State.readWord_eq]
    · simpa only [State.readForm, latRead, if_neg ha] using h0
  | w64 =>
    by_cases ha : off % 8 = 0
    · simp only [State.readForm, latRead, if_pos ha, State.readWord_eq, State.lat_setLat, hv, State.setLat_setLat]
    · simpa only [State.readForm, latRead, if_neg ha] using h0
  | other => exact h0

/-! ### What a latching read captures -/

theorem companions_gt {off c : Nat} (h : c ∈ companions off) : off < c := by
  unfold companions at h
  dsimp only at h
  repeat' split at h
  all_goals simp only [List.mem_cons, List.mem_map, List.mem_range, List.not_mem_nil, or_false] at h
  all_goals omega

theorem companions_nodup (off : Nat) : (companions off).Nodup := by
  have hr (n : Nat) : ((List.range n).map fun i => off + 4 * (i + 1)).Nodup := List.nodup_range.map fun a b e => by
    have e : off + 4 * (a + 1) = off + 4 * (b + 1) := e
    omega
  unfold companions
  dsimp only
  split; · exact List.nodup_singleton _
  split; · simp
  split; · exact hr 7
  split; · decide
  split; · simp
  split
  · split; · exact hr 10
    split; · exact List.nodup_singleton _
    exact List.nodup_nil
  · exact List.nodup_nil

theorem latAfter_none {view : Nat → Word} {m : SMap (Option Word)} {off : Nat} (h : companions off = []) : latAfter view m off = m := by
  rw [latAfter, h, List.foldl_nil]

/-- A capture of other registers. -/
theorem latCaptures_ne (view : Nat → Word) (from_ : Nat) (offs : List Nat) (m : SMap (Option Word)) {c : Nat} (hc : c ∉ offs) :
    (offs.foldl (latCapture view from_) m).get noCapture c = m.get noCapture c :=
  List.foldlRecOn (motive := fun k : SMap (Option Word) => k.get noCapture c = m.get noCapture c) _ _ rfl fun _ hk _ ho =>
    (SMap.get_set_ne _ _ _ (ne_of_mem_of_not_mem ho hc)).trans hk

/-- A companion captured by a list of captures reads as it did before them. -/
theorem latCaptures_mem (view : Nat → Word) (from_ : Nat) (offs : List Nat) (m : SMap (Option Word)) (hn : offs.Nodup) (hf : from_ ∉ offs)
    {c : Nat} (hc : c ∈ offs) : (offs.foldl (latCapture view from_) m).get noCapture c =
      some (if (m.get noCapture from_).isSome then latWord view m c else view c) := by
  induction offs generalizing m with
  | nil => exact absurd hc List.not_mem_nil
  | cons o offs ih =>
    obtain ⟨ho, hn⟩ := List.nodup_cons.1 hn
    obtain ⟨hfo, hf⟩ := not_or.1 (List.mem_cons.not.1 hf)
    have hfrom : (latCapture view from_ m o).get noCapture from_ = m.get noCapture from_ := SMap.get_set_ne _ _ _ (Ne.symm hfo)
    rw [List.foldl_cons]
    rcases List.mem_cons.1 hc with rfl | hc
    · rw [latCaptures_ne view from_ offs _ ho, latCapture, SMap.get_set_self]
    · have hco : (latCapture view from_ m o).get noCapture c = m.get noCapture c := SMap.get_set_ne _ _ _ fun e => ho (e ▸ hc)
      rw [ih _ hn hf hc, hfrom, latWord, hco]
      rfl

theorem latAfter_mem (view : Nat → Word) (m : SMap (Option Word)) {off c : Nat} (h : c ∈ companions off) :
    (latAfter view m off).get noCapture c = some (if m.get noCapture off = none then view c else latWord view m c) := by
  rw [latAfter, latCaptures_mem view off _ m (companions_nodup off) (fun hm => lt_irrefl _ (companions_gt hm)) h]
  cases m.get noCapture off <;> simp

end Sys2Proof.Machine
end

section
/-! SUPPORT. The read commands: BAR0 reads, mirror reads, and mirror reads while the mirror is disabled (R15, R475, R476, R484, R487). -/

namespace Sys2Proof.Machine

open Sys2Proof

/-! ### BAR0 reads -/

theorem State.barRead_d3hot (s : State) (form : Form) (off cyc : Nat) (h : s.pcie.d3hot = true) : s.barRead form off cyc = s := if_pos h

theorem State.barRead_eq (s : State) (form : Form) (off cyc : Nat) (h : s.pcie.d3hot = false) : s.barRead form off cyc =
    (s.setLat 0 (latRead (s.view cyc) form s.lat0 off).2).emit (.readData (latRead (s.view cyc) form s.lat0 off).1 false) := by
  unfold State.barRead
  rw [if_neg (by rw [h]; decide), State.readForm_eq]
  rfl

/-- What a command that answers one read leaves: the answer, and captures for BAR0. -/
theorem State.cmd_answers (s : State) (f : State → State) (h : s.live) {m : SMap (Option Word)} {n : Nat}
    (hf : f s.cleared = (s.cleared.setLat 0 m).emit (.readData n false)) :
    (s.cmd f).out = [.readData n false] ∧ (s.cmd f).lat0 = m ∧ ({ s with lat0 := m } : State).sameBut (s.cmd f) wrapRegs := by
  refine ⟨?_, ?_, s.sameBut_cmd _ _ _ h (by rw [hf, State.rest_emit]; rfl) rfl fun o ho => ⟨ho, by rw [hf]; rfl⟩⟩
  · simp only [s.cmd_frame f h, hf]
    rfl
  · simp only [s.cmd_frame f h, hf]
    rfl

/-- The same where nothing is captured. -/
theorem State.cmd_answers_only (s : State) (f : State → State) (h : s.live) {n : Nat} (hf : f s.cleared = s.cleared.emit (.readData n false)) :
    (s.cmd f).out = [.readData n false] ∧ s.sameBut (s.cmd f) wrapRegs := by
  obtain ⟨ho, -, hs⟩ := s.cmd_answers f h (m := s.lat0) (n := n) hf
  exact ⟨ho, hs⟩

/-- A command that does nothing answers nothing. -/
theorem State.cmd_silent (s : State) (f : State → State) (h : s.live) (hf : f s.cleared = s.cleared) :
    (s.cmd f).out = [] ∧ s.sameBut (s.cmd f) wrapRegs := by
  refine ⟨?_, s.sameBut_cmd_idle f h hf⟩
  simp only [s.cmd_frame f h, hf]
  rfl

/-- A BAR0 read leaves its answer and its captures. -/
theorem State.barRead_leaves {s : State} (h : s.live) (hd : s.pcie.d3hot = false) (form : Form) (off cyc : Nat) :
    let t := s.cmd (·.barRead form off cyc)
    t.out = [.readData (latRead (s.view cyc) form s.lat0 off).1 false] ∧ t.lat0 = (latRead (s.view cyc) form s.lat0 off).2 ∧
      ({ s with lat0 := (latRead (s.view cyc) form s.lat0 off).2 } : State).sameBut t wrapRegs :=
  s.cmd_answers _ h (s.cleared.barRead_eq form off cyc hd)

/-- A read that captures nothing leaves the state. -/
theorem State.barRead_sameBut {s : State} (h : s.live) (hd : s.pcie.d3hot = false) {form : Form} {off cyc n : Nat}
    (hr : latRead (s.view cyc) form s.lat0 off = (n, s.lat0)) :
    (s.cmd (·.barRead form off cyc)).out = [.readData n false] ∧ s.sameBut (s.cmd (·.barRead form off cyc)) wrapRegs := by
  obtain ⟨ho, -, hs⟩ := State.barRead_leaves h hd form off cyc
  rw [hr] at ho hs
  exact ⟨ho, hs⟩

theorem latRead_unaligned (view : Nat → Word) (form : Form) (m : SMap (Option Word)) {off : Nat} (h : off % 4 ≠ 0) :
    latRead view form m off = (0, m) := by
  cases form with
  | w32 => exact if_neg h
  | w64 => exact if_neg (by omega)
  | other => rfl

/-! ### Mirror reads -/

/-- A mirrored offset lies as its mirror does in a 64-bit word. -/
theorem mirrorOf_mod {o b : Nat} (h : mirrorOf o = some b) : b % 8 = o % 8 := by
  unfold mirrorOf at h
  repeat' split at h
  all_goals simp only [Option.some.injEq, reduceCtorEq] at h
  all_goals omega

theorem State.mirrorRead_d3hot (s : State) (form : Form) (o cyc : Nat) (h : s.pcie.d3hot = true) : s.mirrorRead form o cyc = s := if_pos h

/-- Whether a mirror read has a form that BAR2 answers (R475). -/
def mirrorAligned (form : Form) (o : Nat) : Bool := match form with | .w32 => o % 4 == 0 | .w64 => o % 8 == 0 | .other => false

/-- A mirror read outside D3hot: zero, a denial, or what BAR2 reads at the mirrored offset. -/
theorem State.mirrorRead_eq (s : State) (form : Form) (o cyc : Nat) (h : s.pcie.d3hot = false) : s.mirrorRead form o cyc =
    if mirrorAligned form o = false then s.emit (.readData 0 false)
    else if s.bit Reg.PMC_USER_EN.EN = false then s.mirrorDenied o
    else match mirrorOf o with
      | none => s.emit (.readData 0 false)
      | some b => (s.setLat 2 (latRead (s.view cyc) form s.lat2 b).2).emit (.readData (latRead (s.view cyc) form s.lat2 b).1 false) := by
  unfold State.mirrorRead
  rw [if_neg (by rw [h]; decide)]
  simp only [Bool.not_eq_true', State.readForm_eq]
  rfl

/-- A read that BAR2 does not answer is none that BAR0 answers at the mirrored offset. -/
theorem latRead_unanswered (view : Nat → Word) {form : Form} (m : SMap (Option Word)) {o b : Nat} (hb : mirrorOf o = some b)
    (h : mirrorAligned form o = false) : latRead view form m b = (0, m) := by
  have hm := mirrorOf_mod hb
  cases form with
  | w32 => exact if_neg fun e => by simp only [mirrorAligned, beq_eq_false_iff_ne] at h; omega
  | w64 => exact if_neg fun e => by simp only [mirrorAligned, beq_eq_false_iff_ne] at h; omega
  | other => rfl

/-- An enabled mirror answers what its captures and the values in effect give at the mirrored offset. -/
theorem State.mirrorRead_out {s : State} (h : s.live) (hd : s.pcie.d3hot = false) (he : s.bit Reg.PMC_USER_EN.EN = true) (form : Form)
    {o b : Nat} (cyc : Nat) (hb : mirrorOf o = some b) :
    (s.cmd (·.mirrorRead form o cyc)).out = [.readData (latRead (s.view cyc) form s.lat2 b).1 false] := by
  have hout : (s.cleared.mirrorRead form o cyc).out = [.readData (latRead (s.view cyc) form s.lat2 b).1 false] := by
    rw [s.cleared.mirrorRead_eq form o cyc hd, hb]
    by_cases ha : mirrorAligned form o = false
    · rw [if_pos ha, latRead_unanswered _ _ hb ha]
      rfl
    · rw [if_neg ha, if_neg (by rw [State.bit_cleared, he]; decide)]
      rfl
  simp only [s.cmd_frame _ h, hout]

/-- A mirror offset that mirrors nothing reads as zero. -/
theorem State.mirrorRead_nothing {s : State} (h : s.live) (hd : s.pcie.d3hot = false) (he : s.bit Reg.PMC_USER_EN.EN = true) (form : Form)
    {o : Nat} (cyc : Nat) (hb : mirrorOf o = none) : (s.cmd (·.mirrorRead form o cyc)).out = [.readData 0 false] ∧
      s.sameBut (s.cmd (·.mirrorRead form o cyc)) wrapRegs := by
  refine s.cmd_answers_only _ h ?_
  rw [s.cleared.mirrorRead_eq form o cyc hd, hb, State.bit_cleared, he, if_neg (Bool.false_ne_true ∘ Eq.symm)]
  exact ite_self _

/-! ### The disabled mirror -/

/-- The state in which a denied mirror read raises its event: the denial counted, and logged in an empty log (R476). -/
def State.denialNoted (s : State) (o : Nat) : State :=
  let u := s.setFld Reg.PMC_MIR_DENY_CNT.CNT (satAdd 0xFFFFFFFF (s.fld Reg.PMC_MIR_DENY_CNT.CNT) 1)
  if s.bit Reg.PMC_MIR_LOG.VALID then u else (u.setFld Reg.PMC_MIR_LOG.OFFSET o).setFld Reg.PMC_MIR_LOG.VALID 1

theorem State.mirrorDenied_eq (s : State) (o : Nat) :
    s.mirrorDenied o = ((s.denialNoted o).raise Reg.PMC_EVENT.MIRROR_DENIED).emit (.readData 0 false) := by
  have hv (c : Nat) : (s.setFld Reg.PMC_MIR_DENY_CNT.CNT c).bit Reg.PMC_MIR_LOG.VALID = s.bit Reg.PMC_MIR_LOG.VALID := by
    rw [State.bit_eq, State.bit_eq, State.fld_setFld_ne _ _ _ _ (by decide) (by decide) (.inl (by decide))]
  unfold State.mirrorDenied State.denialNoted
  simp only [hv]

/-- The two ways of a denial: the log holds a record, or takes this one. -/
theorem State.denialNoted_cases (s : State) (o : Nat) :
    let u := s.setFld Reg.PMC_MIR_DENY_CNT.CNT (satAdd 0xFFFFFFFF (s.fld Reg.PMC_MIR_DENY_CNT.CNT) 1)
    (s.bit Reg.PMC_MIR_LOG.VALID = true ∧ s.denialNoted o = u) ∨
    (s.bit Reg.PMC_MIR_LOG.VALID = false ∧ s.denialNoted o = (u.setFld Reg.PMC_MIR_LOG.OFFSET o).setFld Reg.PMC_MIR_LOG.VALID 1) := by
  intro u
  by_cases h : s.bit Reg.PMC_MIR_LOG.VALID = true
  · exact .inl ⟨h, if_pos h⟩
  · exact .inr ⟨by simpa using h, if_neg h⟩

theorem State.rest_denialNoted (s : State) (o : Nat) : (s.denialNoted o).rest = s.rest := by
  obtain ⟨-, e⟩ | ⟨-, e⟩ := s.denialNoted_cases o <;> rw [e] <;> simp only [State.rest_setFld]

theorem State.reg_denialNoted_ne (s : State) (o : Nat) {k : Nat} (hc : k ≠ Reg.PMC_MIR_DENY_CNT) (hl : k ≠ Reg.PMC_MIR_LOG) :
    (s.denialNoted o).reg k = s.reg k := by
  have hu (c : Nat) : (s.setFld Reg.PMC_MIR_DENY_CNT.CNT c).reg k = s.reg k := s.reg_setFld_ne c (Ne.symm hc)
  obtain ⟨-, e⟩ | ⟨-, e⟩ := s.denialNoted_cases o <;> rw [e]
  · exact hu _
  · rw [State.reg_setFld_ne _ _ (Ne.symm hl), State.reg_setFld_ne _ _ (Ne.symm hl), hu]

theorem satAdd_le (m a b : Nat) : satAdd m a b ≤ m := by
  unfold satAdd
  split <;> omega

theorem State.fld_denialNoted_cnt (s : State) (o : Nat) :
    (s.denialNoted o).fld Reg.PMC_MIR_DENY_CNT.CNT = satAdd 0xFFFFFFFF (s.fld Reg.PMC_MIR_DENY_CNT.CNT) 1 := by
  have hu : (s.setFld Reg.PMC_MIR_DENY_CNT.CNT (satAdd 0xFFFFFFFF (s.fld Reg.PMC_MIR_DENY_CNT.CNT) 1)).fld Reg.PMC_MIR_DENY_CNT.CNT =
      satAdd 0xFFFFFFFF (s.fld Reg.PMC_MIR_DENY_CNT.CNT) 1 := by
    rw [State.fld_setFld _ _ _ (by decide) (by decide)]
    exact Nat.mod_eq_of_lt (Nat.lt_succ_of_le (satAdd_le _ _ _))
  obtain ⟨-, e⟩ | ⟨-, e⟩ := s.denialNoted_cases o <;> rw [e]
  · exact hu
  · rw [State.fld_setFld_ne _ _ _ _ (by decide) (by decide) (.inl (by decide)),
      State.fld_setFld_ne _ _ _ _ (by decide) (by decide) (.inl (by decide)), hu]

/-- An empty log takes the offset. -/
theorem State.denialNoted_logs (s : State) (o : Nat) (h : s.bit Reg.PMC_MIR_LOG.VALID = false) :
    (s.denialNoted o).fld Reg.PMC_MIR_LOG.OFFSET = o % 2 ^ 20 ∧ (s.denialNoted o).bit Reg.PMC_MIR_LOG.VALID = true := by
  obtain ⟨hv, -⟩ | ⟨-, e⟩ := s.denialNoted_cases o
  · rw [h] at hv; exact absurd hv Bool.false_ne_true
  · rw [e, State.fld_setFld_ne _ _ _ _ (by decide) (by decide) (.inr (.inr (by decide))), State.fld_setFld _ _ _ (by decide) (by decide)]
    exact ⟨rfl, State.bit_setFld _ _ rfl (by decide)⟩

/-- A log that holds a record keeps it. -/
theorem State.reg_denialNoted_log (s : State) (o : Nat) (h : s.bit Reg.PMC_MIR_LOG.VALID = true) :
    (s.denialNoted o).reg Reg.PMC_MIR_LOG = s.reg Reg.PMC_MIR_LOG := by
  obtain ⟨-, e⟩ | ⟨hv, -⟩ := s.denialNoted_cases o
  · rw [e, State.reg_setFld_ne _ _ (by decide)]
  · rw [h] at hv; exact absurd hv.symm Bool.false_ne_true

/-- What an accepted read of the disabled mirror leaves (R476). -/
theorem State.mirrorDenied_leaves {s : State} (h : s.live) (hd : s.pcie.d3hot = false) (he : s.bit Reg.PMC_USER_EN.EN = false) {form : Form}
    {o : Nat} (cyc : Nat) (ha : mirrorAligned form o = true) :
    let t := s.cmd (·.mirrorRead form o cyc)
    s.sameBut t (Reg.PMC_MIR_DENY_CNT :: Reg.PMC_MIR_LOG :: wrapRegs) ∧ t.out = [.readData 0 false] ∧
      t.fld Reg.PMC_MIR_DENY_CNT.CNT = satAdd 0xFFFFFFFF (s.fld Reg.PMC_MIR_DENY_CNT.CNT) 1 ∧ t.bit Reg.PMC_EVENT.MIRROR_DENIED = true ∧
      (s.bit Reg.PMC_MIR_LOG.VALID = false → t.fld Reg.PMC_MIR_LOG.OFFSET = o % 2 ^ 20 ∧ t.bit Reg.PMC_MIR_LOG.VALID = true) ∧
      (s.bit Reg.PMC_MIR_LOG.VALID = true → t.reg Reg.PMC_MIR_LOG = s.reg Reg.PMC_MIR_LOG) := by
  intro t
  have hf : s.cleared.mirrorRead form o cyc =
      ((s.cleared.denialNoted o).raise Reg.PMC_EVENT.MIRROR_DENIED).emit (.readData 0 false) := by
    rw [s.cleared.mirrorRead_eq form o cyc hd, if_neg (by rw [ha]; decide), if_pos (show s.cleared.bit _ = false from he), State.mirrorDenied_eq]
  have hnoted {k : Nat} (hk : k ∉ wrapRegs) :
      (((s.cleared.denialNoted o).raise Reg.PMC_EVENT.MIRROR_DENIED).emit (.readData 0 false)).reg k = (s.cleared.denialNoted o).reg k := by
    refine State.reg_raise_ne _ _ (fun e => hk ?_) (fun e => hk ?_) <;> (rw [e]; decide)
  have hreg {k : Nat} (hk : k ∉ wrapRegs) : t.reg k = (s.cleared.denialNoted o).reg k := by rw [s.reg_cmd _ h hk, hf, hnoted hk]
  refine ⟨s.sameBut_cmd s _ _ h ?_ rfl fun k hk => ?_, ?_, ?_, ?_, fun hv => ⟨?_, ?_⟩, fun hv => ?_⟩
  · rw [hf, State.rest_emit, State.rest_raise, State.rest_denialNoted, State.rest_cleared]
  · simp only [List.mem_cons, not_or] at hk
    have hw : k ∉ wrapRegs := by simpa only [wrapRegs, List.mem_cons, not_or] using hk.2.2
    exact ⟨hw, by rw [hf, hnoted hw, State.reg_denialNoted_ne _ _ hk.1 hk.2.1, State.reg_cleared]⟩
  · have ho : ((s.cleared.denialNoted o).raise Reg.PMC_EVENT.MIRROR_DENIED).out = [] := by
      rw [show ((s.cleared.denialNoted o).raise Reg.PMC_EVENT.MIRROR_DENIED).out = (s.cleared.denialNoted o).out by simp only [State.raise_frame]]
      obtain ⟨-, e⟩ | ⟨-, e⟩ := s.cleared.denialNoted_cases o <;> rw [e] <;> simp only [State.setFld_frame, State.cleared_frame]
    simp only [t, s.cmd_frame _ h, hf, State.emit, ho, List.nil_append]
  · rw [State.fld_congr _ _ _ (hreg (by decide)), State.fld_denialNoted_cnt, State.fld_cleared]
  · exact s.bit_cmd _ h _ rfl (by decide) (by rw [hf]; exact State.bit_raise _ _ rfl (by decide))
  · rw [State.fld_congr _ _ _ (hreg (by decide)), (s.cleared.denialNoted_logs o hv).1]
  · rw [State.bit_eq, State.fld_congr _ _ _ (hreg (by decide)), ← State.bit_eq, (s.cleared.denialNoted_logs o hv).2]
  · rw [hreg (by decide), s.cleared.reg_denialNoted_log o hv, State.reg_cleared]

/-- Settles O58: BAR0 reads, the mirror that answers as BAR0 does, and the mirror that is disabled. -/
theorem reads : Obligations.Reads := by
  unfold Obligations.Reads
  intro s cyc off h
  have bar (form : Form) (o : Nat) : exec (.latchingRead form o cyc) s = .next (s.cmd (·.barRead form o cyc)) := rfl
  have mir (form : Form) : exec (.mirrorRead form off cyc) s = .next (s.cmd (·.mirrorRead form off cyc)) := rfl
  refine ⟨fun hd form => ⟨⟨_, bar form off, s.cmd_silent _ h (s.cleared.barRead_d3hot form off cyc hd)⟩,
    ⟨_, mir form, s.cmd_silent _ h (s.cleared.mirrorRead_d3hot form off cyc hd)⟩⟩, fun hd => ⟨fun ha => ⟨_, bar .w32 off, ?_⟩,
    fun ha hc hc4 => ⟨_, bar .w64 off, ?_⟩, fun ha form => ⟨_, bar form off, State.barRead_sameBut h hd (latRead_unaligned _ form _ ha)⟩,
    ⟨_, bar .other off, State.barRead_sameBut h hd rfl⟩, fun he hl b form hb => ⟨_, mir form, _, bar form b, ?_⟩,
    fun he hb form => ⟨_, mir form, State.mirrorRead_nothing h hd he form cyc hb⟩,
    fun he form ha => ⟨_, mir form, State.mirrorDenied_leaves h hd he cyc ?_⟩⟩⟩
  · obtain ⟨ho, hl, hs⟩ := State.barRead_leaves h hd .w32 off cyc
    have hr : latRead (s.view cyc) .w32 s.lat0 off = ((latWord (s.view cyc) s.lat0 off).toNat, latAfter (s.view cyc) s.lat0 off) := if_pos ha
    rw [hr] at ho hl hs
    refine ⟨ho, by rw [hl]; exact hs, fun c hc => ?_, fun c hc => ?_⟩
    · exact (congrArg (SMap.get noCapture · c) hl).trans (latAfter_mem _ _ hc)
    · exact (congrArg (SMap.get noCapture · c) hl).trans (latCaptures_ne _ _ _ _ hc)
  · refine (State.barRead_sameBut h hd ?_).symm
    exact (if_pos ha).trans (by rw [latAfter_none hc, latAfter_none hc4]; rfl)
  · exact (State.mirrorRead_out h hd he form cyc hb).trans (by rw [(State.barRead_leaves h hd form b cyc).1, hl])
  · obtain ⟨rfl, ha⟩ | ⟨rfl, ha⟩ := ha <;> simp only [mirrorAligned, ha, beq_self_eq_true]

end Sys2Proof.Machine
end

section
/-! SUPPORT. Commands by their kind: one that does nothing, a decision of the tick in time or too late, a datapath command; the queue (R30, R32, R33, R395). -/

namespace Sys2Proof.Machine

open Sys2Proof

/-! ### Kinds of command -/

section Kinds

variable {c : Instr} {s : State} {f : State → State} {P : State → Prop}

/-- A decision made before phase 7 has acted runs as a step of the tick (R33). -/
theorem completes_decide (hc : exec c s = .next (s.cmdDecide f)) (h : s.deciding) (hP : P (s.cmdTick f)) : Completes c s P :=
  ⟨_, hc, by rwa [State.cmdDecide_early s f h.2]⟩

/-- A step that a thermal shutdown would stop runs as a step of the tick before one (R32). -/
theorem completes_live (hc : exec c s = .next (s.cmdLive f)) (h : s.down = false) (hP : P (s.cmdTick f)) : Completes c s P :=
  ⟨_, hc, by rwa [State.cmdLive_up s f h]⟩

theorem completes_decideLive (hc : exec c s = .next (s.cmdDecideLive f)) (ha : s.acted = false) (h : s.down = false) (hP : P (s.cmdTick f)) :
    Completes c s P :=
  ⟨_, hc, by rwa [State.cmdDecideLive_early s f ha, State.cmdLive_up s f h]⟩

/-- A datapath command with the clocks running (R395). -/
theorem completes_run (hc : exec c s = .next (s.cmdRun f)) (h : s.down = false) (hP : P (s.cmd f)) : Completes c s P :=
  ⟨_, hc, by rwa [State.cmdRun_up s f h]⟩

end Kinds

/-! ### Commands that do nothing -/

theorem State.sameBut_cmdTick_idle (s : State) (f : State → State) (h : s.ticking) (hf : f s.cleared = s.cleared) :
    s.sameBut (s.cmdTick f) faultRegs :=
  s.sameBut_cmdTick s faultRegs f h (by rw [hf]; rfl) rfl fun off ho => ⟨ho, by rw [hf]; rfl⟩

/-- Once a commit has taken effect in the tick, its decisions change nothing (R33). -/
theorem State.sameBut_cmdDecide_late (s : State) (f : State → State) (h : s.ticking) (ha : s.acted = true) : s.sameBut (s.cmdDecide f) faultRegs :=
  s.sameBut_cmdTick_idle _ h (if_pos ha)

theorem State.sameBut_cmdLive_idle (s : State) (f : State → State) (h : s.ticking) (hf : f s.cleared = s.cleared) :
    s.sameBut (s.cmdLive f) faultRegs := by
  refine s.sameBut_cmdTick_idle _ h ?_
  rw [hf, ite_self]

theorem State.sameBut_cmdDecideLive_late (s : State) (f : State → State) (h : s.ticking) (ha : s.acted = true) :
    s.sameBut (s.cmdDecideLive f) faultRegs := s.sameBut_cmdLive_idle _ h (if_pos ha)

/-! ### The queue (log 1) -/

theorem State.releaseReset_pending (s : State) (a1 a0 : Bool) : (s.releaseReset a1 a0).pending = s.pending := by
  unfold State.releaseReset
  split <;> rfl

/-- Settles O1: the step takes the front command off the queue, and idles when there is none. -/
theorem stepRunsFront : Obligations.StepRunsFront := by
  unfold Obligations.StepRunsFront
  refine ⟨fun s c cs h => ?_, fun s h => ?_⟩ <;> simp only [step, h]

/-- Settles O2: a command is an effect that runs as `cmd` says, which puts the queue back, or the release of RESET_N. -/
theorem queueUntouched : Obligations.QueueUntouched := by
  unfold Obligations.QueueUntouched
  intro c s
  cases c
  case resetNRelease a b => exact ⟨_, rfl, s.releaseReset_pending a b⟩
  all_goals exact ⟨_, rfl, s.cmd_pending _⟩

end Sys2Proof.Machine
end

section
/-! SUPPORT. The fault manager's own steps: SERVICE_N, the watchdog, a lockstep mismatch, XO_IN (R442, R446-R448). -/

namespace Sys2Proof.Machine

open Sys2Proof

/-! ### The rest of the state, and bits that stay 1 -/

@[simp] theorem State.rest_raiseAt (s : State) (f : Fr) (i : Nat) : (s.raiseAt f i).rest = s.rest :=
  State.rest_congr (by simp only [State.raiseAt_frame, and_self]) (by simp only [State.raiseAt_frame])

@[simp] theorem State.rest_raiseOwn (s : State) (f : Fr) : (s.raiseOwn f).rest = s.rest :=
  State.rest_congr (by simp only [State.raiseOwn_frame, and_self]) (by simp only [State.raiseOwn_frame])

@[simp] theorem State.rest_queueRec (s : State) (kind sev src : Nat) (d : List Byte) : (s.queueRec kind sev src d).rest = s.rest :=
  State.rest_congr (by simp only [State.queueRec_frame, and_self]) (by simp only [State.queueRec_frame])

@[simp] theorem State.rest_assertService (s : State) : s.assertService.rest = s.rest :=
  State.rest_congr (by simp only [State.assertService_frame, and_self]) (by simp only [State.assertService_frame])

/-- A field reads in another state as there when its register does. -/
theorem State.bit_congr (s t : State) (f : Fr) (h : t.reg f.off = s.reg f.off) : t.bit f = s.bit f := by
  rw [State.bit, State.bit, State.fld_congr s t f h]

theorem State.bit_raise_mono (s : State) (f g : Fr) (h : f.lo = f.hi) (h2 : f.hi < 32) (hl : g.lo = g.hi) (hg : s.bit g = true) :
    (s.raise f).bit g = true := s.bit_raiseAt_mono f g 0 h h2 hl hg

theorem State.bit_assertService (s : State) : s.assertService.bit Reg.FLT_STATUS.SERVICE = true := by
  unfold State.assertService
  split
  · assumption
  · exact State.bit_raise_mono _ _ _ rfl (by decide) rfl (s.bit_setFld _ rfl (by decide))

theorem State.bit_assertService_mono (s : State) (g : Fr) (hl : g.lo = g.hi) (hg : s.bit g = true) : s.assertService.bit g = true := by
  unfold State.assertService
  split
  · exact hg
  · exact State.bit_raise_mono _ _ _ rfl (by decide) hl (s.bit_setFld_mono _ _ rfl (by decide) hg hl)

theorem State.reg_assertService_ne (s : State) {off : Nat} (h : off ≠ Reg.FLT_STATUS) (h2 : off ≠ Reg.FLT_EVENT) : s.assertService.reg off = s.reg off := by
  unfold State.assertService
  split
  · rfl
  · exact (State.reg_raise_ne _ _ h2 h2).trans (State.reg_setFld_ne _ _ (Ne.symm h))

/-! ### The watchdog's steps (R447) -/

theorem State.rest_wdogFire (s : State) (cause : Nat) : (s.wdogFire cause).rest = ({ s with stalled := true, wdogDone := true } : State).rest := by
  unfold State.wdogFire
  simp only [State.rest_queueRec, State.rest_raiseOwn, State.rest_assertService, State.rest_setFld]

@[simp] theorem State.wdogFire_stops (s : State) (cause : Nat) : (s.wdogFire cause).stalled = true ∧ (s.wdogFire cause).wdogDone = true := by
  unfold State.wdogFire
  simp only [State.queueRec_frame, State.raiseOwn_frame, State.assertService_frame, State.setFld_frame, and_self]

theorem State.reg_wdogFire_ne (s : State) (cause : Nat) {off : Nat} (h : off ≠ Reg.FLT_STATUS) (h2 : off ≠ Reg.FLT_EVENT) :
    (s.wdogFire cause).reg off = s.reg off := by
  unfold State.wdogFire
  extract_lets a b
  have hb : b.reg off = s.reg off := (State.reg_assertService_ne _ h h2).trans (a.reg_setFld_ne 1 (Ne.symm h))
  rw [State.reg_queueRec_ne _ _ _ _ _ h2, State.reg_raiseOwn_ne _ _ h2, hb]

/-- The watchdog asserts FAULT_N and SERVICE_N and raises WDOG. -/
theorem State.bit_wdogFire (s : State) (cause : Nat) : (s.wdogFire cause).bit Reg.FLT_STATUS.FAULT = true ∧
    (s.wdogFire cause).bit Reg.FLT_STATUS.SERVICE = true ∧ (s.wdogFire cause).bit Reg.FLT_EVENT.WDOG = true := by
  unfold State.wdogFire
  extract_lets a b
  have hf : b.bit Reg.FLT_STATUS.FAULT = true := State.bit_assertService_mono _ _ rfl (a.bit_setFld _ rfl (by decide))
  exact ⟨State.bit_queueRec _ _ _ _ _ _ rfl (b.bit_raiseOwn_mono _ _ rfl (by decide) rfl hf),
    State.bit_queueRec _ _ _ _ _ _ rfl (b.bit_raiseOwn_mono _ _ rfl (by decide) rfl (State.bit_assertService _)),
    State.bit_queueRec _ _ _ _ _ _ rfl (b.bit_raiseOwn _ rfl (by decide))⟩

/-- They leave every bit that is 1. -/
theorem State.bit_wdogFire_mono (s : State) (cause : Nat) (g : Fr) (hl : g.lo = g.hi) (hg : s.bit g = true) : (s.wdogFire cause).bit g = true := by
  unfold State.wdogFire
  extract_lets a b
  have hb : b.bit g = true := State.bit_assertService_mono _ _ hl (a.bit_setFld_mono _ _ rfl (by decide) hg hl)
  exact State.bit_queueRec _ _ _ _ _ _ hl (b.bit_raiseOwn_mono _ _ rfl (by decide) hl hb)

/-! ### A lockstep mismatch (R446) -/

/-- The state in which a mismatch is judged: counted and raised. -/
def State.mismatched (s : State) : State :=
  (s.setFld Reg.FLT_SEQ_CNT.CNT (satAdd 0xFFFF (s.fld Reg.FLT_SEQ_CNT.CNT) 1)).raise Reg.FLT_EVENT.SEQ_FAULT

theorem State.fld_mismatched_cnt (s : State) : s.mismatched.fld Reg.FLT_SEQ_CNT.CNT = satAdd 0xFFFF (s.fld Reg.FLT_SEQ_CNT.CNT) 1 := by
  rw [State.mismatched, State.fld_congr _ _ _ (State.reg_raise_ne _ _ (by decide) (by decide)), State.fld_setFld _ _ _ (by decide) (by decide)]
  exact Nat.mod_eq_of_lt (Nat.lt_succ_of_le (satAdd_le 0xFFFF _ 1))

theorem State.bit_mismatched_event (s : State) : s.mismatched.bit Reg.FLT_EVENT.SEQ_FAULT = true := State.bit_raise _ _ rfl (by decide)

/-- The first mismatch of a tick is noted; the second sets SEQ_HARD and starts the watchdog's steps. -/
theorem State.lockstep_eq (s : State) (h : s.stalled = false) : s.lockstep =
    if s.lockTick = some s.tick then (s.mismatched.setFld Reg.FLT_STATUS.SEQ_HARD 1).wdogFire 1
    else { s.mismatched with lockTick := some s.tick } := by
  have hm : s.mismatched.lockTick = s.lockTick ∧ s.mismatched.tick = s.tick := by
    simp only [State.mismatched, State.raise_frame, State.setFld_frame, and_self]
  unfold State.lockstep
  rw [if_neg (by rw [h]; decide)]
  show (if (s.mismatched.lockTick == some s.mismatched.tick) = true then _ else { s.mismatched with lockTick := some s.mismatched.tick }) = _
  rw [hm.1, hm.2]
  simp only [beq_iff_eq]
  rfl

/-- What a mismatch leaves of the count and the event, whichever of the two it is. -/
theorem State.lockstep_counts (s : State) (h : s.stalled = false) : s.lockstep.fld Reg.FLT_SEQ_CNT.CNT = satAdd 0xFFFF (s.fld Reg.FLT_SEQ_CNT.CNT) 1 ∧
    s.lockstep.bit Reg.FLT_EVENT.SEQ_FAULT = true := by
  rw [s.lockstep_eq h]
  split
  · have hr : ((s.mismatched.setFld Reg.FLT_STATUS.SEQ_HARD 1).wdogFire 1).reg Reg.FLT_SEQ_CNT = s.mismatched.reg Reg.FLT_SEQ_CNT :=
      (State.reg_wdogFire_ne _ 1 (by decide) (by decide)).trans (State.reg_setFld_ne _ 1 (by decide))
    exact ⟨(State.fld_congr _ _ _ hr).trans s.fld_mismatched_cnt,
      State.bit_wdogFire_mono _ 1 _ rfl (State.bit_setFld_mono _ _ _ rfl (by decide) s.bit_mismatched_event rfl)⟩
  · exact ⟨s.fld_mismatched_cnt, s.bit_mismatched_event⟩

/-! ### XO_IN (R448) -/

/-- XO_IN shown as failed and raised. -/
def State.xoFailed (s : State) : State := (s.setFld Reg.FLT_STATUS.XO_FAIL 1).raise Reg.FLT_EVENT.XO_FAIL

theorem State.bit_xoFailed (s : State) : s.xoFailed.bit Reg.FLT_STATUS.XO_FAIL = true ∧ s.xoFailed.bit Reg.FLT_EVENT.XO_FAIL = true :=
  ⟨State.bit_raise_mono _ _ _ rfl (by decide) rfl (s.bit_setFld _ rfl (by decide)), State.bit_raise _ _ rfl (by decide)⟩

theorem State.reg_xoFailed_ne (s : State) {off : Nat} (h : off ≠ Reg.FLT_STATUS) (h2 : off ≠ Reg.FLT_EVENT) : s.xoFailed.reg off = s.reg off :=
  (State.reg_raise_ne _ _ h2 h2).trans (State.reg_setFld_ne s 1 (Ne.symm h))

/-- The time base has lost its last source when no input is qualified. -/
theorem State.noSource_xoFailed (s : State) : s.xoFailed.noSource = !s.anyQualified := by
  have hq : s.xoFailed.anyQualified = s.anyQualified := by
    unfold State.anyQualified
    congr 1
    funext i
    exact State.bit_congr s _ _ (s.reg_xoFailed_ne (by simp only [Reg.CLK_IN_STATUS, Reg.FLT_STATUS]; omega) (by simp only [Reg.CLK_IN_STATUS, Reg.FLT_EVENT]; omega))
  rw [State.noSource, s.bit_xoFailed.1, hq, Bool.true_and]

theorem State.xoFail_eq (s : State) (edge off : Nat) (vs : Bool) (h : s.bit Reg.FLT_STATUS.XO_FAIL = false)
    (hx : 10 ≤ edge ∨ (100 ≤ off ∧ (if vs then s.fld Reg.CLK_STATUS.STATE == 1 else s.pcie.refclk && !s.pcie.ssc) = true)) :
    s.xoFail edge off vs = { s.xoFailed with stalled := s.stalled || !s.anyQualified } := by
  have hs : s.xoFailed.stalled = s.stalled := by simp only [State.xoFailed, State.raise_frame, State.setFld_frame]
  rw [← s.noSource_xoFailed, ← hs]
  exact if_pos ⟨h, hx⟩

theorem State.xoFail_idle (s : State) (edge off : Nat) (vs : Bool) (h : s.bit Reg.FLT_STATUS.XO_FAIL = true ∨
      (edge < 10 ∧ (off < 100 ∨ (if vs then s.fld Reg.CLK_STATUS.STATE == 1 else s.pcie.refclk && !s.pcie.ssc) = false))) :
    s.xoFail edge off vs = s := by
  refine if_neg fun hx => ?_
  obtain ⟨h0, h1⟩ := hx
  obtain h | ⟨he, ho⟩ := h
  · exact absurd (h.symm.trans h0) (by decide)
  · obtain h1 | ⟨h1, h2⟩ := h1
    · omega
    · obtain ho | ho := ho
      · omega
      · exact absurd (h2.symm.trans ho) (by decide)

/-- Settles O13: one mismatch and two, the watchdog's expiry, XO_IN, an elastic store. -/
theorem sequencerFaults : Obligations.SequencerFaults := by
  unfold Obligations.SequencerFaults
  intro s h
  have offs {off : Nat} (ho : off ∉ Reg.FLT_STATUS :: wrapRegs) : off ∉ wrapRegs ∧ off ≠ Reg.FLT_STATUS ∧ off ≠ Reg.FLT_EVENT := by
    obtain ⟨h1, h2⟩ := not_or.1 (List.mem_cons.not.1 ho)
    exact ⟨h2, h1, fun e => h2 (by rw [e]; decide)⟩
  have wait : s.cleared.wdogDone = s.wdogDone := rfl
  refine ⟨fun hs => ⟨_, rfl, ?_, ?_, fun hl => ?_, fun hl => ?_⟩, fun hs => ⟨_, rfl, s.sameBut_cmd_idle _ h (if_pos hs)⟩,
    fun us hu hd => ⟨_, rfl, ?_⟩, fun us hu => ⟨_, rfl, s.sameBut_cmd_idle _ h (if_neg fun hx => ?_)⟩,
    fun edge off vs hb hx => ⟨_, rfl, ?_⟩, fun edge off vs hx => ⟨_, rfl, s.sameBut_cmd_idle _ h (s.cleared.xoFail_idle _ _ _ hx)⟩,
    fun x => ⟨_, rfl, State.sameBut_cmd s _ _ _ h rfl rfl fun off ho => ⟨ho, rfl⟩⟩⟩
  · rw [State.fld_congr _ _ _ (s.reg_cmd _ h (by decide))]
    exact (s.cleared.lockstep_counts hs).1
  · exact s.bit_cmd _ h _ rfl (by decide) (s.cleared.lockstep_counts hs).2
  · have e := (s.cleared.lockstep_eq hs).trans (if_neg hl)
    have hm : s.cleared.mismatched.stalled = false := by simp only [State.mismatched, State.raise_frame, State.setFld_frame]; exact hs
    simp only [s.cmd_frame _ h, e]
    exact ⟨rfl, hm⟩
  · have e := (s.cleared.lockstep_eq hs).trans (if_pos hl)
    have one (g : Fr) (hg : g.lo = g.hi) (hw : g.off ≠ Reg.PMC_WRAP_LOG) (hb : s.cleared.lockstep.bit g = true) := s.bit_cmd _ h g hg hw hb
    rw [e] at one
    obtain ⟨hf, hv, hw⟩ := State.bit_wdogFire (s.cleared.mismatched.setFld Reg.FLT_STATUS.SEQ_HARD 1) 1
    obtain ⟨h1, h2⟩ := State.wdogFire_stops (s.cleared.mismatched.setFld Reg.FLT_STATUS.SEQ_HARD 1) 1
    exact ⟨one _ rfl (by decide) (State.bit_wdogFire_mono _ 1 _ rfl (State.bit_setFld _ _ rfl (by decide))),
      by simp only [s.cmd_frame _ h, e, h1], by simp only [s.cmd_frame _ h, e, h2], one _ rfl (by decide) hf, one _ rfl (by decide) hv,
      one _ rfl (by decide) hw⟩
  · have e : s.cleared.wdog us = s.cleared.wdogFire 2 := if_pos ⟨hu, hd⟩
    obtain ⟨hf, hv, hw⟩ := s.cleared.bit_wdogFire 2
    exact ⟨State.sameBut_cmd s { s with stalled := true, wdogDone := true } _ _ h (by rw [e, State.rest_wdogFire]; rfl) rfl fun off ho =>
        ⟨(offs ho).1, by rw [e, State.reg_wdogFire_ne _ 2 (offs ho).2.1 (offs ho).2.2]; rfl⟩,
      s.bit_cmd _ h _ rfl (by decide) (by rwa [e]), s.bit_cmd _ h _ rfl (by decide) (by rwa [e]), s.bit_cmd _ h _ rfl (by decide) (by rwa [e])⟩
  · obtain ⟨h1, h2⟩ := hx
    rw [wait] at h2
    obtain hu | hu := hu
    · omega
    · exact absurd (hu.symm.trans h2) (by decide)
  · have e := s.cleared.xoFail_eq edge off vs hb hx
    have hr : s.cleared.xoFailed.rest = s.rest := by rw [State.xoFailed, State.rest_raise, State.rest_setFld, State.rest_cleared]
    refine ⟨State.sameBut_cmd s { s with stalled := s.stalled || !s.anyQualified } _ _ h ?_ rfl fun o ho => ⟨(offs ho).1, ?_⟩,
      s.bit_cmd _ h _ rfl (by decide) ?_, s.bit_cmd _ h _ rfl (by decide) ?_⟩
    · rw [e]
      exact congrArg (fun r : State => { r with stalled := s.stalled || !s.anyQualified }) hr
    · rw [e]
      exact s.cleared.reg_xoFailed_ne (offs ho).2.1 (offs ho).2.2
    · rw [e]; exact s.cleared.bit_xoFailed.1
    · rw [e]; exact s.cleared.bit_xoFailed.2

end Sys2Proof.Machine
end

section
/-! REFUTATION. A due lane that is itself its group's first usable spare (R298). -/

namespace Sys2Proof.Machine

open Sys2Proof

/-- The state out of reset but for lane 0: it waits for phase 6, holds a position of its sub-link's map, and is decided to be a usable spare
with position 5. -/
def dueSpareState : State :=
  { (State.reset.publish (Reg.D2D_LANE.STATE 0) 1).publish (Reg.D2D_LANE.POS 0) 5 with
    d2d := { State.reset.d2d with laneDue := [0], subs := [(0, { map := [0] })] } }

theorem dueSpareState_deciding : dueSpareState.working ∧ dueSpareState.acted = false := by decide +kernel

theorem dueSpareState_due : dueSpareState.d2d.laneDue = [0] ∧ dueSpareState.laneUsed 0 = true ∧ dueSpareState.bit Reg.D2D_CTL.AUTO_SPARE = true ∧
    dueSpareState.lanePos 0 = 5 := by decide +kernel

theorem dueSpareState_spare : (dueSpareState.groupSpares 0).head? = some 0 := by decide +kernel

/-- The lane takes its own position as the spare, and then loses it as the lane replaced. -/
theorem dueSpareState_replaced : dueSpareState.replaceLanes.lanePos 0 = 0 := by decide +kernel

/-- Refutes O48: where the lane to be replaced is itself the group's first usable spare, it ends at position 0 and not at its own. -/
theorem not_lanes : ¬ Obligations.Lanes := by
  unfold Obligations.Lanes
  intro h
  obtain ⟨hw, ha⟩ := dueSpareState_deciding
  obtain ⟨hdue, hused, hauto, hpos⟩ := dueSpareState_due
  obtain ⟨rest, hsp⟩ := List.head?_eq_some_iff.mp dueSpareState_spare
  obtain ⟨-, hreplace, -⟩ := (h dueSpareState hw).2 ha
  obtain ⟨-, hspare, -⟩ := hreplace 0 hdue hused hauto
  obtain ⟨-, hp, -⟩ := hspare 0 rest hsp
  have : dueSpareState.replaceLanes.lanePos 0 = dueSpareState.lanePos 0 := hp
  rw [dueSpareState_replaced, hpos] at this
  exact absurd this (by decide)

end Sys2Proof.Machine
end


section
/-! SUPPORT. The reference selector: its choice, what it shows, the DPLL's moves (R339-R350). -/

namespace Sys2Proof.Machine

open Sys2Proof

/-! ### Folds -/

/-- A fold keeps what each of its steps keeps. -/
theorem foldl_keeps {σ α β : Type} (p : σ → β) (f : σ → α → σ) (hf : ∀ s a, p (f s a) = p s) (xs : List α) (s : σ) :
    p (xs.foldl f s) = p s := by
  induction xs generalizing s with
  | nil => rfl
  | cons x xs ih => exact (ih _).trans (hf s x)

/-! ### A bit that an effect left 1 -/

theorem State.bit_cmdTick (s : State) (f : State → State) (h : s.ticking) (g : Fr) (ho : g.off ∉ faultRegs) :
    (s.cmdTick f).bit g = (f s.cleared).bit g := State.bit_congr _ _ g (s.reg_cmdTick f h ho)

/-! ### What the selector shows -/

@[simp] theorem State.reg_refShowAll (s : State) (off : Nat) : s.refShowAll.reg off = s.reg off :=
  State.reg_foldl State.refShow off (fun _ _ => rfl) refAll s

@[simp] theorem State.refShowAll_clk (s : State) : s.refShowAll.clk = s.clk :=
  foldl_keeps State.clk State.refShow (fun _ _ => rfl) refAll s

/-! ### The choice (R341) -/

theorem State.refIn_congr {s t : State} (h : t.clk.ins = s.clk.ins) (i : Nat) : t.refIn i = s.refIn i := by
  unfold State.refIn; rw [h]

/-- The better-ranked of the best so far and one more input. -/
def State.refBetter (s : State) (b : Option Nat) (i : Nat) : Option Nat :=
  match b with
  | none => some i
  | some j => if (s.refIn i).rank < (s.refIn j).rank then some i else some j

theorem State.refBetter_mem (s : State) (b : Option Nat) (i j : Nat) (h : s.refBetter b i = some j) : j = i ∨ b = some j := by
  cases b with
  | none => exact .inl (Option.some.inj h).symm
  | some k =>
    simp only [State.refBetter] at h
    split at h
    · exact .inl (Option.some.inj h).symm
    · exact .inr h

/-- The best-ranked of a list of inputs is one of them. -/
theorem State.refBest_mem (s : State) (is : List Nat) (j : Nat) (h : s.refBest is = some j) : j ∈ is := by
  have key : ∀ (is : List Nat) (b : Option Nat), is.foldl s.refBetter b = some j → j ∈ is ∨ b = some j := by
    intro is
    induction is with
    | nil => exact fun b hb => .inr hb
    | cons i is ih =>
      intro b hb
      obtain hm | hb := ih _ hb
      · exact .inl (List.mem_cons_of_mem _ hm)
      · obtain rfl | hb := s.refBetter_mem b i j hb
        · exact .inl List.mem_cons_self
        · exact .inr hb
  exact (key is none h).resolve_right (by simp)

/-- The qualified inputs. -/
def State.refQualified (s : State) : List Nat := refAll.filter fun i => (s.refIn i).qualified

/-- Step 3 chooses a qualified input or none. -/
theorem State.refChoose_qualified (s : State) (j : Nat) (h : s.refChoose.clk.sel = some j) : (s.refIn j).qualified = true := by
  have hq : ∀ {i}, i ∈ s.refQualified → (s.refIn i).qualified = true := fun hi => (List.mem_filter.1 hi).2
  unfold State.refChoose at h
  extract_lets q at h
  split at h
  · exact absurd h (by simp)
  next b hb =>
    have hbq : b ∈ q := s.refBest_mem q b hb
    extract_lets rank stays top calm at h
    split at h
    next hs =>
      simp only [stays, h, Bool.and_eq_true, List.contains_iff_mem] at hs
      exact hq hs.1
    · split at h
      next he =>
        have htop : b ∈ top := List.mem_filter.2 ⟨hbq, beq_self_eq_true _⟩
        split at he
        · rw [he] at htop; exact absurd htop List.not_mem_nil
        next hc => rw [he] at hc; exact absurd rfl hc
      next i is he =>
        have hi : i ∈ top := by
          have : i ∈ i :: is := List.mem_cons_self
          rw [← he] at this
          split at this
          · exact this
          · exact List.mem_of_mem_filter this
        simp only [State.raiseAt_frame, Option.some.injEq] at h
        exact h ▸ hq (List.mem_of_mem_filter hi)

theorem State.refChoose_ins (s : State) : s.refChoose.clk.ins = s.clk.ins := by
  unfold State.refChoose
  extract_lets q
  split
  · rfl
  · extract_lets rank stays top calm
    split
    · rfl
    · split
      · rfl
      · simp only [State.raiseAt_frame]; rfl

/-- After the decisions of a tick, what is selected is qualified. -/
theorem State.refDecide_qualified (s : State) (j : Nat) (h : s.refDecide.clk.sel = some j) : (s.refDecide.refIn j).qualified = true := by
  unfold State.refDecide at h ⊢
  rw [State.refShowAll_clk] at h
  rw [State.refIn_congr (s := s.disputeStep) (by rw [State.refShowAll_clk, State.refChoose_ins])]
  exact s.disputeStep.refChoose_qualified j h

/-! ### The decisions raise events and clear none -/

section Raises

variable (s : State) (g : Fr) (hl : g.lo = g.hi) (hg : s.bit g = true)
include hl hg

theorem State.bit_refDrop (i : Nat) : (s.refDrop i).bit g = true := State.bit_raiseAt_mono _ _ g i rfl (by decide) hl hg

theorem State.bit_makeOutlier (i a : Nat) : (s.makeOutlier i a).bit g = true :=
  State.bit_raiseAt_mono _ _ g i rfl (by decide) hl (s.bit_refDrop g hl hg i)

theorem State.bit_arbitrate (d : Dispute) : (s.arbitrate d).bit g = true := by
  unfold State.arbitrate
  split
  · exact hg
  · split
    · exact hg
    · split
      · exact s.bit_makeOutlier g hl hg _ _
      · split
        · exact s.bit_makeOutlier g hl hg _ _
        · exact hg

theorem State.bit_findDisputes : s.findDisputes.bit g = true := by
  unfold State.findDisputes
  refine State.bit_foldl _ g (fun t p ht => ?_) _ s hg
  dsimp only
  split
  · exact State.bit_raiseAt_mono _ _ g _ rfl (by decide) hl ht
  · exact ht

theorem State.bit_refChoose : s.refChoose.bit g = true := by
  unfold State.refChoose
  extract_lets q
  split
  · exact hg
  · extract_lets rank stays top calm
    split
    · exact hg
    · split
      · exact hg
      · exact State.bit_raiseAt_mono _ _ g _ rfl (by decide) hl hg

theorem State.bit_refDecide : s.refDecide.bit g = true := by
  have h : s.disputeStep.bit g = true := State.bit_foldl State.arbitrate g (fun t d ht => t.bit_arbitrate g hl ht d) _ _ (s.bit_findDisputes g hl hg)
  exact (State.bit_congr _ _ g (State.reg_refShowAll _ _)).trans (s.disputeStep.bit_refChoose g hl h)

end Raises

/-! ### The DPLL (R345, R346) -/

theorem natAbs_toward_le (v t : Int) (n : Nat) : (toward v t n - v).natAbs ≤ n := by
  unfold toward
  split <;> omega

theorem toward_near (v t : Int) (n : Nat) (h : (t - v).natAbs ≤ n) : toward v t n = t := by
  unfold toward
  split <;> omega

theorem State.dpllMove_slewing (s : State) (x : TickIn) (i : Nat) (hd : s.dpll = 2) (hp : s.clk.pub = some i) :
    let v := if s.clk.first then s.refFreq i else toward s.clk.out (s.refFreq i) (s.fld Reg.CLK_QUAL.FSLEW)
    s.dpllMove x = { s.clk with out := v, there := v == s.refFreq i } := by
  unfold State.dpllMove
  simp only [hd, hp]

/-- The DPLL locked on its selected input (R345). -/
def State.lockedOn (s : State) : State :=
  { s with clk := { s.clk with phase := 0, integ := s.clk.out * 2 ^ 96, first := false, there := false } }

theorem State.lockedRow_eq (s : State) : s.lockedRow =
    if s.dpll == 2 && s.clk.pub.isSome && s.clk.there then (s.lockedOn.setDpll 1).raise Reg.CLK_EVENT.LOCKED else s := by
  unfold State.lockedRow
  split
  next hd hp =>
    have hgo : (s.dpll == 2 && s.clk.pub.isSome && s.clk.there) = s.clk.there := by rw [hd, hp]; rfl
    rw [hgo]
    rfl
  next h =>
    refine (if_neg fun hc => ?_).symm
    simp only [Bool.and_eq_true, beq_iff_eq, Option.isSome_iff_exists] at hc
    obtain ⟨⟨hd, i, hp⟩, -⟩ := hc
    exact h i hd hp

@[simp] theorem State.rest_setDpll (s : State) (v : Nat) : (s.setDpll v).rest = s.rest := by
  unfold State.setDpll
  simp only [State.rest_setFld]

theorem State.reg_setDpll_ne (s : State) (v : Nat) {off : Nat} (h : off ≠ Reg.CLK_STATUS) (h2 : off ≠ Reg.GLB_TICK_STATUS) :
    (s.setDpll v).reg off = s.reg off := by
  unfold State.setDpll
  rw [State.reg_setFld_ne _ _ (Ne.symm h2), State.reg_setFld_ne _ _ (Ne.symm h2), State.reg_setFld_ne _ _ (Ne.symm h)]

/-- What LOCKED shows. -/
theorem State.setDpll_locked (s : State) : (s.setDpll 1).dpll = 1 ∧ (s.setDpll 1).bit Reg.GLB_TICK_STATUS.TB_LOCKED = true ∧
    (s.setDpll 1).bit Reg.GLB_TICK_STATUS.HOLDOVER = false := by
  unfold State.setDpll
  refine ⟨?_, ?_, ?_⟩
  · rw [State.dpll, State.fld_congr _ _ _ (State.reg_setFld_ne _ _ (by decide)), State.fld_congr _ _ _ (State.reg_setFld_ne _ _ (by decide)),
      State.fld_setFld _ _ _ (by decide) (by decide)]
    rfl
  · rw [State.bit_eq, State.fld_setFld_ne _ _ _ _ (by decide) (by decide) (by decide), State.fld_setFld _ _ _ (by decide) (by decide)]
    rfl
  · rw [State.bit_eq, State.fld_setFld _ _ _ (by decide) (by decide)]
    rfl

/-! ### The commands -/

/-- An input that takes its qualification: QUAL, and a qualified selection (R339, R341). -/
theorem State.qual_now (s : State) (i : Nat) (hi : i < 14) (hq : (s.refIn i).qualified = false) (hr : (s.refIn i).rank ≠ 0)
    (hw : s.refWait i < (s.refIn i).held) : (s.qual i).bit Reg.CLK_EVENT.QUAL = true ∧
      ∀ j, (s.qual i).clk.sel = some j → ((s.qual i).refIn j).qualified = true := by
  rw [show s.qual i = _ from if_pos ⟨hi, hq, hr, hw⟩]
  exact ⟨State.bit_refDecide _ _ rfl (State.bit_raiseAt _ _ _ rfl (by decide)), State.refDecide_qualified _⟩

theorem State.qual_idle (s : State) (i : Nat) (h : (s.refIn i).qualified = true ∨ (s.refIn i).rank = 0 ∨ (s.refIn i).held ≤ s.refWait i) :
    s.qual i = s := by
  refine if_neg fun hc => ?_
  obtain ⟨-, hq, hr, hw⟩ := hc
  obtain h | h | h := h
  · exact absurd (hq.symm.trans h) (by decide)
  · exact hr h
  · omega

/-- The DPLL locks (R344, R345). -/
theorem State.lockedRow_now (s : State) (hgo : (s.dpll == 2 && s.clk.pub.isSome && s.clk.there) = true) :
    s.lockedRow.rest = s.lockedOn.rest ∧
    (∀ off, off ≠ Reg.CLK_STATUS → off ≠ Reg.GLB_TICK_STATUS → off ≠ Reg.CLK_EVENT → off ≠ Reg.FLT_EVENT → s.lockedRow.reg off = s.reg off) ∧
    s.lockedRow.dpll = 1 ∧ s.lockedRow.bit Reg.GLB_TICK_STATUS.TB_LOCKED = true ∧ s.lockedRow.bit Reg.GLB_TICK_STATUS.HOLDOVER = false ∧
    s.lockedRow.bit Reg.CLK_EVENT.LOCKED = true := by
  rw [s.lockedRow_eq, if_pos hgo]
  have hr {off : Nat} (he : off ≠ Reg.CLK_EVENT) (hf : off ≠ Reg.FLT_EVENT) :
      ((s.lockedOn.setDpll 1).raise Reg.CLK_EVENT.LOCKED).reg off = (s.lockedOn.setDpll 1).reg off := State.reg_raise_ne _ _ he hf
  obtain ⟨hd, hb, hh⟩ := s.lockedOn.setDpll_locked
  refine ⟨(State.rest_raiseAt _ _ _).trans (State.rest_setDpll _ _), fun off h1 h2 h3 h4 => (hr h3 h4).trans (State.reg_setDpll_ne _ _ h1 h2),
    ?_, ?_, ?_, State.bit_raise _ _ rfl (by decide)⟩
  · exact (State.fld_congr _ _ _ (hr (by decide) (by decide))).trans hd
  · exact (State.bit_congr _ _ _ (hr (by decide) (by decide))).trans hb
  · exact (State.bit_congr _ _ _ (hr (by decide) (by decide))).trans hh

/-- A second's record joins the others; what shows of it is published (R348). -/
theorem State.holdRecord_joins (s : State) (r : Int × Bool) (h : s.clk.due = some r) :
    s.holdRecord.clk = { s.clk with due := none, recs := (r :: s.clk.recs).take 65 } ∧ ∀ off, s.holdRecord.reg off = s.reg off := by
  unfold State.holdRecord
  rw [h]
  exact ⟨rfl, fun _ => rfl⟩

theorem State.holdRecord_idle (s : State) (h : s.clk.due = none) : s.holdRecord = s := by
  unfold State.holdRecord
  rw [h]

/-- No field of CLK_NUM_FREQ is locked by the configuration. -/
theorem overrides_numFreq (old new : Word) : overrides Reg.CLK_NUM_FREQ old new = false :=
  List.any_eq_false.2 fun f hf => by
    have : ∀ f ∈ regFlds Reg.CLK_NUM_FREQ, (f.acc == .rwo) = false := by decide +kernel
    rw [this f hf, Bool.false_and]
    decide

/-- Settles O53: each decision by what it leaves when it is due and when it is not; the slew by the bound of `toward`. -/
theorem references : Obligations.References := by
  unfold Obligations.References
  intro s
  refine ⟨fun h ha => ⟨fun i => ⟨_, rfl, s.sameBut_cmdDecide_late _ h ha⟩, ⟨_, rfl, s.sameBut_cmdDecide_late _ h ha⟩,
      ⟨_, rfl, s.sameBut_cmdDecide_late _ h ha⟩⟩, fun i hd => ⟨fun hq hr hw => ?_, fun hn => ?_⟩, fun hd => ?_, fun i x hd hp => ?_,
    fun hd => ⟨fun hgo => ?_, fun hgo => ?_⟩, fun r h hr => ?_, fun h hn => ?_, fun v h ht => ?_⟩
  · obtain ⟨hb, hs⟩ := s.cleared.qual_now i i.isLt hq hr hw
    have hclk : (s.cmdTick (·.qual i)).clk = (s.cleared.qual i).clk := by simp only [State.cmdTick_frame s _ hd.1]
    refine completes_decide rfl hd ⟨(s.bit_cmdTick _ hd.1 _ (by decide)).trans hb, fun j hj => ?_⟩
    rw [State.refIn_congr (congrArg ClkSt.ins hclk)]
    exact hs j (hclk ▸ hj)
  · exact completes_decide rfl hd (s.sameBut_cmdTick_idle _ hd.1 (s.cleared.qual_idle i hn))
  · refine completes_decide rfl hd ⟨?_, fun off ho => ?_⟩
    · simp only [State.cmdTick_frame s _ hd.1, State.refShowAll_clk]
      rfl
    · rw [s.reg_cmdTick _ hd.1 ho, State.reg_refShowAll]
      rfl
  · have hm := s.dpllMove_slewing x i hd hp
    intro c
    refine ⟨by simp only [c, hm], fun hf => ?_, fun hf => ⟨?_, fun hn => ?_⟩⟩
    · simp only [c, hm, hf, if_true, beq_self_eq_true]
    · simp only [c, hm, hf, Bool.false_eq_true, if_false]
      exact natAbs_toward_le _ _ _
    · simp only [c, hm, hf, Bool.false_eq_true, if_false, toward_near _ _ _ hn, beq_self_eq_true]
  · obtain ⟨hrest, hreg, hdpll, hb, hh, he⟩ := s.cleared.lockedRow_now hgo
    refine completes_decide rfl hd ⟨s.sameBut_cmdTick s.lockedOn _ _ hd.1 hrest rfl fun off ho => ?_, ?_, ?_, ?_, ?_⟩
    · simp only [List.mem_cons, not_or] at ho
      obtain ⟨h1, h2, h3, h4⟩ := ho
      refine ⟨h4, hreg off h1 h2 h3 fun hf => h4 (hf ▸ ?_)⟩
      decide
    · exact (State.fld_congr _ _ _ (s.reg_cmdTick _ hd.1 (by decide))).trans hdpll
    · exact (s.bit_cmdTick _ hd.1 _ (by decide)).trans hb
    · exact (s.bit_cmdTick _ hd.1 _ (by decide)).trans hh
    · exact (s.bit_cmdTick _ hd.1 _ (by decide)).trans he
  · refine completes_decide rfl hd (s.sameBut_cmdTick_idle _ hd.1 ?_)
    rw [State.lockedRow_eq]
    exact if_neg (by rw [show (s.cleared.dpll == 2 && s.cleared.clk.pub.isSome && s.cleared.clk.there) = false from hgo]; decide)
  · obtain ⟨hclk, hreg⟩ := s.cleared.holdRecord_joins r hr
    refine ⟨_, rfl, ?_, fun off ho => (s.reg_cmdTick _ h ho).trans (hreg off)⟩
    simp only [State.cmdTick_frame s _ h]
    exact hclk
  · exact ⟨_, rfl, s.sameBut_cmdTick_idle _ h (s.cleared.holdRecord_idle hn)⟩
  · obtain ⟨hsame, hreg, -⟩ := State.plainWrite_leaves h (fun _ _ => rfl) (by decide) ht (overrides_numFreq _ _)
    have hclk := congrArg State.clk hsame.1
    rw [half_word] at hreg
    exact ⟨_, rfl, hreg, hclk⟩

end Sys2Proof.Machine
end

section
/-! SUPPORT. Sensors, the cooling gate and the monitor converters (R387, R396, R397, R399-R403). -/

namespace Sys2Proof.Machine

open Sys2Proof

/-! ### Bits of a register by their number -/

/-- A bit beyond the register's 32 is none of it. -/
theorem setBits_beyond (w : Word) {i : Nat} (v : Nat) (h : 32 ≤ i) : setBits w i i v = w := by
  have hw : w.toNat >>> i = 0 := Nat.shiftRight_eq_zero _ _ (lt_of_lt_of_le w.isLt (Nat.pow_le_pow_right (by decide) h))
  obtain ⟨k, rfl⟩ := Nat.exists_eq_add_of_le h
  apply BitVec.eq_of_toNat_eq
  rw [setBits, getBits, hw, Nat.zero_mod, Nat.zero_mul, Nat.sub_zero, BitVec.toNat_ofNat, pow_add,
    show w.toNat + v % 2 ^ (32 + k + 1 - (32 + k)) * (2 ^ 32 * 2 ^ k) = w.toNat + 2 ^ 32 * (v % 2 ^ (32 + k + 1 - (32 + k)) * 2 ^ k) by ring,
    Nat.add_mul_mod_self_left, Nat.mod_eq_of_lt w.isLt]

/-- A bit of a register that is 1 stays 1 when any of its bits is set. -/
theorem State.bit_setFld_one_mono (s : State) (off i : Nat) (g : Fr) (hl : g.lo = g.hi) (hg : s.bit g = true) : (s.setFld ⟨off, i, i⟩ 1).bit g = true := by
  by_cases h : i < 32
  · exact s.bit_setFld_mono ⟨off, i, i⟩ g rfl h hg hl
  · refine (State.bit_congr s _ g ?_).trans hg
    by_cases he : off = g.off
    · rw [State.setFld, setBits_beyond _ _ (Nat.le_of_not_lt h), he, State.reg_setReg_self]
    · exact s.reg_setFld_ne 1 he

/-- A field's bit, set by its place in the register. -/
theorem State.testBit_fld_setFld (s : State) (f : Fr) (i v : Nat) (h : f.lo + i ≤ f.hi) (h2 : f.hi < 32) :
    ((s.setFld ⟨f.off, f.lo + i, f.lo + i⟩ v).fld f).testBit i = v.testBit 0 := by
  rw [State.fld, State.setFld, State.reg_setReg_self, testBit_getBits, testBit_setBits _ _ _ _ _ (le_refl _) (show f.lo + i < 32 by omega),
    if_pos ⟨le_refl _, le_refl _⟩,
    Nat.sub_self, decide_eq_true (by omega : i < f.hi + 1 - f.lo), Bool.true_and]

/-! ### Sensors (R387) -/

theorem State.bit_flagSensor_self (s : State) (i : Nat) (h : i < 32) : (s.flagSensor i).bit ⟨Reg.THM_SENS_FLT, i, i⟩ = true :=
  State.bit_raiseAt_mono _ _ _ i rfl (by decide) rfl (s.bit_setFld ⟨Reg.THM_SENS_FLT, i, i⟩ rfl h)

theorem State.bit_flagSensor_mono (s : State) (i : Nat) (g : Fr) (hl : g.lo = g.hi) (hg : s.bit g = true) : (s.flagSensor i).bit g = true :=
  State.bit_raiseAt_mono _ _ g i rfl (by decide) hl (s.bit_setFld_one_mono _ i g hl hg)

/-- Flagging sensors sets the bit of each, and the event. -/
theorem State.bit_flagSensors (xs : List Nat) (s : State) {i : Nat} (hi : i ∈ xs) :
    (xs.foldl State.flagSensor s).bit Reg.THM_EVENT.SENSOR_FAULT = true ∧
    (i < 24 → (xs.foldl State.flagSensor s).bit ⟨Reg.THM_SENS_FLT, i, i⟩ = true) := by
  have keep (g : Fr) (hl : g.lo = g.hi) (ys : List Nat) (u : State) (hu : u.bit g = true) : (ys.foldl State.flagSensor u).bit g = true :=
    State.bit_foldl State.flagSensor g (fun t j ht => t.bit_flagSensor_mono j g hl ht) ys u hu
  induction xs generalizing s with
  | nil => exact absurd hi List.not_mem_nil
  | cons x xs ih =>
    obtain rfl | hx := List.mem_cons.1 hi
    · exact ⟨keep _ rfl xs _ (State.bit_raiseAt _ _ _ rfl (by decide)),
        fun h => keep _ rfl xs _ (s.bit_flagSensor_self i (by omega))⟩
    · exact ih _ hx

theorem State.bit_pairCheck (s : State) (d : Nat) (g : Fr) (hl : g.lo = g.hi) (hg : s.bit g = true) : (s.pairCheck d).bit g = true := by
  unfold State.pairCheck
  extract_lets r some2
  split
  · exact hg
  · exact State.bit_raiseAt_mono _ _ g d rfl (by decide) hl hg

theorem State.pairCheck_thm (s : State) (d : Nat) : (s.pairCheck d).thm = s.thm := by
  unfold State.pairCheck
  extract_lets r some2
  split
  · rfl
  · simp only [State.raiseAt_frame]

/-- The sensors due are flagged. -/
theorem State.sensorFault_flags (s : State) (h : s.thm.due ≠ []) : s.sensorFault.thm.due = [] ∧ s.sensorFault.bit Reg.THM_EVENT.SENSOR_FAULT = true ∧
    ∀ i ∈ s.thm.due, i < 24 → s.sensorFault.bit ⟨Reg.THM_SENS_FLT, i, i⟩ = true := by
  have keep (g : Fr) (hl : g.lo = g.hi) (u : State) (hu : u.bit g = true) : ([0, 1, 2].foldl State.pairCheck u).bit g = true :=
    State.bit_foldl State.pairCheck g (fun t d ht => t.bit_pairCheck d g hl ht) _ u hu
  unfold State.sensorFault
  rw [if_neg (by simpa using h)]
  obtain ⟨j, hj⟩ := List.exists_mem_of_ne_nil _ h
  refine ⟨congrArg ThmSt.due (foldl_keeps State.thm State.pairCheck State.pairCheck_thm _ _), keep _ rfl _ (State.bit_flagSensors _ s hj).1,
    fun i hi hlt => keep _ rfl _ ((State.bit_flagSensors _ s hi).2 hlt)⟩

theorem State.sensorFault_idle (s : State) (h : s.thm.due = []) : s.sensorFault = s := if_pos (by rw [h]; rfl)

/-! ### The cooling gate (R396) -/

theorem State.reg_queueFirst_ne (s : State) (kind sev src : Nat) (d : List Byte) {off : Nat} (h : off ≠ Reg.FLT_EVENT) :
    (s.queueFirst kind sev src d).reg off = s.reg off := by
  unfold State.queueFirst
  split
  · rfl
  · exact State.reg_loseRec_ne s h

@[simp] theorem State.rest_queueFirst (s : State) (kind sev src : Nat) (d : List Byte) : (s.queueFirst kind sev src d).rest = s.rest := by
  unfold State.queueFirst
  split
  · rfl
  · exact State.rest_congr (by simp only [State.loseRec_frame, and_self]) (by simp only [State.loseRec_frame])

/-- The gate opens. -/
theorem State.gateClear_opens (s : State) (hg : s.bit Reg.THM_STATUS.GATE = true) (ho : s.thm.gateOk = true) :
    s.gateClear.rest = s.rest ∧
    (∀ off, off ≠ Reg.THM_STATUS → off ≠ Reg.THM_EVENT → off ≠ Reg.FLT_EVENT → s.gateClear.reg off = s.reg off) ∧
    s.gateClear.bit Reg.THM_STATUS.GATE = false ∧ s.gateClear.bit Reg.THM_EVENT.GATE_CLEAR = true := by
  unfold State.gateClear
  rw [if_pos (by rw [hg, ho]; rfl)]
  refine ⟨by simp only [State.rest_queueFirst, State.rest_raiseOwn, State.rest_setFld], fun off h1 h2 h3 => ?_, ?_, ?_⟩
  · rw [State.reg_queueFirst_ne _ _ _ _ _ h3, State.reg_raiseOwn_ne _ _ h2, State.reg_setFld_ne _ _ (Ne.symm h1)]
  · rw [State.bit_congr _ _ _ (State.reg_queueFirst_ne _ _ _ _ _ (by decide)), State.bit_congr _ _ _ (State.reg_raiseOwn_ne _ _ (by decide)),
      State.bit_eq, State.fld_setFld _ _ _ (by decide) (by decide)]
    rfl
  · rw [State.bit_congr _ _ _ (State.reg_queueFirst_ne _ _ _ _ _ (by decide))]
    exact State.bit_raiseOwn _ _ rfl (by decide)

theorem State.gateClear_idle (s : State) (h : s.bit Reg.THM_STATUS.GATE = false ∨ s.thm.gateOk = false) : s.gateClear = s := by
  refine if_neg ?_
  obtain h | h := h <;> simp [h]

/-! ### A unit's state -/

@[simp] theorem State.mon_setMon (s : State) (u : Nat) (x : MonUnit) : (s.setMon u x).mon u = x := by
  unfold State.mon State.setMon
  by_cases h0 : u = 0
  · simp [h0]
  · by_cases h1 : u = 1 <;> simp [h0, h1]

@[simp] theorem State.reg_setMon (s : State) (u : Nat) (x : MonUnit) (off : Nat) : (s.setMon u x).reg off = s.reg off := by
  unfold State.setMon
  split
  · rfl
  · split <;> rfl

@[simp] theorem State.setMon_pubQ (s : State) (u : Nat) (x : MonUnit) : (s.setMon u x).pubQ = s.pubQ := by
  unfold State.setMon
  split
  · rfl
  · split <;> rfl

theorem State.mon_congr {s t : State} (h : t.rest = s.rest) (u : Nat) : t.mon u = s.mon u := by
  have h0 := congrArg State.mon0 h
  have h1 := congrArg State.mon1 h
  have h2 := congrArg State.mon2 h
  unfold State.mon
  rw [show t.mon0 = s.mon0 from h0, show t.mon1 = s.mon1 from h1, show t.mon2 = s.mon2 from h2]

theorem State.mon_cmd (s : State) (f : State → State) (h : s.live) (u : Nat) : (s.cmd f).mon u = (f s.cleared).mon u := by
  unfold State.mon
  simp only [s.cmd_frame f h]

theorem State.mon_cmdTick (s : State) (f : State → State) (h : s.ticking) (u : Nat) : (s.cmdTick f).mon u = (f s.cleared).mon u := by
  unfold State.mon
  simp only [s.cmdTick_frame f h]

theorem State.rest_setMon (s : State) (u : Nat) (x : MonUnit) : (s.setMon u x).rest = s.rest.setMon u x := by
  unfold State.setMon
  split
  · rfl
  · split <;> rfl

/-! ### Conversions (R397, R403) -/

theorem State.monConvert_idle (s : State) (u code value : Nat) (h : (s.mon u).on = false ∨ s.monRuns u = false) : s.monConvert u code value = s := by
  refine if_pos ?_
  obtain h | h := h <;> simp [h]

/-- The unit after a conversion, but for the value kept for the cross-check. -/
def State.converted (s : State) (u code value : Nat) : MonUnit :=
  let x := s.mon u
  let n := x.urg.getD x.pos
  { x with pos := if x.urg.isSome then x.pos else if s.fld (Reg.MON_CTL.LEN u) ≤ x.pos + 1 then 0 else x.pos + 1, urg := none,
           urgDone := if x.urg.isSome then x.urg else x.urgDone,
           fresh := if s.bit (Reg.MON_LIST.VALID u n) then x.fresh ++ [(n, ⟨value % 65536, code % 4096, s.monSettled u⟩)] else x.fresh }

/-- A conversion changes its unit alone. -/
theorem State.monConvert_form (s : State) (u code value : Nat) (ho : (s.mon u).on = true) (hr : s.monRuns u = true) : ∃ v b b2,
    s.monConvert u code value = s.setMon u { s.converted u code value with x := v, xNew := b, xNewR := b2 } := by
  unfold State.monConvert
  extract_lets x n r next valid isX y
  have hn : n = (s.mon u).urg.getD (s.mon u).pos := by
    show (match (s.mon u).urg with | some n => n | none => (s.mon u).pos) = _
    cases (s.mon u).urg <;> rfl
  have hy : y = s.converted u code value := by simp only [y, valid, r, next, State.converted, hn, x]
  rw [if_neg (by rw [ho, hr]; decide), hy]
  split
  · exact ⟨_, _, _, rfl⟩
  · exact ⟨_, _, _, rfl⟩

/-! ### References, isolation, excursions (R399-R402) -/

theorem State.monSettled_congr {s t : State} (h : t.reg Reg.MON_STATUS = s.reg Reg.MON_STATUS) (u : Nat) : t.monSettled u = s.monSettled u := by
  rw [State.monSettled, State.monSettled, State.fld_congr s t _ h]

theorem State.monIsolated_congr {s t : State} (h : t.reg Reg.MON_STATUS = s.reg Reg.MON_STATUS) (u : Nat) : t.monIsolated u = s.monIsolated u := by
  rw [State.monIsolated, State.monIsolated, State.fld_congr s t _ h]

/-- A reference settles. -/
theorem State.refSettled_now (s : State) (u : Fin 3) (hn : s.monSettled u = false) (ht : (s.mon u).settleAt ≤ s.tick) :
    (s.refSettled u).rest = s.rest ∧
    (∀ off, off ≠ Reg.MON_STATUS → off ≠ Reg.MON_EVENT → off ≠ Reg.FLT_EVENT → (s.refSettled u).reg off = s.reg off) ∧
    (s.refSettled u).monSettled u = true ∧ (s.refSettled u).bit Reg.MON_EVENT.REF_SETTLED = true := by
  have hb := s.testBit_fld_setFld Reg.MON_STATUS.SETTLED u 1 (by dsimp only [Reg.MON_STATUS.SETTLED]; omega) (by decide)
  rw [show s.refSettled u = _ from if_pos ⟨u.isLt, hn, ht⟩]
  refine ⟨by simp only [State.rest_raiseAt, State.rest_setFld],
    fun off h1 h2 h3 => (State.reg_raiseAt_ne _ _ _ h2 h3).trans (s.reg_setFld_ne 1 (Ne.symm h1)), ?_, State.bit_raiseAt _ _ _ rfl (by decide)⟩
  rw [State.monSettled, State.fld_congr _ _ _ (State.reg_raiseAt_ne _ _ _ (by decide) (by decide))]
  simpa only [Reg.MON_STATUS.SETTLED, Nat.zero_add, Nat.testBit_one_zero] using hb

theorem State.refSettled_idle (s : State) (u : Nat) (h : s.monSettled u = true ∨ s.tick < (s.mon u).settleAt) : s.refSettled u = s := by
  refine if_neg fun hc => ?_
  obtain ⟨-, hn, ht⟩ := hc
  obtain h | h := h
  · exact absurd (hn.symm.trans h) (by decide)
  · omega

/-- A unit is isolated. -/
theorem State.monFault_now (s : State) (u : Fin 3) (hf : 3 ≤ (s.mon u).fails) (hi : s.monIsolated u = false) :
    (s.monFault u).rest = (s.setMon u { s.mon u with fails := 0, passes := 0 }).rest ∧
    (∀ off, off ≠ Reg.MON_STATUS → off ≠ Reg.MON_CTL u → off ≠ Reg.MON_EVENT → off ≠ Reg.FLT_EVENT → (s.monFault u).reg off = s.reg off) ∧
    (s.monFault u).monIsolated u = true ∧ (s.monFault u).bit (Reg.MON_CTL.RETEST u) = false ∧ (s.monFault u).bit Reg.MON_EVENT.MON_FAULT = true := by
  have hb := s.testBit_fld_setFld Reg.MON_STATUS.ISOLATED u 1 (by dsimp only [Reg.MON_STATUS.ISOLATED]; omega) (by decide)
  have hs : Reg.MON_CTL u ≠ Reg.MON_STATUS := (by decide : ∀ u : Fin 3, Reg.MON_CTL u ≠ Reg.MON_STATUS) u
  have he : Reg.MON_CTL u ≠ Reg.MON_EVENT := (by decide : ∀ u : Fin 3, Reg.MON_CTL u ≠ Reg.MON_EVENT) u
  have hf' : Reg.MON_CTL u ≠ Reg.FLT_EVENT := (by decide : ∀ u : Fin 3, Reg.MON_CTL u ≠ Reg.FLT_EVENT) u
  rw [show s.monFault u = _ from if_pos ⟨u.isLt, hf, hi⟩]
  refine ⟨?_, fun off h1 h2 h3 h4 => ?_, ?_, ?_, State.bit_raiseAt _ _ _ rfl (by decide)⟩
  · rw [State.rest_raiseAt, State.rest_setMon, State.rest_setMon, State.rest_setFld, State.rest_setFld]
  · rw [State.reg_raiseAt_ne _ _ _ h3 h4, State.reg_setMon, State.reg_setFld_ne _ _ (Ne.symm h2), State.reg_setFld_ne _ _ (Ne.symm h1)]
  · rw [State.monIsolated, State.fld_congr _ _ _ (State.reg_raiseAt_ne _ _ _ (by decide) (by decide)), State.fld_congr _ _ _ (State.reg_setMon _ _ _ _),
      State.fld_congr _ _ _ (State.reg_setFld_ne _ _ hs)]
    exact hb
  · rw [State.bit_congr _ _ _ (State.reg_raiseAt_ne _ _ _ he hf'), State.bit_congr _ _ _ (State.reg_setMon _ _ _ _), State.bit_eq,
      State.fld_setFld _ _ _ (le_refl _) (by dsimp only [Reg.MON_CTL.RETEST]; decide)]
    rfl

theorem State.monFault_idle (s : State) (u : Nat) (h : (s.mon u).fails < 3 ∨ s.monIsolated u = true) : s.monFault u = s := by
  refine if_neg fun hc => ?_
  obtain ⟨-, hf, hi⟩ := hc
  obtain h | h := h
  · omega
  · exact absurd (hi.symm.trans h) (by decide)

/-- An entry's run has reached DEB results beyond its limits, or within them, and OUT does not say so yet. -/
def State.excursionDue (s : State) (u n : Nat) : Bool :=
  let q := (s.mon u).runs.get (fun _ => 0) n
  !s.monIsolated u && decide (s.fld (Reg.MON_LIST.DEB u n) ≤ q / 2) && decide (0 < q / 2) && ((q % 2 == 1) != (s.mon u).out.get (fun _ => false) n)

theorem State.excursion_eq (s : State) (u : Fin 3) (n : Fin 64) : s.excursion u n =
    let x := s.mon u
    let q := x.runs.get (fun _ => 0) n
    if s.excursionDue u n then ((s.setMon u { x with out := x.out.set (fun _ => false) n (q % 2 == 1) }).publish (Reg.MON_RES.OUT u n) (q % 2)).raiseAt
      (if q % 2 = 1 then Reg.MON_EVENT.EXCURSION else Reg.MON_EVENT.EXC_CLEAR) (64 * u + n) else s := by
  unfold State.excursion State.excursionDue
  refine if_congr ?_ rfl rfl
  simp only [u.isLt, n.isLt, true_and, Bool.and_eq_true, Bool.not_eq_true', decide_eq_true_eq, bne_iff_ne, and_assoc]

/-- An entry changes OUT. -/
theorem State.excursion_now (s : State) (u : Fin 3) (n : Fin 64) (h : s.excursionDue u n = true) :
    let q := (s.mon u).runs.get (fun _ => 0) n
    (s.excursion u n).pubQ = s.pubQ ++ [(Reg.MON_RES.OUT u n, q % 2)] ∧
    ((s.excursion u n).mon u).out.get (fun _ => false) n = (q % 2 == 1) ∧
    (s.excursion u n).bit (if q % 2 = 1 then Reg.MON_EVENT.EXCURSION else Reg.MON_EVENT.EXC_CLEAR) = true := by
  intro q
  rw [s.excursion_eq u n]
  extract_lets x q'
  rw [if_pos h]
  refine ⟨by simp only [State.raiseAt_frame, State.publish, State.setMon_pubQ]; rfl, ?_, State.bit_raiseAt _ _ _ ?_ ?_⟩
  · rw [State.mon_congr (State.rest_raiseAt _ _ _)]
    show (SMap.get _ ((s.setMon u _).mon u).out n) = _
    rw [State.mon_setMon, SMap.get_set_self]
  · split <;> rfl
  · split <;> decide

/-! ### The urgent request (R403) -/

theorem State.startBit_pending (s : State) (f : Fr) (v : Nat) : (s.cleared.startBit f v).pending = s.pending := by
  unfold State.startBit
  split
  · rfl
  · by_cases hd : s.pcie.d3hot = true
    · rw [s.cleared.write32_d3hot _ v hd]; rfl
    · have hd : s.pcie.d3hot = false := by simpa using hd
      by_cases hc : s.cleared.accessCause .w32 f.off v = 0
      · rw [State.write32_taken ⟨hd, hc⟩, State.taken_pending]
      · rw [s.cleared.write32_rejected _ v hd hc]
        have hr := (State.rest_rejectToo (s.cleared.reject (f.off / 4 * 4) v (s.cleared.accessCause .w32 f.off v)) .w32 (f.off / 4 * 4) v
          (s.cleared.accessCause .w32 f.off v)).trans (State.rest_reject s.cleared _ _ _)
        have hp := congrArg State.pending hr
        exact hp

/-- The grounds on which an urgent request is rejected. -/
def State.urgentBars (s : State) : Bool :=
  !s.bit (Reg.MON_LIST.VALID (s.fld Reg.MON_URG.UNIT) (s.fld Reg.MON_URG.ENTRY)) || s.monIsolated (s.fld Reg.MON_URG.UNIT) ||
    !s.monSettled (s.fld Reg.MON_URG.UNIT) || !(s.mon (s.fld Reg.MON_URG.UNIT)).on

/-- The request reaches its unit with GO cleared. -/
theorem State.urgent_eq (s : State) (last : Bool) : s.urgent last =
    let u := s.fld Reg.MON_URG.UNIT
    let t := s.setFld Reg.MON_URG.GO 0
    if s.urgentBars then t.raise Reg.MON_EVENT.URG_REJECT
    else if last then t.setMon u { s.mon u with urg := some (s.fld Reg.MON_URG.ENTRY) }
    else t.raise Reg.MON_EVENT.URG_DROP := by
  unfold State.urgent State.urgentBars
  extract_lets u n t
  have hr {off : Nat} (h : Reg.MON_URG ≠ off) : t.reg off = s.reg off := s.reg_setFld_ne 0 h
  have hm : t.mon u = s.mon u := State.mon_congr (State.rest_setFld _ _ _) u
  have hv : t.bit (Reg.MON_LIST.VALID u n) = s.bit (Reg.MON_LIST.VALID u n) := State.bit_congr _ _ _ (hr (by dsimp only [Reg.MON_URG, Reg.MON_LIST]; omega))
  have hi : t.monIsolated u = s.monIsolated u := State.monIsolated_congr (hr (by decide)) u
  have hs : t.monSettled u = s.monSettled u := State.monSettled_congr (hr (by decide)) u
  show (if (!t.bit (Reg.MON_LIST.VALID u n) || t.monIsolated u || !t.monSettled u || !(t.mon u).on) = true then _ else
    if last = true then t.setMon u { t.mon u with urg := some n } else _) = _
  rw [hm, hv, hi, hs]

theorem State.bit_clearGo (s : State) : (s.setFld Reg.MON_URG.GO 0).bit Reg.MON_URG.GO = false := by
  rw [State.bit_eq, State.fld_setFld _ _ _ (by decide) (by decide)]
  rfl

/-- A barred request is rejected. -/
theorem State.urgent_barred (s : State) (last : Bool) (h : s.urgentBars = true) :
    (s.urgent last).bit Reg.MON_URG.GO = false ∧ (s.urgent last).bit Reg.MON_EVENT.URG_REJECT = true := by
  rw [s.urgent_eq, if_pos h]
  exact ⟨(State.bit_congr _ _ _ (State.reg_raise_ne _ _ (by decide) (by decide))).trans s.bit_clearGo, State.bit_raise _ _ rfl (by decide)⟩

/-- One that comes in the last cycle of a conversion is the next conversion. -/
theorem State.urgent_taken (s : State) (h : s.urgentBars = false) :
    (s.urgent true).bit Reg.MON_URG.GO = false ∧ ((s.urgent true).mon (s.fld Reg.MON_URG.UNIT)).urg = some (s.fld Reg.MON_URG.ENTRY) := by
  rw [s.urgent_eq, if_neg (by rw [h]; decide), if_pos rfl]
  exact ⟨(State.bit_congr _ _ _ (State.reg_setMon _ _ _ _)).trans s.bit_clearGo, by rw [State.mon_setMon]⟩

/-- One that comes at another time is dropped. -/
theorem State.urgent_dropped (s : State) (h : s.urgentBars = false) : (s.urgent false).bit Reg.MON_URG.GO = false ∧
    ((s.urgent false).mon (s.fld Reg.MON_URG.UNIT)).urg = (s.mon (s.fld Reg.MON_URG.UNIT)).urg ∧ (s.urgent false).bit Reg.MON_EVENT.URG_DROP = true := by
  rw [s.urgent_eq, if_neg (by rw [h]; decide), if_neg (by decide)]
  exact ⟨(State.bit_congr _ _ _ (State.reg_raise_ne _ _ (by decide) (by decide))).trans s.bit_clearGo,
    congrArg MonUnit.urg (State.mon_congr (s := s) ((State.rest_raiseAt _ _ _).trans (State.rest_setFld _ _ _)) _), State.bit_raise _ _ rfl (by decide)⟩

/-! ### RETEST (R401) -/

/-- A taken write of MON_CTL with RETEST starts the unit's count of comparisons again. -/
theorem State.retest_effect (x : State) (u : Fin 3) (old : Word) (h : x.bit (Reg.MON_CTL.RETEST u) = true) :
    x.effect (Reg.MON_CTL u) old = x.setMon u { x.mon u with passes := 0 } := by
  fin_cases u <;> exact if_pos h

/-! ### The commands -/

theorem sensorFault_completes {s : State} (hd : s.deciding) (h : s.thm.due ≠ []) : Completes .sensorFault s fun t => t.thm.due = [] ∧
    t.bit Reg.THM_EVENT.SENSOR_FAULT = true ∧ ∀ i ∈ s.thm.due, i < 24 → t.bit ⟨Reg.THM_SENS_FLT, i, i⟩ = true := by
  obtain ⟨hdue, he, hf⟩ := s.cleared.sensorFault_flags h
  refine completes_decide rfl hd ⟨?_, (s.bit_cmdTick _ hd.1 _ (by decide)).trans he, fun i hi hlt => ?_⟩
  · simp only [State.cmdTick_frame s _ hd.1]
    exact hdue
  · exact (s.bit_cmdTick _ hd.1 _ (show Reg.THM_SENS_FLT ∉ faultRegs by decide)).trans (hf i hi hlt)

theorem gateClear_completes {s : State} (hd : s.deciding) (hg : s.bit Reg.THM_STATUS.GATE = true) (ho : s.thm.gateOk = true) :
    Completes .gateClear s fun t => s.sameBut t (Reg.THM_STATUS :: Reg.THM_EVENT :: faultRegs) ∧ t.bit Reg.THM_STATUS.GATE = false ∧
      t.bit Reg.THM_EVENT.GATE_CLEAR = true := by
  obtain ⟨hrest, hreg, hb, he⟩ := s.cleared.gateClear_opens hg ho
  refine completes_decide rfl hd ⟨s.sameBut_cmdTick s _ _ hd.1 hrest rfl fun off hoff => ?_,
    (s.bit_cmdTick _ hd.1 _ (by decide)).trans hb, (s.bit_cmdTick _ hd.1 _ (by decide)).trans he⟩
  simp only [List.mem_cons, not_or] at hoff
  obtain ⟨h1, h2, h3⟩ := hoff
  exact ⟨h3, hreg off h1 h2 fun hf => h3 (hf ▸ by decide)⟩

/-- A conversion runs to its unit's new state, and leaves every register. -/
theorem monConversion_completes {s : State} (u : Fin 3) (code : Fin 4096) (value : Fin 65536) (h : s.live) (ho : (s.mon u).on = true)
    (hr : s.monRuns u = true) {P : MonUnit → Prop} (hP : ∀ v b b2, P { s.converted u code value with x := v, xNew := b, xNewR := b2 }) :
    Completes (.monConversion u code value) s fun t => s.sameRegs t wrapRegs ∧ P (t.mon u) := by
  obtain ⟨v, b, b2, e⟩ := s.cleared.monConvert_form u code value ho hr
  refine ⟨_, rfl, fun off hoff => ?_, ?_⟩
  · rw [s.reg_cmd _ h hoff, e, State.reg_setMon, State.reg_cleared]
  · rw [s.mon_cmd _ h, e, State.mon_setMon]
    exact hP v b b2

theorem refSettled_completes {s : State} (u : Fin 3) (hd : s.deciding) (hn : s.monSettled u = false) (ht : (s.mon u).settleAt ≤ s.tick) :
    Completes (.refSettled u) s fun t => s.sameBut t (Reg.MON_STATUS :: Reg.MON_EVENT :: faultRegs) ∧ t.monSettled u = true ∧
      t.bit Reg.MON_EVENT.REF_SETTLED = true := by
  obtain ⟨hrest, hreg, hs, he⟩ := s.cleared.refSettled_now u hn ht
  refine completes_decide rfl hd ⟨s.sameBut_cmdTick s _ _ hd.1 hrest rfl fun off hoff => ?_,
    (State.monSettled_congr (s.reg_cmdTick _ hd.1 (by decide)) u).trans hs, (s.bit_cmdTick _ hd.1 _ (by decide)).trans he⟩
  simp only [List.mem_cons, not_or] at hoff
  obtain ⟨h1, h2, h3⟩ := hoff
  exact ⟨h3, hreg off h1 h2 fun hf => h3 (hf ▸ by decide)⟩

theorem monFault_completes {s : State} (u : Fin 3) (hd : s.deciding) (hf : 3 ≤ (s.mon u).fails) (hi : s.monIsolated u = false) :
    Completes (.monFault u) s fun t =>
      (s.setMon u { s.mon u with fails := 0, passes := 0 }).sameBut t (Reg.MON_STATUS :: Reg.MON_CTL u :: Reg.MON_EVENT :: faultRegs) ∧
      t.monIsolated u = true ∧ t.bit (Reg.MON_CTL.RETEST u) = false ∧ t.bit Reg.MON_EVENT.MON_FAULT = true := by
  obtain ⟨hrest, hreg, hs, hb, he⟩ := s.cleared.monFault_now u hf hi
  have hu : Reg.MON_CTL u ∉ faultRegs := (by decide : ∀ u : Fin 3, Reg.MON_CTL u ∉ faultRegs) u
  have hrest := hrest.trans ((State.rest_setMon s.cleared u _).trans (s.rest_setMon u _).symm)
  refine completes_decide rfl hd ⟨s.sameBut_cmdTick _ _ _ hd.1 hrest (s.setMon_pending _ _) fun off hoff => ?_,
    (State.monIsolated_congr (s.reg_cmdTick _ hd.1 (by decide)) u).trans hs, (s.bit_cmdTick _ hd.1 _ hu).trans hb,
    (s.bit_cmdTick _ hd.1 _ (by decide)).trans he⟩
  simp only [List.mem_cons, not_or] at hoff
  obtain ⟨h1, h2, h3, h4⟩ := hoff
  exact ⟨h4, (hreg off h1 h2 h3 fun hf => h4 (hf ▸ by decide)).trans (s.reg_setMon _ _ off).symm⟩

theorem excursion_completes {s : State} (u : Fin 3) (n : Fin 64) (hd : s.deciding) (h : s.excursionDue u n = true) :
    let q := (s.mon u).runs.get (fun _ => 0) n
    Completes (.excursion u n) s fun t => t.pubQ = s.pubQ ++ [(Reg.MON_RES.OUT u n, q % 2)] ∧
      (t.mon u).out.get (fun _ => false) n = (q % 2 == 1) ∧ t.bit (if q % 2 = 1 then Reg.MON_EVENT.EXCURSION else Reg.MON_EVENT.EXC_CLEAR) = true := by
  intro q
  obtain ⟨hp, ho, he⟩ := s.cleared.excursion_now u n h
  refine completes_decide rfl hd ⟨?_, ?_, (s.bit_cmdTick _ hd.1 _ ?_).trans he⟩
  · simp only [State.cmdTick_frame s _ hd.1]
    exact hp
  · rw [s.mon_cmdTick _ hd.1]
    exact ho
  · split <;> decide

theorem monRetest_completes {s : State} (u : Fin 3) (v : Word) (h : s.live) (ht : s.takes (Reg.MON_CTL u) v.toNat)
    (hr : (s.stored (Reg.MON_CTL u) v.toNat).bit (Reg.MON_CTL.RETEST u) = true) : Completes (.monRetest u v) s fun t =>
      t.reg (Reg.MON_CTL u) = (s.stored (Reg.MON_CTL u) v.toNat).reg (Reg.MON_CTL u) ∧ (t.mon u).passes = 0 := by
  have e := (State.write32_taken ht).trans ((s.stored (Reg.MON_CTL u) v.toNat).retest_effect u _ hr)
  refine ⟨_, rfl, ?_, ?_⟩
  · rw [s.reg_cmd _ h ((by decide : ∀ u : Fin 3, Reg.MON_CTL u ∉ wrapRegs) u), e, State.reg_setMon]
  · rw [s.mon_cmd _ h, e, State.mon_setMon]

/-- The urgent request runs on what its write leaves, where GO is 1. -/
theorem State.urgentConv_go (s : State) (v : Nat) (last : Bool) (h : (s.startBit Reg.MON_URG.GO v).bit Reg.MON_URG.GO = true) :
    s.urgentConv v last = (s.startBit Reg.MON_URG.GO v).urgent last := if_pos h

theorem State.urgentConv_idle (s : State) (v : Nat) (last : Bool) (h : (s.startBit Reg.MON_URG.GO v).bit Reg.MON_URG.GO = false) :
    s.urgentConv v last = s.startBit Reg.MON_URG.GO v := if_neg (by rw [h]; decide)

/-- The command leaves of MON_URG, MON_EVENT and the units what its effect leaves. -/
theorem urgentConversion_completes {s : State} (v : Word) (last : Bool) (h : s.live) {w : State} (hw : s.cleared.urgentConv v.toNat last = w)
    {P : State → Prop} (hP : ∀ t, (∀ f : Fr, f.off ∉ wrapRegs → t.bit f = w.bit f) → (∀ u, t.mon u = w.mon u) → P t) :
    Completes (.urgentConversion v last) s P := by
  refine ⟨_, rfl, hP _ (fun f hf => State.bit_congr _ _ f ?_) fun u => ?_⟩
  · rw [s.reg_cmd _ h hf, hw]
  · rw [s.mon_cmd _ h, hw]

/-- Settles O56: each decision by what it leaves when it is due and when it is not, a conversion by its form, the urgent request by its three
outcomes. -/
theorem sensorsAndMonitors : Obligations.SensorsAndMonitors := by
  unfold Obligations.SensorsAndMonitors
  intro s
  refine ⟨fun h ha => ⟨⟨_, rfl, s.sameBut_cmdDecide_late _ h ha⟩, ⟨_, rfl, s.sameBut_cmdDecide_late _ h ha⟩, fun u =>
      ⟨⟨_, rfl, s.sameBut_cmdDecide_late _ h ha⟩, ⟨_, rfl, s.sameBut_cmdDecide_late _ h ha⟩, fun n => ⟨_, rfl, s.sameBut_cmdDecide_late _ h ha⟩⟩⟩,
    fun hd hn => sensorFault_completes hd hn,
    fun hd hn => completes_decide rfl hd (s.sameBut_cmdTick_idle _ hd.1 (s.cleared.sensorFault_idle hn)),
    fun hd hg ho => gateClear_completes hd hg ho,
    fun hd hn => completes_decide rfl hd (s.sameBut_cmdTick_idle _ hd.1 (s.cleared.gateClear_idle hn)),
    fun u code value h => ⟨fun hn => ⟨_, rfl, s.sameBut_cmd_idle _ h (s.cleared.monConvert_idle u code value hn)⟩, fun ho hr hu => ?_, fun n ho hr hu => ?_⟩,
    fun u hd => ⟨refSettled_completes u hd, fun hn => completes_decide rfl hd (s.sameBut_cmdTick_idle _ hd.1 (s.cleared.refSettled_idle u hn)),
      monFault_completes u hd, fun hn => completes_decide rfl hd (s.sameBut_cmdTick_idle _ hd.1 (s.cleared.monFault_idle u hn))⟩,
    fun u n hd => ⟨excursion_completes u n hd, fun hgo => completes_decide rfl hd (s.sameBut_cmdTick_idle _ hd.1 ?_)⟩,
    fun u v w h ht hw hr => ?_, fun v w h hw => ?_⟩
  · refine monConversion_completes u code value h ho hr (P := fun x => x.pos = _ ∧ x.fresh = _) fun v b b2 => ?_
    simp only [State.converted, hu, Option.getD_none, Nat.mod_eq_of_lt value.isLt, Nat.mod_eq_of_lt code.isLt, Option.isSome_none, Bool.false_eq_true,
      if_false, and_self]
  · refine monConversion_completes u code value h ho hr (P := fun x => x.pos = _ ∧ x.urg = _ ∧ x.urgDone = _) fun v b b2 => ?_
    simp only [State.converted, hu, Option.isSome_some, if_true, and_self]
  · rw [s.cleared.excursion_eq]
    exact if_neg (by rw [show s.cleared.excursionDue u n = false from hgo]; decide)
  · subst hw
    exact monRetest_completes u v h ht hr
  · subst hw
    refine ⟨fun last hgo hb => ?_, fun hgo hb => ?_, fun hgo hb => ?_, fun last hgo => ?_⟩
    · obtain ⟨hg, hj⟩ := State.urgent_barred _ last hb
      exact urgentConversion_completes v last h (State.urgentConv_go _ _ _ hgo) fun t hbit _ =>
        ⟨(hbit _ (by decide)).trans hg, (hbit _ (by decide)).trans hj⟩
    · obtain ⟨hg, hu⟩ := State.urgent_taken _ hb
      exact urgentConversion_completes v true h (State.urgentConv_go _ _ _ hgo) fun t hbit hmon =>
        ⟨(hbit _ (by decide)).trans hg, (congrArg MonUnit.urg (hmon _)).trans hu⟩
    · obtain ⟨hg, hu, hj⟩ := State.urgent_dropped _ hb
      exact urgentConversion_completes v false h (State.urgentConv_go _ _ _ hgo) fun t hbit hmon =>
        ⟨(hbit _ (by decide)).trans hg, (congrArg MonUnit.urg (hmon _)).trans hu, (hbit _ (by decide)).trans hj⟩
    · have e := s.cleared.urgentConv_idle v.toNat last hgo
      exact ⟨_, rfl, s.sameBut_cmd _ _ _ h (congrArg State.rest e) (s.startBit_pending _ _) fun off hoff => ⟨hoff, by rw [e]⟩⟩

end Sys2Proof.Machine
end

section
/-! SUPPORT. What channels, staging reads, Rime ports and die-to-die senders leave alone; a line engine's part of the state. -/

namespace Sys2Proof.Machine

open Sys2Proof

/-! ### The line engines, the pins and the output

Client channels, the staging memory, counters and the Rime ports work beside them. -/

/-- The pins, the output, the line engines and the clock faults. -/
def State.outer (s : State) : Pins × List Out × Line × Line × List (Nat × Nat) := (s.pins, s.out, s.lnA, s.lnB, s.relockFaults)

theorem State.pins_of_outer {s t : State} (h : t.outer = s.outer) : t.pins = s.pins := congrArg (·.1) h
theorem State.out_of_outer {s t : State} (h : t.outer = s.outer) : t.out = s.out := congrArg (·.2.1) h
theorem State.relockFaults_of_outer {s t : State} (h : t.outer = s.outer) : t.relockFaults = s.relockFaults := congrArg (·.2.2.2.2) h
theorem State.ln_of_outer {s t : State} (h : t.outer = s.outer) (l : Nat) : t.ln l = s.ln l := by
  have ha : t.lnA = s.lnA := congrArg (·.2.2.1) h
  have hb : t.lnB = s.lnB := congrArg (·.2.2.2.1) h
  unfold State.ln
  rw [ha, hb]

theorem State.outer_withMem (s : State) (m : MemSt) : ({ s with mem := m } : State).outer = s.outer := rfl
theorem State.outer_withD2d (s : State) (d : D2dSt) : ({ s with d2d := d } : State).outer = s.outer := rfl

@[simp] theorem State.outer_setReg (s : State) (off : Nat) (w : Word) : (s.setReg off w).outer = s.outer := by simp only [State.outer, State.setReg_frame]
@[simp] theorem State.outer_setFld (s : State) (f : Fr) (v : Nat) : (s.setFld f v).outer = s.outer := by simp only [State.outer, State.setFld_frame]
@[simp] theorem State.outer_count (s : State) (k n : Nat) : (s.count k n).outer = s.outer := by simp only [State.outer, State.count_frame]
@[simp] theorem State.outer_raiseAt (s : State) (f : Fr) (i : Nat) : (s.raiseAt f i).outer = s.outer := by simp only [State.outer, State.raiseAt_frame]
@[simp] theorem State.outer_raise (s : State) (f : Fr) : (s.raise f).outer = s.outer := s.outer_raiseAt f 0
@[simp] theorem State.outer_raiseDp (s : State) (f : Fr) : (s.raiseDp f).outer = s.outer := by simp only [State.outer, State.raiseDp_frame]
@[simp] theorem State.outer_chCount (s : State) (n o k : Nat) : (s.chCount n o k).outer = s.outer := s.outer_count _ k
@[simp] theorem State.outer_setCtx (s : State) (n : Nat) (x : ChTx) : (s.setCtx n x).outer = s.outer := rfl

/-! ### Client channels -/

@[simp] theorem State.outer_winAdd (s : State) (w b u : Nat) : (s.winAdd w b u).outer = s.outer := by
  unfold State.winAdd
  extract_lets x
  split <;> rfl

@[simp] theorem State.outer_buildBlock (s : State) (n : Nat) (twin : Bool) : (s.buildBlock n twin).2.outer = s.outer :=
  (State.outer_winAdd _ _ _ _).trans (s.outer_setCtx n _)

@[simp] theorem State.outer_txDrop (s : State) (n k : Nat) : (s.txDrop n k).outer = s.outer := by
  unfold State.txDrop
  split
  · rfl
  · rw [State.outer_chCount, State.outer_raiseDp]

@[simp] theorem State.outer_dropMark (l : Nat) (s : State) (c : Nat × BlockMark) : (State.dropMark l s c).outer = s.outer :=
  (State.outer_txDrop _ _ _).trans (s.outer_setCtx _ _)

@[simp] theorem State.outer_passMark (l : Nat) (s : State) (c : Nat × BlockMark) : (State.passMark l s c).outer = s.outer := by
  unfold State.passMark
  extract_lets x
  split <;> rfl

@[simp] theorem State.outer_twinShed (s : State) (n l k fuel : Nat) : (s.twinShed n l k fuel).outer = s.outer := by
  induction fuel generalizing s with
  | zero => rfl
  | succ fuel ih =>
    unfold State.twinShed
    extract_lets x
    split
    · rfl
    · split
      · rfl
      · rw [ih, State.outer_dropMark, State.outer_setCtx]

@[simp] theorem State.outer_queueTwin (s : State) (n l : Nat) (b : List Byte) : (s.queueTwin n l b).outer = s.outer :=
  (State.outer_setCtx _ _ _).trans (s.outer_twinShed _ _ _ _)

@[simp] theorem State.outer_twinBlock (s : State) (n l : Nat) : (s.twinBlock n l).2.outer = s.outer := by
  unfold State.twinBlock
  extract_lets r t
  have ht : t.outer = s.outer := by
    by_cases hc : (((s.ctx n).q l).isEmpty && (s.ctx n).hasData) = true
    · rw [show t = _ from if_pos hc, State.outer_queueTwin, State.outer_queueTwin, State.outer_buildBlock]
    · rw [show t = s from if_neg hc]
  split
  · exact ht
  · exact (State.outer_setCtx _ _ _).trans ht

@[simp] theorem State.outer_slotBlock (s : State) (l : Nat) (w : Word) : (s.slotBlock l w).2.outer = s.outer := by
  unfold State.slotBlock
  extract_lets n label twin r
  split
  · rfl
  · split
    · rfl
    · split
      · have ht := s.outer_twinBlock n l
        split
        next h => rw [h] at ht; exact (State.outer_chCount _ _ _ _).trans ht
        next h => rw [h] at ht; exact ht
      · split
        · exact (State.outer_chCount _ _ _ _).trans (s.outer_buildBlock n false)
        · rfl

@[simp] theorem State.outer_frameBlocks (s : State) (l f sl : Nat) (bad : List Nat) : (s.frameBlocks l f sl bad).2.outer = s.outer :=
  foldl_keeps (fun p : List (List Byte) × State => p.2.outer) _ (fun p _ => p.2.outer_slotBlock l _) _ _

/-! ### Staging reads -/

@[simp] theorem State.outer_trkSet (s : State) (c e i w n : Nat) (fresh : Bool) : (s.trkSet c e i w n fresh).outer = s.outer := by
  unfold State.trkSet
  extract_lets a m b
  have hb : b.outer = s.outer := (a.outer_withMem _).trans (s.outer_setReg _ _)
  split
  · exact (b.outer_withMem _).trans hb
  · exact hb

@[simp] theorem State.outer_trkOffer (s : State) (i w lane : Nat) (hard : Bool) : (s.trkOffer i w lane hard).outer = s.outer := by
  unfold State.trkOffer
  extract_lets c th found e cnt wr counted n n' t row busy u
  have ht : t.outer = s.outer := s.outer_trkSet _ _ _ _ _ _
  have hu : u.outer = s.outer := (t.outer_raise _).trans ht
  split
  · rfl
  · split
    · exact ht
    · split <;> exact hu

@[simp] theorem State.outer_logUncorr (s : State) (i w lane syn : Nat) (rmw : Bool) (at_ : Nat) : (s.logUncorr i w lane syn rmw at_).outer = s.outer := by
  unfold State.logUncorr
  split
  · rfl
  · exact (State.outer_setFld _ _ _).trans ((State.outer_setFld _ _ _).trans (s.outer_setReg _ _))

@[simp] theorem State.outer_reportCorr (s : State) (i w lane : Nat) (rmw : Bool) : (s.reportCorr i w lane rmw).outer = s.outer := by
  unfold State.reportCorr
  rw [State.outer_trkOffer]
  split <;> exact s.outer_raiseAt _ _

@[simp] theorem State.outer_reportUncorr (s : State) (i w lane syn : Nat) (rmw : Bool) (at_ : Nat) :
    (s.reportUncorr i w lane syn rmw at_).outer = s.outer := by
  unfold State.reportUncorr
  split <;> simp only [State.outer_raiseAt, State.outer_trkOffer, State.outer_logUncorr]

@[simp] theorem State.outer_readLane (s : State) (lane : Nat) : (s.readLane lane).2.2.outer = s.outer := by
  unfold State.readLane
  extract_lets d syn
  split
  · rfl
  · exact s.outer_reportUncorr _ _ _ _ _ _
  · exact s.outer_reportCorr _ _ _ _

@[simp] theorem State.outer_stRead (s : State) (a n : Nat) : (s.stRead a n).2.2.outer = s.outer :=
  foldl_keeps (fun p : List Byte × Option Nat × State => p.2.2.outer) _ (fun p lane => p.2.2.outer_readLane lane) _ _

/-! ### Rime ports -/

@[simp] theorem State.outer_setRp (s : State) (k : Nat) (x : RimePort) : (s.setRp k x).outer = s.outer := by
  unfold State.setRp
  split <;> rfl

@[simp] theorem State.outer_rimShow (s : State) (k : Nat) : (s.rimShow k).outer = s.outer := (State.outer_setFld _ _ _).trans (s.outer_setFld _ _)

@[simp] theorem State.outer_rimLost (s : State) (p : RimePkt) : (s.rimLost p).outer = s.outer := by
  refine (State.outer_raise _ _).trans ?_
  unfold State.rimTraceSent
  split
  · exact s.outer_setFld _ _
  · rfl

@[simp] theorem State.outer_rimQueue (s : State) (k : Nat) (p : RimePkt) : (s.rimQueue k p).outer = s.outer := by
  unfold State.rimQueue
  extract_lets x y t
  rw [State.outer_rimShow]
  dsimp only [t]
  split
  · exact s.outer_setRp k _
  · split
    · split
      · split <;> exact (State.outer_rimLost _ _).trans (s.outer_setRp k _)
      · exact s.outer_rimLost p
    · exact s.outer_rimLost p

@[simp] theorem State.outer_rimEnd (s : State) (k : Nat) : (s.rimEnd k).outer = s.outer := by
  unfold State.rimEnd State.rimLeave
  rw [State.outer_rimShow, State.outer_setRp, State.outer_count]

@[simp] theorem State.outer_rimCut (s : State) (k : Nat) : (s.rimCut k).outer = s.outer := by
  have cut (c : Nat) : (((s.rimEnd k).rimCount k c 1).raise Reg.RIM_EVENT.TX_CUT).outer = s.outer := by
    rw [State.outer_raise, State.rimCount, State.outer_count, State.outer_rimEnd]
  unfold State.rimCut
  extract_lets x
  split
  · rfl
  · split
    · split
      · exact cut _
      · exact (State.outer_rimQueue _ _ _).trans (cut _)
    · rfl

/-! ### Die-to-die senders -/

@[simp] theorem State.outer_queueFlits (s : State) (g : Nat) (fs : List (Nat × List Byte)) : (s.queueFlits g fs).outer = s.outer := by
  unfold State.queueFlits
  extract_lets n t
  have ht : t.outer = s.outer := by
    refine foldl_keeps State.outer _ (fun u p => ?_) _ s
    rfl
  exact (t.outer_withD2d _).trans ht

@[simp] theorem State.outer_queueDac (s : State) (l rs d : Nat) (codes : List Int) : (s.queueDac l rs d codes).outer = s.outer :=
  State.outer_queueFlits _ _ _

/-! ### One line engine -/

@[simp] theorem State.ln_modLn (s : State) (l : Nat) (f : Line → Line) : (s.modLn l f).ln l = f (s.ln l) := by
  unfold State.modLn State.setLn State.ln
  split <;> rfl

theorem State.ln_cmd (s : State) (f : State → State) (h : s.live) (l : Nat) : (s.cmd f).ln l = (f s.cleared).ln l := by
  unfold State.ln
  simp only [s.cmd_frame f h]

theorem State.ln_cmdTick (s : State) (f : State → State) (h : s.ticking) (l : Nat) : (s.cmdTick f).ln l = (f s.cleared).ln l := by
  unfold State.ln
  simp only [s.cmdTick_frame f h]

@[simp] theorem State.modLn_pins (s : State) (l : Nat) (f : Line → Line) : (s.modLn l f).pins = s.pins := by
  unfold State.modLn State.setLn
  split <;> rfl

@[simp] theorem State.modLn_out (s : State) (l : Nat) (f : Line → Line) : (s.modLn l f).out = s.out := by
  unfold State.modLn State.setLn
  split <;> rfl

@[simp] theorem State.modLn_relockFaults (s : State) (l : Nat) (f : Line → Line) : (s.modLn l f).relockFaults = s.relockFaults := by
  unfold State.modLn State.setLn
  split <;> rfl

@[simp] theorem State.reg_modLn (s : State) (l : Nat) (f : Line → Line) (off : Nat) : (s.modLn l f).reg off = s.reg off := by
  unfold State.modLn State.setLn
  split <;> rfl

theorem State.dacZero_congr {s t : State} (h : t.pins = s.pins) (l : Nat) : t.dacZero l = s.dacZero l := by
  unfold State.dacZero
  rw [h]

@[simp] theorem State.dacZero_setDacZero (s : State) (l : Nat) (z : Bool) : (s.setDacZero l z).dacZero l = z := by
  unfold State.dacZero State.setDacZero
  split <;> rfl

@[simp] theorem State.ln_setDacZero (s : State) (l k : Nat) (z : Bool) : (s.setDacZero l z).ln k = s.ln k := rfl

/-- Setting the mute causes changes them, the memory of a mute, and the Rime ports. -/
theorem State.outer_setMute (s : State) (l m : Nat) :
    (s.setMute l m).outer = (s.modLn l fun x => { x with mute := m, wasMuted := x.wasMuted || m != 0 }).outer := by
  unfold State.setMute
  extract_lets old t
  split
  · rw [State.outer_rimCut, State.outer_rimCut, State.outer_raiseDp]
  · split
    · exact State.outer_raiseDp _ _
    · rfl

theorem State.ln_setMute (s : State) (l m : Nat) : (s.setMute l m).ln l = { s.ln l with mute := m, wasMuted := (s.ln l).wasMuted || m != 0 } :=
  (State.ln_of_outer (s.outer_setMute l m) l).trans (s.ln_modLn l _)

theorem State.setMute_pins (s : State) (l m : Nat) : (s.setMute l m).pins = s.pins :=
  (State.pins_of_outer (s.outer_setMute l m)).trans (s.modLn_pins l _)

end Sys2Proof.Machine
end

section
/-! SUPPORT. Transmit frame heads and the tile clock's relock (R35, R99, R214-R217). -/

namespace Sys2Proof.Machine

open Sys2Proof

/-! ### A line that sends nothing -/

theorem State.txQuiet_pins (s : State) (l : Nat) : (s.txQuiet l).pins = s.pins := (State.modLn_pins _ _ _).trans (s.modLn_pins l _)

theorem State.ln_txQuiet (s : State) (l : Nat) : (s.txQuiet l).ln l =
    { s.ln l with lcy := { (s.ln l).lcy with tag := List.replicate 16 0#8, running := false }, rails := [], placed := [] } := by
  unfold State.txQuiet State.modLcy
  rw [State.ln_modLn, State.ln_modLn]

/-- The blocks that a muted frame holds are dropped beside the line engines. -/
theorem State.outer_dropBlocks (s : State) (l fn : Nat) : (s.dropBlocks l fn).outer = s.outer := by
  unfold State.dropBlocks
  split
  · rfl
  · extract_lets r
    exact (foldl_keeps State.outer _ (fun u c => State.outer_dropMark l u c) _ _).trans (s.outer_frameBlocks _ _ _ _)

/-- What a muted frame leaves. -/
theorem State.muteFrame_leaves (s : State) (l fn : Nat) : (s.muteFrame l fn).pins = s.pins ∧ ((s.muteFrame l fn).lcy l).running = false ∧
    ((s.muteFrame l fn).lcy l).tag = List.replicate 16 0#8 ∧ ((s.muteFrame l fn).ln l).rails = [] ∧ [Out.txMuted l fn] <:+ (s.muteFrame l fn).out := by
  unfold State.muteFrame
  extract_lets m t
  have ht : t.outer = s.outer := by
    by_cases hm : m &&& 59 = 0
    · rw [show t = _ from if_pos hm, State.outer_dropBlocks]
    · rw [show t = s from if_neg hm]
  have hl : ((t.txQuiet l).emit (.txMuted l fn)).ln l = _ := t.ln_txQuiet l
  refine ⟨(t.txQuiet_pins l).trans (State.pins_of_outer ht), ?_, ?_, ?_, List.suffix_append _ _⟩
  · rw [State.lcy, hl]
  · rw [State.lcy, hl]
  · rw [hl]

/-! ### A frame that is sent -/

/-- What the parts of a sent frame keep: the pins, and whether a relocked tile clock waits for its frame. -/
def State.sending (s : State) (l : Nat) : Pins × Bool := (s.pins, (s.ln l).relocked)

theorem State.sending_of_outer {s t : State} (h : t.outer = s.outer) (l : Nat) : t.sending l = s.sending l := by
  rw [State.sending, State.sending, State.pins_of_outer h, State.ln_of_outer h]

theorem State.sending_modLn (s : State) (l : Nat) (f : Line → Line) (h : (f (s.ln l)).relocked = (s.ln l).relocked) :
    (s.modLn l f).sending l = s.sending l := by
  rw [State.sending, State.sending, State.ln_modLn, State.modLn_pins, h]

theorem State.sending_gccSend (s : State) (l : Nat) : (s.gccSend l).2.sending l = s.sending l := by
  unfold State.gccSend
  extract_lets zero size rd r t
  split
  · rfl
  · split
    · exact State.sending_of_outer (s.outer_raiseDp _) l
    · have ht : t.sending l = s.sending l :=
        (State.sending_modLn _ l _ rfl).trans (State.sending_of_outer (s.outer_stRead _ _) l)
      split
      · exact (State.sending_of_outer (t.outer_raiseDp _) l).trans ht
      · exact ht

theorem State.sendRails_leaves (s : State) (l at_ : Nat) (rails : List Int) :
    (s.sendRails l at_ rails).sending l = s.sending l ∧ (s.sendRails l at_ rails).out = s.out := by
  unfold State.sendRails
  extract_lets w amps codes t
  have hq : (codes.1.zipIdx.foldl (fun (s : State) p => s.queueDac l (fmtRs w) p.2 p.1) t).outer = t.outer :=
    foldl_keeps State.outer _ (fun u p => u.outer_queueDac l _ _ _) _ t
  exact ⟨(State.sending_of_outer hq l).trans (s.sending_modLn l _ rfl), (State.out_of_outer hq).trans (s.modLn_out l _)⟩

/-- A head begins with its frame's number (R99). -/
theorem State.headBytes_take (s : State) (l fn t : Nat) (tag gcc : List Byte) : (s.headBytes l fn t tag gcc).take 8 = beBytes 8 fn := by
  have h8 : (beBytes 8 fn).length = 8 := by rw [beBytes, List.length_reverse, leBytes_length]
  unfold State.headBytes
  extract_lets sh compat pend zeros b0 b1 b2 b3 b4
  simp only [b4, b3, b2, b1, b0, List.append_assoc]
  exact List.take_left' h8

theorem State.sending_encrypt (s : State) (l fn : Nat) (flags : Byte) (pt : List Byte) : (s.encrypt l fn flags pt).2.sending l = s.sending l :=
  s.sending_modLn l _ rfl

/-- The relocked tile clock is noted for the first frame sent (R217). -/
theorem State.relockNoted (s : State) (l : Nat) :
    (if (s.ln l).relocked then (s.raiseDp (Reg.TXP_EVENT.RELOCK_DONE l)).modLn l fun x => { x with relocked := false } else s).sending l =
      (s.pins, false) := by
  split
  · rw [State.sending, State.ln_modLn, State.modLn_pins, State.pins_of_outer (s.outer_raiseDp _)]
  next h => rw [State.sending, Bool.eq_false_iff.2 h]

/-- What a sent frame leaves: its head and its symbols come last. -/
theorem State.sendFrame_leaves (s : State) (l fn t at_ : Nat) (bad : List Nat) : (s.sendFrame l fn t at_ bad).sending l = (s.pins, false) ∧
    ∃ h r, h.take 8 = beBytes 8 fn ∧ [Out.txHead l fn h, .txSymbols l r] <:+ (s.sendFrame l fn t at_ bad).out := by
  unfold State.sendFrame
  extract_lets a w sl en p r b tag flags e g c head info rails
  clear_value rails info
  have ha : a.sending l = (s.pins, false) := s.relockNoted l
  have hb : b.sending l = a.sending l := by
    by_cases h0 : a.sh (Reg.FRM_CTL.TX_PSL l) = 0
    · rw [show b = _ from congrArg Prod.snd (if_pos h0)]
      exact a.sending_modLn l _ rfl
    · rw [show b = _ from congrArg Prod.snd (if_neg h0)]
      refine (State.sending_modLn _ l _ rfl).trans (State.sending_of_outer ?_ l)
      exact (foldl_keeps State.outer _ (fun u c => State.outer_passMark l u c) _ _).trans (a.outer_frameBlocks _ _ _ _)
  have he : e.2.sending l = b.sending l := by
    by_cases hen : en = true
    · rw [show e = _ from if_pos hen, State.sending_encrypt]
    · rw [show e = _ from if_neg hen]
      exact b.sending_modLn l _ rfl
  have hc : c.sending l = (s.pins, false) := (e.2.sending_gccSend l).trans (he.trans (hb.trans ha))
  have hh : head.take 8 = beBytes 8 fn := c.headBytes_take l fn t tag g.1
  clear_value head
  clear_value c
  obtain ⟨hs, ho⟩ := ((c.emit (.txHead l fn head)).emit (.txSymbols l rails)).sendRails_leaves l at_ rails
  refine ⟨hs.trans hc, head, rails, hh, ?_⟩
  rw [ho]
  exact ⟨c.out, by simp only [State.emit, List.append_assoc, List.cons_append, List.nil_append]⟩

/-! ### The head of a frame -/

theorem State.txHead_down (s : State) (l cyc sub : Nat) (bad : List Nat) (h : s.down = true) : s.txHead l cyc sub bad = s := if_pos h

/-- A line that does not run keeps its mute causes (R214, R215). -/
theorem State.txHead_off (s : State) (l cyc sub : Nat) (bad : List Nat) (hd : s.down = false) (h : s.txOn l = false) :
    let t := s.txHead l cyc sub bad
    (t.ln l).txNext = (s.ln l).txNext ∧ (t.ln l).mute = s.muteCauses l ∧ t.dacZero l = true ∧ (t.lcy l).running = false := by
  intro t
  have e : t = ((s.txQuiet l).setDacZero l true).setMute l (s.muteCauses l) :=
    (if_neg (by rw [hd]; decide)).trans (if_pos (by rw [h]; rfl))
  have hl := State.ln_setMute ((s.txQuiet l).setDacZero l true) l (s.muteCauses l)
  rw [State.ln_setDacZero, State.ln_txQuiet] at hl
  rw [e]
  refine ⟨by rw [hl], by rw [hl], ?_, by rw [State.lcy, hl]⟩
  rw [State.dacZero_congr (State.setMute_pins _ _ _), State.dacZero_setDacZero]

/-- The state in which a frame leaves: what its head settles is settled. -/
def State.txReady (s : State) (l cyc : Nat) : State :=
  (s.txPrepare l).modLn l fun x => { x with headSmp := x.headSmp + 51200, headAt := (s.tick, cyc) }

/-- A running line's head forms a frame and advances the frame number (R35). -/
theorem State.txHead_on (s : State) (l cyc sub : Nat) (bad : List Nat) (hd : s.down = false) (h : s.txOn l = true) :
    s.txHead l cyc sub bad =
      State.modLn (if ((s.txPrepare l).ln l).mute ≠ 0 then ((s.txReady l cyc).setDacZero l true).muteFrame l (s.ln l).txNext
        else ((s.txReady l cyc).setDacZero l false).sendFrame l (s.ln l).txNext ((s.txReady l cyc).timeAt cyc / 65536 + sub) (cyc * 131072 + sub) bad)
        l fun x => { x with txNext := (s.ln l).txNext + 1 } := by
  have hm : ((s.txReady l cyc).ln l).mute = ((s.txPrepare l).ln l).mute := by rw [State.txReady, State.ln_modLn]
  rw [← hm]
  exact (if_neg (by rw [hd]; decide)).trans (if_neg (by rw [h]; decide))

theorem State.txHead_sent (s : State) (l cyc sub : Nat) (bad : List Nat) (hd : s.down = false) (h : s.txOn l = true)
    (hm : ((s.txPrepare l).ln l).mute = 0) : let t := s.txHead l cyc sub bad
    (t.ln l).txNext = (s.ln l).txNext + 1 ∧ t.dacZero l = false ∧ (t.ln l).relocked = false ∧
      ∃ h r, h.take 8 = beBytes 8 (s.ln l).txNext ∧ [Out.txHead l (s.ln l).txNext h, .txSymbols l r] <:+ t.out := by
  intro t
  have e := s.txHead_on l cyc sub bad hd h
  rw [if_neg (not_not.2 hm)] at e
  obtain ⟨hs, hout⟩ := State.sendFrame_leaves ((s.txReady l cyc).setDacZero l false) l (s.ln l).txNext
    ((s.txReady l cyc).timeAt cyc / 65536 + sub) (cyc * 131072 + sub) bad
  simp only [t, e, State.ln_modLn, State.modLn_out]
  refine ⟨trivial, ?_, congrArg Prod.snd hs, hout⟩
  rw [State.dacZero_congr ((State.modLn_pins _ _ _).trans (congrArg Prod.fst hs)), State.dacZero_setDacZero]

theorem State.txHead_muted (s : State) (l cyc sub : Nat) (bad : List Nat) (hd : s.down = false) (h : s.txOn l = true)
    (hm : ((s.txPrepare l).ln l).mute ≠ 0) : let t := s.txHead l cyc sub bad
    (t.ln l).txNext = (s.ln l).txNext + 1 ∧ t.dacZero l = true ∧ (t.lcy l).running = false ∧ (t.lcy l).tag = List.replicate 16 0#8 ∧
      (t.ln l).rails = [] ∧ [Out.txMuted l (s.ln l).txNext] <:+ t.out := by
  intro t
  have e := s.txHead_on l cyc sub bad hd h
  rw [if_pos hm] at e
  obtain ⟨hp, hr, ht, hrails, hout⟩ := State.muteFrame_leaves ((s.txReady l cyc).setDacZero l true) l (s.ln l).txNext
  simp only [State.lcy] at hr ht
  simp only [t, e, State.lcy, State.ln_modLn, State.modLn_out]
  refine ⟨trivial, ?_, hr, ht, hrails, hout⟩
  rw [State.dacZero_congr ((State.modLn_pins _ _ _).trans hp), State.dacZero_setDacZero]

/-! ### The tile clock's relock (R217) -/

theorem State.relockDone_idle (s : State) (l : Nat) (ht : (s.ln l).txRelock = none) (hr : (s.ln l).rxRelock = none) : s.relockDone l = s := by
  refine if_pos ?_
  rw [ht, hr]
  rfl

/-- A new receive rate asks for a calibration pass (R249). -/
def State.relockWant (s : State) (l : Nat) : State := if (s.ln l).rxRelock.isSome then s.modCnv l fun c => { c with want := true } else s

theorem State.relockWant_leaves (s : State) (l : Nat) : ((s.relockWant l).ln l).relocked = (s.ln l).relocked ∧
    ((s.ln l).rxRelock.isSome = true → ((s.relockWant l).ln l).cnv.want = true) ∧ ∀ off, (s.relockWant l).reg off = s.reg off := by
  unfold State.relockWant
  split
  · simp only [State.modCnv, State.ln_modLn, State.reg_modLn, implies_true, and_self]
  next h => exact ⟨rfl, fun hr => absurd hr h, fun _ => rfl⟩

/-- A relock that is done. -/
theorem State.relockDone_eq (s : State) (l : Nat) (h : (s.ln l).txRelock.isSome = true ∨ (s.ln l).rxRelock.isSome = true) :
    s.relockDone l = (s.relockWant l).modLn l fun y => { y with
      txRelock := none, rxRelock := none, relocked := y.relocked || (s.ln l).txRelock.isSome, relockBad := false, tileLock := true } := by
  refine if_neg ?_
  obtain h | h := h <;> simp [Option.isNone_eq_false_iff.2 h]

/-- A relock begun 1,000 ticks ago or more. -/
def State.relockLate (s : State) (t : Option Nat) : Bool := match t with | some t => decide (t + 1000 ≤ s.tick) | none => false

theorem State.relockTimeout_eq (s : State) (l : Nat) : s.relockTimeout l =
    if (s.relockLate (s.ln l).txRelock || s.relockLate (s.ln l).rxRelock) && !(s.ln l).relockBad then
      (({ s with relockFaults := s.relockFaults ++ [(l, s.tick)] } : State).modLn l fun y => { y with relockBad := true }).tileMute l
    else s := rfl

theorem State.relockTimeout_idle (s : State) (l : Nat)
    (h : (s.ln l).relockBad = true ∨ ∀ t0, (s.ln l).txRelock = some t0 ∨ (s.ln l).rxRelock = some t0 → s.tick < t0 + 1000) : s.relockTimeout l = s := by
  rw [s.relockTimeout_eq l]
  obtain h | h := h
  · rw [h, Bool.not_true, Bool.and_false]
    rfl
  · have late (t : Option Nat) (ht : ∀ t0, t = some t0 → s.tick < t0 + 1000) : s.relockLate t = false := by
      cases t with
      | none => rfl
      | some t0 => exact decide_eq_false (by have := ht t0 rfl; omega)
    rw [late _ fun t0 e => h t0 (.inl e), late _ fun t0 e => h t0 (.inr e)]
    rfl

/-- A lost tile mutes its line (R214 bit 4). -/
theorem State.tileMute_leaves (s : State) (l : Nat) : (s.tileMute l).relockFaults = s.relockFaults ∧
    ((s.tileMute l).ln l).relockBad = (s.ln l).relockBad ∧ ((s.tileMute l).ln l).mute = (s.ln l).mute ||| 16 := by
  have hd : (s.dropPlaced l).outer = (s.modLn l fun x => { x with placed := [] }).outer := by
    unfold State.dropPlaced
    have hf := foldl_keeps State.outer _ (fun u c => State.outer_dropMark l u c) (s.ln l).placed s
    generalize (s.ln l).placed.foldl (State.dropMark l) s = u at *
    unfold State.outer State.modLn State.setLn at *
    have hln := State.ln_of_outer hf l
    simp only [Prod.mk.injEq] at hf
    obtain ⟨h1, h2, h3, h4, h5⟩ := hf
    rw [hln]
    split <;> simp only [h1, h2, h3, h4, h5]
  have hl : (s.dropPlaced l).ln l = { s.ln l with placed := [] } := (State.ln_of_outer hd l).trans (s.ln_modLn l _)
  have hm := State.ln_setMute (((s.dropPlaced l).txQuiet l).setDacZero l true) l ((s.ln l).mute ||| 16)
  rw [State.ln_setDacZero, State.ln_txQuiet, hl] at hm
  unfold State.tileMute
  rw [hm]
  refine ⟨?_, rfl, rfl⟩
  rw [State.relockFaults_of_outer (State.outer_setMute _ _ _), State.modLn_relockFaults]
  show ((s.dropPlaced l).txQuiet l).relockFaults = _
  unfold State.txQuiet State.modLcy
  rw [State.modLn_relockFaults, State.modLn_relockFaults, State.relockFaults_of_outer hd, State.modLn_relockFaults]

/-! ### The commands -/

/-- A frame head's command leaves of the pins, the output and its line what its effect leaves. -/
theorem txFrameHead_completes {s : State} (l : Fin 2) (cyc sub : Nat) (bad : List Nat) (h : s.live) {P : State → Prop}
    (hP : ∀ t : State, t.pins = (s.cleared.txHead l cyc sub bad).pins → t.out = (s.cleared.txHead l cyc sub bad).out →
      t.ln l = (s.cleared.txHead l cyc sub bad).ln l → P t) : Completes (.txFrameHead l cyc sub bad) s P :=
  ⟨_, rfl, hP _ (by simp only [s.cmd_frame _ h]) (by simp only [s.cmd_frame _ h]) (s.ln_cmd _ h l)⟩

theorem relockDone_completes {s : State} (l : Fin 2) (h : s.clocked) (hr : (s.ln l).txRelock.isSome = true ∨ (s.ln l).rxRelock.isSome = true) :
    Completes (.relockDone l) s fun t => (t.ln l).txRelock = none ∧ (t.ln l).rxRelock = none ∧ (t.ln l).tileLock = true ∧ (t.ln l).relockBad = false ∧
      (t.ln l).relocked = ((s.ln l).relocked || (s.ln l).txRelock.isSome) ∧ ((s.ln l).rxRelock.isSome = true → (t.cnv l).want = true) ∧
      s.sameRegs t wrapRegs := by
  obtain ⟨hrel, hwant, hreg⟩ := s.cleared.relockWant_leaves l
  have e := s.cleared.relockDone_eq l hr
  have hl := (s.ln_cmd (·.relockDone l) h.1 l).trans ((congrArg (·.ln l) e).trans (State.ln_modLn _ _ _))
  refine completes_run rfl h.2 ⟨by rw [hl], by rw [hl], by rw [hl], by rw [hl], ?_, fun hx => ?_, fun off ho => ?_⟩
  · rw [hl]
    exact congrArg (· || _) hrel
  · rw [State.cnv, hl]
    exact hwant hx
  · rw [s.reg_cmd _ h.1 ho, e, State.reg_modLn, hreg, State.reg_cleared]

theorem relockTimeout_completes {s : State} (l : Fin 2) {t0 : Nat} (h : s.working) (hr : (s.ln l).txRelock = some t0 ∨ (s.ln l).rxRelock = some t0)
    (ht : t0 + 1000 ≤ s.tick) (hb : (s.ln l).relockBad = false) : Completes (.relockTimeout l) s fun t =>
      (t.ln l).relockBad = true ∧ (t.ln l).mute = (s.ln l).mute ||| 16 ∧ t.relockFaults = s.relockFaults ++ [(l.val, s.tick)] := by
  have hlate : s.relockLate (some t0) = true := decide_eq_true ht
  have e := (s.cleared.relockTimeout_eq l).trans (if_pos (by
    show ((s.relockLate (s.ln l).txRelock || s.relockLate (s.ln l).rxRelock) && !(s.ln l).relockBad) = true
    obtain hr | hr := hr <;> rw [hr, hlate, hb] <;> simp))
  obtain ⟨hf, hbad, hm⟩ := State.tileMute_leaves
    (({ s.cleared with relockFaults := s.cleared.relockFaults ++ [(l.val, s.cleared.tick)] } : State).modLn l fun y => { y with relockBad := true }) l
  rw [State.ln_modLn] at hbad hm
  refine completes_live rfl h.2 ⟨?_, ?_, ?_⟩
  · rw [s.ln_cmdTick _ h.1, e, hbad]
  · rw [s.ln_cmdTick _ h.1, e, hm]
    rfl
  · simp only [s.cmdTick_frame _ h.1]
    rw [e, hf, State.modLn_relockFaults]
    rfl

/-- Settles O32: a frame head by what a sent, a muted and an unformed frame leave; a relock by the line state it writes. -/
theorem transmitHeads : Obligations.TransmitHeads := by
  unfold Obligations.TransmitHeads
  intro s l
  refine ⟨fun cyc sub bad h hon => ⟨fun hm => ?_, fun hm => ?_⟩, fun cyc sub bad h hoff => ?_,
    fun cyc sub bad h hd => ⟨_, rfl, s.sameBut_cmd_idle _ h (s.cleared.txHead_down l cyc sub bad hd)⟩, fun h hr => relockDone_completes l h hr,
    fun h ht hr => completes_run rfl h.2 (s.sameBut_cmd_idle _ h.1 (s.cleared.relockDone_idle l ht hr)),
    fun t0 h hr ht hb => relockTimeout_completes l h hr ht hb,
    fun h hn => completes_live rfl h.2 (s.sameBut_cmdTick_idle _ h.1 (s.cleared.relockTimeout_idle l hn))⟩
  · obtain ⟨hn, hz, hr, hout⟩ := s.cleared.txHead_sent l cyc sub bad h.2 hon hm
    exact txFrameHead_completes l cyc sub bad h.1 fun t hp ho hl =>
      ⟨(congrArg Line.txNext hl).trans hn, (State.dacZero_congr hp l).trans hz, (congrArg Line.relocked hl).trans hr, by rw [ho]; exact hout⟩
  · obtain ⟨hn, hz, hr, ht, hrails, hout⟩ := s.cleared.txHead_muted l cyc sub bad h.2 hon hm
    exact txFrameHead_completes l cyc sub bad h.1 fun t hp ho hl =>
      ⟨(congrArg Line.txNext hl).trans hn, (State.dacZero_congr hp l).trans hz, (congrArg (·.lcy.running) hl).trans hr,
        (congrArg (·.lcy.tag) hl).trans ht, (congrArg Line.rails hl).trans hrails, by rw [ho]; exact hout⟩
  · obtain ⟨hn, hm, hz, hr⟩ := s.cleared.txHead_off l cyc sub bad h.2 hoff
    exact txFrameHead_completes l cyc sub bad h.1 fun t hp _ hl =>
      ⟨(congrArg Line.txNext hl).trans hn, (congrArg Line.mute hl).trans hm, (State.dacZero_congr hp l).trans hz,
        (congrArg (·.lcy.running) hl).trans hr⟩

end Sys2Proof.Machine
end

section
/-! SUPPORT. What waits for the boundary; die-to-die training (R303, R304). -/

namespace Sys2Proof.Machine

open Sys2Proof

/-! ### What waits for the boundary (R31) -/

theorem State.nextFld_congr {s t : State} (f : Fr) (hq : t.pubQ = s.pubQ) (hr : t.reg f.off = s.reg f.off) : t.nextFld f = s.nextFld f := by
  unfold State.nextFld
  rw [hq, State.fld_congr s t f hr]

theorem State.nextFld_setFld_ne (s : State) {f g : Fr} (v : Nat) (h : f.off ≠ g.off) : (s.setFld f v).nextFld g = s.nextFld g :=
  State.nextFld_congr g (by simp only [State.setFld_frame]) (s.reg_setFld_ne v h)

theorem State.nextFld_raiseAt_ne (s : State) (f g : Fr) (i : Nat) (h : g.off ≠ f.off) (h2 : g.off ≠ Reg.FLT_EVENT) :
    (s.raiseAt f i).nextFld g = s.nextFld g :=
  State.nextFld_congr g (by simp only [State.raiseAt_frame]) (s.reg_raiseAt_ne f i h h2)

@[simp] theorem State.reg_publish (s : State) (f : Fr) (v off : Nat) : (s.publish f v).reg off = s.reg off := rfl

theorem State.logRepair_pubQ (s : State) (src kind st : Nat) (loc : List Byte) : (s.logRepair src kind st loc).pubQ = s.pubQ :=
  (s.queueRec_frame 0x0009 1 src _).2.2.1

theorem State.reg_logRepair_ne (s : State) (src kind st : Nat) (loc : List Byte) {off : Nat} (h : off ≠ Reg.FLT_EVENT) :
    (s.logRepair src kind st loc).reg off = s.reg off := s.reg_queueRec_ne 0x0009 1 src _ h

theorem State.nextFld_logRepair (s : State) (src kind st : Nat) (loc : List Byte) (g : Fr) (h : g.off ≠ Reg.FLT_EVENT) :
    (s.logRepair src kind st loc).nextFld g = s.nextFld g :=
  State.nextFld_congr g (s.logRepair_pubQ _ _ _ _) (s.reg_logRepair_ne _ _ _ _ h)

/-- A fold keeps what each of its steps over the list's members keeps. -/
theorem foldl_keeps_mem {σ α β : Type} (p : σ → β) (f : σ → α → σ) (xs : List α) (hf : ∀ s, ∀ a ∈ xs, p (f s a) = p s) (s : σ) :
    p (xs.foldl f s) = p s := by
  induction xs generalizing s with
  | nil => rfl
  | cons x xs ih => exact (ih (fun s a ha => hf s a (List.mem_cons_of_mem x ha)) _).trans (hf s x List.mem_cons_self)

/-! ### Lanes -/

/-- Only their own field shows lanes' states. -/
theorem State.laneState_publish_ne (s : State) (f : Fr) (v k : Nat) (h : f ≠ Reg.D2D_LANE.STATE k) : (s.publish f v).laneState k = s.laneState k :=
  s.nextFld_publish_ne v h

theorem State.laneState_raiseAt (s : State) (f : Fr) (i k : Nat) (h : Reg.D2D_LANE k ≠ f.off) : (s.raiseAt f i).laneState k = s.laneState k :=
  s.nextFld_raiseAt_ne f _ i h (by simp only [Reg.D2D_LANE, Reg.FLT_EVENT]; omega)

theorem State.laneState_congr {s t : State} (k : Nat) (hq : t.pubQ = s.pubQ) (hr : t.reg (Reg.D2D_LANE k) = s.reg (Reg.D2D_LANE k)) :
    t.laneState k = s.laneState k := State.nextFld_congr _ hq hr

theorem laneState_injective {j k : Nat} (h : Reg.D2D_LANE.STATE j = Reg.D2D_LANE.STATE k) : j = k := by
  simp only [Reg.D2D_LANE.STATE, Reg.D2D_LANE, Fr.mk.injEq] at h
  omega

/-- A lane that failed the check is recorded as failed. -/
def State.laneLost (s : State) (k : Nat) : State := ((s.publish (Reg.D2D_LANE.STATE k) 3).raiseAt Reg.D2D_EVENT.LANE_FAILED k).logLane k 2

theorem State.laneState_laneLost (s : State) (j k : Nat) : (s.laneLost j).laneState k = if k = j then 3 else s.laneState k := by
  have hf : Reg.D2D_LANE k ≠ Reg.FLT_EVENT := by simp only [Reg.D2D_LANE, Reg.FLT_EVENT]; omega
  have he : Reg.D2D_LANE k ≠ Reg.D2D_EVENT := by simp only [Reg.D2D_LANE, Reg.D2D_EVENT]; omega
  have h : (s.laneLost j).laneState k = (s.publish (Reg.D2D_LANE.STATE j) 3).laneState k :=
    (State.nextFld_logRepair _ _ _ _ _ _ hf).trans (State.laneState_raiseAt _ _ _ _ he)
  rw [h]
  split
  next hk => rw [hk]; exact s.nextFld_publish _ _
  next hk => exact s.laneState_publish_ne _ _ _ fun e => hk (laneState_injective e).symm

theorem State.reg_laneLost_ne (s : State) (k : Nat) {off : Nat} (h : off ≠ Reg.D2D_EVENT) (h2 : off ≠ Reg.FLT_EVENT) :
    (s.laneLost k).reg off = s.reg off :=
  (State.reg_logRepair_ne _ _ _ _ _ h2).trans (State.reg_raiseAt_ne _ _ _ h h2)

theorem State.laneState_lanesLost (ks : List Nat) (s : State) (k : Nat) :
    (ks.foldl State.laneLost s).laneState k = if k ∈ ks then 3 else s.laneState k := by
  induction ks generalizing s with
  | nil => rfl
  | cons j ks ih =>
    rw [List.foldl_cons, ih, State.laneState_laneLost]
    by_cases hk : k ∈ ks
    · rw [if_pos hk, if_pos (List.mem_cons_of_mem j hk)]
    · by_cases hj : k = j
      · rw [if_neg hk, if_pos hj, if_pos (hj ▸ List.mem_cons_self)]
      · rw [if_neg hk, if_neg hj, if_neg (by simp [hk, hj])]

/-! ### One group -/

/-- The lanes of a group that its training finds good: neither bad nor suspect nor failed. -/
def State.goodLanes (s : State) (base : Nat) (bad : List Nat) : List Nat :=
  ((List.range 66).map (base + ·)).filter fun k => !bad.contains (lanePhys k) && s.laneState k != 2 && s.laneState k != 3

/-- The lanes of a group that fail in its training. -/
def State.badLanes (s : State) (base : Nat) (bad : List Nat) : List Nat :=
  ((List.range 66).map (base + ·)).filter fun k => bad.contains (lanePhys k) && s.laneState k != 3

/-- After the bad lanes have failed, those neither failed nor suspect before are the good ones. -/
theorem State.goodLanes_eq (s : State) (base : Nat) (bad : List Nat) :
    (((List.range 66).map (base + ·)).filter fun k => ((s.badLanes base bad).foldl State.laneLost s).laneState k != 3 &&
      !(((List.range 66).map (base + ·)).filter fun k => s.laneState k == 2 && !bad.contains (lanePhys k)).contains k) = s.goodLanes base bad := by
  refine List.filter_congr fun k hk => ?_
  have hb : k ∈ s.badLanes base bad ↔ (bad.contains (lanePhys k) && s.laneState k != 3) = true := by
    rw [State.badLanes, List.mem_filter, and_iff_right hk]
  have hs : (((List.range 66).map (base + ·)).filter fun k => s.laneState k == 2 && !bad.contains (lanePhys k)).contains k =
      (s.laneState k == 2 && !bad.contains (lanePhys k)) := by
    rw [Bool.eq_iff_iff, List.contains_iff_mem, List.mem_filter, and_iff_right hk]
  rw [State.laneState_lanesLost, hs]
  simp only [hb]
  cases bad.contains (lanePhys k)
  · cases h2 : s.laneState k == 2 <;> simp [bne, h2]
  · by_cases h3 : s.laneState k = 3 <;> simp [h3]

theorem State.trainGroup_trains (s : State) (base : Nat) (bad : List Nat) (stale : Bool) :
    (s.trainGroup base bad stale).2 = decide (64 ≤ (s.goodLanes base bad).length) := by
  have h : (s.trainGroup base bad stale).2 = decide (64 ≤ ((s.goodLanes base bad).take 64).length) := by
    rw [← s.goodLanes_eq base bad]
    rfl
  rw [h, List.length_take]
  exact decide_eq_decide.2 (by omega)

/-- What training one group keeps: the registers beside the events, and the states of the other groups' lanes. -/
theorem State.trainGroup_keeps {β : Type} (p : State → β) (s : State) (base : Nat) (bad : List Nat) (stale : Bool)
    (hl : ∀ u, ∀ k ∈ s.badLanes base bad, p (u.laneLost k) = p u)
    (hp : ∀ u f v, ∀ k ∈ (List.range 66).map (base + ·), f.off = Reg.D2D_LANE k → p (u.publish f v) = p u)
    (hd : ∀ u x, p ({ u with d2d := x } : State) = p u) (hs : ∀ u j x, p (State.setSub u j x) = p u) (hm : ∀ u j f, p (State.modSnd u j f) = p u) :
    p (s.trainGroup base bad stale).1 = p s := by
  unfold State.trainGroup
  extract_lets ks failed sus a good act b c e src y x
  have ha : p a = p s := foldl_keeps_mem p State.laneLost failed hl s
  have hgood : ∀ k ∈ good, k ∈ ks := fun k hk => List.mem_of_mem_filter hk
  have hb : p b = p a := by
    refine foldl_keeps_mem p _ _ (fun u k hk => ?_) a
    have hk' : k ∈ ks := (List.mem_append.1 hk).elim (fun h => hgood k (List.mem_of_mem_drop h)) fun h => List.mem_of_mem_filter h
    exact (hp _ _ _ k hk' rfl).trans (hp _ _ _ k hk' rfl)
  have hc : p c = p b := by
    refine foldl_keeps_mem p _ _ (fun u q hq => ?_) b
    have hk' : q.1 ∈ ks := hgood _ (List.mem_of_mem_take (List.fst_mem_of_mem_zipIdx hq))
    exact (hp _ _ _ q.1 hk' rfl).trans (hp _ _ _ q.1 hk' rfl)
  have he : p e = p c := foldl_keeps_mem p _ _ (fun u k hk => (hp _ _ _ k hk rfl).trans (hp _ _ _ k hk rfl)) c
  have hy : p y = p e := hd e _
  have hx : p x = p y := by
    refine foldl_keeps p _ (fun u q => ?_) _ _
    exact (hm _ _ _).trans (hs u _ _)
  exact hx.trans (hy.trans <| he.trans (hc.trans (hb.trans ha)))

theorem State.reg_trainGroup_ne (s : State) (base : Nat) (bad : List Nat) (stale : Bool) {off : Nat} (h : off ≠ Reg.D2D_EVENT)
    (h2 : off ≠ Reg.FLT_EVENT) : (s.trainGroup base bad stale).1.reg off = s.reg off :=
  State.trainGroup_keeps (·.reg off) s base bad stale (fun u k _ => u.reg_laneLost_ne k h h2) (fun _ _ _ _ _ _ => rfl) (fun _ _ => rfl) (fun _ _ _ => rfl) fun _ _ _ => rfl

theorem State.laneState_trainGroup_ne (s : State) (base : Nat) (bad : List Nat) (stale : Bool) {k : Nat} (h : k ∉ (List.range 66).map (base + ·)) :
    (s.trainGroup base bad stale).1.laneState k = s.laneState k := by
  have hne {j : Nat} (hj : j ∈ (List.range 66).map (base + ·)) : k ≠ j := fun e => h (e ▸ hj)
  refine State.trainGroup_keeps (·.laneState k) s base bad stale (fun u j hj => ?_) (fun u f v j hj hf => ?_) (fun _ _ => rfl) (fun _ _ _ => rfl)
    fun _ _ _ => rfl
  · show (u.laneLost j).laneState k = u.laneState k
    rw [State.laneState_laneLost, if_neg (hne (List.mem_of_mem_filter hj))]
  · refine u.laneState_publish_ne f v k fun e => hne hj ?_
    have : Reg.D2D_LANE k = Reg.D2D_LANE j := hf ▸ congrArg Fr.off e.symm
    simp only [Reg.D2D_LANE] at this
    omega

theorem State.goodLanes_congr {s t : State} (base : Nat) (bad : List Nat) (h : ∀ k ∈ (List.range 66).map (base + ·), t.laneState k = s.laneState k) :
    t.goodLanes base bad = s.goodLanes base bad := List.filter_congr fun k hk => by rw [h k hk]

/-! ### The four groups of a direction -/

theorem laneIdx_group {t r g h k : Nat} (hg : k ∈ (List.range 66).map (laneIdx t r g 0 + ·)) (hh : k ∈ (List.range 66).map (laneIdx t r h 0 + ·)) : g = h := by
  simp only [List.mem_map, List.mem_range, laneIdx] at hg hh
  obtain ⟨i, hi, rfl⟩ := hg
  obtain ⟨j, hj, e⟩ := hh
  omega

theorem State.trainGroups_train (t r : Nat) (bad : List (List Nat)) (stale : Bool) (gs : List Nat) (hn : gs.Nodup) (a : State × Bool) :
    (gs.foldl (State.trainNext t r bad stale) a).2 =
      (a.2 && gs.all fun g => decide (64 ≤ (a.1.goodLanes (laneIdx t r g 0) (bad.getD g [])).length)) := by
  induction gs generalizing a with
  | nil => simp
  | cons g gs ih =>
    obtain ⟨hg, hn⟩ := List.nodup_cons.1 hn
    have hall : (gs.all fun h => decide (64 ≤ ((State.trainNext t r bad stale a g).1.goodLanes (laneIdx t r h 0) (bad.getD h [])).length)) =
        gs.all fun h => decide (64 ≤ (a.1.goodLanes (laneIdx t r h 0) (bad.getD h [])).length) := by
      rw [Bool.eq_iff_iff, List.all_eq_true, List.all_eq_true]
      refine forall₂_congr fun h hh => ?_
      have hne : ∀ k ∈ (List.range 66).map (laneIdx t r h 0 + ·), k ∉ (List.range 66).map (laneIdx t r g 0 + ·) := fun k hk hk' => by
        have e : g = h := laneIdx_group hk' hk
        exact hg (e ▸ hh)
      have hk : ∀ k ∈ (List.range 66).map (laneIdx t r h 0 + ·), (State.trainNext t r bad stale a g).1.laneState k = a.1.laneState k := fun k hk =>
        a.1.laneState_trainGroup_ne (laneIdx t r g 0) (bad.getD g []) stale (hne k hk)
      rw [State.goodLanes_congr _ _ hk]
    rw [List.foldl_cons, ih hn, hall, List.all_cons, ← Bool.and_assoc]
    exact congrArg (· && _) (congrArg (a.2 && ·) (State.trainGroup_trains ..))

theorem State.reg_trainNext_ne (t r : Nat) (bad : List (List Nat)) (stale : Bool) (a : State × Bool) (g : Nat) {off : Nat}
    (h : off ≠ Reg.D2D_EVENT) (h2 : off ≠ Reg.FLT_EVENT) : (State.trainNext t r bad stale a g).1.reg off = a.1.reg off :=
  a.1.reg_trainGroup_ne (laneIdx t r g 0) (bad.getD g []) stale h h2

theorem State.reg_trainGroups_ne (t r : Nat) (bad : List (List Nat)) (stale : Bool) (gs : List Nat) (a : State × Bool) {off : Nat}
    (h : off ≠ Reg.D2D_EVENT) (h2 : off ≠ Reg.FLT_EVENT) : (gs.foldl (State.trainNext t r bad stale) a).1.reg off = a.1.reg off :=
  foldl_keeps (fun a : State × Bool => a.1.reg off) _ (fun a g => State.reg_trainNext_ne t r bad stale a g h h2) gs a

/-! ### The spare pool, a direction's stop -/

theorem State.reg_d2dPool_ne (s : State) {off : Nat} (h : off ≠ Reg.D2D_EVENT) (h2 : off ≠ Reg.FLT_EVENT) : s.d2dPool.reg off = s.reg off := by
  unfold State.d2dPool
  extract_lets p t u
  clear_value p
  split
  · rfl
  · split
    · rfl
    · exact State.reg_raise_ne _ _ h h2

theorem State.laneState_d2dPool (s : State) (k : Nat) : s.d2dPool.laneState k = s.laneState k := by
  have hf {f : Fr} (h : f.off = Reg.D2D_STATUS) : f ≠ Reg.D2D_LANE.STATE k := by
    rintro rfl
    simp only [Reg.D2D_LANE, Reg.D2D_STATUS] at h
    omega
  have he : Reg.D2D_LANE k ≠ Reg.D2D_EVENT := by simp only [Reg.D2D_LANE, Reg.D2D_EVENT]; omega
  unfold State.d2dPool
  extract_lets p t u
  clear_value p
  have ht : t.laneState k = s.laneState k := s.laneState_publish_ne _ _ _ (hf rfl)
  split
  · exact ht
  · split
    · exact ht
    · exact (State.laneState_raiseAt (t.publish _ 1) _ 0 k he).trans ((t.laneState_publish_ne _ _ _ (hf rfl)).trans ht)

theorem State.reg_subDown (s : State) (off : Nat) : s.subDown.reg off = s.reg off := rfl

theorem State.reg_linkStop_ne (s : State) (d : Nat) {off : Nat} (h : off ≠ Reg.D2D_STATUS) (h2 : off ≠ Reg.D2D_EVENT) (h3 : off ≠ Reg.FLT_EVENT)
    (hs : ∀ i < 16, off ≠ Reg.D2D_SUB (16 * d + i)) : (s.linkStop d).reg off = s.reg off := by
  unfold State.linkStop
  extract_lets a src b
  have ha : a.reg off = s.reg off := s.reg_setFld_ne 0 h.symm
  clear_value a
  have hb : b.reg off = s.reg off := (State.reg_congr a b rfl off).trans ha
  clear_value b
  refine (State.reg_d2dPool_ne _ h2 h3).trans (Eq.trans (foldl_keeps_mem (State.reg · off) _ _ (fun u i hi => ?_) b) hb)
  have hn := (hs i (List.mem_range.1 hi)).symm
  exact (State.reg_setFld_ne _ 0 hn).trans (u.reg_setFld_ne 0 hn)

theorem State.laneState_linkStop (s : State) (d k : Nat) (hd : d < 4) : (s.linkStop d).laneState k = s.laneState k := by
  unfold State.linkStop
  extract_lets a src b
  have ha : a.laneState k = s.laneState k := s.nextFld_setFld_ne 0 (by simp only [Reg.D2D_LANE, Reg.D2D_STATUS]; omega)
  clear_value a
  have hb : b.laneState k = s.laneState k := (State.laneState_congr (s := a) (t := b) k rfl (State.reg_congr a b rfl _)).trans ha
  clear_value b
  refine (State.laneState_d2dPool _ k).trans (Eq.trans (foldl_keeps_mem (State.laneState · k) _ _ (fun u i hi => ?_) b) hb)
  have hn : Reg.D2D_SUB (16 * d + i) ≠ Reg.D2D_LANE k := by
    have := List.mem_range.1 hi
    simp only [Reg.D2D_SUB, Reg.D2D_LANE]
    omega
  exact (State.nextFld_setFld_ne _ 0 hn).trans (u.nextFld_setFld_ne 0 hn)

/-- The bit that shows a direction in flit mode. -/
theorem State.trained_eq (s : State) {d : Nat} (hd : d < 4) : s.trained d = (s.reg Reg.D2D_STATUS).toNat.testBit d := by
  unfold State.trained State.fld
  rw [testBit_getBits, decide_eq_true (by simpa using hd), Bool.true_and, Nat.zero_add]

theorem State.trained_setFld (s : State) {d : Nat} (v : Nat) (hd : d < 4) : (s.setFld ⟨Reg.D2D_STATUS, d, d⟩ v).trained d = v.testBit 0 := by
  rw [State.trained_eq _ hd, State.setFld, State.reg_setReg_self, testBit_setBits _ _ _ _ _ le_rfl (show d < 32 by omega), if_pos ⟨le_rfl, le_rfl⟩, Nat.sub_self]

theorem State.trained_congr {s t : State} (d : Nat) (h : t.reg Reg.D2D_STATUS = s.reg Reg.D2D_STATUS) : t.trained d = s.trained d := by
  unfold State.trained
  rw [State.fld_congr s t _ h]

theorem State.trained_linkStop (s : State) {d : Nat} (hd : d < 4) : (s.linkStop d).trained d = false := by
  unfold State.linkStop
  extract_lets a src b
  have ha : a.trained d = false := s.trained_setFld 0 hd
  clear_value a
  have hb : b.trained d = false := (State.trained_congr (s := a) (t := b) d (State.reg_congr a b rfl _)).trans ha
  clear_value b
  refine (State.trained_congr d ((State.reg_d2dPool_ne _ (by decide) (by decide)).trans ?_)).trans hb
  refine foldl_keeps (State.reg · Reg.D2D_STATUS) _ (fun u i => ?_) _ b
  have hn : Reg.D2D_SUB (16 * d + i) ≠ Reg.D2D_STATUS := by simp only [Reg.D2D_SUB, Reg.D2D_STATUS]; omega
  exact (State.reg_setFld_ne _ 0 hn).trans (u.reg_setFld_ne 0 hn)

/-! ### A direction's training -/

theorem State.reg_trainNote (s : State) (t r off : Nat) : (s.trainNote t r).reg off = s.reg off := by
  unfold State.trainNote
  extract_lets d a b
  split
  · rfl
  · exact State.reg_modLn _ _ _ _

theorem State.trainUp_shows (s : State) {d : Nat} (f : Nat) (hd : d < 4) :
    (s.trainUp d f).trained d = true ∧ (s.trainUp d f).fld (Reg.D2D_LAT.L d) = min 14 f + 56 := by
  unfold State.trainUp
  extract_lets a
  have hk (off : Nat) (h : off < Reg.D2D_SUB 0) : ((List.range 16).foldl (fun s i =>
      (s.setFld (Reg.D2D_SUB.UP (16 * d + i)) 1).setFld (Reg.D2D_SUB.EPOCH (16 * d + i)) 0) a).subDown.reg off = a.reg off := by
    refine (State.reg_subDown _ off).trans (foldl_keeps (State.reg · off) _ (fun u i => ?_) _ a)
    have hn : Reg.D2D_SUB (16 * d + i) ≠ off := by simp only [Reg.D2D_SUB] at h ⊢; omega
    exact (State.reg_setFld_ne _ 0 hn).trans (u.reg_setFld_ne 1 hn)
  constructor
  · refine (State.trained_congr d (hk _ (by decide))).trans ((State.trained_congr d (State.reg_setFld_ne _ _ ?_)).trans (s.trained_setFld 1 hd))
    simp only [Reg.D2D_LAT, Reg.D2D_STATUS]; omega
  · rw [State.fld_congr a _ _ (hk _ (by simp only [Reg.D2D_LAT, Reg.D2D_SUB]; omega)), State.fld_setFld _ _ _ (show 0 ≤ 6 by decide) (show 6 < 32 by decide)]
    exact Nat.mod_eq_of_lt (by simp only [Nat.reduceAdd, Nat.reduceSub, Nat.reducePow]; omega)

/-- Whether training finds 64 good lanes in every group of a direction. -/
def State.groupsGood (s : State) (d : Nat) (bad : List (List Nat)) : Bool :=
  (List.range 4).all fun g => decide (64 ≤ (s.goodLanes (laneIdx (d / 2) (d % 2) g 0) (bad.getD g [])).length)

/-- The state that a direction's four groups leave. -/
def State.groupsDone (s : State) (d : Nat) (bad : List (List Nat)) : State :=
  ((List.range 4).foldl (State.trainNext (d / 2) (d % 2) bad (s.setStale (2 * (d / 2) + d % 2))) (s.linkStop (2 * (d / 2) + d % 2), true)).1.trainNote (d / 2) (d % 2)

theorem State.trainDir_eq (s : State) {d : Nat} (bad : List (List Nat)) (f : Nat) (hd : d < 4) : s.trainDir (d / 2) (d % 2) bad f =
    if s.groupsGood d bad then (((s.groupsDone d bad).trainUp d f).d2dPool, true)
    else (((s.groupsDone d bad).d2dPool.raiseOwn Reg.D2D_EVENT.TRAIN_FAIL).queueRec 0x000A 2 10 [BitVec.ofNat 8 (d / 2), 2#8], false) := by
  have hdd : 2 * (d / 2) + d % 2 = d := Nat.div_add_mod d 2
  have hg : ((List.range 4).foldl (State.trainNext (d / 2) (d % 2) bad (s.setStale (2 * (d / 2) + d % 2)))
      (s.linkStop (2 * (d / 2) + d % 2), true)).2 = s.groupsGood d bad := by
    rw [State.trainGroups_train _ _ _ _ _ List.nodup_range, Bool.true_and, State.groupsGood, Bool.eq_iff_iff, List.all_eq_true, List.all_eq_true]
    refine forall₂_congr fun g _ => ?_
    rw [State.goodLanes_congr (s := s) _ _ fun k _ => s.laneState_linkStop _ k (by omega)]
  unfold State.trainDir
  extract_lets n res t
  rw [show res.2 = s.groupsGood d bad from hg, show n = d from hdd]
  rfl

theorem State.groupsDone_stopped (s : State) {d : Nat} (bad : List (List Nat)) (hd : d < 4) : (s.groupsDone d bad).trained d = false := by
  have h := s.trained_linkStop hd
  rw [← Nat.div_add_mod d 2] at h
  exact (State.trained_congr d ((State.reg_trainNote _ _ _ _).trans (State.reg_trainGroups_ne _ _ _ _ _ _ (by decide) (by decide)))).trans
    (by rw [← h, Nat.div_add_mod])

/-- A direction with 64 good lanes in every group is in flit mode, and its L is fixed. -/
theorem State.trainDir_trains (s : State) {d : Nat} (bad : List (List Nat)) (f : Nat) (hd : d < 4) (h : s.groupsGood d bad = true) :
    (s.trainDir (d / 2) (d % 2) bad f).2 = true ∧ (s.trainDir (d / 2) (d % 2) bad f).1.trained d = true ∧
      (s.trainDir (d / 2) (d % 2) bad f).1.fld (Reg.D2D_LAT.L d) = min 14 f + 56 := by
  obtain ⟨ht, hl⟩ := (s.groupsDone d bad).trainUp_shows f hd
  rw [s.trainDir_eq bad f hd, if_pos h]
  refine ⟨rfl, (State.trained_congr d (State.reg_d2dPool_ne _ (by decide) (by decide))).trans ht, ?_⟩
  rw [State.fld_congr _ _ _ (State.reg_d2dPool_ne _ ?_ ?_), hl]
  · simp only [Reg.D2D_LAT, Reg.D2D_EVENT]; omega
  · simp only [Reg.D2D_LAT, Reg.FLT_EVENT]; omega

/-- A direction with a group short of good lanes is not in flit mode. -/
theorem State.trainDir_fails (s : State) {d : Nat} (bad : List (List Nat)) (f : Nat) (hd : d < 4) (h : s.groupsGood d bad = false) :
    (s.trainDir (d / 2) (d % 2) bad f).2 = false ∧ (s.trainDir (d / 2) (d % 2) bad f).1.trained d = false := by
  rw [s.trainDir_eq bad f hd, if_neg (Bool.eq_false_iff.1 h)]
  exact ⟨rfl, (State.trained_congr d ((State.reg_queueRec_ne _ _ _ _ _ (by decide)).trans ((State.reg_raiseOwn_ne _ _ (by decide)).trans
    (State.reg_d2dPool_ne _ (by decide) (by decide))))).trans (s.groupsDone_stopped bad hd)⟩

end Sys2Proof.Machine
end

section
/-! SUPPORT. Phase 8's bits; what the converters' registers and the lines keep; line engines start and stop (R45, R225, R226, R303, R304). -/

namespace Sys2Proof.Machine

open Sys2Proof

/-! ### Phase 8 (R440-R443) -/

/-- A message writes the pending bits or sends. -/
theorem State.reg_msix_ne (s : State) (v : Nat) {off : Nat} (h : off ≠ Reg.MSIX_PBA (v / 32)) : (s.msix v).reg off = s.reg off := by
  unfold State.msix
  split
  · rfl
  · split
    · exact s.reg_setFld_ne 1 h.symm
    · rfl

theorem State.reg_blockMsgs_ne (s : State) {off : Nat} (h : off ≠ Reg.MSIX_PBA 0) : s.blockMsgs.reg off = s.reg off := by
  have hv : ∀ v ∈ blockVectors, v / 32 = 0 := by decide
  refine foldl_keeps_mem (State.reg · off) State.blockMsg blockVectors (fun u v hm => ?_) s
  show (u.blockMsg v).reg off = u.reg off
  unfold State.blockMsg
  split
  · exact State.reg_msix_ne _ v (by rwa [hv v hm])
  · rfl

theorem State.bit_degradePool_mono (s : State) (p : Nat × Nat) (g : Fr) (hl : g.lo = g.hi) (hg : s.bit g = true) : (s.degradePool p).bit g = true := by
  unfold State.degradePool
  extract_lets a b src c src2
  have ha : a.bit g = true := State.bit_setFld_one_mono _ _ _ g hl (s.bit_setFld_mono _ g rfl (by decide) hg hl)
  have hb : b.bit g = true := State.bit_queueRec _ _ _ _ _ g hl (State.bit_assertService_mono _ g hl (a.bit_raiseOwn_mono _ g rfl (by decide) hl ha))
  have hc : c.bit g = b.bit g := by
    by_cases h7 : b.fld Reg.GLB_HOST_STATUS.BOOT_STEP = 7
    · rw [show c = _ from if_pos h7]; rfl
    · rw [show c = _ from if_neg h7]; rfl
  exact Eq.trans hc hb

/-- Phase 8 leaves the bits of FLT_STATUS that are 1, beside the one that shows FAULT_N. -/
theorem State.bit_phase8_mono (s : State) (i : Nat) (hi : i ≠ 6) (hg : s.bit ⟨Reg.FLT_STATUS, i, i⟩ = true) :
    s.phase8.bit ⟨Reg.FLT_STATUS, i, i⟩ = true := by
  unfold State.phase8
  extract_lets a b
  have ha : a.bit ⟨Reg.FLT_STATUS, i, i⟩ = true :=
    State.bit_foldl _ _ (fun u p hu => u.bit_degradePool_mono p _ rfl hu) s.poolQ { s with poolQ := [] } hg
  have hb : b.bit ⟨Reg.FLT_STATUS, i, i⟩ = true := by
    by_cases hs : a.serviceDue = true
    · rw [show b = _ from if_pos hs]; exact a.bit_assertService_mono _ rfl ha
    · rw [show b = a from if_neg hs]; exact ha
  clear_value b
  have hm : b.aggregate.blockMsgs.refreshPage.reg Reg.FLT_STATUS = b.aggregate.reg Reg.FLT_STATUS := b.aggregate.reg_blockMsgs_ne (by decide)
  refine (State.bit_congr _ _ _ hm).trans ?_
  unfold State.aggregate
  extract_lets v c e
  have he : e.reg Reg.FLT_STATUS = b.reg Reg.FLT_STATUS := c.reg_setReg_ne _ (by decide)
  have hn : Reg.FLT_STATUS.FAULT.hi < i ∨ i < Reg.FLT_STATUS.FAULT.lo := by simp only; omega
  rw [State.bit_eq, State.fld_setFld_ne _ _ _ _ (by decide) (by decide) (Or.inr hn), ← State.bit_eq, State.bit_congr _ _ _ he, hb]

/-- A held line is shown on after the command. -/
theorem State.bit_cmdTick_status (s : State) (f : State → State) (h : s.ticking) (i : Nat) (hi : i ≠ 6)
    (hg : (f s.cleared).bit ⟨Reg.FLT_STATUS, i, i⟩ = true) : (s.cmdTick f).bit ⟨Reg.FLT_STATUS, i, i⟩ = true := by
  rw [State.cmdTick_ticking s f h]
  have hw : Reg.FLT_STATUS ≠ Reg.PMC_WRAP_LOG := by decide
  exact State.bit_wraps _ _ rfl hw (State.bit_phase8_mono _ i hi (State.bit_wraps _ _ rfl hw hg))

/-! ### The Rime ports' registers -/

/-- The registers that cutting a Rime packet writes. -/
def cutRegs : List Nat := [Reg.RIM_STATUS, Reg.RIM_EVENT, Reg.RIM_TRACE_CTL, Reg.FLT_EVENT]

section Cut

variable {off : Nat} (h : off ∉ cutRegs)
include h

theorem State.reg_rimShow_ne (s : State) (k : Nat) : (s.rimShow k).reg off = s.reg off := by
  have hs : Reg.RIM_STATUS ≠ off := fun e => h (e ▸ List.mem_cons_self)
  unfold State.rimShow rimDepthFld rimSendFld
  split <;> exact (State.reg_setFld_ne _ _ hs).trans (State.reg_setFld_ne _ _ hs)

omit h in
theorem State.reg_setRp (s : State) (k : Nat) (x : RimePort) : (s.setRp k x).reg off = s.reg off := by
  unfold State.setRp
  split <;> rfl

theorem State.reg_rimRaise_ne (s : State) (f : Fr) (hf : f.off = Reg.RIM_EVENT) : (s.raise f).reg off = s.reg off := by
  simp only [cutRegs, List.mem_cons, List.not_mem_nil, or_false, not_or] at h
  exact s.reg_raise_ne f (hf ▸ h.2.1) h.2.2.2

theorem State.reg_rimLost_ne (s : State) (p : RimePkt) : (s.rimLost p).reg off = s.reg off := by
  refine (State.reg_rimRaise_ne h _ _ rfl).trans ?_
  simp only [cutRegs, List.mem_cons, List.not_mem_nil, or_false, not_or] at h
  unfold State.rimTraceSent
  split
  · exact s.reg_setFld_ne _ (Ne.symm h.2.2.1)
  · rfl

theorem State.reg_rimQueue_ne (s : State) (k : Nat) (p : RimePkt) : (s.rimQueue k p).reg off = s.reg off := by
  unfold State.rimQueue
  extract_lets x y t
  rw [State.reg_rimShow_ne h]
  dsimp only [t]
  split
  · exact s.reg_setRp k _
  · split
    · split
      · split <;> exact (State.reg_rimLost_ne h _ _).trans (s.reg_setRp k _)
      · exact s.reg_rimLost_ne h p
    · exact s.reg_rimLost_ne h p

theorem State.reg_rimEnd_ne (s : State) (k : Nat) : (s.rimEnd k).reg off = s.reg off := by
  unfold State.rimEnd State.rimLeave
  rw [State.reg_rimShow_ne h, State.reg_setRp, State.reg_count]

theorem State.reg_rimCut_ne (s : State) (k : Nat) : (s.rimCut k).reg off = s.reg off := by
  have cut (c : Nat) : (((s.rimEnd k).rimCount k c 1).raise Reg.RIM_EVENT.TX_CUT).reg off = s.reg off := by
    rw [State.reg_rimRaise_ne h _ _ rfl, State.rimCount, State.reg_count, State.reg_rimEnd_ne h]
  unfold State.rimCut
  extract_lets x
  split
  · rfl
  · split
    · split
      · exact cut _
      · exact (State.reg_rimQueue_ne h _ _ _).trans (cut _)
    · rfl

theorem State.reg_setMute_ne (s : State) (l m : Nat) : (s.setMute l m).reg off = s.reg off := by
  unfold State.setMute
  extract_lets old t
  have ht : t.reg off = s.reg off := s.reg_modLn l _ off
  split
  · rw [State.reg_rimCut_ne h, State.reg_rimCut_ne h, State.reg_raiseDp, ht]
  · split
    · rw [State.reg_raiseDp, ht]
    · exact ht

end Cut

/-! ### What the converters decide

Roles, taps, working values and status wait for the boundary; a line's converter state holds the rest. -/

@[simp] theorem State.reg_modCnv (s : State) (l : Nat) (f : CnvSt → CnvSt) (off : Nat) : (s.modCnv l f).reg off = s.reg off := s.reg_modLn l _ off

section Decided

variable {β : Type} (p : State → β) (hp : ∀ u f v, p (State.publish u f v) = p u) (hc : ∀ u l f, p (State.modCnv u l f) = p u)
include hp hc

theorem State.setRole_keeps (s : State) (l i r slot : Nat) : p (s.setRole l i r slot) = p s := by
  unfold State.setRole
  split
  · rfl
  · exact (hc _ _ _).trans ((hp _ _ _).trans (hp _ _ _))

theorem State.setTap_keeps (s : State) (l br v : Nat) : p (s.setTap l br v) = p s := by
  unfold State.setTap
  split
  · rfl
  · exact (hc _ _ _).trans (hp _ _ _)

theorem State.setUnit_keeps (s : State) (l i : Nat) (v : UnitVal) : p (s.setUnit l i v) = p s := by
  unfold State.setUnit State.cnvDirty State.showUnit
  rw [hc, hp, hp, hc]

theorem State.cnvInterp_keeps (s : State) (l : Nat) : p (s.cnvInterp l) = p s := by
  unfold State.cnvInterp
  extract_lets t c run a b
  have ha : p a = p s := by
    refine foldl_keeps p _ (fun u i => ?_) _ s
    dsimp only
    split
    · rfl
    · split
      · rfl
      · exact State.setUnit_keeps p hp hc u l i _
  have hb : p b = p a := by
    by_cases hr : run = true
    · rw [show b = a from if_pos hr]
    · rw [show b = _ from if_neg hr]
      exact foldl_keeps p _ (fun u br => State.setTap_keeps p hp hc u l br _) _ a
  split
  · rfl
  · exact (hc _ _ _).trans (hb.trans ha)

theorem State.assignBranch_keeps (s : State) (l br : Nat) : p (s.assignBranch l br) = p s := by
  refine foldl_keeps p _ (fun u q => ?_) _ s
  split
  · exact State.setRole_keeps p hp hc u l _ _ _
  · split
    · exact State.setRole_keeps p hp hc u l _ _ _
    · split <;> exact State.setRole_keeps p hp hc u l _ _ _

theorem State.assignRoles_keeps (s : State) (l : Nat) : p (s.assignRoles l) = p s := by
  unfold State.assignRoles
  exact (hc _ _ _).trans (foldl_keeps p _ (fun u br => State.assignBranch_keeps p hp hc u l br) _ s)

end Decided

/-- The highest bits of the fields that decisions wait in: a unit's role, a branch's tap, a unit's slot. -/
def decidedHi : List Nat := [2, 6, 7]

/-- What showing the spares' age keeps. -/
theorem State.cnvStale_keeps {β : Type} (p : State → β) (hp : ∀ u f v, f.hi ∉ decidedHi → p (State.publish u f v) = p u) (l : Nat)
    (hs : ∀ u x, p (State.modCnv u l fun c => { c with staleAt := x }) = p u) (s : State) : p (s.cnvStale l) = p s := by
  unfold State.cnvStale
  refine (hs _ _).trans ((hp _ _ _ (show 17 ∉ decidedHi by decide)).trans (foldl_keeps p _ (fun u i => ?_) _ s))
  split
  · rfl
  · exact hp u _ _ (show 3 ∉ decidedHi by decide)

theorem State.reg_tileReturn (s : State) (l off : Nat) : (s.tileReturn l).reg off = s.reg off := by
  have hp (u : State) (f : Fr) (v : Nat) : (u.publish f v).reg off = u.reg off := rfl
  have hc (u : State) (l : Nat) (f : CnvSt → CnvSt) : (u.modCnv l f).reg off = u.reg off := u.reg_modCnv l f off
  unfold State.tileReturn
  extract_lets a b
  have ha : a.reg off = s.reg off := by
    dsimp only [a]
    split
    · exact foldl_keeps (State.reg · off) _ (fun u i => u.reg_modCnv l _ off) _ s
    · rfl
  have hb : b.reg off = a.reg off := a.reg_modCnv l _ off
  clear_value b
  exact (State.reg_modLn _ _ _ _).trans ((State.cnvStale_keeps (State.reg · off) (fun u f v _ => hp u f v) l (fun u _ => hc u l _) _).trans ((State.assignRoles_keeps (State.reg · off) hp hc _ l).trans
    ((State.cnvInterp_keeps (State.reg · off) hp hc b l).trans (hb.trans ha))))

/-! ### The spare pools (R245) -/

/-- What showing the pools keeps. -/
theorem State.cnvPool_keeps {β : Type} (p : State → β) (hp : ∀ u f v, f.hi ∉ decidedHi → p (State.publish u f v) = p u) (l : Nat)
    (hr : ∀ u, p (State.raise u (Reg.CNV_EVENT.EXHAUSTED l)) = p u) (hq : ∀ u q, p ({ u with poolQ := q } : State) = p u) (s : State) :
    p (s.cnvPool l) = p s := by
  unfold State.cnvPool
  extract_lets c adc dac bin a b e f
  clear_value adc dac bin
  have ha : p a = p s := (hp _ _ _ (show 14 ∉ decidedHi by decide)).trans (hp _ _ _ (show 10 ∉ decidedHi by decide))
  have hb : p b = p a := hp _ _ _ (show 16 ∉ decidedHi by decide)
  have he : p e = p b := foldl_keeps p _ (fun u d => (hp _ _ _ (show 21 ∉ decidedHi by decide)).trans
    ((hp _ _ _ (show 10 ∉ decidedHi by decide)).trans (hp u _ _ (show 3 ∉ decidedHi by decide)))) _ b
  have hs : p e = p s := he.trans (hb.trans ha)
  clear_value e
  have hf : p f = p e := (hr _).trans (hp e _ _ (show 15 ∉ decidedHi by decide))
  split
  · exact (hq f _).trans (hf.trans hs)
  · exact hs

theorem State.reg_cnvPool_ne (s : State) (l : Nat) {off : Nat} (h : off ≠ Reg.CNV_EVENT l) (h2 : off ≠ Reg.FLT_EVENT) : (s.cnvPool l).reg off = s.reg off :=
  State.cnvPool_keeps (State.reg · off) (fun _ _ _ _ => rfl) l (fun u => u.reg_raise_ne _ h h2) (fun _ _ => rfl) s

theorem State.outer_cnvPool (s : State) (l : Nat) : (s.cnvPool l).outer = s.outer :=
  State.cnvPool_keeps State.outer (fun _ _ _ _ => rfl) l (fun u => u.outer_raise _) (fun _ _ => rfl) s

@[simp] theorem State.bit_publish (s : State) (f : Fr) (v : Nat) (g : Fr) : (s.publish f v).bit g = s.bit g := rfl

theorem State.bit_cnvPool_mono (s : State) (l : Nat) (g : Fr) (hl : g.lo = g.hi) (hg : s.bit g = true) : (s.cnvPool l).bit g = true := by
  unfold State.cnvPool
  extract_lets c adc dac bin a b e f
  clear_value adc dac bin
  have hb : b.bit g = true := hg
  have he : e.bit g = true := Eq.trans (foldl_keeps (State.bit · g) _ (fun u d => by simp only [State.bit_publish]) _ b) hb
  clear_value e
  split
  · exact State.bit_raise_mono _ _ g rfl (show 6 < 32 by decide) hl he
  · exact he

end Sys2Proof.Machine
end

section
/-! SUPPORT. Line engines start and stop; what training and foreground calibration bring about (R45, R225, R226, R303, R304). -/

namespace Sys2Proof.Machine

open Sys2Proof

/-! ### A line engine's state field -/

theorem State.fld_setFld_lineState (s : State) {l : Nat} (hl : l < 2) (v : Nat) : (s.setFld (lineState l) v).fld (lineState l) = v % 4 := by
  rw [State.fld_setFld s (lineState l) v (Nat.le_succ _) (show 2 * l + 1 < 32 by omega), show (lineState l).hi + 1 - (lineState l).lo = 2 from by
    simp only [lineState]; omega]
  rfl

theorem lineStatus_not_cut : Reg.GLB_LINE_STATUS ∉ cutRegs := by decide

@[simp] theorem State.rxp_modRxp (s : State) (l : Nat) (f : RxpSt → RxpSt) : (s.modRxp l f).rxp l = f (s.rxp l) := by
  unfold State.rxp State.modRxp
  rw [State.ln_modLn]

@[simp] theorem State.reg_modRxp (s : State) (l : Nat) (f : RxpSt → RxpSt) (off : Nat) : (s.modRxp l f).reg off = s.reg off := s.reg_modLn l _ off

theorem State.power_modRxp (s : State) (l : Nat) (f : RxpSt → RxpSt) : ((s.modRxp l f).ln l).power = (s.ln l).power := by
  unfold State.modRxp
  rw [State.ln_modLn]

/-! ### Start and stop (R45) -/

theorem State.lineStart_starts (s : State) {l : Nat} (hl : l < 2) : (s.lineStart l).fld (lineState l) = 1 ∧ ((s.lineStart l).ln l).power = true := by
  unfold State.lineStart State.modFrm
  refine ⟨?_, by rw [State.ln_modLn, State.ln_modLn]⟩
  rw [State.fld_congr ((s.sweepLine l).setFld (lineState l) 1) _ _ (by rw [State.reg_modLn, State.reg_modLn]), State.fld_setFld_lineState _ hl]

theorem State.reg_cnvStop_ne (s : State) (l : Nat) {off : Nat} (h : off ≠ Reg.CNV_STATUS l) (h2 : off ≠ Reg.CNV_PASS_INFO l) :
    (s.cnvStop l).reg off = s.reg off := by
  unfold State.cnvStop
  rw [State.reg_modCnv, State.reg_setFld_ne _ _ h2.symm, State.reg_setFld_ne _ _ h.symm]

theorem State.cnvStop_keeps (s : State) (l : Nat) : ((s.cnvStop l).ln l).power = (s.ln l).power ∧ (s.cnvStop l).rxp l = s.rxp l := by
  have h (u : State) (f : CnvSt → CnvSt) : ((u.modCnv l f).ln l).power = (u.ln l).power ∧ (u.modCnv l f).rxp l = u.rxp l := by
    unfold State.rxp State.modCnv
    rw [State.ln_modLn]
    exact ⟨rfl, rfl⟩
  unfold State.cnvStop
  extract_lets a
  have ha : a.ln l = s.ln l := State.ln_of_outer (by simp only [a, State.outer_setFld]) l
  exact ⟨(h a _).1.trans (congrArg Line.power ha), (h a _).2.trans (congrArg Line.rxp ha)⟩

theorem State.lineState_linkStop (s : State) (d l : Nat) : (s.linkStop d).fld (lineState l) = s.fld (lineState l) := by
  refine State.fld_congr _ _ _ (s.reg_linkStop_ne d (off := Reg.GLB_LINE_STATUS) (by decide) (by decide) (by decide) fun i _ => ?_)
  simp only [Reg.GLB_LINE_STATUS, Reg.D2D_SUB]
  omega

/-- A line engine that goes down is disabled, its tile without power, its receiver idle and its DACs at zero. -/
theorem State.lineDisable_stops (s : State) {l : Nat} (hl : l < 2) (he : s.engOn l = false) (hst : s.fld (lineState l) = 1 ∨ s.fld (lineState l) = 2)
    (ho : (s.ln l).offAt ≠ some s.tick) : (s.lineDisable l).fld (lineState l) = 0 ∧ ((s.lineDisable l).ln l).power = false ∧
      ((s.lineDisable l).rxp l).state = 0 ∧ (s.lineDisable l).dacZero l = true := by
  have hgo : ¬(s.engOn l || s.fld (lineState l) == 0 || s.fld (lineState l) == 3 || (s.ln l).offAt == some s.tick) = true := by
    rw [he, beq_false_of_ne ho]
    obtain h | h := hst <;> rw [h] <;> decide
  unfold State.lineDisable
  rw [if_neg hgo]
  extract_lets a b c
  have ha : a.fld (lineState l) = 0 := by
    rw [State.fld_congr (((s.setFld (lineState l) 0).linkStop (2 * l)).linkStop (2 * l + 1)) a _ (State.reg_subDown _ _), State.lineState_linkStop,
      State.lineState_linkStop, State.fld_setFld_lineState _ hl]
  have hb : b.fld (lineState l) = 0 ∧ (b.ln l).power = false :=
    ⟨(State.fld_congr a b _ (State.reg_modLn _ _ _ _)).trans ha, congrArg Line.power (State.ln_modLn _ _ _)⟩
  clear_value b
  have hc : c.fld (lineState l) = 0 ∧ (c.ln l).power = false ∧ (c.rxp l).state = 0 := by
    have hr : ∀ l : Nat, l < 2 → Reg.GLB_LINE_STATUS ≠ Reg.CNV_STATUS l ∧ Reg.GLB_LINE_STATUS ≠ Reg.CNV_PASS_INFO l := by decide
    obtain ⟨hp, hx⟩ := (b.modRxp l fun x => { x with state := 0, restart := none }).cnvStop_keeps l
    refine ⟨(State.fld_congr b c _ ?_).trans hb.1, (hp.trans (b.power_modRxp l _)).trans hb.2, (congrArg RxpSt.state hx).trans ?_⟩
    · exact (State.reg_cnvStop_ne _ l (hr l hl).1 (hr l hl).2).trans (b.reg_modRxp l _ _)
    · rw [State.rxp_modRxp]
  clear_value c
  have hln : ((c.setDacZero l true).setMute l (c.muteCauses l)).ln l = _ := State.ln_setMute _ _ _
  refine ⟨?_, ?_, ?_, ?_⟩
  · exact (State.fld_congr c _ _ (State.reg_setMute_ne lineStatus_not_cut _ _ _)).trans hc.1
  · exact (congrArg Line.power hln).trans hc.2.1
  · exact (congrArg (·.rxp.state) hln).trans hc.2.2
  · exact (State.dacZero_congr (State.setMute_pins _ _ _) l).trans (c.dacZero_setDacZero l true)

/-! ### Bring-up (R45) -/

@[simp] theorem State.reg_adoptAll (s : State) (l off : Nat) : (s.adoptAll l).reg off = s.reg off := by
  unfold State.adoptAll
  extract_lets here a
  rw [State.reg_modLn]
  exact State.reg_foldl State.loadShadow off (fun u o => State.reg_congr _ _ (u.loadShadow_frame o).1 off) _ s

theorem State.reg_bringUp (s : State) (l off : Nat) : (s.bringUp l).reg off = (s.setFld (lineState l) 2).reg off := by
  unfold State.bringUp State.modFrm State.modRxp
  extract_lets a compat b c
  simp only [State.reg_modLn, c, b, a, State.reg_adoptAll]

theorem State.bringUp_up (s : State) {l : Nat} (hl : l < 2) : (s.bringUp l).fld (lineState l) = 2 ∧ ((s.bringUp l).rxp l).state = 0 := by
  refine ⟨(State.fld_congr _ _ _ (s.reg_bringUp l _)).trans (s.fld_setFld_lineState hl 2), ?_⟩
  unfold State.bringUp
  extract_lets a compat b c
  rw [State.rxp_modRxp]

/-! ### Foreground calibration (R225, R226) -/

theorem State.foreground_fails (s : State) (l : Nat) (x : FgIn) (h : x.pll = false ∨ (x.power.any fun p => decide (p < -2000)) = true) :
    (s.foreground l x).2 = false := by
  unfold State.foreground
  extract_lets
  rw [if_pos]
  obtain h | h := h <;> rw [h] <;> simp

/-- How a foreground calibration that fails ends. -/
theorem State.foreground_held (s : State) (l : Nat) (x : FgIn) (h : (s.foreground l x).2 = false) : ∃ c : State, (s.foreground l x).1 =
    ((((c.modCnv l fun c => { c with loop := false }).raiseOwn (Reg.CNV_EVENT.FG_FAIL l)).holdLine l 1 1).cnvPool l) := by
  revert h
  unfold State.foreground
  extract_lets a b vs us short c
  clear_value c short
  intro h
  split at h
  next hf => exact ⟨c, by rw [if_pos hf]⟩
  next => exact absurd h (by simp)

/-- A held line is disabled and its tile has no power. -/
theorem State.holdLine_holds (s : State) {l : Nat} (hl : l < 2) (cause mute : Nat) :
    (s.holdLine l cause mute).fld (lineState l) = 3 ∧ ((s.holdLine l cause mute).ln l).power = false := by
  unfold State.holdLine
  extract_lets g
  have hq (u : State) (a b c : Nat) (d : List Byte) : (u.queueRec a b c d).ln l = u.ln l := by unfold State.ln; simp only [State.queueRec_frame]
  refine ⟨?_, by rw [hq, State.ln_modLn]⟩
  rw [State.fld_congr g _ _ ((State.reg_queueRec_ne _ _ _ _ _ (by decide : Reg.GLB_LINE_STATUS ≠ Reg.FLT_EVENT)).trans (State.reg_modLn _ _ _ _))]
  exact (State.fld_congr _ _ _ (State.reg_setFld_ne _ 1 (show Reg.FLT_STATUS ≠ Reg.GLB_LINE_STATUS by decide))).trans (s.fld_setFld_lineState hl 3)

theorem State.bit_holdLine (s : State) (l cause mute : Nat) (g : Fr) (hl : g.lo = g.hi) (h : g.off ≠ Reg.GLB_LINE_STATUS) (h2 : g.off ≠ Reg.FLT_STATUS)
    (hg : s.bit g = true) : (s.holdLine l cause mute).bit g = true := by
  unfold State.holdLine
  extract_lets e
  refine State.bit_queueRec _ _ _ _ _ _ hl (Eq.trans (State.bit_congr s _ _ ?_) hg)
  exact (State.reg_modLn _ _ _ _).trans ((State.reg_setFld_ne _ 1 h2.symm).trans (s.reg_setFld_ne 3 h.symm))

/-- The line of a foreground calibration that fails is held. -/
theorem State.foreground_holds (s : State) {l : Nat} (hl : l < 2) (x : FgIn) (h : (s.foreground l x).2 = false) :
    (s.foreground l x).1.fld (lineState l) = 3 ∧ ((s.foreground l x).1.ln l).power = false ∧ (s.foreground l x).1.bit (Reg.CNV_EVENT.FG_FAIL l) = true := by
  obtain ⟨c, hc⟩ := s.foreground_held l x h
  have hr : ∀ l : Nat, l < 2 → Reg.CNV_EVENT l ≠ Reg.GLB_LINE_STATUS ∧ Reg.CNV_EVENT l ≠ Reg.FLT_STATUS := by decide
  obtain ⟨hs, hp⟩ := ((c.modCnv l fun c => { c with loop := false }).raiseOwn (Reg.CNV_EVENT.FG_FAIL l)).holdLine_holds hl 1 1
  rw [hc]
  exact ⟨(State.fld_congr _ _ _ (State.reg_cnvPool_ne _ l (hr l hl).1.symm (by decide : Reg.GLB_LINE_STATUS ≠ Reg.FLT_EVENT))).trans hs,
    (congrArg Line.power (State.ln_of_outer (State.outer_cnvPool _ l) l)).trans hp,
    State.bit_cnvPool_mono _ l _ rfl (State.bit_holdLine _ l 1 1 _ rfl (hr l hl).1 (hr l hl).2 (State.bit_raiseOwn _ _ rfl (show 0 < 32 by decide)))⟩

/-! ### Training (R303, R304) -/

theorem State.reg_tileCheck_ne (s : State) (l : Nat) {off : Nat} (h : off ≠ Reg.GLB_LINE_STATUS) (h2 : off ≠ Reg.CNV_EVENT l) (h3 : off ≠ Reg.FLT_EVENT) :
    (s.tileCheck l).reg off = s.reg off := by
  unfold State.tileCheck
  split
  · rfl
  · split
    · rw [State.reg_bringUp, State.reg_setFld_ne _ 2 h.symm, State.reg_tileReturn]
    · rw [State.reg_raise_ne _ _ h2 h3, State.reg_modCnv]

theorem State.tileCheck_idle (s : State) {d : Nat} (h : s.trained d = false) : s.tileCheck (d / 2) = s := by
  unfold State.tileCheck
  refine if_pos ?_
  obtain hd | hd : d = 2 * (d / 2) ∨ d = 2 * (d / 2) + 1 := by omega
  · rw [← hd, h]; simp
  · rw [← hd, h]; simp

theorem State.trainOne_trains (s : State) (d : Fin 4) (x : TrainIn) (h : s.groupsGood d x.bad = true) :
    ((s.trainOne d x).tileCheck (d / 2)).trained d = true ∧ ((s.trainOne d x).tileCheck (d / 2)).fld (Reg.D2D_LAT.L d) = min 14 x.flight + 56 := by
  obtain ⟨h2, ht, hf⟩ := s.trainDir_trains x.bad x.flight d.2 h
  have hr : ∀ d : Fin 4, Reg.D2D_STATUS ≠ Reg.CNV_EVENT (d / 2) ∧ Reg.D2D_LAT d ≠ Reg.GLB_LINE_STATUS ∧ Reg.D2D_LAT d ≠ Reg.CNV_EVENT (d / 2) ∧
      Reg.D2D_LAT d ≠ Reg.FLT_EVENT := by decide
  obtain ⟨r1, r2, r3, r4⟩ := hr d
  unfold State.trainOne
  extract_lets r u
  rw [if_pos (show r.2 = true from h2)]
  exact ⟨(State.trained_congr _ (State.reg_tileCheck_ne _ _ (by decide) r1 (by decide))).trans ht,
    (State.fld_congr _ _ _ (State.reg_tileCheck_ne _ _ r2 r3 r4)).trans hf⟩

/-- A direction that fails its training holds its line. -/
theorem State.trainOne_holds (s : State) (d : Fin 4) (x : TrainIn) (h : s.groupsGood d x.bad = false) :
    let t := (s.trainOne d x).tileCheck (d / 2)
    t.trained d = false ∧ t.fld (lineState (d / 2)) = 3 ∧ t.bit ⟨Reg.FLT_STATUS, 8 + d / 2, 8 + d / 2⟩ = true ∧ (t.ln (d / 2)).power = false := by
  obtain ⟨h2, ht⟩ := s.trainDir_fails x.bad x.flight d.2 h
  have hl : d.val / 2 < 2 := by omega
  unfold State.trainOne
  extract_lets r u t
  have hu : u.trained d = false := (State.trained_congr (s := r.1) (t := u) _ ((State.reg_setFld_ne _ 1
    (show Reg.FLT_STATUS ≠ Reg.D2D_STATUS by decide)).trans (State.reg_setFld_ne _ 3 (show Reg.GLB_LINE_STATUS ≠ Reg.D2D_STATUS by decide)))).trans ht
  have hs : u.fld (lineState (d / 2)) = 3 :=
    (State.fld_congr _ _ _ (State.reg_setFld_ne _ 1 (show Reg.FLT_STATUS ≠ Reg.GLB_LINE_STATUS by decide))).trans (State.fld_setFld_lineState _ hl 3)
  have hb : u.bit ⟨Reg.FLT_STATUS, 8 + d / 2, 8 + d / 2⟩ = true := State.bit_setFld _ _ rfl (show 8 + d.val / 2 < 32 by omega)
  clear_value u
  have he : t = u.modLn (d / 2) fun y => { y with mute := y.mute ||| 16, power := false, tileLock := false } := by
    rw [show t = _ from congrArg (State.tileCheck · (d / 2)) (if_neg (by rw [show r.2 = false from h2]; decide))]
    exact State.tileCheck_idle _ ((State.trained_congr _ (State.reg_modLn _ _ _ _)).trans hu)
  rw [he]
  exact ⟨(State.trained_congr _ (State.reg_modLn _ _ _ _)).trans hu, (State.fld_congr _ _ _ (State.reg_modLn _ _ _ _)).trans hs,
    (State.bit_congr _ _ _ (State.reg_modLn _ _ _ _)).trans hb, congrArg Line.power (State.ln_modLn _ _ _)⟩

/-- The lanes that the training of a group counts. -/
theorem State.goodLanes_length (s : State) (d g : Nat) (bad : List Nat) : (s.goodLanes (264 * d + 66 * g) bad).length =
    ((List.range 66).filter fun k => !bad.contains k && s.laneState (264 * d + 66 * g + k) != 2 && s.laneState (264 * d + 66 * g + k) != 3).length := by
  unfold State.goodLanes
  rw [List.filter_map, List.length_map]
  refine congrArg List.length (List.filter_congr fun k hk => ?_)
  have hk' : lanePhys (264 * d + 66 * g + k) = k := by
    have := List.mem_range.1 hk
    unfold lanePhys
    omega
  simp only [Function.comp_apply, hk']

/-! ### The commands -/

theorem lineEngineEnable_completes {s : State} (l : Fin 2) (h : s.ticking) (hr : s.boot.ready = true) (he : s.engOn l = true)
    (hs : s.fld (lineState l) = 0) (hd : s.down = false) :
    Completes (.lineEngineEnable l) s fun t => t.fld (lineState l) = 1 ∧ (t.ln l).power = true := by
  obtain ⟨h1, h2⟩ := s.cleared.lineStart_starts l.2
  have hf : s.cleared.lineEnable l = s.cleared.lineStart l := if_pos (by
    rw [show s.cleared.boot.ready = true from hr, show s.cleared.engOn l = true from he, show s.cleared.fld (lineState l) = 0 from hs,
      show s.cleared.down = false from hd]; rfl)
  refine ⟨_, rfl, ?_, ?_⟩
  · rw [State.fld_congr _ _ _ (s.reg_cmdTick (·.lineEnable l) h (show Reg.GLB_LINE_STATUS ∉ faultRegs by decide)), hf, h1]
  · rw [s.ln_cmdTick (·.lineEnable l) h, hf, h2]

theorem lineEngineEnable_idles {s : State} (l : Fin 2) (h : s.ticking)
    (hn : s.boot.ready = false ∨ s.engOn l = false ∨ s.fld (lineState l) ≠ 0 ∨ s.down = true) :
    Completes (.lineEngineEnable l) s fun t => s.sameBut t faultRegs := by
  refine ⟨_, rfl, s.sameBut_cmdTick_idle _ h (if_neg ?_)⟩
  show ¬(s.boot.ready && s.engOn l && s.fld (lineState l) == 0 && !s.down) = true
  obtain h | h | h | h := hn <;> simp [h]

theorem lineEngineDisable_completes {s : State} (l : Fin 2) (h : s.ticking) (he : s.engOn l = false)
    (hst : s.fld (lineState l) = 1 ∨ s.fld (lineState l) = 2) (ho : (s.ln l).offAt ≠ some s.tick) :
    Completes (.lineEngineDisable l) s fun t => t.fld (lineState l) = 0 ∧ (t.ln l).power = false ∧ (t.rxp l).state = 0 ∧
      (if l.val = 0 then t.pins.dacZeroA else t.pins.dacZeroB) = true := by
  obtain ⟨h1, h2, h3, h4⟩ := s.cleared.lineDisable_stops l.2 he hst ho
  have hln := s.ln_cmdTick (·.lineDisable l) h l
  refine ⟨_, rfl, ?_, ?_, ?_, ?_⟩
  · rw [State.fld_congr _ _ _ (s.reg_cmdTick (·.lineDisable l) h (show Reg.GLB_LINE_STATUS ∉ faultRegs by decide)), h1]
  · rw [hln, h2]
  · exact (congrArg (·.rxp.state) hln).trans h3
  · exact (State.dacZero_congr (by simp only [s.cmdTick_frame _ h]) l).trans h4

theorem lineEngineDisable_idles {s : State} (l : Fin 2) (h : s.ticking)
    (hn : s.engOn l = true ∨ s.fld (lineState l) = 0 ∨ s.fld (lineState l) = 3 ∨ (s.ln l).offAt = some s.tick) :
    Completes (.lineEngineDisable l) s fun t => s.sameBut t faultRegs := by
  refine ⟨_, rfl, s.sameBut_cmdTick_idle _ h (if_pos ?_)⟩
  show (s.engOn l || s.fld (lineState l) == 0 || s.fld (lineState l) == 3 || (s.ln l).offAt == some s.tick) = true
  obtain h | h | h | h := hn <;> simp [h]

section Foreground

variable {s : State} {l : Fin 2} {x : FgIn} (h : s.ticking)
  (hgo : (s.boot.ready && s.starting l && s.trained (2 * l) && s.trained (2 * l + 1) && !s.down && s.fgReady l x) = true)
include h hgo

omit h in
theorem foregroundCalibration_runs {P : State → Prop} (hP : P (s.cmdTick (·.fgCal l x))) : Completes (.foregroundCalibration l x) s P := by
  refine completes_live rfl ?_ hP
  simp only [Bool.and_eq_true, Bool.not_eq_true'] at hgo
  exact hgo.1.2

theorem foregroundCalibration_succeeds (hs : (s.cleared.foreground l x).2 = true) :
    Completes (.foregroundCalibration l x) s fun t => t.fld (lineState l) = 2 ∧ (t.rxp l).state = 0 := by
  have hf : s.cleared.fgCal l x = ((s.cleared.foreground l x).1.modCnv l fun c => { c with want := true }).bringUp l :=
    (if_pos hgo).trans (if_pos hs)
  obtain ⟨h1, h2⟩ := ((s.cleared.foreground l x).1.modCnv l fun c => { c with want := true }).bringUp_up l.2
  rw [← hf] at h1 h2
  refine foregroundCalibration_runs hgo ⟨?_, ?_⟩
  · rw [State.fld_congr _ _ _ (s.reg_cmdTick (·.fgCal l x) h (show Reg.GLB_LINE_STATUS ∉ faultRegs by decide)), h1]
  · exact (congrArg (·.rxp.state) (s.ln_cmdTick (·.fgCal l x) h l)).trans h2

theorem foregroundCalibration_holds (hs : (s.cleared.foreground l x).2 = false) : Completes (.foregroundCalibration l x) s fun t =>
    t.fld (lineState l) = 3 ∧ (t.ln l).power = false ∧ t.bit (Reg.CNV_EVENT.FG_FAIL l) = true := by
  have hf : s.cleared.fgCal l x = (s.cleared.foreground l x).1 := (if_pos hgo).trans (if_neg (Bool.eq_false_iff.1 hs))
  obtain ⟨h1, h2, h3⟩ := s.cleared.foreground_holds l.2 x hs
  rw [← hf] at h1 h2 h3
  refine foregroundCalibration_runs hgo ⟨?_, ?_, ?_⟩
  · rw [State.fld_congr _ _ _ (s.reg_cmdTick (·.fgCal l x) h (show Reg.GLB_LINE_STATUS ∉ faultRegs by decide)), h1]
  · rw [s.ln_cmdTick (·.fgCal l x) h, h2]
  · rw [s.bit_cmdTick (·.fgCal l x) h _ ((by decide : ∀ l : Fin 2, Reg.CNV_EVENT l ∉ faultRegs) l), h3]

end Foreground

section Training

variable {s : State} {d : Fin 4} {x : TrainIn} (h : s.ticking)
  (hgo : (s.boot.ready && s.starting (d / 2) && !s.trained d && !s.down) = true)
include h hgo

omit h in
theorem linkTraining_runs {P : State → Prop} (hP : P (s.cmdTick (·.linkTraining d x))) : Completes (.linkTraining d x) s P := by
  refine completes_live rfl ?_ hP
  simp only [Bool.and_eq_true, Bool.not_eq_true'] at hgo
  exact hgo.2

theorem linkTraining_trains (hg : s.groupsGood d x.bad = true) : Completes (.linkTraining d x) s fun t =>
    t.trained d = true ∧ t.fld (Reg.D2D_LAT.L d) = min 14 x.flight + 56 := by
  have hf : s.cleared.linkTraining d x = (s.cleared.trainOne d x).tileCheck (d / 2) := if_pos hgo
  obtain ⟨h1, h2⟩ := s.cleared.trainOne_trains d x hg
  rw [← hf] at h1 h2
  refine linkTraining_runs hgo ⟨?_, ?_⟩
  · exact (State.trained_congr _ (s.reg_cmdTick (·.linkTraining d x) h (by decide))).trans h1
  · exact (State.fld_congr _ _ _ (s.reg_cmdTick (·.linkTraining d x) h ((by decide : ∀ d : Fin 4, Reg.D2D_LAT d ∉ faultRegs) d))).trans h2

theorem linkTraining_holds (hg : s.groupsGood d x.bad = false) : Completes (.linkTraining d x) s fun t => t.trained d = false ∧
    t.fld (lineState (d / 2)) = 3 ∧ t.bit ⟨Reg.FLT_STATUS, 8 + d / 2, 8 + d / 2⟩ = true ∧ (t.ln (d / 2)).power = false := by
  have hf : s.cleared.linkTraining d x = (s.cleared.trainOne d x).tileCheck (d / 2) := if_pos hgo
  obtain ⟨h1, h2, h3, h4⟩ := s.cleared.trainOne_holds d x hg
  rw [← hf] at h1 h2 h3 h4
  refine linkTraining_runs hgo ⟨?_, ?_, ?_, ?_⟩
  · exact (State.trained_congr _ (s.reg_cmdTick (·.linkTraining d x) h (by decide))).trans h1
  · exact (State.fld_congr _ _ _ (s.reg_cmdTick (·.linkTraining d x) h (show Reg.GLB_LINE_STATUS ∉ faultRegs by decide))).trans h2
  · exact s.bit_cmdTick_status (·.linkTraining d x) h _ (by omega) h3
  · rw [s.ln_cmdTick (·.linkTraining d x) h, h4]

end Training

/-- Settles O42: the state field, power, receiver and DACs that enable and disable leave; training counts the good lanes of every group on the
lanes' states as decided; foreground calibration brings the line up or holds it. -/
theorem lineEngines : Obligations.LineEngines := by
  unfold Obligations.LineEngines
  intro s h
  refine ⟨fun l => ⟨fun hr he hs hd => lineEngineEnable_completes l h hr he hs hd, fun hn => lineEngineEnable_idles l h hn,
      fun he hst ho => lineEngineDisable_completes l h he hst ho, fun hn => lineEngineDisable_idles l h hn⟩, fun l x => ?_, fun d x => ?_⟩
  · extract_lets go short
    exact ⟨fun _ hx => s.cleared.foreground_fails l x hx, fun hgo hs => foregroundCalibration_succeeds h hgo hs,
      fun hgo hs => foregroundCalibration_holds h hgo hs, fun hgo => ⟨_, rfl, s.sameBut_cmdLive_idle _ h (if_neg (Bool.eq_false_iff.1 hgo))⟩⟩
  · extract_lets go good ok
    have hok : s.groupsGood d x.bad = ok := by
      unfold State.groupsGood
      refine congrArg (List.all _) (funext fun g => ?_)
      rw [show laneIdx (d / 2) (d % 2) g 0 = 264 * d.val + 66 * g by unfold laneIdx; omega, State.goodLanes_length]
    exact ⟨fun hgo ht => linkTraining_trains h hgo (hok.trans ht), fun hgo ht => linkTraining_holds h hgo (hok.trans ht),
      fun hgo => ⟨_, rfl, s.sameBut_cmdLive_idle _ h (if_neg (Bool.eq_false_iff.1 hgo))⟩⟩

end Sys2Proof.Machine
end

section
/-! SUPPORT. Converter decisions: roles, slots and taps as decided; what masking a slot, failing a unit and showing the pools keep (R230, R241-R246). -/

namespace Sys2Proof.Machine

open Sys2Proof

/-! ### Roles, slots and taps as decided -/

/-- Every role, slot and tap of a line as decided. -/
def State.decided (s : State) (l : Nat) : (Nat → Nat) × (Nat → Nat) × (Nat → Nat) := (s.role l, s.slot l, s.tap l)

theorem State.role_of_decided {s t : State} {l : Nat} (h : t.decided l = s.decided l) (i : Nat) : t.role l i = s.role l i := congrFun (congrArg (·.1) h) i
theorem State.slot_of_decided {s t : State} {l : Nat} (h : t.decided l = s.decided l) (i : Nat) : t.slot l i = s.slot l i := congrFun (congrArg (·.2.1) h) i
theorem State.tap_of_decided {s t : State} {l : Nat} (h : t.decided l = s.decided l) (br : Nat) : t.tap l br = s.tap l br := congrFun (congrArg (·.2.2) h) br

theorem State.decided_congr {s t : State} (l : Nat) (h : ∀ f : Fr, (∃ i, f.off = Reg.CNV_UNIT l i ∨ f.off = Reg.CNV_SKEW l i) → f.hi ∈ decidedHi →
    t.nextFld f = s.nextFld f) : t.decided l = s.decided l :=
  Prod.ext (funext fun i => h _ ⟨i, .inl rfl⟩ (show 2 ∈ decidedHi by decide)) (Prod.ext (funext fun i => h _ ⟨i, .inl rfl⟩ (show 7 ∈ decidedHi by decide))
    (funext fun i => h _ ⟨i, .inr rfl⟩ (show 6 ∈ decidedHi by decide)))

theorem State.decided_publish (s : State) (l : Nat) (f : Fr) (v : Nat) (h : f.hi ∉ decidedHi) : (s.publish f v).decided l = s.decided l :=
  State.decided_congr l fun _ _ hg => s.nextFld_publish_ne v fun e => h (e ▸ hg)

/-- Registers beside a line's units and taps. -/
def besideUnits (l off : Nat) : Prop := ∀ i, off ≠ Reg.CNV_UNIT l i ∧ off ≠ Reg.CNV_SKEW l i

theorem State.decided_of_regs {s t : State} (l : Nat) (hq : t.pubQ = s.pubQ) (hr : ∀ i, t.reg (Reg.CNV_UNIT l i) = s.reg (Reg.CNV_UNIT l i) ∧
    t.reg (Reg.CNV_SKEW l i) = s.reg (Reg.CNV_SKEW l i)) : t.decided l = s.decided l := by
  refine State.decided_congr l fun f hf _ => State.nextFld_congr f hq ?_
  obtain ⟨i, e | e⟩ := hf
  · rw [e]; exact (hr i).1
  · rw [e]; exact (hr i).2

theorem besideUnits_event (l : Nat) : besideUnits l (Reg.CNV_EVENT l) := fun i => by
  simp only [Reg.CNV_EVENT, Reg.CNV_UNIT, Reg.CNV_SKEW]
  omega

theorem besideUnits_low {l off : Nat} (h : off < 0x200000) : besideUnits l off := fun i => by
  simp only [Reg.CNV_UNIT, Reg.CNV_SKEW]
  omega

theorem State.decided_raiseAt (s : State) (l : Nat) (f : Fr) (i : Nat) (h : f.off = Reg.CNV_EVENT l) : (s.raiseAt f i).decided l = s.decided l := by
  have hf := besideUnits_event l
  have h2 : besideUnits l Reg.FLT_EVENT := besideUnits_low (by decide)
  exact State.decided_of_regs l (by simp only [State.raiseAt_frame]) fun k =>
    ⟨s.reg_raiseAt_ne f i (h ▸ (hf k).1.symm) (h2 k).1.symm, s.reg_raiseAt_ne f i (h ▸ (hf k).2.symm) (h2 k).2.symm⟩

@[simp] theorem State.modLn_pubQ (s : State) (l : Nat) (f : Line → Line) : (s.modLn l f).pubQ = s.pubQ := by
  unfold State.modLn State.setLn
  split <;> rfl

@[simp] theorem State.decided_modCnv (s : State) (l k : Nat) (f : CnvSt → CnvSt) : (s.modCnv k f).decided l = s.decided l :=
  State.decided_of_regs l (s.modLn_pubQ k _) fun _ => ⟨s.reg_modCnv k f _, s.reg_modCnv k f _⟩

@[simp] theorem State.decided_cnvDirty (s : State) (l k : Nat) : (s.cnvDirty k).decided l = s.decided l := s.decided_modCnv l k _

/-! ### A line's converter state -/

@[simp] theorem State.cnv_modCnv (s : State) (l : Nat) (f : CnvSt → CnvSt) : (s.modCnv l f).cnv l = f (s.cnv l) := by
  unfold State.modCnv State.cnv
  rw [State.ln_modLn]

theorem State.cnv_of_outer {s t : State} (h : t.outer = s.outer) (l : Nat) : t.cnv l = s.cnv l := congrArg Line.cnv (State.ln_of_outer h l)

@[simp] theorem State.cnv_publish (s : State) (f : Fr) (v l : Nat) : (s.publish f v).cnv l = s.cnv l := rfl
@[simp] theorem State.cnv_raiseAt (s : State) (f : Fr) (i l : Nat) : (s.raiseAt f i).cnv l = s.cnv l := State.cnv_of_outer (s.outer_raiseAt f i) l
@[simp] theorem State.cnv_raise (s : State) (f : Fr) (l : Nat) : (s.raise f).cnv l = s.cnv l := State.cnv_of_outer (s.outer_raise f) l
@[simp] theorem State.cnv_setFld (s : State) (f : Fr) (v l : Nat) : (s.setFld f v).cnv l = s.cnv l := State.cnv_of_outer (s.outer_setFld f v) l
@[simp] theorem State.cnv_cnvPool (s : State) (k l : Nat) : (s.cnvPool k).cnv l = s.cnv l := State.cnv_of_outer (s.outer_cnvPool k) l

/-- Showing the spares' age notes what it was judged by. -/
theorem State.cnv_cnvStale (s : State) (l : Nat) : ∃ x, (s.cnvStale l).cnv l = { s.cnv l with staleAt := x } := by
  unfold State.cnvStale
  extract_lets spares st a
  have ha : a.cnv l = s.cnv l := by
    refine foldl_keeps (State.cnv · l) _ (fun u i => ?_) _ s
    split
    · rfl
    · exact u.cnv_publish _ _ l
  clear_value a
  exact ⟨some (a.tTile l, a.deltaT l), by rw [State.cnv_modCnv, State.cnv_publish, ha]⟩

theorem State.cnv_cnvStale_of {β : Type} (p : CnvSt → β) (hp : ∀ c x, p { c with staleAt := x } = p c) (s : State) (l : Nat) :
    p ((s.cnvStale l).cnv l) = p (s.cnv l) := by
  obtain ⟨x, hx⟩ := s.cnv_cnvStale l
  rw [hx, hp]

theorem State.cnv_cmdTick (s : State) (f : State → State) (h : s.ticking) (l : Nat) : (s.cmdTick f).cnv l = (f s.cleared).cnv l :=
  congrArg Line.cnv (s.ln_cmdTick f h l)

/-- A change of the converters that changes nothing. -/
theorem State.modCnv_id (s : State) (l : Nat) (f : CnvSt → CnvSt) (h : f (s.cnv l) = s.cnv l) : s.modCnv l f = s := by
  have hx : ({ s.ln l with cnv := f (s.cnv l) } : Line) = s.ln l := by rw [h]; rfl
  show s.setLn l { s.ln l with cnv := f (s.cnv l) } = s
  rw [hx]
  unfold State.setLn State.ln
  split <;> rfl

/-! ### Status is shown beside the decisions -/

theorem State.decided_cnvPool (s : State) (l : Nat) : (s.cnvPool l).decided l = s.decided l :=
  State.cnvPool_keeps (State.decided · l) (fun u f v h => u.decided_publish l f v h) l (fun u => u.decided_raiseAt l _ 0 rfl) (fun _ _ => rfl) s

theorem State.decided_cnvStale (s : State) (l : Nat) : (s.cnvStale l).decided l = s.decided l :=
  State.cnvStale_keeps (State.decided · l) (fun u f v h => u.decided_publish l f v h) l (fun u _ => u.decided_modCnv l l _) s

theorem State.reg_cnvStale (s : State) (l off : Nat) : (s.cnvStale l).reg off = s.reg off :=
  State.cnvStale_keeps (State.reg · off) (fun _ _ _ _ => rfl) l (fun u _ => u.reg_modCnv l _ off) s

/-- A line's state and events once its pools and its spares' age are shown. -/
theorem State.decided_shown (s : State) (l : Nat) : ((s.cnvPool l).cnvStale l).decided l = s.decided l :=
  (State.decided_cnvStale _ l).trans (s.decided_cnvPool l)

theorem State.cnv_shown {β : Type} (p : CnvSt → β) (hp : ∀ c x, p { c with staleAt := x } = p c) (s : State) (l : Nat) :
    p (((s.cnvPool l).cnvStale l).cnv l) = p (s.cnv l) := by
  rw [State.cnv_cnvStale_of p hp, State.cnv_cnvPool]

theorem State.reg_shown_ne (s : State) (l : Nat) {off : Nat} (h : off ≠ Reg.CNV_EVENT l) (h2 : off ≠ Reg.FLT_EVENT) :
    ((s.cnvPool l).cnvStale l).reg off = s.reg off := (State.reg_cnvStale _ l off).trans (s.reg_cnvPool_ne l h h2)

theorem State.bit_shown_mono (s : State) (l : Nat) (g : Fr) (hl : g.lo = g.hi) (hg : s.bit g = true) : ((s.cnvPool l).cnvStale l).bit g = true :=
  (State.bit_congr _ _ _ (State.reg_cnvStale _ l _)).trans (s.bit_cnvPool_mono l g hl hg)

/-! ### One unit's role and slot -/

theorem unitFld_ne {l i j hi lo hi' lo' : Nat} (h : i ≠ j ∨ hi ≠ hi') : (⟨Reg.CNV_UNIT l i, hi, lo⟩ : Fr) ≠ ⟨Reg.CNV_UNIT l j, hi', lo'⟩ := by
  simp only [ne_eq, Fr.mk.injEq, Reg.CNV_UNIT]
  omega

theorem skewFld_ne {l i br hi lo : Nat} (h : hi ≠ 6) : (⟨Reg.CNV_UNIT l i, hi, lo⟩ : Fr) ≠ Reg.CNV_SKEW.TAP l br := by
  simp only [ne_eq, Fr.mk.injEq]
  omega

/-- A unit takes its role and slot; the other units keep theirs, and the branches their taps. -/
theorem State.setRole_decides (s : State) (l i r n : Nat) : (s.setRole l i r n).role l i = r ∧ (s.setRole l i r n).slot l i = n := by
  unfold State.setRole
  split
  next h => exact h
  next =>
    refine ⟨(State.role_of_decided (State.decided_cnvDirty _ l l) i).trans ?_, (State.slot_of_decided (State.decided_cnvDirty _ l l) i).trans ?_⟩
    · exact (State.nextFld_publish_ne _ n (unitFld_ne (.inr (by decide)))).trans (s.nextFld_publish _ r)
    · exact State.nextFld_publish _ _ n

theorem State.setRole_others (s : State) (l i r n : Nat) : (∀ j, j ≠ i → (s.setRole l i r n).role l j = s.role l j ∧
    (s.setRole l i r n).slot l j = s.slot l j) ∧ (s.setRole l i r n).tap l = s.tap l := by
  unfold State.setRole
  split
  next => exact ⟨fun _ _ => ⟨rfl, rfl⟩, rfl⟩
  next =>
    have hd := ((s.publish (Reg.CNV_UNIT.ROLE l i) r).publish (Reg.CNV_UNIT.SLOT l i) n).decided_cnvDirty l l
    refine ⟨fun j hj => ⟨(State.role_of_decided hd j).trans ?_, (State.slot_of_decided hd j).trans ?_⟩, funext fun br => (State.tap_of_decided hd br).trans ?_⟩
    · exact (State.nextFld_publish_ne _ n (unitFld_ne (.inl hj.symm))).trans (s.nextFld_publish_ne r (unitFld_ne (.inl hj.symm)))
    · exact (State.nextFld_publish_ne _ n (unitFld_ne (.inl hj.symm))).trans (s.nextFld_publish_ne r (unitFld_ne (.inl hj.symm)))
    · exact (State.nextFld_publish_ne _ n (skewFld_ne (by decide))).trans (s.nextFld_publish_ne r (skewFld_ne (by decide)))

@[simp] theorem State.reg_setRole (s : State) (l i r n off : Nat) : (s.setRole l i r n).reg off = s.reg off :=
  State.setRole_keeps (State.reg · off) (fun _ _ _ => rfl) (fun u l f => u.reg_modCnv l f off) s l i r n

theorem State.cnv_setRole (s : State) (l i r n : Nat) : ∃ b, (s.setRole l i r n).cnv l = { s.cnv l with dirty := b } := by
  unfold State.setRole
  split
  · exact ⟨_, rfl⟩
  · exact ⟨true, State.cnv_modCnv _ l _⟩

theorem State.branchRole_role {s : State} {l br r i : Nat} (h : s.branchRole l br r = some i) : s.role l i = r := by
  simpa using List.find?_some h

theorem State.liveSpare_role {s : State} {l br i : Nat} (h : s.liveSpare l br = some i) : s.role l i = 1 ∨ s.role l i = 2 := by
  unfold State.liveSpare at h
  rw [Option.or_eq_some_iff, Option.filter_eq_some_iff, Option.filter_eq_some_iff] at h
  obtain h | h := h
  · exact .inl (State.branchRole_role h.1)
  · exact .inr (State.branchRole_role h.2.1)

/-- What each step of a fold keeps holds after it. -/
theorem foldl_holds {σ α : Type} (I : σ → Prop) (f : σ → α → σ) (hf : ∀ s a, I s → I (f s a)) (xs : List α) (s : σ) (h : I s) : I (xs.foldl f s) := by
  induction xs generalizing s with
  | nil => exact h
  | cons x xs ih => exact ih _ (hf s x h)

/-! ### Masking (R241, R242)

A spare that takes a slot, a rover that is named, a slot left open: each writes roles of spares only, the plan of the line, and its events.  What
holds under those steps holds under the whole. -/

/-- What masking leaves of a line's converters, beside the priority steps. -/
def CnvSt.kept (c : CnvSt) : SMap UnitVal × SMap Nat × SMap Sums × SMap Nat × Option Nat × Nat × Nat :=
  (c.units, c.fails, c.win, c.winX, c.winTick, c.stepTicks, c.stepLen)

theorem CnvSt.kept_iff {c d : CnvSt} : CnvSt.kept d = c.kept ↔ d.units = c.units ∧ d.fails = c.fails ∧ d.win = c.win ∧ d.winX = c.winX ∧
    d.winTick = c.winTick ∧ d.stepTicks = c.stepTicks ∧ d.stepLen = c.stepLen := by
  simp only [CnvSt.kept, Prod.mk.injEq]

/-- What holds under the steps of masking. -/
structure Masking (l : Nat) (I : State → Prop) : Prop where
  role : ∀ u i r n, (u.role l i = 1 ∨ u.role l i = 2) → I u → I (u.setRole l i r n)
  plan : ∀ u f, (∀ c, CnvSt.kept (f c) = c.kept ∧ (f c).prio = c.prio) → I u → I (u.modCnv l f)
  event : ∀ u f n, f.off = Reg.CNV_EVENT l → f.lo = f.hi → f.hi < 32 → I u → I (u.raiseAt f n)

/-- What also holds when a rover begins a priority step. -/
def Priority (l : Nat) (I : State → Prop) : Prop :=
  ∀ u i, u.role l i = 2 → I u → ∀ e : PrioStep, e.unit = i → I (u.modCnv l fun c => { c.forget (· == i) with prio := c.prio ++ [e] })

section Mask

variable {l : Nat} {I : State → Prop} (hm : Masking l I)
include hm

theorem Masking.fixRover {s : State} (br : Nat) (h : I s) : I (s.fixRover l br) := by
  unfold State.fixRover
  split
  next h1 => exact hm.role s _ 2 0 (.inl (State.branchRole_role h1)) h
  · exact h

theorem Masking.slotTaken {s : State} (i slot : Nat) (h : I (s.setRole l i 0 slot)) : I (s.spareTakes l i slot) := by
  unfold State.spareTakes
  extract_lets rover u
  have hu : I u := hm.plan _ _ (fun c => ⟨rfl, rfl⟩) h
  exact hm.fixRover _ (hm.event u _ i rfl rfl (show 5 < 32 by decide) hu)

theorem Masking.spareTakes {s : State} (i slot : Nat) (hr : s.role l i = 1 ∨ s.role l i = 2) (h : I s) : I (s.spareTakes l i slot) :=
  hm.slotTaken i slot (hm.role s i 0 slot hr h)

theorem Masking.openSlot {s : State} (br slot : Nat) (h : I s) : I (s.openSlot l br slot) := by
  unfold State.openSlot
  exact hm.event _ _ _ rfl rfl (show 7 < 32 by decide) (hm.plan _ _ (fun c => ⟨rfl, rfl⟩) (hm.plan s _ (fun c => ⟨rfl, rfl⟩) h))

variable (hp : Priority l I)
include hp

omit hm in
theorem Masking.prioStart {s : State} (br slot : Nat) (h : I s) : I (s.prioStart l br slot) := by
  unfold State.prioStart
  split
  next i hi =>
    extract_lets n
    split
    · exact h
    · exact hp s i (State.branchRole_role hi) h _ rfl
  · exact h

theorem Masking.maskSlot {s : State} (br slot : Nat) (planned : Bool) (h : I s) : I (s.maskSlot l br slot planned) := by
  unfold State.maskSlot
  split
  · split
    · exact h
    · split
      next hi => exact hm.spareTakes _ slot (State.liveSpare_role hi) h
      · exact Masking.prioStart hp br slot (hm.openSlot br slot h)
  · exact hm.openSlot br slot h

theorem Masking.remask {s : State} (br : Nat) (h : I s) : I (State.remask l s br) := by
  unfold State.remask
  split
  · exact h
  · refine foldl_holds I _ (fun u k hu => ?_) _ s h
    split
    · exact hu
    · split
      next hi => exact hm.spareTakes _ _ (State.liveSpare_role hi) hu
      · exact Masking.prioStart hp _ _ hu

/-- A unit's failure: its record, then the mask of its slot. -/
theorem Masking.failUnit {s : State} (i : Nat) (h : I (s.unitFailed l i)) : I (s.failUnit l i) := by
  unfold State.failUnit
  extract_lets r slot planned u
  split
  · exact hm.maskSlot hp _ _ _ h
  · exact hm.fixRover _ h

end Mask

/-! ### A unit that stays in its role -/

theorem besideEvents (l : Nat) : Reg.CNV_STATUS l ≠ Reg.CNV_EVENT l ∧ Reg.CNV_STATUS l ≠ Reg.FLT_EVENT ∧ Reg.CNV_PASS_INFO l ≠ Reg.CNV_EVENT l ∧
    Reg.CNV_PASS_INFO l ≠ Reg.FLT_EVENT := by
  simp only [Reg.CNV_STATUS, Reg.CNV_EVENT, Reg.CNV_PASS_INFO, Reg.FLT_EVENT]
  omega

/-- A unit out of the pool of spares keeps its role and slot. -/
theorem masking_unit (l i r n : Nat) (h : r ≠ 1) (h2 : r ≠ 2) : Masking l fun u => u.role l i = r ∧ u.slot l i = n where
  role u j r' n' hj hu := by
    have hne : i ≠ j := by
      rintro rfl
      exact hj.elim (fun e => h (hu.1.symm.trans e)) fun e => h2 (hu.1.symm.trans e)
    obtain ⟨hr, hs⟩ := (u.setRole_others l j r' n').1 i hne
    exact ⟨hr.trans hu.1, hs.trans hu.2⟩
  plan u f _ hu := ⟨(State.role_of_decided (u.decided_modCnv l l f) i).trans hu.1, (State.slot_of_decided (u.decided_modCnv l l f) i).trans hu.2⟩
  event u f k hf _ _ hu := ⟨(State.role_of_decided (u.decided_raiseAt l f k hf) i).trans hu.1, (State.slot_of_decided (u.decided_raiseAt l f k hf) i).trans hu.2⟩

/-- Taps stand where they are. -/
theorem masking_taps (l : Nat) (x : Nat → Nat) : Masking l fun u => u.tap l = x where
  role u j r n _ hu := (u.setRole_others l j r n).2.trans hu
  plan u f _ hu := (congrArg (·.2.2) (u.decided_modCnv l l f)).trans hu
  event u f k hf _ _ hu := (congrArg (·.2.2) (u.decided_raiseAt l f k hf)).trans hu

/-- Registers beside the events keep their words. -/
theorem masking_reg (l off : Nat) (w : Word) (h : off ≠ Reg.CNV_EVENT l) (h2 : off ≠ Reg.FLT_EVENT) : Masking l fun u => u.reg off = w where
  role u j r n _ hu := (u.reg_setRole l j r n off).trans hu
  plan u f _ hu := (u.reg_modCnv l f off).trans hu
  event u f k hf _ _ hu := (u.reg_raiseAt_ne f k (hf ▸ h) h2).trans hu

/-- An event stays raised. -/
theorem masking_bit (l : Nat) (g : Fr) (hl : g.lo = g.hi) : Masking l fun u => u.bit g = true where
  role u j r n _ hu := (State.bit_congr _ _ _ (u.reg_setRole l j r n _)).trans hu
  plan u f _ hu := (State.bit_congr _ _ _ (u.reg_modCnv l f _)).trans hu
  event u f k _ h h2 hu := u.bit_raiseAt_mono f g k h h2 hl hu

/-- A line's windows, failures, working values and step stand. -/
theorem masking_cnv (l : Nat) (Q : CnvSt → Prop) (hQ : ∀ c d, CnvSt.kept d = c.kept → d.prio = c.prio → Q c → Q d) : Masking l fun u => Q (u.cnv l) where
  role u j r n _ hu := by
    obtain ⟨b, hb⟩ := u.cnv_setRole l j r n
    exact hQ _ _ (by rw [hb]; rfl) (by rw [hb]) hu
  plan u f hf hu := by
    rw [State.cnv_modCnv]
    exact hQ _ _ (hf _).1 (hf _).2 hu
  event u f k _ _ _ hu := by rwa [State.cnv_raiseAt]

/-- What a line's receiver tells its calibration: the tile clock's lock, its relock, the payload's seal. -/
def Line.calIn (x : Line) : Bool × Option Nat × Nat := (x.tileLock, x.rxRelock, x.psl)

theorem State.calIn_modCnv (s : State) (l : Nat) (f : CnvSt → CnvSt) : ((s.modCnv l f).ln l).calIn = (s.ln l).calIn := by
  unfold State.modCnv
  rw [State.ln_modLn]
  rfl

/-- It stands. -/
theorem masking_line (l : Nat) (x : Bool × Option Nat × Nat) : Masking l fun u => (u.ln l).calIn = x where
  role u j r n _ hu :=
    (State.setRole_keeps (fun u => (u.ln l).calIn) (fun _ _ _ => rfl) (fun u k f => by
      unfold State.modCnv State.modLn State.setLn State.ln
      split <;> split <;> rfl) u l j r n).trans hu
  plan u f _ hu := (u.calIn_modCnv l f).trans hu
  event u f k _ _ _ hu := by rwa [State.ln_of_outer (u.outer_raiseAt f k)]

theorem Masking.and {l : Nat} {I J : State → Prop} (hI : Masking l I) (hJ : Masking l J) : Masking l fun u => I u ∧ J u where
  role u i r n hr hu := ⟨hI.role u i r n hr hu.1, hJ.role u i r n hr hu.2⟩
  plan u f hf hu := ⟨hI.plan u f hf hu.1, hJ.plan u f hf hu.2⟩
  event u f k hf h h2 hu := ⟨hI.event u f k hf h h2 hu.1, hJ.event u f k hf h h2 hu.2⟩

end Sys2Proof.Machine
end

section
/-! SUPPORT. Calibration passes, steps and priority steps (R229-R234, R241, R242). -/

namespace Sys2Proof.Machine

open Sys2Proof

/-! ### A pass starts (R233) -/

theorem State.passStart_starts (s : State) {l : Nat} (hl : l < 2) (h : s.passDue l = true) :
    (s.passStart l).bit (Reg.CNV_STATUS.PASS_RUN l) = true ∧ (s.passStart l).fld (Reg.CNV_PASS_INFO.STEP l) = 0 ∧
      (s.passStart l).bit (Reg.CNV_CTL.START l) = false ∧ ((s.passStart l).cnv l).stepTicks = 0 ∧
      ((s.passStart l).cnv l).stepLen = s.fld (Reg.CNV_CAL_CFG.STEP_TICKS l) ∧
      s.sameRegs (s.passStart l) [Reg.CNV_STATUS l, Reg.CNV_PASS_INFO l, Reg.CNV_CTL l] := by
  have hsi : Reg.CNV_PASS_INFO l ≠ Reg.CNV_STATUS l := by simp only [Reg.CNV_PASS_INFO, Reg.CNV_STATUS]; omega
  have hcs : Reg.CNV_CTL l ≠ Reg.CNV_STATUS l := by simp only [Reg.CNV_CTL, Reg.CNV_STATUS]; omega
  have hci : Reg.CNV_CTL l ≠ Reg.CNV_PASS_INFO l := by simp only [Reg.CNV_CTL, Reg.CNV_PASS_INFO]; omega
  unfold State.passStart
  rw [if_pos ⟨hl, h⟩]
  extract_lets a
  have hr : s.sameRegs a [Reg.CNV_STATUS l, Reg.CNV_PASS_INFO l, Reg.CNV_CTL l] := fun off ho => by
    simp only [List.mem_cons, List.not_mem_nil, or_false, not_or] at ho
    exact (State.reg_setFld_ne _ 0 (Ne.symm ho.2.2)).trans ((State.reg_setFld_ne _ 0 (Ne.symm ho.2.1)).trans (s.reg_setFld_ne 1 (Ne.symm ho.1)))
  have hrun : a.bit (Reg.CNV_STATUS.PASS_RUN l) = true := by
    rw [State.bit_congr _ _ _ ((State.reg_setFld_ne _ 0 hcs).trans (State.reg_setFld_ne _ 0 hsi)), State.bit_setFld s _ rfl (show 1 < 32 by decide)]
  have hstep : a.fld (Reg.CNV_PASS_INFO.STEP l) = 0 := by
    rw [State.fld_congr _ _ _ (State.reg_setFld_ne _ 0 hci), State.fld_setFld _ _ _ (show 0 ≤ 4 by decide) (show 4 < 32 by decide), Nat.zero_mod]
  have hstart : a.bit (Reg.CNV_CTL.START l) = false := by
    rw [State.bit_eq, State.fld_setFld _ _ _ le_rfl (show 16 < 32 by decide), Nat.zero_mod]; rfl
  have hlen : a.fld (Reg.CNV_CAL_CFG.STEP_TICKS l) = s.fld (Reg.CNV_CAL_CFG.STEP_TICKS l) := State.fld_congr _ _ _ (hr _ (by
    simp only [Reg.CNV_CAL_CFG, Reg.CNV_STATUS, Reg.CNV_PASS_INFO, Reg.CNV_CTL, List.mem_cons, List.not_mem_nil, or_false]; omega))
  clear_value a
  refine ⟨(State.bit_congr _ _ _ (a.reg_modCnv l _ _)).trans hrun, (State.fld_congr _ _ _ (a.reg_modCnv l _ _)).trans hstep,
    (State.bit_congr _ _ _ (a.reg_modCnv l _ _)).trans hstart, ?_, ?_, fun off ho => (a.reg_modCnv l _ _).trans (hr off ho)⟩
  · rw [State.cnv_modCnv]
  · rw [State.cnv_modCnv, ← hlen]

theorem State.passStart_idle (s : State) (l : Nat) (h : s.passDue l = false) : s.passStart l = s := if_neg fun hn => Bool.eq_false_iff.1 h hn.2

/-! ### Steps without a due priority step (R230, R234) -/

theorem State.passSteps_congr {s t : State} {l : Nat} (h : t.decided l = s.decided l) : t.passSteps l = s.passSteps l := by
  have hr : t.role l = s.role l := congrArg (·.1) h
  unfold State.passSteps State.branchRole State.branchUsable
  rw [hr]

theorem State.stepEnds_congr {s t : State} {l : Nat} (hr : t.reg (Reg.CNV_STATUS l) = s.reg (Reg.CNV_STATUS l))
    (hn : (t.cnv l).stepTicks = (s.cnv l).stepTicks) (hl : (t.cnv l).stepLen = (s.cnv l).stepLen) : t.stepEnds l = s.stepEnds l := by
  unfold State.stepEnds
  rw [State.bit_congr s t _ hr, hn, hl]

theorem State.stepEnd_quiet (s : State) {l : Nat} (hl : l < 2) (h : ∀ p ∈ (s.cnv l).prio, p.left ≠ 0) :
    s.stepEnd l = if s.stepEnds l then ((s.passStep l).cnvPool l).cnvStale l else s := by
  have hdue : ((s.cnv l).prio.filter fun p => p.left == 0) = [] := List.filter_eq_nil_iff.2 fun p hp => by simpa using h p hp
  have hall : ((s.cnv l).prio.filter fun p => p.left != 0) = (s.cnv l).prio := List.filter_eq_self.2 fun p hp => by simpa using h p hp
  have hid : s.modCnv l (fun c => { c with prio := c.prio.filter fun p => p.left != 0 }) = s := s.modCnv_id l _ (by rw [hall])
  unfold State.stepEnd
  rw [if_neg (by omega), hdue]
  simp only [List.foldl_nil, List.map_nil, List.eraseDups_nil, hid, List.isEmpty_nil, if_true]

theorem State.count_keeps (s : State) (k n l : Nat) : (s.count k n).decided l = s.decided l ∧ (s.count k n).cnv l = s.cnv l :=
  ⟨State.decided_of_regs l (by simp only [State.count_frame]) fun _ => ⟨s.reg_count k n _, s.reg_count k n _⟩, State.cnv_of_outer (s.outer_count k n) l⟩

/-- The branches of a pass's step have ended. -/
def State.branchesDone (s : State) (l st : Nat) : State := (List.range 32).foldl (fun (u : State) br => (u.branchStep l st br).openSlots l br) s

theorem State.passStep_eq (s : State) (l : Nat) : s.passStep l = if (s.branchesDone l (s.fld (Reg.CNV_PASS_INFO.STEP l))).passSteps l ≤
      s.fld (Reg.CNV_PASS_INFO.STEP l) + 1 then ((s.branchesDone l (s.fld (Reg.CNV_PASS_INFO.STEP l))).cnvCount l 2).passDone l
    else ((s.branchesDone l (s.fld (Reg.CNV_PASS_INFO.STEP l))).cnvCount l 2).stepNext l (s.fld (Reg.CNV_PASS_INFO.STEP l) + 1) := by
  unfold State.passStep
  extract_lets st a b
  rw [show b.passSteps l = a.passSteps l from State.passSteps_congr (a.count_keeps _ 1 l).1]
  rfl

theorem State.stepNext_begins (s : State) (l st : Nat) : ((s.stepNext l st).cnv l).stepTicks = 0 ∧
    (s.stepNext l st).fld (Reg.CNV_PASS_INFO.STEP l) = st % 32 := by
  unfold State.stepNext
  refine ⟨by rw [State.cnv_modCnv], (State.fld_congr _ _ _ (State.reg_modCnv _ l _ _)).trans ?_⟩
  exact State.fld_setFld s _ st (show 0 ≤ 4 by decide) (show 4 < 32 by decide)

/-- A pass that completes runs no more, at step 0, with its event. -/
theorem State.passDone_ends (s : State) (l : Nat) : ((s.passDone l).cnv l).stepTicks = 0 ∧ (s.passDone l).fld (Reg.CNV_PASS_INFO.STEP l) = 0 ∧
    (s.passDone l).bit (Reg.CNV_STATUS.PASS_RUN l) = false ∧ (s.passDone l).bit (Reg.CNV_EVENT.PASS_DONE l) = true := by
  have hsi : Reg.CNV_PASS_INFO l ≠ Reg.CNV_STATUS l := by simp only [Reg.CNV_PASS_INFO, Reg.CNV_STATUS]; omega
  obtain ⟨hs, hs2, hi, hi2⟩ := besideEvents l
  unfold State.passDone
  extract_lets ts t hi' lo a b c e
  clear_value t a
  have hstep : c.fld (Reg.CNV_PASS_INFO.STEP l) = 0 := by
    refine (State.fld_setFld_ne b _ _ _ (show 16 ≤ 31 by decide) (show 31 < 32 by decide) (.inr (.inr (show 4 < 16 by decide)))).trans ?_
    rw [State.fld_setFld _ _ _ (show 0 ≤ 4 by decide) (show 4 < 32 by decide), Nat.zero_mod]
  have hrun : c.bit (Reg.CNV_STATUS.PASS_RUN l) = false := by
    rw [State.bit_congr (a.setFld (Reg.CNV_STATUS.PASS_RUN l) 0) c _ ((State.reg_setFld_ne _ _ hsi).trans (State.reg_setFld_ne _ 0 hsi)), State.bit_eq,
      State.fld_setFld _ _ _ le_rfl (show 1 < 32 by decide), Nat.zero_mod]
    rfl
  clear_value c
  have he : (e.cnv l).stepTicks = 0 := by rw [State.cnv_modCnv]
  have her (off : Nat) : e.reg off = c.reg off := c.reg_modCnv l _ off
  clear_value e
  have hr {off : Nat} (h : off ≠ Reg.CNV_EVENT l) (h2 : off ≠ Reg.FLT_EVENT) :
      ((e.publish (Reg.CNV_TEMP.T_LAST l) (twos 16 t)).raise (Reg.CNV_EVENT.PASS_DONE l)).reg off = c.reg off := (State.reg_raise_ne _ _ h h2).trans (her off)
  exact ⟨by rw [State.cnv_raise, State.cnv_publish, he], (State.fld_congr _ _ _ (hr hi hi2)).trans hstep,
    (State.bit_congr _ _ _ (hr hs hs2)).trans hrun, State.bit_raise _ _ rfl (show 1 < 32 by decide)⟩

/-! ### A priority step ends (R242) -/

section Prio

variable {l i n : Nat} {v : UnitVal} {w : Word} {a b : Nat}

/-- A unit has taken a slot, with its working values; the pass's step is as it was. -/
def Placed (l i n : Nat) (v : UnitVal) (w : Word) (a b : Nat) (Q : List PrioStep → Prop) (u : State) : Prop :=
  (u.role l i = 0 ∧ u.slot l i = n) ∧ u.reg (Reg.CNV_STATUS l) = w ∧
    (u.cnv l).units.get noUnit i = v ∧ (u.cnv l).stepTicks = a ∧ (u.cnv l).stepLen = b ∧ Q (u.cnv l).prio

theorem masking_placed (Q : List PrioStep → Prop) : Masking l (Placed l i n v w a b Q) := by
  obtain ⟨hs, hs2, -, -⟩ := besideEvents l
  refine (masking_unit l i 0 n (by decide) (by decide)).and ((masking_reg l (Reg.CNV_STATUS l) w hs hs2).and
    (masking_cnv l (fun c => c.units.get noUnit i = v ∧ c.stepTicks = a ∧ c.stepLen = b ∧ Q c.prio) fun c d hk hp h => ?_))
  obtain ⟨hu, -, -, -, -, ht, hl⟩ := CnvSt.kept_iff.1 hk
  rwa [hu, ht, hl, hp]

/-- A unit that has taken a slot stays there when a rover begins a priority step, which is another unit's. -/
theorem priority_placed : Priority l (Placed l i n v w a b fun q => ∀ e ∈ q, e.unit ≠ i) := by
  rintro u j hj ⟨⟨hr, hs⟩, hw, hu, ht, hl, hq⟩ e he
  have hd := u.decided_modCnv l l fun c => { c.forget (· == j) with prio := c.prio ++ [e] }
  refine ⟨⟨(State.role_of_decided hd i).trans hr, (State.slot_of_decided hd i).trans hs⟩, (u.reg_modCnv l _ _).trans hw, ?_⟩
  rw [State.cnv_modCnv]
  refine ⟨hu, ht, hl, fun x hx => ?_⟩
  obtain hx | hx := List.mem_append.1 hx
  · exact hq x hx
  · rw [List.mem_singleton.1 hx, he]
    rintro rfl
    omega

theorem State.spareTakes_used (s : State) (l i slot : Nat) : (s.spareTakes l i slot).bit (Reg.CNV_EVENT.SPARE_USED l) = true := by
  unfold State.spareTakes
  extract_lets rover u
  exact (masking_bit l (Reg.CNV_EVENT.SPARE_USED l) rfl).fixRover _ (State.bit_raiseAt _ _ _ rfl (show 5 < 32 by decide))

theorem State.decided_setUnit (s : State) (l i : Nat) (v : UnitVal) : (s.setUnit l i v).decided l = s.decided l := by
  unfold State.setUnit State.showUnit
  rw [State.decided_cnvDirty, State.decided_publish _ _ _ _ (show 31 ∉ decidedHi by decide), State.decided_publish _ _ _ _ (show 15 ∉ decidedHi by decide),
    State.decided_modCnv]

theorem State.cnv_setUnit (s : State) (l i : Nat) (v : UnitVal) :
    (s.setUnit l i v).cnv l = { s.cnv l with units := (s.cnv l).units.set noUnit i v, dirty := true } := by
  unfold State.setUnit State.showUnit State.cnvDirty
  rw [State.cnv_modCnv, State.cnv_publish, State.cnv_publish, State.cnv_modCnv]

/-- The unit of a priority step that ends takes its slot. -/
theorem State.prioEnd_places (s : State) (l : Nat) (p : PrioStep) (hr : s.role l p.unit = 1 ∨ s.role l p.unit = 2)
    (hv : (s.cnv l).stepValues p.unit = some v) :
    Placed l p.unit p.slot v (s.reg (Reg.CNV_STATUS l)) (s.cnv l).stepTicks (s.cnv l).stepLen (· = (s.cnv l).prio) (State.prioEnd l s p) ∧
      (State.prioEnd l s p).bit (Reg.CNV_EVENT.SPARE_USED l) = true := by
  unfold State.prioEnd
  rw [if_neg (by omega), hv]
  dsimp only
  generalize ho : (s.setUnit l p.unit v).modCnv l _ = u
  have hreg : u.reg (Reg.CNV_STATUS l) = s.reg (Reg.CNV_STATUS l) := by
    rw [← ho, State.reg_modCnv]
    exact State.setUnit_keeps (State.reg · (Reg.CNV_STATUS l)) (fun _ _ _ => rfl) (fun u l f => u.reg_modCnv l f _) s l p.unit v
  have hcnv : (u.cnv l).units.get noUnit p.unit = v ∧ (u.cnv l).stepTicks = (s.cnv l).stepTicks ∧ (u.cnv l).stepLen = (s.cnv l).stepLen ∧
      (u.cnv l).prio = (s.cnv l).prio := by
    rw [← ho, State.cnv_modCnv, State.cnv_setUnit]
    exact ⟨SMap.get_set_self _ _ _ _, rfl, rfl, rfl⟩
  clear ho
  refine ⟨(masking_placed _).slotTaken _ _ ⟨u.setRole_decides l _ 0 _, (u.reg_setRole l _ _ _ _).trans hreg, ?_⟩, u.spareTakes_used l _ _⟩
  obtain ⟨b, hb⟩ := u.cnv_setRole l p.unit 0 p.slot
  rw [hb]
  exact hcnv

/-- With one priority step due and no step of the pass ending, its unit takes the failed slot. -/
theorem State.stepEnd_prio (s : State) {l : Nat} (hl : l < 2) (p : PrioStep) (hp : (s.cnv l).prio = [p]) (h0 : p.left = 0)
    (hr : s.role l p.unit = 1 ∨ s.role l p.unit = 2) (hv : (s.cnv l).stepValues p.unit = some v) (hs : s.stepEnds l = false) :
    (s.stepEnd l).role l p.unit = 0 ∧ (s.stepEnd l).slot l p.unit = p.slot ∧ (∀ q ∈ ((s.stepEnd l).cnv l).prio, q.unit ≠ p.unit) ∧
      ((s.stepEnd l).cnv l).units.get noUnit p.unit = v ∧ (s.stepEnd l).bit (Reg.CNV_EVENT.SPARE_USED l) = true := by
  have hdue : ((s.cnv l).prio.filter fun p => p.left == 0) = [p] := by rw [hp, List.filter_cons_of_pos (by simp [h0]), List.filter_nil]
  obtain ⟨⟨⟨hrole, hslot⟩, hw, hu, ht, hn, hq⟩, hused⟩ := s.prioEnd_places l p hr hv
  generalize hx : (State.prioEnd l s p).modCnv l (fun c => { c with prio := c.prio.filter fun p => p.left != 0 }) = x
  have hxp : Placed l p.unit p.slot v (s.reg (Reg.CNV_STATUS l)) (s.cnv l).stepTicks (s.cnv l).stepLen (fun q => ∀ e ∈ q, e.unit ≠ p.unit) x := by
    have hd := (State.prioEnd l s p).decided_modCnv l l fun c => { c with prio := c.prio.filter fun p => p.left != 0 }
    rw [← hx]
    refine ⟨⟨(State.role_of_decided hd _).trans hrole, (State.slot_of_decided hd _).trans hslot⟩, (State.reg_modCnv _ l _ _).trans hw, ?_⟩
    rw [State.cnv_modCnv]
    refine ⟨hu, ht, hn, fun e he => ?_⟩
    rw [hq, hp, List.filter_cons_of_neg (by simp [h0]), List.filter_nil] at he
    exact absurd he (List.not_mem_nil)
  have hxu : x.bit (Reg.CNV_EVENT.SPARE_USED l) = true := by rw [← hx, State.bit_congr _ _ _ (State.reg_modCnv _ l _ _), hused]
  obtain ⟨⟨⟨hrole, hslot⟩, hw, hu, ht, hn, hq⟩, hused⟩ : Placed l p.unit p.slot v (s.reg (Reg.CNV_STATUS l)) (s.cnv l).stepTicks (s.cnv l).stepLen
      (fun q => ∀ e ∈ q, e.unit ≠ p.unit) (State.remask l x p.branch) ∧ (State.remask l x p.branch).bit (Reg.CNV_EVENT.SPARE_USED l) = true := by
    have hb : Priority l fun u => u.bit (Reg.CNV_EVENT.SPARE_USED l) = true := fun u _ _ hu _ _ => (State.bit_congr _ _ _ (u.reg_modCnv l _ _)).trans hu
    exact ⟨(masking_placed _).remask priority_placed _ hxp, (masking_bit l _ rfl).remask hb _ hxu⟩
  have he : s.stepEnd l = ((State.remask l x p.branch).cnvPool l).cnvStale l := by
    have hns : (State.remask l x p.branch).stepEnds l = false := (State.stepEnds_congr hw ht hn).trans hs
    unfold State.stepEnd
    rw [if_neg (by omega), hdue]
    simp only [List.foldl_cons, List.foldl_nil, List.map_cons, List.map_nil, List.eraseDups_cons, List.filter_nil, List.eraseDups_nil, hx, hns, Bool.false_eq_true, if_false, List.isEmpty_cons]
  have hd := (State.remask l x p.branch).decided_shown l
  rw [he]
  refine ⟨(State.role_of_decided hd _).trans hrole, (State.slot_of_decided hd _).trans hslot, ?_, ?_, State.bit_shown_mono _ l _ rfl hused⟩
  · rw [State.cnv_shown CnvSt.prio fun _ _ => rfl]
    exact hq
  · rw [State.cnv_shown CnvSt.units fun _ _ => rfl]
    exact hu

end Prio

end Sys2Proof.Machine
end

section
/-! SUPPORT. Skew windows and cells; the converters (R230-R234, R240-R244). -/

namespace Sys2Proof.Machine

open Sys2Proof

/-! ### A unit's failure (R240) -/

theorem State.outer_logRepair (s : State) (src kind st : Nat) (loc : List Byte) : (s.logRepair src kind st loc).outer = s.outer := by
  refine (State.outer_withMem _ _).trans ?_
  simp only [State.outer, State.queueRec_frame]

theorem State.decided_logRepair (s : State) (src kind st : Nat) (loc : List Byte) (l : Nat) : (s.logRepair src kind st loc).decided l = s.decided l := by
  have h2 : besideUnits l Reg.FLT_EVENT := besideUnits_low (by decide)
  exact State.decided_of_regs l (s.logRepair_pubQ _ _ _ _) fun k => ⟨s.reg_logRepair_ne _ _ _ _ (h2 k).1.symm, s.reg_logRepair_ne _ _ _ _ (h2 k).2.symm⟩

/-- A unit's record changes no decision but its role. -/
theorem State.decided_unitFailed (s : State) (l i : Nat) : (s.unitFailed l i).decided l = (s.publish (Reg.CNV_UNIT.ROLE l i) 3).decided l := by
  unfold State.unitFailed
  rw [State.decided_logRepair, State.cnvCount, (State.count_keeps _ _ _ l).1, State.decided_raiseAt _ l _ i rfl, State.decided_cnvDirty]

theorem State.unitFailed_role (s : State) (l i : Nat) : (s.unitFailed l i).role l i = 3 :=
  (State.role_of_decided (s.decided_unitFailed l i) i).trans (s.nextFld_publish _ 3)

theorem State.unitFailed_others (s : State) (l i : Nat) : (∀ j, j ≠ i → (s.unitFailed l i).role l j = s.role l j) ∧
    (s.unitFailed l i).slot l = s.slot l ∧ (s.unitFailed l i).tap l = s.tap l := by
  have hd := s.decided_unitFailed l i
  refine ⟨fun j hj => (State.role_of_decided hd j).trans (s.nextFld_publish_ne 3 (unitFld_ne (.inl hj.symm))), funext fun j => ?_, funext fun br => ?_⟩
  · exact (State.slot_of_decided hd j).trans (s.nextFld_publish_ne 3 (unitFld_ne (.inr (by decide))))
  · exact (State.tap_of_decided hd br).trans (s.nextFld_publish_ne 3 (skewFld_ne (by decide)))

theorem State.reg_unitFailed_ne (s : State) (l i : Nat) {off : Nat} (h : off ≠ Reg.CNV_EVENT l) (h2 : off ≠ Reg.FLT_EVENT) :
    (s.unitFailed l i).reg off = s.reg off := by
  unfold State.unitFailed
  rw [State.reg_logRepair_ne _ _ _ _ _ h2, State.cnvCount, State.reg_count, State.reg_raiseAt_ne _ _ _ h h2, State.cnvDirty, State.reg_modCnv, State.reg_publish]

theorem State.ln_unitFailed (s : State) (l i : Nat) : (s.unitFailed l i).ln l = { s.ln l with cnv := { s.cnv l with dirty := true } } := by
  unfold State.unitFailed
  rw [State.ln_of_outer (State.outer_logRepair _ _ _ _ _), State.cnvCount, State.ln_of_outer (State.outer_count _ _ _), State.ln_of_outer (State.outer_raiseAt _ _ _)]
  exact State.ln_modLn _ l _

theorem State.cnv_unitFailed (s : State) (l i : Nat) : (s.unitFailed l i).cnv l = { s.cnv l with dirty := true } := congrArg Line.cnv (s.ln_unitFailed l i)

theorem State.bit_logRepair (s : State) (src kind st : Nat) (loc : List Byte) (g : Fr) (hl : g.lo = g.hi) (hg : s.bit g = true) :
    (s.logRepair src kind st loc).bit g = true := s.bit_queueRec 0x0009 1 src _ g hl hg

theorem State.unitFailed_event (s : State) (l i : Nat) : (s.unitFailed l i).bit (Reg.CNV_EVENT.ADC_FAIL l) = true := by
  unfold State.unitFailed
  refine State.bit_logRepair _ _ _ _ _ _ rfl ((State.bit_congr _ _ _ (State.reg_count _ _ _ _)).trans ?_)
  exact State.bit_raiseAt _ _ _ rfl (show 3 < 32 by decide)

theorem State.bit_unitFailed_mono (s : State) (l i : Nat) (g : Fr) (hl : g.lo = g.hi) (hg : s.bit g = true) : (s.unitFailed l i).bit g = true := by
  unfold State.unitFailed
  refine State.bit_logRepair _ _ _ _ _ _ hl ((State.bit_congr _ _ _ (State.reg_count _ _ _ _)).trans ?_)
  exact State.bit_raiseAt_mono _ _ g i rfl (show 3 < 32 by decide) hl ((State.bit_congr _ _ _ (State.reg_modCnv _ l _ _)).trans hg)

/-! ### Windows (R240) -/

theorem State.winFails_congr {s t : State} (l i : Nat) (hd : t.reg (Reg.FRM_STATUS l) = s.reg (Reg.FRM_STATUS l))
    (hf : t.reg (Reg.CNV_FAIL_CFG l) = s.reg (Reg.CNV_FAIL_CFG l)) (hw : (t.cnv l).win = (s.cnv l).win) : t.winFails l i = s.winFails l i := by
  unfold State.winFails CnvSt.winAdc
  rw [State.fld_congr s t _ hd, State.fld_congr s t (Reg.CNV_FAIL_CFG.MEAN_LIM l) hf, State.fld_congr s t (Reg.CNV_FAIL_CFG.PWR_LIM l) hf, hw]

/-- What judging a window keeps: what masking keeps, where the count of the unit's failures and its failure keep it. -/
theorem Masking.judgeWin {l : Nat} {I : State → Prop} (hm : Masking l I) (hp : Priority l I) (j : Nat)
    (hc : ∀ u k, I u → I (State.modCnv u l fun c => { c with fails := c.fails.set natZero j k }))
    (hf : ∀ u, u.role l j = 0 → I u → I (u.unitFailed l j)) {s : State} (h : I s) : I (State.judgeWin l s j) := by
  unfold State.judgeWin
  dsimp only
  split
  · exact hc s 0 h
  next hr =>
    split
    · exact h
    · split
      · split
        · exact hm.failUnit hp j (hf _ ((State.role_of_decided (s.decided_modCnv l l _) j).trans (not_not.1 hr)) (hc s _ h))
        · exact hc s _ h
      · exact hc s 0 h

/-- An active unit in its second failing window, before it is judged. -/
def Failing (l i n : Nat) (w : SMap Sums) (x : SMap Nat) (d f : Word) (u : State) : Prop :=
  (u.role l i = 0 ∧ u.slot l i = n) ∧ u.reg (Reg.FRM_STATUS l) = d ∧ u.reg (Reg.CNV_FAIL_CFG l) = f ∧
    (u.cnv l).fails.get natZero i = 1 ∧ (u.cnv l).win = w ∧ (u.cnv l).winX = x

/-- A unit that has failed. -/
def HasFailed (l i n : Nat) (u : State) : Prop := (u.role l i = 3 ∧ u.slot l i = n) ∧ u.bit (Reg.CNV_EVENT.ADC_FAIL l) = true

theorem besideWindow (l : Nat) : Reg.FRM_STATUS l ≠ Reg.CNV_EVENT l ∧ Reg.FRM_STATUS l ≠ Reg.FLT_EVENT ∧ Reg.CNV_FAIL_CFG l ≠ Reg.CNV_EVENT l ∧
    Reg.CNV_FAIL_CFG l ≠ Reg.FLT_EVENT := by
  simp only [Reg.FRM_STATUS, Reg.CNV_EVENT, Reg.CNV_FAIL_CFG, Reg.FLT_EVENT]
  omega

section Window

variable {l i n : Nat} {w : SMap Sums} {x : SMap Nat} {d f : Word}

theorem masking_failing : Masking l (Failing l i n w x d f) := by
  obtain ⟨hd, hd2, hf, hf2⟩ := besideWindow l
  refine (masking_unit l i 0 n (by decide) (by decide)).and ((masking_reg l _ d hd hd2).and ((masking_reg l _ f hf hf2).and
    (masking_cnv l (fun c => c.fails.get natZero i = 1 ∧ c.win = w ∧ c.winX = x) fun c e hk _ h => ?_)))
  obtain ⟨-, hfl, hw, hx, -, -, -⟩ := CnvSt.kept_iff.1 hk
  rwa [hfl, hw, hx]

/-- A change of a line's converters that keeps its windows, and the failures of a unit. -/
theorem Failing.modCnv {u : State} (h : Failing l i n w x d f u) (g : CnvSt → CnvSt) (hf : ∀ c, (g c).fails.get natZero i = c.fails.get natZero i)
    (hw : ∀ c, (g c).win = c.win ∧ (g c).winX = c.winX) : Failing l i n w x d f (u.modCnv l g) := by
  obtain ⟨⟨hr, hs⟩, hd, hc, h1, h2, h3⟩ := h
  have hdec := u.decided_modCnv l l g
  refine ⟨⟨(State.role_of_decided hdec i).trans hr, (State.slot_of_decided hdec i).trans hs⟩, (u.reg_modCnv l _ _).trans hd, (u.reg_modCnv l _ _).trans hc, ?_⟩
  rw [State.cnv_modCnv]
  exact ⟨(hf _).trans h1, (hw _).1.trans h2, (hw _).2.trans h3⟩

theorem priority_failing : Priority l (Failing l i n w x d f) := fun _ _ _ hu _ _ => hu.modCnv _ (fun _ => rfl) fun _ => ⟨rfl, rfl⟩

theorem masking_hasFailed : Masking l (HasFailed l i n) := (masking_unit l i 3 n (by decide) (by decide)).and (masking_bit l _ rfl)

theorem HasFailed.modCnv {u : State} (h : HasFailed l i n u) (g : CnvSt → CnvSt) : HasFailed l i n (u.modCnv l g) := by
  have hdec := u.decided_modCnv l l g
  exact ⟨⟨(State.role_of_decided hdec i).trans h.1.1, (State.slot_of_decided hdec i).trans h.1.2⟩, (State.bit_congr _ _ _ (u.reg_modCnv l _ _)).trans h.2⟩

theorem priority_hasFailed : Priority l (HasFailed l i n) := fun _ _ _ hu _ _ => hu.modCnv _

/-- Another unit's window does not touch it. -/
theorem Failing.judgeWin {s : State} {j : Nat} (hj : j ≠ i) (h : Failing l i n w x d f s) : Failing l i n w x d f (State.judgeWin l s j) := by
  obtain ⟨hd, hd2, hf, hf2⟩ := besideWindow l
  refine masking_failing.judgeWin priority_failing j (fun u k hu => hu.modCnv _ (fun c => SMap.get_set_ne _ _ _ hj) fun _ => ⟨rfl, rfl⟩) ?_ h
  rintro u - ⟨⟨hr, hs⟩, h1, h2, h3⟩
  obtain ⟨hro, hso, -⟩ := u.unitFailed_others l j
  refine ⟨⟨(hro i hj.symm).trans hr, (congrFun hso i).trans hs⟩, (u.reg_unitFailed_ne l j hd hd2).trans h1, (u.reg_unitFailed_ne l j hf hf2).trans h2, ?_⟩
  rw [State.cnv_unitFailed]
  exact h3

/-- A unit that has failed stays so. -/
theorem HasFailed.judgeWin {s : State} (j : Nat) (h : HasFailed l i n s) : HasFailed l i n (State.judgeWin l s j) := by
  refine masking_hasFailed.judgeWin priority_hasFailed j (fun u k hu => hu.modCnv _) ?_ h
  rintro u hj ⟨⟨hr, hs⟩, hb⟩
  obtain ⟨hro, hso, -⟩ := u.unitFailed_others l j
  have hne : i ≠ j := by rintro rfl; omega
  exact ⟨⟨(hro i hne).trans hr, (congrFun hso i).trans hs⟩, u.bit_unitFailed_mono l j _ rfl hb⟩

/-- The second failing window in a row fails the unit. -/
theorem Failing.fails {s : State} (h : Failing l i n w x d f s) (h0 : (w.get noSums i).n ≠ 0) (hx : x.get natZero i ≤ (w.get noSums i).n)
    (hw : s.winFails l i = true) : HasFailed l i n (State.judgeWin l s i) := by
  obtain ⟨⟨hr, hs⟩, -, -, h1, h2, h3⟩ := h
  unfold State.judgeWin
  rw [if_neg (not_not.2 hr)]
  dsimp only
  rw [h2, h3, if_neg (by omega), if_pos hw, h1]
  simp only [Nat.reduceAdd, if_true]
  refine masking_hasFailed.failUnit priority_hasFailed i ⟨⟨State.unitFailed_role _ l i, ?_⟩, State.unitFailed_event _ l i⟩
  exact (congrFun (State.unitFailed_others _ l i).2.1 i).trans ((State.slot_of_decided (s.decided_modCnv l l _) i).trans hs)

/-- Among all units' windows, too. -/
theorem Failing.judged {s : State} (h : Failing l i n w x d f s) (hi : i < 576) (h0 : (w.get noSums i).n ≠ 0) (hx : x.get natZero i ≤ (w.get noSums i).n)
    (hw : s.winFails l i = true) : HasFailed l i n ((List.range 576).foldl (State.judgeWin l) s) := by
  obtain ⟨as, bs, hr⟩ := List.append_of_mem (List.mem_range.2 hi)
  have hn : i ∉ as := fun hm => by
    have hd : (as ++ i :: bs).Nodup := hr ▸ List.nodup_range
    exact List.disjoint_of_nodup_append hd hm List.mem_cons_self
  have ha : ∀ (as : List Nat), i ∉ as → ∀ u, Failing l i n w x d f u → Failing l i n w x d f (as.foldl (State.judgeWin l) u) := by
    intro as
    induction as with
    | nil => exact fun _ u hu => hu
    | cons j as ih =>
      intro hn u hu
      obtain ⟨hj, hn⟩ := not_or.1 fun h => hn (List.mem_cons.2 h)
      exact ih hn _ (hu.judgeWin (Ne.symm hj))
  have hu := ha as hn s h
  have hwu : (as.foldl (State.judgeWin l) s).winFails l i = true := by
    rw [State.winFails_congr l i (hu.2.1.trans h.2.1.symm) (hu.2.2.1.trans h.2.2.1.symm) (hu.2.2.2.2.1.trans h.2.2.2.2.1.symm), hw]
  rw [hr, List.foldl_append, List.foldl_cons]
  exact foldl_holds (HasFailed l i n) _ (fun u j hu => hu.judgeWin j) bs _ (hu.fails h0 hx hwu)

end Window

/-! ### Taps (R231) -/

/-- The registers that say whether the skew loop runs. -/
def skewRegs (l : Nat) : List Nat := [Reg.CNV_CTL l, Reg.FRM_STATUS l, Reg.GLB_LINE_CTL, Reg.THM_STATUS]

theorem State.calSuspend_congr {s t : State} {l : Nat} (hr : ∀ off ∈ skewRegs l, t.reg off = s.reg off) (hl : (t.ln l).calIn = (s.ln l).calIn) :
    t.calSuspend l = s.calSuspend l := by
  have h2 : t.reg (Reg.FRM_STATUS l) = s.reg (Reg.FRM_STATUS l) := hr _ (by simp [skewRegs])
  have h3 : t.reg Reg.GLB_LINE_CTL = s.reg Reg.GLB_LINE_CTL := hr _ (by simp [skewRegs])
  have h4 : t.reg Reg.THM_STATUS = s.reg Reg.THM_STATUS := hr _ (by simp [skewRegs])
  have l1 : (t.ln l).tileLock = (s.ln l).tileLock := congrArg (·.1) hl
  have l2 : (t.ln l).rxRelock = (s.ln l).rxRelock := congrArg (·.2.1) hl
  have l3 : (t.ln l).psl = (s.ln l).psl := congrArg (·.2.2) hl
  unfold State.calSuspend State.down
  dsimp only
  rw [State.fld_congr s t (Reg.FRM_STATUS.DEF l) h2, State.bit_congr s t (Reg.FRM_STATUS.OOF l) h2, h3,
    State.bit_congr s t Reg.THM_STATUS.SHUTDOWN h4, l1, l2, l3]

theorem State.skewRuns_congr {s t : State} {l : Nat} (hr : ∀ off ∈ skewRegs l, t.reg off = s.reg off) (hl : (t.ln l).calIn = (s.ln l).calIn) :
    t.skewRuns l = s.skewRuns l := by
  unfold State.skewRuns
  rw [State.bit_congr s t (Reg.CNV_CTL.SKEW_EN l) (hr _ (by simp [skewRegs])), State.calSuspend_congr hr hl]

theorem skewRegs_beside {l off : Nat} (h : off ∈ skewRegs l) : off ≠ Reg.CNV_EVENT l ∧ off ≠ Reg.FLT_EVENT := by
  simp only [skewRegs, List.mem_cons, List.not_mem_nil, or_false] at h
  simp only [Reg.CNV_EVENT, Reg.FLT_EVENT, Reg.CNV_CTL, Reg.FRM_STATUS, Reg.GLB_LINE_CTL, Reg.THM_STATUS] at h ⊢
  omega

/-- What the taps and the skew loop read, and the tick of the window. -/
def SkewSame (l : Nat) (s u : State) : Prop :=
  u.tap l = s.tap l ∧ (∀ off ∈ skewRegs l, u.reg off = s.reg off) ∧ (u.ln l).calIn = (s.ln l).calIn ∧
    (u.cnv l).winTick = (s.cnv l).winTick

theorem masking_regs (l : Nat) (offs : List Nat) (s : State) (h : ∀ off ∈ offs, off ≠ Reg.CNV_EVENT l ∧ off ≠ Reg.FLT_EVENT) :
    Masking l fun u => ∀ off ∈ offs, u.reg off = s.reg off where
  role u i r n hr hu off ho := (masking_reg l off _ (h off ho).1 (h off ho).2).role u i r n hr (hu off ho)
  plan u f hf hu off ho := (masking_reg l off _ (h off ho).1 (h off ho).2).plan u f hf (hu off ho)
  event u f n hf h1 h2 hu off ho := (masking_reg l off _ (h off ho).1 (h off ho).2).event u f n hf h1 h2 (hu off ho)

theorem SkewSame.modCnv {l : Nat} {s u : State} (h : SkewSame l s u) (f : CnvSt → CnvSt) (hf : ∀ c, (f c).winTick = c.winTick) :
    SkewSame l s (u.modCnv l f) := by
  obtain ⟨ht, hr, hl, hw⟩ := h
  refine ⟨(congrArg (·.2.2) (u.decided_modCnv l l f)).trans ht, fun off ho => (u.reg_modCnv l f off).trans (hr off ho), (u.calIn_modCnv l f).trans hl, ?_⟩
  rw [State.cnv_modCnv, hf, hw]

theorem masking_skewSame (l : Nat) (s : State) : Masking l (SkewSame l s) := by
  refine (masking_taps l _).and ((masking_regs l _ s fun _ h => skewRegs_beside h).and ((masking_line l _).and
    (masking_cnv l (fun c => c.winTick = (s.cnv l).winTick) fun c d hk _ h => ?_)))
  rwa [(CnvSt.kept_iff.1 hk).2.2.2.2.1]

/-- Judging a window reads what the taps read, and leaves it. -/
theorem SkewSame.judgeWin {l : Nat} {s u : State} (h : SkewSame l s u) (j : Nat) : SkewSame l s (State.judgeWin l u j) := by
  refine (masking_skewSame l s).judgeWin (fun u _ _ hu _ _ => hu.modCnv _ fun _ => rfl) j (fun u k hu => hu.modCnv _ fun _ => rfl) ?_ h
  rintro u - ⟨ht, hr, hl, hw⟩
  refine ⟨(u.unitFailed_others l j).2.2.trans ht, fun off ho => (u.reg_unitFailed_ne l j (skewRegs_beside ho).1 (skewRegs_beside ho).2).trans (hr off ho), ?_, ?_⟩
  · rw [State.ln_unitFailed]
    exact hl
  · rw [State.cnv_unitFailed]
    exact hw

theorem State.calIn_cnvStale (s : State) (l : Nat) : ((s.cnvStale l).ln l).calIn = (s.ln l).calIn :=
  State.cnvStale_keeps (fun u => (u.ln l).calIn) (fun _ _ _ _ => rfl) l (fun u _ => u.calIn_modCnv l _) s

theorem SkewSame.shown {l : Nat} {s u : State} (h : SkewSame l s u) : SkewSame l s ((u.cnvPool l).cnvStale l) := by
  obtain ⟨ht, hr, hl, hw⟩ := h
  refine ⟨(congrArg (·.2.2) (u.decided_shown l)).trans ht, fun off ho => (u.reg_shown_ne l (skewRegs_beside ho).1 (skewRegs_beside ho).2).trans (hr off ho), ?_, ?_⟩
  · rw [State.calIn_cnvStale, State.ln_of_outer (u.outer_cnvPool l), hl]
  · rw [State.cnv_shown CnvSt.winTick fun _ _ => rfl, hw]

/-- The windows of all units are judged, and the pools shown; not while the tile is not locked, nor after a shutdown. -/
def State.winsJudged (s : State) (l : Nat) : State :=
  if s.calSuspend l = 1 ∨ s.down then s else (((List.range 576).foldl (State.judgeWin l) s).cnvPool l).cnvStale l

theorem State.winsJudged_same (s : State) (l : Nat) : SkewSame l s (s.winsJudged l) := by
  have h : SkewSame l s s := ⟨rfl, fun _ _ => rfl, rfl, rfl⟩
  unfold State.winsJudged
  split
  · exact h
  · exact (foldl_holds (SkewSame l s) _ (fun u j hu => hu.judgeWin j) _ s h).shown

/-- Where a branch's tap moves to. -/
def tapTo (rho : Nat → Int) (br tap : Nat) : Nat := if br % 8 = 0 then tap else tapMoved (rho (br - 1)) (rho br) tap

/-- A move of one tap leaves the other taps, the units, the registers and the windows. -/
theorem State.moveTap_moves (s : State) (l : Nat) (rho : Nat → Int) (br : Nat) :
    (∀ b, (State.moveTap l rho s br).tap l b = if b = br then tapTo rho br (s.tap l br) else s.tap l b) ∧ (State.moveTap l rho s br).role l = s.role l ∧
      (∀ off, (State.moveTap l rho s br).reg off = s.reg off) ∧ ((State.moveTap l rho s br).cnv l).winTick = (s.cnv l).winTick := by
  have hsame (v : Nat) (hv : v = s.tap l br) (b : Nat) : s.tap l b = if b = br then v else s.tap l b := by
    split
    next h => rw [hv, h]
    next => rfl
  unfold State.moveTap tapTo
  split
  next => exact ⟨hsame _ rfl, rfl, fun _ => rfl, rfl⟩
  next =>
    unfold State.setTap
    split
    next h => exact ⟨hsame _ h.symm, rfl, fun _ => rfl, rfl⟩
    next =>
      generalize tapMoved (rho (br - 1)) (rho br) (s.tap l br) = v
      have hd := (s.publish (Reg.CNV_SKEW.TAP l br) v).decided_cnvDirty l l
      refine ⟨fun b => (State.tap_of_decided hd b).trans ?_, funext fun i => (State.role_of_decided hd i).trans ?_, fun off => State.reg_modCnv _ l _ off, ?_⟩
      · split
        next h => rw [h]; exact s.nextFld_publish _ v
        next h => exact s.nextFld_publish_ne v fun e => h (by simp only [Fr.mk.injEq, Reg.CNV_SKEW] at e; omega)
      · exact s.nextFld_publish_ne v (skewFld_ne (by decide)).symm
      · unfold State.cnvDirty
        rw [State.cnv_modCnv, State.cnv_publish]

theorem State.tap_moveTaps (l : Nat) (rho : Nat → Int) (brs : List Nat) (hn : brs.Nodup) (s : State) (b : Nat) :
    (brs.foldl (State.moveTap l rho) s).tap l b = if b ∈ brs then tapTo rho b (s.tap l b) else s.tap l b := by
  induction brs generalizing s with
  | nil => rfl
  | cons br brs ih =>
    obtain ⟨hb, hn⟩ := List.nodup_cons.1 hn
    have ht := (s.moveTap_moves l rho br).1 b
    rw [List.foldl_cons, ih hn, ht]
    by_cases h : b = br
    · subst h
      rw [if_neg hb, if_pos rfl, if_pos List.mem_cons_self]
    · simp only [h, if_false, List.mem_cons, false_or]

theorem State.moveTaps_keep (l : Nat) (rho : Nat → Int) (brs : List Nat) (s : State) : (brs.foldl (State.moveTap l rho) s).role l = s.role l ∧
    (∀ off, (brs.foldl (State.moveTap l rho) s).reg off = s.reg off) ∧ ((brs.foldl (State.moveTap l rho) s).cnv l).winTick = (s.cnv l).winTick :=
  ⟨foldl_keeps (State.role · l) _ (fun u br => (u.moveTap_moves l rho br).2.1) brs s,
    fun off => foldl_keeps (State.reg · off) _ (fun u br => (u.moveTap_moves l rho br).2.2.1 off) brs s,
    foldl_keeps (fun u : State => (u.cnv l).winTick) _ (fun u br => (u.moveTap_moves l rho br).2.2.2) brs s⟩

/-! ### A window's end -/

/-- A window's end, before its sums are forgotten. -/
def State.windowMoved (s : State) (l : Nat) : State :=
  let u := (s.modCnv l fun c => { c with winTick := some s.tick }).winsJudged l
  if u.skewRuns l then (List.range 32).foldl (State.moveTap l (s.cnv l).rho) u else u

theorem State.skewWindow_eq (s : State) {l : Nat} (hl : l < 2) (ht : s.tick % 256 = 255) (hw : (s.cnv l).winTick ≠ some s.tick) :
    s.skewWindow l = (s.windowMoved l).modCnv l fun c => { c with win := [], winX := [], cor := [] } := by
  unfold State.skewWindow
  rw [if_neg (by rintro (h | h | h) <;> [omega; exact h ht; exact hw h])]
  rfl

theorem State.skewWindow_idle (s : State) (l : Nat) (h : s.tick % 256 ≠ 255 ∨ (s.cnv l).winTick = some s.tick) : s.skewWindow l = s := if_pos (.inr h)

/-- The taps after a window, and its tick. -/
theorem State.windowMoved_taps (s : State) (l : Nat) : ((s.windowMoved l).cnv l).winTick = some s.tick ∧
    (s.skewRuns l = true → ∀ br < 32, (s.windowMoved l).tap l br = tapTo (s.cnv l).rho br (s.tap l br)) ∧
    (s.skewRuns l = false → ∀ br < 32, (s.windowMoved l).tap l br = s.tap l br) := by
  have ha : SkewSame l (s.modCnv l fun c => { c with winTick := some s.tick }) _ := State.winsJudged_same _ l
  unfold State.windowMoved
  generalize ((s.modCnv l fun c => { c with winTick := some s.tick }).winsJudged l) = u at ha
  obtain ⟨ht, hr, hln, hw⟩ := ha
  have hwt : (u.cnv l).winTick = some s.tick := by rw [hw, State.cnv_modCnv]
  have hut (br : Nat) : u.tap l br = s.tap l br := (congrFun ht br).trans (State.tap_of_decided (s.decided_modCnv l l _) br)
  have hrun : u.skewRuns l = s.skewRuns l := by
    refine State.skewRuns_congr (fun off ho => (hr off ho).trans (s.reg_modCnv l _ off)) (hln.trans (s.calIn_modCnv l _))
  dsimp only
  rw [hrun]
  refine ⟨?_, fun h br hbr => ?_, fun h br _ => ?_⟩
  · split
    · exact (State.moveTaps_keep l _ _ u).2.2.trans hwt
    · exact hwt
  · rw [if_pos h, State.tap_moveTaps l _ _ List.nodup_range, if_pos (List.mem_range.2 hbr), hut]
  · rw [if_neg (by rw [h]; decide), hut]

/-- A unit whose window fails for the second time in a row has failed after it. -/
theorem State.windowMoved_fails (s : State) {l i : Nat} (hd : s.down = false) (hi : i < 576) (hc : s.calSuspend l ≠ 1) (hr : s.role l i = 0)
    (h0 : ((s.cnv l).win.get noSums i).n ≠ 0) (hx : (s.cnv l).winX.get natZero i ≤ ((s.cnv l).win.get noSums i).n) (hw : s.winFails l i = true)
    (hf : (s.cnv l).fails.get natZero i = 1) :
    (s.windowMoved l).role l i = 3 ∧ (s.windowMoved l).bit (Reg.CNV_EVENT.ADC_FAIL l) = true := by
  unfold State.windowMoved
  extract_lets u
  have hu : HasFailed l i (s.slot l i) u := by
    have h : Failing l i (s.slot l i) (s.cnv l).win (s.cnv l).winX (s.reg (Reg.FRM_STATUS l)) (s.reg (Reg.CNV_FAIL_CFG l))
        (s.modCnv l fun c => { c with winTick := some s.tick }) :=
      Failing.modCnv ⟨⟨hr, rfl⟩, rfl, rfl, hf, rfl, rfl⟩ _ (fun _ => rfl) fun _ => ⟨rfl, rfl⟩
    have hcal : ¬((s.modCnv l fun c => { c with winTick := some s.tick }).calSuspend l = 1 ∨ (s.modCnv l fun c => { c with winTick := some s.tick }).down = true) := by
      have hdn : (s.modCnv l fun c => { c with winTick := some s.tick }).down = s.down := State.bit_congr _ _ _ (s.reg_modCnv l _ _)
      have hca : (s.modCnv l fun c => { c with winTick := some s.tick }).calSuspend l = s.calSuspend l :=
        State.calSuspend_congr (fun off _ => s.reg_modCnv l _ off) (s.calIn_modCnv l _)
      rw [hca, hdn, hd]
      simp [hc]
    have hwf : (s.modCnv l fun c => { c with winTick := some s.tick }).winFails l i = true :=
      (State.winFails_congr l i (s.reg_modCnv l _ _) (s.reg_modCnv l _ _) (by rw [State.cnv_modCnv])).trans hw
    have hj := h.judged hi h0 hx hwf
    rw [show u = _ from if_neg hcal]
    have hdec := State.decided_shown ((List.range 576).foldl (State.judgeWin l) (s.modCnv l fun c => { c with winTick := some s.tick })) l
    exact ⟨⟨(State.role_of_decided hdec i).trans hj.1.1, (State.slot_of_decided hdec i).trans hj.1.2⟩, State.bit_shown_mono _ l _ rfl hj.2⟩
  obtain ⟨hm, hreg, -⟩ := State.moveTaps_keep l (s.cnv l).rho (List.range 32) u
  split
  · exact ⟨(congrFun hm i).trans hu.1.1, (State.bit_congr _ _ _ (hreg _)).trans hu.2⟩
  · exact ⟨hu.1.1, hu.2⟩

end Sys2Proof.Machine
end

section
/-! SUPPORT. The DAC cells; the converters' commands (R230-R234, R240-R244). -/

namespace Sys2Proof.Machine

open Sys2Proof

/-! ### Cells (R232, R243, R244) -/

theorem State.cnv_raiseIf (s : State) (c : Bool) (f : Fr) (l : Nat) : (s.raiseIf c f).cnv l = s.cnv l := by
  unfold State.raiseIf
  split
  · exact s.cnv_raise f l
  · rfl

theorem State.cnv_logRepair (s : State) (src kind st : Nat) (loc : List Byte) (l : Nat) : (s.logRepair src kind st loc).cnv l = s.cnv l :=
  State.cnv_of_outer (s.outer_logRepair src kind st loc) l

/-- A cell that fails is marked, and its event raised. -/
theorem State.cellFail_fails (s : State) (l d i : Nat) :
    (s.cellFail l d i).cnv l = { s.cnv l with cellBad := (s.cnv l).cellBad.set (fun _ => false) (76 * d + i) true } ∧
      (s.cellFail l d i).bit (Reg.CNV_EVENT.DAC_FAIL l) = true := by
  unfold State.cellFail
  extract_lets a b
  have ha : a.cnv l = { s.cnv l with cellBad := (s.cnv l).cellBad.set (fun _ => false) (76 * d + i) true } := s.cnv_modCnv l _
  clear_value a
  have hr : (a.raiseAt (Reg.CNV_EVENT.DAC_FAIL l) (76 * d + i)).bit (Reg.CNV_EVENT.DAC_FAIL l) = true := State.bit_raiseAt _ _ _ rfl (show 4 < 32 by decide)
  have hb : b.bit (Reg.CNV_EVENT.DAC_FAIL l) = true := State.bit_logRepair _ _ _ _ _ _ rfl hr
  have hc : b.cnv l = a.cnv l := (State.cnv_logRepair _ _ _ _ _ l).trans (a.cnv_raiseAt _ _ l)
  clear_value b
  refine ⟨?_, ?_⟩
  · rw [State.cnv_raiseIf, hc, ha]
  · exact State.bit_raiseIf_mono _ _ _ _ rfl (show 7 < 32 by decide) rfl hb

/-- A measured cell takes its deviation; beyond 32 eighths of a per cent it fails. -/
theorem State.cellTake_takes (s : State) (l d i : Nat) (dev : Int) :
    ((s.cellTake l d i dev).cnv l).cells = (s.cnv l).cells.set (fun _ => 0) (76 * d + i) dev ∧
      (32 < dev.natAbs → ((s.cellTake l d i dev).cnv l).cellBad.get (fun _ => false) (76 * d + i) = true ∧
        (s.cellTake l d i dev).bit (Reg.CNV_EVENT.DAC_FAIL l) = true) ∧
      (dev.natAbs ≤ 32 → ((s.cellTake l d i dev).cnv l).cellBad = (s.cnv l).cellBad) := by
  unfold State.cellTake
  extract_lets a
  have ha : a.cnv l = { s.cnv l with cells := (s.cnv l).cells.set (fun _ => 0) (76 * d + i) dev } := s.cnv_modCnv l _
  clear_value a
  obtain ⟨hc, hb⟩ := a.cellFail_fails l d i
  split
  next h =>
    refine ⟨by rw [hc, ha], fun _ => ⟨?_, hb⟩, fun h' => absurd h (by omega)⟩
    rw [hc]
    exact SMap.get_set_self (fun _ => false) (a.cnv l).cellBad (76 * d + i) true
  next h => exact ⟨by rw [ha], fun h' => absurd (Or.inl h') h, fun _ => by rw [ha]⟩

/-- A cell measured for its time is judged, and the next one is measured. -/
theorem State.cellMeasured_judges (s : State) {l d : Nat} (hl : l < 2) (hd : d < 4) (cmd : Int) (ht : 16 ≤ (s.cnv l).cellTicks.getD d 0)
    (hi : (s.cnv l).cell.getD d 0 < 76) :
    ((s.cellMeasured l d cmd).cnv l).cells.get (fun _ => 0) (76 * d + (s.cnv l).cell.getD d 0) = s.obsDev l d cmd ∧
      ((s.cellMeasured l d cmd).cnv l).cellTicks.getD d 0 = 0 ∧ ((s.cellMeasured l d cmd).cnv l).dirty = true ∧
      (32 < (s.obsDev l d cmd).natAbs → ((s.cellMeasured l d cmd).cnv l).cellBad.get (fun _ => false) (76 * d + (s.cnv l).cell.getD d 0) = true ∧
        (s.cellMeasured l d cmd).bit (Reg.CNV_EVENT.DAC_FAIL l) = true) ∧
      ((s.obsDev l d cmd).natAbs ≤ 32 → ((s.cellMeasured l d cmd).cnv l).cellBad = (s.cnv l).cellBad) := by
  obtain ⟨hcells, hbad, hgood⟩ := s.cellTake_takes l d ((s.cnv l).cell.getD d 0) (s.obsDev l d cmd)
  unfold State.cellMeasured
  extract_lets c i a n
  rw [if_neg (by dsimp only [i, c]; omega)]
  have ha : a.cnv l = (s.cellTake l d i (s.obsDev l d cmd)).cnv l := State.cnv_of_outer (State.outer_withD2d _ _) l
  have har (off : Nat) : a.reg off = (s.cellTake l d i (s.obsDev l d cmd)).reg off := rfl
  clear_value a n
  have hc : (((a.modCnv l fun c => { c with cell := c.cell.set d n, cellTicks := c.cellTicks.set d 0 }).cnvDirty l).cnvPool l).cnv l =
      { a.cnv l with cell := (a.cnv l).cell.set d n, cellTicks := (a.cnv l).cellTicks.set d 0, dirty := true } := by
    rw [State.cnv_cnvPool, State.cnvDirty, State.cnv_modCnv, State.cnv_modCnv]
  have hb (h : (s.cellTake l d i (s.obsDev l d cmd)).bit (Reg.CNV_EVENT.DAC_FAIL l) = true) :
      (((a.modCnv l fun c => { c with cell := c.cell.set d n, cellTicks := c.cellTicks.set d 0 }).cnvDirty l).cnvPool l).bit (Reg.CNV_EVENT.DAC_FAIL l) = true := by
    refine State.bit_cnvPool_mono _ l _ rfl (Eq.trans (State.bit_congr (s.cellTake l d i (s.obsDev l d cmd)) _ _ ?_) h)
    rw [State.cnvDirty, State.reg_modCnv, State.reg_modCnv, har]
  rw [hc, ha]
  refine ⟨?_, ?_, rfl, fun h => ⟨(hbad h).1, hb (hbad h).2⟩, hgood⟩
  · exact (congrArg (fun m => SMap.get (fun _ => 0) m (76 * d + i)) hcells).trans (SMap.get_set_self _ _ _ _)
  · rw [List.getD_eq_getElem?_getD, List.getElem?_set_self']
    cases ((s.cellTake l d i (s.obsDev l d cmd)).cnv l).cellTicks[d]? <;> rfl

theorem State.cellMeasured_idle (s : State) (l d : Nat) (cmd : Int) (h : (s.cnv l).cellTicks.getD d 0 < 16 ∨ 76 ≤ (s.cnv l).cell.getD d 0) :
    s.cellMeasured l d cmd = s := if_pos (by omega)

/-! ### The commands -/

theorem State.nextFld_cmdTick (s : State) (f : State → State) (h : s.ticking) (g : Fr) (ho : g.off ∉ faultRegs) :
    (s.cmdTick f).nextFld g = (f s.cleared).nextFld g := State.nextFld_congr g (by simp only [s.cmdTick_frame f h]) (s.reg_cmdTick f h ho)

theorem units_not_fault (l : Fin 2) {i : Nat} (hi : i < 576) : Reg.CNV_UNIT l i ∉ faultRegs ∧ Reg.CNV_SKEW l i ∉ faultRegs := by
  have hl : ∀ off ∈ faultRegs, off < 0x200000 ∨ 0x302000 ≤ off := by decide
  have h2 := l.2
  refine ⟨fun h => ?_, fun h => ?_⟩ <;> have := hl _ h <;> simp only [Reg.CNV_UNIT, Reg.CNV_SKEW] at this <;> omega

section Commands

variable {s : State} {l : Fin 2} (hw : s.working) (ha : s.acted = false)
include hw

theorem converters_late (ha : s.acted = true) : (Completes (.passStart l) s fun t => s.sameBut t faultRegs) ∧
    (Completes (.calStepEnd l) s fun t => s.sameBut t faultRegs) ∧ (Completes (.skewWindowEnd l) s fun t => s.sameBut t faultRegs) ∧
    ∀ (d : Fin 4) dev, Completes (.dacCellMeasured l d dev) s fun t => s.sameBut t faultRegs :=
  ⟨⟨_, rfl, s.sameBut_cmdDecideLive_late _ hw.1 ha⟩, ⟨_, rfl, s.sameBut_cmdDecideLive_late _ hw.1 ha⟩, ⟨_, rfl, s.sameBut_cmdDecideLive_late _ hw.1 ha⟩,
    fun _ _ => ⟨_, rfl, s.sameBut_cmdDecideLive_late _ hw.1 ha⟩⟩

include ha

/-- A converter command that changes nothing. -/
theorem completes_converter_idle {c : Instr} {f : State → State} (hc : exec c s = .next (s.cmdDecideLive f)) (hf : f s.cleared = s.cleared) :
    Completes c s fun t => s.sameBut t faultRegs := completes_decideLive hc ha hw.2 (s.sameBut_cmdTick_idle f hw.1 hf)

theorem passStart_completes (h : s.passDue l = true) : Completes (.passStart l) s fun t => t.bit (Reg.CNV_STATUS.PASS_RUN l) = true ∧
    t.fld (Reg.CNV_PASS_INFO.STEP l) = 0 ∧ t.bit (Reg.CNV_CTL.START l) = false ∧ (t.cnv l).stepTicks = 0 ∧
    (t.cnv l).stepLen = s.fld (Reg.CNV_CAL_CFG.STEP_TICKS l) ∧
    s.sameRegs t (Reg.CNV_STATUS l :: Reg.CNV_PASS_INFO l :: Reg.CNV_CTL l :: faultRegs) := by
  obtain ⟨h1, h2, h3, h4, h5, h6⟩ := s.cleared.passStart_starts l.2 h
  obtain ⟨r1, r2, r3⟩ := (by decide : ∀ l : Fin 2, Reg.CNV_STATUS l ∉ faultRegs ∧ Reg.CNV_PASS_INFO l ∉ faultRegs ∧ Reg.CNV_CTL l ∉ faultRegs) l
  have hc := s.cnv_cmdTick (·.passStart l) hw.1 l
  refine completes_decideLive rfl ha hw.2 ⟨?_, ?_, ?_, ?_, ?_, fun off ho => ?_⟩
  · rw [s.bit_cmdTick (·.passStart l) hw.1 _ r1, h1]
  · rw [State.fld_congr _ _ _ (s.reg_cmdTick (·.passStart l) hw.1 r2), h2]
  · rw [s.bit_cmdTick (·.passStart l) hw.1 _ r3, h3]
  · rw [hc, h4]
  · rw [hc]; exact h5
  · simp only [List.mem_cons, not_or] at ho
    obtain ⟨o1, o2, o3, of⟩ := ho
    rw [s.reg_cmdTick (·.passStart l) hw.1 of]
    exact h6 off (by simp only [List.mem_cons, List.not_mem_nil, or_false, not_or]; exact ⟨o1, o2, o3⟩)

section Step

variable (hq : ∀ p ∈ (s.cnv l).prio, p.left ≠ 0) (he : s.stepEnds l = true)
include hq he

omit hw ha in
theorem stepEnd_cleared : s.cleared.stepEnd l = ((s.cleared.passStep l).cnvPool l).cnvStale l :=
  (s.cleared.stepEnd_quiet l.2 hq).trans (if_pos he)

theorem calStepEnd_goesOn (hn : s.fld (Reg.CNV_PASS_INFO.STEP l) + 1 < (s.cleared.branchesDone l (s.fld (Reg.CNV_PASS_INFO.STEP l))).passSteps l) :
    Completes (.calStepEnd l) s fun t => (t.cnv l).stepTicks = 0 ∧
      t.fld (Reg.CNV_PASS_INFO.STEP l) = (s.fld (Reg.CNV_PASS_INFO.STEP l) + 1) % 32 := by
  obtain ⟨-, -, hi, hi2⟩ := besideEvents l
  have hf := stepEnd_cleared hq he
  rw [State.passStep_eq, show s.cleared.fld (Reg.CNV_PASS_INFO.STEP l) = s.fld (Reg.CNV_PASS_INFO.STEP l) from rfl, if_neg (Nat.not_le.2 hn)] at hf
  obtain ⟨h1, h2⟩ := State.stepNext_begins ((s.cleared.branchesDone l (s.fld (Reg.CNV_PASS_INFO.STEP l))).cnvCount l 2) l (s.fld (Reg.CNV_PASS_INFO.STEP l) + 1)
  refine completes_decideLive rfl ha hw.2 ⟨?_, ?_⟩
  · rw [s.cnv_cmdTick (·.stepEnd l) hw.1, hf, State.cnv_shown CnvSt.stepTicks fun _ _ => rfl]
    exact h1
  · rw [State.fld_congr _ _ _ (s.reg_cmdTick (·.stepEnd l) hw.1 ((by decide : ∀ l : Fin 2, Reg.CNV_PASS_INFO l ∉ faultRegs) l)), hf,
      State.fld_congr _ _ _ (State.reg_shown_ne _ l hi hi2)]
    exact h2

theorem calStepEnd_ends (hn : (s.cleared.branchesDone l (s.fld (Reg.CNV_PASS_INFO.STEP l))).passSteps l ≤ s.fld (Reg.CNV_PASS_INFO.STEP l) + 1) :
    Completes (.calStepEnd l) s fun t => (t.cnv l).stepTicks = 0 ∧ t.fld (Reg.CNV_PASS_INFO.STEP l) = 0 ∧
      t.bit (Reg.CNV_STATUS.PASS_RUN l) = false ∧ t.bit (Reg.CNV_EVENT.PASS_DONE l) = true := by
  obtain ⟨hs, hs2, hi, hi2⟩ := besideEvents l
  obtain ⟨r1, r2, r3⟩ := (by decide : ∀ l : Fin 2, Reg.CNV_STATUS l ∉ faultRegs ∧ Reg.CNV_PASS_INFO l ∉ faultRegs ∧ Reg.CNV_EVENT l ∉ faultRegs) l
  have hf := stepEnd_cleared hq he
  rw [State.passStep_eq, show s.cleared.fld (Reg.CNV_PASS_INFO.STEP l) = s.fld (Reg.CNV_PASS_INFO.STEP l) from rfl, if_pos hn] at hf
  obtain ⟨h1, h2, h3, h4⟩ := State.passDone_ends ((s.cleared.branchesDone l (s.fld (Reg.CNV_PASS_INFO.STEP l))).cnvCount l 2) l
  refine completes_decideLive rfl ha hw.2 ⟨?_, ?_, ?_, ?_⟩
  · rw [s.cnv_cmdTick (·.stepEnd l) hw.1, hf, State.cnv_shown CnvSt.stepTicks fun _ _ => rfl]
    exact h1
  · rw [State.fld_congr _ _ _ (s.reg_cmdTick (·.stepEnd l) hw.1 r2), hf, State.fld_congr _ _ _ (State.reg_shown_ne _ l hi hi2)]
    exact h2
  · rw [s.bit_cmdTick (·.stepEnd l) hw.1 _ r1, hf, State.bit_congr _ _ _ (State.reg_shown_ne _ l hs hs2)]
    exact h3
  · rw [s.bit_cmdTick (·.stepEnd l) hw.1 _ r3, hf]
    exact State.bit_shown_mono _ l _ rfl h4

end Step

theorem calStepEnd_places {p : PrioStep} {v : UnitVal} (hp : (s.cnv l).prio = [p]) (h0 : p.left = 0) (hu : p.unit < 576) (hr : s.role l p.unit = 1 ∨ s.role l p.unit = 2)
    (hv : (s.cnv l).stepValues p.unit = some v) (he : s.stepEnds l = false) : Completes (.calStepEnd l) s fun t =>
      t.role l p.unit = 0 ∧ t.slot l p.unit = p.slot ∧ (∀ q ∈ (t.cnv l).prio, q.unit ≠ p.unit) ∧ (t.cnv l).units.get noUnit p.unit = v ∧
        t.bit (Reg.CNV_EVENT.SPARE_USED l) = true := by
  obtain ⟨h1, h2, h3, h4, h5⟩ := s.cleared.stepEnd_prio l.2 p hp h0 hr hv he
  have hd (g : Fr) (h : g.off = Reg.CNV_UNIT l p.unit) := s.nextFld_cmdTick (·.stepEnd l) hw.1 g (h ▸ (units_not_fault l hu).1)
  have hc := s.cnv_cmdTick (·.stepEnd l) hw.1 l
  refine completes_decideLive rfl ha hw.2 ⟨(hd _ rfl).trans h1, (hd _ rfl).trans h2, by rw [hc]; exact h3,
    by rw [hc]; exact h4, ?_⟩
  rw [s.bit_cmdTick (·.stepEnd l) hw.1 _ ((by decide : ∀ l : Fin 2, Reg.CNV_EVENT l ∉ faultRegs) l), h5]

theorem skewWindowEnd_completes (ht : s.tick % 256 = 255) (hn : (s.cnv l).winTick ≠ some s.tick) : Completes (.skewWindowEnd l) s fun t =>
    (t.cnv l).winTick = some s.tick ∧ (t.cnv l).win = [] ∧
      (s.skewRuns l = true → ∀ br < 32, t.tap l br = tapTo (s.cnv l).rho br (s.tap l br)) ∧
      (s.skewRuns l = false → ∀ br < 32, t.tap l br = s.tap l br) ∧
      (∀ i, i < 576 → s.calSuspend l ≠ 1 → s.role l i = 0 → ((s.cnv l).win.get noSums i).n ≠ 0 →
        (s.cnv l).winX.get natZero i ≤ ((s.cnv l).win.get noSums i).n → s.winFails l i = true → (s.cnv l).fails.get natZero i = 1 →
        t.role l i = 3 ∧ t.bit (Reg.CNV_EVENT.ADC_FAIL l) = true) := by
  obtain ⟨h1, h2, h3⟩ := s.cleared.windowMoved_taps l
  have hf := s.cleared.skewWindow_eq l.2 ht hn
  have hd (g : Fr) (i : Nat) (hi : i < 576) (h : g.off = Reg.CNV_UNIT l i ∨ g.off = Reg.CNV_SKEW l i) := s.nextFld_cmdTick (·.skewWindow l) hw.1 g
    (h.elim (fun e => e ▸ (units_not_fault l hi).1) fun e => e ▸ (units_not_fault l hi).2)
  have hdec := (s.cleared.windowMoved l).decided_modCnv l l fun c => { c with win := [], winX := [], cor := [] }
  have hc := s.cnv_cmdTick (·.skewWindow l) hw.1 l
  rw [← hf] at hdec
  rw [hf, State.cnv_modCnv] at hc
  refine completes_decideLive rfl ha hw.2 ⟨?_, by rw [hc], fun hr br hb => ?_, fun hr br hb => ?_, fun i hi hcal hr h0 hx hwf hfl => ?_⟩
  · rw [hc]; exact h1
  · exact (hd _ br (by omega) (.inr rfl)).trans ((State.tap_of_decided hdec br).trans (h2 hr br hb))
  · exact (hd _ br (by omega) (.inr rfl)).trans ((State.tap_of_decided hdec br).trans (h3 hr br hb))
  · obtain ⟨hro, hb⟩ := s.cleared.windowMoved_fails hw.2 hi hcal hr h0 hx hwf hfl
    refine ⟨(hd _ i hi (.inl rfl)).trans ((State.role_of_decided hdec i).trans hro), ?_⟩
    rw [s.bit_cmdTick (·.skewWindow l) hw.1 _ ((by decide : ∀ l : Fin 2, Reg.CNV_EVENT l ∉ faultRegs) l), hf, State.bit_congr _ _ _ (State.reg_modCnv _ l _ _), hb]

theorem dacCellMeasured_completes (d : Fin 4) (cmd : Int) (ht : 16 ≤ (s.cnv l).cellTicks.getD d 0) (hi : (s.cnv l).cell.getD d 0 < 76) :
    Completes (.dacCellMeasured l d cmd) s fun t =>
      (t.cnv l).cells.get (fun _ => 0) (76 * d + (s.cnv l).cell.getD d 0) = s.obsDev l d cmd ∧ (t.cnv l).cellTicks.getD d 0 = 0 ∧ (t.cnv l).dirty = true ∧
      (32 < (s.obsDev l d cmd).natAbs → (t.cnv l).cellBad.get (fun _ => false) (76 * d + (s.cnv l).cell.getD d 0) = true ∧
        t.bit (Reg.CNV_EVENT.DAC_FAIL l) = true) ∧
      ((s.obsDev l d cmd).natAbs ≤ 32 → (t.cnv l).cellBad = (s.cnv l).cellBad) := by
  obtain ⟨h1, h2, h3, h4, h5⟩ := s.cleared.cellMeasured_judges l.2 d.2 cmd ht hi
  have hc := s.cnv_cmdTick (·.cellMeasured l d cmd) hw.1 l
  refine completes_decideLive rfl ha hw.2 ⟨?_, ?_, ?_, fun hx => ⟨?_, ?_⟩, fun hx => ?_⟩
  · rw [hc]; exact h1
  · rw [hc]; exact h2
  · rw [hc]; exact h3
  · rw [hc]; exact (h4 hx).1
  · rw [s.bit_cmdTick (·.cellMeasured l d cmd) hw.1 _ ((by decide : ∀ l : Fin 2, Reg.CNV_EVENT l ∉ faultRegs) l), (h4 hx).2]
  · rw [hc]; exact h5 hx

end Commands

/-- Settles O46: a pass's start and its steps by the registers they write, a priority step and a skew window by what masking keeps, a cell by the
line's converter state. -/
theorem converters : Obligations.Converters := by
  unfold Obligations.Converters
  intro s l hw
  refine ⟨fun ha => converters_late hw ha, fun ha => ⟨passStart_completes hw ha, fun h => ?_, fun hq => ?_, fun p v hp h0 hu hr hv he => ?_, ?_, fun h => ?_,
    fun d cmd => ?_⟩⟩
  · exact completes_converter_idle hw ha rfl (s.cleared.passStart_idle l h)
  · exact ⟨calStepEnd_goesOn hw ha hq, calStepEnd_ends hw ha hq,
      fun he => completes_converter_idle hw ha rfl ((s.cleared.stepEnd_quiet l.2 hq).trans (if_neg (Bool.eq_false_iff.1 he)))⟩
  · exact calStepEnd_places hw ha hp h0 hu hr hv he
  · exact skewWindowEnd_completes hw ha
  · exact completes_converter_idle hw ha rfl (s.cleared.skewWindow_idle l h)
  · exact ⟨dacCellMeasured_completes hw ha d cmd, fun h => completes_converter_idle hw ha rfl (s.cleared.cellMeasured_idle l d cmd h)⟩

end Sys2Proof.Machine
end


section
/-! SUPPORT. The consumed mark's frame: no phase of a running tick sets or clears it (R34). -/

namespace Sys2Proof.Machine
open Sys2Proof

@[simp] theorem foldl_consumed {α : Type} (f : State → α → State) (xs : List α) (s : State) (h : ∀ a x, (f a x).consumed = a.consumed) :
    (xs.foldl f s).consumed = s.consumed := by
  induction xs generalizing s with
  | nil => rfl
  | cons x xs ih => rw [List.foldl_cons, ih, h]

@[simp] theorem State.setReg_consumed (s : State) (off : Nat) (w : Word) : (s.setReg off w).consumed = s.consumed := by
  simp only [State.setReg_frame]

@[simp] theorem State.setFld_consumed (s : State) (f : Fr) (v : Nat) : (s.setFld f v).consumed = s.consumed := by
  simp only [State.setFld_frame]

@[simp] theorem State.setFldIf_consumed (s : State) (c : Bool) (f : Fr) (v : Nat) : (s.setFldIf c f v).consumed = s.consumed := by
  simp only [State.setFldIf_frame]

@[simp] theorem State.setReg64_consumed (s : State) (lo hi v : Nat) : (s.setReg64 lo hi v).consumed = s.consumed := by
  simp only [State.setReg64_frame]

@[simp] theorem State.publish_consumed (s : State) (f : Fr) (v : Nat) : (s.publish f v).consumed = s.consumed := by
  simp only [State.publish_frame]

@[simp] theorem State.publishReg_consumed (s : State) (off v : Nat) : (s.publishReg off v).consumed = s.consumed := by
  simp only [State.publishReg_frame]

@[simp] theorem State.modLn_consumed (s : State) (l : Nat) (f : Line → Line) : (s.modLn l f).consumed = s.consumed := by
  unfold State.modLn
  simp only [State.setLn, apply_ite State.consumed, ite_self]

@[simp] theorem State.count_consumed (s : State) (k n : Nat) : (s.count k n).consumed = s.consumed := by
  simp only [State.count_frame]

@[simp] theorem State.queueRec_consumed (s : State) (kind sev src : Nat) (detail : List Byte) :
    (s.queueRec kind sev src detail).consumed = s.consumed := by
  simp only [State.queueRec_frame]

@[simp] theorem State.latchEvent_consumed (s : State) (f : Fr) : (s.latchEvent f).consumed = s.consumed := by
  simp only [State.latchEvent_frame]

@[simp] theorem State.raiseAt_consumed (s : State) (f : Fr) (inst : Nat) : (s.raiseAt f inst).consumed = s.consumed := by
  simp only [State.raiseAt_frame]

@[simp] theorem State.raise_consumed (s : State) (f : Fr) : (s.raise f).consumed = s.consumed := by
  simp only [State.raise_frame]

@[simp] theorem State.raiseOwn_consumed (s : State) (f : Fr) : (s.raiseOwn f).consumed = s.consumed := by
  simp only [State.raiseOwn_frame]

@[simp] theorem State.raiseIf_consumed (s : State) (c : Bool) (f : Fr) : (s.raiseIf c f).consumed = s.consumed := by
  simp only [State.raiseIf_frame]

@[simp] theorem State.raiseDp_consumed (s : State) (f : Fr) : (s.raiseDp f).consumed = s.consumed := by
  simp only [State.raiseDp_frame]

@[simp] theorem State.raiseDpIf_consumed (s : State) (c : Bool) (f : Fr) : (s.raiseDpIf c f).consumed = s.consumed := by
  simp only [State.raiseDpIf_frame]

@[simp] theorem State.msix_consumed (s : State) (v : Nat) : (s.msix v).consumed = s.consumed := by
  simp only [State.msix_frame]

@[simp] theorem State.wraps_consumed (s : State) : s.wraps.consumed = s.consumed := by
  simp only [State.wraps_frame]

@[simp] theorem State.phase8_consumed (s : State) : s.phase8.consumed = s.consumed := by
  simp only [State.phase8_frame]

@[simp] theorem State.countLevel_consumed (s : State) (k : Nat) (rose : Bool) : (s.countLevel k rose).consumed = s.consumed := by
  unfold State.countLevel
  repeat' split
  all_goals simp only [State.count_consumed]

@[simp] theorem State.formSnap_consumed (s : State) (busy : Bool) : (s.formSnap busy).consumed = s.consumed := by
  unfold State.formSnap
  dsimp only
  repeat' split
  all_goals simp only [State.setFld_consumed, State.telemetry, State.dmaWrite, State.emit, apply_ite State.consumed, ite_self, foldl_consumed,
    implies_true, State.msix_consumed, State.raise_consumed, State.telDrop]

@[simp] theorem State.missSnap_consumed (s : State) : s.missSnap.consumed = s.consumed := by
  unfold State.missSnap
  dsimp only
  repeat' split
  all_goals simp only [State.raise_consumed, State.setFld_consumed]

@[simp] theorem State.setWin_consumed (s : State) (w : Nat) (x : Win) : (s.setWin w x).consumed = s.consumed := by
  unfold State.setWin
  dsimp only

@[simp] theorem State.winPublish_consumed (s : State) (w : Nat) : (s.winPublish w).consumed = s.consumed := by
  unfold State.winPublish
  dsimp only
  repeat' split
  all_goals simp only [State.setFld_consumed, State.setReg64_consumed, State.setWin_consumed]

@[simp] theorem State.setSyn_consumed (s : State) (key syn : Nat) : (s.setSyn key syn).consumed = s.consumed := by
  unfold State.setSyn
  dsimp only

@[simp] theorem State.repairRow_consumed (s : State) (r : Nat × Nat) : (s.repairRow r).consumed = s.consumed := by
  unfold State.repairRow
  dsimp only
  repeat' split
  all_goals simp only [State.checkRowPool, State.raise_consumed, State.setFld_consumed, apply_ite State.consumed, ite_self, State.logRepair,
    State.queueRec_consumed, State.logRow, State.noteMacro, State.publish_consumed, State.takeSpare]

@[simp] theorem State.repairRows_consumed (s : State) : s.repairRows.consumed = s.consumed := by
  unfold State.repairRows
  dsimp only
  simp only [State.repairRow_consumed, foldl_consumed, implies_true]

@[simp] theorem State.freeRow_consumed (s : State) (inst row : Nat) : (s.freeRow inst row).consumed = s.consumed := by
  unfold State.freeRow
  refine foldl_consumed _ _ _ (fun a x => ?_)
  dsimp only
  split
  · exact State.setReg_consumed _ _ _
  · rfl

@[simp] theorem State.publishMove_consumed (s : State) (m : RowMove) : (s.publishMove m).consumed = s.consumed := by
  unfold State.publishMove
  dsimp only
  simp only [State.freeRow_consumed, State.putCopy, State.putLane, apply_ite State.consumed, ite_self, State.setSyn_consumed, State.raiseAt_consumed,
    State.rowWritten, foldl_consumed, implies_true]

@[simp] theorem State.memErr_consumed (s : State) (e : MemErr) : (s.memErr e).consumed = s.consumed := by
  unfold State.memErr
  dsimp only
  repeat' split
  all_goals simp only [State.memWrote, State.raiseAt_consumed, State.setFld_consumed, State.setSyn_consumed, State.trkWrote, apply_ite State.consumed,
    ite_self, State.reportCorr, State.trkOffer, State.raise_consumed, State.trkSet, State.setReg_consumed, State.reportUncorr, State.logUncorr]

@[simp] theorem State.scratchLost_consumed (s : State) : s.scratchLost.consumed = s.consumed := by
  unfold State.scratchLost
  dsimp only
  repeat' split
  all_goals simp only

@[simp] theorem State.abandonCommit_consumed (s : State) (cause : Nat) : (s.abandonCommit cause).consumed = s.consumed := by
  unfold State.abandonCommit
  dsimp only
  repeat' split
  all_goals simp only [State.queueRec_consumed, State.raiseOwn_consumed, State.setFld_consumed, State.setKey, foldl_consumed, implies_true]

@[simp] theorem State.bandEval_consumed (s : State) (d : Nat) : (s.bandEval d).consumed = s.consumed := by
  unfold State.bandEval
  dsimp only
  repeat' split
  all_goals simp only [State.publish_consumed, State.raiseAt_consumed]

@[simp] theorem State.publishT_consumed (s : State) (f : Fr) (t : Option Int) : (s.publishT f t).consumed = s.consumed := by
  unfold State.publishT
  repeat' split
  all_goals simp only [State.publish_consumed]

@[simp] theorem State.publishSensor_consumed (s : State) (i : Nat) : (s.publishSensor i).consumed = s.consumed := by
  unfold State.publishSensor
  simp only [State.publishT_consumed, State.publish_consumed]

@[simp] theorem State.thermalShow_consumed (s : State) : s.thermalShow.consumed = s.consumed := by
  unfold State.thermalShow
  extract_lets s1 s2 s3 s4
  have h1 : s1.consumed = s.consumed := (State.publish_consumed _ _ _).trans ((State.publish_consumed _ _ _).trans (State.publish_consumed _ _ _))
  have h2 : s2.consumed = s1.consumed := (State.publish_consumed _ _ _).trans (State.publish_consumed _ _ _)
  have h3 : s3.consumed = s2.consumed := (State.publishT_consumed _ _ _).trans (State.publishT_consumed _ _ _)
  have h4 : s4.consumed = s3.consumed := (State.publishT_consumed _ _ _).trans (State.publishT_consumed _ _ _)
  rw [foldl_consumed _ _ _ (fun a i => State.publishSensor_consumed a i), h4, h3, h2, h1]

@[simp] theorem State.thermal_consumed (s : State) : s.thermal.consumed = s.consumed := by
  unfold State.thermal
  dsimp only
  repeat' split
  all_goals simp only [State.bandEval_consumed, State.count_consumed, State.raiseIf_consumed, State.sensorCheck, State.thermalShow_consumed,
    foldl_consumed, implies_true]

@[simp] theorem State.shutdown_consumed (s : State) (loc : Nat) (a b : Int) : (s.shutdown loc a b).consumed = s.consumed := by
  unfold State.shutdown
  dsimp only
  repeat' split
  all_goals simp only [State.abandonCommit_consumed, State.modLn_consumed, State.queueRec_consumed, State.raiseOwn_consumed, State.setFld_consumed,
    State.stopHealth]

@[simp] theorem State.shutdownCheck_consumed (s : State) : s.shutdownCheck.consumed = s.consumed := by
  unfold State.shutdownCheck
  repeat' split
  all_goals simp only [State.shutdown_consumed]

@[simp] theorem State.setMon_consumed (s : State) (u : Nat) (x : MonUnit) : (s.setMon u x).consumed = s.consumed := by
  unfold State.setMon
  repeat' split
  all_goals simp only

@[simp] theorem State.monPublish_consumed (s : State) (u : Nat) : (s.monPublish u).consumed = s.consumed := by
  unfold State.monPublish
  dsimp only
  repeat' split
  all_goals simp only [State.monPublish1, State.publish_consumed, State.setMon_consumed, State.raiseIf_consumed, foldl_consumed, implies_true]

@[simp] theorem State.monCompare_consumed (s : State) : s.monCompare.consumed = s.consumed := by
  unfold State.monCompare
  dsimp only
  repeat' split
  all_goals simp only [State.monOutcome, State.count_consumed, State.raiseIf_consumed, apply_ite State.consumed, ite_self, State.monReadmit,
    State.setFld_consumed, State.setMon_consumed, foldl_consumed, implies_true, State.monUsed]

@[simp] theorem State.phase5_consumed (s : State) : s.phase5.consumed = s.consumed := by
  unfold State.phase5
  simp only [State.monCompare_consumed, State.monPublish_consumed]

@[simp] theorem State.findDisputes_consumed (s : State) : s.findDisputes.consumed = s.consumed := by
  unfold State.findDisputes
  extract_lets pairs
  refine foldl_consumed _ _ _ (fun b x => ?_)
  extract_lets p q
  split
  · exact State.raiseAt_consumed _ _ _
  · rfl

@[simp] theorem State.arbitrate_consumed (s : State) (d : Dispute) : (s.arbitrate d).consumed = s.consumed := by
  unfold State.arbitrate
  repeat' split
  all_goals simp only [State.makeOutlier, State.raiseAt_consumed, State.refDrop, State.setRefIn]

@[simp] theorem State.refChoose_consumed (s : State) : s.refChoose.consumed = s.consumed := by
  unfold State.refChoose
  dsimp only
  repeat' split
  all_goals simp only [State.raiseAt_consumed]

@[simp] theorem State.refDecide_consumed (s : State) : s.refDecide.consumed = s.consumed := by
  unfold State.refDecide
  simp only [State.disputeStep, State.arbitrate_consumed, State.findDisputes_consumed, foldl_consumed, implies_true, State.refChoose_consumed,
    State.refShowAll, State.publish_consumed, State.refShow, State.publishReg_consumed]

@[simp] theorem State.selPublish_consumed (s : State) : s.selPublish.consumed = s.consumed := by
  unfold State.selPublish
  dsimp only
  repeat' split
  all_goals simp only [State.raise_consumed, State.setDpll, State.setFld_consumed]

@[simp] theorem State.clkBoundary_consumed (s : State) (t : TickIn) : (s.clkBoundary t).consumed = s.consumed := by
  unfold State.clkBoundary
  simp only [State.dpllTick, State.publishReg_consumed, apply_ite State.consumed, ite_self, State.numStep, State.setFld_consumed, State.refoutShow,
    State.secondEnd, State.selPublish_consumed]

@[simp] theorem State.clkPhase3_consumed (s : State) (t : TickIn) : (s.clkPhase3 t).consumed = s.consumed := by
  unfold State.clkPhase3
  dsimp only
  simp only [State.refDecide_consumed, State.refJudge, State.raiseAt_consumed, State.refDrop, State.setRefIn, apply_ite State.consumed, ite_self,
    State.refLatch, State.showFree, State.setFld_consumed, foldl_consumed, implies_true]

@[simp] theorem State.setTime_consumed (s : State) (t : Int) : (s.setTime t).consumed = s.consumed := by
  unfold State.setTime
  dsimp only

@[simp] theorem State.ttStepNow_consumed (s : State) (l : Nat) : (s.ttStepNow l).consumed = s.consumed := by
  unfold State.ttStepNow
  repeat' split
  all_goals simp only [State.timeJump, State.modLn_consumed, State.setTime_consumed]

@[simp] theorem State.ttTick_consumed (s : State) (l : Nat) : (s.ttTick l).consumed = s.consumed := by
  unfold State.ttTick
  dsimp only
  repeat' split
  all_goals simp only [State.count_consumed, State.modLn_consumed, State.publishReg_consumed, State.publish_consumed, State.raiseAt_consumed,
    State.raiseIf_consumed, State.setTime_consumed]

@[simp] theorem State.setRp_consumed (s : State) (k : Nat) (x : RimePort) : (s.setRp k x).consumed = s.consumed := by
  unfold State.setRp
  dsimp only
  repeat' split
  all_goals simp only

@[simp] theorem State.rimShow_consumed (s : State) (k : Nat) : (s.rimShow k).consumed = s.consumed := by
  unfold State.rimShow
  simp only [State.setFld_consumed]

@[simp] theorem State.rimQueue_consumed (s : State) (k : Nat) (p : RimePkt) : (s.rimQueue k p).consumed = s.consumed := by
  unfold State.rimQueue
  dsimp only
  repeat' split
  all_goals simp only [State.rimLost, State.rimDrop, State.raise_consumed, apply_ite State.consumed, ite_self, State.rimTraceSent,
    State.setFld_consumed, State.rimShow_consumed, State.setRp_consumed]

@[simp] theorem State.rimTick_consumed (s : State) (k : Nat) : (s.rimTick k).consumed = s.consumed := by
  unfold State.rimTick
  dsimp only
  repeat' split
  all_goals simp only [State.rimDrawId, State.draw, State.rimShow_consumed, State.setRp_consumed]

@[simp] theorem State.rimCut_consumed (s : State) (k : Nat) : (s.rimCut k).consumed = s.consumed := by
  unfold State.rimCut
  dsimp only
  repeat' split
  all_goals simp only [State.raise_consumed, State.rimCount, State.count_consumed, State.rimEnd, State.rimLeave, State.rimShow_consumed,
    State.setRp_consumed, State.rimQueue_consumed]

@[simp] theorem State.d2dPool_consumed (s : State) : s.d2dPool.consumed = s.consumed := by
  unfold State.d2dPool
  dsimp only
  repeat' split
  all_goals simp only [State.publish_consumed, State.raise_consumed]

@[simp] theorem State.linkStop_consumed (s : State) (d : Nat) : (s.linkStop d).consumed = s.consumed := by
  unfold State.linkStop
  extract_lets a src b
  have ha : a.consumed = s.consumed := State.setFld_consumed s _ _
  clear_value src a
  have hb : b.consumed = s.consumed := ha
  clear_value b
  refine (State.d2dPool_consumed _).trans ((foldl_consumed _ _ _ (fun c x => ?_)).trans hb)
  exact (State.setFld_consumed _ _ _).trans (State.setFld_consumed _ _ _)

@[simp] theorem State.modCnv_consumed (s : State) (l : Nat) (f : CnvSt → CnvSt) : (s.modCnv l f).consumed = s.consumed := by
  unfold State.modCnv
  simp only [State.modLn_consumed]

@[simp] theorem State.showSets_consumed (s : State) (l : Nat) : (s.showSets l).consumed = s.consumed := by
  unfold State.showSets
  extract_lets c s1
  rw [State.setFld_consumed]
  refine foldl_consumed _ _ _ (fun b x => ?_)
  extract_lets tick
  split <;> exact State.setReg_consumed _ _ _

@[simp] theorem State.cnvBoundary_consumed (s : State) (l : Nat) : (s.cnvBoundary l).consumed = s.consumed := by
  unfold State.cnvBoundary
  dsimp only
  repeat' split
  all_goals simp only [State.modCnv_consumed, State.sendCtl, State.modSnd, foldl_consumed, implies_true]

@[simp] theorem State.tileAdopt_consumed (s : State) (l : Nat) (all : Bool) : (s.tileAdopt l all).consumed = s.consumed := by
  unfold State.tileAdopt
  dsimp only
  repeat' split
  all_goals simp only [State.modCnv_consumed, State.modLn_consumed, State.showMaps, State.emit, apply_ite State.consumed, ite_self, foldl_consumed,
    implies_true]

@[simp] theorem State.setAgain_consumed (l : Nat) (s : State) (k : Nat) : (State.setAgain l s k).consumed = s.consumed := by
  unfold State.setAgain
  dsimp only
  repeat' split
  all_goals simp only [State.modCnv_consumed, State.setFld_consumed]

@[simp] theorem State.setReload_consumed (s : State) (l : Nat) : (s.setReload l).consumed = s.consumed := by
  unfold State.setReload
  repeat' split
  all_goals simp only [State.modCnv_consumed, State.setAgain_consumed, State.showSets_consumed, foldl_consumed, implies_true]

@[simp] theorem State.setCtx_consumed (s : State) (n : Nat) (x : ChTx) : (s.setCtx n x).consumed = s.consumed := by
  unfold State.setCtx
  dsimp only

@[simp] theorem State.setCrx_consumed (s : State) (n : Nat) (x : ChRx) : (s.setCrx n x).consumed = s.consumed := by
  unfold State.setCrx
  dsimp only

@[simp] theorem State.chCount_consumed (s : State) (n o k : Nat) : (s.chCount n o k).consumed = s.consumed := by
  unfold State.chCount
  simp only [State.count_consumed]

@[simp] theorem State.cutPkt_consumed (s : State) (n : Nat) : (s.cutPkt n).consumed = s.consumed := by
  unfold State.cutPkt
  dsimp only
  repeat' split
  all_goals simp only [State.chCount_consumed, State.setCrx_consumed]

@[simp] theorem State.rebuildAt_consumed (s : State) (n : Nat) (pl : List Byte) (k o : Nat) : (s.rebuildAt n pl k o).consumed = s.consumed := by
  induction k generalizing s o with
  | zero => rfl
  | succ k ih =>
    unfold State.rebuildAt
    dsimp only
    repeat' split
    all_goals simp only [ih, State.setCrx_consumed, State.chCount_consumed, State.egrPut, State.count_consumed, State.egrJoin,
      apply_ite State.consumed, ite_self, State.raiseDp_consumed, State.setEgrQ, State.winAdd, State.setWin_consumed]

@[simp] theorem State.rebuild_consumed (s : State) (n bptr : Nat) (pl : List Byte) : (s.rebuild n bptr pl).consumed = s.consumed := by
  unfold State.rebuild
  dsimp only
  repeat' split
  all_goals simp only [State.cutPkt_consumed, State.egrPut, State.count_consumed, State.egrJoin, apply_ite State.consumed, ite_self,
    State.raiseDp_consumed, State.setEgrQ, State.winAdd, State.setWin_consumed, State.rebuildAt_consumed, State.setCrx_consumed]

@[simp] theorem State.seqLost_consumed (s : State) (n k : Nat) : (s.seqLost n k).consumed = s.consumed := by
  unfold State.seqLost
  repeat' split
  all_goals simp only [State.chCount_consumed, State.cutPkt_consumed, State.raiseDp_consumed]

@[simp] theorem State.releases_consumed (s : State) (n now : Nat) (bad : Bool) (k : Nat) : (s.releases n now bad k).consumed = s.consumed := by
  induction k generalizing s bad with
  | zero => rfl
  | succ k ih =>
    unfold State.releases
    repeat' split
    all_goals simp only [ih, State.release, State.seqTake, State.rebuild_consumed, State.seqLost_consumed, State.setCrx_consumed, State.winAdd,
      State.setWin_consumed, apply_ite State.consumed, ite_self]

@[simp] theorem State.releaseDue_consumed (s : State) (n now : Nat) (bad : Bool) : (s.releaseDue n now bad).consumed = s.consumed := by
  unfold State.releaseDue
  simp only [State.releases_consumed]

@[simp] theorem State.twinTick_consumed (s : State) (n : Nat) : (s.twinTick n).consumed = s.consumed := by
  unfold State.twinTick
  extract_lets x now a rs p recent d flip d2 a2 ds m s1 s2 s3 on c1 c2 un s4 s5 s6
  have h2 : s2.consumed = s.consumed := by
    by_cases hc : flip = true
    · rw [show s2 = _ from if_pos hc, State.releaseDue_consumed, State.chCount_consumed, State.raise_consumed]
      exact State.setCrx_consumed _ _ _
    · rw [show s2 = _ from if_neg hc]
      exact State.setCrx_consumed _ _ _
  have h3 : s3.consumed = s2.consumed := State.publishReg_consumed _ _ _
  have h4 : s4.consumed = s3.consumed := State.raiseIf_consumed _ _ _
  have h5 : s5.consumed = s4.consumed := by
    by_cases hc : un = true
    · rw [show s5 = _ from if_pos hc, State.countLevel_consumed]
    · rw [show s5 = _ from if_neg hc]
  rw [State.publish_consumed, State.publish_consumed, State.publish_consumed]
  show (State.setCrx _ _ _).consumed = _
  rw [State.setCrx_consumed, h5, h4, h3, h2]

@[simp] theorem State.floTick_consumed (s : State) : s.floTick.consumed = s.consumed := by
  unfold State.floTick
  extract_lets a tw b
  rw [State.publish_consumed]
  refine (foldl_consumed _ _ _ State.twinTick_consumed).trans (foldl_consumed _ _ _ (fun x n => State.setFld_consumed _ _ _))

@[simp] theorem State.modLcy_consumed (s : State) (l : Nat) (f : LcySt → LcySt) : (s.modLcy l f).consumed = s.consumed := by
  unfold State.modLcy
  simp only [State.modLn_consumed]

@[simp] theorem State.searchTick_consumed (s : State) (l : Nat) (again : Bool) : (s.searchTick l again).consumed = s.consumed := by
  unfold State.searchTick
  dsimp only
  repeat' split
  all_goals simp only [State.modLcy_consumed]

@[simp] theorem State.modFrm_consumed (s : State) (l : Nat) (f : FrmSt → FrmSt) : (s.modFrm l f).consumed = s.consumed := by
  unfold State.modFrm
  simp only [State.modLn_consumed]

@[simp] theorem State.modRxp_consumed (s : State) (l : Nat) (f : RxpSt → RxpSt) : (s.modRxp l f).consumed = s.consumed := by
  unfold State.modRxp
  simp only [State.modLn_consumed]

@[simp] theorem State.modDsp_consumed (s : State) (l : Nat) (f : DspSt → DspSt) : (s.modDsp l f).consumed = s.consumed := by
  unfold State.modDsp
  simp only [State.modLn_consumed]

@[simp] theorem State.acqApply_consumed (s : State) (l : Nat) : (s.acqApply l).consumed = s.consumed := by
  unfold State.acqApply
  dsimp only
  repeat' split
  all_goals simp only [State.acqFail, State.acqGo, State.acqTally, State.count_consumed, apply_ite State.consumed, ite_self, State.modDsp_consumed,
    State.modRxp_consumed, State.raise_consumed, State.frmLost, State.modFrm_consumed, State.modLn_consumed, State.setFld_consumed]

@[simp] theorem State.rxpTick_consumed (s : State) (l : Nat) : (s.rxpTick l).consumed = s.consumed := by
  unfold State.rxpTick
  dsimp only
  repeat' split
  all_goals simp only [State.acqApply_consumed, State.modDsp_consumed, State.modRxp_consumed, State.raiseIf_consumed, State.rxpLimits,
    apply_ite State.consumed, ite_self, State.rxpMonitors, State.publish_consumed, foldl_consumed, implies_true, State.scanTick]

@[simp] theorem State.capLost_consumed (s : State) (l : Nat) : (s.capLost l).consumed = s.consumed := by
  unfold State.capLost
  repeat' split
  all_goals simp only [State.capMiss, State.latch, State.modRxp_consumed, State.raiseDp_consumed]

@[simp] theorem State.setRxFmt_consumed (s : State) (l k : Nat) (shift : Bool) : (s.setRxFmt l k shift).consumed = s.consumed := by
  unfold State.setRxFmt
  dsimp only
  repeat' split
  all_goals simp only [State.acqRestart, State.modRxp_consumed, State.modFrm_consumed, State.modLn_consumed]

@[simp] theorem State.adoptLine_consumed (s : State) (l o : Nat) (old new : Word) : (s.adoptLine l o old new).consumed = s.consumed := by
  unfold State.adoptLine
  dsimp only
  repeat' split
  all_goals simp only [State.setRxFmt_consumed, State.setTxFmt, State.modLn_consumed, apply_ite State.consumed, ite_self, State.slotShrink,
    State.count_consumed, State.raiseDp_consumed]

@[simp] theorem State.adoptIdle_consumed (s : State) (l : Nat) : (s.adoptIdle l).consumed = s.consumed := by
  unfold State.adoptIdle
  dsimp only
  repeat' split
  all_goals simp only [State.adoptSide, State.adoptPart, State.adoptLine_consumed, State.modLn_consumed, apply_ite State.consumed, ite_self,
    foldl_consumed, implies_true]

@[simp] theorem State.frmTick_consumed (s : State) (l pwr : Nat) : (s.frmTick l pwr).consumed = s.consumed := by
  unfold State.frmTick
  dsimp only
  repeat' split
  all_goals simp only [State.capLost_consumed, State.modFrm_consumed, State.modLn_consumed, State.setFld_consumed, State.setReg64_consumed]

@[simp] theorem State.tileMute_consumed (s : State) (l : Nat) : (s.tileMute l).consumed = s.consumed := by
  unfold State.tileMute
  simp only [State.dropPlaced, State.dropMark, State.setCtx_consumed, State.txDrop, State.chCount_consumed, State.raiseDp_consumed,
    apply_ite State.consumed, ite_self, State.modLn_consumed, foldl_consumed, implies_true, State.setDacZero, State.setMute, State.rimCut_consumed,
    State.txQuiet, State.modLcy_consumed]

@[simp] theorem State.maskTick_consumed (s : State) (l : Nat) : (s.maskTick l).consumed = s.consumed := by
  unfold State.maskTick
  dsimp only
  repeat' split
  all_goals simp only [State.modLn_consumed, State.publish_consumed, foldl_consumed, implies_true]

@[simp] theorem State.txpTick_consumed (s : State) (l : Nat) : (s.txpTick l).consumed = s.consumed := by
  unfold State.txpTick
  dsimp only
  repeat' split
  all_goals simp only [State.count_consumed, State.modLn_consumed, State.raiseIf_consumed, State.setFld_consumed, State.setReg_consumed,
    State.tileMute_consumed, foldl_consumed, implies_true]

@[simp] theorem State.fecTick_consumed (s : State) (l : Nat) : (s.fecTick l).consumed = s.consumed := by
  unfold State.fecTick
  dsimp only
  simp only [State.count_consumed, State.modFec, State.modLn_consumed, apply_ite State.consumed, ite_self, State.modFrm_consumed,
    State.publish_consumed, State.raiseIf_consumed, State.setFld_consumed, State.setReg_consumed, foldl_consumed, implies_true]

@[simp] theorem State.adoptChan_consumed (s : State) (n : Nat) (old new : Word) : (s.adoptChan n old new).consumed = s.consumed := by
  unfold State.adoptChan
  dsimp only
  repeat' split
  all_goals simp only [State.seqReset, State.chCount_consumed, State.cutPkt_consumed, State.publishReg_consumed, State.raiseDp_consumed,
    State.setCrx_consumed, apply_ite State.consumed, ite_self, State.setCtx_consumed, State.txStop, State.txDrop]

@[simp] theorem State.adopt_consumed (s : State) (off : Nat) : (s.adopt off).consumed = s.consumed := by
  unfold State.adopt
  dsimp only
  repeat' split
  all_goals simp only [State.adoptChan_consumed, State.adoptEng, State.modLn_consumed, apply_ite State.consumed, ite_self, State.adoptLater,
    State.adoptRxEn, State.modFrm_consumed, State.modRxp_consumed, State.loadShadow, foldl_consumed, implies_true]

@[simp] theorem State.publishShadow_consumed (s : State) : s.publishShadow.consumed = s.consumed := by
  unfold State.publishShadow
  dsimp only
  simp only [State.adoptIdle_consumed, State.adopt_consumed, State.publishHeld, State.adoptLater, State.modLn_consumed, State.setFld_consumed,
    foldl_consumed, implies_true]

@[simp] theorem State.tileIdle_consumed (s : State) (l : Nat) : (s.tileIdle l).consumed = s.consumed := by
  unfold State.tileIdle
  repeat' split
  all_goals simp only [State.tileAdopt_consumed]

@[simp] theorem State.showFld_consumed (s : State) (p : Fr × Nat) : (s.showFld p).consumed = s.consumed := by
  unfold State.showFld
  simp only [State.setFld_consumed]

@[simp] theorem State.publishAll_consumed (s : State) : s.publishAll.consumed = s.consumed := by
  unfold State.publishAll
  dsimp only
  simp only [State.assistBoundary, apply_ite State.consumed, ite_self, State.cnvBoundary_consumed, State.ctlMoves, State.ctlMove, State.modSnd,
    foldl_consumed, implies_true, State.presetBoundary, State.linkPreset, State.publishShadow_consumed, State.showFld_consumed, State.tellLanes,
    State.sendCtl, State.tileIdle_consumed]

@[simp] theorem State.boundary_consumed (s : State) (t : TickIn) : (s.boundary t).consumed = s.consumed := by
  unfold State.boundary
  simp only [State.clkBoundary_consumed, State.publishAll_consumed, State.publishMoves, State.publishMove_consumed, State.setFldIf_consumed,
    foldl_consumed, implies_true, apply_ite State.consumed, ite_self, State.timBoundary, State.adjApply, State.setFld_consumed, State.timeJump,
    State.modLn_consumed, State.setTime_consumed, State.ttStepNow_consumed]

@[simp] theorem State.clockOnly_consumed (s : State) (t : TickIn) : (s.clockOnly t).consumed = s.consumed := by
  unfold State.clockOnly
  simp only [State.dpllTick, State.publishReg_consumed, apply_ite State.consumed, ite_self, State.numStep, State.setFld_consumed, State.secondEnd,
    State.setTime_consumed]

@[simp] theorem State.phase1_consumed (s : State) (ctrs : SMap Ctr) : (s.phase1 ctrs).consumed = s.consumed := by
  unfold State.phase1
  simp only [State.applyPreset, State.count_consumed, State.presetWrap, apply_ite State.consumed, ite_self, State.raise_consumed,
    State.setFld_consumed, State.captureSnap, State.formSnap_consumed, State.winBoundary, State.setWin_consumed, State.winPublish_consumed,
    foldl_consumed, implies_true]

@[simp] theorem State.hostFec_consumed (s : State) (x : Nat × Nat × Nat) : (s.hostFec x).consumed = s.consumed := by
  unfold State.hostFec
  repeat' split
  all_goals simp only [State.count_consumed]

@[simp] theorem State.latchLine_consumed (t : TickIn) (s : State) (l : Nat) : (State.latchLine t s l).consumed = s.consumed := by
  unfold State.latchLine
  dsimp only
  simp only [State.fecTick_consumed, State.frmTick_consumed, State.lcyTick, State.modLcy_consumed, State.searchTick_consumed, State.setFld_consumed,
    State.setReg64_consumed, State.maskTick_consumed, State.rxpLatch, State.rxpTick_consumed, State.txpTick_consumed]

@[simp] theorem State.unitLost_consumed (s : State) (e : MemErr) : (s.unitLost e).consumed = s.consumed := by
  unfold State.unitLost
  repeat' split
  all_goals simp only [State.dspLost, State.modDsp_consumed, State.raise_consumed, apply_ite State.consumed, ite_self, State.scratchLost_consumed,
    State.setLost, State.modCnv_consumed, State.showSets_consumed]

@[simp] theorem State.memUnit_consumed (s : State) (a : MemAcc) : (s.memUnit a).consumed = s.consumed := by
  unfold State.memUnit
  dsimp only
  repeat' split
  all_goals simp only [State.memAcc, State.memErr_consumed, State.memWrote, State.raiseAt_consumed, State.setFld_consumed, State.setSyn_consumed,
    State.trkWrote, apply_ite State.consumed, ite_self, State.unitLost_consumed]

@[simp] theorem State.showErrs_consumed (s : State) : s.showErrs.consumed = s.consumed := by
  unfold State.showErrs
  simp only [State.setFld_consumed, foldl_consumed, implies_true]

@[simp] theorem State.phase2_consumed (s : State) (t : TickIn) : (s.phase2 t).consumed = s.consumed := by
  unfold State.phase2
  dsimp only
  repeat' split
  all_goals simp only [State.hostFec_consumed, State.latchEvent_consumed, State.latchLine_consumed, State.memUnit_consumed, State.pairTick,
    State.modRxp_consumed, State.raise_consumed, apply_ite State.consumed, ite_self, State.portDown, State.countLevel_consumed,
    State.setReload_consumed, State.showErrs_consumed, State.showFld_consumed, foldl_consumed, implies_true]

@[simp] theorem State.phase3_consumed (s : State) (t : TickIn) : (s.phase3 t).consumed = s.consumed := by
  unfold State.phase3
  simp only [State.clkPhase3_consumed, State.timPhase3, State.publish_consumed, State.ttTick_consumed]

@[simp] theorem State.clocksStop_consumed (s : State) (l : Nat) : (s.clocksStop l).consumed = s.consumed := by
  unfold State.clocksStop
  dsimp only
  simp only [State.dropPlaced, State.dropMark, State.setCtx_consumed, State.txDrop, State.chCount_consumed, State.raiseDp_consumed,
    apply_ite State.consumed, ite_self, State.modLn_consumed, foldl_consumed, implies_true, State.linkStop_consumed, State.publish_consumed,
    State.raiseDpIf_consumed]

@[simp] theorem State.phase4_consumed (s : State) : s.phase4.consumed = s.consumed := by
  unfold State.phase4
  dsimp only
  repeat' split
  all_goals simp only [State.clocksStop_consumed, State.rimCut_consumed, State.shutdownCheck_consumed, State.thermal_consumed, foldl_consumed,
    implies_true]

@[simp] theorem State.phase6_consumed (s : State) : s.phase6.consumed = s.consumed := by
  unfold State.phase6
  repeat' split
  all_goals simp only [State.cnvTick, State.cnvInterp, State.modCnv_consumed, State.setTap, State.cnvDirty, apply_ite State.consumed, ite_self,
    State.publish_consumed, State.setUnit, State.showUnit, foldl_consumed, implies_true, State.cnvStale, State.showCells, State.repairRows_consumed]

@[simp] theorem State.commitLate_consumed (s : State) : s.commitLate.consumed = s.consumed := by
  unfold State.commitLate
  repeat' split
  all_goals simp only [State.abandonCommit_consumed]

@[simp] theorem State.phase7_consumed (s : State) : s.phase7.consumed = s.consumed := by
  unfold State.phase7
  dsimp only
  repeat' split
  all_goals simp only [State.commitLate_consumed, State.floTick_consumed, State.katDue, apply_ite State.consumed, ite_self, State.monFollows,
    State.monFollow, State.publish_consumed, State.setFld_consumed, State.setMon_consumed, foldl_consumed, implies_true, State.nbStale,
    State.rimTick_consumed]

@[simp] theorem State.runTick_consumed (s : State) (t : TickIn) : (s.runTick t).consumed = s.consumed := by
  unfold State.runTick
  dsimp only
  simp only [State.boundary_consumed, State.phase1_consumed, State.phase2_consumed, State.phase3_consumed, State.phase4_consumed,
    State.phase5_consumed, State.phase6_consumed, State.phase7_consumed, State.phase8_consumed, State.wraps_consumed]

end Sys2Proof.Machine
end


section
/-! SUPPORT. The tick: what phase 8 shows, what an overrun leaves, and the sequencer stopped (R34, R440-R442, R448, R496). -/

namespace Sys2Proof.Machine
open Sys2Proof

/-! ### The status page (R496) -/

/-- The page tells the registers outside the wraps' ones, and these parts of the state. -/
theorem State.pageNow_congr (s t : State) (hr : ∀ off, off ∉ wrapRegs → t.reg off = s.reg off) (hh : t.thm = s.thm) (hb : t.boot = s.boot)
    (hu : t.fuses = s.fuses) (ht : t.tick = s.tick) : t.pageNow = s.pageNow := by
  have hf (f : Fr) (h : f.off ∉ wrapRegs) : t.fld f = s.fld f := State.fld_congr s t f (hr _ h)
  have hbit (f : Fr) (h : f.off ∉ wrapRegs) : t.bit f = s.bit f := State.bit_congr s t f (hr _ h)
  have hline (l : Fin 2) : t.lineByte l = s.lineByte l := by
    have ho : Reg.FRM_STATUS l ∉ wrapRegs ∧ Reg.TXP_STATUS l ∉ wrapRegs ∧ Reg.GLB_LINE_STATUS ∉ wrapRegs :=
      (by decide : ∀ l : Fin 2, Reg.FRM_STATUS l ∉ wrapRegs ∧ Reg.TXP_STATUS l ∉ wrapRegs ∧ Reg.GLB_LINE_STATUS ∉ wrapRegs) l
    obtain ⟨hfrm, htxp, hln⟩ := ho
    unfold State.lineByte
    rw [hf (Reg.FRM_STATUS.DEF l) hfrm, hf ⟨Reg.GLB_LINE_STATUS, 2 * l + 1, 2 * l⟩ hln, hbit (Reg.FRM_STATUS.OOF l) hfrm,
      hbit (Reg.TXP_STATUS.MUTED l) htxp]
  have h0 : t.lineByte 0 = s.lineByte 0 := hline 0
  have h1 : t.lineByte 1 = s.lineByte 1 := hline 1
  have hdown : t.down = s.down := hbit _ (by decide)
  have hpin : t.thermPin = s.thermPin := by
    unfold State.thermPin
    rw [hdown, hbit Reg.THM_STATUS.GATE (by decide), hbit Reg.THM_CTL.WARN_PIN (by decide), hh]
  unfold State.pageNow
  simp (disch := decide) only [hf, hdown, hpin, h0, h1, hb, hu, ht]

@[simp] theorem State.pageNow_wraps (s : State) : s.wraps.pageNow = s.pageNow :=
  State.pageNow_congr s s.wraps (fun _ h => s.reg_wraps h) (by simp only [State.wraps_frame]) (by simp only [State.wraps_frame])
    (by simp only [State.wraps_frame]) (by simp only [State.wraps_frame])

/-! ### FAULT_N and SERVICE_N (R440-R442) -/

/-- The fields that make SERVICE_N due. -/
def serviceFlds : List Fr :=
  [Reg.FLT_STATUS.DEGRADED, Reg.CFG_STATUS.SAFE, Reg.FLT_STATUS.LINE_HELD, Reg.FLT_STATUS.SEQ_HARD, Reg.FLT_STATUS.XO_FAIL, Reg.MON_STATUS.ISOLATED]

theorem State.serviceDue_congr (s t : State) (hf : ∀ f ∈ serviceFlds, t.fld f = s.fld f) (hn : t.noPair = s.noPair) :
    t.serviceDue = s.serviceDue := by
  unfold State.serviceDue
  simp (disch := decide) only [State.bit_eq, hf, hn]

theorem State.serviceDue_assertService (s : State) : s.assertService.serviceDue = s.serviceDue := by
  refine State.serviceDue_congr _ _ (fun f hm => ?_) (by simp only [State.assertService_frame])
  have hd : ∀ f ∈ serviceFlds, Reg.FLT_STATUS.SERVICE.off ≠ f.off ∨ Reg.FLT_STATUS.SERVICE.hi < f.lo ∨ f.hi < Reg.FLT_STATUS.SERVICE.lo := by decide
  have he : ∀ f ∈ serviceFlds, f.off ≠ Reg.FLT_EVENT.SERVICE_ON.off ∧ f.off ≠ Reg.FLT_EVENT := by decide
  unfold State.assertService
  split
  · rfl
  · rw [State.fld_congr _ _ f (State.reg_raise_ne _ _ (he f hm).1 (he f hm).2), State.fld_setFld_ne _ _ _ _ (by decide) (by decide) (hd f hm)]

/-- FLT_SUMMARY's value fits its register. -/
theorem State.summary_lt (s : State) : s.summary < 2 ^ 32 := by
  have hg : ∀ g ∈ eventGroups, g.1 < 32 := by decide
  refine List.foldlRecOn eventGroups _ (motive := fun a => a < 2 ^ 32) (by decide) fun a ha g hm => ?_
  split
  · exact Nat.or_lt_two_pow ha (Nat.pow_lt_pow_right (by decide) (hg g hm))
  · exact ha

/-- After the aggregation FAULT_N stands as FLT_SUMMARY and SEQ_HARD say. -/
theorem State.fault_aggregate (s : State) :
    s.aggregate.bit Reg.FLT_STATUS.FAULT = (s.aggregate.reg Reg.FLT_SUMMARY != 0 || s.aggregate.bit Reg.FLT_STATUS.SEQ_HARD) := by
  have hv : (BitVec.ofNat 32 s.summary != 0) = (s.summary != 0) := by
    have := s.summary_lt
    rw [Bool.eq_iff_iff, bne_iff_ne, bne_iff_ne, Ne, ← BitVec.toNat_inj, BitVec.toNat_ofNat, Nat.mod_eq_of_lt this]
    rfl
  unfold State.aggregate
  extract_lets v a b
  set c := b.setFld Reg.FLT_STATUS.FAULT (b2n (v != 0 || b.bit Reg.FLT_STATUS.SEQ_HARD)) with hc
  have hsum : c.reg Reg.FLT_SUMMARY = BitVec.ofNat 32 v := (b.reg_setFld_ne _ (by decide)).trans (a.reg_setReg_self _ _)
  have hhard : c.bit Reg.FLT_STATUS.SEQ_HARD = b.bit Reg.FLT_STATUS.SEQ_HARD := by
    rw [hc, State.bit_eq, State.bit_eq, State.fld_setFld_ne _ _ _ _ (by decide) (by decide) (by decide)]
  have hfault : c.bit Reg.FLT_STATUS.FAULT = (v != 0 || b.bit Reg.FLT_STATUS.SEQ_HARD) := by
    rw [hc, State.bit_eq, State.fld_setFld _ _ _ (by decide) (by decide)]
    cases v != 0 || b.bit Reg.FLT_STATUS.SEQ_HARD <;> rfl
  rw [hfault, hsum, hhard, hv]

theorem State.serviceDue_aggregate (s : State) : s.aggregate.serviceDue = s.serviceDue := by
  refine State.serviceDue_congr _ _ (fun f hm => ?_) (by simp only [State.aggregate_frame])
  have hd : ∀ f ∈ serviceFlds, Reg.FLT_STATUS.FAULT.off ≠ f.off ∨ Reg.FLT_STATUS.FAULT.hi < f.lo ∨ f.hi < Reg.FLT_STATUS.FAULT.lo := by decide
  have hs : ∀ f ∈ serviceFlds, Reg.FLT_SUMMARY ≠ f.off := by decide
  unfold State.aggregate
  extract_lets v a b
  rw [State.fld_setFld_ne _ _ _ _ (by decide) (by decide) (hd f hm)]
  exact State.fld_congr a _ f (a.reg_setReg_ne _ (hs f hm))

/-- What phase 8 and a command's wraps leave shown: the page of the moment, FAULT_N and SERVICE_N as their conditions say. -/
structure State.Shown (s : State) : Prop where
  page : s.page = s.pageNow
  fault : s.bit Reg.FLT_STATUS.FAULT = (s.reg Reg.FLT_SUMMARY != 0 || s.bit Reg.FLT_STATUS.SEQ_HARD)
  service : s.serviceDue = true → s.bit Reg.FLT_STATUS.SERVICE = true

/-- Two states that agree in what is shown and in the registers outside the wraps' ones. -/
theorem State.Shown.congr {s t : State} (h : s.Shown) (hp : t.page = s.page) (hpn : t.pageNow = s.pageNow)
    (hr : ∀ off, off ∉ wrapRegs → t.reg off = s.reg off) (hn : t.noPair = s.noPair) : t.Shown where
  page := by rw [hp, hpn, h.page]
  fault := by
    rw [State.bit_congr s t _ (hr _ (by decide)), State.bit_congr s t Reg.FLT_STATUS.SEQ_HARD (hr _ (by decide)), hr _ (by decide), h.fault]
  service := fun hd => by
    have ho : ∀ f ∈ serviceFlds, f.off ∉ wrapRegs := by decide
    rw [State.bit_congr s t _ (hr _ (by decide))]
    exact h.service ((State.serviceDue_congr s t (fun f hm => State.fld_congr s t f (hr _ (ho f hm))) hn).symm.trans hd)

theorem State.shown_phase8 (s : State) : s.phase8.Shown := by
  unfold State.phase8
  extract_lets a b
  have hb : b.serviceDue = true → b.bit Reg.FLT_STATUS.SERVICE = true := by
    by_cases hs : a.serviceDue = true
    · rw [show b = a.assertService from if_pos hs]
      exact fun _ => a.bit_assertService
    · rw [show b = a from if_neg hs]
      exact fun h => absurd h hs
  clear_value b
  have hm {off : Nat} (h : off ≠ Reg.MSIX_PBA 0) : b.aggregate.blockMsgs.refreshPage.reg off = b.aggregate.reg off := b.aggregate.reg_blockMsgs_ne h
  have ho : ∀ f ∈ serviceFlds, f.off ≠ Reg.MSIX_PBA 0 := by decide
  have hdue : b.aggregate.blockMsgs.refreshPage.serviceDue = b.serviceDue := by
    refine (State.serviceDue_congr b.aggregate _ (fun f hf => State.fld_congr _ _ f (hm (ho f hf))) ?_).trans b.serviceDue_aggregate
    simp only [State.refreshPage_frame, State.blockMsgs_frame]
  refine ⟨rfl, ?_, fun hd => ?_⟩
  · rw [State.bit_congr _ _ _ (hm (by decide)), State.bit_congr _ _ Reg.FLT_STATUS.SEQ_HARD (hm (by decide)), hm (by decide), b.fault_aggregate]
  · rw [State.bit_congr _ _ _ (hm (by decide))]
    unfold State.aggregate
    extract_lets v c e
    have he : e.bit Reg.FLT_STATUS.SERVICE = b.bit Reg.FLT_STATUS.SERVICE := State.bit_congr c _ _ (c.reg_setReg_ne _ (by decide))
    rw [State.bit_eq, State.fld_setFld_ne _ _ _ _ (by decide) (by decide) (by decide), ← State.bit_eq, he, hb (hdue.symm.trans hd)]

/-- A command's wraps leave what is shown. -/
theorem State.shown_cmd (s : State) (f : State → State) (h : s.live) (hs : (f s.cleared).Shown) : (s.cmd f).Shown := by
  refine hs.congr (by simp only [State.cmd_frame s f h]) ?_ (fun _ ho => s.reg_cmd f h ho) (by simp only [State.cmd_frame s f h])
  rw [State.cmd_live s f h]
  exact (f s.cleared).pageNow_wraps

/-! ### Before the tick: rows and lanes (R298, R377) -/

@[simp] theorem State.replaceLane_tick (s : State) (k : Nat) : (s.replaceLane k).tick = s.tick := by
  unfold State.replaceLane
  dsimp only
  repeat' split
  all_goals simp only [State.publish_tick, State.raiseAt_tick, State.setSub]

@[simp] theorem State.replaceLanes_tick (s : State) : s.replaceLanes.tick = s.tick := by
  unfold State.replaceLanes
  dsimp only
  repeat' split
  all_goals simp only [State.d2dPool_tick, State.replaceLane_tick, foldl_tick, implies_true]

/-! ### An overrun (R34, R471) -/

/-- Nothing is published or latched, the results that wait wait on, and the page shows nothing new. -/
structure State.Unshown (s t : State) : Prop where
  pub : s.pubQ <+: t.pubQ
  lat : t.latQ = s.latQ
  ev : t.evQ = s.evQ
  shadow : t.shadow = s.shadow
  page : t.page = s.page

theorem State.Unshown.trans {s t u : State} (h : s.Unshown t) (k : t.Unshown u) : s.Unshown u :=
  ⟨h.pub.trans k.pub, k.lat.trans h.lat, k.ev.trans h.ev, k.shadow.trans h.shadow, k.page.trans h.page⟩

theorem State.unshown_setFld (s : State) (f : Fr) (v : Nat) : s.Unshown (s.setFld f v) := by
  constructor <;> simp only [State.setFld_frame, List.prefix_rfl]

theorem State.unshown_raise (s : State) (f : Fr) : s.Unshown (s.raise f) := by
  constructor <;> simp only [State.raise_frame, List.prefix_rfl]

theorem State.unshown_cmd (s : State) (f : State → State) (h : s.live) : (f s.cleared).Unshown (s.cmd f) := by
  constructor <;> simp only [State.cmd_frame s f h, List.prefix_rfl]

/-- The clock publishes its output's frequency: it joins the results that wait. -/
theorem State.unshown_clockOnly (s : State) (t : TickIn) : s.Unshown (s.clockOnly t) := by
  have hnum : s.Unshown s.numStep := by
    unfold State.numStep
    constructor <;> simp only [State.setFld_frame, List.prefix_rfl]
  have hsec : s.numStep.Unshown s.numStep.secondEnd := by
    unfold State.secondEnd
    split <;> exact ⟨List.prefix_rfl, rfl, rfl, rfl, rfl⟩
  exact (hnum.trans hsec).trans ⟨List.prefix_append _ _, rfl, rfl, rfl, rfl⟩

theorem State.unshown_missSnap (s : State) : s.Unshown s.missSnap := by
  unfold State.missSnap
  split
  · extract_lets a
    have ha : s.Unshown a := (s.unshown_setFld _ _).trans (State.unshown_setFld _ _ _)
    clear_value a
    obtain ⟨hpub, hlat, hev, hshadow, hpage⟩ := ha.trans (a.unshown_raise Reg.PMC_EVENT.SNAP_MISS)
    exact ⟨hpub, hlat, hev, hshadow, hpage⟩
  · exact ⟨List.prefix_rfl, rfl, rfl, rfl, rfl⟩

/-- A missed snapshot is told in the counters' registers alone. -/
theorem State.reg_missSnap (s : State) {off : Nat} (h : off ∉ [Reg.PMC_SNAP_CTL, Reg.PMC_SNAP_MISS, Reg.PMC_EVENT, Reg.FLT_EVENT]) :
    s.missSnap.reg off = s.reg off := by
  simp only [List.mem_cons, List.not_mem_nil, or_false, not_or] at h
  obtain ⟨hctl, hmiss, hpmc, hflt⟩ := h
  unfold State.missSnap
  split
  · exact (State.reg_raise_ne _ _ hpmc hflt).trans ((State.reg_setFld_ne _ _ (Ne.symm hmiss)).trans (State.reg_setFld_ne _ _ (Ne.symm hctl)))
  · rfl

theorem State.unshown_overrunTick (s : State) (t : TickIn) : s.Unshown (s.overrunTick t) := by
  have hc : s.Unshown { s with consumed := true } := ⟨List.prefix_rfl, rfl, rfl, rfl, rfl⟩
  exact (((hc.trans (State.unshown_clockOnly _ t)).trans (State.unshown_setFld _ _ _)).trans (State.unshown_raise _ _)).trans
    (State.unshown_missSnap _)

theorem State.consumed_overrunTick (s : State) (t : TickIn) : (s.overrunTick t).consumed = true := by
  simp only [State.overrunTick, State.missSnap_consumed, State.raise_consumed, State.setFld_consumed, State.clockOnly_consumed]

theorem State.overrunTick_told (s : State) (t : TickIn) : (s.overrunTick t).bit Reg.GLB_TICK_EVENT.OVERRUN = true := by
  unfold State.overrunTick
  rw [State.bit_congr _ _ _ (State.reg_missSnap _ (by decide))]
  exact State.bit_raise _ _ rfl (by decide)

theorem State.overrunTick_counted (s : State) (t : TickIn) :
    (s.overrunTick t).fld Reg.GLB_TICK_STATUS.OVERRUN_CNT = satAdd 0xFFFF (s.fld Reg.GLB_TICK_STATUS.OVERRUN_CNT) 1 := by
  have hlt : satAdd 0xFFFF (s.fld Reg.GLB_TICK_STATUS.OVERRUN_CNT) 1 < 2 ^ 16 := by unfold satAdd; split <;> omega
  unfold State.overrunTick
  rw [State.fld_congr _ _ _ (State.reg_missSnap _ (by decide)), State.fld_congr _ _ _ (State.reg_raise_ne _ _ (by decide) (by decide)),
    State.fld_setFld _ _ _ (by decide) (by decide)]
  exact Nat.mod_eq_of_lt hlt

end Sys2Proof.Machine
end

section
/-! SUPPORT. What a tick does (R34, R441, R442, R448, R496). -/

namespace Sys2Proof.Machine
open Sys2Proof

/-- The state at a tick's boundary: the tick count advances, and the marks of the last tick are gone. -/
def State.begun (s : State) : State := { s with tick := s.tick + 1, msixSent := 0, consumed := false, acted := false }

theorem State.tickStep_runs (s : State) (t : TickIn) (hs : s.stalled = false) (hn : s.noSource = false) (ho : t.overrun = false) :
    ∃ u : State, u.tick = s.tick ∧ s.tickStep t = u.begun.runTick t := by
  unfold State.tickStep
  rw [hs, hn, ho]
  refine ⟨if s.down then s else s.repairRows.replaceLanes, ?_, rfl⟩
  split
  · rfl
  · rw [State.replaceLanes_tick, State.repairRows_tick]

theorem State.tickStep_overrun (s : State) (t : TickIn) (hs : s.stalled = false) (hn : s.noSource = false) (ho : t.overrun = true) :
    s.tickStep t = s.begun.overrunTick t := by
  unfold State.tickStep
  rw [hs, hn, ho]
  rfl

theorem State.tickStep_stopped (s : State) (t : TickIn) (h : s.stalled = true ∨ s.noSource = true) : s.tickStep t = { s with stalled := true } :=
  if_pos (by rw [Bool.or_eq_true]; exact h)

/-- Settles O41: phase 8 ends a tick that runs, and the command's wraps touch nothing of what it shows; an overrun runs the clock alone. -/
theorem ticks : Obligations.Ticks := by
  intro s x
  refine ⟨fun h hs hn ho => ⟨_, rfl, ?_⟩, fun h hs hn ho => ⟨_, rfl, ?_⟩, fun h hstop => ⟨_, rfl, ?_⟩⟩
  · obtain ⟨u, hu, he⟩ := s.cleared.tickStep_runs x hs hn ho
    have hshown : (s.cmd (·.tickStep x)).Shown := s.shown_cmd _ h (by rw [he]; exact State.shown_phase8 _)
    obtain ⟨hpage, hfault, hservice⟩ := hshown
    refine ⟨?_, ?_, hpage, hfault, hservice⟩
    · simp only [State.cmd_frame s _ h, he, State.runTick_tick, State.begun, hu, State.cleared_frame]
    · simp only [State.cmd_frame s _ h, he, State.runTick_consumed, State.begun]
  · have he : s.cleared.tickStep x = s.cleared.begun.overrunTick x := s.cleared.tickStep_overrun x hs hn ho
    have hun : s.cleared.begun.Unshown (s.cmd (·.tickStep x)) := by
      have := s.unshown_cmd (·.tickStep x) h
      rw [he] at this
      exact (State.unshown_overrunTick _ x).trans this
    obtain ⟨hpub, hlat, hev, hshadow, hpage⟩ := hun
    refine ⟨?_, ?_, hpub, hlat, hev, hshadow, ?_, ?_, hpage⟩
    · simp only [State.cmd_frame s _ h, he, State.overrunTick_tick, State.begun, State.cleared_frame]
    · simp only [State.cmd_frame s _ h, he, State.consumed_overrunTick]
    · exact s.bit_cmd _ h _ rfl (by decide) (by rw [he]; exact State.overrunTick_told _ x)
    · rw [State.fld_congr _ _ _ (s.reg_cmd _ h (by decide))]
      rw [he, State.overrunTick_counted]
      rfl
  · have he : s.cleared.tickStep x = { s.cleared with stalled := true } := s.cleared.tickStep_stopped x hstop
    exact s.sameBut_cmd { s with stalled := true } _ _ h (by rw [he]; rfl) rfl fun off hoff => ⟨hoff, by rw [he]; rfl⟩

end Sys2Proof.Machine
end

section
/-! SUPPORT. Client traffic beside its accounts: what counters, windows and outputs leave the readers of a channel's queue to
see, and that a line's shedding does not depend on them (R57, R81, R472). -/

namespace Sys2Proof.Machine

open Sys2Proof

/-! ### States that differ in their accounts -/

/-- `t` is `s` but for the counters, the list of those that wrapped, and what is driven out. -/
def State.Counted (s t : State) : Prop := ∃ c q o, t = { s with ctrs := c, wrapQ := q, out := o }

/-- `t` is `s` but for the counters, the list of those that wrapped, what is driven out, and the windows. -/
def State.Tallied (s t : State) : Prop := ∃ c q o w, t = { s with ctrs := c, wrapQ := q, out := o, wins := w }

/-- Whether a window takes traffic: it runs, and its interval has begun. -/
def State.winTakes (s : State) (w : Nat) : Bool := s.winOn.contains w && decide ((s.win w).start ≤ s.tick)

theorem State.winAdd_on (s : State) (w bytes units : Nat) (h : s.winTakes w = true) :
    s.winAdd w bytes units = s.setWin w { s.win w with bytes := (s.win w).bytes + bytes, units := (s.win w).units + units } := if_pos h

theorem State.winAdd_off (s : State) (w bytes units : Nat) (h : ¬s.winTakes w = true) : s.winAdd w bytes units = s := if_neg h

theorem State.winAdd_form (s : State) (w bytes units : Nat) : ∃ ws, s.winAdd w bytes units = { s with wins := ws } := by
  by_cases h : s.winTakes w = true
  · exact ⟨_, s.winAdd_on w bytes units h⟩
  · exact ⟨s.wins, s.winAdd_off w bytes units h⟩

theorem State.winAdd_ctr (s : State) (w bytes units k : Nat) : (s.winAdd w bytes units).ctr k = s.ctr k := by
  obtain ⟨ws, e⟩ := s.winAdd_form w bytes units
  rw [e]
  rfl

namespace State.Counted

theorem refl (s : State) : s.Counted s := ⟨s.ctrs, s.wrapQ, s.out, rfl⟩

theorem trans {s t u : State} : s.Counted t → t.Counted u → s.Counted u := by
  rintro ⟨_, _, _, rfl⟩ ⟨c, q, o, rfl⟩
  exact ⟨c, q, o, rfl⟩

theorem symm {s t : State} : s.Counted t → t.Counted s := by
  rintro ⟨_, _, _, rfl⟩
  exact ⟨s.ctrs, s.wrapQ, s.out, rfl⟩

theorem cleared (s : State) : s.Counted s.cleared := ⟨s.ctrs, s.wrapQ, [], rfl⟩

theorem count (s : State) (k n : Nat) : s.Counted (s.count k n) := by
  obtain ⟨c, q, e⟩ := s.count_form k n
  exact ⟨c, q, s.out, e⟩

theorem rest {s t : State} : s.Counted t → t.rest = s.rest := by
  rintro ⟨_, _, _, rfl⟩
  rfl

theorem reg {s t : State} (off : Nat) : s.Counted t → t.reg off = s.reg off := by
  rintro ⟨_, _, _, rfl⟩
  rfl

theorem winAdd {s t : State} (w bytes units : Nat) (h : s.Counted t) : (s.winAdd w bytes units).Counted (t.winAdd w bytes units) := by
  have ht : t.winTakes w = s.winTakes w := by
    obtain ⟨_, _, _, rfl⟩ := h
    rfl
  by_cases hw : s.winTakes w = true
  · rw [s.winAdd_on _ _ _ hw, t.winAdd_on _ _ _ (by rwa [ht])]
    obtain ⟨c, q, o, rfl⟩ := h
    exact ⟨c, q, o, rfl⟩
  · rw [s.winAdd_off _ _ _ hw, t.winAdd_off _ _ _ (by rwa [ht])]
    exact h

theorem setCtx {s t : State} (n : Nat) (x : ChTx) : s.Counted t → (s.setCtx n x).Counted (t.setCtx n x) := by
  rintro ⟨c, q, o, rfl⟩
  exact ⟨c, q, o, rfl⟩

theorem ctx {s t : State} (n : Nat) : s.Counted t → t.ctx n = s.ctx n := by
  rintro ⟨_, _, _, rfl⟩
  rfl

theorem hasRoom {s t : State} (n d k : Nat) : s.Counted t → t.hasRoom n d k = s.hasRoom n d k := by
  rintro ⟨_, _, _, rfl⟩
  rfl

theorem queued {s t : State} {es : List Fr} : s.Counted t →
    ({ s with evQ := s.evQ ++ es } : State).Counted { t with evQ := t.evQ ++ es } := by
  rintro ⟨c, q, o, rfl⟩
  exact ⟨c, q, o, rfl⟩

/-- Raising a datapath event queues it, beside its counter. -/
theorem raiseDp (s : State) (f : Fr) : ({ s with evQ := s.evQ ++ [f] } : State).Counted (s.raiseDp f) := by
  unfold State.raiseDp State.raiseDpAt
  obtain ⟨c, q, e⟩ := s.count_form (evCtrKey f 0) 1
  rw [e]
  exact ⟨c, q, s.out, rfl⟩

/-- A drop of some frames queues TX_DROP, beside its counters. -/
theorem txDrop_some (s : State) (n : Nat) {k : Nat} (hk : k ≠ 0) :
    ({ s with evQ := s.evQ ++ [Reg.FLO_EVENT.TX_DROP] } : State).Counted (s.txDrop n k) := by
  rw [State.txDrop, if_neg hk]
  exact (raiseDp s _).trans (count _ _ _)

theorem txDrop {s t : State} (n k : Nat) (h : s.Counted t) : (s.txDrop n k).Counted (t.txDrop n k) := by
  by_cases hk : k = 0
  · rw [State.txDrop, State.txDrop, if_pos hk, if_pos hk]
    exact h
  · exact (txDrop_some s n hk).symm.trans (h.queued.trans (txDrop_some t n hk))

theorem dropMark {s t : State} (l : Nat) (c : Nat × BlockMark) (h : s.Counted t) : (State.dropMark l s c).Counted (State.dropMark l t c) := by
  unfold State.dropMark
  rw [h.ctx]
  exact (h.setCtx _ _).txDrop _ _

/-- A line sheds the same blocks whatever the accounts hold. -/
theorem twinShed {s t : State} (n l k fuel : Nat) (h : s.Counted t) : (s.twinShed n l k fuel).Counted (t.twinShed n l k fuel) := by
  induction fuel generalizing s t with
  | zero => exact h
  | succ fuel ih =>
    unfold State.twinShed
    dsimp only
    rw [h.ctx]
    cases (s.ctx n).q l with
    | nil => exact h
    | cons b bs =>
      dsimp only
      rw [h.hasRoom]
      by_cases hr : s.hasRoom n ((s.ctx n).depth l) k = true
      · rw [if_pos hr, if_pos hr]
        exact h
      · rw [if_neg hr, if_neg hr]
        exact ih ((h.setCtx _ _).dropMark _ _)

/-- A command whose effect is `u` in all but the accounts leaves `u`. -/
theorem sameBut_cmd {s u : State} {f : State → State} (h : s.live) (hu : u.Counted (f s.cleared)) (hp : u.pending = s.pending) :
    u.sameBut (s.cmd f) wrapRegs :=
  s.sameBut_cmd u wrapRegs f h hu.rest hp fun off ho => ⟨ho, hu.reg off⟩

end State.Counted

/-- A frame after the ingress stage of the transparent clock. -/
def State.tcUpdated (s : State) (n : Nat) (x : IngIn) : List Byte :=
  bif s.tcOn n then (ptpAt (s.shBit Reg.TIM_TC_CFG.UDP4) x.bytes).elim x.bytes fun r =>
    ptpAdd r.1 r.2 (-(s.portStamp (s.sh (Reg.TIM_PORT_ASYM.ING x.port)) x.cyc x.sub)) x.bytes
  else x.bytes

theorem State.tcIngress_fst (s : State) (n : Nat) (x : IngIn) : (s.tcIngress n x).1 = s.tcUpdated n x := by
  unfold State.tcIngress State.tcUpdated
  cases s.tcOn n with
  | false => rfl
  | true => cases ptpAt (s.shBit Reg.TIM_TC_CFG.UDP4) x.bytes <;> rfl

namespace State.Tallied

theorem trans {s t u : State} : s.Tallied t → t.Tallied u → s.Tallied u := by
  rintro ⟨_, _, _, _, rfl⟩ ⟨c, q, o, w, rfl⟩
  exact ⟨c, q, o, w, rfl⟩

theorem of_counted {s t : State} : s.Counted t → s.Tallied t := by
  rintro ⟨c, q, o, e⟩
  exact ⟨c, q, o, s.wins, e⟩

theorem winAdd (s : State) (w bytes units : Nat) : s.Tallied (s.winAdd w bytes units) := by
  obtain ⟨ws, e⟩ := s.winAdd_form w bytes units
  exact ⟨s.ctrs, s.wrapQ, s.out, ws, e⟩

section

variable {s t : State} (h : s.Tallied t)
include h

theorem pending : t.pending = s.pending := by
  obtain ⟨_, _, _, _, rfl⟩ := h
  rfl

theorem evQ : t.evQ = s.evQ := by
  obtain ⟨_, _, _, _, rfl⟩ := h
  rfl

theorem flo : t.flo = s.flo := by
  obtain ⟨_, _, _, _, rfl⟩ := h
  rfl

theorem shBit (f : Fr) : t.shBit f = s.shBit f := by
  obtain ⟨_, _, _, _, rfl⟩ := h
  rfl

theorem ctx (n : Nat) : t.ctx n = s.ctx n := by
  obtain ⟨_, _, _, _, rfl⟩ := h
  rfl

theorem hasRoom (n d k : Nat) : t.hasRoom n d k = s.hasRoom n d k := by
  obtain ⟨_, _, _, _, rfl⟩ := h
  rfl

theorem ingDepth (n : Nat) : t.ingDepth n = s.ingDepth n := by
  obtain ⟨_, _, _, _, rfl⟩ := h
  rfl

theorem classify (x : IngIn) : t.classify x = s.classify x := by
  obtain ⟨_, _, _, _, rfl⟩ := h
  rfl

/-- The transparent clock's correction does not depend on the accounts. -/
theorem tcIngress_bytes (n : Nat) (x : IngIn) : (t.tcIngress n x).1 = (s.tcIngress n x).1 := by
  obtain ⟨_, _, _, _, rfl⟩ := h
  rw [State.tcIngress_fst, State.tcIngress_fst]
  rfl

end

end State.Tallied

@[simp] theorem State.txDrop_pending (s : State) (n k : Nat) : (s.txDrop n k).pending = s.pending := by
  unfold State.txDrop State.chCount
  simp only [apply_ite State.pending, State.count_frame, State.raiseDp_frame, ite_self]

@[simp] theorem State.twinShed_pending (s : State) (n l k fuel : Nat) : (s.twinShed n l k fuel).pending = s.pending := by
  induction fuel generalizing s with
  | zero => rfl
  | succ fuel ih =>
    unfold State.twinShed
    dsimp only
    split
    · rfl
    · split
      · rfl
      · rw [ih, State.dropMark, State.txDrop_pending]
        rfl

end Sys2Proof.Machine
end

section
/-! SUPPORT. Ingress: what the MAC drops, what a channel accepts, and that the transparent clock keeps a frame's length (R52, R57,
R81, R360, R472). -/

namespace Sys2Proof.Machine

open Sys2Proof

/-! ### The transparent clock keeps the length -/

theorem putAt_length {b v : List Byte} {o : Nat} (h : o + v.length ≤ b.length) : (putAt b o v).length = b.length := by
  simp only [putAt, List.length_append, List.length_take, List.length_drop]
  omega

theorem ethFcs_length (b : List Byte) : (ethFcs b).length = 4 := by
  rw [ethFcs, List.length_map, beBytes_length]

theorem reFcs_length {b : List Byte} (h : 4 ≤ b.length) : (reFcs b).length = b.length := by
  simp only [reFcs, List.length_append, List.length_take, ethFcs_length]
  omega

/-- A PTP message lies inside its frame, right behind its UDP checksum where it has one. -/
theorem ptpAt_some {udp4 : Bool} {b : List Byte} {p : Nat} {c : Option Nat} (h : ptpAt udp4 b = some (p, c)) :
    p + 16 ≤ b.length - 4 ∧ ∀ o, c = some o → o + 2 = p := by
  unfold ptpAt at h
  extract_lets o u r at h
  have hr : ∀ p c, r = some (p, c) → ∀ o, c = some o → o + 2 = p := by
    intro p c e o ho
    subst ho
    unfold r at e
    split at e
    · exact absurd (congrArg Prod.snd (Option.some.inj e)) nofun
    · split at e
      · split at e
        · have e := Option.some.inj e
          have hp := congrArg Prod.fst e
          have hc := Option.some.inj (congrArg Prod.snd e)
          omega
        · exact absurd e nofun
      · exact absurd e nofun
  clear_value r
  rcases r with _ | ⟨p', c'⟩
  · exact absurd h nofun
  · dsimp only at h
    split at h
    · next hin =>
      cases h
      exact ⟨hin.2.2, hr p c rfl⟩
    · exact absurd h nofun

theorem ptpAdd_length {b : List Byte} {p : Nat} {c : Option Nat} (d : Int) (hp : p + 16 ≤ b.length - 4) (hc : ∀ o, c = some o → o + 2 = p) :
    (ptpAdd p c d b).length = b.length := by
  unfold ptpAdd
  extract_lets new b₁ b₂
  have h₁ : b₁.length = b.length := putAt_length (by rw [beBytes_length]; omega)
  have h₂ : b₂.length = b.length := by
    cases c with
    | none => exact h₁
    | some o =>
      have ho := hc o rfl
      unfold b₂
      dsimp only
      split
      · exact h₁
      · rw [putAt_length (by rw [beBytes_length]; omega), h₁]
  rw [reFcs_length (by omega), h₂]

theorem State.tcIngress_length (s : State) (n : Nat) (x : IngIn) : (s.tcIngress n x).1.length = x.bytes.length := by
  unfold State.tcIngress
  split
  · rfl
  · split
    · rfl
    · next p c hp =>
      obtain ⟨hin, hsum⟩ := ptpAt_some hp
      exact ptpAdd_length _ hin hsum

/-- A frame that the transparent clock does not update stays as it came. -/
theorem State.tcIngress_plain (s : State) (n : Nat) (x : IngIn) (h : s.tcOn n = false ∨ ptpAt (s.shBit Reg.TIM_TC_CFG.UDP4) x.bytes = none) :
    s.tcIngress n x = (x.bytes, s) := by
  unfold State.tcIngress
  rcases h with h | h
  · rw [h]; rfl
  · rw [h]; exact ite_self _

theorem State.counted_tcIngress (s : State) (n : Nat) (x : IngIn) : s.Counted (s.tcIngress n x).2 := by
  unfold State.tcIngress
  split
  · exact .refl s
  · split
    · exact .refl s
    · exact .count s _ _

theorem State.ctr_tcIngress (s : State) (n : Nat) (x : IngIn) {k : Nat} (hk : portCtr x.port 12 ≠ k) : (s.tcIngress n x).2.ctr k = s.ctr k := by
  unfold State.tcIngress
  split
  · rfl
  · split
    · rfl
    · exact s.ctr_count_ne 1 hk

/-! ### Counters of ports and channels -/

theorem plainCtr_portCtr {p o : Nat} (hp : p < 64) (ho : o < 16) : plainCtr (portCtr p o) := by
  unfold plainCtr portCtr
  omega

theorem plainCtr_chanCtr {n o : Nat} (hn : n < 512) (ho : o < 16) : plainCtr (chanCtr n o) := by
  unfold plainCtr chanCtr
  omega

theorem macDrop_lt {m : Nat} {x : IngIn} {o : Nat} (h : macDrop m x = some o) : o < 16 := by
  unfold macDrop at h
  repeat' split at h
  all_goals cases h
  all_goals decide

/-- A dropped frame counts once as a transmit drop. -/
theorem State.ctr_txDrop_one (s : State) {n : Nat} (h : (s.ctr (chanCtr n 1)).v + 1 < 2 ^ 64) (hk : plainCtr (chanCtr n 1)) :
    ((s.txDrop n 1).ctr (chanCtr n 1)).v = (s.ctr (chanCtr n 1)).v + 1 := by
  have hr : (s.raiseDp Reg.FLO_EVENT.TX_DROP).ctr (chanCtr n 1) = s.ctr (chanCtr n 1) := s.ctr_count_ne 1 (evCtrKey_ne _ 0 hk)
  rw [State.txDrop, if_neg one_ne_zero, State.chCount, State.ctr_count _ _ _ (by rwa [hr]), hr]

/-! ### The cases of an ingress frame -/

/-- The state in which an accepted frame is classified: the port's counters and window have it. -/
def State.portTook (s : State) (x : IngIn) : State :=
  ((s.count (portCtr x.port 0) 1).count (portCtr x.port 1) x.bytes.length).winAdd x.port x.bytes.length 1

theorem State.counted_portTook (s : State) (x : IngIn) : (s.winAdd x.port x.bytes.length 1).Counted (s.cleared.portTook x) :=
  (((State.Counted.cleared s).trans (.count _ _ _)).trans (.count _ _ _)).winAdd _ _ _

theorem State.tallied_portTook (s : State) (x : IngIn) : s.Tallied (s.cleared.portTook x) :=
  (State.Tallied.winAdd s _ _ _).trans (.of_counted (s.counted_portTook x))

theorem State.ctr_portTook (s : State) (x : IngIn) {k : Nat} (h0 : portCtr x.port 0 ≠ k) (h1 : portCtr x.port 1 ≠ k) :
    (s.portTook x).ctr k = s.ctr k := by
  rw [State.portTook, State.winAdd_ctr, State.ctr_count_ne _ _ h1, State.ctr_count_ne _ _ h0]

/-- The state after room was made on both lines of a channel for `k` more bytes. -/
def State.shed (s : State) (n k : Nat) : State :=
  (s.twinShed n 0 k (s.ctx n).qA.length).twinShed n 1 k (s.ctx n).qB.length

/-- The state after a frame has joined a channel's queue. -/
def State.joined (s : State) (n : Nat) (b : List Byte) : State :=
  (s.setCtx n { s.ctx n with pkts := (s.ctx n).pkts ++ [b] }).winAdd (128 + n) b.length 0

/-- Whether a channel takes a frame of `k` bytes. -/
def State.takesFrame (s : State) (n k : Nat) : Bool := s.shBit (Reg.FLO_CH_CFG.TX_EN n) && s.hasRoom n (s.ingDepth n) k

theorem State.Tallied.takesFrame {s t : State} (h : s.Tallied t) (n k : Nat) : t.takesFrame n k = s.takesFrame n k := by
  rw [State.takesFrame, h.shBit, h.hasRoom, h.ingDepth]
  rfl

theorem State.Counted.shed {s t : State} (h : s.Counted t) (n k : Nat) : (s.shed n k).Counted (t.shed n k) := by
  unfold State.shed
  rw [h.ctx]
  exact (h.twinShed _ _ _ _).twinShed _ _ _ _

theorem State.shed_noBlocks (s : State) (n k : Nat) (hA : (s.ctx n).qA = []) (hB : (s.ctx n).qB = []) : s.shed n k = s := by
  rw [State.shed, hA, hB]
  rfl

theorem State.joined_pending (s : State) (n : Nat) (b : List Byte) : (s.joined n b).pending = s.pending :=
  (State.Tallied.winAdd _ _ _ _).pending

theorem State.shed_pending (s : State) (n k : Nat) : (s.shed n k).pending = s.pending := by
  rw [State.shed, State.twinShed_pending, State.twinShed_pending]

/-- A frame that a channel takes joins its queue, once both lines have made room; the channel counts its bytes. -/
theorem State.counted_accept {s t : State} (h : s.Counted t) (n : Nat) (b : List Byte) (hr : t.takesFrame n b.length = true) :
    ((s.shed n b.length).joined n b).Counted (t.accept n b) := by
  have hc : (!t.shBit (Reg.FLO_CH_CFG.TX_EN n) || !t.hasRoom n (t.ingDepth n) b.length) = false := by
    rw [← Bool.not_and, show (t.shBit _ && t.hasRoom n (t.ingDepth n) b.length) = true from hr]; rfl
  have hs := h.shed n b.length
  unfold State.accept State.joined
  rw [hc, ← hs.ctx]
  exact (((hs.setCtx _ _).trans (.count _ _ _)).winAdd _ _ _)

theorem State.accept_dropped (s : State) (n : Nat) (b : List Byte) (hr : s.takesFrame n b.length = false) : s.accept n b = s.txDrop n 1 :=
  if_pos (by rw [← Bool.not_and, show (s.shBit _ && s.hasRoom n (s.ingDepth n) b.length) = false from hr]; rfl)

theorem State.ingress_ignored (s : State) (x : IngIn) (h : 64 ≤ x.port ∨ s.sh (Reg.FLO_PORT_CFG.MODE x.port) = 0 ∨ s.down = true) :
    s.ingress x = s := if_pos h

theorem State.classify_chan_lt {s : State} {x : IngIn} {n : Nat} (h : s.classify x = .chan n) : n < 512 := by
  have hsh (f : Fr) (hf : f.hi + 1 - f.lo = 9) (e : Class.chan (s.sh f) = .chan n) : n < 512 := by
    rw [← Class.chan.inj e]
    have := getBits_lt (s.shadow.get regReset f.off) f.hi f.lo
    rwa [hf] at this
  unfold State.classify at h
  dsimp only at h
  split at h
  · exact hsh _ rfl h
  · split at h
    · exact hsh _ rfl h
    · split at h
      · exact absurd h nofun
      · exact hsh _ rfl h
  · split at h
    · exact hsh _ rfl h
    · exact absurd h nofun
  · exact absurd h nofun

/-- What becomes of a whole frame, by how the classifier ends. -/
def State.routed (s : State) (x : IngIn) : Class → State
  | .chan n => (s.tcIngress n x).2.accept n (s.tcIngress n x).1
  | .unmatched => s.count (portCtr x.port 6) 1
  | .nowhere => s.count (miscCtr 12 (64 + x.port)) 1

section Open

variable {s : State} {x : IngIn} (hp : x.port < 64) (hm : s.sh (Reg.FLO_PORT_CFG.MODE x.port) ≠ 0) (hd : s.down = false)
include hp hm hd

theorem State.ingress_dropped {o : Nat} (hmac : macDrop (s.sh (Reg.FLO_PORT_CFG.MAX_LEN x.port)) x = some o) :
    s.ingress x = s.count (portCtr x.port o) 1 := by
  unfold State.ingress
  rw [if_neg (by simp only [hd, hm, Nat.not_le.2 hp, or_self, Bool.false_eq_true, not_false_eq_true]), hmac]

/-- What becomes of a frame that the MAC accepts. -/
theorem State.ingress_taken (hmac : macDrop (s.sh (Reg.FLO_PORT_CFG.MAX_LEN x.port)) x = none) :
    s.ingress x =
      if x.mem then (s.portTook x).count (miscCtr 12 x.port) 1 else (s.portTook x).routed x ((s.portTook x).classify x) := by
  unfold State.ingress
  rw [if_neg (by simp only [hd, hm, Nat.not_le.2 hp, or_self, Bool.false_eq_true, not_false_eq_true]), hmac]
  rfl

/-- A frame whose bytes were lost, or that the classifier sends nowhere, is only counted beside its port's traffic. -/
theorem State.ingress_unrouted (hmac : macDrop (s.sh (Reg.FLO_PORT_CFG.MAX_LEN x.port)) x = none)
    (hend : x.mem = true ∨ s.classify x = .unmatched ∨ s.classify x = .nowhere) :
    (s.winAdd x.port x.bytes.length 1).Counted (s.cleared.ingress x) := by
  have hu := s.counted_portTook x
  have hcl : (s.cleared.portTook x).classify x = s.classify x := (s.tallied_portTook x).classify x
  rw [State.ingress_taken (s := s.cleared) hp hm hd hmac, hcl]
  by_cases hx : x.mem = true
  · rw [if_pos hx]
    exact hu.trans (.count _ _ _)
  · rw [if_neg hx]
    rcases hend.resolve_left hx with hc | hc <;> rw [hc] <;> exact hu.trans (.count _ _ _)

/-- A frame of a channel is offered to it as the transparent clock leaves it, in a state that shows its port's traffic and in which no
counter of a channel has moved. -/
theorem State.ingress_offered (hmac : macDrop (s.sh (Reg.FLO_PORT_CFG.MAX_LEN x.port)) x = none) {n : Nat} (hx : x.mem = false)
    (hc : s.classify x = .chan n) :
    ∃ a : State, (s.winAdd x.port x.bytes.length 1).Counted a ∧ (∀ o, a.ctr (chanCtr n o) = s.ctr (chanCtr n o)) ∧
      s.cleared.ingress x = a.accept n (s.tcIngress n x).1 := by
  have hall := s.tallied_portTook x
  have hne (i o : Nat) (hi : i < 16) : portCtr x.port i ≠ chanCtr n o := by
    unfold portCtr chanCtr
    omega
  refine ⟨((s.cleared.portTook x).tcIngress n x).2, (s.counted_portTook x).trans (State.counted_tcIngress _ n x), fun o => ?_, ?_⟩
  · rw [State.ctr_tcIngress _ _ _ (hne 12 o (by decide)), State.ctr_portTook _ _ (hne 0 o (by decide)) (hne 1 o (by decide))]
    rfl
  · rw [State.ingress_taken (s := s.cleared) hp hm hd hmac, hall.classify, hc, hx, ← hall.tcIngress_bytes]
    rfl

end Open

/-- Settles O34, by the frame's fate: ignored, dropped by the MAC, not routed, taken by its channel, or dropped for want of room. -/
theorem ingress : Obligations.Ingress := by
  intro s x h
  refine ⟨fun hi => ⟨_, rfl, State.Counted.sameBut_cmd h ?_ rfl⟩, fun hp hm hd =>
    ⟨fun o hmac => ⟨_, rfl, State.Counted.sameBut_cmd h ?_ rfl, fun hv => ?_⟩, fun hmac => ?_⟩⟩
  · rw [State.ingress_ignored s.cleared x hi]
    exact .cleared s
  · rw [State.ingress_dropped (s := s.cleared) hp hm hd hmac]
    exact (State.Counted.cleared s).trans (.count _ _ _)
  · rw [s.ctr_cmd _ h (plainCtr_portCtr hp (macDrop_lt hmac)), State.ingress_dropped (s := s.cleared) hp hm hd hmac]
    exact State.ctr_count _ _ _ hv
  · intro u
    have hu : s.Tallied u := .winAdd s _ _ _
    refine ⟨fun n hx hc => ?_, fun hend => ⟨_, rfl, State.Counted.sameBut_cmd h (State.ingress_unrouted hp hm hd hmac hend) hu.pending⟩⟩
    intro b room v join
    obtain ⟨a, ha, hctr, hi⟩ := State.ingress_offered hp hm hd hmac hx hc
    have hroom : a.takesFrame n b.length = room := (hu.trans (.of_counted ha)).takesFrame n b.length
    have hv : v = u.shed n b.length := by
      unfold State.shed
      rw [hu.ctx]
    have hjoin (hr : room = true) : (join v).sameBut (s.cmd (·.ingress x)) wrapRegs := by
      refine State.Counted.sameBut_cmd h ?_ ?_
      · rw [hi, hv]
        exact State.counted_accept ha n b (hroom.trans hr)
      · rw [hv]
        exact (State.joined_pending _ n b).trans ((State.shed_pending u n _).trans hu.pending)
    refine ⟨s.tcIngress_length n x, fun ht => congrArg Prod.fst (s.tcIngress_plain n x ht), fun hr => ⟨_, rfl, hjoin hr⟩,
      fun hr hA hB => ⟨_, rfl, ?_⟩, fun hr => ⟨_, rfl, State.Counted.sameBut_cmd h ?_ hu.pending, fun hlt => ?_⟩⟩
    · rw [← u.shed_noBlocks n b.length (by rwa [hu.ctx]) (by rwa [hu.ctx]), ← hv]
      exact hjoin hr
    · rw [hi, State.accept_dropped _ _ _ (hroom.trans hr), ← hu.evQ]
      exact ha.queued.trans (.txDrop_some a n one_ne_zero)
    · have hk : plainCtr (chanCtr n 1) := plainCtr_chanCtr (State.classify_chan_lt hc) (by decide)
      rw [s.ctr_cmd _ h hk, hi, State.accept_dropped _ _ _ (hroom.trans hr), State.ctr_txDrop_one _ (by rwa [hctr]) hk, hctr]

end Sys2Proof.Machine
end

section
/-! SUPPORT. Egress: a served frame leaves its point whole or cut, and everything else stays (R58, R374, R472). -/

namespace Sys2Proof.Machine

open Sys2Proof

/-! ### Windows -/

/-- What a window becomes depends on the windows, which of them run, and the tick. -/
theorem State.win_winAdd_congr {s t : State} (hw : t.wins = s.wins) (ho : t.winOn = s.winOn) (ht : t.tick = s.tick) (w bytes units : Nat) :
    (t.winAdd w bytes units).win w = (s.winAdd w bytes units).win w := by
  have hwin : t.win w = s.win w := by rw [State.win, hw, State.win]
  have hon : t.winTakes w = s.winTakes w := by rw [State.winTakes, hwin, ho, ht, State.winTakes]
  by_cases h : s.winTakes w = true
  · rw [s.winAdd_on _ _ _ h, t.winAdd_on _ _ _ (by rwa [hon]), hwin]
    simp only [State.win, State.setWin, SMap.get_set_self]
  · rw [s.winAdd_off _ _ _ h, t.winAdd_off _ _ _ (by rwa [hon]), hwin]

@[simp] theorem State.winAdd_flo (s : State) (w bytes units : Nat) : (s.winAdd w bytes units).flo = s.flo :=
  (State.Tallied.winAdd s w bytes units).flo

@[simp] theorem State.winAdd_out (s : State) (w bytes units : Nat) : (s.winAdd w bytes units).out = s.out := by
  obtain ⟨_, e⟩ := s.winAdd_form w bytes units
  rw [e]

/-! ### What leaves a point -/

/-- A frame that the transparent clock does not update leaves as it was rebuilt. -/
theorem State.tcEgress_plain (s : State) (n p cyc sub : Nat) (b : List Byte)
    (h : s.tcOn n = false ∨ ptpAt (s.shBit Reg.TIM_TC_CFG.UDP4) b = none) : s.tcEgress n p cyc sub b = (b, s) := by
  unfold State.tcEgress
  rcases h with h | h
  · rw [h]; rfl
  · rw [h]; exact ite_self _

/-- The state in which a frame of channel `n` has left the queue of point `e`, its bytes served. -/
def State.egrTaken (s : State) (e n : Nat) (f : Nat × List Byte) : State :=
  { s with flo := { s.flo with
    egr := s.flo.egr.set noEgr e ((s.egrQ e).erase f)
    served := s.flo.served.set natZero (512 * e + n) (s.egrServed e n + f.2.length) } }

/-- What a point puts out. -/
def egrOut (e : Nat) (b : List Byte) : Out := .egress (decide (64 ≤ e)) (if e < 64 then e else e - 64) b

/-- A frame as it leaves when its read became uncorrectable after `k` bytes: ended there, with the FCS inverted. -/
def cutFrame (b : List Byte) (k : Nat) : List Byte := b.take k ++ (ethFcs (b.take k)).map (~~~ ·)

/-- The state after bytes have left a point of port `p`: put out and counted whole, or put out cut short and noted as a drop. -/
def State.egrLeave (s : State) (e p : Nat) (b : List Byte) : Option Nat → State
  | none => (((s.emit (egrOut e b)).count (portCtr p 9) 1).count (portCtr p 10) b.length).winAdd (64 + p) b.length 1
  | some k => ((s.emit (egrOut e (cutFrame b k))).raiseDp Reg.FLO_EVENT.EGR_DROP).count (portCtr p 11) 1

@[simp] theorem State.egrLeave_flo (s : State) (e p : Nat) (b : List Byte) (cut : Option Nat) : (s.egrLeave e p b cut).flo = s.flo := by
  cases cut with
  | none => simp only [State.egrLeave, State.winAdd_flo, State.count_frame, State.emit_frame]
  | some k => simp only [State.egrLeave, State.raiseDp_frame, State.count_frame, State.emit_frame]

theorem State.egrLeave_out (s : State) (e p : Nat) (b : List Byte) (cut : Option Nat) :
    (s.egrLeave e p b cut).out = s.out ++ [egrOut e (cut.elim b (cutFrame b))] := by
  cases cut with
  | none => simp only [State.egrLeave, State.winAdd_out, State.count_frame, State.emit, Option.elim]
  | some k => simp only [State.egrLeave, State.raiseDp_frame, State.count_frame, State.emit, Option.elim]

theorem State.egrLeave_cut_evQ (s : State) (e p : Nat) (b : List Byte) (k : Nat) :
    (s.egrLeave e p b (some k)).evQ = s.evQ ++ [Reg.FLO_EVENT.EGR_DROP] := by
  simp only [State.egrLeave, State.count_frame, State.raiseDp, State.raiseDpAt, State.emit_frame]

/-- A whole frame counts in its port's window as it would have before it left. -/
theorem State.win_egrLeave (s : State) (e p : Nat) (b : List Byte) :
    (s.egrLeave e p b none).win (64 + p) = (s.winAdd (64 + p) b.length 1).win (64 + p) := by
  refine State.win_winAdd_congr ?_ ?_ ?_ _ _ _ <;> simp only [State.count_frame, State.emit_frame]

theorem State.egrQ_congr {s t : State} (h : t.flo = s.flo) (e : Nat) : t.egrQ e = s.egrQ e := by rw [State.egrQ, h, State.egrQ]

theorem State.egrServed_congr {s t : State} (h : t.flo = s.flo) (e n : Nat) : t.egrServed e n = s.egrServed e n := by
  rw [State.egrServed, h, State.egrServed]

@[simp] theorem State.egrQ_egrTaken (s : State) (e n : Nat) (f : Nat × List Byte) : (s.egrTaken e n f).egrQ e = (s.egrQ e).erase f :=
  SMap.get_set_self _ _ _ _

@[simp] theorem State.egrServed_egrTaken (s : State) (e n : Nat) (f : Nat × List Byte) :
    (s.egrTaken e n f).egrServed e n = s.egrServed e n + f.2.length := SMap.get_set_self _ _ _ _

/-- A point that has no frame of the channel, does not serve it next, or has stopped, keeps what it has. -/
theorem State.egress_stays (s : State) (e n cyc sub : Nat) (cut : Option Nat)
    (h : (s.egrQ e).find? (fun f => f.1 == n) = none ∨ s.egrNext e ≠ some n ∨ s.down = true) : s.egress e n cyc sub cut = s := by
  unfold State.egress
  rcases h with h | h | h
  · rw [h]
  · split
    · rfl
    · exact if_pos (by rw [bne_iff_ne.2 h, Bool.or_true])
  · split
    · rfl
    · exact if_pos (by rw [h, Bool.true_or])

/-- What a point does with the first frame of a channel that it holds. -/
theorem State.egress_of_found {s : State} {e n : Nat} {f : Nat × List Byte} (hf : (s.egrQ e).find? (fun f => f.1 == n) = some f)
    {cyc sub : Nat} {cut : Option Nat} :
    s.egress e n cyc sub cut = if (s.down || s.egrNext e != some n) = true then s
      else ((s.egrTaken e n f).tcEgress n (s.pointPort e) cyc sub f.2).2.egrLeave e (s.pointPort e)
        ((s.egrTaken e n f).tcEgress n (s.pointPort e) cyc sub f.2).1 cut := by
  unfold State.egress
  rw [hf]
  cases cut <;> rfl

section Served

variable {s : State} {e n : Nat} {f : Nat × List Byte} (hf : (s.egrQ e).find? (fun f => f.1 == n) = some f) (hn : s.egrNext e = some n)
  (hd : s.down = false) (hp : s.tcOn n = false ∨ ptpAt (s.shBit Reg.TIM_TC_CFG.UDP4) f.2 = none) (cyc sub : Nat)
include hf hn hd hp

theorem State.egress_served (cut : Option Nat) :
    s.egress e n cyc sub cut = (s.egrTaken e n f).egrLeave e (s.pointPort e) f.2 cut := by
  have hr : (s.egrTaken e n f).tcEgress n (s.pointPort e) cyc sub f.2 = (f.2, s.egrTaken e n f) := State.tcEgress_plain _ _ _ _ _ _ hp
  have hgo : ¬(s.down || s.egrNext e != some n) = true := by
    simp only [hd, hn, bne_self_eq_false, Bool.or_self, Bool.false_eq_true, not_false_eq_true]
  rw [State.egress_of_found hf, if_neg hgo, hr]

end Served

/-- Settles O35, by the point's choice: the frame it serves leaves whole or cut, any other stays. -/
theorem egress : Obligations.Egress := by
  intro s e n cyc sub h
  refine ⟨fun f hf hn hd hp => ?_, fun cut hs => ⟨_, rfl, State.Counted.sameBut_cmd h ?_ rfl⟩⟩
  · have he (cut : Option Nat) : s.cleared.egress e n cyc sub cut = (s.cleared.egrTaken e n f).egrLeave e (s.pointPort e) f.2 cut :=
      State.egress_served (s := s.cleared) hf hn hd hp cyc sub cut
    have hflo (cut : Option Nat) : (s.cmd (·.egress e n cyc sub cut)).flo = (s.egrTaken e n f).flo := by
      simp only [s.cmd_frame _ h, he, State.egrLeave_flo]
      rfl
    have hq (cut : Option Nat) : (s.cmd (·.egress e n cyc sub cut)).egrQ e = (s.egrQ e).erase f := by
      rw [State.egrQ_congr (hflo cut), State.egrQ_egrTaken]
    have hout (cut : Option Nat) : (s.cmd (·.egress e n cyc sub cut)).out = [egrOut e (cut.elim f.2 (cutFrame f.2))] := by
      simp only [s.cmd_frame _ h, he, State.egrLeave_out]
      rfl
    refine ⟨⟨_, rfl, hq none, ?_, ?_, hout none⟩, fun k => ⟨_, rfl, hq (some k), hout (some k), ?_⟩⟩
    · rw [State.egrServed_congr (hflo none), State.egrServed_egrTaken]
    · have hwins : (s.cmd (·.egress e n cyc sub none)).wins = ((s.cleared.egrTaken e n f).egrLeave e (s.pointPort e) f.2 none).wins := by
        simp only [s.cmd_frame _ h, he]
      rw [State.win, hwins]
      exact (State.win_egrLeave _ e _ _).trans (State.win_winAdd_congr (s := s) (t := s.cleared.egrTaken e n f) rfl rfl rfl _ _ _)
    · simp only [s.cmd_frame _ h, he, State.egrLeave_cut_evQ]
      rfl
  · rw [s.cleared.egress_stays e n cyc sub cut hs]
    exact .cleared s

end Sys2Proof.Machine
end

section
/-! SUPPORT. A line's framer: what a change of a line leaves, and what a datapath command leaves of a line (R109-R128, R395). -/

namespace Sys2Proof.Machine

open Sys2Proof

/-! ### Changes of a line -/

/-- Changing a line touches the two lines alone. -/
theorem State.modLn_form (s : State) (l : Nat) (f : Line → Line) : ∃ a b, s.modLn l f = { s with lnA := a, lnB := b } := by
  unfold State.modLn State.setLn
  split
  · exact ⟨_, s.lnB, rfl⟩
  · exact ⟨s.lnA, _, rfl⟩

/-- What a change of a line leaves beside the lines: the datapath's copies, the queued events, the alarms. -/
@[simp] theorem State.modLn_besides (s : State) (l : Nat) (f : Line → Line) :
    (s.modLn l f).shadow = s.shadow ∧ (s.modLn l f).evQ = s.evQ ∧ (s.modLn l f).alarmQ = s.alarmQ := by
  obtain ⟨a, b, e⟩ := s.modLn_form l f
  rw [e]
  exact ⟨rfl, rfl, rfl⟩

/-- Two changes of one line are one. -/
theorem State.modLn_modLn (s : State) (l : Nat) (f g : Line → Line) : (s.modLn l f).modLn l g = s.modLn l fun x => g (f x) := by
  unfold State.modLn State.setLn State.ln
  by_cases h : l = 0
  · simp only [if_pos h]
  · simp only [if_neg h]

theorem State.modFrm_modFrm (s : State) (l : Nat) (f g : FrmSt → FrmSt) : (s.modFrm l f).modFrm l g = s.modFrm l fun x => g (f x) :=
  s.modLn_modLn l _ _

@[simp] theorem State.frm_modFrm (s : State) (l : Nat) (f : FrmSt → FrmSt) : (s.modFrm l f).frm l = f (s.frm l) := by
  unfold State.frm State.modFrm
  rw [State.ln_modLn]

@[simp] theorem State.frm_modRxp (s : State) (l : Nat) (f : RxpSt → RxpSt) : (s.modRxp l f).frm l = s.frm l := by
  unfold State.frm State.modRxp
  rw [State.ln_modLn]

@[simp] theorem State.frm_modDsp (s : State) (l : Nat) (f : DspSt → DspSt) : (s.modDsp l f).frm l = s.frm l := by
  unfold State.frm State.modDsp
  rw [State.ln_modLn]

@[simp] theorem State.rxp_modFrm (s : State) (l : Nat) (f : FrmSt → FrmSt) : (s.modFrm l f).rxp l = s.rxp l := by
  unfold State.rxp State.modFrm
  rw [State.ln_modLn]

@[simp] theorem State.rxp_modDsp (s : State) (l : Nat) (f : DspSt → DspSt) : (s.modDsp l f).rxp l = s.rxp l := by
  unfold State.rxp State.modDsp
  rw [State.ln_modLn]

/-! ### Datapath events -/

@[simp] theorem State.ln_raiseDp (s : State) (f : Fr) (l : Nat) : (s.raiseDp f).ln l = s.ln l := State.ln_of_outer (s.outer_raiseDp f) l

@[simp] theorem State.frm_raiseDp (s : State) (f : Fr) (l : Nat) : (s.raiseDp f).frm l = s.frm l := congrArg Line.frm (s.ln_raiseDp f l)

@[simp] theorem State.rxp_raiseDp (s : State) (f : Fr) (l : Nat) : (s.raiseDp f).rxp l = s.rxp l := congrArg Line.rxp (s.ln_raiseDp f l)

@[simp] theorem State.raiseDp_evQ (s : State) (f : Fr) : (s.raiseDp f).evQ = s.evQ ++ [f] := by
  unfold State.raiseDp State.raiseDpAt
  simp only [State.count_frame]

/-! ### What a command leaves of a line -/

theorem State.Counted.modLn {s t : State} (l : Nat) (f : Line → Line) : s.Counted t → (s.modLn l f).Counted (t.modLn l f) := by
  rintro ⟨c, q, o, rfl⟩
  unfold State.modLn State.setLn
  split <;> exact ⟨c, q, o, rfl⟩

/-- A change of a line's framer, made by a command whose output is gone before it. -/
theorem State.Counted.cleared_modFrm (s : State) (l : Nat) (f : FrmSt → FrmSt) : (s.modFrm l f).Counted (s.cleared.modFrm l f) :=
  (State.Counted.cleared s).modLn l _

/-- A line that reads the same has the same framer and the same receive DSP. -/
theorem State.frm_congr {s t : State} {l : Nat} (h : t.ln l = s.ln l) : t.frm l = s.frm l := congrArg Line.frm h
theorem State.rxp_congr {s t : State} {l : Nat} (h : t.ln l = s.ln l) : t.rxp l = s.rxp l := congrArg Line.rxp h

/-- A command leaves of a line, the queued events, the datapath's copies and the alarms what its effect `w` leaves. -/
theorem completes_line {c : Instr} {s w : State} {f : State → State} {P : State → Prop} (hc : exec c s = .next (s.cmd f)) (h : s.live)
    (hw : f s.cleared = w) (l : Nat)
    (hP : ∀ t, t.ln l = w.ln l → t.evQ = w.evQ → t.shadow = w.shadow → t.alarmQ = w.alarmQ → P t) : Completes c s P := by
  subst hw
  refine ⟨_, hc, hP _ (s.ln_cmd f h l) ?_ ?_ ?_⟩ <;> simp only [s.cmd_frame f h]

/-- The same of a command of the datapath, its clocks running. -/
theorem completes_lineRun {c : Instr} {s w : State} {f : State → State} {P : State → Prop} (hc : exec c s = .next (s.cmdRun f)) (h : s.clocked)
    (hw : f s.cleared = w) (l : Nat)
    (hP : ∀ t, t.ln l = w.ln l → t.evQ = w.evQ → t.shadow = w.shadow → t.alarmQ = w.alarmQ → P t) : Completes c s P :=
  completes_line (hc.trans (congrArg _ (s.cmdRun_up f h.2))) h.1 hw l hP

/-- A datapath command whose effect is `u` but for the accounts. -/
theorem completes_sameBut {c : Instr} {s u w : State} {f : State → State} (hc : exec c s = .next (s.cmdRun f)) (h : s.clocked)
    (hw : f s.cleared = w) (hu : u.Counted w) (hp : u.pending = s.pending) : Completes c s fun t => u.sameBut t wrapRegs :=
  completes_run hc h.2 (State.Counted.sameBut_cmd h.1 (hw ▸ hu) hp)

/-- A datapath command whose effect is none. -/
theorem completes_idle {c : Instr} {s : State} {f : State → State} (hc : exec c s = .next (s.cmdRun f)) (h : s.clocked)
    (hf : f s.cleared = s.cleared) : Completes c s fun t => s.sameBut t wrapRegs :=
  completes_run hc h.2 (s.sameBut_cmd_idle f h.1 hf)

end Sys2Proof.Machine
end

section
/-! SUPPORT. The hunter: matches, candidates and their checks (R109, R110, R115, R251). -/

namespace Sys2Proof.Machine

open Sys2Proof

/-! ### Matches (R109, R110) -/

theorem State.syncAt_iff (s : State) (l rho side : Nat) :
    s.syncAt l rho side = true ↔ s.sh (Reg.FRM_HUNT_CFG.SYNC_THR l) * 256 ≤ rho ∧ side < rho := by
  rw [State.syncAt, Bool.and_eq_true, decide_eq_true_iff, decide_eq_true_iff]

/-- A position that is no match, or is read while the hunter stands. -/
theorem State.syncMatch_idle (s : State) (l pos rho side : Nat)
    (h : s.hunts l = false ∨ rho < s.sh (Reg.FRM_HUNT_CFG.SYNC_THR l) * 256 ∨ rho ≤ side) : s.syncMatch l pos rho side = s := by
  refine if_pos ?_
  obtain h | h := h
  · rw [h, Bool.not_false, Bool.true_or]
  · have hn : s.syncAt l rho side = false := Bool.eq_false_iff.2 fun hs => by
      have := (s.syncAt_iff l rho side).1 hs
      omega
    rw [hn, Bool.not_false, Bool.or_true]

section Match

variable {s : State} {l rho side : Nat} (hh : s.hunts l = true) (hs : s.syncAt l rho side = true)
include hh hs

theorem State.syncMatch_of_match (pos : Nat) : s.syncMatch l pos rho side =
    if 4 ≤ (s.frm l).cands.length then s.raiseDp (Reg.FRM_EVENT.HUNT_OVF l)
    else s.modFrm l fun x => { x with cands := x.cands ++ [(if (s.ln l).compatRx then pos else pos + 40960, 0)] } :=
  if_neg (by rw [hh, hs]; decide)

/-- A match becomes a candidate while fewer than four are held. -/
theorem State.syncMatch_joins (pos : Nat) (hn : (s.frm l).cands.length < 4) : s.syncMatch l pos rho side =
    s.modFrm l fun x => { x with cands := x.cands ++ [(if (s.ln l).compatRx then pos else pos + 40960, 0)] } :=
  (State.syncMatch_of_match hh hs pos).trans (if_neg (by omega))

theorem State.syncMatch_full (pos : Nat) (hn : 4 ≤ (s.frm l).cands.length) :
    s.syncMatch l pos rho side = s.raiseDp (Reg.FRM_EVENT.HUNT_OVF l) :=
  (State.syncMatch_of_match hh hs pos).trans (if_pos hn)

end Match

/-! ### The hunt's end (R109, R110) -/

/-- Evidence of a defect touches its two counts alone (R116). -/
theorem FrmSt.evidence_form (x : FrmSt) (d : Nat) (bad : Bool) (k : Nat) : ∃ u n, x.evidence d bad k = { x with up := u, dn := n } := by
  unfold FrmSt.evidence
  split
  · exact ⟨_, _, rfl⟩
  · split <;> exact ⟨_, _, rfl⟩

theorem State.alignGain_leaves (s : State) (l pos : Nat) (exch : Bool) : ((s.alignGain l pos exch).frm l).oof = false ∧
    ((s.alignGain l pos exch).frm l).cands = [] ∧ (s.alignGain l pos exch).evQ = s.evQ ++ [Reg.FRM_EVENT.ALIGN_GAIN l] ∧
    ((s.alignGain l pos exch).rxp l).swapDue = ((s.rxp l).swapDue != exch) := by
  unfold State.alignGain
  refine ⟨?_, ?_, ?_, ?_⟩
  · simp only [State.frm_raiseDp, State.frm_modDsp, State.frm_modRxp, State.frm_modFrm]
  · simp only [State.frm_raiseDp, State.frm_modDsp, State.frm_modRxp, State.frm_modFrm, FrmSt.unalign]
  · simp only [State.raiseDp_evQ, State.modDsp, State.modRxp, State.modFrm, State.modLn_besides]
  · simp only [State.rxp_raiseDp, State.rxp_modDsp, State.rxp_modRxp, State.rxp_modFrm]

/-! ### A candidate's check (R110, R115) -/

/-- The hunter without the candidates of a check position. -/
def State.withoutCand (s : State) (l pos : Nat) : State := s.modFrm l fun x => { x with cands := x.cands.filter fun d => d.1 != pos }

/-- A check that finds no candidate at its position, or no receiver out of frame. -/
theorem State.candCheck_idle (s : State) (l pos : Nat) (exch : Bool) (h : HeadIn)
    (hn : s.rxOn l = false ∨ (s.frm l).oof = false ∨ (s.frm l).cands.find? (fun d => d.1 == pos) = none) : s.candCheck l pos exch h = s := by
  unfold State.candCheck
  by_cases hr : (!s.rxOn l || !(s.frm l).oof) = true
  · rw [if_pos hr]
  · simp only [Bool.or_eq_true, Bool.not_eq_true', not_or, Bool.not_eq_false] at hr
    obtain ⟨hon, hof⟩ := hr
    rw [hon, hof] at hn
    simp only [Bool.true_eq_false, false_or] at hn
    rw [hn, ite_self]

section Check

variable {s : State} {l pos : Nat} {c : Nat × Nat} (hon : s.rxOn l = true) (hof : (s.frm l).oof = true)
  (hc : (s.frm l).cands.find? (fun d => d.1 == pos) = some c)
include hon hof hc

/-- The candidate is given up unless the hunter runs and its check succeeds; in compatibility framing it is held until COMPAT_N checks have. -/
theorem State.candCheck_found (exch : Bool) (h : HeadIn) : s.candCheck l pos exch h =
    if !s.hunts l then s.withoutCand l pos
    else if (s.ln l).compatRx then
      if !headGood true (s.syncAt l h.rho h.side) h then s.withoutCand l pos
      else if s.sh (Reg.FRM_HUNT_CFG.COMPAT_N l) ≤ c.2 + 1 then (s.withoutCand l pos).alignGain l pos exch
      else (s.withoutCand l pos).modFrm l fun x => { x with cands := x.cands ++ [(pos + 40960, c.2 + 1)] }
    else if s.syncAt l h.rho h.side then (s.withoutCand l pos).alignGain l pos exch else s.withoutCand l pos := by
  have hcompat : ((s.withoutCand l pos).ln l).compatRx = (s.ln l).compatRx := by
    unfold State.withoutCand State.modFrm
    rw [State.ln_modLn]
  have hsh (f : Fr) : (s.withoutCand l pos).sh f = s.sh f := by
    unfold State.withoutCand State.modFrm State.sh
    simp only [State.modLn_besides]
  unfold State.candCheck
  rw [if_neg (by rw [hon, hof]; decide), hc, ← hcompat, ← hsh]
  rfl

theorem State.candCheck_unlocked (exch : Bool) (h : HeadIn) (hl : (s.rxp l).lock = false) :
    s.candCheck l pos exch h = s.withoutCand l pos := by
  rw [State.candCheck_found hon hof hc, State.hunts, hl, Bool.and_false, if_pos (by decide)]

variable (hl : (s.rxp l).lock = true)
include hl

theorem State.candCheck_framed (hcompat : (s.ln l).compatRx = false) (exch : Bool) (h : HeadIn) : s.candCheck l pos exch h =
    if s.syncAt l h.rho h.side then (s.withoutCand l pos).alignGain l pos exch else s.withoutCand l pos := by
  rw [State.candCheck_found hon hof hc, State.hunts, hon, hof, hl, hcompat, if_neg (by decide), if_neg (by decide)]

theorem State.candCheck_compat (hcompat : (s.ln l).compatRx = true) (exch : Bool) (h : HeadIn) : s.candCheck l pos exch h =
    if !headGood true (s.syncAt l h.rho h.side) h then s.withoutCand l pos
    else if s.sh (Reg.FRM_HUNT_CFG.COMPAT_N l) ≤ c.2 + 1 then (s.withoutCand l pos).alignGain l pos exch
    else (s.withoutCand l pos).modFrm l fun x => { x with cands := x.cands ++ [(pos + 40960, c.2 + 1)] } := by
  rw [State.candCheck_found hon hof hc, State.hunts, hon, hof, hl, hcompat, if_neg (by decide), if_pos rfl]

theorem State.candCheck_compat_failed (hcompat : (s.ln l).compatRx = true) (exch : Bool) (h : HeadIn)
    (hg : headGood true (s.syncAt l h.rho h.side) h = false) : s.candCheck l pos exch h = s.withoutCand l pos :=
  (State.candCheck_compat hon hof hc hl hcompat exch h).trans (if_pos (by rw [hg]; rfl))

theorem State.candCheck_compat_good (hcompat : (s.ln l).compatRx = true) (exch : Bool) (h : HeadIn)
    (hg : headGood true (s.syncAt l h.rho h.side) h = true) : s.candCheck l pos exch h =
      if s.sh (Reg.FRM_HUNT_CFG.COMPAT_N l) ≤ c.2 + 1 then (s.withoutCand l pos).alignGain l pos exch
      else (s.withoutCand l pos).modFrm l fun x => { x with cands := x.cands ++ [(pos + 40960, c.2 + 1)] } :=
  (State.candCheck_compat hon hof hc hl hcompat exch h).trans (if_neg (by rw [hg]; decide))

end Check

/-! ### The commands -/

section Commands

variable {s : State} (l : Fin 2) (h : s.clocked)
include h

theorem syncMatch_idles (pos rho side : Nat) (hn : let r := (s.dsp l).matchAt (s.ln l).compatRx pos (rho, side)
    s.hunts l = false ∨ r.1 < s.sh (Reg.FRM_HUNT_CFG.SYNC_THR l) * 256 ∨ r.1 ≤ r.2) :
    Completes (.syncMatch l pos rho side) s fun t => s.sameBut t wrapRegs :=
  completes_idle rfl h (s.cleared.syncMatch_idle l pos _ _ hn)

/-- A candidate that is given up. -/
theorem candidateCheck_discards {pos : Nat} {exch : Bool} {x : HeadIn}
    (e : s.cleared.candHeard l pos exch x = s.cleared.withoutCand l pos) : Completes (.candidateCheck l pos exch x) s fun t =>
      (s.withoutCand l pos).sameBut t wrapRegs :=
  completes_sameBut rfl h e (.cleared_modFrm s l _) (State.modLn_pending _ _ _)

/-- A candidate that ends the hunt, with polarisations exchanged or not. -/
theorem candidateCheck_aligns {pos : Nat} {exch swap : Bool} {x : HeadIn}
    (e : s.cleared.candHeard l pos exch x = (s.cleared.withoutCand l pos).alignGain l pos swap) :
    Completes (.candidateCheck l pos exch x) s fun t => (t.frm l).oof = false ∧ (t.frm l).cands = [] ∧
      t.evQ = s.evQ ++ [Reg.FRM_EVENT.ALIGN_GAIN l] ∧ (t.rxp l).swapDue = ((s.rxp l).swapDue != swap) := by
  obtain ⟨ho, hc, hq, hw⟩ := (s.cleared.withoutCand l pos).alignGain_leaves l pos swap
  refine completes_lineRun rfl h e l fun t hl hev _ _ => ?_
  rw [State.frm_congr hl, State.rxp_congr hl, hev, hq, hw, State.withoutCand, State.rxp_modFrm, State.modFrm]
  simp only [State.modLn_besides]
  exact ⟨ho, hc, rfl, rfl⟩

end Commands

/-- Settles O23: a match joins the candidates, overflows them or is none; a check gives its candidate up, holds it or ends the hunt. -/
theorem alignment : Obligations.Alignment := by
  unfold Obligations.Alignment
  intro s l h
  refine ⟨fun pos rho side r hr hh hthr hside => ?_, fun pos rho side r hr hn => syncMatch_idles l h pos rho side (hr ▸ hn), ?_,
    fun pos exch x hn => completes_idle rfl h (s.cleared.candCheck_idle l pos _ _ hn)⟩
  · subst hr
    have hs := (s.cleared.syncAt_iff l _ _).2 ⟨hthr, hside⟩
    exact ⟨fun hc => completes_sameBut rfl h (State.syncMatch_joins (s := s.cleared) hh hs pos hc) (.cleared_modFrm s l _)
        (State.modLn_pending _ _ _),
      fun hc => completes_sameBut rfl h (State.syncMatch_full (s := s.cleared) hh hs pos hc)
        ((State.Counted.cleared s).queued.trans (.raiseDp _ _)) rfl⟩
  · intro pos exch x c hon hof hc swap heard sync rest out
    refine ⟨fun hl => candidateCheck_discards l h (State.candCheck_unlocked (s := s.cleared) hon hof hc swap heard hl), fun hl => ?_⟩
    have framed (hcompat) := State.candCheck_framed (s := s.cleared) hon hof hc hl hcompat swap heard
    have good (hcompat) (hg) := State.candCheck_compat_good (s := s.cleared) hon hof hc hl hcompat swap heard hg
    refine ⟨fun hcompat hs => candidateCheck_aligns l h ((framed hcompat).trans (if_pos hs)),
      fun hcompat hs => candidateCheck_discards l h ((framed hcompat).trans (if_neg (Bool.eq_false_iff.1 hs))), fun hcompat hg hn => ?_,
      fun hcompat hg hn => completes_sameBut rfl h ((good hcompat hg).trans (if_neg (Nat.not_le.2 hn))) ?_ (State.modLn_pending _ _ _),
      fun hcompat hg => candidateCheck_discards l h (State.candCheck_compat_failed (s := s.cleared) hon hof hc hl hcompat swap heard hg)⟩
    · obtain ⟨t, ht, hin, hcands, hev, -⟩ := candidateCheck_aligns l h ((good hcompat hg).trans (if_pos hn))
      exact ⟨t, ht, hin, hcands, hev⟩
    · rw [State.withoutCand, State.modFrm_modFrm]
      exact .cleared_modFrm s l _

end Sys2Proof.Machine
end

section
/-! SUPPORT. Received heads: the history and the run of errored heads, loss of alignment, the follow (R111, R115, R120). -/

namespace Sys2Proof.Machine

open Sys2Proof

/-! ### A head at its frame position (R111, R115) -/

/-- Whether a head is good in the line's framing. -/
def State.headIs (s : State) (l : Nat) (h : HeadIn) : Bool := headGood (s.ln l).compatRx (s.syncAt l h.rho h.side) h

/-- The history with a head, and the run of errored heads with it. -/
def State.histWith (s : State) (l : Nat) (h : HeadIn) : List Bool := (s.headIs l h :: (s.frm l).hist).take 16
def State.badWith (s : State) (l : Nat) (h : HeadIn) : Nat := if s.headIs l h then 0 else (s.frm l).bad + 1

/-- A head is taken and entered: the history, the run of errored heads, and the time without a frame, which ends. -/
def State.headEntered (s : State) (l : Nat) (h : HeadIn) : State :=
  ((s.modLn l fun x => { x with rxSym := x.rxSym + 40960 }).headTake l (s.headIs l h) h).modFrm l fun x =>
    { x with hist := s.histWith l h, bad := s.badWith l h, noFrame := 0 }

/-- Whether the errored heads lose alignment: COMPAT_M in a row, or eight of 16. -/
def State.headLoses (s : State) (l : Nat) (h : HeadIn) : Bool :=
  if (s.ln l).compatRx then decide ((s.headEntered l h).sh (Reg.FRM_HUNT_CFG.COMPAT_M l) ≤ s.badWith l h)
  else decide (8 ≤ ((s.histWith l h).filter (! ·)).length)

theorem State.frm_headEntered (s : State) (l : Nat) (h : HeadIn) : ((s.headEntered l h).frm l).hist = s.histWith l h ∧
    ((s.headEntered l h).frm l).bad = s.badWith l h ∧ ((s.headEntered l h).frm l).noFrame = 0 := by
  unfold State.headEntered
  simp only [State.frm_modFrm, and_self]

/-- A head that comes while the receiver is off or out of frame. -/
theorem State.rxHead_idle (s : State) (l : Nat) (h : HeadIn) (hn : s.rxOn l = false ∨ (s.frm l).oof = true) : s.rxHead l h = s := by
  refine if_pos ?_
  obtain hn | hn := hn <;> simp only [hn, Bool.not_false, Bool.true_or, Bool.or_true]

theorem State.rxHead_inFrame (s : State) (l : Nat) (h : HeadIn) (hon : s.rxOn l = true) (hin : (s.frm l).oof = false) :
    s.rxHead l h = if s.headLoses l h then (s.headEntered l h).alignLoss l else s.headEntered l h :=
  if_neg (by rw [hon, hin]; decide)

/-- A head in frame that keeps alignment, and one with which it is lost. -/
theorem State.rxHead_kept {s : State} {l : Nat} {h : HeadIn} (hon : s.rxOn l = true) (hin : (s.frm l).oof = false)
    (hk : s.headLoses l h = false) : s.rxHead l h = s.headEntered l h := by
  rw [s.rxHead_inFrame l h hon hin, if_neg (Bool.eq_false_iff.1 hk)]

theorem State.rxHead_lost {s : State} {l : Nat} {h : HeadIn} (hon : s.rxOn l = true) (hin : (s.frm l).oof = false)
    (hk : s.headLoses l h = true) : s.rxHead l h = (s.headEntered l h).alignLoss l := by
  rw [s.rxHead_inFrame l h hon hin, if_pos hk]

/-- What is heard does not depend on what was driven out. -/
theorem State.headHeard_cleared (s : State) (l : Nat) (h : HeadIn) :
    s.cleared.headHeard l h = s.cleared.rxHead l (s.hear l ((s.dsp l).head.getD 0) false h) := rfl

theorem State.headLoses_framed {s : State} {l : Nat} (h : HeadIn) (hc : (s.ln l).compatRx = false) :
    s.headLoses l h = decide (8 ≤ ((s.histWith l h).filter (! ·)).length) := if_neg (Bool.eq_false_iff.1 hc)

theorem State.headLoses_compat {s : State} {l : Nat} (h : HeadIn) (hc : (s.ln l).compatRx = true) :
    s.headLoses l h = decide ((s.headEntered l h).sh (Reg.FRM_HUNT_CFG.COMPAT_M l) ≤ s.badWith l h) := if_pos hc

/-! ### Loss of alignment (R111) -/

/-- A capture that is missed leaves the framer, the multiframe and the datapath's copies. -/
theorem State.capTake_missed (s : State) (l : Nat) (m : Nat × Nat × List Nat) : (s.capTake l m false).frm l = s.frm l ∧
    ((s.capTake l m false).ln l).oom = (s.ln l).oom ∧ (s.capTake l m false).shadow = s.shadow := by
  unfold State.capTake
  split
  · exact ⟨rfl, rfl, rfl⟩
  · rw [if_neg Bool.false_ne_true, State.frm_raiseDp, State.frm_modRxp, State.ln_raiseDp, State.modRxp, State.ln_modLn]
    simp only [State.raiseDp_frame, State.modLn_besides, State.latch_frame]
    exact ⟨rfl, rfl, trivial⟩

theorem State.alignLoss_leaves (s : State) (l : Nat) : ((s.alignLoss l).frm l).oof = true ∧ ((s.alignLoss l).frm l).hist = [] ∧
    ((s.alignLoss l).frm l).bad = 0 ∧ ((s.alignLoss l).ln l).oom = true ∧ Reg.FRM_EVENT.ALIGN_LOSS l ∈ (s.alignLoss l).evQ ∧
    (s.alignLoss l).shadow = s.shadow := by
  unfold State.alignLoss
  extract_lets a b
  obtain ⟨hf, ho, hs⟩ := b.capTake_missed l (0, 0, [])
  have ha : (a.frm l).oof = true ∧ (a.frm l).hist = [] ∧ (a.frm l).bad = 0 ∧ (a.ln l).oom = true ∧ a.shadow = s.shadow := by
    simp only [a, State.frmLost, State.modFrm, State.setSucc, State.frm, State.ln_modLn, FrmSt.unalign, State.modLn_besides, and_self]
  have hb : b.frm l = a.frm l ∧ (b.ln l).oom = (a.ln l).oom ∧ b.shadow = a.shadow := by
    simp only [b, State.frm, State.modDsp, State.modRxp, State.ln_modLn, State.modLn_besides, and_self]
  obtain ⟨hbf, hbo, hbs⟩ := hb
  rw [State.frm_raiseDp, State.ln_raiseDp, State.raiseDp_evQ, hf, ho, hbf, hbo]
  obtain ⟨hoof, hhist, hbad, hoom, hsh⟩ := ha
  refine ⟨hoof, hhist, hbad, hoom, List.mem_append_right _ (List.mem_singleton_self _), ?_⟩
  simp only [State.raiseDp_frame, hs, hbs, hsh]

/-! ### The follow (R120) -/

theorem State.acqRestart_keeps (s : State) (l k : Nat) : (s.acqRestart l k).frm l = s.frm l ∧
    ((s.acqRestart l k).ln l).rxFmt = (s.ln l).rxFmt ∧ (s.acqRestart l k).evQ = s.evQ := by
  unfold State.acqRestart
  rw [State.frm_modRxp, State.modRxp, State.ln_modLn]
  simp only [State.modLn_besides, and_self]

/-- A change of the receive format ends the follow, and raises nothing. -/
theorem State.setRxFmt_takes (s : State) (l k : Nat) (shift : Bool) : ((s.setRxFmt l k shift).ln l).rxFmt = k ∧
    ((s.setRxFmt l k shift).frm l).follow = none ∧ (s.setRxFmt l k shift).evQ = s.evQ := by
  unfold State.setRxFmt
  extract_lets rs a b new d
  have hb : (b.ln l).rxFmt = k ∧ (b.frm l).follow = none ∧ b.evQ = s.evQ := by
    simp only [b, a, State.modFrm, State.frm, State.ln_modLn, State.modLn_besides, and_self]
  have hd : (d.ln l).rxFmt = k ∧ (d.frm l).follow = none ∧ d.evQ = s.evQ := by
    by_cases hs : (shift && new == rs) = true
    · rw [show d = b from if_pos hs]
      exact hb
    · rw [show d = _ from if_neg hs]
      simp only [State.frm, State.modRxp, State.ln_modLn, State.modLn_besides]
      exact hb
  split
  · exact hd
  · obtain ⟨hf, hl, hq⟩ := State.acqRestart_keeps
      (d.modLn l fun x => { x with rxRelock := some d.tick, relockBad := false, rxRate := new, dsp := x.dsp.retune rs new }) l 2
    rw [hf, hl, hq, State.frm, State.ln_modLn]
    simp only [State.modLn_besides]
    exact hd

theorem State.followTake_takes (s : State) (l k n : Nat) (hf : (s.frm l).follow = some (k, n)) (hon : s.rxOn l = true)
    (hin : (s.frm l).oof = false) : s.followTake l = (s.setRxFmt l k false).raiseDp (Reg.FRM_EVENT.FOLLOW l) := by
  unfold State.followTake
  rw [hf, hon, hin]
  rfl

theorem State.followTake_idle (s : State) (l : Nat) (h : (s.frm l).follow = none ∨ s.rxOn l = false ∨ (s.frm l).oof = true) :
    s.followTake l = s := by
  unfold State.followTake
  split
  · next k n hf =>
    rw [hf] at h
    refine if_neg fun hb => ?_
    simp only [Bool.and_eq_true, Bool.not_eq_true'] at hb
    obtain ⟨hon, hin⟩ := hb
    rw [hon, hin] at h
    simp only [reduceCtorEq, Bool.true_eq_false, Bool.false_eq_true, or_self] at h
  · rfl

/-! ### The commands -/

section Commands

variable {s : State} (l : Fin 2) (h : s.clocked)
include h

theorem rxHead_idles (x : HeadIn) (hn : s.rxOn l = false ∨ (s.frm l).oof = true) :
    Completes (.rxHead l x) s fun t => s.sameBut t wrapRegs := completes_idle rfl h (s.cleared.rxHead_idle l _ hn)

section InFrame

variable {x heard : HeadIn} (hx : heard = s.hear l ((s.dsp l).head.getD 0) false x) (hon : s.rxOn l = true) (hin : (s.frm l).oof = false)
include hx hon hin

/-- A head in frame that keeps alignment. -/
theorem rxHead_enters (hk : s.cleared.headLoses l heard = false) : Completes (.rxHead l x) s fun t =>
    (t.frm l).hist = s.histWith l heard ∧ (t.frm l).bad = s.badWith l heard ∧ (t.frm l).noFrame = 0 ∧
      t.shadow = (s.cleared.headEntered l heard).shadow := by
  have e : s.cleared.headHeard l x = s.cleared.headEntered l heard := by
    rw [State.headHeard_cleared, ← hx, State.rxHead_kept (s := s.cleared) hon hin hk]
  obtain ⟨hhist, hbad, hno⟩ := s.cleared.frm_headEntered l heard
  refine completes_lineRun rfl h e l fun t hl _ hs _ => ?_
  rw [State.frm_congr hl]
  exact ⟨hhist, hbad, hno, hs⟩

/-- A head in frame with which alignment is lost. -/
theorem rxHead_loses (hk : s.cleared.headLoses l heard = true) : Completes (.rxHead l x) s fun t =>
    (t.frm l).oof = true ∧ (t.frm l).hist = [] ∧ (t.frm l).bad = 0 ∧ (t.ln l).oom = true ∧ Reg.FRM_EVENT.ALIGN_LOSS l ∈ t.evQ ∧
      t.shadow = (s.cleared.headEntered l heard).shadow := by
  have e : s.cleared.headHeard l x = (s.cleared.headEntered l heard).alignLoss l := by
    rw [State.headHeard_cleared, ← hx, State.rxHead_lost (s := s.cleared) hon hin hk]
  obtain ⟨hoof, hhist, hbad, hoom, hev, hsh⟩ := (s.cleared.headEntered l heard).alignLoss_leaves l
  refine completes_lineRun rfl h e l fun t hl hq hs _ => ?_
  rw [State.frm_congr hl, hl, hq]
  exact ⟨hoof, hhist, hbad, hoom, hev, hs.trans hsh⟩

end InFrame

theorem follow_takes {k n : Nat} (hf : (s.frm l).follow = some (k, n)) (hon : s.rxOn l = true) (hin : (s.frm l).oof = false) :
    Completes (.follow l) s fun t => (t.ln l).rxFmt = k ∧ (t.frm l).follow = none ∧ t.evQ = s.evQ ++ [Reg.FRM_EVENT.FOLLOW l] := by
  obtain ⟨hfmt, hfol, hev⟩ := s.cleared.setRxFmt_takes l k false
  refine completes_lineRun rfl h (s.cleared.followTake_takes l k n hf hon hin) l fun t hl hq _ _ => ?_
  rw [State.frm_congr hl, hl, hq, State.frm_raiseDp, State.ln_raiseDp, State.raiseDp_evQ, hev]
  exact ⟨hfmt, hfol, rfl⟩

end Commands

/-- Settles O24: a head in frame is entered, and loses alignment by the count of its framing; a follow by the format it sets. -/
theorem receivedHeads : Obligations.ReceivedHeads := by
  unfold Obligations.ReceivedHeads
  intro s l h
  refine ⟨?_, ?_, fun x hn => rxHead_idles l h x hn, fun k n hf hon hin => follow_takes l h hf hon hin,
    fun hn => completes_idle rfl h (s.cleared.followTake_idle l hn)⟩
  · intro x heard hx hon hin hcompat hist
    have hhist : s.histWith l heard = hist := by rw [State.histWith, State.headIs, hcompat]
    have hlose : s.cleared.headLoses l heard = decide (8 ≤ (hist.filter (! ·)).length) :=
      (State.headLoses_framed (s := s.cleared) heard hcompat).trans (by rw [← hhist]; rfl)
    refine ⟨fun hn => ?_, fun hn => ?_⟩
    · obtain ⟨t, ht, hh, -, hno, -⟩ := rxHead_enters l h hx hon hin (hlose.trans (decide_eq_false (Nat.not_le.2 hn)))
      exact ⟨t, ht, hh.trans hhist, hno⟩
    · obtain ⟨t, ht, hoof, hh, -, hoom, hev, -⟩ := rxHead_loses l h hx hon hin (hlose.trans (decide_eq_true hn))
      exact ⟨t, ht, hoof, hh, hoom, hev⟩
  · intro x heard hx hon hin hcompat bad
    have hbad : s.badWith l heard = bad := by rw [State.badWith, State.headIs, hcompat]
    have hlose : s.cleared.headLoses l heard = decide ((s.cleared.headEntered l heard).sh (Reg.FRM_HUNT_CFG.COMPAT_M l) ≤ bad) :=
      (State.headLoses_compat (s := s.cleared) heard hcompat).trans (by rw [← hbad]; rfl)
    have limit {t : State} (hs : t.shadow = (s.cleared.headEntered l heard).shadow) :
        s.cleared.headLoses l heard = decide (t.sh (Reg.FRM_HUNT_CFG.COMPAT_M l) ≤ bad) := by rw [hlose, State.sh, State.sh, hs]
    cases hk : s.cleared.headLoses l heard with
    | false =>
      obtain ⟨t, ht, -, hb, hno, hs⟩ := rxHead_enters l h hx hon hin hk
      exact ⟨t, ht, fun _ => ⟨hb.trans hbad, hno⟩, fun hle => absurd hle (of_decide_eq_false ((limit hs).symm.trans hk))⟩
    | true =>
      obtain ⟨t, ht, hoof, -, hb, hoom, hev, hs⟩ := rxHead_loses l h hx hon hin hk
      exact ⟨t, ht, fun hlt => absurd (of_decide_eq_true ((limit hs).symm.trans hk)) (Nat.not_le.2 hlt), fun _ => ⟨hoof, hb, hoom, hev⟩⟩

end Sys2Proof.Machine
end

section
/-! SUPPORT. Defects: what declaring and clearing one leaves, and the end of a degradation interval (R116-R118, R264, R278). -/

namespace Sys2Proof.Machine

open Sys2Proof

/-! ### A defect turned on or off (R116, R118) -/

/-- What integrates the set and clear conditions holds nothing for a defect. -/
def FrmSt.Unheard (x : FrmSt) (d : Nat) : Prop := x.up.get (fun _ => 0) d = 0 ∧ x.dn.get (fun _ => 0) d = 0

/-- The counts of a defect go to zero. -/
def FrmSt.unheard (x : FrmSt) (d : Nat) : FrmSt := { x with up := x.up.set (fun _ => 0) d 0, dn := x.dn.set (fun _ => 0) d 0 }

theorem FrmSt.unheard_self (x : FrmSt) (d : Nat) : (x.unheard d).Unheard d := 
  ⟨SMap.get_set_self _ x.up d 0, SMap.get_set_self _ x.dn d 0⟩

theorem FrmSt.Unheard.unheard {x : FrmSt} {d : Nat} (h : x.Unheard d) (i : Nat) : (x.unheard i).Unheard d := by
  obtain ⟨hu, hd⟩ := h
  constructor <;> simp only [FrmSt.unheard, SMap.get_set, hu, hd, ite_self]

/-- The declared defects with one turned on or off. -/
def FrmSt.turned (x : FrmSt) (d : Nat) (on : Bool) : Nat :=
  if on then x.defects ||| 2 ^ d else x.defects - (if x.defects.testBit d then 2 ^ d else 0)

/-- A framer with a defect turned on or off: its counts, and those of the defects that are then masked, are zero. -/
def FrmSt.turn (x : FrmSt) (d : Nat) (on : Bool) : FrmSt :=
  let y := { x with defects := x.turned d on }.unheard d
  (idxWhere 11 y.masked).foldl FrmSt.unheard y

theorem FrmSt.turn_defects (x : FrmSt) (d : Nat) (on : Bool) : (x.turn d on).defects = x.turned d on :=
  foldl_keeps FrmSt.defects FrmSt.unheard (fun _ _ => rfl) _ _

theorem FrmSt.turn_unheard (x : FrmSt) (d : Nat) (on : Bool) : (x.turn d on).Unheard d :=
  foldl_holds (FrmSt.Unheard · d) FrmSt.unheard (fun _ i h => h.unheard i) _ _ (FrmSt.unheard_self _ d)

/-- The bits of DEF that change between two framers are raised (R116). -/
def State.defRaised (s : State) (l old new : Nat) : State :=
  (idxWhere 11 fun i => old.testBit i != new.testBit i).foldl (fun s i => s.raiseDp ⟨Reg.FRM_EVENT l, i, i⟩) s

theorem State.defRaised_keeps (s : State) (l old new : Nat) : (s.defRaised l old new).ln l = s.ln l ∧ (s.defRaised l old new).alarmQ = s.alarmQ :=
  ⟨foldl_keeps (State.ln · l) _ (fun u i => u.ln_raiseDp _ l) _ s, foldl_keeps State.alarmQ _ (fun u i => by simp only [State.raiseDp_frame]) _ s⟩

theorem State.defSet_eq (s : State) (l d : Nat) (on : Bool) : s.defSet l d on =
    let u := (if d = 0 then s.alarm 3 2 on l else s).modFrm l fun x => x.turn d on
    u.defRaised l (s.frm l).visible (u.frm l).visible := rfl

/-- A defect turned on or off changes the framer of its line; dLOS is an alarm too. -/
theorem State.defSet_leaves (s : State) (l d : Nat) (on : Bool) : (s.defSet l d on).ln l = { s.ln l with frm := (s.frm l).turn d on } ∧
    (s.defSet l d on).alarmQ = if d = 0 then s.alarmQ ++ [⟨3, 2, on, s.tick, l⟩] else s.alarmQ := by
  rw [State.defSet_eq]
  extract_lets u
  obtain ⟨hl, ha⟩ := u.defRaised_keeps l (s.frm l).visible (u.frm l).visible
  rw [hl, ha]
  simp only [u, State.modFrm, State.ln_modLn, State.modLn_besides]
  split <;> exact ⟨rfl, rfl⟩

/-! ### Declaring and clearing (R116) -/

/-- What declaring a defect restarts: dLOS acquisition, dFMT the decisions (R264, R278). -/
def State.defStops (s : State) (l d : Nat) : State :=
  if d = 0 then s.acqRestart l 0 else if d = 4 then s.modRxp l fun y => { y with dd := false, ddRun := 0 } else s

theorem State.defStops_leaves (s : State) (l d : Nat) : (s.defStops l d).frm l = s.frm l ∧ (s.defStops l d).alarmQ = s.alarmQ ∧
    (d = 0 → ((s.defStops l d).rxp l).restart = some 0) ∧ (d = 4 → ((s.defStops l d).rxp l).dd = false) := by
  have hr : ((s.acqRestart l 0).rxp l).restart = some 0 := by
    unfold State.acqRestart
    rw [State.rxp_modRxp]
    cases (s.rxp l).restart <;> simp only [Nat.min_zero]
  unfold State.defStops
  by_cases h0 : d = 0
  · rw [if_pos h0]
    exact ⟨(s.acqRestart_keeps l 0).1, (State.modLn_besides _ _ _).2.2, fun _ => hr, fun h4 => absurd (h0.symm.trans h4) (by decide)⟩
  · rw [if_neg h0]
    by_cases h4 : d = 4
    · rw [if_pos h4, State.frm_modRxp, State.rxp_modRxp]
      exact ⟨rfl, (State.modLn_besides _ _ _).2.2, fun e => absurd e h0, fun _ => rfl⟩
    · rw [if_neg h4]
      exact ⟨rfl, rfl, fun e => absurd e h0, fun e => absurd e h4⟩

theorem State.defDeclare_due (s : State) (l : Nat) {d : Nat} (hd : d < 11) (hoff : (s.frm l).defects.testBit d = false)
    (hm : (s.frm l).masked d = false) (hup : (s.defLimits l d).1 ≤ (s.frm l).up.get (fun _ => 0) d) :
    s.defDeclare l d = (s.defSet l d true).defStops l d :=
  if_neg (by simp only [hoff, hm, Bool.false_eq_true, false_or, not_or]; omega)

theorem State.defDeclare_idle (s : State) (l d : Nat) (h : (s.frm l).defects.testBit d = true ∨ (s.frm l).masked d = true ∨
    (s.frm l).up.get (fun _ => 0) d < (s.defLimits l d).1) : s.defDeclare l d = s := if_pos (.inr h)

theorem State.defClear_due (s : State) (l : Nat) {d : Nat} (hd : d < 11) (hon : (s.frm l).defects.testBit d = true)
    (hm : (s.frm l).masked d = false) (hdn : (s.defLimits l d).2 ≤ (s.frm l).dn.get (fun _ => 0) d) :
    s.defClear l d = s.defSet l d false :=
  if_neg (by simp only [hon, hm, Bool.false_eq_true, Bool.true_eq_false, false_or, not_or]; omega)

theorem State.defClear_idle (s : State) (l d : Nat) (h : (s.frm l).defects.testBit d = false ∨ (s.frm l).masked d = true ∨
    (s.frm l).dn.get (fun _ => 0) d < (s.defLimits l d).2) : s.defClear l d = s := if_pos (.inr h)

/-! ### The degradation interval (R117) -/

theorem State.degEnd_idle (s : State) (l : Nat) (h : s.sh (Reg.FRM_DEG_CFG.DEG_INT l) = 0 ∨ s.tick % s.sh (Reg.FRM_DEG_CFG.DEG_INT l) ≠ 0 ∨
    s.tick ≤ (s.frm l).degAt) : s.degEnd l = s := if_pos h

/-- The framer of an interval's end: it has judged its bits unless it saw the line out of frame. -/
theorem State.degEnd_due (s : State) (l : Nat) (hn : s.sh (Reg.FRM_DEG_CFG.DEG_INT l) ≠ 0) (ht : s.tick % s.sh (Reg.FRM_DEG_CFG.DEG_INT l) = 0)
    (hlt : (s.frm l).degAt < s.tick) : ∃ u n, (s.degEnd l).frm l =
      { s.frm l with up := u, dn := n, degAt := s.tick, degFlips := 0, degBits := 0, degOof := (s.frm l).oof } ∧
      ((s.frm l).degOof = true → u = (s.frm l).up ∧ n = (s.frm l).dn) := by
  have hgo : ¬ (s.sh (Reg.FRM_DEG_CFG.DEG_INT l) = 0 ∨ s.tick % s.sh (Reg.FRM_DEG_CFG.DEG_INT l) ≠ 0 ∨ s.tick ≤ (s.frm l).degAt) := by
    simp only [not_or, not_not]
    exact ⟨hn, ht, Nat.not_le.2 hlt⟩
  unfold State.degEnd
  extract_lets x n bad t
  rw [if_neg hgo, State.frm_modFrm]
  by_cases ho : x.degOof = true
  · rw [show t = s from if_pos ho]
    exact ⟨_, _, rfl, fun _ => ⟨rfl, rfl⟩⟩
  · have e : t = s.modFrm l (·.evidence 8 bad 1) := if_neg ho
    obtain ⟨u, m, hx⟩ := (s.frm l).evidence_form 8 bad 1
    have htick : t.tick = s.tick := by rw [e, State.modFrm_tick]
    rw [htick, e, State.frm_modFrm, hx]
    exact ⟨u, m, rfl, fun h => absurd h ho⟩

/-! ### The commands -/

section Commands

variable {s : State} (l : Fin 2) (d : Fin 11) (h : s.clocked)
include h

theorem defectDeclare_declares (hoff : (s.frm l).defects.testBit d = false) (hm : (s.frm l).masked d = false)
    (hup : (s.defLimits l d).1 ≤ (s.frm l).up.get (fun _ => 0) d) : Completes (.defectDeclare l d) s fun t =>
      (t.frm l).defects = (s.frm l).defects ||| 2 ^ d.val ∧ (t.frm l).up.get (fun _ => 0) d = 0 ∧
      (d.val = 0 → (t.rxp l).restart = some 0 ∧ ⟨3, 2, true, s.tick, l⟩ ∈ t.alarmQ) ∧ (d.val = 4 → (t.rxp l).dd = false) := by
  obtain ⟨hl, ha⟩ := s.cleared.defSet_leaves l d true
  obtain ⟨hf, has, h0, h4⟩ := (s.cleared.defSet l d true).defStops_leaves l d
  have hx : (s.cleared.defSet l d true).frm l = (s.frm l).turn d true := congrArg Line.frm hl
  refine completes_lineRun rfl h (s.cleared.defDeclare_due l d.isLt hoff hm hup) l fun t hlt _ _ hat => ?_
  rw [State.frm_congr hlt, State.rxp_congr hlt, hat, has, ha, hf, hx]
  refine ⟨FrmSt.turn_defects _ _ _, (FrmSt.turn_unheard _ _ _).1, fun e => ⟨h0 e, ?_⟩, h4⟩
  rw [if_pos e]
  exact List.mem_append_right _ (List.mem_singleton_self _)

theorem defectClear_clears (hon : (s.frm l).defects.testBit d = true) (hm : (s.frm l).masked d = false)
    (hdn : (s.defLimits l d).2 ≤ (s.frm l).dn.get (fun _ => 0) d) : Completes (.defectClear l d) s fun t =>
      (t.frm l).defects = (s.frm l).defects - 2 ^ d.val ∧ (t.frm l).dn.get (fun _ => 0) d = 0 := by
  have hx : (s.cleared.defSet l d false).frm l = (s.frm l).turn d false := congrArg Line.frm (s.cleared.defSet_leaves l d false).1
  refine completes_lineRun rfl h (s.cleared.defClear_due l d.isLt hon hm hdn) l fun t hlt _ _ _ => ?_
  rw [State.frm_congr hlt, hx, FrmSt.turn_defects, FrmSt.turned, if_neg Bool.false_ne_true, if_pos hon]
  exact ⟨rfl, (FrmSt.turn_unheard _ _ _).2⟩

end Commands

theorem degIntervalEnd_starts {s : State} (l : Fin 2) (h : s.working) (hn : s.sh (Reg.FRM_DEG_CFG.DEG_INT l) ≠ 0)
    (ht : s.tick % s.sh (Reg.FRM_DEG_CFG.DEG_INT l) = 0) (hlt : (s.frm l).degAt < s.tick) : Completes (.degIntervalEnd l) s fun t =>
      (t.frm l).degAt = s.tick ∧ (t.frm l).degFlips = 0 ∧ (t.frm l).degBits = 0 ∧ (t.frm l).degOof = (s.frm l).oof ∧
      ((s.frm l).degOof = true → (t.frm l).up = (s.frm l).up ∧ (t.frm l).dn = (s.frm l).dn) := by
  obtain ⟨u, n, hf, hsame⟩ := s.cleared.degEnd_due l hn ht hlt
  refine completes_live rfl h.2 ?_
  rw [State.frm_congr (s.ln_cmdTick _ h.1 l), hf]
  exact ⟨rfl, rfl, rfl, rfl, hsame⟩

/-- Settles O25: a defect's turn by what it leaves of the framer, beside what dLOS and dFMT stop; the interval's end by the framer it leaves. -/
theorem defects : Obligations.Defects := by
  unfold Obligations.Defects
  intro s l
  refine ⟨fun d h => ⟨defectDeclare_declares l d h, fun hn => completes_idle rfl h (s.cleared.defDeclare_idle l d hn), defectClear_clears l d h,
    fun hn => completes_idle rfl h (s.cleared.defClear_idle l d hn)⟩, fun h => ⟨degIntervalEnd_starts l h, fun hn => ?_⟩⟩
  exact completes_live rfl h.2 (s.sameBut_cmdTick_idle _ h.1 (s.cleared.degEnd_idle l hn))

end Sys2Proof.Machine
end

section
/-! SUPPORT. The format shift's start: requests that are announced or rejected, and the withdrawal (R13, R121, R124). -/

namespace Sys2Proof.Machine

open Sys2Proof

/-! ### A request (R121) -/

/-- The request's registers with START cleared. -/
def State.shiftHeard (s : State) (l : Nat) : State := s.setFld (Reg.FRM_SHIFT_CTL.START l) 0

/-- The activation frame of a request, and the entry that it names. -/
def State.shiftFrame (s : State) (l : Nat) : Nat := s.reg64 (Reg.FRM_SHIFT_ACT_LO l) (Reg.FRM_SHIFT_ACT_HI l)
def State.shiftEntry (s : State) (l : Nat) : Nat := s.fld (Reg.FRM_SHIFT_CTL.NEW_IDX l)

/-- Whether the checks of R121 on a request fail. -/
def State.shiftBarred (s : State) (l : Nat) : Bool :=
  !s.shiftFmtOk l (s.shiftEntry l) || s.shiftFrame l % 64 != 0 || decide (s.shiftFrame l < (s.ln l).txFn + 1024) ||
    decide ((s.ln l).txFn + 1048576 < s.shiftFrame l) || s.shifting l

theorem State.shiftBarred_iff (s : State) (l : Nat) : s.shiftBarred l = true ↔ s.shiftFmtOk l (s.shiftEntry l) = false ∨ s.shiftFrame l % 64 ≠ 0 ∨
    s.shiftFrame l < (s.ln l).txFn + 1024 ∨ (s.ln l).txFn + 1048576 < s.shiftFrame l ∨ s.shifting l = true := by
  simp only [State.shiftBarred, Bool.or_eq_true, Bool.not_eq_true', bne_iff_ne, decide_eq_true_eq, or_assoc]

/-- The announcement that a request makes. -/
def State.shiftAnnounced (s : State) (l : Nat) : State :=
  (s.modShift l fun x => { x with tx := 1, responder := false, idx := s.shiftEntry l, act := s.shiftFrame l, txDone := false, rxDone := false,
                                  acks := 0, gone := 0 }).accepted l 3

theorem State.shiftRequest_eq (s : State) (l : Nat) : s.shiftRequest l =
    if (s.shiftHeard l).shiftBarred l then
      ((s.shiftHeard l).raise (Reg.FRM_EVENT.SHIFT_REJECT l)).frameReject ((s.shiftHeard l).ln l).txFn ((s.shiftHeard l).shiftFrame l)
    else (s.shiftHeard l).shiftAnnounced l := by
  have hk : s.fld (Reg.FRM_SHIFT_CTL.NEW_IDX l) = (s.shiftHeard l).shiftEntry l :=
    (s.fld_setFld_ne _ _ 0 le_rfl (by decide : 4 < 32) (.inr (.inr (by decide : 3 < 4)))).symm
  have hf : s.reg64 (Reg.FRM_SHIFT_ACT_LO l) (Reg.FRM_SHIFT_ACT_HI l) = (s.shiftHeard l).shiftFrame l := by
    rw [State.shiftFrame, State.reg64, State.reg64, State.shiftHeard, State.reg_setFld_ne _ _ (by simp), State.reg_setFld_ne _ _ (by simp)]
  unfold State.shiftRequest
  rw [hk, hf]
  rfl

/-! ### What a request leaves -/

theorem State.shiftOf_shiftAnnounced (s : State) (l : Nat) : (s.shiftAnnounced l).shiftOf l = { s.shiftOf l with
    tx := 1, responder := false, idx := s.shiftEntry l, act := s.shiftFrame l, txDone := false, rxDone := false, acks := 0, gone := 0 } := by
  unfold State.shiftAnnounced State.accepted State.modShift State.modFrm State.shiftOf State.frm
  rw [State.ln_modLn, State.ln_modLn]
  rfl

theorem State.reg_shiftAnnounced (s : State) (l off : Nat) : (s.shiftAnnounced l).reg off = s.reg off :=
  (State.reg_modLn _ _ _ _).trans (State.reg_modLn _ _ _ _)

/-- A line's state is read beside the registers, the counters and Moraine's queue. -/
theorem State.ln_of_rest {s t : State} (h : t.rest = s.rest) (l : Nat) : t.ln l = s.ln l :=
  show t.rest.ln l = s.rest.ln l by rw [h]

theorem State.rest_frameReject (s : State) (now f : Nat) : (s.frameReject now f).rest = s.rest := by
  unfold State.frameReject State.raiseIf
  split
  · exact s.rest_raise _
  · rfl

/-- The request's register is none of those that rejecting it writes. -/
theorem shiftCtl_beside (l : Fin 2) : Reg.FRM_SHIFT_CTL l ∉ wrapRegs ∧ Reg.FRM_SHIFT_CTL l ≠ Reg.FRM_EVENT l ∧
    Reg.FRM_SHIFT_CTL l ≠ Reg.GLB_TICK_EVENT ∧ Reg.FRM_SHIFT_CTL l ≠ Reg.FLT_EVENT := by
  revert l
  decide

/-- A rejection changes no shift, raises SHIFT_REJECT and leaves the request's register. -/
theorem State.shiftRejected_leaves (s : State) (l : Fin 2) (now f : Nat) :
    let t := (s.raise (Reg.FRM_EVENT.SHIFT_REJECT l)).frameReject now f
    t.shiftOf l = s.shiftOf l ∧ t.bit (Reg.FRM_EVENT.SHIFT_REJECT l) = true ∧ t.reg (Reg.FRM_SHIFT_CTL l) = s.reg (Reg.FRM_SHIFT_CTL l) := by
  intro t
  obtain ⟨-, he, hg, hf⟩ := shiftCtl_beside l
  refine ⟨congrArg (·.frm.shift) (State.ln_of_rest ((State.rest_frameReject _ _ _).trans (s.rest_raise _)) l), ?_, ?_⟩
  · exact State.bit_raiseIf_mono _ _ _ _ rfl (by decide) rfl (s.bit_raise _ rfl (by decide : 16 < 32))
  · exact (State.reg_raiseIf_ne _ _ _ hg hf).trans (s.reg_raise_ne _ he hf)

/-- A taken write of FRM_SHIFT_CTL with START makes the request. -/
theorem State.effect_shiftCtl (s : State) (l : Fin 2) (old : Word) (h : s.bit (Reg.FRM_SHIFT_CTL.START l) = true) :
    s.effect (Reg.FRM_SHIFT_CTL l) old = s.shiftRequest l := by
  fin_cases l <;> exact if_pos h

theorem State.bit_shiftHeard (s : State) (l : Nat) : (s.shiftHeard l).bit (Reg.FRM_SHIFT_CTL.START l) = false := by
  rw [State.shiftHeard, State.bit_eq, State.fld_setFld _ _ _ le_rfl (by decide : 4 < 32)]
  rfl

/-! ### The withdrawal (R124) -/

theorem State.shiftWithdraw_due (s : State) (l : Nat) (ht : (s.shiftOf l).tx = 1) (ha : (s.shiftOf l).act ≤ (s.ln l).txFn + 256) :
    ((s.shiftWithdraw l).shiftOf l).tx = 0 ∧ ((s.shiftWithdraw l).shiftOf l).cause = 1 ∧
      (s.shiftWithdraw l).evQ = s.evQ ++ [Reg.FRM_EVENT.SHIFT_FAIL l] := by
  have e : s.shiftWithdraw l = s.shiftFail l 1 := if_pos ⟨ht, ha⟩
  have hs : (s.shiftFail l 1).shiftOf l = { s.shiftOf l with tx := if (s.shiftOf l).tx = 1 then 0 else (s.shiftOf l).tx, cause := 1, acks := 0, txDone := false } := by
    unfold State.shiftFail State.modShift State.shiftOf
    rw [State.frm_raiseDp, State.frm_modFrm]
    rfl
  rw [e, hs]
  refine ⟨if_pos ht, rfl, ?_⟩
  rw [State.shiftFail, State.raiseDp_evQ, State.modShift, State.modFrm]
  simp only [State.modLn_besides]

theorem State.shiftWithdraw_idle (s : State) (l : Nat) (h : (s.shiftOf l).tx ≠ 1 ∨ (s.ln l).txFn + 256 < (s.shiftOf l).act) :
    s.shiftWithdraw l = s := if_neg fun ⟨ht, ha⟩ => h.elim (· ht) fun hlt => Nat.not_le.2 hlt ha

/-! ### The commands -/

section Request

variable {s u : State} {l : Fin 2} {v : Word} (h : s.live) (ht : s.takes (Reg.FRM_SHIFT_CTL l) v.toNat)
  (hu : u = (s.stored (Reg.FRM_SHIFT_CTL l) v.toNat).shiftHeard l)
  (hgo : (s.stored (Reg.FRM_SHIFT_CTL l) v.toNat).bit (Reg.FRM_SHIFT_CTL.START l) = true)
include h ht hgo

/-- The command leaves of the shift and of the registers what the request leaves, which the stored word makes. -/
theorem shiftRequest_runs {w : State} (hw : (s.stored (Reg.FRM_SHIFT_CTL l) v.toNat).shiftRequest l = w) {P : State → Prop}
    (hP : ∀ t, t.shiftOf l = w.shiftOf l → t.reg (Reg.FRM_SHIFT_CTL l) = w.reg (Reg.FRM_SHIFT_CTL l) →
      (w.bit (Reg.FRM_EVENT.SHIFT_REJECT l) = true → t.bit (Reg.FRM_EVENT.SHIFT_REJECT l) = true) → P t) : Completes (.shiftRequest l v) s P := by
  have e : s.cleared.write32 (Reg.FRM_SHIFT_CTL l) v.toNat = w := by
    rw [State.write32_taken ht, State.taken, State.effect_shiftCtl _ l _ hgo, hw]
  refine ⟨_, rfl, hP _ ?_ ?_ fun hb => ?_⟩
  · rw [State.shiftOf, State.frm, s.ln_cmd _ h, e]
    rfl
  · rw [s.reg_cmd _ h (shiftCtl_beside l).1, e]
  · exact s.bit_cmd _ h _ rfl ((by decide : ∀ l : Fin 2, Reg.FRM_EVENT l ≠ Reg.PMC_WRAP_LOG) l) (e ▸ hb)

include hu

theorem shiftRequest_announces (hb : u.shiftBarred l = false) : Completes (.shiftRequest l v) s fun t =>
    (t.shiftOf l).tx = 1 ∧ (t.shiftOf l).responder = false ∧ (t.shiftOf l).idx = u.shiftEntry l ∧ (t.shiftOf l).act = u.shiftFrame l ∧
      t.bit (Reg.FRM_SHIFT_CTL.START l) = false := by
  subst hu
  refine shiftRequest_runs h ht hgo ((State.shiftRequest_eq _ _).trans (if_neg (Bool.eq_false_iff.1 hb))) fun t hs hr _ => ?_
  rw [hs, State.shiftOf_shiftAnnounced]
  exact ⟨rfl, rfl, rfl, rfl, (State.bit_congr _ t _ (hr.trans (State.reg_shiftAnnounced _ _ _))).trans (State.bit_shiftHeard _ _)⟩

theorem shiftRequest_rejects (hb : u.shiftBarred l = true) : Completes (.shiftRequest l v) s fun t => t.shiftOf l = u.shiftOf l ∧
    t.bit (Reg.FRM_EVENT.SHIFT_REJECT l) = true ∧ t.bit (Reg.FRM_SHIFT_CTL.START l) = false := by
  subst hu
  refine shiftRequest_runs h ht hgo ((State.shiftRequest_eq _ _).trans (if_pos hb)) fun t hs hr he => ?_
  obtain ⟨hsh, hev, hreg⟩ := State.shiftRejected_leaves ((s.stored (Reg.FRM_SHIFT_CTL l) v.toNat).shiftHeard l) l _ _
  exact ⟨hs.trans hsh, he hev, (State.bit_congr _ t _ (hr.trans hreg)).trans (State.bit_shiftHeard _ _)⟩

end Request

theorem shiftWithdraw_withdraws {s : State} (l : Fin 2) (h : s.live) (ht : (s.shiftOf l).tx = 1) (ha : (s.shiftOf l).act ≤ (s.ln l).txFn + 256) :
    Completes (.shiftWithdraw l) s fun t => (t.shiftOf l).tx = 0 ∧ (t.shiftOf l).cause = 1 ∧ t.evQ = s.evQ ++ [Reg.FRM_EVENT.SHIFT_FAIL l] := by
  obtain ⟨htx, hcause, hev⟩ := s.cleared.shiftWithdraw_due l ht ha
  refine completes_line rfl h rfl l fun t hl hq _ _ => ?_
  have hs : t.shiftOf l = (s.cleared.shiftWithdraw l).shiftOf l := congrArg (·.frm.shift) hl
  rw [hs, hq]
  exact ⟨htx, hcause, hev⟩

/-- Settles O26: a request is announced unless a check of R121 bars it; an announcement is withdrawn from F − 256 on. -/
theorem shiftStarts : Obligations.ShiftStarts := by
  unfold Obligations.ShiftStarts
  intro s l h
  refine ⟨fun v u ht hu hgo => ?_, shiftWithdraw_withdraws l h, fun hn => ⟨_, rfl, s.sameBut_cmd_idle _ h (s.cleared.shiftWithdraw_idle l hn)⟩⟩
  intro k f now
  have hbar := u.shiftBarred_iff l
  refine ⟨fun hfmt hmul hnear hfar hidle => shiftRequest_announces h ht hu hgo (Bool.eq_false_iff.2 fun hb => ?_),
    fun hn => shiftRequest_rejects h ht hu hgo (hbar.2 hn)⟩
  obtain hb | hb | hb | hb | hb := hbar.1 hb
  · exact Bool.false_ne_true (hb.symm.trans hfmt)
  · exact hb hmul
  · exact Nat.not_le.2 hb hnear
  · exact Nat.not_le.2 hb hfar
  · exact Bool.false_ne_true (hidle.symm.trans hb)

end Sys2Proof.Machine
end

section
/-! SUPPORT. Boot's steps out of order, and in a tick that does not run (R159, R417, R527). -/

namespace Sys2Proof.Machine

open Sys2Proof

/-! ### A step that is not the next one -/

section Order

variable (s : State)

theorem State.bootFuses_idle (f : Fuses) (h : s.bootStep ≠ 0) : s.bootFuses f = s := if_pos h

theorem State.bootNvm_idle (x : Sfdp) (h0 h1 : Rd) (slots : List Rd) (e : Rd) (h : s.bootStep ≠ 1) : s.bootNvm x h0 h1 slots e = s := if_pos h

theorem State.select_idle (ps : List Pg) (h : s.bootStep ≠ 2) (h3 : s.boot.reselect = false ∨ s.bootStep ≠ 3) : s.select ps = s := by
  have hn : (s.bootStep == 2 || (s.bootStep == 3 && s.boot.reselect)) = false := by
    rw [beq_eq_false_iff_ne.2 h, Bool.false_or]
    obtain hr | hr := h3
    · rw [hr, Bool.and_false]
    · rw [beq_eq_false_iff_ne.2 hr, Bool.false_and]
  exact if_pos (by rw [hn]; rfl)

/-- Step 4 waits as well while the cipher unit runs a request (R159). -/
theorem State.bootApply_idle (rs : List Rd) (h : s.bootStep ≠ 3 ∨ s.boot.reselect = true ∨ (s.boot.cand ≠ none ∧ s.cph.running ≠ none)) :
    s.bootApply rs = s := by
  simp only [← Option.isSome_iff_ne_none] at h
  exact if_pos h

theorem State.bootRepair_idle (r : Rd) (e p : Pg) (ts : List TrainIn) (h : s.bootStep ≠ 4) : s.bootRepair r e p ts = s := if_pos h

/-- Step 6 waits as well for the measurements of a tile that it calibrates (R225). -/
theorem State.bootCalib_idle (c : Rd) (a b : FgIn) (e : Rd) (ts : List (Pg × Bool × Pg)) (p : Pg) (m : Rd)
    (h : s.bootStep ≠ 5 ∨ (s.safe = false ∧ ∃ q ∈ [(0, a), (1, b)], s.calibrates q.1 = true ∧ s.fgReady q.1 q.2 = false)) :
    s.bootCalib c a b e ts p m = s := by
  refine if_pos ?_
  rw [Bool.or_eq_true, decide_eq_true_eq]
  refine h.imp_right fun ⟨hs, q, hq, hc, hr⟩ => ?_
  rw [hs, Bool.not_false, Bool.true_and, List.any_eq_true]
  exact ⟨q, hq, by rw [hc, hr]; rfl⟩

theorem State.bootLast_idle (h : s.bootStep ≠ 6) : s.bootLast = s := if_pos (.inl h)

end Order

/-! ### A tick that does not run (R446-R448) -/

/-- A step of the tick does not happen while no tick runs. -/
theorem State.sameBut_cmdTick_stalled (s : State) (f : State → State) (h : s.live) (hs : s.stalled = true) : s.sameBut (s.cmdTick f) wrapRegs :=
  s.sameBut_cmd_idle _ h (if_pos (by rw [show s.cleared.stalled = true from hs]; rfl))

/-- Settles O12: each step's guard leaves the state as it is, and no step of a tick runs in one that does not. -/
theorem bootInOrder : Obligations.BootInOrder := by
  unfold Obligations.BootInOrder
  intro s
  refine ⟨fun h => ?_, fun h hs => ?_⟩
  · have idle {c : Instr} {f : State → State} (hc : exec c s = .next (s.cmdTick f)) (hf : f s.cleared = s.cleared) :
        Completes c s fun t => s.sameBut t faultRegs := ⟨_, hc, s.sameBut_cmdTick_idle f h hf⟩
    exact ⟨fun f hn => idle rfl (s.cleared.bootFuses_idle f hn), fun x h0 h1 slots e hn => idle rfl (s.cleared.bootNvm_idle x h0 h1 slots e hn),
      fun ps hn h3 => idle rfl (s.cleared.select_idle ps hn h3), fun rs hn => idle rfl (s.cleared.bootApply_idle rs hn),
      fun r e p ts hn => idle rfl (s.cleared.bootRepair_idle r e p ts hn),
      fun c a b e ts p m hn => idle rfl (s.cleared.bootCalib_idle c a b e ts p m hn), fun hn => idle rfl (s.cleared.bootLast_idle hn)⟩
  · have stopped {c : Instr} {f : State → State} (hc : exec c s = .next (s.cmdTick f)) : Completes c s fun t => s.sameBut t wrapRegs :=
      ⟨_, hc, s.sameBut_cmdTick_stalled f h hs⟩
    exact ⟨fun _ => stopped rfl, fun _ => stopped rfl, fun _ => stopped rfl, stopped rfl⟩

end Sys2Proof.Machine
end

section
/-! SUPPORT. What commands leave of a line and of the registers: a taken write, a step of the tick that a shutdown would stop (R14, R30, R32). -/

namespace Sys2Proof.Machine

open Sys2Proof

/-! ### Commands -/

section Kinds

variable {c : Instr} {s w : State} {f : State → State} {P : State → Prop}

/-- A command that is one taken write leaves what the write leaves, which is `w`. -/
theorem completes_write {off v : Nat} (hc : writeOf c = some (off, v)) (h : s.live) (ht : s.takes off v) (hw : s.taken off v = w)
    (hP : ∀ t, w.sameBut t wrapRegs → (∀ g : Fr, g.lo = g.hi → g.off ≠ Reg.PMC_WRAP_LOG → w.bit g = true → t.bit g = true) → P t) :
    Completes c s P := by
  subst hw
  refine ⟨_, exec_of_writeOf hc s, hP _ (State.sameBut_write32_taken h ht) fun g hl hg hb => ?_⟩
  exact s.bit_cmd _ h g hl hg (by rwa [State.write32_taken ht])

/-- A step of the tick leaves of the lines, the published results and the registers what its effect `w` leaves. -/
theorem completes_tick (hc : exec c s = .next (s.cmdLive f)) (h : s.working) (hw : f s.cleared = w)
    (hP : ∀ t, (∀ l, t.ln l = w.ln l) → t.pubQ = w.pubQ → (∀ off, off ∉ faultRegs → t.reg off = w.reg off) → P t) : Completes c s P := by
  subst hw
  refine completes_live hc h.2 (hP _ (s.ln_cmdTick f h.1) ?_ fun off ho => s.reg_cmdTick f h.1 ho)
  simp only [s.cmdTick_frame f h.1]

theorem completes_tick_idle (hc : exec c s = .next (s.cmdLive f)) (h : s.working) (hf : f s.cleared = s.cleared) :
    Completes c s fun t => s.sameBut t faultRegs := ⟨_, hc, s.sameBut_cmdLive_idle f h.1 hf⟩

end Kinds

/-- A line engine's register sets the same in motion on either line. -/
theorem State.effect_line (s : State) (l : Fin 2) (old : Word) {o : Nat} (h : 0x200000 ≤ o) (h2 : o < 0x300000) :
    s.effect (o + 0x100000 * l) old = s.lineEffect o l := by
  have hl := l.isLt
  have hloc : localOff (o + 0x100000 * l) = o ∧ (o + 0x100000 * l) / 0x100000 - 2 = l := by
    unfold localOff
    split <;> omega
  rw [State.effect, if_pos (by omega), hloc.1, hloc.2]

/-! ### A line's cipher -/

@[simp] theorem State.lcy_modLcy (s : State) (l : Nat) (f : LcySt → LcySt) : (s.modLcy l f).lcy l = f (s.lcy l) := by
  unfold State.lcy State.modLcy
  rw [State.ln_modLn]

@[simp] theorem State.reg_modLcy (s : State) (l : Nat) (f : LcySt → LcySt) (off : Nat) : (s.modLcy l f).reg off = s.reg off := s.reg_modLn l _ off

@[simp] theorem State.modLcy_evQ (s : State) (l : Nat) (f : LcySt → LcySt) : (s.modLcy l f).evQ = s.evQ := (s.modLn_besides l _).2.1

@[simp] theorem State.lcy_accepted (s : State) (l code : Nat) : (s.accepted l code).lcy l = s.lcy l := by
  unfold State.lcy State.accepted
  rw [State.ln_modLn]

theorem State.lcy_congr {s t : State} {l : Nat} (h : t.ln l = s.ln l) : t.lcy l = s.lcy l := congrArg Line.lcy h

theorem State.lcy_of_rest {s t : State} (h : t.rest = s.rest) (l : Nat) : t.lcy l = s.lcy l := State.lcy_congr (State.ln_of_rest h l)

@[simp] theorem State.lcy_raise (s : State) (f : Fr) (l : Nat) : (s.raise f).lcy l = s.lcy l := State.lcy_of_rest (s.rest_raise f) l

@[simp] theorem State.lcy_setFld (s : State) (f : Fr) (v l : Nat) : (s.setFld f v).lcy l = s.lcy l := State.lcy_of_rest (s.rest_setFld f v) l

@[simp] theorem State.lcy_raiseDp (s : State) (f : Fr) (l : Nat) : (s.raiseDp f).lcy l = s.lcy l := State.lcy_congr (s.ln_raiseDp f l)

/-- The cipher's registers are none of those that phase 8 writes. -/
theorem lcyRegs_beside (l : Fin 2) : Reg.LCY_EVENT l ∉ faultRegs ∧ Reg.LCY_FLIP_CTL l ∉ faultRegs ∧ Reg.LCY_RX_EPOCH l ∉ faultRegs ∧
    Reg.LCY_PIPE_FAIL l ∉ faultRegs ∧ Reg.LCY_EVENT l ≠ Reg.PMC_WRAP_LOG ∧ Reg.LCY_FLIP_CTL l ≠ Reg.PMC_WRAP_LOG := by
  revert l
  decide

end Sys2Proof.Machine
end

section
/-! SUPPORT. Key phases: the age's limits, flips, rotation (R140, R142, R143). -/

namespace Sys2Proof.Machine

open Sys2Proof

/-! ### The age's limits (R143) -/

/-- A mark on a line's cipher that is told as a datapath event, where `c` holds. -/
theorem State.lcy_marked (s : State) (l : Nat) (c : Prop) [Decidable c] (g : LcySt → LcySt) (e : Fr) :
    (if c then (s.modLcy l g).raiseDp e else s).lcy l = (if c then g (s.lcy l) else s.lcy l) ∧
    (if c then (s.modLcy l g).raiseDp e else s).evQ = s.evQ ++ if c then [e] else [] := by
  by_cases h : c
  · simp only [if_pos h, State.lcy_raiseDp, State.lcy_modLcy, State.raiseDp_evQ, State.modLcy_evQ, and_self]
  · simp only [if_neg h, List.append_nil, and_self]

/-- The cipher after an age that reaches the warning, and the limit. -/
def LcySt.aged (x : LcySt) : LcySt :=
  { x with warned := x.warned || decide (2 ^ 47 ≤ x.age), expired := x.expired || decide (2 ^ 48 ≤ x.age) }

/-- The mark is set where the limit is reached, or was set before. -/
theorem marked_or (n age : Nat) (b : Bool) : (if n ≤ age ∧ b = false then true else b) = (b || decide (n ≤ age)) := by
  cases b <;> simp

theorem State.keyAge_marks (s : State) (l : Nat) : (s.keyAge l).lcy l = (s.lcy l).aged ∧
    (s.keyAge l).evQ = s.evQ ++ (if 2 ^ 47 ≤ (s.lcy l).age ∧ (s.lcy l).warned = false then [Reg.LCY_EVENT.KEY_AGE_WARN l] else []) ++
      (if 2 ^ 48 ≤ (s.lcy l).age ∧ (s.lcy l).expired = false then [Reg.LCY_EVENT.KEY_EXPIRED l] else []) := by
  unfold State.keyAge
  extract_lets a
  obtain ⟨h1, e1⟩ := s.lcy_marked l (2 ^ 47 ≤ (s.lcy l).age ∧ (s.lcy l).warned = false) (fun y => { y with warned := true }) (Reg.LCY_EVENT.KEY_AGE_WARN l)
  obtain ⟨h2, e2⟩ := a.lcy_marked l (2 ^ 48 ≤ (a.lcy l).age ∧ (a.lcy l).expired = false) (fun y => { y with expired := true }) (Reg.LCY_EVENT.KEY_EXPIRED l)
  have ha : a.lcy l = { s.lcy l with warned := (s.lcy l).warned || decide (2 ^ 47 ≤ (s.lcy l).age) } := by
    rw [← marked_or]
    refine h1.trans ?_
    split <;> rfl
  rw [e2, h2, show a.evQ = _ from e1, ha]
  refine ⟨?_, rfl⟩
  rw [LcySt.aged, ← marked_or (2 ^ 48)]
  split <;> rfl

theorem keyAgeLimit_marks {s : State} (l : Fin 2) (h : s.clocked) : Completes (.keyAgeLimit l) s fun t => t.lcy l = (s.lcy l).aged ∧
    t.evQ = s.evQ ++ (if 2 ^ 47 ≤ (s.lcy l).age ∧ (s.lcy l).warned = false then [Reg.LCY_EVENT.KEY_AGE_WARN l] else []) ++
      (if 2 ^ 48 ≤ (s.lcy l).age ∧ (s.lcy l).expired = false then [Reg.LCY_EVENT.KEY_EXPIRED l] else []) := by
  obtain ⟨hl, he⟩ := s.cleared.keyAge_marks l
  exact completes_lineRun rfl h rfl l fun t ht hq _ _ => ⟨(State.lcy_congr ht).trans hl, hq.trans he⟩

/-! ### Arming a flip (R13, R140) -/

/-- The frame that FLIP_FRAME names, and whether the phase that a flip would go to is marked valid. -/
def State.flipFrame (s : State) (l : Nat) : Nat := s.reg64 (Reg.LCY_FLIP_FRAME_LO l) (Reg.LCY_FLIP_FRAME_HI l)
def State.flipTo (s : State) (l : Nat) : Bool := s.bit ⟨Reg.LCY_TX_KEY l, 8 * (1 - (s.lcy l).txPhase) + 6, 8 * (1 - (s.lcy l).txPhase) + 6⟩

/-- Whether the checks of R140 allow the flip. -/
def State.flipOk (s : State) (l : Nat) : Bool :=
  decide ((s.ln l).txFn + 64 ≤ s.flipFrame l) && s.flipFrame l % 64 == 0 && s.flipTo l && (s.lcy l).flip.isNone

theorem State.flipArm_eq (s : State) (l : Nat) : s.flipArm l =
    if s.flipOk l then ((s.modLcy l fun y => { y with flip := some (s.flipFrame l) }).setFld (Reg.LCY_FLIP_CTL.ARM l) 1).accepted l 2
    else ((s.setFld (Reg.LCY_FLIP_CTL.ARM l) (b2n (s.lcy l).flip.isSome)).raise (Reg.LCY_EVENT.FLIP_REJECT l)).frameReject (s.ln l).txFn (s.flipFrame l) := by
  have hok : s.flipOk l = true ↔ ¬ (s.flipFrame l < (s.ln l).txFn + 64 ∨ s.flipFrame l % 64 ≠ 0 ∨ s.flipTo l = false ∨ (s.lcy l).flip.isSome = true) := by
    simp only [State.flipOk, Bool.and_eq_true, decide_eq_true_eq, beq_iff_eq, Option.isNone_iff_eq_none, not_or, Nat.not_lt, not_not,
      Bool.not_eq_false, Option.isSome_iff_ne_none, and_assoc]
  unfold State.flipArm
  rw [← State.flipFrame, ← State.flipTo]
  by_cases h : s.flipOk l = true
  · rw [if_neg (hok.1 h), if_pos h]
  · rw [if_pos (not_not.1 (mt hok.2 h)), if_neg h]

theorem State.effect_flipCtl (s : State) (l : Fin 2) (old : Word) (h : s.bit (Reg.LCY_FLIP_CTL.ARM l) = true) :
    s.effect (Reg.LCY_FLIP_CTL l) old = s.flipArm l := by
  rw [State.effect_line s l old (by decide) (by decide), State.lineEffect, if_neg (by decide), if_pos rfl, if_pos h]

section Arm

variable {s : State} {l : Fin 2} {v : Word} (h : s.live) (ht : s.takes (Reg.LCY_FLIP_CTL l) v.toNat)
  (ha : (s.stored (Reg.LCY_FLIP_CTL l) v.toNat).bit (Reg.LCY_FLIP_CTL.ARM l) = true)
include h ht ha

theorem flipArm_arms (hok : (s.stored (Reg.LCY_FLIP_CTL l) v.toNat).flipOk l = true) : Completes (.flipArm l v) s fun t =>
    (t.lcy l).flip = some ((s.stored (Reg.LCY_FLIP_CTL l) v.toNat).flipFrame l) ∧ t.bit (Reg.LCY_FLIP_CTL.ARM l) = true := by
  have e := (State.effect_flipCtl _ l (s.reg (Reg.LCY_FLIP_CTL l)) ha).trans ((State.flipArm_eq _ _).trans (if_pos hok))
  refine completes_write rfl h ht e fun t hs hb => ⟨?_, hb _ rfl (lcyRegs_beside l).2.2.2.2.2 ?_⟩
  · rw [State.lcy_of_rest hs.1, State.lcy_accepted, State.lcy_setFld, State.lcy_modLcy]
  · exact (State.bit_congr _ _ _ (State.reg_modLn _ _ _ _)).trans (State.bit_setFld _ _ rfl (by decide : 0 < 32))

theorem flipArm_rejects (hok : (s.stored (Reg.LCY_FLIP_CTL l) v.toNat).flipOk l = false) : Completes (.flipArm l v) s fun t =>
    (t.lcy l).flip = ((s.stored (Reg.LCY_FLIP_CTL l) v.toNat).lcy l).flip ∧ t.bit (Reg.LCY_EVENT.FLIP_REJECT l) = true := by
  have e := (State.effect_flipCtl _ l (s.reg (Reg.LCY_FLIP_CTL l)) ha).trans ((State.flipArm_eq _ _).trans (if_neg (Bool.eq_false_iff.1 hok)))
  refine completes_write rfl h ht e fun t hs hb => ⟨?_, hb _ rfl (lcyRegs_beside l).2.2.2.2.1 ?_⟩
  · rw [State.lcy_of_rest (hs.1.trans (State.rest_frameReject _ _ _)), State.lcy_raise, State.lcy_setFld]
  · exact State.bit_raiseIf_mono _ _ _ _ rfl (by decide) rfl (State.bit_raise _ _ rfl (by decide : 1 < 32))

end Arm

/-! ### Rotation (R142) -/

/-- Whether the active key's time is up, and whether a flip can then be armed. -/
def State.rotTime (s : State) (l : Nat) : Bool := s.bit (Reg.LCY_CTL.AUTO_ROT l) &&
  decide (max (s.lcy l).rotNext (s.fld (Reg.LCY_CTL.ROT_HOURS l) * hourTicks) ≤ (s.lcy l).inForce)
def State.rotCan (s : State) (l : Nat) : Bool :=
  s.keyValid (Reg.LCY_TX_KEY l) (1 - (s.lcy l).txPhase) && (s.lcy l).flip.isNone && (s.lcy l).rotNext == 0

/-- The flip that rotation arms, and the reminder that it leaves where it cannot. -/
def State.rotFlips (s : State) (l : Nat) : State :=
  ((s.modLcy l fun y => { y with flip := some (((s.ln l).txFn + 64 + 63) / 64 * 64), rotNext := (s.lcy l).inForce + hourTicks }).setFld
    (Reg.LCY_FLIP_CTL.ARM l) 1).accepted l 2
def State.rotReminds (s : State) (l : Nat) : State :=
  (s.modLcy l fun y => { y with rotNext := (s.lcy l).inForce + hourTicks }).raise (Reg.LCY_EVENT.ROT_DUE l)

theorem State.rotDue_eq (s : State) (l : Nat) : s.rotDue l = if s.rotTime l then (if s.rotCan l then s.rotFlips l else s.rotReminds l) else s := by
  have hd : s.rotTime l = true ↔ ¬ (s.bit (Reg.LCY_CTL.AUTO_ROT l) = false ∨
      (s.lcy l).inForce < max (s.lcy l).rotNext (s.fld (Reg.LCY_CTL.ROT_HOURS l) * hourTicks)) := by
    simp only [State.rotTime, Bool.and_eq_true, decide_eq_true_eq, not_or, Nat.not_lt, Bool.not_eq_false]
  have hc : s.rotCan l = true ↔ (s.lcy l).rotNext = 0 ∧ s.keyValid (Reg.LCY_TX_KEY l) (1 - (s.lcy l).txPhase) = true ∧ (s.lcy l).flip = none := by
    simp only [State.rotCan, Bool.and_eq_true, beq_iff_eq, Option.isNone_iff_eq_none]
    exact and_comm
  unfold State.rotDue
  dsimp only
  by_cases h : s.rotTime l = true
  · rw [if_neg (hd.1 h), if_pos h]
    exact if_congr hc.symm rfl rfl
  · rw [if_pos (not_not.1 (mt hd.2 h)), if_neg h]

section Rotation

variable {s : State} (l : Fin 2) (h : s.working)
include h

theorem rotDue_flips (hd : s.rotTime l = true) (hc : s.rotCan l = true) : Completes (.rotDue l) s fun t =>
    (t.lcy l).flip = some (((s.ln l).txFn + 64 + 63) / 64 * 64) ∧ (t.lcy l).rotNext = (s.lcy l).inForce + hourTicks ∧
      t.bit (Reg.LCY_FLIP_CTL.ARM l) = true := by
  have e : s.cleared.rotDue l = s.cleared.rotFlips l := (s.cleared.rotDue_eq l).trans ((if_pos hd).trans (if_pos hc))
  refine completes_tick rfl h e fun t hl _ hr => ?_
  have hx : t.lcy l = _ := State.lcy_congr (hl l)
  rw [hx, State.rotFlips, State.lcy_accepted, State.lcy_setFld, State.lcy_modLcy]
  refine ⟨rfl, rfl, (State.bit_congr _ _ _ ((hr _ (lcyRegs_beside l).2.1).trans (State.reg_modLn _ _ _ _))).trans ?_⟩
  exact State.bit_setFld _ _ rfl (by decide : 0 < 32)

theorem rotDue_reminds (hd : s.rotTime l = true) (hc : s.rotCan l = false) : Completes (.rotDue l) s fun t =>
    (t.lcy l).flip = (s.lcy l).flip ∧ (t.lcy l).txPhase = (s.lcy l).txPhase ∧ (t.lcy l).rotNext = (s.lcy l).inForce + hourTicks ∧
      t.bit (Reg.LCY_EVENT.ROT_DUE l) = true := by
  have e : s.cleared.rotDue l = s.cleared.rotReminds l := (s.cleared.rotDue_eq l).trans ((if_pos hd).trans (if_neg (Bool.eq_false_iff.1 hc)))
  refine completes_tick rfl h e fun t hl _ hr => ?_
  have hx : t.lcy l = _ := State.lcy_congr (hl l)
  rw [hx, State.rotReminds, State.lcy_raise, State.lcy_modLcy]
  exact ⟨rfl, rfl, rfl, (State.bit_congr _ _ _ (hr _ (lcyRegs_beside l).1)).trans (State.bit_raise _ _ rfl (by decide : 2 < 32))⟩

theorem rotDue_waits (hd : s.rotTime l = false) : Completes (.rotDue l) s fun t => s.sameBut t faultRegs :=
  completes_tick_idle rfl h ((s.cleared.rotDue_eq l).trans (if_neg (Bool.eq_false_iff.1 hd)))

end Rotation

/-- Settles O27: the limits by the marks they set, a flip by the checks of R140, a rotation by whether its time is up and it can flip. -/
theorem keyPhases : Obligations.KeyPhases := by
  unfold Obligations.KeyPhases
  intro s l
  refine ⟨fun h => ?_, fun v u h ht hu ha => ?_, fun h => ⟨rotDue_flips l h, rotDue_reminds l h, rotDue_waits l h⟩⟩
  · rw [State.lcy_modLcy]
    obtain ⟨t, he, hl, hq⟩ := keyAgeLimit_marks l h
    exact ⟨t, he, hl.symm, hq⟩
  · subst hu
    exact ⟨flipArm_arms h ht ha, flipArm_rejects h ht ha⟩

end Sys2Proof.Machine
end

section
/-! SUPPORT. The epoch search's ends; the cipher pipelines' rotation and test (R149, R150, R152, R153). -/

namespace Sys2Proof.Machine

open Sys2Proof

/-! ### The search's ends (R149, R150) -/

/-- The candidate that a search has come to. -/
def State.candidate (s : State) (l : Nat) (r : Search) : Nat := ((s.lcy l).rxEpoch + r.done) % 2 ^ 32

/-- The match that a search has come to is taken up. -/
def State.epochTaken (s : State) (l e : Nat) : State :=
  ((s.modLcy l fun y => { y with search := none, rxNext := some (e, s.tick + 1), fails := 0, lastFail := none }).publishReg (Reg.LCY_RX_EPOCH l) e).raise
    (Reg.LCY_EVENT.EPOCH_FOUND l)

/-- A search that has failed is given up. -/
def State.searchLost (s : State) (l : Nat) : State :=
  (s.modLcy l fun y => { y with search := none, lastFail := none }).raise (Reg.LCY_EVENT.EPOCH_NOT_FOUND l)

theorem State.epochFound_none (s : State) (l : Nat) (h : (s.lcy l).search = none) : s.epochFound l = s := by
  unfold State.epochFound
  rw [h]

theorem State.epochMissed_none (s : State) (l : Nat) (h : (s.lcy l).search = none) : s.epochMissed l = s := by
  unfold State.epochMissed
  rw [h]

theorem State.epochFound_some (s : State) (l : Nat) {r : Search} (h : (s.lcy l).search = some r) : s.epochFound l =
    if r.done = 0 ∨ s.epochHit r (s.candidate l r) = false then s else s.epochTaken l (s.candidate l r) := by
  unfold State.epochFound
  rw [h]
  rfl

theorem State.epochMissed_some (s : State) (l : Nat) {r : Search} (h : (s.lcy l).search = some r) : s.epochMissed l =
    if r.done < 2 ^ 32 - 1 ∨ s.epochHit r (s.candidate l r) = true then s else s.searchLost l := by
  unfold State.epochMissed
  rw [h]
  rfl

theorem State.lcy_epochTaken (s : State) (l e : Nat) : (s.epochTaken l e).lcy l =
    { s.lcy l with search := none, rxNext := some (e, s.tick + 1), fails := 0, lastFail := none } :=
  (State.lcy_raise _ _ _).trans (s.lcy_modLcy l _)

theorem State.nextFld_epochTaken (s : State) (l : Fin 2) (e : Nat) : (s.epochTaken l e).nextFld (Reg.LCY_RX_EPOCH.EPOCH l) = e :=
  (State.nextFld_raiseAt_ne _ _ _ 0 (by simp) (by simp only [Reg.LCY_RX_EPOCH, Reg.FLT_EVENT]; omega)).trans (State.nextFld_publish _ _ e)

theorem State.lcy_searchLost (s : State) (l : Nat) : (s.searchLost l).lcy l = { s.lcy l with search := none, lastFail := none } :=
  (State.lcy_raise _ _ _).trans (s.lcy_modLcy l _)

/-! ### The search's commands -/

section Search

variable {s : State} {l : Fin 2} {r : Search} (h : s.working) (hr : (s.lcy l).search = some r)
include h hr

theorem epochFound_takes (hd : r.done ≠ 0) (hh : s.epochHit r (s.candidate l r) = true) : Completes (.epochFound l) s fun t =>
    (t.lcy l).search = none ∧ (t.lcy l).rxNext = some (s.candidate l r, s.tick + 1) ∧ t.bit (Reg.LCY_EVENT.EPOCH_FOUND l) = true ∧
      t.nextFld (Reg.LCY_RX_EPOCH.EPOCH l) = s.candidate l r := by
  have e : s.cleared.epochFound l = s.cleared.epochTaken l (s.candidate l r) :=
    (s.cleared.epochFound_some l hr).trans (if_neg fun hn => hn.elim hd (Bool.eq_false_iff.1 · hh))
  obtain ⟨hev, -, hep, -⟩ := lcyRegs_beside l
  refine completes_tick rfl h e fun t hl hq hreg => ?_
  rw [State.lcy_congr (hl l), State.lcy_epochTaken]
  refine ⟨rfl, rfl, (State.bit_congr _ _ _ (hreg _ hev)).trans (State.bit_raise _ _ rfl (by decide : 7 < 32)), ?_⟩
  exact (State.nextFld_congr _ hq (hreg _ hep)).trans (State.nextFld_epochTaken _ l _)

theorem epochFound_waits (hn : r.done = 0 ∨ s.epochHit r (s.candidate l r) = false) : Completes (.epochFound l) s fun t => s.sameBut t faultRegs :=
  completes_tick_idle rfl h ((s.cleared.epochFound_some l hr).trans (if_pos hn))

theorem epochNotFound_ends (hd : 2 ^ 32 - 1 ≤ r.done) (hh : s.epochHit r (s.candidate l r) = false) : Completes (.epochNotFound l) s fun t =>
    (t.lcy l).search = none ∧ (t.lcy l).rxEpoch = (s.lcy l).rxEpoch ∧ t.bit (Reg.LCY_EVENT.EPOCH_NOT_FOUND l) = true := by
  have e : s.cleared.epochMissed l = s.cleared.searchLost l :=
    (s.cleared.epochMissed_some l hr).trans (if_neg fun hn => hn.elim (Nat.not_lt.2 hd) (Bool.eq_false_iff.1 hh))
  refine completes_tick rfl h e fun t hl _ hreg => ?_
  rw [State.lcy_congr (hl l), State.lcy_searchLost]
  exact ⟨rfl, rfl, (State.bit_congr _ _ _ (hreg _ (lcyRegs_beside l).1)).trans (State.bit_raise _ _ rfl (by decide : 8 < 32))⟩

theorem epochNotFound_waits (hn : r.done < 2 ^ 32 - 1 ∨ s.epochHit r (s.candidate l r) = true) :
    Completes (.epochNotFound l) s fun t => s.sameBut t faultRegs :=
  completes_tick_idle rfl h ((s.cleared.epochMissed_some l hr).trans (if_pos hn))

end Search

theorem State.effect_rxEpoch (s : State) (l : Fin 2) (old : Word) : s.effect (Reg.LCY_RX_EPOCH l) old = s.rxEpochSet l := by
  rw [State.effect_line s l old (by decide) (by decide), State.lineEffect, if_neg (by decide), if_neg (by decide), if_pos rfl]

theorem rxEpochWrite_sets {s : State} {l : Fin 2} {v : Word} (h : s.live) (ht : s.takes (Reg.LCY_RX_EPOCH l) v.toNat) :
    Completes (.rxEpochWrite l v) s fun t => (t.lcy l).search = none ∧
      (t.lcy l).rxNext = some (((s.stored (Reg.LCY_RX_EPOCH l) v.toNat).reg (Reg.LCY_RX_EPOCH l)).toNat, 0) := by
  refine completes_write rfl h ht (State.effect_rxEpoch _ l _) fun t hs _ => ?_
  rw [State.lcy_of_rest hs.1, State.rxEpochSet, State.lcy_modLcy]
  exact ⟨rfl, rfl⟩

/-- Settles O28: a match and a search that has tried all by what they leave of the line's cipher, software's far epoch by its write. -/
theorem epochSearch : Obligations.EpochSearch := by
  unfold Obligations.EpochSearch
  intro s l
  exact ⟨fun r h hr => ⟨epochFound_takes h hr, epochFound_waits h hr, epochNotFound_ends h hr, epochNotFound_waits h hr⟩,
    fun h hn => ⟨completes_tick_idle rfl h (s.cleared.epochFound_none l hn), completes_tick_idle rfl h (s.cleared.epochMissed_none l hn)⟩,
    fun v => rxEpochWrite_sets⟩

/-! ### The pipelines (R152, R153) -/

/-- The cipher once the rotation has moved on from pipeline `i`. -/
def LcySt.pipeNext (failed tick i : Nat) (x : LcySt) : LcySt := { x with out := nextPipe failed i, outAt := tick, tested := false }

/-- The rotation moves on from pipeline `i`; a pipeline that has failed its test is marked and reported. -/
def State.pipeNext (s : State) (l i : Nat) : State :=
  s.modLcy l (LcySt.pipeNext (s.reg (Reg.LCY_PIPE_FAIL l)).toNat s.tick i)
def State.pipeMarked (s : State) (l i : Nat) : State := (s.setFld ⟨Reg.LCY_PIPE_FAIL l, i, i⟩ 1).modLcy l fun y => { y with out := none }
def State.pipeTold (s : State) (l i : Nat) : State :=
  ((s.raiseOwn (Reg.LCY_EVENT.PIPE_FAIL l)).queueRec 0x000C 2 (21 + 8 * l) [BitVec.ofNat 8 l, BitVec.ofNat 8 i]).logRepair (21 + 8 * l) 0x0006 2
    [BitVec.ofNat 8 l, BitVec.ofNat 8 i]
def State.pipeLost (s : State) (l i : Nat) : State :=
  { (s.pipeMarked l i).pipeTold l i with poolQ := ((s.pipeMarked l i).pipeTold l i).poolQ ++ [(4, 4 + 256 * l)] }

theorem State.pipeRotate_some (s : State) (l : Nat) {i : Nat} (h : (s.lcy l).out = some i) : s.pipeRotate l =
    if s.tick < (s.lcy l).outAt + 50 ∨ (s.lcy l).tested = false then s else s.pipeNext l i := by
  unfold State.pipeRotate
  dsimp only
  rw [h]
  rfl

theorem State.pipeTest_some (s : State) (l : Nat) (pass : Bool) {i : Nat} (h : (s.lcy l).out = some i) : s.pipeTest l pass =
    if s.tick < (s.lcy l).outAt + 2 ∨ (s.lcy l).tested = true then s
    else if pass then s.modLcy l fun y => { y with tested := true } else s.pipeLost l i := by
  unfold State.pipeTest
  dsimp only
  rw [h]
  rfl

theorem State.ln_logRepair (s : State) (src kind st : Nat) (loc : List Byte) (l : Nat) : (s.logRepair src kind st loc).ln l = s.ln l :=
  State.ln_of_outer (s.outer_logRepair src kind st loc) l

theorem State.lcy_withPoolQ (s : State) (q : List (Nat × Nat)) (l : Nat) : ({ s with poolQ := q } : State).lcy l = s.lcy l := rfl
theorem State.bit_withPoolQ (s : State) (q : List (Nat × Nat)) (g : Fr) : ({ s with poolQ := q } : State).bit g = s.bit g := rfl

theorem State.pipeMarked_leaves (s : State) (l i : Nat) : ((s.pipeMarked l i).lcy l).out = none ∧
    (i < 18 → (s.pipeMarked l i).bit ⟨Reg.LCY_PIPE_FAIL l, i, i⟩ = true) := by
  refine ⟨congrArg LcySt.out (State.lcy_modLcy _ _ _), fun hi => ?_⟩
  exact (State.bit_congr _ _ _ (State.reg_modLcy _ _ _ _)).trans (State.bit_setFld _ _ rfl (Nat.lt_trans hi (by decide)))

/-- Telling of a failed pipeline leaves its line and every bit that is 1, and raises PIPE_FAIL. -/
theorem State.pipeTold_leaves (s : State) (l i : Nat) : (s.pipeTold l i).lcy l = s.lcy l ∧
    (∀ g : Fr, g.lo = g.hi → s.bit g = true → (s.pipeTold l i).bit g = true) ∧ (s.pipeTold l i).bit (Reg.LCY_EVENT.PIPE_FAIL l) = true := by
  have told (g : Fr) (hl : g.lo = g.hi) (hg : (s.raiseOwn (Reg.LCY_EVENT.PIPE_FAIL l)).bit g = true) : (s.pipeTold l i).bit g = true :=
    State.bit_logRepair _ _ _ _ _ g hl (State.bit_queueRec _ _ _ _ _ g hl hg)
  refine ⟨State.lcy_congr ((State.ln_logRepair _ _ _ _ _ _).trans (State.ln_of_rest ((State.rest_queueRec _ _ _ _ _).trans (State.rest_raiseOwn _ _)) l)),
    fun g hl hg => told g hl (State.bit_raiseOwn_mono _ _ g rfl (by decide : 9 < 32) hl hg), told _ rfl (State.bit_raiseOwn _ _ rfl (by decide : 9 < 32))⟩

theorem State.pipeLost_leaves (s : State) (l i : Nat) : ((s.pipeLost l i).lcy l).out = none ∧
    (i < 18 → (s.pipeLost l i).bit ⟨Reg.LCY_PIPE_FAIL l, i, i⟩ = true) ∧ (s.pipeLost l i).bit (Reg.LCY_EVENT.PIPE_FAIL l) = true := by
  obtain ⟨hout, hmark⟩ := s.pipeMarked_leaves l i
  obtain ⟨hl, hb, he⟩ := (s.pipeMarked l i).pipeTold_leaves l i
  unfold State.pipeLost
  refine ⟨?_, fun hi => ?_, ?_⟩
  · rw [State.lcy_withPoolQ, hl, hout]
  · rw [State.bit_withPoolQ, hb _ rfl (hmark hi)]
  · rw [State.bit_withPoolQ, he]

theorem State.Counted.modLcy {s t : State} (l : Nat) (f : LcySt → LcySt) (h : s.Counted t) : (s.modLcy l f).Counted (t.modLcy l f) := h.modLn l _

section Pipelines

variable {s : State} {l : Fin 2} {i : Nat} (hi : (s.lcy l).out = some i)
include hi

theorem pipelineRotate_moves (h : s.clocked) (ht : (s.lcy l).outAt + 50 ≤ s.tick) (hp : (s.lcy l).tested = true) :
    Completes (.pipelineRotate l) s fun t => (s.pipeNext l i).sameBut t wrapRegs :=
  completes_sameBut rfl h ((s.cleared.pipeRotate_some l hi).trans (if_neg fun hn => hn.elim (Nat.not_lt.2 ht) (Bool.eq_false_iff.1 · hp)))
    ((State.Counted.cleared s).modLcy l (LcySt.pipeNext (s.reg (Reg.LCY_PIPE_FAIL l)).toNat s.tick i)) (State.modLcy_pending _ _ _)

theorem pipelineRotate_waits (h : s.clocked) (hn : s.tick < (s.lcy l).outAt + 50 ∨ (s.lcy l).tested = false) :
    Completes (.pipelineRotate l) s fun t => s.sameBut t wrapRegs :=
  completes_idle rfl h ((s.cleared.pipeRotate_some l hi).trans (if_pos hn))

section Tested

variable (ht : (s.lcy l).outAt + 2 ≤ s.tick) (hp : (s.lcy l).tested = false)
include ht hp

/-- A test that is due ends as its outcome says. -/
theorem State.pipeTest_due (pass : Bool) : s.cleared.pipeTest l pass =
    if pass then s.cleared.modLcy l fun y => { y with tested := true } else s.cleared.pipeLost l i :=
  (s.cleared.pipeTest_some l pass hi).trans (if_neg fun hn => hn.elim (Nat.not_lt.2 ht) (Bool.eq_false_iff.1 hp))

theorem pipeFail_passes (h : s.working) : Completes (.pipeFail l true) s fun t => (s.modLcy l fun y => { y with tested := true }).sameBut t faultRegs := by
  have e : s.cleared.pipeTest l true = _ := (State.pipeTest_due hi ht hp true).trans (if_pos rfl)
  refine completes_live rfl h.2 (s.sameBut_cmdTick _ _ _ h.1 ?_ (State.modLcy_pending _ _ _) fun off ho => ⟨ho, ?_⟩)
  · exact (congrArg State.rest e).trans ((State.Counted.cleared s).modLcy l _).rest
  · exact (congrArg (State.reg · off) e).trans (((State.Counted.cleared s).modLcy l _).reg off)

theorem pipeFail_fails (h : s.working) : Completes (.pipeFail l false) s fun t => (t.lcy l).out = none ∧ (i < 18 → t.bit ⟨Reg.LCY_PIPE_FAIL l, i, i⟩ = true) ∧
    t.bit (Reg.LCY_EVENT.PIPE_FAIL l) = true := by
  have e : s.cleared.pipeTest l false = s.cleared.pipeLost l i := (State.pipeTest_due hi ht hp false).trans (if_neg Bool.false_ne_true)
  obtain ⟨hout, hmark, hev⟩ := s.cleared.pipeLost_leaves l i
  obtain ⟨he, -, -, hf, -⟩ := lcyRegs_beside l
  refine completes_tick rfl h e fun t hl _ hreg => ⟨(congrArg LcySt.out (State.lcy_congr (hl l))).trans hout, fun h18 => ?_, ?_⟩
  · exact (State.bit_congr _ _ _ (hreg _ hf)).trans (hmark h18)
  · exact (State.bit_congr _ _ _ (hreg _ he)).trans hev

end Tested

theorem pipeFail_waits (pass : Bool) (h : s.working) (hn : s.tick < (s.lcy l).outAt + 2 ∨ (s.lcy l).tested = true) :
    Completes (.pipeFail l pass) s fun t => s.sameBut t faultRegs :=
  completes_tick_idle rfl h ((s.cleared.pipeTest_some l pass hi).trans (if_pos hn))

end Pipelines

/-- Settles O29: the rotation and the test of the pipeline that is out, each when it is due and when it is not. -/
theorem pipelineRotation : Obligations.PipelineRotation := by
  unfold Obligations.PipelineRotation
  intro s l i hi
  exact ⟨pipelineRotate_moves hi, pipelineRotate_waits hi, fun h ht hp => ⟨pipeFail_passes hi ht hp h, pipeFail_fails hi ht hp h⟩,
    fun pass => pipeFail_waits hi pass⟩

end Sys2Proof.Machine
end

section
/-! SUPPORT. Key slots: what a write of CPH_KEY_LOAD asks for, and what loading and clearing leave (R156-R158). -/

namespace Sys2Proof.Machine

open Sys2Proof

/-! ### The word that asks (R157, R158) -/

/-- A store without an override leaves the written word. -/
theorem State.reg_stored (s : State) (off v : Nat) (h : overrides off (s.reg off) (writtenWord off (s.reg off) (half v 0)) = false) :
    (s.stored off v).reg off = writtenWord off (s.reg off) (half v 0) := by
  obtain ⟨c, e⟩ := s.cleared.store_plain off (half v 0) h
  rw [State.stored, e]
  exact (State.reg_dueShadow _ _ _).trans (State.reg_setReg_self _ _ _)

theorem regFlds_keyLoad : regFlds Reg.CPH_KEY_LOAD = [fA 5 0 .wo 0, fA 10 8 .wo 0, fA 11 11 .wo 0, fA 12 12 .wo 0] := by decide +kernel

/-- A word stored in CPH_KEY_LOAD shows the fields written. -/
theorem getBits_writtenWord_keyLoad (old w : Word) : ∀ f ∈ [(5, 0), (10, 8), (11, 11), (12, 12)],
    getBits (writtenWord Reg.CPH_KEY_LOAD old w) f.1 f.2 = getBits w f.1 f.2 := by
  rw [writtenWord, regFlds_keyLoad]
  simp only [List.foldl_cons, List.foldl_nil, fA, List.forall_mem_cons, List.not_mem_nil, false_implies, implies_true, and_true]
  refine ⟨?_, ?_, ?_, ?_⟩
  · rw [getBits_setBits_ne _ _ _ _ _ _ (by decide) (by decide) (by decide), getBits_setBits_ne _ _ _ _ _ _ (by decide) (by decide) (by decide),
      getBits_setBits_ne _ _ _ _ _ _ (by decide) (by decide) (by decide), getBits_setBits _ _ _ _ (by decide) (by decide)]
    exact Nat.mod_eq_of_lt (getBits_lt w 5 0)
  · rw [getBits_setBits_ne _ _ _ _ _ _ (by decide) (by decide) (by decide), getBits_setBits_ne _ _ _ _ _ _ (by decide) (by decide) (by decide),
      getBits_setBits _ _ _ _ (by decide) (by decide)]
    exact Nat.mod_eq_of_lt (getBits_lt w 10 8)
  · rw [getBits_setBits_ne _ _ _ _ _ _ (by decide) (by decide) (by decide), getBits_setBits _ _ _ _ (by decide) (by decide)]
    exact Nat.mod_eq_of_lt (getBits_lt w 11 11)
  · rw [getBits_setBits _ _ _ _ (by decide) (by decide)]
    exact Nat.mod_eq_of_lt (getBits_lt w 12 12)

/-- The fields of a word asking for slot `k`, usage `u`, GO and ZERO. -/
theorem keyWord_fields (k : Fin 64) (u : Fin 8) (go zero : Fin 2) : let w := half (k + 2 ^ 8 * u + 2 ^ 11 * go + 2 ^ 12 * zero) 0
    getBits w 5 0 = k ∧ getBits w 10 8 = u ∧ getBits w 11 11 = go ∧ getBits w 12 12 = zero := by
  have hk := k.isLt
  have hu := u.isLt
  have hg := go.isLt
  have hz := zero.isLt
  have hw : (half (k + 2 ^ 8 * u + 2 ^ 11 * go + 2 ^ 12 * zero) 0).toNat = k + 256 * u + 2048 * go + 4096 * zero := by
    rw [half, BitVec.toNat_ofNat]
    omega
  simp only [getBits, hw, Nat.shiftRight_eq_div_pow]
  omega

section Asked

variable (s : State) (k : Fin 64) (u : Fin 8) (go zero : Fin 2) {v : Nat} (hv : v = k + 2 ^ 8 * u + 2 ^ 11 * go + 2 ^ 12 * zero)
include hv

theorem State.keyLoad_stored : (s.stored Reg.CPH_KEY_LOAD v).fld Reg.CPH_KEY_LOAD.SLOT = k ∧ (s.stored Reg.CPH_KEY_LOAD v).fld Reg.CPH_KEY_LOAD.USAGE = u ∧
    (s.stored Reg.CPH_KEY_LOAD v).fld Reg.CPH_KEY_LOAD.GO = go ∧ (s.stored Reg.CPH_KEY_LOAD v).fld Reg.CPH_KEY_LOAD.ZERO = zero := by
  have hr := s.reg_stored Reg.CPH_KEY_LOAD v (by rw [overrides, regFlds_keyLoad]; rfl)
  have hf := getBits_writtenWord_keyLoad (s.reg Reg.CPH_KEY_LOAD) (half v 0)
  simp only [List.forall_mem_cons, List.not_mem_nil, false_implies, implies_true, and_true] at hf
  obtain ⟨h1, h2, h3, h4⟩ := hf
  obtain ⟨w1, w2, w3, w4⟩ := keyWord_fields k u go zero
  rw [← hv] at w1 w2 w3 w4
  unfold State.fld
  rw [hr]
  exact ⟨h1.trans w1, h2.trans w2, h3.trans w3, h4.trans w4⟩

/-- A taken write of CPH_KEY_LOAD with GO or ZERO runs the load, or the clear, once the register reads zero again. -/
theorem State.taken_keyLoad (hgo : go = 1 ∨ zero = 1) : s.taken Reg.CPH_KEY_LOAD v =
    ((s.stored Reg.CPH_KEY_LOAD v).setReg Reg.CPH_KEY_LOAD 0).keyLoad k u (go == 0) := by
  obtain ⟨h1, h2, h3, h4⟩ := s.keyLoad_stored k u go zero hv
  have e : ∀ (x : State) (old : Word), x.effect Reg.CPH_KEY_LOAD old = if x.bit Reg.CPH_KEY_LOAD.GO || x.bit Reg.CPH_KEY_LOAD.ZERO then
      (x.setReg Reg.CPH_KEY_LOAD 0).keyLoad (x.fld Reg.CPH_KEY_LOAD.SLOT) (x.fld Reg.CPH_KEY_LOAD.USAGE) (!x.bit Reg.CPH_KEY_LOAD.GO)
      else x.setReg Reg.CPH_KEY_LOAD 0 := fun _ _ => rfl
  have hb : (s.stored Reg.CPH_KEY_LOAD v).bit Reg.CPH_KEY_LOAD.GO = (go == 1) ∧ (s.stored Reg.CPH_KEY_LOAD v).bit Reg.CPH_KEY_LOAD.ZERO = (zero == 1) := by
    rw [State.bit, State.bit, h3, h4]
    exact (by decide : ∀ a b : Fin 2, ((a : Nat) == 1) = (a == 1) ∧ ((b : Nat) == 1) = (b == 1)) go zero
  rw [State.taken, e, h1, h2, hb.1, hb.2, if_pos ((by decide : ∀ a b : Fin 2, a = 1 ∨ b = 1 → (a == 1 || b == 1) = true) go zero hgo),
    (by decide : ∀ a : Fin 2, (!(a == 1)) = (a == 0)) go]

end Asked

/-! ### Loading and clearing (R157, R158) -/

/-- Whether a slot may not be loaded or cleared: the image authentication's, a locked one, one in use. -/
def State.keyBarred (s : State) (k : Nat) : Bool := decide (k = 63) || s.bit (Reg.CPH_KEY_STATE.LOCKED k) || s.keyInUse k

theorem State.keyBarred_iff (s : State) (k : Nat) : s.keyBarred k = true ↔ k = 63 ∨ s.bit (Reg.CPH_KEY_STATE.LOCKED k) = true ∨ s.keyInUse k = true := by
  rw [State.keyBarred, Bool.or_eq_true, Bool.or_eq_true, decide_eq_true_eq, or_assoc]

/-- The code of a load (R157). -/
def State.loadCode (s : State) (k usage : Nat) (w : List Byte) : Nat :=
  if s.keyBarred k then 3 else if usage = 0 ∨ 4 < usage then 4 else if (keyUnwrap s.fuses.kek w).isNone then 2 else 0

/-- The slot filled with a key and its usage. -/
def State.keyFilled (s : State) (k usage : Nat) (v : List Byte) : State := (s.setKey k v).setFld (Reg.CPH_KEY_STATE.USAGE k) usage

theorem State.loadKey_cases (s : State) (k usage : Nat) (w : List Byte) :
    (s.loadCode k usage w ≠ 0 ∧ s.loadKey k usage w = (s.loadCode k usage w, s)) ∨
    (s.loadCode k usage w = 0 ∧ ∃ v, keyUnwrap s.fuses.kek w = some v ∧ s.loadKey k usage w = (0, s.keyFilled k usage v)) := by
  unfold State.loadCode State.loadKey
  by_cases hb : s.keyBarred k = true
  · rw [if_pos hb, if_pos ((s.keyBarred_iff k).1 hb)]
    exact .inl ⟨by decide, rfl⟩
  · rw [if_neg hb, if_neg (mt (s.keyBarred_iff k).2 hb)]
    by_cases hu : usage = 0 ∨ 4 < usage
    · rw [if_pos hu, if_pos hu]
      exact .inl ⟨by decide, rfl⟩
    · rw [if_neg hu, if_neg hu]
      cases hw : keyUnwrap s.fuses.kek w with
      | none => exact .inl ⟨by decide, rfl⟩
      | some v => exact .inr ⟨rfl, v, rfl, rfl⟩

theorem State.zeroKey_eq (s : State) (k : Nat) : s.zeroKey k = if s.keyBarred k then (3, s) else (0, s.keyFilled k 0 []) :=
  if_congr (s.keyBarred_iff k).symm rfl rfl

theorem State.loadCode_lt (s : State) (k usage : Nat) (w : List Byte) : s.loadCode k usage w < 8 := by
  unfold State.loadCode
  split_ifs <;> decide

theorem keyState_beside {k : Nat} (hk : k < 64) : Reg.CPH_KEY_STATE k ∉ wrapRegs ∧ (∀ w, Reg.CPH_KEY_WRAP w ≠ Reg.CPH_KEY_STATE k) ∧
    Reg.CPH_KEY_RESULT ≠ Reg.CPH_KEY_STATE k ∧ Reg.CPH_KEY_STATE k ≠ Reg.CPH_EVENT ∧ Reg.CPH_KEY_STATE k ≠ Reg.FLT_EVENT := by
  simp only [wrapRegs, List.mem_cons, List.not_mem_nil, or_false, Reg.CPH_KEY_STATE, Reg.CPH_KEY_WRAP, Reg.CPH_KEY_RESULT, Reg.CPH_EVENT,
    Reg.FLT_EVENT, Reg.PMC_EVENT, Reg.PMC_WRAP_LOG]
  refine ⟨?_, fun w => ?_, ?_, ?_, ?_⟩ <;> omega

theorem State.keyFilled_holds (s : State) (k usage : Nat) (hu : usage < 8) (v : List Byte) :
    (s.keyFilled k usage v).key k = v ∧ (s.keyFilled k usage v).keyUsage k = usage := by
  refine ⟨?_, (State.fld_setFld _ _ _ (Nat.zero_le 2) (by decide : 2 < 32)).trans (Nat.mod_eq_of_lt hu)⟩
  unfold State.key State.keyFilled
  simp only [State.setFld_frame]
  exact SMap.get_set_self noKey s.cph.keys k v

/-! ### The end of a load or clear -/

/-- Words cleared one after the other read zero, and the registers beside them as before. -/
theorem State.reg_clearWords (ws : List Nat) (s : State) (off : Nat) : (ws.foldl (fun s w => s.setReg (Reg.CPH_KEY_WRAP w) 0) s).reg off =
    if ∃ w ∈ ws, Reg.CPH_KEY_WRAP w = off then 0 else s.reg off := by
  induction ws generalizing s with
  | nil => simp
  | cons w ws ih =>
    rw [List.foldl_cons, ih, State.reg_setReg]
    simp only [List.exists_mem_cons_iff]
    by_cases hw : Reg.CPH_KEY_WRAP w = off
    · simp only [hw, true_or, if_true, ite_self]
    · simp only [hw, if_false, false_or]

theorem State.reg_clearWrap (s : State) {w : Nat} (hw : w < 10) : s.clearWrap.reg (Reg.CPH_KEY_WRAP w) = 0 :=
  (State.reg_clearWords _ s _).trans (if_pos ⟨w, List.mem_range.2 hw, rfl⟩)

theorem State.reg_clearWrap_ne (s : State) {off : Nat} (h : ∀ w, Reg.CPH_KEY_WRAP w ≠ off) : s.clearWrap.reg off = s.reg off :=
  (State.reg_clearWords _ s _).trans (if_neg fun ⟨w, _, hw⟩ => h w hw)

theorem State.rest_clearWrap (s : State) : s.clearWrap.rest = s.rest :=
  foldl_keeps State.rest _ (fun s _ => s.rest_setReg _ _) _ s

/-- What a load or a clear that answered `code` leaves of the state `s` it left. -/
def State.keyEnded (s : State) (code : Nat) : State :=
  (s.clearWrap.setFld Reg.CPH_KEY_RESULT.CODE code).raiseIf (code != 0) Reg.CPH_EVENT.KEY_LOAD_FAIL

theorem State.keyLoad_eq (s : State) (k usage : Nat) (zero : Bool) : s.keyLoad k usage zero =
    (if zero then s.zeroKey k else s.loadKey k usage s.wrapBytes).2.keyEnded (if zero then s.zeroKey k else s.loadKey k usage s.wrapBytes).1 := rfl

theorem State.rest_raiseIf (s : State) (c : Bool) (f : Fr) : (s.raiseIf c f).rest = s.rest := by
  unfold State.raiseIf
  split
  · exact s.rest_raise f
  · rfl

theorem State.cph_of_rest {s t : State} (h : t.rest = s.rest) : t.cph = s.cph := show t.rest.cph = s.rest.cph by rw [h]

theorem State.cph_keyEnded (s : State) (code : Nat) : (s.keyEnded code).cph = s.cph :=
  State.cph_of_rest ((State.rest_raiseIf _ _ _).trans ((State.rest_setFld _ _ _).trans s.rest_clearWrap))

theorem State.keyUsage_keyEnded (s : State) (code : Nat) {k : Nat} (hk : k < 64) : (s.keyEnded code).keyUsage k = s.keyUsage k := by
  obtain ⟨-, hw, hr, he, hf⟩ := keyState_beside hk
  exact State.fld_congr _ _ _ ((State.reg_raiseIf_ne _ _ _ he hf).trans ((State.reg_setFld_ne _ _ hr).trans (s.reg_clearWrap_ne hw)))

theorem State.keyEnded_shows (s : State) {code : Nat} (hc : code < 8) : (s.keyEnded code).fld Reg.CPH_KEY_RESULT.CODE = code ∧
    (∀ w, w < 10 → (s.keyEnded code).reg (Reg.CPH_KEY_WRAP w) = 0) ∧ (code ≠ 0 → (s.keyEnded code).bit Reg.CPH_EVENT.KEY_LOAD_FAIL = true) := by
  refine ⟨?_, fun w hw => ?_, fun hn => ?_⟩
  · rw [State.keyEnded, State.fld_congr _ _ _ (State.reg_raiseIf_ne _ _ _ (by decide) (by decide)), State.fld_setFld _ _ _ (by decide) (by decide)]
    exact Nat.mod_eq_of_lt hc
  · have hn : Reg.CPH_KEY_WRAP w ≠ Reg.CPH_EVENT ∧ Reg.CPH_KEY_WRAP w ≠ Reg.FLT_EVENT ∧ Reg.CPH_KEY_RESULT ≠ Reg.CPH_KEY_WRAP w := by
      simp only [Reg.CPH_KEY_WRAP, Reg.CPH_EVENT, Reg.FLT_EVENT, Reg.CPH_KEY_RESULT]
      omega
    rw [State.keyEnded, State.reg_raiseIf_ne _ _ _ hn.1 hn.2.1, State.reg_setFld_ne _ _ hn.2.2, s.reg_clearWrap hw]
  · rw [State.keyEnded, State.raiseIf, if_pos (bne_iff_ne.2 hn)]
    exact State.bit_raise _ _ rfl (by decide)

/-! ### The commands -/

/-- A key command leaves what its load or clear, which ended in `w` with `code`, leaves. -/
theorem completes_key {c : Instr} {s w : State} {v code : Nat} {k : Fin 64} (hc : writeOf c = some (Reg.CPH_KEY_LOAD, v)) (h : s.live)
    (ht : s.takes Reg.CPH_KEY_LOAD v) (hw : s.taken Reg.CPH_KEY_LOAD v = w.keyEnded code) (hcode : code < 8) {P : State → Prop}
    (hP : ∀ t, t.fld Reg.CPH_KEY_RESULT.CODE = code → (∀ w, w < 10 → t.reg (Reg.CPH_KEY_WRAP w) = 0) → t.cph = w.cph →
      t.keyUsage k = w.keyUsage k → (code ≠ 0 → t.bit Reg.CPH_EVENT.KEY_LOAD_FAIL = true) → P t) : Completes c s P := by
  obtain ⟨hres, hwrap, hfail⟩ := w.keyEnded_shows hcode
  have wraps {i : Nat} (hi : i < 10) : Reg.CPH_KEY_WRAP i ∉ wrapRegs := by
    simp only [wrapRegs, List.mem_cons, List.not_mem_nil, or_false, Reg.CPH_KEY_WRAP, Reg.FLT_EVENT, Reg.PMC_EVENT, Reg.PMC_WRAP_LOG]
    omega
  refine completes_write hc h ht hw fun t hs hb => hP t ?_ (fun i hi => ?_) ?_ ?_ fun hn => hb _ rfl (by decide) (hfail hn)
  · exact (State.fld_congr _ _ _ (hs.2 _ (by decide))).trans hres
  · exact (hs.2 _ (wraps hi)).trans (hwrap i hi)
  · exact (State.cph_of_rest hs.1).trans (w.cph_keyEnded code)
  · exact (State.fld_congr _ _ _ (hs.2 _ (keyState_beside k.isLt).1)).trans (w.keyUsage_keyEnded code k.isLt)

section Keys

variable {s u : State} {k : Fin 64} (h : s.live)
include h

theorem keyLoad_completes (usage : Fin 8) (ht : s.takes Reg.CPH_KEY_LOAD (k + 2 ^ 8 * usage + 2 ^ 11))
    (hu : u = (s.stored Reg.CPH_KEY_LOAD (k + 2 ^ 8 * usage + 2 ^ 11)).setReg Reg.CPH_KEY_LOAD 0) : Completes (.keyLoad k usage) s fun t =>
      t.fld Reg.CPH_KEY_RESULT.CODE = u.loadCode k usage u.wrapBytes ∧ (∀ w, w < 10 → t.reg (Reg.CPH_KEY_WRAP w) = 0) ∧
      (u.loadCode k usage u.wrapBytes = 0 → some (t.key k) = keyUnwrap u.fuses.kek u.wrapBytes ∧ t.keyUsage k = usage) ∧
      (u.loadCode k usage u.wrapBytes ≠ 0 → t.cph.keys = u.cph.keys ∧ t.bit Reg.CPH_EVENT.KEY_LOAD_FAIL = true) := by
  have e := s.taken_keyLoad k usage 1 0 (v := k + 2 ^ 8 * usage + 2 ^ 11) rfl (.inl rfl)
  rw [← hu, State.keyLoad_eq] at e
  obtain ⟨hn, hl⟩ | ⟨h0, v, hv, hl⟩ := u.loadKey_cases k usage u.wrapBytes
  · replace e : s.taken Reg.CPH_KEY_LOAD (k + 2 ^ 8 * usage + 2 ^ 11) = u.keyEnded (u.loadCode k usage u.wrapBytes) := e.trans (by rw [if_neg (by decide), hl])
    refine completes_key (k := k) rfl h ht e (u.loadCode_lt k usage _) fun t hc hw hcph _ hf => ⟨hc, hw, fun h0 => absurd h0 hn, fun _ => ?_⟩
    exact ⟨congrArg CphSt.keys hcph, hf hn⟩
  · replace e : s.taken Reg.CPH_KEY_LOAD (k + 2 ^ 8 * usage + 2 ^ 11) = (u.keyFilled k usage v).keyEnded 0 := e.trans (by rw [if_neg (by decide), hl])
    obtain ⟨hkey, huse⟩ := u.keyFilled_holds k usage usage.isLt v
    refine completes_key (k := k) rfl h ht e (by decide) fun t hc hw hcph hus _ => ⟨hc.trans h0.symm, hw, fun _ => ⟨?_, hus.trans huse⟩, fun hn => absurd h0 hn⟩
    rw [hv, State.key, hcph]
    exact congrArg some hkey

theorem keyZero_completes (ht : s.takes Reg.CPH_KEY_LOAD (k + 2 ^ 12))
    (hu : u = (s.stored Reg.CPH_KEY_LOAD (k + 2 ^ 12)).setReg Reg.CPH_KEY_LOAD 0) : Completes (.keyZero k) s fun t =>
      t.fld Reg.CPH_KEY_RESULT.CODE = (if u.keyBarred k then 3 else 0) ∧
      (u.keyBarred k = false → t.key k = [] ∧ t.keyUsage k = 0) ∧ (u.keyBarred k = true → t.cph.keys = u.cph.keys) := by
  have e := s.taken_keyLoad k 0 0 1 (v := k + 2 ^ 12) rfl (.inr rfl)
  rw [← hu, State.keyLoad_eq, if_pos (by decide), u.zeroKey_eq] at e
  by_cases hb : u.keyBarred k = true
  · rw [if_pos hb] at e ⊢
    refine completes_key (code := 3) (k := k) rfl h ht e (by decide) fun t hc _ hcph _ _ => ⟨hc, fun hn => absurd hb (Bool.eq_false_iff.1 hn), fun _ => ?_⟩
    exact congrArg CphSt.keys hcph
  · rw [if_neg hb] at e ⊢
    obtain ⟨hkey, huse⟩ := u.keyFilled_holds k 0 (by decide) []
    refine completes_key (code := 0) (k := k) rfl h ht e (by decide) fun t hc _ hcph hus _ => ⟨hc, fun _ => ⟨?_, hus.trans huse⟩, fun hn => absurd hn hb⟩
    rw [State.key, hcph]
    exact hkey

end Keys

/-- Settles O30: a load by its code, the clear by whether the slot is barred; both end alike. -/
theorem keySlots : Obligations.KeySlots := by
  unfold Obligations.KeySlots
  intro s u k h
  exact ⟨fun usage ht hu => keyLoad_completes h usage ht hu, fun ht hu => keyZero_completes h ht hu⟩

end Sys2Proof.Machine
end

section
/-! SUPPORT. The cipher request engine: what it starts, what ends, DMA's answers, the known-answer test (R159, R160, R163, R374, R486). -/

namespace Sys2Proof.Machine

open Sys2Proof

/-! ### The engine's choice (R159) -/

/-- Whether the host ring has a descriptor to serve and its completion ring has room. -/
def State.hostWaits (s : State) : Bool :=
  s.bit Reg.CPH_HQ_CFG.EN && !(ringEmpty (s.fld Reg.CPH_HQ_WR.IDX % 2 ^ s.fld Reg.CPH_HQ_CFG.LOG2) (s.fld Reg.CPH_HQ_RD.IDX % 2 ^ s.fld Reg.CPH_HQ_CFG.LOG2)) &&
    !(ringFull (2 ^ s.fld Reg.CPH_HQ_CFG.LOG2) (s.fld Reg.CPH_HQ_CPL_WR.IDX) (s.fld Reg.CPH_HQ_CPL_RD.IDX))

theorem State.reqStart_busy (s : State) (h : s.cph.running.isSome = true ∨ s.cfgWaits ≠ 0) : s.reqStart = s := if_pos h

section Idle

variable (s : State) (hr : s.cph.running = none) (hc : s.cfgWaits = 0)
include hr hc

/-- The idle engine serves Rime's queue, then the known-answer test, then the host ring. -/
theorem State.reqStart_idle : s.reqStart = match s.cph.rimeQ with
    | q :: qs => { s with cph := { s.cph with rimeQ := qs, running := some { queue := 2, mode := 4, slot := q.slot, iv := q.mac, got := q.msg,
                                                                             rimeId := q.id, rimeSign := q.sign, len := q.made } } }
    | [] => if s.cph.kat then { s with cph := { s.cph with kat := false, running := some { queue := 3 } } }
      else if s.hostWaits then s.startHost else s := by
  unfold State.reqStart
  rw [if_neg (by rw [hr, hc]; decide)]
  cases s.cph.rimeQ <;> rfl

theorem State.reqStart_rime {q : RimeReq} {qs : List RimeReq} (hq : s.cph.rimeQ = q :: qs) : s.reqStart.cph.rimeQ = qs ∧
    ∃ r, s.reqStart.cph.running = some r ∧ r.queue = 2 ∧ r.slot = q.slot ∧ r.got = q.msg := by
  rw [s.reqStart_idle hr hc, hq]
  exact ⟨rfl, _, rfl, rfl, rfl, rfl⟩

variable (hq : s.cph.rimeQ = [])
include hq

theorem State.reqStart_kat (hk : s.cph.kat = true) : s.reqStart.cph.kat = false ∧ ∃ r, s.reqStart.cph.running = some r ∧ r.queue = 3 := by
  rw [s.reqStart_idle hr hc, hq]
  dsimp only
  rw [if_pos hk]
  exact ⟨rfl, _, rfl, rfl⟩

theorem State.reqStart_host (hk : s.cph.kat = false) : s.reqStart = if s.hostWaits then s.startHost else s := by
  rw [s.reqStart_idle hr hc, hq]
  exact if_neg (Bool.eq_false_iff.1 hk)

end Idle

theorem State.cph_dmaRead (s : State) (addr len : Nat) : (s.dmaRead addr len).cph = s.cph := by
  unfold State.dmaRead
  refine foldl_keeps State.cph _ (fun _ _ => ?_) _ s
  rfl

/-- A host request that starts runs, refused or not. -/
theorem State.startHost_runs (s : State) : ∃ r, s.startHost.cph.running = some r ∧ r.queue = 4 := by
  unfold State.startHost
  extract_lets size rd d r a st a0 iv b b0 c
  by_cases hst : st.isSome = true
  · rw [if_pos hst]
    exact ⟨_, rfl, rfl⟩
  · rw [if_neg hst]
    by_cases hh : r.srcHost = true
    · rw [if_pos hh]
      by_cases ho : c.dmaOpen = true
      · rw [if_pos ho, State.cph_dmaRead]
        exact ⟨_, rfl, rfl⟩
      · rw [if_neg ho]
        exact ⟨_, rfl, rfl⟩
    · rw [if_neg hh]
      exact ⟨_, rfl, rfl⟩

/-! ### The end of a host request (R163) -/

/-- The completion record leaves the engine idle. -/
theorem State.reqRecord_idle (s : State) (r : Req) (status outLen : Nat) (ivMac : List Byte) : (s.reqRecord r status outLen ivMac).cph.running = none := by
  unfold State.reqRecord
  extract_lets size wr rec_ a b c d e
  split
  · simp only [State.msix_frame]
    rfl
  · rfl

section Complete

variable (s : State) {r : Req} (hr : s.cph.running = some r)
include hr

theorem State.reqComplete_ends (hq : r.queue = 4) (hd : r.status.isSome = true ∨ r.waits = false) : s.reqComplete.cph.running = none := by
  unfold State.reqComplete
  rw [hr]
  dsimp -zeta only
  rw [if_neg (not_not.2 hq)]
  cases hs : r.status with
  | some st =>
    dsimp -zeta only
    split <;> exact State.reqRecord_idle _ _ _ _ _
  | none =>
    have hw : r.waits = false := hd.resolve_left (by rw [hs]; exact Bool.false_ne_true)
    dsimp -zeta only
    rw [if_neg (Bool.eq_false_iff.1 hw)]
    extract_lets d f res o st
    split <;> exact State.reqRecord_idle _ _ _ _ _

theorem State.reqComplete_waits (h : r.queue ≠ 4 ∨ (r.status = none ∧ r.waits = true)) : s.reqComplete = s := by
  unfold State.reqComplete
  rw [hr]
  dsimp only
  by_cases hq : r.queue = 4
  · obtain ⟨hs, hw⟩ := h.resolve_left (not_not.2 hq)
    rw [if_neg (not_not.2 hq), hs]
    exact if_pos hw
  · exact if_pos hq

end Complete

/-! ### DMA's answers (R486) -/

/-- The state with another request running. -/
def State.withRequest (s : State) (r : Req) : State := { s with cph := { s.cph with running := some r } }

section Dma

variable (s : State) {r : Req} (hr : s.cph.running = some r)
include hr

theorem State.dmaDone_eq (hh : r.srcHost = true) (hs : r.status = none) (bs : List Byte) (ok : Bool) : s.dmaDone bs ok =
    if ok = true ∧ r.got.length + bs.length ≤ r.len then s.withRequest { r with got := r.got ++ bs }
    else (s.withRequest { r with status := some 0x20 }).raise Reg.GLB_HOST_EVENT.DMA_ERR := by
  unfold State.dmaDone
  rw [hr]
  dsimp only
  rw [hh, hs, if_neg (by decide)]
  simp only [Bool.and_eq_true, decide_eq_true_eq]
  rfl

theorem State.dmaTimeout_due (hw : r.waits = true) (hs : r.status = none) {us : Nat} (ht : s.pcie.ctoUs ≤ us) : s.dmaTimeout us =
    (s.withRequest { r with status := some 0x21 }).raise Reg.GLB_HOST_EVENT.DMA_TIMEOUT := by
  unfold State.dmaTimeout
  rw [hr]
  dsimp only
  rw [hw, hs, if_pos (by rw [decide_eq_true ht]; rfl)]
  rfl

theorem State.katDone_eq (hq : r.queue = 3) (pass : Bool) : s.katDone pass =
    ({ s with cph := { s.cph with running := none } } : State).raiseIf (!pass || r.status.isSome) Reg.CPH_EVENT.KAT_FAIL := by
  unfold State.katDone
  rw [hr]
  exact if_pos hq

end Dma

theorem State.dmaTimeout_idle (s : State) (us : Nat) (hr : s.cph.running = none) : s.dmaTimeout us = s := by
  unfold State.dmaTimeout
  rw [hr]

/-! ### The commands -/

/-- A command leaves of the cipher unit what its effect `w` leaves of it. -/
theorem completes_cph {c : Instr} {s w : State} {f : State → State} {P : State → Prop} (hc : exec c s = .next (s.cmd f)) (h : s.live)
    (hw : f s.cleared = w) (hP : ∀ t, t.cph = w.cph → P t) : Completes c s P := by
  subst hw
  refine ⟨_, hc, hP _ ?_⟩
  simp only [s.cmd_frame f h]

theorem completes_still {c : Instr} {s : State} {f : State → State} (hc : exec c s = .next (s.cmd f)) (h : s.live) (hf : f s.cleared = s.cleared) :
    Completes c s fun t => s.sameBut t wrapRegs := ⟨_, hc, s.sameBut_cmd_idle f h hf⟩

theorem overrides_hqWr (old new : Word) : overrides Reg.CPH_HQ_WR old new = false := by
  rw [overrides, show regFlds Reg.CPH_HQ_WR = [fA 15 0 .rw 0] by decide +kernel]
  rfl

theorem hostRequestSubmit_stores {s : State} {v : Word} (h : s.live) (ht : s.takes Reg.CPH_HQ_WR v.toNat) : Completes (.hostRequestSubmit v) s fun t =>
    t.reg Reg.CPH_HQ_WR = writtenWord Reg.CPH_HQ_WR (s.reg Reg.CPH_HQ_WR) v := by
  obtain ⟨-, hreg, -⟩ := State.plainWrite_leaves h (fun _ _ => rfl) (by decide) ht (overrides_hqWr _ _)
  rw [half_word] at hreg
  exact ⟨_, rfl, hreg⟩

section Engine

variable {s : State} {r : Req} (h : s.live)
include h

/-- A command that gives the running request a status, and raises an event of the host link for it. -/
theorem completes_status {c : Instr} {f : State → State} {e : Fr} (hc : exec c s = .next (s.cmd f)) (ho : e.off = Reg.GLB_HOST_EVENT) (hl : e.lo = e.hi)
    (h2 : e.hi < 32) (hf : f s.cleared = (s.cleared.withRequest r).raise e) :
    Completes c s fun t => (s.withRequest r).sameBut t (Reg.GLB_HOST_EVENT :: wrapRegs) ∧ t.bit e = true := by
  refine ⟨_, hc, s.sameBut_cmd _ _ _ h (by rw [hf, State.rest_raise]; rfl) rfl fun off hn => ?_, s.bit_cmd _ h e hl (by rw [ho]; decide) ?_⟩
  · obtain ⟨hg, hw⟩ := not_or.1 (List.mem_cons.not.1 hn)
    have hflt : off ≠ Reg.FLT_EVENT := fun e => hw (by rw [e]; decide)
    exact ⟨hw, by rw [hf, State.reg_raise_ne _ _ (ho ▸ hg) hflt]; rfl⟩
  · rw [hf]
    exact State.bit_raise _ e hl h2

theorem requestStart_serves (hr : s.cph.running = none) (hc : s.cfgWaits = 0) (hq : s.cph.rimeQ = []) (hk : s.cph.kat = false) :
    (s.hostWaits = true → Completes .requestStart s fun t => ∃ r, t.cph.running = some r ∧ r.queue = 4) ∧
    (s.hostWaits = false → Completes .requestStart s fun t => s.sameBut t wrapRegs) := by
  have e := s.cleared.reqStart_host hr hc hq hk
  refine ⟨fun hg => ?_, fun hg => completes_still rfl h (e.trans (if_neg (Bool.eq_false_iff.1 hg)))⟩
  obtain ⟨r, hrun, h4⟩ := s.cleared.startHost_runs
  exact completes_cph rfl h (e.trans (if_pos hg)) fun t ht => ⟨r, by rw [ht, hrun], h4⟩

variable (hr : s.cph.running = some r)
include hr

theorem dmaCompletion_answers (hh : r.srcHost = true) (hs : r.status = none) (bs : List Byte) (ok : Bool) :
    (ok = true → r.got.length + bs.length ≤ r.len → Completes (.dmaCompletion bs ok) s fun t =>
      (s.withRequest { r with got := r.got ++ bs }).sameBut t wrapRegs) ∧
    (ok = false ∨ r.len < r.got.length + bs.length → Completes (.dmaCompletion bs ok) s fun t =>
      (s.withRequest { r with status := some 0x20 }).sameBut t (Reg.GLB_HOST_EVENT :: wrapRegs) ∧ t.bit Reg.GLB_HOST_EVENT.DMA_ERR = true) := by
  have e := s.cleared.dmaDone_eq hr hh hs bs ok
  refine ⟨fun ho hl => ?_, fun hn => completes_status h rfl rfl rfl (by decide) (e.trans (if_neg fun ⟨ho, hl⟩ => ?_))⟩
  · rw [if_pos ⟨ho, hl⟩] at e
    exact ⟨_, rfl, s.sameBut_cmd _ _ _ h (by rw [e]; rfl) rfl fun off hn => ⟨hn, by rw [e]; rfl⟩⟩
  · exact hn.elim (Bool.eq_false_iff.1 · ho) (Nat.not_lt.2 hl)

theorem dmaTimeout_answers (hw : r.waits = true) (hs : r.status = none) {us : Nat} (ht : s.pcie.ctoUs ≤ us) : Completes (.dmaTimeout us) s fun t =>
    (s.withRequest { r with status := some 0x21 }).sameBut t (Reg.GLB_HOST_EVENT :: wrapRegs) ∧ t.bit Reg.GLB_HOST_EVENT.DMA_TIMEOUT = true :=
  completes_status h rfl rfl rfl (by decide) (s.cleared.dmaTimeout_due hr hw hs ht)

theorem katFail_ends (hq : r.queue = 3) (pass : Bool) : Completes (.katFail pass) s fun t => t.cph.running = none ∧
    (pass = false ∨ r.status ≠ none → t.bit Reg.CPH_EVENT.KAT_FAIL = true) ∧ (pass = true → r.status = none → s.sameRegs t wrapRegs) := by
  have e := s.cleared.katDone_eq hr hq pass
  refine ⟨_, rfl, ?_, fun hn => s.bit_cmd _ h _ rfl (by decide) ?_, fun hp hs off ho => (s.reg_cmd _ h ho).trans ?_⟩
  · simp only [s.cmd_frame _ h, e]
    rw [State.cph_of_rest (State.rest_raiseIf _ _ _)]
  · have hc : (!pass || r.status.isSome) = true := by
      rw [Bool.or_eq_true, Bool.not_eq_true', Option.isSome_iff_ne_none]
      exact hn
    rw [e, hc]
    exact State.bit_raise _ _ rfl (by decide)
  · rw [e, hp, hs]
    rfl

end Engine

/-- Settles O31: the engine's choice by its order, a request's end by its record, DMA's answers by the status they give. -/
theorem requestEngine : Obligations.RequestEngine := by
  unfold Obligations.RequestEngine
  intro s h
  refine ⟨fun v ht => hostRequestSubmit_stores h ht, fun hb => completes_still rfl h (s.cleared.reqStart_busy hb), fun q qs hr hc hq => ?_,
    fun hr hc hq hk => ?_, fun hr hc hq hk => requestStart_serves h hr hc hq hk, fun r hr hq hd => ?_,
    fun r hr hn => completes_still rfl h (s.cleared.reqComplete_waits hr hn), fun r bs ok hr hh hs => dmaCompletion_answers h hr hh hs bs ok,
    fun r us hr hw hs ht => dmaTimeout_answers h hr hw hs ht, fun us hr => completes_still rfl h (s.cleared.dmaTimeout_idle us hr),
    fun r pass hr hq => katFail_ends h hr hq pass⟩
  · have hrime := s.cleared.reqStart_rime hr hc hq
    exact completes_cph rfl h rfl fun t ht => by rwa [ht]
  · have hkat := s.cleared.reqStart_kat hr hc hq hk
    exact completes_cph rfl h rfl fun t ht => by rwa [ht]
  · exact completes_cph rfl h rfl fun t ht => by rw [ht, s.cleared.reqComplete_ends hr hq hd]

end Sys2Proof.Machine
end

section
/-! SUPPORT. What programming and erasing NVM leave at an address, and what commands leave of the records (R405, R406). -/

namespace Sys2Proof.Machine

open Sys2Proof

/-! ### Bytes of NVM -/

theorem SMap.get_of_unlisted {α : Type} (d : Nat → α) {k : Nat} (m : SMap α) (h : ∀ p ∈ m, p.1 ≠ k) : SMap.get d m k = d k := by
  induction m with
  | nil => rfl
  | cons p m ih =>
    rw [SMap.get, if_neg (h p (List.mem_cons_self ..))]
    exact ih fun q hq => h q (List.mem_cons_of_mem _ hq)

/-- An erased range reads erased. -/
theorem get_nvmErase (m : SMap Byte) {a n x : Nat} (h : a ≤ x) (h2 : x < a + n) : SMap.get nvmErased (nvmErase m a n) x = 0xFF#8 := by
  refine SMap.get_of_unlisted _ _ fun p hp he => ?_
  have hb := (List.mem_filter.1 hp).2
  rw [he, decide_eq_false (Nat.not_lt.2 h), decide_eq_false (Nat.not_le.2 h2)] at hb
  cases hb

theorem get_nvmProgram_below (bs : List Byte) (m : SMap Byte) {a x : Nat} (h : x < a) :
    SMap.get nvmErased (nvmProgram m a bs) x = SMap.get nvmErased m x := by
  induction bs generalizing m a with
  | nil => rfl
  | cons b bs ih => rw [nvmProgram, ih _ (Nat.lt_succ_of_lt h), SMap.get_set_ne _ _ _ (Nat.ne_of_gt h)]

/-- Bytes programmed where NVM is erased read back. -/
theorem map_get_nvmProgram (bs : List Byte) (m : SMap Byte) (a : Nat) (h : ∀ i < bs.length, SMap.get nvmErased m (a + i) = 0xFF#8) :
    ((List.range bs.length).map fun i => SMap.get nvmErased (nvmProgram m a bs) (a + i)) = bs := by
  induction bs generalizing m a with
  | nil => rfl
  | cons b bs ih =>
    have h0 : SMap.get nvmErased m a = 0xFF#8 := h 0 (Nat.zero_lt_succ _)
    have hb : 0xFF#8 &&& b = b := BitVec.allOnes_and
    have hs (i : Nat) : a + (i + 1) = a + 1 + i := by omega
    have hr := ih (m.set nvmErased a b) (a + 1) fun i hi => by
      rw [SMap.get_set_ne _ _ _ (by omega), ← hs]
      exact h _ (Nat.succ_lt_succ hi)
    rw [List.length_cons, List.range_succ_eq_map, List.map_cons, List.map_map, nvmProgram, h0, hb]
    refine congrArg₂ List.cons ?_ ?_
    · exact (get_nvmProgram_below _ _ (Nat.lt_succ_self a)).trans (SMap.get_set_self ..)
    · exact (List.map_congr_left fun i _ => congrArg _ (hs i)).trans hr

theorem State.nvmBytes_programmed {s : State} {m : SMap Byte} {a n : Nat} {bs : List Byte} (hs : s.nvm = nvmProgram m a bs) (hn : bs.length = n)
    (h : ∀ i < n, SMap.get nvmErased m (a + i) = 0xFF#8) : s.nvmBytes a n = bs := by
  subst hn
  unfold State.nvmBytes
  rw [hs]
  exact map_get_nvmProgram bs m a h

/-- Bytes programmed into a range just erased read back. -/
theorem State.nvmBytes_rewritten {s : State} {m : SMap Byte} {a n : Nat} {bs : List Byte} (hs : s.nvm = nvmProgram (nvmErase m a n) a bs)
    (hn : bs.length = n) : s.nvmBytes a n = bs :=
  State.nvmBytes_programmed hs hn fun _ hi => get_nvmErase m (Nat.le_add_right ..) (Nat.add_lt_add_left hi a)

/-! ### Records through a command -/

theorem State.nvm_of_rest {s t : State} (h : t.rest = s.rest) : t.nvm = s.nvm := show t.rest.nvm = s.rest.nvm by rw [h]

theorem State.mem_of_rest {s t : State} (h : t.rest = s.rest) : t.mem = s.mem := show t.rest.mem = s.rest.mem by rw [h]

theorem State.cnv_of_rest {s t : State} (h : t.rest = s.rest) (l : Nat) : t.cnv l = s.cnv l := congrArg Line.cnv (State.ln_of_rest h l)

theorem State.bit_setFld_zero (s : State) (f : Fr) (h : f.lo ≤ f.hi) (h2 : f.hi < 32) : (s.setFld f 0).bit f = false := by
  rw [State.bit_eq, State.fld_setFld s f 0 h h2, Nat.zero_mod]
  rfl

/-- A command leaves of NVM, the converters, the memories and the registers what its effect `w` leaves. -/
theorem completes_records {c : Instr} {s w : State} {f : State → State} {P : State → Prop} (hc : exec c s = .next (s.cmd f)) (h : s.live)
    (hw : f s.cleared = w)
    (hP : ∀ t, t.nvm = w.nvm → (∀ l, t.cnv l = w.cnv l) → t.mem = w.mem → (∀ off, off ∉ wrapRegs → t.reg off = w.reg off) → P t) :
    Completes c s P := by
  subst hw
  refine ⟨_, hc, hP _ ?_ (fun l => congrArg Line.cnv (s.ln_cmd f h l)) ?_ fun _ ho => s.reg_cmd f h ho⟩ <;> simp only [s.cmd_frame f h]

end Sys2Proof.Machine
end

section
/-! SUPPORT. Calibration sets in NVM (R239). -/

namespace Sys2Proof.Machine

open Sys2Proof

/-- The copy and the SEQ that the next write of a position takes, from what SEQS holds for it. -/
def setCopy (q : Nat) : Nat := if q = 0 then 0 else 1 - (q - 1) % 2
def setSeq (q : Nat) : Nat := if q = 0 then 1 else (q - 1) / 2 + 1

/-- A write of a record, once it is due: erase, program, read back. -/
def State.setPut (s : State) (l k : Nat) (rest : List Nat) (x : CalSet) (e p : Pg) (back : Rd) : State :=
  let q := (s.cnv l).seqs.get natZero k
  let a := setAddr l k (setCopy q)
  let bs := setBytes x l k (setSeq q) s.fuses.deviceId
  let w := (s.modCnv l fun c => { c with lastWr := some s.tick }).nvmWipe a 4096 e
  let w2 := if w.2 then w.1.nvmWrite a bs p else w
  (w2.1.rdTimeout back).setEnd l k (w2.2 && (w2.1.nvmRead a 4096 back == some bs)) rest (1 + 2 * setSeq q + setCopy q)

theorem cnvSet_beside (l : Fin 2) : Reg.CNV_EVENT l ∉ wrapRegs ∧ ∀ k < 8, Reg.CNV_SET l k ∉ wrapRegs ∧ Reg.CNV_SET l k ≠ Reg.CNV_EVENT l := by
  revert l
  decide

section Write

variable {s : State} {l : Fin 2} {k : Nat} {rest : List Nat} {x : CalSet}

theorem State.setWrite_due (hp : (s.cnv l).pend = k :: rest) (hx : (s.cnv l).sets.getD k none = some x) (hk : k < 8)
    (hw : ∀ t0, (s.cnv l).lastWr = some t0 → t0 + 600000000 ≤ s.tick) (e p : Pg) (back : Rd) :
    s.setWrite l e p back = s.setPut l k rest x e p back := by
  have hl := l.isLt
  have he : (match (s.cnv l).lastWr with | some t => decide (s.tick < t + 600000000) | none => false) = false := by
    cases ht : (s.cnv l).lastWr with
    | none => rfl
    | some t0 => exact decide_eq_false (Nat.not_lt.2 (hw t0 ht))
  unfold State.setWrite
  extract_lets c early
  have hearly : early = false := he
  clear_value early
  simp only [c, hp, hx]
  have hg : ¬ (2 ≤ l.val ∨ 8 ≤ k ∨ early = true) := by
    rintro (hg | hg | hg)
    · omega
    · omega
    · exact Bool.noConfusion (hearly.symm.trans hg)
  rw [if_neg hg]
  rfl

theorem State.setWrite_waits (e p : Pg) (back : Rd) (h : (s.cnv l).pend = [] ∨ ∃ t0, (s.cnv l).lastWr = some t0 ∧ s.tick < t0 + 600000000) :
    s.setWrite l e p back = s := by
  unfold State.setWrite
  extract_lets c early
  split
  · rfl
  · next hp =>
    split
    · rfl
    · obtain hn | ⟨t0, ht, hlt⟩ := h
      · rw [show c.pend = _ from hn] at hp
        cases hp
      · have he : early = true := by
          simp only [early, c, ht]
          exact decide_eq_true hlt
        exact if_pos (.inr (.inr he))

/-- A write that goes well leaves the record, and the set no longer pending. -/
theorem State.setPut_stores (s : State) (l k : Nat) (rest : List Nat) (x : CalSet) : let q := (s.cnv l).seqs.get natZero k
    let u := s.setPut l k rest x .ok .ok .ok
    (u.cnv l).pend = rest ∧ u.bit (Reg.CNV_SET.NVM l k) = true ∧
      u.nvm = nvmProgram (nvmErase s.nvm (setAddr l k (setCopy q)) 4096) (setAddr l k (setCopy q)) (setBytes x l k (setSeq q) s.fuses.deviceId) := by
  intro q u
  let m := s.modCnv l fun c => { c with lastWr := some s.tick }
  let a := setAddr l k (setCopy q)
  let bs := setBytes x l k (setSeq q) s.fuses.deviceId
  let v : State := { m with nvm := nvmProgram (nvmErase m.nvm a 4096) a bs }
  have hm : m.nvm = s.nvm := State.modCnv_nvm ..
  have hv : v.nvm = nvmProgram (nvmErase s.nvm a 4096) a bs := by rw [← hm]
  have hback : v.nvmBytes a 4096 = bs := State.nvmBytes_rewritten hv (setBytes_length ..)
  have hu : u = v.setEnd l k (true && (some (v.nvmBytes a 4096) == some bs)) rest (1 + 2 * setSeq q + setCopy q) := rfl
  rw [hback, beq_self_eq_true, Bool.and_self] at hu
  clear_value v
  rw [hu, State.setEnd, if_pos rfl]
  refine ⟨?_, State.bit_setFld _ _ rfl (show 19 < 32 by decide), ?_⟩
  · rw [State.cnv_setFld, State.cnv_modCnv]
  · rw [State.setFld_nvm, State.modCnv_nvm, hv]

/-- A write whose erase fails leaves NVM as it was, the set pending, and SET_WR_FAIL. -/
theorem State.setPut_fails (s : State) (l k n : Nat) (rest : List Nat) (x : CalSet) (p : Pg) (back : Rd) (hk : Reg.CNV_SET l k ≠ Reg.CNV_EVENT l)
    (hf : Reg.CNV_SET l k ≠ Reg.FLT_EVENT) : let u := s.setPut l k rest x (.fail n) p back
    (u.cnv l).pend = (s.cnv l).pend ∧ u.nvm = s.nvm ∧ u.bit (Reg.CNV_SET.NVM l k) = false ∧ u.bit (Reg.CNV_EVENT.SET_WR_FAIL l) = true := by
  intro u
  let m := s.modCnv l fun c => { c with lastWr := some s.tick }
  let v := m.rdTimeout back
  have hu : u = ((v.setFld (Reg.CNV_SET.NVM l k) 0).raiseOwn (Reg.CNV_EVENT.SET_WR_FAIL l)).queueRec 0x000B 1 (16 + 8 * l)
    [BitVec.ofNat 8 l, BitVec.ofNat 8 k] := rfl
  have hv : v.rest = m.rest := State.rest_raiseIf ..
  clear_value v
  have hr : u.rest = m.rest := by rw [hu, State.rest_queueRec, State.rest_raiseOwn, State.rest_setFld, hv]
  refine ⟨?_, (State.nvm_of_rest hr).trans (State.modCnv_nvm ..), ?_, ?_⟩
  · rw [State.cnv_of_rest hr, State.cnv_modCnv]
  · rw [hu, State.bit_congr _ _ _ (State.reg_queueRec_ne _ _ _ _ _ hf), State.bit_congr _ _ _ (State.reg_raiseOwn_ne _ _ hk)]
    exact State.bit_setFld_zero _ _ le_rfl (show 19 < 32 by decide)
  · rw [hu]
    exact State.bit_queueRec _ _ _ _ _ _ rfl (State.bit_raiseOwn _ _ rfl (show 8 < 32 by decide))

variable (h : s.live) (hp : (s.cnv l).pend = k :: rest) (hx : (s.cnv l).sets.getD k none = some x) (hk : k < 8)
  (hw : ∀ t0, (s.cnv l).lastWr = some t0 → t0 + 600000000 ≤ s.tick)
include h hp hx hk hw

theorem setWrite_stores : let q := (s.cnv l).seqs.get natZero k
    Completes (.setWrite l .ok .ok .ok) s fun t => (t.cnv l).pend = rest ∧ t.bit (Reg.CNV_SET.NVM l k) = true ∧
      t.nvmBytes (setAddr l k (setCopy q)) 4096 = setBytes x l k (setSeq q) s.fuses.deviceId := by
  obtain ⟨hpend, hbit, hnvm⟩ := s.cleared.setPut_stores l k rest x
  refine completes_records rfl h (State.setWrite_due (s := s.cleared) hp hx hk hw _ _ _) fun t hn hc _ hr =>
    ⟨by rw [hc, hpend], ?_, State.nvmBytes_rewritten (hn.trans hnvm) (setBytes_length ..)⟩
  rw [State.bit_congr _ _ _ (hr _ ((cnvSet_beside l).2 k hk).1), hbit]

theorem setWrite_fails (n : Nat) (p : Pg) (back : Rd) : Completes (.setWrite l (.fail n) p back) s fun t => (t.cnv l).pend = k :: rest ∧
    t.nvm = s.nvm ∧ t.bit (Reg.CNV_SET.NVM l k) = false ∧ t.bit (Reg.CNV_EVENT.SET_WR_FAIL l) = true := by
  obtain ⟨hev, hset⟩ := cnvSet_beside l
  obtain ⟨hns, hne⟩ := hset k hk
  obtain ⟨hpend, hnvm, hbit, hfail⟩ := s.cleared.setPut_fails l k n rest x p back hne fun he => hns (by rw [he]; decide)
  refine completes_records rfl h (State.setWrite_due (s := s.cleared) hp hx hk hw _ _ _) fun t hn hc _ hr =>
    ⟨by rw [hc, hpend]; exact hp, hn.trans hnvm, ?_, ?_⟩
  · rw [State.bit_congr _ _ _ (hr _ hns), hbit]
  · rw [State.bit_congr _ _ _ (hr _ hev), hfail]

end Write

end Sys2Proof.Machine
end

section
/-! SUPPORT. The repair log in NVM (R378, R436). -/

namespace Sys2Proof.Machine

open Sys2Proof

/-- A log entry's 16 bytes. -/
def mapBytes (j : MapJob) : List Byte := padTo 12 j.entry ++ leBytes 4 (crc32 (padTo 12 j.entry))

/-- The queue with an entry gone, and where the next one goes. -/
def State.mapQueue (s : State) (q : List MapJob) (next : Nat) : State := { s with mem := { s.mem with mapQ := q, mapNext := next } }

/-- How a due write of the log ends. -/
def State.mapEnd (s : State) (qi : Nat) (j : MapJob) (p : Pg) : State :=
  if 8192 ≤ s.mem.mapNext then (s.mapQueue (s.mem.mapQ.eraseIdx qi) s.mem.mapNext).raise Reg.CFG_EVENT.REPAIR_FULL
  else
    let w := s.nvmWrite (mapAddr s.mem.mapNext) (mapBytes j) p
    if w.2 then { w.1 with mem := { w.1.mem with mapQ := s.mem.mapQ.eraseIdx qi, mapNext := s.mem.mapNext + 1 } }
    else (w.1.mapQueue (s.mem.mapQ.set qi { j with waitUntil := some (s.tick + 1000000) }) (s.mem.mapNext + 1)).raise Reg.MEM_EVENT.MAP_WR_FAIL

theorem State.mapWrite_due (s : State) {qi : Nat} {j : MapJob} (hq : s.mem.mapQ.findIdx? (·.waitUntil.isNone) = some qi) (hj : s.mem.mapQ[qi]? = some j)
    (p : Pg) : s.mapWrite p = s.mapEnd qi j p := by
  unfold State.mapWrite
  simp only [hq, hj]
  rfl

theorem State.mapWrite_idle (s : State) (hq : s.mem.mapQ.findIdx? (·.waitUntil.isNone) = none) (p : Pg) : s.mapWrite p = s := by
  unfold State.mapWrite
  simp only [hq]

theorem State.mapRetry_eq (s : State) : s.mapRetry = s.mapQueue (s.mem.mapQ.map (mapAgain s.tick)) s.mem.mapNext := rfl

section Write

variable {s : State} {qi : Nat} {j : MapJob} (h : s.live) (hq : s.mem.mapQ.findIdx? (·.waitUntil.isNone) = some qi) (hj : s.mem.mapQ[qi]? = some j)
include h hq hj

theorem repairMapWrite_stores (hn : s.mem.mapNext < 8192) : Completes (.repairMapWrite .ok) s fun t => t.mem.mapQ = s.mem.mapQ.eraseIdx qi ∧
    t.mem.mapNext = s.mem.mapNext + 1 ∧ t.nvm = nvmProgram s.nvm (mapAddr s.mem.mapNext) (mapBytes j) := by
  refine completes_records rfl h ((s.cleared.mapWrite_due hq hj _).trans (if_neg (Nat.not_le.2 hn))) fun t hnvm _ hm _ => ⟨?_, ?_, hnvm⟩
  · rw [hm]
    rfl
  · rw [hm]
    rfl

theorem repairMapWrite_fails (n : Nat) (hn : s.mem.mapNext < 8192) : Completes (.repairMapWrite (.fail n)) s fun t =>
    t.bit Reg.MEM_EVENT.MAP_WR_FAIL = true ∧ t.mem.mapQ = s.mem.mapQ.set qi { j with waitUntil := some (s.tick + 1000000) } ∧
    t.mem.mapNext = s.mem.mapNext + 1 := by
  have e : s.cleared.mapWrite (.fail n) = (({ s.cleared with nvm := nvmProgram s.nvm (mapAddr s.mem.mapNext) ((mapBytes j).take n) } : State).mapQueue
      (s.mem.mapQ.set qi { j with waitUntil := some (s.tick + 1000000) }) (s.mem.mapNext + 1)).raise Reg.MEM_EVENT.MAP_WR_FAIL :=
    (s.cleared.mapWrite_due hq hj _).trans (if_neg (Nat.not_le.2 hn))
  refine completes_records rfl h e fun t _ _ hm hr => ⟨?_, ?_⟩
  · exact (State.bit_congr _ _ _ (hr _ (by decide))).trans (State.bit_raise _ _ rfl (by decide))
  · rw [hm, State.mem_of_rest (State.rest_raise _ _)]
    exact ⟨rfl, rfl⟩

theorem repairMapWrite_full (p : Pg) (hn : 8192 ≤ s.mem.mapNext) : Completes (.repairMapWrite p) s fun t =>
    t.bit Reg.CFG_EVENT.REPAIR_FULL = true ∧ t.mem.mapQ = s.mem.mapQ.eraseIdx qi ∧ t.nvm = s.nvm := by
  refine completes_records rfl h ((s.cleared.mapWrite_due hq hj _).trans (if_pos hn)) fun t hnvm _ hm hr => ⟨?_, ?_, hnvm.trans (State.raise_nvm _ _)⟩
  · exact (State.bit_congr _ _ _ (hr _ (by decide))).trans (State.bit_raise _ _ rfl (by decide))
  · rw [hm, State.mem_of_rest (State.rest_raise _ _)]
    rfl

end Write

theorem mapWriteRetry_frees {s : State} (h : s.live) : Completes .mapWriteRetry s fun t =>
    (s.mapQueue (s.mem.mapQ.map (mapAgain s.tick)) s.mem.mapNext).sameBut t wrapRegs :=
  ⟨_, rfl, s.sameBut_cmd _ _ _ h (by rw [s.cleared.mapRetry_eq]; rfl) rfl fun _ hn => ⟨hn, rfl⟩⟩

end Sys2Proof.Machine
end

section
/-! SUPPORT. An epoch retry in service (R134, R135). -/

namespace Sys2Proof.Machine

open Sys2Proof

theorem epochRec_length (e ver : Nat) : (epochRec e ver).length = 16 := by
  unfold epochRec
  simp only [List.length_append, length_leBytes]

/-- Every byte of an erased epoch record reads erased. -/
theorem State.get_of_epochErased {s : State} {i k : Nat} (h : s.epochErased i = true) (hi : i < 16384) (hk : k < 16) :
    s.nvm.get nvmErased (epochBase + 16 * i + k) = 0xFF#8 := by
  refine SMap.get_of_unlisted _ _ fun p hp he => ?_
  have hidx : i ∈ s.epochIdxs := by
    refine List.mem_eraseDups.2 (List.mem_map.2 ⟨p, List.mem_filter.2 ⟨hp, ?_⟩, ?_⟩)
    · rw [Bool.and_eq_true, decide_eq_true_eq, decide_eq_true_eq]
      omega
    · rw [he]
      omega
  rw [State.epochErased, List.contains_iff_mem.2 hidx] at h
  cases h

theorem State.epochErased_of_epochFree {s : State} {a i : Nat} (h : s.epochFree a = some i) : s.epochErased i = true := by
  unfold State.epochFree at h
  exact List.find?_some h

/-- The first free record takes a record at the first attempt. -/
theorem epochTries_first {s : State} {bs : List Byte} {a sec i : Nat} (hb : bs.length = 16) (hf : s.epochFree a = some i)
    (ts : List (Pg × Bool × Pg)) : epochTries bs ((.ok, true, .ok) :: ts) a sec 0 none s =
      ({ s with nvm := nvmProgram s.nvm (epochBase + 16 * i) bs }, .written i 1) := by
  have hroom : s.epochRoom a sec .ok = (s, true, some i) := by rw [State.epochRoom, hf]
  have hput : s.epochPut i bs .ok true = ({ s with nvm := nvmProgram s.nvm (epochBase + 16 * i) bs }, true) := by
    have hback : ({ s with nvm := nvmProgram s.nvm (epochBase + 16 * i) bs } : State).epochAt i = bs :=
      State.nvmBytes_programmed rfl hb fun k hk => State.get_of_epochErased (State.epochErased_of_epochFree hf) (epochFree_lt s a i hf) hk
    rw [State.epochPut, State.nvmWrite]
    simp only [hback, beq_self_eq_true, Bool.and_self]
  rw [epochTries_cons, hroom]
  simp only [hput, if_true]

/-- Erasing ahead changes no register but where it reports a failure. -/
theorem State.reg_epochAhead_ne (s : State) (i : Nat) (after : Pg) {off : Nat} (hc : off ≠ Reg.CFG_EVENT) (hf : off ≠ Reg.FLT_EVENT) :
    (s.epochAhead i after).reg off = s.reg off := by
  have hw : (s.epochWipe (epochSec i) after).1.reg off = s.reg off := by
    unfold State.epochWipe State.nvmWipe
    cases after with
    | ok => rfl
    | fail n => rfl
    | timeout n => exact State.reg_raise_ne _ _ hc hf
  unfold State.epochAhead
  extract_lets k w
  split
  · split
    · exact hw
    · exact (State.reg_queueRec_ne _ _ _ _ _ hf).trans hw
  · rfl

theorem State.epochWon_shows (s : State) (e n : Nat) : (s.epochWon e n).fld Reg.CPH_EPOCH.EPOCH = e % 2 ^ 32 ∧
    (s.epochWon e n).fld Reg.CPH_EPOCH_STATUS.STATE = 1 := by
  unfold State.epochWon
  rw [State.fld_setFld_ne _ _ _ _ (by decide) (by decide) (by decide), State.fld_setFld_ne _ _ _ _ (by decide) (by decide) (by decide),
    State.fld_setFld _ _ _ (by decide) (by decide), State.fld_setFld_ne _ _ _ _ (by decide) (by decide) (by decide),
    State.fld_setFld _ _ _ (by decide) (by decide)]
  exact ⟨rfl, rfl⟩

/-- A run whose first attempt goes well shows the next EPOCH. -/
theorem State.epochRun_wins {s : State} {i : Nat} (after : Pg) (he : s.epochMax < 0xFFFFFFFF)
    (hf : s.epochFree ((s.epochRef.map epochNext).getD 0) = some i) :
    (s.epochRun [] after).fld Reg.CPH_EPOCH.EPOCH = s.epochMax + 1 ∧ (s.epochRun [] after).fld Reg.CPH_EPOCH_STATUS.STATE = 1 := by
  have hat : (match s.epochRef with | some i => epochNext i | none => 0) = (s.epochRef.map epochNext).getD 0 := by
    cases s.epochRef <;> rfl
  unfold State.epochRun
  extract_lets e ref at_ sec r
  have hr : r = ({ s with nvm := nvmProgram s.nvm (epochBase + 16 * i) _ }, .written i 1) :=
    epochTries_first (epochRec_length _ _) (by rw [← hf]; exact congrArg _ hat) _
  have hmax : e = s.epochMax := rfl
  clear_value e r
  rw [if_neg (by omega), hr]
  generalize ({ s with nvm := _ } : State) = w
  obtain ⟨hepoch, hstate⟩ := w.epochWon_shows (e + 1) 1
  rw [State.fld_congr _ _ _ (State.reg_epochAhead_ne _ _ _ (by decide) (by decide)), State.fld_congr _ _ _ (State.reg_epochAhead_ne _ _ _ (by decide) (by decide)),
    hepoch, hstate, Nat.mod_eq_of_lt (by omega), hmax]
  exact ⟨rfl, rfl⟩

theorem State.epochReadFailed_shows (s : State) : s.epochReadFailed.fld Reg.CPH_EPOCH_STATUS.STATE = 2 ∧
    s.epochReadFailed.bit Reg.CPH_EVENT.EPOCH_FAIL = true := by
  unfold State.epochReadFailed
  refine ⟨?_, State.bit_queueRec _ _ _ _ _ _ rfl (State.bit_raiseOwn _ _ rfl (by decide))⟩
  rw [State.fld_congr _ _ _ (State.reg_queueRec_ne _ _ _ _ _ (by decide)), State.fld_congr _ _ _ (State.reg_raiseOwn_ne _ _ (by decide)),
    State.fld_setFld_ne _ _ _ _ (by decide) (by decide) (by decide), State.fld_setFld _ _ _ (by decide) (by decide)]
  rfl

/-! ### The command -/

/-- What a retry that has started does, before RETRY falls. -/
def State.epochAgain (s : State) (r : Rd) (tries : List (Pg × Bool × Pg)) (after : Pg) : State :=
  if Rd.code r = 0 then s.epochRun tries after else (s.rdTimeout r).epochReadFailed

theorem State.epochRetry_eq {s u : State} {v : Nat} (hu : s.startBit Reg.CPH_EPOCH_CTL.RETRY v = u) (r : Rd) (tries : List (Pg × Bool × Pg)) (after : Pg) :
    s.epochRetry v r tries after = if u.bit Reg.CPH_EPOCH_CTL.RETRY then (u.epochAgain r tries after).setFld Reg.CPH_EPOCH_CTL.RETRY 0 else u := by
  subst hu
  generalize hv : s.startBit Reg.CPH_EPOCH_CTL.RETRY v = u
  unfold State.epochRetry
  rw [hv]
  cases hb : u.bit Reg.CPH_EPOCH_CTL.RETRY with
  | true => exact if_neg (by rw [hb]; decide)
  | false => exact if_pos (by rw [hb]; rfl)

section Retry

variable {s u : State} {v : Word} (h : s.live) (hu : s.cleared.startBit Reg.CPH_EPOCH_CTL.RETRY v.toNat = u)
include h hu

theorem epochRetry_waits (hb : u.bit Reg.CPH_EPOCH_CTL.RETRY = false) (r : Rd) (tries : List (Pg × Bool × Pg)) (after : Pg) :
    Completes (.epochRetry v r tries after) s fun t => u.sameBut t wrapRegs := by
  have e := (State.epochRetry_eq hu r tries after).trans (if_neg (Bool.eq_false_iff.1 hb))
  exact ⟨_, rfl, s.sameBut_cmd u _ _ h (congrArg _ e) (hu ▸ s.startBit_pending ..) fun off hn => ⟨hn, congrArg (State.reg · off) e⟩⟩

/-- A retry that has started ends with RETRY 0 and shows what its run `w` shows. -/
theorem epochRetry_ends {w : State} {P : State → Prop} (hb : u.bit Reg.CPH_EPOCH_CTL.RETRY = true) {r : Rd} {tries : List (Pg × Bool × Pg)} {after : Pg}
    (hw : u.epochAgain r tries after = w)
    (hP : ∀ t, t.bit Reg.CPH_EPOCH_CTL.RETRY = false → (∀ off, off ∉ wrapRegs → off ≠ Reg.CPH_EPOCH_CTL → t.reg off = w.reg off) → P t) :
    Completes (.epochRetry v r tries after) s P := by
  have e := (State.epochRetry_eq hu r tries after).trans (if_pos hb)
  rw [hw] at e
  refine completes_records rfl h e fun t _ _ _ hr => hP t ?_ fun off hn hne => (hr off hn).trans (State.reg_setFld_ne _ _ (Ne.symm hne))
  rw [State.bit_congr _ _ _ (hr _ (by decide)), State.bit_setFld_zero _ _ le_rfl (by decide)]

end Retry

/-- Settles O45: a record programmed where NVM was erased reads back; each command is the write that is due, or changes nothing. -/
theorem nvmRecords : Obligations.NvmRecords := by
  unfold Obligations.NvmRecords
  intro s h
  refine ⟨fun l k rest x hp hx hk hw => ⟨setWrite_stores h hp hx hk hw, setWrite_fails h hp hx hk hw⟩,
    fun l e p back hn => completes_still rfl h (s.cleared.setWrite_waits (l := l) e p back hn), fun qi j hq hj =>
      ⟨repairMapWrite_stores h hq hj, fun n => repairMapWrite_fails h hq hj n, fun p => repairMapWrite_full h hq hj p⟩,
    fun p hq => completes_still rfl h (s.cleared.mapWrite_idle hq p), mapWriteRetry_frees h, fun v u hu => ⟨fun i after hb he hf => ?_,
      fun r tries after hb hr => ?_, fun r tries after hb => epochRetry_waits h hu.symm hb r tries after⟩⟩
  · obtain ⟨hepoch, hstate⟩ := State.epochRun_wins after he hf
    refine epochRetry_ends h hu.symm hb (if_pos rfl) fun t ht hreg => ⟨ht, ?_, ?_⟩
    · rw [State.fld_congr _ _ _ (hreg _ (by decide) (by decide)), hepoch]
    · rw [State.fld_congr _ _ _ (hreg _ (by decide) (by decide)), hstate]
  · obtain ⟨hstate, hfail⟩ := (u.rdTimeout r).epochReadFailed_shows
    refine epochRetry_ends h hu.symm hb (if_neg hr) fun t ht hreg => ⟨ht, ?_, ?_⟩
    · rw [State.fld_congr _ _ _ (hreg _ (by decide) (by decide)), hstate]
    · rw [State.bit_congr _ _ _ (hreg _ (by decide) (by decide)), hfail]

end Sys2Proof.Machine
end

section
/-! SUPPORT. The decoder's passage of a frame: entry, refinement, release, and the tag check behind it (R28, R29, R146-R149, R178-R181, R274). -/

namespace Sys2Proof.Machine

open Sys2Proof

/-! ### Datapath events and a line's received frames -/

@[simp] theorem State.raiseDpIf_evQ (s : State) (c : Bool) (f : Fr) : (s.raiseDpIf c f).evQ = s.evQ ++ if c then [f] else [] := by
  cases c with
  | true => exact s.raiseDp_evQ f
  | false => exact (List.append_nil _).symm

/-- One event for each entry of a list: they are queued, and nothing is driven out. -/
theorem State.raiseDp_each {α : Type} (f : Fr) (xs : List α) (s : State) :
    (xs.foldl (fun s _ => s.raiseDp f) s).evQ = s.evQ ++ xs.map (fun _ => f) ∧ (xs.foldl (fun s _ => s.raiseDp f) s).out = s.out := by
  refine ⟨?_, foldl_keeps State.out _ (fun u _ => State.out_of_outer (u.outer_raiseDp f)) xs s⟩
  induction xs generalizing s with
  | nil => exact (List.append_nil _).symm
  | cons x xs ih => rw [List.foldl_cons, ih, State.raiseDp_evQ, List.append_assoc, List.map_cons, List.singleton_append]

/-- A change of the decoder's statistics touches neither the queued events nor what is driven out. -/
theorem State.modFec_leaves (s : State) (l : Nat) (f : FecSt → FecSt) : (s.modFec l f).evQ = s.evQ ∧ (s.modFec l f).out = s.out :=
  ⟨(s.modLn_besides l _).2.1, s.modLn_out l _⟩

/-- A received frame put in its place changes the line's frames alone. -/
theorem State.setRx_leaves (s : State) (l i : Nat) (f : RxFrame) : ((s.setRx l i f).ln l).rxq = (s.ln l).rxq.set i f ∧
    (s.setRx l i f).evQ = s.evQ ∧ (s.setRx l i f).out = s.out := by
  unfold State.setRx
  rw [State.ln_modLn]
  exact ⟨rfl, (s.modLn_besides l _).2.1, s.modLn_out l _⟩

@[simp] theorem State.ln_raiseDpIf (s : State) (c : Bool) (f : Fr) (l : Nat) : (s.raiseDpIf c f).ln l = s.ln l := by
  cases c with
  | true => exact s.ln_raiseDp f l
  | false => rfl

/-! ### The tag check (R108, R146-R149) -/

/-- `t` has driven out what `s` has, and queues its datapath events behind those of `s`. -/
structure State.Queues (s t : State) : Prop where
  out : t.out = s.out
  evQ : s.evQ <+: t.evQ

namespace State.Queues

theorem refl (s : State) : s.Queues s := ⟨rfl, List.prefix_refl _⟩

variable {s t : State}

theorem raiseDp (h : s.Queues t) (f : Fr) : s.Queues (t.raiseDp f) :=
  ⟨(State.out_of_outer (t.outer_raiseDp f)).trans h.out, by rw [State.raiseDp_evQ]; exact h.evQ.trans (List.prefix_append _ _)⟩

theorem raiseDpIf (h : s.Queues t) (c : Bool) (f : Fr) : s.Queues (t.raiseDpIf c f) := by
  cases c with
  | true => exact h.raiseDp f
  | false => exact h

theorem modLn (h : s.Queues t) (l : Nat) (f : Line → Line) : s.Queues (t.modLn l f) :=
  ⟨(t.modLn_out l f).trans h.out, by rw [(t.modLn_besides l f).2.1]; exact h.evQ⟩

theorem frameReady (h : s.Queues t) (l : Nat) (bytes : List Byte) (sl : Nat) (errored : Bool) : s.Queues (t.frameReady l bytes sl errored) := by
  unfold State.frameReady
  exact h.modLn l _

theorem searchStart (h : s.Queues t) (l : Nat) : s.Queues (t.searchStart l) := by
  unfold State.searchStart
  split
  · exact h
  · exact h.modLn l _

theorem tagTest (h : s.Queues t) (l : Nat) (f : RxFrame) (tag ct : List Byte) : s.Queues (t.tagTest l f tag ct) := by
  unfold State.tagTest
  extract_lets sl phase slot ks passed failed
  split
  · exact (h.raiseDp _).frameReady ..
  · split
    · exact h.frameReady ..
    · extract_lets iv aad want j0 tg noted
      split
      · exact ((h.modLn l _).modLn l _).frameReady ..
      · split
        · exact (h.raiseDp _).frameReady ..
        · have hn : s.Queues noted := ((h.raiseDp _).modLn l _).modLn l _
          split
          · exact (hn.searchStart l).frameReady ..
          · exact hn.frameReady ..

theorem tagCheck (h : s.Queues t) (l : Nat) : s.Queues (t.tagCheck l) := by
  unfold State.tagCheck
  split
  · exact h
  · split
    · exact h
    · split
      · exact h
      · extract_lets a ct b
        have ha : s.Queues a := h.modLn l _
        have hb : s.Queues b := ha.raiseDpIf ..
        split
        · exact ha.frameReady ..
        · split
          · exact (hb.raiseDp _).frameReady ..
          · split
            · exact hb.frameReady ..
            · exact hb.tagTest ..

end State.Queues

/-! ### Entry (R178, R179) -/

theorem State.holdFrame_keeps (s : State) (l : Nat) (f : RxFrame) : (s.holdFrame l f).fn = f.fn ∧ (s.holdFrame l f).cap = f.cap := by
  unfold State.holdFrame
  extract_lets x
  split <;> exact ⟨rfl, rfl⟩

/-- Whether a frame's first decoding leaves it iterations for a refinement pass (R181). -/
def RxFrame.loops (f : RxFrame) : Bool := f.loop && decide (10 ≤ f.cap)

/-- A frame's first decoding, under its cap or the part of it that comes before a refinement pass. -/
def State.firstDecode (s : State) (l : Nat) (f : RxFrame) (errs : List StoreErr) : List CwDec :=
  frameDecode f.fmt (s.sh (Reg.FEC_DEC_CFG.OFFSET l)) (if f.loops then 4 else f.cap) (s.frameMetrics l f) errs

/-- The oldest waiting frame enters: its events are queued, and it stands in its place with its metrics and its first decoding. -/
theorem State.decEntry_enters (s : State) (l : Nat) (errs : List StoreErr) {i : Nat} {f : RxFrame} (hf : s.rxAt l (·.stage == 0) = some (i, f)) :
    ∃ g, s.decEntry l errs = ((s.raiseDpIf ((s.frameMetrics l f).any (· == 0)) (Reg.FEC_EVENT.ERASURE l)).raiseDpIf (!errs.isEmpty)
        (Reg.FEC_EVENT.STORE_ERR l)).setRx l i g ∧
      g.fn = f.fn ∧ g.cap = f.cap ∧ g.metrics = s.frameMetrics l f ∧ g.cws = s.firstDecode l f errs ∧
      g.stage = if f.loops && (s.firstDecode l f errs).any (fun c => !c.ok) then 1 else 2 := by
  unfold State.decEntry State.firstDecode RxFrame.loops
  rw [hf]
  dsimp only
  generalize s.frameMetrics l f = ms
  generalize frameDecode _ _ _ _ _ = cws
  refine ⟨_, rfl, ?_, ?_, rfl, rfl, rfl⟩
  · split
    · exact (State.holdFrame_keeps ..).1
    · rfl
  · split
    · exact (State.holdFrame_keeps ..).2
    · rfl

theorem State.decEntry_idle (s : State) (l : Nat) (errs : List StoreErr) (hn : s.rxAt l (·.stage == 0) = none) : s.decEntry l errs = s := by
  unfold State.decEntry
  rw [hn]

/-! ### Refinement (R181, R274) -/

/-- A frame's second decoding, from the refined metrics, with the iterations of the first counted in. -/
def RxFrame.secondDecode (f : RxFrame) (off : Nat) (errs : List StoreErr) : List CwDec :=
  ((frameDecode f.fmt off (f.cap - 4) f.refineMetrics errs).zip f.first).map fun p => { p.1 with iters := p.1.iters + p.2 }

/-- The frame after its refinement pass, with the codewords decoded in it; it gives up what it held for the pass. -/
def RxFrame.refined (f : RxFrame) (off : Nat) (errs : List StoreErr) (cws : List CwDec) : RxFrame :=
  { f with stage := 2, eq := [], around := [], other := [], metrics2 := f.refineMetrics, offset := off, lost := f.lost ++ errs, cws := cws }

theorem RxFrame.refined_cws (f : RxFrame) (off : Nat) (errs : List StoreErr) (cws : List CwDec) : (f.refined off errs cws).cws = cws := rfl

theorem State.refine_passes (s : State) (l : Nat) (errs : List StoreErr) {i : Nat} {f : RxFrame} (hf : s.rxAt l (·.stage == 1) = some (i, f)) :
    s.refine l errs = ((s.emit (.refine l (f.fn.getD 0) f.refineRails)).raiseDpIf (!errs.isEmpty) (Reg.FEC_EVENT.STORE_ERR l)).setRx l i
      (f.refined (s.sh (Reg.FEC_DEC_CFG.OFFSET l)) errs (f.secondDecode (s.sh (Reg.FEC_DEC_CFG.OFFSET l)) errs)) := by
  unfold State.refine
  rw [hf]
  rfl

theorem State.refine_idle (s : State) (l : Nat) (errs : List StoreErr) (hn : s.rxAt l (·.stage == 1) = none) : s.refine l errs = s := by
  unfold State.refine
  rw [hn]

/-! ### Release (R26, R28, R29, R180) -/

/-- The information bits that a frame leaves with, and how many of its amplitude blocks failed (R178, R196). -/
def RxFrame.leavesInfo (f : RxFrame) (cut : List (Nat × Nat)) : List Bool × Nat :=
  frameInfo f.fmt (((f.leaves cut).1.map (·.bits)).toArray)

/-- A frame that leaves adds to the statistics, queues its events, and its bits are driven out. -/
def State.givesOut (s : State) (l : Nat) (f : RxFrame) (cut : List (Nat × Nat)) : State :=
  (((f.leaves cut).2.foldl (fun s _ => s.raiseDp (Reg.FEC_EVENT.CUTOFF l))
    ((s.modFec l (·.add f (f.leaves cut).1)).raiseDpIf ((f.leaves cut).1.any (!·.ok)) (Reg.FEC_EVENT.UNCORR l))).count
      (miscCtr (17 + 8 * l) 1) (f.leavesInfo cut).2).emit (.decoded l (f.fn.getD 0) (f.leavesInfo cut).1)

theorem State.givesOut_leaves (s : State) (l : Nat) (f : RxFrame) (cut : List (Nat × Nat)) :
    (s.givesOut l f cut).out = s.out ++ [.decoded l (f.fn.getD 0) (f.leavesInfo cut).1] ∧
    (s.givesOut l f cut).evQ = s.evQ ++ (if (f.leaves cut).1.any (!·.ok) then [Reg.FEC_EVENT.UNCORR l] else []) ++
      (f.leaves cut).2.map (fun _ => Reg.FEC_EVENT.CUTOFF l) := by
  unfold State.givesOut
  obtain ⟨hev, hout⟩ := State.raiseDp_each (Reg.FEC_EVENT.CUTOFF l) (f.leaves cut).2
    ((s.modFec l (·.add f (f.leaves cut).1)).raiseDpIf ((f.leaves cut).1.any (!·.ok)) (Reg.FEC_EVENT.UNCORR l))
  simp only [State.emit, State.count_frame, hev, hout, State.raiseDpIf_frame, State.raiseDpIf_evQ, State.modFec_leaves, and_self]

/-- In its slot the oldest frame leaves; what the tag check of the line tells comes behind. -/
theorem State.decRelease_due (s : State) (l : Nat) (cut : List (Nat × Nat)) {i : Nat} {f : RxFrame} (hf : s.rxAt l (·.stage < 3) = some (i, f))
    (hd : s.slotDue l f = true) : (s.givesOut l f cut).Queues (s.decRelease l cut) := by
  unfold State.decRelease
  rw [hf]
  dsimp only
  rw [if_neg (by rw [hd]; decide)]
  exact ((State.Queues.refl (s.givesOut l f cut)).modLn l _).tagCheck l

theorem State.decRelease_idle (s : State) (l : Nat) (cut : List (Nat × Nat))
    (hn : ∀ i f, s.rxAt l (·.stage < 3) = some (i, f) → s.slotDue l f = false) : s.decRelease l cut = s := by
  unfold State.decRelease
  split
  · rfl
  · next i f hf => exact if_pos (by rw [hn i f hf]; rfl)

/-! ### The commands -/

/-- A command of the datapath leaves of a line, the queued events and what is driven out what its effect `w` leaves. -/
theorem completes_passage {c : Instr} {s w : State} {f : State → State} {P : State → Prop} (hc : exec c s = .next (s.cmdRun f)) (h : s.clocked)
    (hw : f s.cleared = w) (l : Nat) (hP : ∀ t, t.ln l = w.ln l → t.evQ = w.evQ → t.out = w.out → P t) : Completes c s P := by
  subst hw
  refine completes_run hc h.2 (hP _ (s.ln_cmd f h.1 l) ?_ ?_) <;> simp only [s.cmd_frame f h.1]

section Commands

variable {s : State} {l : Fin 2} {i : Nat} {f : RxFrame} (h : s.clocked)
include h

theorem decoderEntry_enters (hf : s.rxAt l (·.stage == 0) = some (i, f)) (errs : List StoreErr) : Completes (.decoderEntry l errs) s fun t =>
    t.evQ = s.evQ ++ (if (s.frameMetrics l f).any (· == 0) then [Reg.FEC_EVENT.ERASURE l] else []) ++
        (if errs.isEmpty then [] else [Reg.FEC_EVENT.STORE_ERR l]) ∧
      ∃ g, (t.ln l).rxq = (s.ln l).rxq.set i g ∧ g.fn = f.fn ∧ g.cap = f.cap ∧ g.metrics = s.frameMetrics l f ∧ g.cws = s.firstDecode l f errs ∧
        g.stage = if f.loops && (s.firstDecode l f errs).any (fun c => !c.ok) then 1 else 2 := by
  obtain ⟨g, e, hg⟩ := s.cleared.decEntry_enters l errs hf
  refine completes_passage rfl h e l fun t hl hev _ => ⟨?_, g, ?_, hg⟩
  · rw [hev, (State.setRx_leaves ..).2.1, State.raiseDpIf_evQ, State.raiseDpIf_evQ]
    cases errs <;> rfl
  · rw [hl, (State.setRx_leaves ..).1, State.ln_raiseDpIf, State.ln_raiseDpIf]
    rfl

theorem refinementPass_passes (hf : s.rxAt l (·.stage == 1) = some (i, f)) (errs : List StoreErr) : Completes (.refinementPass l errs) s fun t =>
    t.out = [.refine l (f.fn.getD 0) f.refineRails] ∧
      (t.ln l).rxq = (s.ln l).rxq.set i
        (f.refined (s.sh (Reg.FEC_DEC_CFG.OFFSET l)) errs (f.secondDecode (s.sh (Reg.FEC_DEC_CFG.OFFSET l)) errs)) := by
  refine completes_passage rfl h (s.cleared.refine_passes l errs hf) l fun t hl _ hout => ⟨?_, ?_⟩
  · rw [hout, (State.setRx_leaves ..).2.2]
    simp only [State.raiseDpIf_frame]
    rfl
  · rw [hl, (State.setRx_leaves ..).1, State.ln_raiseDpIf]
    rfl

theorem decoderRelease_leaves (hf : s.rxAt l (·.stage < 3) = some (i, f)) (hd : s.slotDue l f = true) (cut : List (Nat × Nat)) :
    Completes (.decoderRelease l cut) s fun t => t.out = [.decoded l (f.fn.getD 0) (f.leavesInfo cut).1] ∧
      s.evQ ++ (if (f.leaves cut).1.any (!·.ok) then [Reg.FEC_EVENT.UNCORR l] else []) ++ (f.leaves cut).2.map (fun _ => Reg.FEC_EVENT.CUTOFF l) <+:
        t.evQ := by
  obtain ⟨hout, hev⟩ := s.cleared.givesOut_leaves l f cut
  obtain ⟨hkeep, hmore⟩ := s.cleared.decRelease_due l cut hf hd
  rw [hev] at hmore
  exact completes_passage rfl h rfl l fun t _ htev htout => ⟨htout.trans (hkeep.trans hout), htev ▸ hmore⟩

end Commands

/-- Settles O37: entry and refinement by the frame they put in its place, release by what it drives out and the events it queues. -/
theorem decoderPassage : Obligations.DecoderPassage := by
  unfold Obligations.DecoderPassage
  intro s l h
  refine ⟨fun errs i f hf => decoderEntry_enters h hf errs, fun errs hn => completes_idle rfl h (s.cleared.decEntry_idle l errs hn),
    fun errs i f hf => ?_, fun errs hn => completes_idle rfl h (s.cleared.refine_idle l errs hn),
    fun cut i f hf hd => decoderRelease_leaves h hf hd cut, fun cut hn => completes_idle rfl h (s.cleared.decRelease_idle l cut hn)⟩
  obtain ⟨t, ht, hout, hq⟩ := refinementPass_passes h hf errs
  exact ⟨t, ht, hout, _, hq, rfl, rfl, rfl, rfl, f.refined_cws ..⟩

end Sys2Proof.Machine
end

section
/-! SUPPORT. The spectral mask: its violation and its clearing (R212). -/

namespace Sys2Proof.Machine

open Sys2Proof

/-! ### The mask's state -/

/-- The event of a mask that becomes violated, or clear. -/
def maskEvent (l : Nat) (bad : Bool) : Fr := if bad then Reg.TXP_EVENT.MASK_VIOL l else Reg.TXP_EVENT.MASK_CLEAR l

/-- The mask becomes violated, or clear: it is marked, shown and raised (R212). -/
def State.maskTurn (s : State) (l : Nat) (bad : Bool) : State :=
  ((s.modLn l fun y => { y with maskBad := bad }).setFld (Reg.TXP_STATUS.MASK_VIOL l) (b2n bad)).raise (maskEvent l bad)

/-- Some bin has been in excess in as many ticks in a row as DEBOUNCE says. -/
def State.maskLong (s : State) (l : Nat) : Bool := (s.ln l).maskRun.any fun p => decide (s.sh (Reg.TXP_MASK_CFG.DEBOUNCE l) ≤ p.2)

theorem State.maskViol_due (s : State) (l : Nat) (hb : (s.ln l).maskBad = false) (hr : s.maskLong l = true)
    (hd : 1 ≤ s.sh (Reg.TXP_MASK_CFG.DEBOUNCE l)) : s.maskViol l = s.maskTurn l true := by
  refine if_pos ?_
  rw [hb, ← State.maskLong, hr, decide_eq_true hd]
  rfl

theorem State.maskViol_idle (s : State) (l : Nat)
    (h : (s.ln l).maskBad = true ∨ s.maskLong l = false ∨ s.sh (Reg.TXP_MASK_CFG.DEBOUNCE l) = 0) : s.maskViol l = s := by
  refine if_neg ?_
  rw [← State.maskLong, Bool.and_eq_true, Bool.and_eq_true, decide_eq_true_iff, Bool.not_eq_true']
  rintro ⟨⟨hb, hr⟩, hd⟩
  obtain h | h | h := h
  · exact Bool.noConfusion (hb.symm.trans h)
  · exact Bool.noConfusion (hr.symm.trans h)
  · omega

theorem State.maskClear_due (s : State) (l : Nat) (hb : (s.ln l).maskBad = true)
    (hd : s.sh (Reg.TXP_MASK_CFG.DEBOUNCE l) ≤ (s.ln l).maskCalm) : s.maskClear l = s.maskTurn l false := by
  refine if_pos ?_
  rw [hb, decide_eq_true hd]
  rfl

theorem State.maskClear_idle (s : State) (l : Nat)
    (h : (s.ln l).maskBad = false ∨ (s.ln l).maskCalm < s.sh (Reg.TXP_MASK_CFG.DEBOUNCE l)) : s.maskClear l = s := by
  refine if_neg ?_
  rw [Bool.and_eq_true, decide_eq_true_iff]
  rintro ⟨hb, hd⟩
  obtain h | h := h
  · exact Bool.noConfusion (hb.symm.trans h)
  · omega

/-! ### What a turn leaves -/

/-- The transmit processor's status and events are apart from each other and from the registers that phase 8 writes. -/
theorem txpRegs_beside (l : Fin 2) : Reg.TXP_STATUS l ∉ faultRegs ∧ Reg.TXP_EVENT l ∉ faultRegs ∧ Reg.TXP_STATUS l ≠ Reg.TXP_EVENT l ∧
    Reg.TXP_STATUS l ≠ Reg.FLT_EVENT := by
  revert l
  decide

theorem maskEvent_off (l : Nat) (bad : Bool) : (maskEvent l bad).off = Reg.TXP_EVENT l := by cases bad <;> rfl

theorem maskEvent_bit (l : Nat) (bad : Bool) : (maskEvent l bad).lo = (maskEvent l bad).hi ∧ (maskEvent l bad).hi < 32 := by
  cases bad
  · exact ⟨rfl, show 3 < 32 by decide⟩
  · exact ⟨rfl, show 2 < 32 by decide⟩

section Turn

variable (s : State) (l : Fin 2) (bad : Bool)

theorem State.rest_maskTurn : (s.maskTurn l bad).rest = (s.modLn l fun y => { y with maskBad := bad }).rest :=
  (State.rest_raise _ _).trans (State.rest_setFld _ _ _)

theorem State.reg_maskTurn_ne {off : Nat} (hs : off ≠ Reg.TXP_STATUS l) (he : off ≠ Reg.TXP_EVENT l) (hf : off ≠ Reg.FLT_EVENT) :
    (s.maskTurn l bad).reg off = s.reg off :=
  calc (s.maskTurn l bad).reg off
    _ = ((s.modLn l _).setFld (Reg.TXP_STATUS.MASK_VIOL l) (b2n bad)).reg off := State.reg_raise_ne _ _ (maskEvent_off l bad ▸ he) hf
    _ = (s.modLn l _).reg off := State.reg_setFld_ne _ _ hs.symm
    _ = s.reg off := s.reg_modLn l _ off

/-- The status shows the mask as it turned. -/
theorem State.bit_maskTurn_status : (s.maskTurn l bad).bit (Reg.TXP_STATUS.MASK_VIOL l) = bad := by
  obtain ⟨-, -, hse, hsf⟩ := txpRegs_beside l
  refine (State.bit_congr _ _ _ (State.reg_raise_ne _ _ (maskEvent_off l bad ▸ hse) hsf)).trans ?_
  cases bad
  · exact State.bit_setFld_zero _ _ le_rfl (show 8 < 32 by decide)
  · exact State.bit_setFld _ _ rfl (show 8 < 32 by decide)

theorem State.bit_maskTurn_event : (s.maskTurn l bad).bit (maskEvent l bad) = true :=
  State.bit_raise _ _ (maskEvent_bit l bad).1 (maskEvent_bit l bad).2

end Turn

/-! ### The commands -/

/-- A step of the tick that turns the mask marks its line, shows it and raises it, and does nothing else. -/
theorem completes_maskTurn {c : Instr} {s : State} {f : State → State} (l : Fin 2) (bad : Bool) (hc : exec c s = .next (s.cmdLive f))
    (h : s.working) (hf : f s.cleared = s.cleared.maskTurn l bad) : Completes c s fun t =>
      (s.modLn l fun y => { y with maskBad := bad }).sameBut t (Reg.TXP_STATUS l :: Reg.TXP_EVENT l :: faultRegs) ∧
      t.bit (Reg.TXP_STATUS.MASK_VIOL l) = bad ∧ t.bit (maskEvent l bad) = true := by
  obtain ⟨hs, he, -⟩ := txpRegs_beside l
  have hmark := (State.Counted.cleared s).modLn l fun y => { y with maskBad := bad }
  refine completes_live hc h.2 ⟨s.sameBut_cmdTick _ _ f h.1 ?_ (s.modLn_pending _ _) fun off hoff => ?_, ?_, ?_⟩
  · rw [hf, State.rest_maskTurn, hmark.rest]
  · simp only [List.mem_cons, not_or] at hoff
    obtain ⟨h1, h2, h3⟩ := hoff
    have hflt : off ≠ Reg.FLT_EVENT := fun e => h3 (e ▸ by decide)
    rw [hf, State.reg_maskTurn_ne _ l bad h1 h2 hflt, State.reg_modLn, State.reg_cleared]
    exact ⟨h3, rfl⟩
  · rw [s.bit_cmdTick f h.1 _ hs, hf, State.bit_maskTurn_status]
  · rw [s.bit_cmdTick f h.1 _ (maskEvent_off l bad ▸ he), hf, State.bit_maskTurn_event]

/-- Settles O33: a violation and its clearing are the same turn of the mask, each taken when it is due and left when it is not. -/
theorem spectrumMask : Obligations.SpectrumMask := by
  unfold Obligations.SpectrumMask
  intro s l h
  exact ⟨fun hb hr hd => completes_maskTurn l true rfl h (s.cleared.maskViol_due l hb hr hd),
    fun hn => completes_tick_idle rfl h (s.cleared.maskViol_idle l hn),
    fun hb hd => completes_maskTurn l false rfl h (s.cleared.maskClear_due l hb hd),
    fun hn => completes_tick_idle rfl h (s.cleared.maskClear_idle l hn)⟩

end Sys2Proof.Machine
end

section
/-! SUPPORT. The receive DSP's state beside the line: readers that its changes leave, and the events it raises (R257, R258, R282). -/

namespace Sys2Proof.Machine

open Sys2Proof

/-! ### Changes of a line, once more -/

/-- Two changes that agree on the line as it stands are one. -/
theorem State.modLn_congr (s : State) {l : Nat} {f g : Line → Line} (h : f (s.ln l) = g (s.ln l)) : s.modLn l f = s.modLn l g :=
  congrArg (s.setLn l) h

theorem State.modLn_self (s : State) {l : Nat} {f : Line → Line} (h : f (s.ln l) = s.ln l) : s.modLn l f = s := by
  unfold State.modLn State.setLn
  rw [h]
  unfold State.ln
  split <;> rfl

theorem State.rest_modLn (s : State) (l : Nat) (f : Line → Line) : (s.modLn l f).rest = s.rest.modLn l f := by
  unfold State.modLn State.setLn State.ln
  split <;> rfl

theorem State.modRxp_congr (s : State) {l : Nat} {f g : RxpSt → RxpSt} (h : f (s.rxp l) = g (s.rxp l)) : s.modRxp l f = s.modRxp l g :=
  s.modLn_congr (congrArg (fun x => { s.ln l with rxp := x }) h)

theorem State.modRxp_id (s : State) (l : Nat) : s.modRxp l id = s := s.modLn_self rfl

theorem State.modRxp_modRxp (s : State) (l : Nat) (f g : RxpSt → RxpSt) : (s.modRxp l f).modRxp l g = s.modRxp l fun x => g (f x) :=
  s.modLn_modLn l _ _

/-! ### What dispersion is measured by -/

/-- `t` has the datapath's copies of `s`, and the same receive format of line `l`: what a dispersion's spread, its limits and a scan depend on. -/
structure State.SameLink (s t : State) (l : Nat) : Prop where
  shadow : t.shadow = s.shadow
  rxFmt : (t.ln l).rxFmt = (s.ln l).rxFmt

namespace State.SameLink

theorem modLn (s : State) {l : Nat} {g : Line → Line} (h : (g (s.ln l)).rxFmt = (s.ln l).rxFmt) : s.SameLink (s.modLn l g) l :=
  ⟨(s.modLn_besides l g).1, (congrArg Line.rxFmt (s.ln_modLn l g)).trans h⟩

theorem modRxp (s : State) (l : Nat) (f : RxpSt → RxpSt) : s.SameLink (s.modRxp l f) l := modLn s rfl

theorem of_counted {s t : State} (l : Nat) : s.Counted t → s.SameLink t l := by
  rintro ⟨c, q, o, rfl⟩
  exact ⟨rfl, rfl⟩

variable {s t u : State} {l : Nat}

theorem trans (h : s.SameLink t l) (h2 : t.SameLink u l) : s.SameLink u l := ⟨h2.shadow.trans h.shadow, h2.rxFmt.trans h.rxFmt⟩

variable (h : s.SameLink t l)
include h

theorem sh (e : Fr) : t.sh e = s.sh e := by
  unfold State.sh
  rw [h.shadow]

theorem spreadUnit : t.spreadUnit l = s.spreadUnit l := by
  unfold State.spreadUnit State.rxFmtW State.fmt
  rw [h.rxFmt, h.shadow, h.sh]

theorem cdMax : t.cdMax l = s.cdMax l := by
  unfold State.cdMax
  rw [h.spreadUnit]

theorem cdClip (d : Int) : t.cdClip l d = s.cdClip l d := by
  unfold State.cdClip
  rw [h.cdMax]

theorem cdSet : t.cdSet l = s.cdSet l := by
  unfold State.cdSet
  rw [h.sh]

theorem scanTicks : t.scanTicks l = s.scanTicks l := by
  have hr : t.cdRange l = s.cdRange l := by
    simp only [State.cdRange, h.cdMax, h.sh, h.cdSet, h.cdClip]
  unfold State.scanTicks State.scanCount
  rw [h.spreadUnit, h.sh, hr]

end State.SameLink

/-! ### Events -/

/-- The receive DSP's events and controls are apart from the registers that phase 8 writes. -/
theorem rxpRegs_beside (l : Fin 2) : Reg.RXP_EVENT l ∉ faultRegs ∧ Reg.RXP_EVENT l ≠ Reg.FLT_EVENT ∧ Reg.RXP_CAP_CTL l ∉ wrapRegs ∧
    Reg.RXP_CAP_CTL l ≠ Reg.GLB_TICK_EVENT ∧ Reg.RXP_CAP_CTL l ≠ Reg.FLT_EVENT := by
  revert l
  decide

/-- A change of the receive DSP that raises an event. -/
def State.signal (s : State) (l : Nat) (g : RxpSt → RxpSt) (e : Fr) : State := (s.modRxp l g).raise e

/-- The same where it is due. -/
def State.signalIf (s : State) (c : Bool) (l : Nat) (g : RxpSt → RxpSt) (e : Fr) : State := if c then s.signal l g e else s

section Signal

variable (s : State) (l : Nat) (g : RxpSt → RxpSt) (e : Fr)

theorem State.rest_signal : (s.signal l g e).rest = (s.modRxp l g).rest := State.rest_raise _ e

theorem State.rxp_signal : (s.signal l g e).rxp l = g (s.rxp l) :=
  (State.rxp_congr (State.ln_of_rest (s.rest_signal l g e) l)).trans (s.rxp_modRxp l g)

theorem State.reg_signal_ne {off : Nat} (h : off ≠ e.off) (hf : off ≠ Reg.FLT_EVENT) : (s.signal l g e).reg off = s.reg off :=
  (State.reg_raise_ne _ e h hf).trans (s.reg_modRxp l g off)

theorem State.bit_signal (hl : e.lo = e.hi) (h2 : e.hi < 32) : (s.signal l g e).bit e = true := State.bit_raise _ e hl h2

theorem State.bit_signal_mono (hl : e.lo = e.hi) (h2 : e.hi < 32) {b : Fr} (hb : b.lo = b.hi) (h : s.bit b = true) : (s.signal l g e).bit b = true :=
  State.bit_raise_mono _ e b hl h2 hb ((State.bit_congr _ _ b (s.reg_modRxp l g b.off)).trans h)

variable (c : Bool)

theorem State.rest_signalIf : (s.signalIf c l g e).rest = (s.modRxp l (bif c then g else id)).rest := by
  cases c with
  | true => exact s.rest_signal l g e
  | false => exact congrArg State.rest (s.modRxp_id l).symm

theorem State.reg_signalIf_ne {off : Nat} (h : off ≠ e.off) (hf : off ≠ Reg.FLT_EVENT) : (s.signalIf c l g e).reg off = s.reg off := by
  cases c with
  | true => exact s.reg_signal_ne l g e h hf
  | false => rfl

theorem State.bit_signalIf_mono (hl : e.lo = e.hi) (h2 : e.hi < 32) {b : Fr} (hb : b.lo = b.hi) (h : s.bit b = true) :
    (s.signalIf c l g e).bit b = true := by
  cases c with
  | true => exact s.bit_signal_mono l g e hl h2 hb h
  | false => exact h

end Signal

/-! ### Steps of the tick -/

/-- A step of the tick whose effect `w` is the change `g` of a line's receive DSP, but for what raising events touches, their registers among
`offs`, leaves that change and the events that `w` shows. -/
theorem completes_raises {c : Instr} {s w : State} {f : State → State} (l : Fin 2) (g : RxpSt → RxpSt) (offs : List Nat)
    (hc : exec c s = .next (s.cmdLive f)) (h : s.working) (hw : f s.cleared = w) (hrest : w.rest = (s.cleared.modRxp l g).rest)
    (hreg : ∀ off, off ∉ offs → off ≠ Reg.FLT_EVENT → w.reg off = s.reg off) :
    Completes c s fun t => (s.modRxp l g).sameBut t (offs ++ faultRegs) ∧ ∀ e : Fr, e.off ∉ faultRegs → t.bit e = w.bit e := by
  subst hw
  have hrest' := hrest.trans ((State.Counted.cleared s).modLn l _).rest
  refine completes_live hc h.2 ⟨s.sameBut_cmdTick _ _ f h.1 hrest' (s.modRxp_pending l g) fun off hoff => ?_, s.bit_cmdTick f h.1⟩
  obtain ⟨ho, hf⟩ := not_or.1 (mt List.mem_append.2 hoff)
  exact ⟨hf, (hreg off ho fun e => hf (e ▸ by decide)).trans (s.reg_modRxp l g off).symm⟩

/-- A command that completes so completes with what follows from it. -/
theorem Completes.imp {c : Instr} {s : State} {P Q : State → Prop} (hPQ : ∀ t, P t → Q t) : Completes c s P → Completes c s Q
  | ⟨t, ht, hP⟩ => ⟨t, ht, hPQ t hP⟩

/-- A step of the tick that changes a line's receive DSP and raises one of its events does nothing else. -/
theorem completes_signal {c : Instr} {s : State} {f : State → State} (l : Fin 2) (g : RxpSt → RxpSt) (e : Fr) (hc : exec c s = .next (s.cmdLive f))
    (h : s.working) (hw : f s.cleared = s.cleared.signal l g e) (he : e.off = Reg.RXP_EVENT l) (hl : e.lo = e.hi) (h2 : e.hi < 32) :
    Completes c s fun t => (s.modRxp l g).sameBut t (Reg.RXP_EVENT l :: faultRegs) ∧ t.bit e = true :=
  (completes_raises l g [Reg.RXP_EVENT l] hc h hw (s.cleared.rest_signal l g e) fun _ ho hf =>
    s.cleared.reg_signal_ne l g e (fun h => ho (List.mem_singleton.2 (h.trans he))) hf).imp
      fun _ ⟨hsame, hbit⟩ => ⟨hsame, (hbit e (he ▸ (rxpRegs_beside l).1)).trans (s.cleared.bit_signal l g e hl h2)⟩

end Sys2Proof.Machine
end

section
/-! SUPPORT. Acquisition: entering a state, criteria, failure, budgets (R258, R275, R278). -/

namespace Sys2Proof.Machine

open Sys2Proof

/-! ### Entering a state -/

/-- The receive DSP that has begun acquisition state `st`. -/
def RxpSt.begun (x : RxpSt) (st : Nat) : RxpSt :=
  { x with state := st, ticks := 0, light := 0, calm := 0, dd := x.dd && st == 7, ddRun := if st = 7 then x.ddRun else 0 }

/-- The line that has begun it: the signal path starts afresh as far as the state needs. -/
def Line.acqBegun (x : Line) (st : Nat) : Line := { x with rxp := x.rxp.begun st, dsp := x.dsp.restart st false }

/-- How long the scan of a line takes: none where the dispersion is forced (R258). -/
def State.scanLen (s : State) (l : Nat) : Nat := if s.sh (Reg.RXP_CD_CFG.CD_MODE l) = 1 then 0 else s.scanTicks l

theorem State.SameLink.scanLen {s t : State} {l : Nat} (h : s.SameLink t l) : t.scanLen l = s.scanLen l := by
  unfold State.scanLen
  rw [h.sh, h.scanTicks]

/-- The line that has entered acquisition state `st`: a scan takes `scan` ticks, an equalizer begins with `ntaps` taps at the spike (log 121). -/
def Line.acqEntered (x : Line) (st ntaps scan : Nat) : Line :=
  { x.acqBegun st with
    rxp := if st = 2 then { x.rxp.begun 2 with scanned := true, scanLeft := scan } else x.rxp.begun st
    dsp := if st = 4 then { x.dsp.restart 4 false with taps := EqTaps.spike ntaps } else x.dsp.restart st false }

/-- The model's count of a state's entry, then the state begun. -/
def State.acqBegun (s : State) (l st : Nat) : State :=
  (((s.acqTally l 0 (st == 1)).acqTally l 1 (st == 3)).modRxp l (·.begun st)).modDsp l (·.restart st false)

section Enter

variable (s : State) (l st : Nat)

theorem State.Counted.acqTally (c : Nat) (b : Bool) : s.Counted (s.acqTally l c b) := by
  cases b with
  | true => exact .count s _ _
  | false => exact .refl s

theorem State.acqBegun_counted : (s.modLn l (·.acqBegun st)).Counted (s.acqBegun l st) := by
  rw [State.acqBegun, State.modDsp, State.modRxp, State.modLn_modLn]
  exact ((State.Counted.acqTally s l 0 (st == 1)).trans (.acqTally _ l 1 (st == 3))).modLn l (·.acqBegun st)

theorem State.acqBegun_link : s.SameLink (s.acqBegun l st) l :=
  (State.SameLink.modLn s rfl).trans (.of_counted l (s.acqBegun_counted l st))

theorem State.acqGo_scan : s.acqGo l 2 =
    (s.acqBegun l 2).modRxp l fun x => { x with scanned := true, scanLeft := (s.acqBegun l 2).scanLen l } := rfl

theorem State.acqGo_blind : s.acqGo l 4 =
    (s.acqBegun l 4).modDsp l fun x => { x with taps := EqTaps.spike ((s.acqBegun l 4).sh (Reg.RXP_EQ_CTL.NTAPS l)) } := rfl

theorem State.acqGo_plain (h2 : st ≠ 2) (h4 : st ≠ 4) : s.acqGo l st = s.acqBegun l st := by
  unfold State.acqGo
  rw [if_neg h2, if_neg h4]
  rfl

/-- Entering a state counts, and changes the line. -/
theorem State.acqGo_counted :
    (s.modLn l (·.acqEntered st (s.sh (Reg.RXP_EQ_CTL.NTAPS l)) (s.scanLen l))).Counted (s.acqGo l st) := by
  have hlink := s.acqBegun_link l st
  have hbegun := s.acqBegun_counted l st
  by_cases h2 : st = 2
  · subst h2
    rw [State.acqGo_scan, hlink.scanLen]
    have h := hbegun.modLn l fun x => { x with rxp := { x.rxp with scanned := true, scanLeft := s.scanLen l } }
    rwa [State.modLn_modLn] at h
  by_cases h4 : st = 4
  · subst h4
    rw [State.acqGo_blind, hlink.sh]
    have h := hbegun.modLn l fun x => { x with dsp := { x.dsp with taps := EqTaps.spike (s.sh (Reg.RXP_EQ_CTL.NTAPS l)) } }
    rwa [State.modLn_modLn] at h
  · simp only [s.acqGo_plain l st h2 h4, Line.acqEntered, if_neg h2, if_neg h4]
    exact hbegun

theorem State.ln_acqGo : (s.acqGo l st).ln l = (s.ln l).acqEntered st (s.sh (Reg.RXP_EQ_CTL.NTAPS l)) (s.scanLen l) :=
  (State.ln_of_rest (s.acqGo_counted l st).rest l).trans (s.ln_modLn l _)

@[simp] theorem State.reg_acqGo (off : Nat) : (s.acqGo l st).reg off = s.reg off := ((s.acqGo_counted l st).reg off).trans (s.reg_modLn l _ off)

end Enter

/-! ### Failure (R275) -/

/-- Acquisition that has failed has told so and is at POWER, its second attempt given up. -/
theorem State.acqFail_leaves (s : State) (l : Nat) : ((s.acqFail l).rxp l).state = 1 ∧ ((s.acqFail l).rxp l).attempt = false ∧
    (s.acqFail l).bit (Reg.RXP_EVENT.ACQ_FAIL l) = true := by
  have hx : (s.acqFail l).rxp l = RxpSt.begun { (s.raise (Reg.RXP_EVENT.ACQ_FAIL l)).rxp l with attempt := false } 1 := by
    refine (congrArg Line.rxp (State.ln_acqGo _ l 1)).trans ?_
    rw [State.modRxp, State.ln_modLn]
    rfl
  refine ⟨by rw [hx]; rfl, by rw [hx]; rfl, ?_⟩
  refine (State.bit_congr _ _ _ ((State.reg_acqGo _ l 1 _).trans (State.reg_modRxp _ l _ _))).trans ?_
  exact s.bit_raise _ rfl (by decide : 1 < 32)

/-! ### Criteria (R275) -/

/-- Whether the criterion of an acquisition state holds for a line. -/
def State.acqMet (s : State) (l : Nat) : Nat → Bool
  | 0 => (s.ln l).tileLock && (s.ln l).rxRelock.isNone
  | 1 => decide (120 ≤ (s.rxp l).light)
  | 2 => decide ((s.rxp l).scanLeft = 0)
  | 3 => (s.rxp l).clkLock
  | 4 => decide (16 ≤ (s.rxp l).calm)
  | 5 => (s.rxp l).freqLock
  | 6 => !(s.frm l).oof
  | _ => false

/-- A scan that ends leaves its best and second-best candidates; a forced dispersion is taken as it is set, or fails when it is clipped (R258). -/
def State.scanEnds (s : State) (l : Nat) : State :=
  if s.sh (Reg.RXP_CD_CFG.CD_MODE l) = 1 then
    if s.cdClip l (s.cdSet l) ≠ s.cdSet l then (s.modRxp l fun x => { x with da := s.cdClip l (s.cdSet l) }).acqFail l
    else (s.modRxp l fun x => { x with da := s.cdSet l, scanned := false }).acqGo l 3
  else (s.modRxp l fun x => { x with
    da := s.scanCand l (bestScore (s.dsp l).scan) ((bestScore (s.dsp l).fine : Nat) - 8),
    second := s.scanCand l (secondScore (s.dsp l).scan (bestScore (s.dsp l).scan)) 0 }).acqGo l 3

/-- What the criterion of a state leads to when it holds: the next state, with what ends beside it. -/
def State.acqNext (s : State) (l : Nat) : Nat → State
  | 1 => (s.modRxp l fun x => { x with attempt := false }).acqGo l 2
  | 2 => s.scanEnds l
  | 6 => (s.acqGo l 7).signal l (fun x => { x with acquired := 0, cds := [] }) (Reg.RXP_EVENT.ACQ_DONE l)
  | k => s.acqGo l (k + 1)

theorem State.acqDone_eq (s : State) (l : Nat) :
    s.acqDone l = if s.rxOn l && s.acqMet l (s.rxp l).state then s.acqNext l (s.rxp l).state else s := by
  cases ho : s.rxOn l with
  | false => exact if_pos (congrArg (!·) ho)
  | true =>
    unfold State.acqDone State.acqMet State.acqNext
    dsimp only
    rw [if_neg (by rw [ho]; decide), Bool.true_and]
    generalize (s.rxp l).state = k
    match k with
    | 0 | 3 | 5 => rfl
    | 1 | 4 => simp only [decide_eq_true_eq]
    | 2 =>
      by_cases hs : (s.rxp l).scanLeft = 0
      · exact (if_neg (not_not.2 hs)).trans (if_pos (decide_eq_true hs)).symm
      · exact (if_pos hs).trans (if_neg (mt of_decide_eq_true hs)).symm
    | 6 =>
      cases (s.frm l).oof with
      | true => exact (if_pos rfl).trans (if_neg Bool.false_ne_true).symm
      | false => exact (if_neg Bool.false_ne_true).trans (if_pos rfl).symm
    | k + 7 => rfl

theorem State.acqDone_stays {s : State} {l k : Nat} (hs : (s.rxp l).state = k) (hm : s.acqMet l k = false) : s.acqDone l = s := by
  rw [s.acqDone_eq, hs, hm, Bool.and_false]
  rfl

/-! ### Budgets (R275) -/

/-- The second attempt: the forced dispersion, the second-best candidate of a scan, or a scan where there was none. -/
def State.acqRetry (s : State) (l : Nat) : State :=
  if s.sh (Reg.RXP_CD_CFG.CD_MODE l) = 1 then (s.modRxp l fun x => { x with attempt := true, da := s.cdClip l (s.cdSet l) }).acqGo l 3
  else if (s.rxp l).scanned then (s.modRxp l fun x => { x with attempt := true, da := x.second }).acqGo l 3
  else (s.modRxp l fun x => { x with attempt := true }).acqGo l 2

theorem State.acqExpiry_past (s : State) (l : Nat) {b : Nat} (hb : acqBudget (s.rxp l).state = some b) (ht : b ≤ (s.rxp l).ticks) :
    s.acqExpiry l = if (s.rxp l).attempt then s.acqFail l else s.acqRetry l := by
  have hl := State.SameLink.modRxp s l fun x => { x with attempt := true }
  unfold State.acqExpiry State.acqRetry
  dsimp only
  rw [hb]
  dsimp only
  rw [if_neg (Nat.not_lt.2 ht), hl.sh, hl.cdSet, hl.cdClip, State.modRxp_modRxp, State.modRxp_modRxp]

theorem State.acqExpiry_before (s : State) (l : Nat) (h : ∀ b, acqBudget (s.rxp l).state = some b → (s.rxp l).ticks < b) : s.acqExpiry l = s := by
  unfold State.acqExpiry
  dsimp only
  split
  · rfl
  · next b hb => exact if_pos (h b hb)

/-! ### The commands -/

section Commands

variable {c : Instr} {s : State} {f : State → State} {l : Fin 2}

/-- The line `l` of a state, its receive DSP changed by `g`, that has entered acquisition state `k`. -/
def State.lineEntered (s : State) (l : Nat) (g : RxpSt → RxpSt) (k : Nat) : Line :=
  Line.acqEntered { s.ln l with rxp := g (s.rxp l) } k (s.sh (Reg.RXP_EQ_CTL.NTAPS l)) (s.scanLen l)

/-- A step of the tick that enters a state leaves the receive DSP and the signal path as entering it does. -/
theorem completes_enters {P : State → Prop} (g : RxpSt → RxpSt) (k : Nat) (hc : exec c s = .next (s.cmdLive f)) (h : s.working)
    (hw : f s.cleared = (s.cleared.modRxp l g).acqGo l k)
    (hP : ∀ t, t.rxp l = (s.lineEntered l g k).rxp → t.dsp l = (s.lineEntered l g k).dsp → P t) : Completes c s P := by
  have hl := State.SameLink.modRxp s.cleared l g
  refine completes_tick hc h hw fun t ht _ _ => ?_
  have hln : t.ln l = s.lineEntered l g k := by
    rw [ht, State.ln_acqGo, hl.sh, hl.scanLen, State.modRxp, State.ln_modLn]
    rfl
  exact hP t (congrArg Line.rxp hln) (congrArg Line.dsp hln)

/-- A step of the tick that fails the acquisition restarts it and tells so. -/
theorem completes_acqFails {w : State} (hc : exec c s = .next (s.cmdLive f)) (h : s.working) (hw : f s.cleared = w.acqFail l) :
    Completes c s fun t => (t.rxp l).state = 1 ∧ (t.rxp l).attempt = false ∧ t.bit (Reg.RXP_EVENT.ACQ_FAIL l) = true := by
  obtain ⟨hst, hat, hbit⟩ := w.acqFail_leaves l
  refine completes_tick hc h hw fun t ht _ hreg => ?_
  rw [State.rxp_congr (ht l), State.bit_congr _ t _ (hreg _ (rxpRegs_beside l).1)]
  exact ⟨hst, hat, hbit⟩

end Commands

section Done

variable {s : State} {l : Fin 2} (h : s.working) {k : Nat} (hs : (s.rxp l).state = k)
include h hs

theorem acqStateDone_stays (hm : s.acqMet l k = false) : Completes (.acqStateDone l) s fun t => s.sameBut t faultRegs :=
  completes_tick_idle rfl h (State.acqDone_stays (s := s.cleared) hs hm)

variable (ho : s.rxOn l = true) (hm : s.acqMet l k = true)
include ho hm

omit h in
/-- The effect of a criterion that holds is what it leads to. -/
theorem State.acqDone_next : s.cleared.acqDone l = s.cleared.acqNext l k := by
  rw [State.acqDone_eq, show s.cleared.rxOn l = true from ho, show (s.cleared.rxp l).state = k from hs, show s.cleared.acqMet l k = true from hm]
  rfl

theorem acqStateDone_advances (hk : k = 0 ∨ k = 3 ∨ k = 4 ∨ k = 5) : Completes (.acqStateDone l) s fun t =>
    (t.rxp l).state = k + 1 ∧ (k = 3 → (t.dsp l).taps = EqTaps.spike (s.sh (Reg.RXP_EQ_CTL.NTAPS l))) := by
  have hn : s.cleared.acqNext l k = (s.cleared.modRxp l id).acqGo l (k + 1) := by
    rw [State.modRxp_id]
    obtain rfl | rfl | rfl | rfl := hk <;> rfl
  refine completes_enters id (k + 1) rfl h ((State.acqDone_next hs ho hm).trans hn) fun t hx hd => ?_
  rw [hx, hd]
  exact ⟨by obtain rfl | rfl | rfl | rfl := hk <;> rfl, by rintro rfl; rfl⟩

end Done

section Led

variable {s : State} {l : Fin 2} (h : s.working) (ho : s.rxOn l = true)
include h ho

theorem acqStateDone_lights (hs : (s.rxp l).state = 1) (hlight : 120 ≤ (s.rxp l).light) : Completes (.acqStateDone l) s fun t =>
    (t.rxp l).state = 2 ∧ (t.rxp l).attempt = false ∧ (t.rxp l).scanLeft = s.scanLen l :=
  completes_enters _ 2 rfl h (State.acqDone_next hs ho (decide_eq_true hlight)) fun t hx _ => by
    rw [hx]
    exact ⟨rfl, rfl, rfl⟩

theorem acqStateDone_frames (hs : (s.rxp l).state = 6) (hin : (s.frm l).oof = false) : Completes (.acqStateDone l) s fun t =>
    (t.rxp l).state = 7 ∧ t.bit (Reg.RXP_EVENT.ACQ_DONE l) = true := by
  have hn : s.cleared.acqDone l = (s.cleared.acqGo l 7).signal l (fun x => { x with acquired := 0, cds := [] }) (Reg.RXP_EVENT.ACQ_DONE l) :=
    State.acqDone_next hs ho (congrArg not hin)
  refine completes_tick rfl h hn fun t ht _ hreg => ⟨?_, ?_⟩
  · rw [State.rxp_congr (ht l), State.rxp_signal, State.rxp, State.ln_acqGo]
    rfl
  · rw [State.bit_congr _ t _ (hreg _ (rxpRegs_beside l).1)]
    exact State.bit_signal _ _ _ _ rfl (by decide : 0 < 32)

variable (hs : (s.rxp l).state = 2) (hleft : (s.rxp l).scanLeft = 0)
include hs hleft

omit h in
theorem State.acqDone_scanEnds : s.cleared.acqDone l = s.cleared.scanEnds l := State.acqDone_next hs ho (decide_eq_true hleft)

theorem acqStateDone_scans (hmode : s.sh (Reg.RXP_CD_CFG.CD_MODE l) ≠ 1) : Completes (.acqStateDone l) s fun t => (t.rxp l).state = 3 ∧
    (t.rxp l).da = s.scanCand l (bestScore (s.dsp l).scan) ((bestScore (s.dsp l).fine : Nat) - 8) ∧
    (t.rxp l).second = s.scanCand l (secondScore (s.dsp l).scan (bestScore (s.dsp l).scan)) 0 :=
  completes_enters _ 3 rfl h ((State.acqDone_scanEnds ho hs hleft).trans (if_neg hmode)) fun t hx _ => by
    rw [hx]
    exact ⟨rfl, rfl, rfl⟩

variable (hmode : s.sh (Reg.RXP_CD_CFG.CD_MODE l) = 1)
include hmode

theorem acqStateDone_forces (hfit : s.cdClip l (s.cdSet l) = s.cdSet l) : Completes (.acqStateDone l) s fun t =>
    (t.rxp l).state = 3 ∧ (t.rxp l).da = s.cdSet l :=
  completes_enters _ 3 rfl h ((State.acqDone_scanEnds ho hs hleft).trans ((if_pos hmode).trans (if_neg (not_not.2 hfit)))) fun t hx _ => by
    rw [hx]
    exact ⟨rfl, rfl⟩

theorem acqStateDone_clips (hclip : s.cdClip l (s.cdSet l) ≠ s.cdSet l) : Completes (.acqStateDone l) s fun t =>
    (t.rxp l).state = 1 ∧ (t.rxp l).attempt = false ∧ t.bit (Reg.RXP_EVENT.ACQ_FAIL l) = true :=
  completes_acqFails rfl h ((State.acqDone_scanEnds ho hs hleft).trans ((if_pos hmode).trans (if_pos hclip)))

end Led

section Expiry

variable {s : State} {l : Fin 2} (h : s.working) {b : Nat} (hb : acqBudget (s.rxp l).state = some b) (ht : b ≤ (s.rxp l).ticks)
include h hb ht

theorem acqBudgetExpiry_fails (ha : (s.rxp l).attempt = true) : Completes (.acqBudgetExpiry l) s fun t =>
    (t.rxp l).state = 1 ∧ (t.rxp l).attempt = false ∧ t.bit (Reg.RXP_EVENT.ACQ_FAIL l) = true :=
  completes_acqFails rfl h ((s.cleared.acqExpiry_past l hb ht).trans (if_pos ha))

/-- A first attempt that has run out tries once more. -/
theorem acqBudgetExpiry_retries (ha : (s.rxp l).attempt = false) : Completes (.acqBudgetExpiry l) s fun t => (t.rxp l).attempt = true ∧
    (s.sh (Reg.RXP_CD_CFG.CD_MODE l) = 1 → (t.rxp l).state = 3 ∧ (t.rxp l).da = s.cdClip l (s.cdSet l)) ∧
    (s.sh (Reg.RXP_CD_CFG.CD_MODE l) ≠ 1 → (s.rxp l).scanned = true → (t.rxp l).state = 3 ∧ (t.rxp l).da = (s.rxp l).second) ∧
    (s.sh (Reg.RXP_CD_CFG.CD_MODE l) ≠ 1 → (s.rxp l).scanned = false → (t.rxp l).state = 2) := by
  have e : s.cleared.acqExpiry l = s.cleared.acqRetry l := (s.cleared.acqExpiry_past l hb ht).trans (if_neg (Bool.eq_false_iff.1 ha))
  by_cases hmode : s.sh (Reg.RXP_CD_CFG.CD_MODE l) = 1
  · refine completes_enters _ 3 rfl h (e.trans (if_pos hmode)) fun t hx _ => ?_
    rw [hx]
    exact ⟨rfl, fun _ => ⟨rfl, rfl⟩, absurd hmode, absurd hmode⟩
  by_cases hsc : (s.rxp l).scanned = true
  · refine completes_enters _ 3 rfl h (e.trans ((if_neg hmode).trans (if_pos hsc))) fun t hx _ => ?_
    rw [hx]
    exact ⟨rfl, fun hm => absurd hm hmode, fun _ _ => ⟨rfl, rfl⟩, fun _ hn => absurd hsc (Bool.eq_false_iff.1 hn)⟩
  · refine completes_enters _ 2 rfl h (e.trans ((if_neg hmode).trans (if_neg hsc))) fun t hx _ => ?_
    rw [hx]
    exact ⟨rfl, fun hm => absurd hm hmode, fun _ hy => absurd hy hsc, fun _ _ => rfl⟩

end Expiry

/-- Settles O38: a criterion by the state it leads to, a budget by the attempt it ends. -/
theorem acquisition : Obligations.Acquisition := by
  unfold Obligations.Acquisition
  intro s l h ho
  refine ⟨fun hs htile hrl => ?_, fun hs hn => ?_, acqStateDone_lights h ho, acqStateDone_scans h ho, acqStateDone_forces h ho,
    fun hs hleft hmode hclip => ?_, fun hs hlock => ?_, fun hs hcalm => ?_, fun hs hfreq => ?_, acqStateDone_frames h ho, ?_, fun b hb ht =>
      ⟨acqBudgetExpiry_fails h hb ht, acqBudgetExpiry_retries h hb ht⟩, fun hn => completes_tick_idle rfl h (s.cleared.acqExpiry_before l hn)⟩
  · exact (acqStateDone_advances h hs ho (Bool.and_eq_true_iff.2 ⟨htile, Option.isNone_iff_eq_none.2 hrl⟩) (.inl rfl)).imp fun _ => And.left
  · refine acqStateDone_stays h hs (Bool.and_eq_false_iff.2 (hn.imp_right fun hrl => ?_))
    exact Bool.eq_false_iff.2 (mt Option.isNone_iff_eq_none.1 hrl)
  · exact (acqStateDone_clips h ho hs hleft hmode hclip).imp fun _ ⟨hst, _, hev⟩ => ⟨hst, hev⟩
  · exact (acqStateDone_advances h hs ho hlock (.inr (.inl rfl))).imp fun _ ⟨hst, htaps⟩ => ⟨hst, htaps rfl⟩
  · exact (acqStateDone_advances h hs ho (decide_eq_true hcalm) (.inr (.inr (.inl rfl)))).imp fun _ => And.left
  · exact (acqStateDone_advances h hs ho hfreq (.inr (.inr (.inr rfl)))).imp fun _ => And.left
  · rintro (⟨hs, hdark⟩ | ⟨hs, hleft⟩ | ⟨hs, hlock⟩ | ⟨hs, hcalm⟩ | ⟨hs, hfreq⟩ | ⟨hs, hout⟩ | hs)
    · exact acqStateDone_stays h hs (decide_eq_false (Nat.not_le.2 hdark))
    · exact acqStateDone_stays h hs (decide_eq_false hleft)
    · exact acqStateDone_stays h hs hlock
    · exact acqStateDone_stays h hs (decide_eq_false (Nat.not_le.2 hcalm))
    · exact acqStateDone_stays h hs hfreq
    · exact acqStateDone_stays h hs (congrArg not hout)
    · exact acqStateDone_stays h hs rfl

end Sys2Proof.Machine
end

section
/-! SUPPORT. Restarts of acquisition, losses of lock and of frame, captures (R13, R36, R278, R283). -/

namespace Sys2Proof.Machine

open Sys2Proof

/-! ### Restarts (R278) -/

/-- A restart from POWER that is asked for comes before any other that is due. -/
theorem State.restart_acqRestart (s : State) (l : Nat) : ((s.acqRestart l 0).rxp l).restart = some 0 := by
  unfold State.acqRestart
  rw [State.rxp_modRxp]
  cases (s.rxp l).restart with
  | none => rfl
  | some j => exact congrArg some (Nat.min_zero j)

/-- Where none is due, a restart becomes due as it is. -/
theorem State.acqRestart_first (s : State) (l k : Nat) (hn : (s.rxp l).restart = none) :
    s.acqRestart l k = s.modRxp l fun x => { x with restart := some k } := s.modRxp_congr (by rw [hn])

theorem State.effect_rxpCtl (s : State) (l : Fin 2) (old : Word) (h : s.bit (Reg.RXP_CTL.ACQ_RESTART l) = true) :
    s.effect (Reg.RXP_CTL l) old = s.acqRestart l 0 := by
  rw [State.effect_line s l old (by decide) (by decide), State.lineEffect, if_neg (by decide), if_neg (by decide), if_neg (by decide), if_pos rfl,
    if_pos h]

theorem acqRestart_restarts {s : State} {l : Fin 2} {v : Word} (h : s.live) (ht : s.takes (Reg.RXP_CTL l) v.toNat)
    (ha : (s.stored (Reg.RXP_CTL l) v.toNat).bit (Reg.RXP_CTL.ACQ_RESTART l) = true) :
    Completes (.acqRestart l v) s fun t => (t.rxp l).restart = some 0 :=
  completes_write rfl h ht (State.effect_rxpCtl _ l _ ha) fun t hs _ => by
    rw [State.rxp_congr (State.ln_of_rest hs.1 l), State.restart_acqRestart]

/-! ### Losses (R278) -/

/-- In frame, with no restart due, loss of lock counts before loss of frame. -/
theorem State.lockLoss_eq {s : State} {l : Nat} (hs : (s.rxp l).state = 7) (hn : (s.rxp l).restart = none) : s.lockLoss l =
    if 1024 * 40960 ≤ (s.frm l).noLock then s.signal l (fun x => { x with restart := some 2 }) (Reg.RXP_EVENT.LOCK_LOSS l)
    else if 8192 * 40960 ≤ (s.frm l).noFrame ∧ (s.rxp l).lock = true then
      s.signal l (fun x => { x with restart := some 3 }) (Reg.RXP_EVENT.LOCK_LOSS l)
    else s := by
  unfold State.lockLoss State.signal
  dsimp only
  rw [if_neg (by rw [hs, hn]; decide), s.acqRestart_first l 2 hn, s.acqRestart_first l 3 hn]

theorem State.lockLoss_idle (s : State) (l : Nat) (h : (s.rxp l).state ≠ 7 ∨ (s.rxp l).restart.isSome = true) : s.lockLoss l = s := if_pos h

/-! ### Captures (R13, R283) -/

/-- The frame that a capture is asked for. -/
def State.capFrame (s : State) (l : Nat) : Nat := s.reg64 (Reg.RXP_CAP_FRAME_LO l) (Reg.RXP_CAP_FRAME_HI l)

theorem State.effect_capCtl (s : State) (l : Fin 2) (old : Word) (h : s.bit (Reg.RXP_CAP_CTL.ARM l) = true) :
    s.effect (Reg.RXP_CAP_CTL l) old = s.capArm l := by
  rw [State.effect_line s l old (by decide) (by decide), State.lineEffect, if_neg (by decide), if_neg (by decide), if_neg (by decide),
    if_neg (by decide), if_pos rfl, if_pos h]

@[simp] theorem State.rxp_accepted (s : State) (l code : Nat) : (s.accepted l code).rxp l = s.rxp l := by
  unfold State.rxp State.accepted
  rw [State.ln_modLn]

@[simp] theorem State.rxp_setFld (s : State) (f : Fr) (v l : Nat) : (s.setFld f v).rxp l = s.rxp l :=
  State.rxp_congr (State.ln_of_rest (s.rest_setFld f v) l)

/-- A frame far enough off is armed for capture. -/
theorem State.capArm_far (s : State) (l : Nat) (h : (s.ln l).rxFn + 64 ≤ s.capFrame l) :
    ((s.capArm l).rxp l).cap = some (s.capFrame l) ∧ (s.capArm l).bit (Reg.RXP_CAP_CTL.ARM l) = true := by
  have e : s.capArm l = ((s.modRxp l fun x => { x with cap := some (s.capFrame l) }).setFld (Reg.RXP_CAP_CTL.ARM l) 1).accepted l 5 :=
    if_neg (Nat.not_lt.2 h)
  rw [e, State.rxp_accepted, State.rxp_setFld, State.rxp_modRxp]
  exact ⟨rfl, (State.bit_congr _ _ _ (State.reg_modLn _ _ _ _)).trans (State.bit_setFld _ _ rfl (by decide : 0 < 32))⟩

/-- A frame too near, or past, leaves the capture that is armed, and is rejected. -/
theorem State.capArm_near (s : State) (l : Fin 2) (h : s.capFrame l < (s.ln l).rxFn + 64) : (s.capArm l).rxp l = s.rxp l ∧
    (s.capArm l).bit (Reg.RXP_CAP_CTL.ARM l) = false ∧ (s.capArm l).bit Reg.GLB_TICK_EVENT.FRAME_REJECT = true := by
  obtain ⟨-, -, -, hg, hf⟩ := rxpRegs_beside l
  have e : s.capArm l = (s.setFld (Reg.RXP_CAP_CTL.ARM l) 0).raise Reg.GLB_TICK_EVENT.FRAME_REJECT := (if_pos h).trans (if_pos (decide_eq_true h))
  rw [e]
  refine ⟨State.rxp_congr (State.ln_of_rest ((State.rest_raise _ _).trans (State.rest_setFld _ _ _)) l), ?_, State.bit_raise _ _ rfl (by decide)⟩
  exact (State.bit_congr _ _ _ (State.reg_raise_ne _ _ hg hf)).trans (State.bit_setFld_zero _ _ le_rfl (by decide : 0 < 32))

/-- The command leaves what the stored word arms or has rejected. -/
theorem captureArm_runs {s : State} {l : Fin 2} {v : Word} {P : State → Prop} (h : s.live) (ht : s.takes (Reg.RXP_CAP_CTL l) v.toNat)
    (ha : (s.stored (Reg.RXP_CAP_CTL l) v.toNat).bit (Reg.RXP_CAP_CTL.ARM l) = true)
    (hP : let w := (s.stored (Reg.RXP_CAP_CTL l) v.toNat).capArm l
      ∀ t, t.rxp l = w.rxp l → t.bit (Reg.RXP_CAP_CTL.ARM l) = w.bit (Reg.RXP_CAP_CTL.ARM l) →
        (w.bit Reg.GLB_TICK_EVENT.FRAME_REJECT = true → t.bit Reg.GLB_TICK_EVENT.FRAME_REJECT = true) → P t) : Completes (.captureArm l v) s P :=
  completes_write rfl h ht (State.effect_capCtl _ l _ ha) fun t hs hb =>
    hP t (State.rxp_congr (State.ln_of_rest hs.1 l)) (State.bit_congr _ t _ (hs.2 _ (rxpRegs_beside l).2.2.1)) (hb _ rfl (by decide))

/-- Settles O39: a restart and a capture by the write that asks for them, a loss by the restart it makes due. -/
theorem acquisitionRestarts : Obligations.AcquisitionRestarts := by
  unfold Obligations.AcquisitionRestarts
  intro s l
  refine ⟨fun v u h ht hu ha => acqRestart_restarts h ht (hu ▸ ha), fun h hs hn hlock => ?_, fun h hs hn hlock hframe hl => ?_,
    fun h hi => completes_tick_idle rfl h (s.cleared.lockLoss_idle l hi), fun v u h ht hu ha => ?_⟩
  · exact completes_signal l _ _ rfl h ((State.lockLoss_eq (s := s.cleared) hs hn).trans (if_pos hlock)) rfl rfl (by decide : 2 < 32)
  · exact completes_signal l _ _ rfl h ((State.lockLoss_eq (s := s.cleared) hs hn).trans ((if_neg (Nat.not_le.2 hlock)).trans (if_pos ⟨hframe, hl⟩)))
      rfl rfl (by decide : 2 < 32)
  · subst hu
    refine ⟨fun hfar => captureArm_runs h ht ha fun t hx hb _ => ?_, fun hnear => captureArm_runs h ht ha fun t hx hb he => ?_⟩
    · rw [hx, hb]
      exact State.capArm_far _ l hfar
    · obtain ⟨hkeep, hoff, hrej⟩ := State.capArm_near _ l hnear
      exact ⟨congrArg RxpSt.cap (hx.trans hkeep), hb.trans hoff, he hrej⟩

end Sys2Proof.Machine
end

section
/-! SUPPORT. Receive monitoring: the dispersion step, paired mode, SNR and DGD limits (R259, R272, R282). -/

namespace Sys2Proof.Machine

open Sys2Proof

/-! ### The dispersion step (R259) -/

/-- Whether the residual dispersion has stayed high for 1,000 ticks while it is tracked. -/
def State.cdStepDue (s : State) (l : Nat) : Bool := s.shBit (Reg.RXP_CTL.CD_TRACK l) && decide (1000 ≤ (s.rxp l).resRun) && s.rxOn l

theorem State.cdStep_due (s : State) (l : Nat) (h : s.cdStepDue l = true) :
    s.cdStep l = s.signal l (fun x => { x with cdStep := some x.residual, resRun := 0 }) (Reg.RXP_EVENT.CD_STEP l) :=
  (if_pos h).trans (congrArg (State.raise · _) (s.modRxp_congr rfl))

theorem State.cdStep_idle (s : State) (l : Nat) (h : s.cdStepDue l = false) : s.cdStep l = s := if_neg (Bool.eq_false_iff.1 h)

/-! ### Paired mode (R272) -/

theorem State.pairOn_due (s : State) (hr : 1000 ≤ (s.rxp 0).pairRun) (hp : (s.rxp 0).paired = false) :
    s.pairOn = (s.signal 0 (fun x => { x with paired := true }) (Reg.RXP_EVENT.PAIR_ON 0)).raise (Reg.RXP_EVENT.PAIR_ON 1) := if_pos ⟨hr, hp⟩

theorem State.pairOn_idle (s : State) (h : (s.rxp 0).pairRun < 1000 ∨ (s.rxp 0).paired = true) : s.pairOn = s :=
  if_neg fun ⟨hr, hp⟩ => h.elim (Nat.not_lt.2 hr) (Bool.eq_false_iff.1 hp)

/-- LNA's receive DSP holds the mode, and both lines are told. -/
theorem pairOn_pairs {s : State} (h : s.working) (hr : 1000 ≤ (s.rxp 0).pairRun) (hp : (s.rxp 0).paired = false) : Completes .pairOn s fun t =>
    (s.modRxp 0 fun x => { x with paired := true }).sameBut t (Reg.RXP_EVENT 0 :: Reg.RXP_EVENT 1 :: faultRegs) ∧
      t.bit (Reg.RXP_EVENT.PAIR_ON 0) = true ∧ t.bit (Reg.RXP_EVENT.PAIR_ON 1) = true := by
  refine (completes_raises 0 _ [Reg.RXP_EVENT 0, Reg.RXP_EVENT 1] rfl h (s.cleared.pairOn_due hr hp)
    ((State.rest_raise _ _).trans (State.rest_signal _ _ _ _)) fun off ho hf => ?_).imp fun t ⟨hsame, hbit⟩ =>
      ⟨hsame, (hbit _ (rxpRegs_beside 0).1).trans ?_, (hbit _ (rxpRegs_beside 1).1).trans (State.bit_raise _ _ rfl (by decide))⟩
  · obtain ⟨h0, h1⟩ := not_or.1 (mt List.mem_cons.2 ho)
    exact (State.reg_raise_ne _ _ (mt List.mem_singleton.2 h1) hf).trans (s.cleared.reg_signal_ne 0 _ _ h0 hf)
  · exact State.bit_raise_mono _ _ _ rfl (by decide) rfl (State.bit_signal _ _ _ _ rfl (by decide))

/-! ### Limits (R282) -/

/-- Whether a limit that has been passed for `run` ticks and has not been raised is due under the debounce `deb`. -/
def limitDue (deb run : Nat) (up : Bool) : Bool := decide (deb ≤ run) && decide (1 ≤ run) && !up

theorem limitDue_iff (deb run : Nat) (up : Bool) : (deb ≤ run ∧ 1 ≤ run ∧ up = false) ↔ limitDue deb run up = true := by
  simp only [limitDue, Bool.and_eq_true, decide_eq_true_eq, Bool.not_eq_true', and_assoc]

/-- Whether SNR_LOW and DGD_HIGH are due. -/
def State.snrDue (s : State) (l : Nat) : Bool := limitDue (s.sh (Reg.RXP_MON_LIM.DEB l)) (s.rxp l).snrRun (s.rxp l).snrUp
def State.dgdDue (s : State) (l : Nat) : Bool := limitDue (s.sh (Reg.RXP_MON_LIM.DEB l)) (s.rxp l).dgdRun (s.rxp l).dgdUp

theorem State.snrLow_eq (s : State) (l : Nat) : s.snrLow l =
    (s.signalIf (s.snrDue l) l (fun x => { x with snrUp := true }) (Reg.RXP_EVENT.SNR_LOW l)).signalIf (s.dgdDue l) l
      (fun x => { x with dgdUp := true }) (Reg.RXP_EVENT.DGD_HIGH l) := by
  unfold State.snrLow State.signalIf State.signal State.snrDue State.dgdDue
  simp only [limitDue_iff]

/-- The receive DSP after the limits that are due have been raised. -/
theorem State.rest_snrLow (s : State) (l : Nat) : (s.snrLow l).rest =
    (s.modRxp l fun x => { x with snrUp := x.snrUp || s.snrDue l, dgdUp := x.dgdUp || s.dgdDue l }).rest := by
  rw [s.snrLow_eq, State.rest_signalIf, State.modRxp, State.rest_modLn, State.rest_signalIf, ← State.rest_modLn, ← State.modRxp, State.modRxp_modRxp]
  refine congrArg State.rest (s.modRxp_congr ?_)
  cases s.snrDue l <;> cases s.dgdDue l <;> simp only [cond_true, cond_false, id, Bool.or_true, Bool.or_false]

theorem State.reg_snrLow_ne (s : State) (l : Nat) {off : Nat} (h : off ≠ Reg.RXP_EVENT l) (hf : off ≠ Reg.FLT_EVENT) :
    (s.snrLow l).reg off = s.reg off := by
  rw [s.snrLow_eq]
  exact (State.reg_signalIf_ne _ _ _ _ _ h hf).trans (State.reg_signalIf_ne _ _ _ _ _ h hf)

theorem State.bit_snrLow_snr (s : State) (l : Nat) (h : s.snrDue l = true) : (s.snrLow l).bit (Reg.RXP_EVENT.SNR_LOW l) = true := by
  rw [s.snrLow_eq, h]
  exact State.bit_signalIf_mono _ _ _ _ _ rfl (by decide : 11 < 32) rfl (s.bit_signal _ _ _ rfl (by decide : 10 < 32))

theorem State.bit_snrLow_dgd (s : State) (l : Nat) (h : s.dgdDue l = true) : (s.snrLow l).bit (Reg.RXP_EVENT.DGD_HIGH l) = true := by
  rw [s.snrLow_eq, h]
  exact State.bit_signal _ _ _ _ rfl (by decide : 11 < 32)

theorem snrLow_raises {s : State} (l : Fin 2) (h : s.working) : Completes (.snrLow l) s fun t =>
    (s.modRxp l fun x => { x with snrUp := x.snrUp || s.snrDue l, dgdUp := x.dgdUp || s.dgdDue l }).sameBut t (Reg.RXP_EVENT l :: faultRegs) ∧
      (s.snrDue l = true → t.bit (Reg.RXP_EVENT.SNR_LOW l) = true) ∧ (s.dgdDue l = true → t.bit (Reg.RXP_EVENT.DGD_HIGH l) = true) := by
  have he := (rxpRegs_beside l).1
  exact (completes_raises l _ [Reg.RXP_EVENT l] rfl h rfl (s.cleared.rest_snrLow l) fun off ho hf =>
    s.cleared.reg_snrLow_ne l (mt List.mem_singleton.2 ho) hf).imp fun t ⟨hsame, hbit⟩ =>
      ⟨hsame, fun hd => (hbit _ he).trans (s.cleared.bit_snrLow_snr l hd), fun hd => (hbit _ he).trans (s.cleared.bit_snrLow_dgd l hd)⟩

/-- Settles O40: a step, paired mode and the limits by the change of the receive DSP and the events they raise. -/
theorem receiveMonitors : Obligations.ReceiveMonitors := by
  unfold Obligations.ReceiveMonitors
  intro s h
  refine ⟨fun l => ⟨fun hgo => ?_, fun hno => completes_tick_idle rfl h (s.cleared.cdStep_idle l hno)⟩, pairOn_pairs h,
    fun hn => completes_tick_idle rfl h (s.cleared.pairOn_idle hn), fun l => snrLow_raises l h⟩
  exact completes_signal l _ _ rfl h (s.cleared.cdStep_due l hgo) rfl rfl (by decide : 5 < 32)

end Sys2Proof.Machine
end

section
/-! SUPPORT. The sender's part of a cycle of a sub-link pair: what joins its queues and what it fills its slot with; it does not depend on the
accounts (R288-R293). -/

namespace Sys2Proof.Machine

open Sys2Proof

/-! ### Beside the accounts -/

/-- One sample flit of a group joins the queue of its sub-link, `n` the number of the first of them. -/
def State.queueFlit (s : State) (g n : Nat) (f : (Nat × List Byte) × Nat) : State :=
  s.modSnd (4 * g + (n + f.2) % 4) fun x => { x with smp := x.smp ++ [(x.cyc + f.1.1, f.1.2)] }

/-- The number of a group's next sample flit at its senders. -/
def State.setOutN (s : State) (g n : Nat) : State := { s with d2d := { s.d2d with outN := s.d2d.outN.set natZero g n } }

theorem State.queueFlits_eq (s : State) (g : Nat) (fs : List (Nat × List Byte)) : s.queueFlits g fs =
    (fs.zipIdx.foldl (fun u f => u.queueFlit g (s.d2d.outN.get natZero g) f) s).setOutN g (s.d2d.outN.get natZero g + fs.length) := rfl

namespace State.Counted

variable {s t : State}

theorem foldl {α : Type} {f : State → α → State} (hf : ∀ s t a, s.Counted t → (f s a).Counted (f t a)) (xs : List α) (h : s.Counted t) :
    (xs.foldl f s).Counted (xs.foldl f t) := by
  induction xs generalizing s t with
  | nil => exact h
  | cons x xs ih => exact ih (hf s t x h)

theorem setSub (j : Nat) (x : SubLink) : s.Counted t → (s.setSub j x).Counted (t.setSub j x) := by
  rintro ⟨c, q, o, rfl⟩
  exact ⟨c, q, o, rfl⟩

theorem modSnd (j : Nat) (f : SendSub → SendSub) : s.Counted t → (s.modSnd j f).Counted (t.modSnd j f) := by
  rintro ⟨c, q, o, rfl⟩
  exact ⟨c, q, o, rfl⟩

theorem d2d : s.Counted t → t.d2d = s.d2d := by
  rintro ⟨_, _, _, rfl⟩
  rfl

theorem setOutN (g n : Nat) : s.Counted t → (s.setOutN g n).Counted (t.setOutN g n) := by
  rintro ⟨c, q, o, rfl⟩
  exact ⟨c, q, o, rfl⟩

theorem queueFlit (g n : Nat) (f : (Nat × List Byte) × Nat) (h : s.Counted t) : (s.queueFlit g n f).Counted (t.queueFlit g n f) := h.modSnd _ _

theorem queueFlits (g : Nat) (fs : List (Nat × List Byte)) (h : s.Counted t) : (s.queueFlits g fs).Counted (t.queueFlits g fs) := by
  rw [s.queueFlits_eq, t.queueFlits_eq, h.d2d]
  exact (h.foldl (fun _ _ f hu => hu.queueFlit g _ f) fs.zipIdx).setOutN g _

theorem sendReady (p : Nat) (x : SendIn) (h : s.Counted t) : (s.sendReady p x).Counted (t.sendReady p x) := by
  have hread : t.trained (p / 16) = s.trained (p / 16) ∧ t.ln (p / 32) = s.ln (p / 32) ∧
      t.carrier (p / 16) (p / 4 % 4) = s.carrier (p / 16) (p / 4 % 4) := by
    obtain ⟨_, _, _, rfl⟩ := h
    exact ⟨rfl, rfl, rfl⟩
  obtain ⟨htrained, hln, hcarrier⟩ := hread
  unfold State.sendReady
  dsimp only
  rw [htrained, hln, hcarrier]
  split
  · exact h
  · exact (h.queueFlits _ _).modSnd _ _

end State.Counted

@[simp] theorem State.snd_modSnd (s : State) (j : Nat) (f : SendSub → SendSub) : (s.modSnd j f).snd j = f (s.snd j) := SMap.get_set_self _ _ _ _

theorem State.snd_modSnd_ne (s : State) {j k : Nat} (f : SendSub → SendSub) (h : j ≠ k) : (s.modSnd j f).snd k = s.snd k :=
  SMap.get_set_ne _ _ _ h

/-! ### Flits that join the queues (R288-R290) -/

/-- `y` is the sender `x` with flits that have joined its queues. -/
def SendSub.Joined (x y : SendSub) : Prop := ∃ m o c, y = { x with smp := x.smp ++ m, obs := o, cal := c }

/-- `t` is `s` with flits that have joined its senders' queues. -/
def State.Queued (s t : State) : Prop :=
  (∃ sd n, t = { s with d2d := { s.d2d with send := sd, outN := n } }) ∧ ∀ p, (s.snd p).Joined (t.snd p)

namespace State.Queued

theorem refl (s : State) : s.Queued s := ⟨⟨s.d2d.send, s.d2d.outN, rfl⟩, fun p => ⟨[], _, _, by rw [List.append_nil]⟩⟩

theorem trans {s t u : State} : s.Queued t → t.Queued u → s.Queued u := by
  rintro ⟨⟨_, _, rfl⟩, hx⟩ ⟨⟨sd, n, rfl⟩, hy⟩
  refine ⟨⟨sd, n, rfl⟩, fun p => ?_⟩
  obtain ⟨m, _, _, hx⟩ := hx p
  obtain ⟨m', o, c, hy⟩ := hy p
  exact ⟨m ++ m', o, c, hy.trans (by rw [hx, List.append_assoc])⟩

theorem modSnd (s : State) (j : Nat) {f : SendSub → SendSub} (h : ∀ x : SendSub, x.Joined (f x)) : s.Queued (s.modSnd j f) := by
  refine ⟨⟨_, s.d2d.outN, rfl⟩, fun p => ?_⟩
  by_cases e : j = p
  · subst e
    rw [State.snd_modSnd]
    exact h _
  · rw [State.snd_modSnd_ne _ _ e]
    exact (refl s).2 p

theorem foldl {α : Type} {f : State → α → State} (hf : ∀ (s : State) a, s.Queued (f s a)) (xs : List α) (s : State) : s.Queued (xs.foldl f s) := by
  induction xs generalizing s with
  | nil => exact refl s
  | cons x xs ih => exact (hf s x).trans (ih _)

theorem queueFlit (s : State) (g n : Nat) (f : (Nat × List Byte) × Nat) : s.Queued (s.queueFlit g n f) :=
  modSnd s _ fun x => ⟨[(x.cyc + f.1.1, f.1.2)], x.obs, x.cal, rfl⟩

theorem queueFlits (s : State) (g : Nat) (fs : List (Nat × List Byte)) : s.Queued (s.queueFlits g fs) := by
  have hfold : s.Queued (fs.zipIdx.foldl (fun u f => u.queueFlit g (s.d2d.outN.get natZero g) f) s) :=
    foldl (fun u f => queueFlit u g _ f) _ s
  rw [s.queueFlits_eq]
  exact hfold.trans ⟨⟨_, _, rfl⟩, (refl _).2⟩

theorem sendReady (s : State) (p : Nat) (x : SendIn) : s.Queued (s.sendReady p x) := by
  unfold State.sendReady
  split
  · exact refl s
  · exact (queueFlits s _ _).trans (modSnd _ _ fun y => ⟨[], _, _, by rw [List.append_nil]⟩)

variable {s t : State} (h : s.Queued t)
include h

theorem trained (d : Nat) : t.trained d = s.trained d := by
  obtain ⟨⟨_, _, rfl⟩, -⟩ := h
  rfl

theorem subLive (p : Nat) : t.subLive p = s.subLive p := by
  obtain ⟨⟨_, _, rfl⟩, -⟩ := h
  rfl

theorem out : t.out = s.out := by
  obtain ⟨⟨_, _, rfl⟩, -⟩ := h
  rfl

theorem sendEpoch (p : Nat) : t.sendEpoch p = s.sendEpoch p := by
  obtain ⟨⟨_, _, rfl⟩, hsnd⟩ := h
  obtain ⟨m, o, c, e⟩ := hsnd p
  unfold State.sendEpoch
  rw [e]
  rfl

theorem sendMap (p : Nat) : t.sendMap p = s.sendMap p := by
  unfold State.sendMap
  rw [h.sendEpoch]
  obtain ⟨⟨_, _, rfl⟩, -⟩ := h
  rfl

end State.Queued

/-! ### A slot (R291, R293) -/

/-- The sender with the calibration flits gone that the late sample flits crowd out. -/
def SendSub.crowded (x : SendSub) : SendSub := { x with cal := x.cal.drop (min x.late x.cal.length) }

/-- The sender after a slot. -/
def SendSub.filled (x : SendSub) : SendSub := { (x.crowded.pick.2.keep x.crowded.pick.1).asked with cyc := x.cyc + 1 }

/-- The flit that a sender fills its next slot with. -/
def State.slotFlit (s : State) (p : Nat) (bad : Bool) : List Byte :=
  let f := (s.snd p).crowded.pick.1
  flitMake f.seq f.type (s.sendEpoch p) ((s.snd p).ask.head?.map (·.1)) f.payload (bad && f.again)

/-- What a sub-link's lanes carry of it. -/
def State.slotSent (s : State) (p : Nat) (bad : Bool) : List Out :=
  bif s.subLive p then [.flitSent p (s.sendMap p) (s.slotFlit p bad)] else []

theorem State.fillSlot_untrained {s : State} {p : Nat} (h : s.trained (p / 16) = false) (bad : Bool) : s.fillSlot p bad = s := if_pos h

/-- Filling a slot changes the sender, counts, and drives the flit out on lanes that carry flits. -/
theorem State.fillSlot_form {s : State} {p : Nat} (h : s.trained (p / 16) = true) (bad : Bool) : ∃ c q,
    s.fillSlot p bad = { s.modSnd p SendSub.filled with ctrs := c, wrapQ := q, out := s.out ++ s.slotSent p bad } := by
  unfold State.fillSlot State.slotSent
  rw [if_neg (by rw [h]; decide)]
  extract_lets x n y f u b t
  obtain ⟨c, q, hu⟩ : ∃ c q, u = { s with ctrs := c, wrapQ := q } := by
    obtain ⟨c, q, e⟩ := s.count_form (4128 + 4 * p + 3) n
    obtain ⟨c', q', e'⟩ := (s.count (4128 + 4 * p + 3) n).count_form (4128 + 4 * p + 1) (b2n f.1.again)
    exact ⟨c', q', e'.trans (by rw [e])⟩
  refine ⟨c, q, ?_⟩
  clear_value u
  subst hu
  cases hl : s.subLive p with
  | true => exact if_pos hl
  | false => exact (if_neg (Bool.eq_false_iff.1 hl)).trans (by rw [cond_false, List.append_nil]; rfl)

theorem State.Counted.fillSlot {s t : State} (p : Nat) (bad : Bool) (h : s.Counted t) : (s.fillSlot p bad).Counted (t.fillSlot p bad) := by
  have ht : t.trained (p / 16) = s.trained (p / 16) := by
    obtain ⟨_, _, _, rfl⟩ := h
    rfl
  cases hs : s.trained (p / 16) with
  | false => rwa [State.fillSlot_untrained hs, State.fillSlot_untrained (ht.trans hs)]
  | true =>
    obtain ⟨c, q, e⟩ := State.fillSlot_form hs bad
    obtain ⟨c', q', e'⟩ := State.fillSlot_form (ht.trans hs) bad
    have hfilled : (s.modSnd p SendSub.filled).Counted (s.fillSlot p bad) := ⟨c, q, _, e⟩
    exact hfilled.symm.trans ((h.modSnd p _).trans ⟨c', q', _, e'⟩)

/-! ### The sender's part of a cycle -/

/-- What becomes ready joins the sender's queues, and a slot is filled. -/
def State.sends (s : State) (p : Nat) (x : SendIn) : State := (s.sendReady p x).fillSlot p x.bad

theorem State.Counted.sends {s t : State} (p : Nat) (x : SendIn) (h : s.Counted t) : (s.sends p x).Counted (t.sends p x) :=
  (h.sendReady p x).fillSlot p x.bad

/-- The sender's part leaves all but the senders, the counters and the output. -/
theorem State.sends_form (s : State) (p : Nat) (x : SendIn) : ∃ sd n c q o,
    s.sends p x = { s with d2d := { s.d2d with send := sd, outN := n }, ctrs := c, wrapQ := q, out := o } := by
  obtain ⟨⟨sd, n, hr⟩, -⟩ := State.Queued.sendReady s p x
  cases ht : (s.sendReady p x).trained (p / 16) with
  | false => exact ⟨sd, n, s.ctrs, s.wrapQ, s.out, (State.fillSlot_untrained ht _).trans hr⟩
  | true =>
    obtain ⟨c, q, e⟩ := State.fillSlot_form ht x.bad
    exact ⟨_, n, c, q, _, e.trans (by rw [hr]; rfl)⟩

@[simp] theorem State.sends_pending (s : State) (p : Nat) (x : SendIn) : (s.sends p x).pending = s.pending := by
  obtain ⟨_, _, _, _, _, e⟩ := s.sends_form p x
  rw [e]

@[simp] theorem State.sends_err (s : State) (p : Nat) (x : SendIn) : (s.sends p x).d2d.err = s.d2d.err := by
  obtain ⟨_, _, _, _, _, e⟩ := s.sends_form p x
  rw [e]

/-- A sender that is not in flit mode, or whose lanes carry no flits, drives nothing out. -/
theorem State.sends_silent {s : State} {p : Nat} (x : SendIn) (h : s.trained (p / 16) = false ∨ s.subLive p = false) :
    (s.sends p x).out = s.out := by
  have hq := State.Queued.sendReady s p x
  cases ht : s.trained (p / 16) with
  | false => rw [State.sends, State.fillSlot_untrained ((hq.trained _).trans ht), hq.out]
  | true =>
    have hl : s.subLive p = false := h.resolve_left (by rw [ht]; decide)
    obtain ⟨c, q, e⟩ := State.fillSlot_form ((hq.trained _).trans ht) x.bad
    rw [State.sends, e, State.slotSent, hq.subLive, hl, hq.out]
    exact List.append_nil _

section Drives

variable {s : State} {p : Nat} (x : SendIn) (ht : s.trained (p / 16) = true) (hl : s.subLive p = true)
include ht hl

/-- A sender whose first choice is `f`, whatever joins its queues, drives that flit out. -/
theorem State.sends_drives (f : Slot) (hf : ∀ y, (s.snd p).Joined y → y.crowded.pick.1 = f) : (s.sends p x).out = s.out ++
    [.flitSent p (s.sendMap p) (flitMake f.seq f.type (s.sendEpoch p) ((s.snd p).ask.head?.map (·.1)) f.payload (x.bad && f.again))] := by
  have hq := State.Queued.sendReady s p x
  obtain ⟨c, q, e⟩ := State.fillSlot_form ((hq.trained _).trans ht) x.bad
  have hask : ((s.sendReady p x).snd p).ask = (s.snd p).ask := by
    obtain ⟨_, _, _, hy⟩ := hq.2 p
    rw [hy]
  rw [State.sends, e, State.slotSent, State.slotFlit, hq.subLive, hl, hq.out, hq.sendMap, hq.sendEpoch, hask, hf _ (hq.2 p)]
  rfl

/-- A resend that has been asked for comes first. -/
theorem State.sends_resend {q type : Nat} {bs : List Byte} {r : List Nat} (hr : (s.snd p).resend = q :: r)
    (hp : ((s.snd p).replay.find? fun f => f.1 == q) = some (q, type, bs)) : (s.sends p x).out = s.out ++
      [.flitSent p (s.sendMap p) (flitMake q type (s.sendEpoch p) ((s.snd p).ask.head?.map (·.1)) bs x.bad)] := by
  rw [State.sends_drives x ht hl ⟨q, type, bs, true, none⟩ ?_, Bool.and_true]
  rintro _ ⟨m, o, c, rfl⟩
  simp only [SendSub.crowded, SendSub.pick, hr, hp]

/-- A ready sample flit comes first where no resend waits. -/
theorem State.sends_sample {n : Nat} {bs : List Byte} {r : List (Nat × List Byte)} (hr : (s.snd p).resend = [])
    (hm : (s.snd p).smp = (n, bs) :: r) (hn : n ≤ (s.snd p).cyc) : (s.sends p x).out = s.out ++
      [.flitSent p (s.sendMap p) (flitMake (s.snd p).seq 1 (s.sendEpoch p) ((s.snd p).ask.head?.map (·.1)) bs false)] := by
  rw [State.sends_drives x ht hl ⟨(s.snd p).seq, 1, bs, false, none⟩ ?_, Bool.and_false]
  rintro _ ⟨m, o, c, rfl⟩
  simp only [SendSub.crowded, SendSub.pick, hr, hm, List.cons_append, if_pos hn]

end Drives

end Sys2Proof.Machine
end

section
/-! SUPPORT. Receiving a flit: good copies, failed copies, the resends they ask for, the errors counted against lanes (R293, R296). -/

namespace Sys2Proof.Machine

open Sys2Proof

/-! ### Requests (R293) -/

/-- Whether a sender takes up a request: it keeps the flit, and has neither resent it nor been asked for it. -/
def SendSub.takesUp (x : SendSub) (n : Nat) : Bool := !x.resent.contains n && !x.resend.contains n && x.replay.any fun f => f.1 == n

/-- The sender is asked for a flit again. -/
def State.askAgain (s : State) (p n : Nat) : State := s.modSnd p fun z => { z with resend := z.resend ++ [n] }

theorem State.resend_eq (s : State) (p n : Nat) : s.resend p n = bif (s.snd p).takesUp n then s.askAgain p n else s := by
  have hrefuses : ((s.snd p).resent.contains n || (s.snd p).resend.contains n || !(s.snd p).replay.any fun f => f.1 == n) = !(s.snd p).takesUp n := by
    simp only [SendSub.takesUp, Bool.not_and, Bool.not_not]
  unfold State.resend
  dsimp only
  rw [hrefuses]
  cases (s.snd p).takesUp n <;> rfl

/-- A sender is given a request that its flits carry twice. -/
def State.askFor (s : State) (p q : Nat) : State := s.modSnd p fun z => { z with ask := z.ask ++ [(q, 2)] }

theorem State.Counted.askFor {s t : State} (p q : Nat) (h : s.Counted t) : (s.askFor p q).Counted (t.askFor p q) := h.modSnd p _

/-- The state after the request that a good flit carries, if any. -/
def State.requested (s : State) (p : Nat) (rq : Option Nat) : State := rq.elim s (s.resend p)

theorem State.requested_none (s : State) (p : Nat) : s.requested p none = s := rfl

theorem State.requested_refused {s : State} {p n : Nat} (h : (s.snd p).takesUp n = false) : s.requested p (some n) = s := by
  rw [State.requested, Option.elim_some, State.resend_eq, h, cond_false]

theorem State.requested_taken {s : State} {p n : Nat} (h : (s.snd p).takesUp n = true) : s.requested p (some n) = s.askAgain p n := by
  rw [State.requested, Option.elim_some, State.resend_eq, h, cond_true]

theorem State.Counted.requested {s t : State} (p : Nat) (rq : Option Nat) (h : s.Counted t) : (s.requested p rq).Counted (t.requested p rq) := by
  have hp : t.snd p = s.snd p := congrArg (fun d : D2dSt => d.send.get noSend p) h.d2d
  cases rq with
  | none => exact h
  | some n =>
    cases hs : (s.snd p).takesUp n with
    | false =>
      rw [State.requested_refused hs, State.requested_refused (hp ▸ hs)]
      exact h
    | true =>
      rw [State.requested_taken hs, State.requested_taken (hp ▸ hs)]
      exact h.modSnd p _

/-- A request changes at most a sender. -/
theorem State.requested_form (s : State) (p : Nat) (rq : Option Nat) : ∃ f, s.requested p rq = s ∨ s.requested p rq = s.modSnd p f := by
  cases rq with
  | none => exact ⟨id, .inl rfl⟩
  | some n =>
    cases h : (s.snd p).takesUp n with
    | false => exact ⟨id, .inl (State.requested_refused h)⟩
    | true => exact ⟨_, .inr (State.requested_taken h)⟩

@[simp] theorem State.requested_pending (s : State) (p : Nat) (rq : Option Nat) : (s.requested p rq).pending = s.pending := by
  obtain ⟨f, e | e⟩ := s.requested_form p rq <;> rw [e]
  rfl

@[simp] theorem State.requested_err (s : State) (p : Nat) (rq : Option Nat) : (s.requested p rq).d2d.err = s.d2d.err := by
  obtain ⟨f, e | e⟩ := s.requested_form p rq <;> rw [e]
  rfl

/-! ### Errors against lanes (R296) -/

theorem State.err_laneErr (s : State) (n k : Nat) : (s.laneErr n).d2d.err.get natZero k =
    if n = k then satAdd 0xFFFF (s.d2d.err.get natZero k) 1 else s.d2d.err.get natZero k := by
  unfold State.laneErr
  rw [(State.Counted.count _ _ _).d2d]
  refine (SMap.get_set _ _ _ _ _).trans ?_
  by_cases h : n = k
  · rw [if_pos h, if_pos h, h]
  · rw [if_neg h, if_neg h]

/-- A lane's errors after some are counted: one more for each that fell on it. -/
theorem State.err_laneErrs {α : Type} (lane : α → Nat) (xs : List α) (s : State) (k : Nat) :
    (xs.foldl (fun (u : State) e => u.laneErr (lane e)) s).d2d.err.get natZero k =
      (xs.filter fun e => lane e == k).foldl (fun v _ => satAdd 0xFFFF v 1) (s.d2d.err.get natZero k) := by
  induction xs generalizing s with
  | nil => rfl
  | cons e xs ih =>
    rw [List.foldl_cons, ih, State.err_laneErr, List.filter_cons]
    by_cases h : lane e = k
    · rw [if_pos h, if_pos (beq_iff_eq.2 h), List.foldl_cons]
    · rw [if_neg h, if_neg (mt beq_iff_eq.1 h)]

/-- The bits in which a flit's failed copy differs from it, each with its place. -/
def wrongBits (f b : List Byte) : List ((Bool × Bool) × Nat) := ((bytesBits f).zip (bytesBits b)).zipIdx.filter fun e => e.1.1 != e.1.2

/-- The lane that a bit of a flit in which the copies differ is counted against. -/
def wrongLane (j : Nat) (lanes : List Nat) (e : (Bool × Bool) × Nat) : Nat := subBase j + lanes.getD (e.2 % 16) 0

/-- Each of those bits is counted against its lane. -/
def State.countWrong (s : State) (j : Nat) (lanes : List Nat) (f b : List Byte) : State :=
  (wrongBits f b).foldl (fun u e => u.laneErr (wrongLane j lanes e)) s

/-! ### Copies of a flit (R293) -/

/-- A receiver with an entry of its delay store. -/
def SubLink.store (x : SubLink) (q : Nat) (f : FlitSlot) : SubLink := { x with slots := x.slots.set noSlot q (some f) }

/-- A receiver after a correct copy of a flit whose entry was `f`: one that is late, or kept already, is not kept. -/
def SubLink.took (x : SubLink) (b : List Byte) (f : FlitSlot) : SubLink :=
  if f.good.isSome || x.late (flitSeq b) then x else x.store (flitSeq b) ⟨some (flitType b, flitPayload b), f.bad⟩

/-- The errors that a correct copy shows in the failed one before it. -/
def State.compared (s : State) (j : Nat) (b : List Byte) (x : FlitSlot) : State :=
  match x.bad, x.good with
  | some (f, lanes), none => s.countWrong j lanes f b
  | _, _ => s

section Copies

variable {s : State} {j : Fin 64} {w : List Nat} {seq : Nat}

theorem State.flitTake_down (h : s.subLive j = false) : s.flitTake j w seq = s := if_pos (.inr h)

variable (hl : s.subLive j = true) {b : List Byte} {y : SubLink}
include hl

/-- A correct copy is kept with the failed one before it, whose wrong bits are counted; then its request is heard. -/
theorem State.flitTake_correct (hd : (s.sub j).decode w = (b, true, y)) {f : Option FlitSlot} (hf : y.slots.get noSlot (flitSeq b) = f) :
    s.flitTake j w seq =
      ((s.compared j b (f.getD ⟨none, none⟩)).setSub j (y.took b (f.getD ⟨none, none⟩))).requested (subPair j) (flitRq b) := by
  unfold State.flitTake State.requested
  rw [if_neg (not_or.2 ⟨Nat.not_le.2 j.isLt, by rw [hl]; decide⟩)]
  dsimp only
  rw [hd]
  dsimp only
  rw [hf, if_pos rfl]
  generalize f.getD ⟨none, none⟩ = e
  cases flitRq b with
  | none => rfl
  | some n => rfl

/-- A failed copy is kept where it is the first, and its resend is asked for twice. -/
theorem State.flitTake_failed (hd : (s.sub j).decode w = (b, false, y)) (hq : seq < 4096) (hn : y.slots.get noSlot seq = none) :
    s.flitTake j w seq = bif y.late seq then (s.subCount j 0).setSub j y
      else ((s.subCount j 0).setSub j (y.store seq ⟨none, some (b, y.map)⟩)).askFor (subPair j) seq := by
  unfold State.flitTake
  rw [if_neg (not_or.2 ⟨Nat.not_le.2 j.isLt, by rw [hl]; decide⟩)]
  dsimp only
  rw [hd]
  dsimp only
  rw [if_neg Bool.false_ne_true, Nat.mod_eq_of_lt hq, hn]
  cases y.late seq <;> rfl

end Copies

end Sys2Proof.Machine
end

section
/-! SUPPORT. Delivering a flit: samples in the order of their numbers, erasures, control flits sent anew (R288, R292-R295). -/

namespace Sys2Proof.Machine

open Sys2Proof

@[simp] theorem State.sub_setSub (s : State) (j : Nat) (x : SubLink) : (s.setSub j x).sub j = x := SMap.get_set_self _ _ _ _

theorem State.sub_congr {s t : State} (h : t.d2d.subs = s.d2d.subs) (j : Nat) : t.sub j = s.sub j := by
  unfold State.sub
  rw [h]

/-! ### What converters and senders leave -/

/-- `t` is `s` after flits have landed: the receivers and the queued events stay, what has been driven out stays first. -/
structure State.Lands (s t : State) : Prop where
  subs : t.d2d.subs = s.d2d.subs
  evQ : t.evQ = s.evQ
  out : s.out <+: t.out

namespace State.Lands

theorem refl (s : State) : s.Lands s := ⟨rfl, rfl, List.prefix_rfl⟩

theorem trans {s t u : State} (h : s.Lands t) (h2 : t.Lands u) : s.Lands u :=
  ⟨h2.subs.trans h.subs, h2.evQ.trans h.evQ, h.out.trans h2.out⟩

theorem emit (s : State) (o : Out) : s.Lands (s.emit o) := ⟨rfl, rfl, List.prefix_append _ _⟩

theorem modLn (s : State) (l : Nat) (f : Line → Line) : s.Lands (s.modLn l f) := by
  obtain ⟨a, b, e⟩ := s.modLn_form l f
  rw [e]
  exact ⟨rfl, rfl, List.prefix_rfl⟩

theorem modCnv (s : State) (l : Nat) (f : CnvSt → CnvSt) : s.Lands (s.modCnv l f) := modLn s l _

theorem tallyFlit (s : State) (t a k : Nat) (at_ : Int) (codes : List Int) (erased : Bool) : s.Lands (s.tallyFlit t a k at_ codes erased) := by
  unfold State.tallyFlit
  exact modCnv s t _

theorem dspFeed (s : State) (l a : Nat) (v : List (Int × Bool)) : s.Lands (s.dspFeed l a v) := by
  unfold State.dspFeed
  split
  · exact modLn s l _
  · exact refl s

theorem adcFlit (s : State) (t a n : Nat) (b : List Byte) (erased : Bool) : s.Lands (s.adcFlit t a n b erased) := by
  unfold State.adcFlit
  extract_lets c codes new old u src v y
  have hu : s.Lands u := tallyFlit s _ _ _ _ _ _
  have hv : u.Lands v := ⟨rfl, rfl, List.prefix_rfl⟩
  exact (hu.trans hv).trans ((emit v _).trans (dspFeed _ t a y))

theorem dacSend (s : State) (t d : Nat) (b : List Byte) : s.Lands (s.dacSend t d b) := by
  unfold State.dacSend
  split
  · exact refl s
  · exact emit s _

theorem calFlit (s : State) (t a : Nat) (b : List Byte) : s.Lands (s.calFlit t a b) := by
  unfold State.calFlit
  extract_lets br u
  split
  · exact refl s
  · exact modCnv s t _

theorem modSnd (s : State) (j : Nat) (f : SendSub → SendSub) : s.Lands (s.modSnd j f) := ⟨rfl, rfl, List.prefix_rfl⟩

theorem ctlTake (s : State) (j q : Nat) : s.Lands (s.ctlTake j q) := by
  unfold State.ctlTake
  split
  · exact (modSnd s _ _).trans (modSnd _ _ _)
  · exact (modSnd s _ _).trans (modSnd _ _ _)
  · exact modSnd s _ _
  · exact refl s

end State.Lands

/-! ### Sample flits in order (R288, R294) -/

/-- The bytes that a group's converter gets for a flit: an erased one is zeros toward the core, the last intact codes toward the tile. -/
def State.smpBytes (s : State) (g : Nat) (f : Option (List Byte)) : List Byte :=
  f.getD (if g / 4 % 2 = 1 then List.replicate 120 0#8 else s.d2d.dac.get (fun _ => []) (4 * (g / 8) + g % 4))

/-- A sample flit is driven out first, then what its converter makes of it. -/
theorem State.Lands.smpFlit (s : State) (g n : Nat) (f : Option (List Byte)) :
    (s.emit (.flit (4 * g + n % 4) (s.smpBytes g f) f.isNone)).Lands (s.smpFlit g n f) := by
  unfold State.smpFlit State.smpBytes
  by_cases hg : g / 4 % 2 = 1
  · simp only [if_pos hg]
    exact .adcFlit _ _ _ _ _ _
  · simp only [if_neg hg]
    refine .trans ?_ (.dacSend _ _ _ _)
    exact ⟨rfl, rfl, List.prefix_rfl⟩

/-- The state once a group's flit `n` has been drawn from those that wait. -/
def State.drawn (s : State) (g : Nat) : State :=
  let n := s.d2d.smp.get natZero g
  { s with d2d := { s.d2d with
    smp := s.d2d.smp.set natZero g (n + 1), wait := s.d2d.wait.set (fun _ => []) g ((s.d2d.wait.get (fun _ => []) g).filter fun q => q.1 != n) } }

/-- The flit whose turn it is, if it waits. -/
def State.turnFlit (s : State) (g : Nat) : Option (Nat × Option (List Byte)) :=
  (s.d2d.wait.get (fun _ => []) g).find? fun p => p.1 == s.d2d.smp.get natZero g

theorem State.smpNext_waits {s : State} {g : Nat} (k : Nat) (h : s.turnFlit g = none) : s.smpNext g (k + 1) = s := by
  unfold State.turnFlit at h
  rw [State.smpNext]
  dsimp only
  rw [h]

theorem State.smpNext_takes {s : State} {g : Nat} (k : Nat) {p : Nat × Option (List Byte)} (h : s.turnFlit g = some p) :
    s.smpNext g (k + 1) = ((s.drawn g).smpFlit g (s.d2d.smp.get natZero g) p.2).smpNext g k := by
  unfold State.turnFlit at h
  rw [State.smpNext]
  dsimp only
  rw [h]
  rfl

theorem State.Lands.smpNext (s : State) (g k : Nat) : s.Lands (s.smpNext g k) := by
  induction k generalizing s with
  | zero => exact .refl s
  | succ k ih =>
    cases h : s.turnFlit g with
    | none => rw [State.smpNext_waits k h]; exact .refl s
    | some p =>
      rw [State.smpNext_takes k h]
      refine .trans ?_ ((State.Lands.smpFlit (s.drawn g) g _ p.2).trans (ih _))
      exact ⟨rfl, rfl, List.prefix_append _ _⟩

/-- A sub-link's next sample flit joins those that wait at its converter. -/
def State.smpJoin (s : State) (j : Nat) (f : Option (List Byte)) : State :=
  let u := s.setSub j { s.sub j with num := (s.sub j).num + 1 }
  let w := s.d2d.wait.get (fun _ => []) (j / 4) ++ [(4 * (s.sub j).num + j % 4, f)]
  { u with d2d := { u.d2d with wait := u.d2d.wait.set (fun _ => []) (j / 4) w } }

theorem State.smpTake_eq (s : State) (j : Nat) (f : Option (List Byte)) :
    s.smpTake j f = (s.smpJoin j f).smpNext (j / 4) ((s.d2d.wait.get (fun _ => []) (j / 4)).length + 1) := by
  unfold State.smpTake
  dsimp only
  rw [List.length_append]
  rfl

theorem State.Lands.smpTake (s : State) (j : Nat) (f : Option (List Byte)) : (s.smpJoin j f).Lands (s.smpTake j f) := by
  rw [s.smpTake_eq]
  exact .smpNext _ _ _

theorem State.turnFlit_smpJoin {s : State} {j : Nat} (f : Option (List Byte))
    (hw : ∀ p ∈ s.d2d.wait.get (fun _ => []) (j / 4), p.1 ≠ s.d2d.smp.get natZero (j / 4)) :
    (s.smpJoin j f).turnFlit (j / 4) =
      if 4 * (s.sub j).num + j % 4 = s.d2d.smp.get natZero (j / 4) then some (4 * (s.sub j).num + j % 4, f) else none := by
  have hget : (s.smpJoin j f).d2d.wait.get (fun _ => []) (j / 4) =
      s.d2d.wait.get (fun _ => []) (j / 4) ++ [(4 * (s.sub j).num + j % 4, f)] := SMap.get_set_self _ _ _ _
  have hfind : (s.d2d.wait.get (fun _ => []) (j / 4)).find? (fun p => p.1 == s.d2d.smp.get natZero (j / 4)) = none :=
    List.find?_eq_none.2 fun p hp => mt beq_iff_eq.1 (hw p hp)
  have hsmp : (s.smpJoin j f).d2d.smp = s.d2d.smp := rfl
  rw [State.turnFlit, hget, hsmp, List.find?_append, hfind, Option.none_or, List.find?_singleton]
  simp only [beq_iff_eq]

section Order

variable {s : State} {j : Nat} (f : Option (List Byte))
  (hw : ∀ p ∈ s.d2d.wait.get (fun _ => []) (j / 4), p.1 ≠ s.d2d.smp.get natZero (j / 4))
include hw

/-- A flit that is not next in number is held. -/
theorem State.smpTake_held (hn : 4 * (s.sub j).num + j % 4 ≠ s.d2d.smp.get natZero (j / 4)) : (s.smpTake j f).out = s.out := by
  rw [s.smpTake_eq, State.smpNext_waits _ ((State.turnFlit_smpJoin f hw).trans (if_neg hn))]
  rfl

/-- The one that is next in number is driven out. -/
theorem State.smpTake_next (hn : 4 * (s.sub j).num + j % 4 = s.d2d.smp.get natZero (j / 4)) :
    s.out ++ [.flit j (s.smpBytes (j / 4) f) f.isNone] <+: (s.smpTake j f).out := by
  have hj : 4 * (j / 4) + s.d2d.smp.get natZero (j / 4) % 4 = j := by omega
  rw [s.smpTake_eq, State.smpNext_takes _ ((State.turnFlit_smpJoin f hw).trans (if_pos hn))]
  refine List.IsPrefix.trans ?_ ((State.Lands.smpFlit ((s.smpJoin j f).drawn (j / 4)) (j / 4) _ f).trans (.smpNext _ _ _)).out
  rw [show (s.smpJoin j f).d2d.smp = s.d2d.smp from rfl, hj]
  exact List.prefix_rfl

end Order

/-! ### Landing and erasure (R292-R295) -/

/-- A receiver after the delivery of a flit, of its type: a sample flit takes a number. -/
def SubLink.landed (x : SubLink) (type : Nat) : SubLink := if type = 1 then { x with num := x.num + 1 } else x

theorem State.sub_smpTake (s : State) (j : Nat) (f : Option (List Byte)) : (s.smpTake j f).sub j = (s.sub j).landed 1 :=
  (State.sub_congr (State.Lands.smpTake s j f).subs j).trans (s.sub_setSub j _)

/-- A delivered flit that carries no samples is driven out, then does what its type says. -/
theorem State.Lands.flitLand (s : State) (j q : Nat) {type : Nat} (b : List Byte) (h : 2 ≤ type) :
    (s.emit (.flit j b false)).Lands (s.flitLand j q type b) := by
  unfold State.flitLand
  extract_lets t a u
  rw [if_neg (by omega), if_neg (by omega)]
  split
  · exact .calFlit u t a b
  · split
    · exact .ctlTake u j q
    · split
      · exact ⟨rfl, rfl, List.prefix_rfl⟩
      · exact .refl u

theorem State.flitLand_sample (s : State) (j q : Nat) (b : List Byte) : s.flitLand j q 1 b = s.smpTake j (some b) := rfl

theorem State.sub_flitLand (s : State) (j q type : Nat) (b : List Byte) : (s.flitLand j q type b).sub j = (s.sub j).landed type := by
  match type with
  | 0 => rfl
  | 1 => exact s.sub_smpTake j _
  | k + 2 => exact State.sub_congr (State.Lands.flitLand s j q b (by omega)).subs j

theorem State.subCount_form (s : State) (j n : Nat) : ∃ c q, s.subCount j n = { s with ctrs := c, wrapQ := q } := s.count_form _ 1

/-- ERASURE is queued in the first erasure of a tick. -/
theorem State.eraseNote_form (s : State) : ∃ c q, s.eraseNote =
    { s with ctrs := c, wrapQ := q, evQ := s.evQ ++ if s.d2d.eraTick = some s.tick then [] else [Reg.D2D_EVENT.ERASURE],
             d2d := { s.d2d with eraTick := some s.tick } } := by
  unfold State.eraseNote
  by_cases h : s.d2d.eraTick = some s.tick
  · refine ⟨s.ctrs, s.wrapQ, ?_⟩
    rw [if_pos h, if_pos h, List.append_nil, ← h]
  · rw [if_neg h, if_neg h, State.raiseDp, State.raiseDpAt]
    obtain ⟨c, q, e⟩ := ({ s with d2d := { s.d2d with eraTick := some s.tick } } : State).count_form (evCtrKey Reg.D2D_EVENT.ERASURE 0) 1
    exact ⟨c, q, by rw [e]⟩

/-- The state in which an erased sample flit is taken: counted, and noted. -/
def State.erasedNote (s : State) (j : Nat) : State := (s.subCount j 2).eraseNote

theorem State.erasedNote_form (s : State) (j : Nat) : ∃ c q, s.erasedNote j =
    { s with ctrs := c, wrapQ := q, evQ := s.evQ ++ if s.d2d.eraTick = some s.tick then [] else [Reg.D2D_EVENT.ERASURE],
             d2d := { s.d2d with eraTick := some s.tick } } := by
  obtain ⟨c, q, e⟩ := s.subCount_form j 2
  obtain ⟨c', q', e'⟩ := (s.subCount j 2).eraseNote_form
  exact ⟨c', q', e'.trans (by rw [e])⟩

theorem State.erase_sample (s : State) (j q : Nat) : s.erase j q 1 = (s.erasedNote j).smpTake j none := rfl

/-- Erasing any other flit drives nothing out and leaves the receivers. -/
theorem State.erase_other (s : State) (j q : Nat) {type : Nat} (h : type ≠ 1) :
    (s.erase j q type).d2d.subs = s.d2d.subs ∧ (s.erase j q type).out = s.out := by
  obtain ⟨c, w, e⟩ := s.subCount_form j 2
  unfold State.erase
  split
  · exact ⟨rfl, rfl⟩
  · dsimp only
    rw [e]
    split
    · unfold State.ctlAgain
      split <;> exact ⟨rfl, rfl⟩
    · exact ⟨rfl, rfl⟩

theorem State.sub_erase (s : State) (j q type : Nat) : (s.erase j q type).sub j = (s.sub j).landed type := by
  by_cases h : type = 1
  · subst h
    obtain ⟨c, w, e⟩ := s.erasedNote_form j
    rw [s.erase_sample, State.sub_smpTake, e]
    rfl
  · rw [State.sub_congr (s.erase_other j q h).1, SubLink.landed, if_neg h]

/-- An erased control or status flit is the last that waits at its group's sender. -/
theorem State.erase_control {s : State} {j q : Nat} {c : Ctl} (h : (s.snd j).sentAt q = some c) :
    ((s.erase j q 3).snd (s.carrier (j / 16) (j / 4 % 4))).ctl.getLast? = some c := by
  obtain ⟨k, w, e⟩ := s.subCount_form j 2
  have he : s.erase j q 3 = ((s.subCount j 2).unsend j q).sendCtl (j / 16) (j / 4 % 4) c := by
    show (s.subCount j 2).ctlAgain j q = _
    unfold State.ctlAgain
    rw [e, show (({ s with ctrs := k, wrapQ := w } : State).snd j).sentAt q = some c from h]
  rw [he, e, State.sendCtl]
  refine (congrArg (fun x : SendSub => x.ctl.getLast?) (State.snd_modSnd _ _ _)).trans ?_
  exact List.getLast?_concat ..

/-! ### Delivery (R292) -/

/-- A receiver after the delivery of flit `q`, with the run of erased flits that it leaves. -/
def SubLink.settled (x : SubLink) (q run : Nat) : SubLink := { x with slots := x.slots.set noSlot q none, last := some q, run := run }

theorem SubLink.settled_landed (x : SubLink) (q run type : Nat) : ((x.settled q run).landed type).run = run ∧
    ((x.settled q run).landed type).slots.get noSlot q = none ∧ ((x.settled q run).landed type).last = some q ∧
    (type = 1 → ((x.settled q run).landed type).num = x.num + 1) := by
  have hslot : (x.slots.set noSlot q none).get noSlot q = none := SMap.get_set_self _ _ _ _
  unfold SubLink.landed
  by_cases h : type = 1
  · rw [if_pos h]
    exact ⟨rfl, hslot, rfl, fun _ => rfl⟩
  · rw [if_neg h]
    exact ⟨rfl, hslot, rfl, fun e => absurd e h⟩

/-- Whether a stored flit can be delivered: its sub-link carries flits, its delay store reads, its group does not retrain. -/
def State.usable (s : State) (j : Nat) (bad : Bool) : Bool := s.subLive j && !bad && !s.retrains j

/-- The type of an erased flit: the one that its sender keeps, or else the operand's. -/
def State.typeOf (s : State) (j q type : Nat) : Nat := match (s.snd j).replay.find? fun p => p.1 == q with | some p => p.2.1 | none => type

section Out

variable {s : State} {j : Fin 64} {q type : Nat} {bad : Bool} (hq : q < 4096)

theorem State.flitOut_untrained (h : s.trained (j / 16) = false) : s.flitOut j q type bad = s := if_pos (.inr h)

variable (ht : s.trained (j / 16) = true)
include hq ht

theorem State.flitOut_good {g : Nat × List Byte} (hg : ((s.sub j).slots.get noSlot q).bind FlitSlot.good = some g)
    (hu : s.usable j bad = true) : s.flitOut j q type bad = (s.setSub j ((s.sub j).settled q 0)).flitLand j q g.1 g.2 := by
  obtain ⟨f, hf, hfg⟩ := Option.bind_eq_some_iff.1 hg
  unfold State.usable at hu
  unfold State.flitOut
  rw [if_neg (not_or.2 ⟨Nat.not_le.2 j.isLt, by rw [ht]; decide⟩), Nat.mod_eq_of_lt hq]
  dsimp only
  rw [hf, hu]
  dsimp only
  rw [hfg]
  rfl

theorem State.flitOut_erased (h : ((s.sub j).slots.get noSlot q).bind FlitSlot.good = none ∨ s.usable j bad = false) :
    s.flitOut j q type bad = (s.setSub j ((s.sub j).settled q (min 64 ((s.sub j).run + 1)))).erase j q (s.typeOf j q type) := by
  unfold State.usable at h
  unfold State.flitOut
  rw [if_neg (not_or.2 ⟨Nat.not_le.2 j.isLt, by rw [ht]; decide⟩), Nat.mod_eq_of_lt hq]
  dsimp only
  split
  · next g hg hu =>
    refine absurd h (not_or.2 ⟨?_, by rw [hu]; decide⟩)
    cases hf : (s.sub j).slots.get noSlot q with
    | none => rw [hf] at hg; cases hg
    | some f =>
      rw [hf] at hg
      exact fun hn => absurd (hn.symm.trans hg) (Option.some_ne_none g).symm
  · rfl

end Out

end Sys2Proof.Machine
end

section
/-! SUPPORT. The die-to-die links' commands: a cycle of a sub-link pair, a delivery, a control write not acknowledged in time (R287-R296). -/

namespace Sys2Proof.Machine

open Sys2Proof

/-- A command of the datapath leaves of the die-to-die links, the output and the queued events what its effect `w` leaves. -/
theorem completes_links {c : Instr} {s w : State} {f : State → State} {P : State → Prop} (hc : exec c s = .next (s.cmdRun f)) (h : s.clocked)
    (hw : f s.cleared = w) (hP : ∀ t, t.d2d = w.d2d → t.out = w.out → t.evQ = w.evQ → P t) : Completes c s P := by
  subst hw
  refine completes_run hc h.2 (hP _ ?_ ?_ ?_) <;> simp only [s.cmd_frame f h.1]

/-! ### A cycle (R287, R291, R293, R296) -/

section Cycle

variable {s : State} (h : s.clocked) {j : Fin 64} {w : List Nat} {seq : Fin 4096} {x : SendIn}
include h

/-- Where the receiver leaves `u`, the cycle leaves that and the sender's part. -/
theorem flitReceived_takes {u : State} (hu : u.Counted (s.cleared.flitTake j w seq)) (hp : u.pending = s.pending) :
    Completes (.flitReceived j w seq x) s fun t => (u.sends (subPair j) x).sameBut t wrapRegs :=
  completes_sameBut rfl h rfl (hu.sends _ x) ((u.sends_pending _ x).trans hp)

section Down

variable (hl : s.subLive j = false)
include hl

theorem flitReceived_down : Completes (.flitReceived j w seq x) s fun t => (s.sends (subPair j) x).sameBut t wrapRegs := by
  refine flitReceived_takes h ?_ rfl
  rw [State.flitTake_down (s := s.cleared) hl]
  exact .cleared s

/-- A receiver that is down leaves what the sender drives out. -/
theorem flitReceived_out {o : List Out} (ho : (s.cleared.sends (subPair j) x).out = o) :
    Completes (.flitReceived j w seq x) s fun t => t.out = o := by
  refine completes_links rfl h rfl fun t _ hout _ => hout.trans ?_
  rw [State.flitIn, State.flitTake_down (s := s.cleared) hl]
  exact ho

end Down

variable (hl : s.subLive j = true) {b : List Byte} {y : SubLink}
include hl

/-- The first correct copy of a flit is kept unless it is late, and its request is heard. -/
theorem flitReceived_first (hd : (s.sub j).decode w = (b, true, y)) (hn : y.slots.get noSlot (flitSeq b) = none) :
    Completes (.flitReceived j w seq x) s fun t =>
      (((s.setSub j (y.took b ⟨none, none⟩)).requested (subPair j) (flitRq b)).sends (subPair j) x).sameBut t wrapRegs := by
  refine flitReceived_takes h ?_ (State.requested_pending _ _ _)
  rw [State.flitTake_correct (s := s.cleared) hl hd hn]
  exact ((State.Counted.cleared s).setSub j _).requested _ _

/-- A correct copy after a failed one counts the bits in which they differ. -/
theorem flitReceived_compares (hd : (s.sub j).decode w = (b, true, y)) {f : List Byte} {lanes : List Nat}
    (hf : y.slots.get noSlot (flitSeq b) = some ⟨none, some (f, lanes)⟩) :
    Completes (.flitReceived j w seq x) s fun t => ∀ k, t.d2d.err.get natZero k =
      ((wrongBits f b).filter fun e => wrongLane j lanes e == k).foldl (fun v _ => satAdd 0xFFFF v 1) (s.d2d.err.get natZero k) := by
  refine completes_links rfl h rfl fun t ht _ _ k => ?_
  rw [ht]
  show ((s.cleared.flitTake j w seq).sends (subPair j) x).d2d.err.get natZero k = _
  rw [State.sends_err, State.flitTake_correct (s := s.cleared) hl hd hf, State.requested_err]
  exact State.err_laneErrs (wrongLane j lanes) (wrongBits f b) s.cleared k

/-- A failed copy that is late is dropped; the first one is kept, and its resend is asked for twice. -/
theorem flitReceived_failed (hd : (s.sub j).decode w = (b, false, y)) (hn : y.slots.get noSlot seq = none) :
    Completes (.flitReceived j w seq x) s fun t =>
      ((bif y.late seq then s.setSub j y else (s.setSub j (y.store seq ⟨none, some (b, y.map)⟩)).askFor (subPair j) seq).sends
        (subPair j) x).sameBut t wrapRegs := by
  have hc := (State.Counted.cleared s).trans (.count _ (4128 + 4 * j + 0) 1)
  refine flitReceived_takes h ?_ (by cases y.late seq <;> rfl)
  rw [State.flitTake_failed (s := s.cleared) hl hd seq.isLt hn]
  cases y.late seq with
  | true => exact hc.setSub j y
  | false => exact (hc.setSub j _).askFor (subPair j) seq

end Cycle

/-! ### A delivery (R288, R292-R295) -/

/-- No flit waits at a sub-link's converter with the number that is next there. -/
def State.turnFree (s : State) (j : Nat) : Prop := ∀ p ∈ s.d2d.wait.get (fun _ => []) (j / 4), p.1 ≠ s.d2d.smp.get natZero (j / 4)

section Delivery

variable {s : State} (h : s.clocked) {j : Fin 64} {seq : Fin 4096} {type : Fin 16} {bad : Bool}
include h

variable (ht : s.trained (j / 16) = true)
include ht

/-- A stored flit is delivered: its entry is free again, and it is driven out, a sample flit in its turn. -/
theorem flitDelivery_delivers {g : Nat × List Byte} (hg : ((s.sub j).slots.get noSlot seq).bind FlitSlot.good = some g)
    (hu : s.usable j bad = true) : Completes (.flitDelivery j seq type bad) s fun t =>
      t.sub j = ((s.sub j).settled seq 0).landed g.1 ∧ (g.1 = 0 → t.out = []) ∧ (2 ≤ g.1 → [Out.flit j g.2 false] <+: t.out) ∧
      (g.1 = 1 → s.turnFree j →
        (4 * (s.sub j).num + j % 4 = s.d2d.smp.get natZero (j / 4) → [Out.flit j g.2 false] <+: t.out) ∧
        (4 * (s.sub j).num + j % 4 ≠ s.d2d.smp.get natZero (j / 4) → t.out = [])) := by
  obtain ⟨type', bs⟩ := g
  set u := s.cleared.setSub j ((s.sub j).settled seq 0)
  have hsub : u.sub j = (s.sub j).settled seq 0 := State.sub_setSub _ _ _
  have hnum : 4 * (u.sub j).num + j % 4 = 4 * (s.sub j).num + j % 4 := by rw [hsub, SubLink.settled]
  have hw : s.cleared.flitOut j seq type bad = u.flitLand j seq type' bs := State.flitOut_good (s := s.cleared) seq.isLt ht hg hu
  refine completes_links rfl h hw fun t hd hout _ => ⟨?_, ?_, fun h2 => ?_, ?_⟩
  · rw [State.sub_congr (congrArg D2dSt.subs hd), State.sub_flitLand, hsub]
  · rintro rfl
    exact hout
  · rw [hout]
    exact (State.Lands.flitLand u j seq bs h2).out
  · rintro rfl hfree
    rw [hout, State.flitLand_sample]
    exact ⟨fun hn => u.smpTake_next (some bs) hfree (hnum.trans hn), fun hn => u.smpTake_held (some bs) hfree (hnum.trans_ne hn)⟩

/-- A missing flit is erased: its run goes on; a sample flit keeps its turn, a control flit waits again at its group's sender. -/
theorem flitDelivery_erases (hn : ((s.sub j).slots.get noSlot seq).bind FlitSlot.good = none ∨ s.usable j bad = false) :
    Completes (.flitDelivery j seq type bad) s fun t =>
      t.sub j = ((s.sub j).settled seq (min 64 ((s.sub j).run + 1))).landed (s.typeOf j seq type) ∧
      (s.typeOf j seq type ≠ 1 → t.out = []) ∧
      (s.typeOf j seq type = 1 →
        (s.turnFree j →
          (4 * (s.sub j).num + j % 4 = s.d2d.smp.get natZero (j / 4) → [Out.flit j (s.smpBytes (j / 4) none) true] <+: t.out) ∧
          (4 * (s.sub j).num + j % 4 ≠ s.d2d.smp.get natZero (j / 4) → t.out = [])) ∧
        (s.d2d.eraTick ≠ some s.tick → Reg.D2D_EVENT.ERASURE ∈ t.evQ)) ∧
      (∀ c, s.typeOf j seq type = 3 → (s.snd j).sentAt seq = some c → (t.snd (s.carrier (j / 16) (j / 4 % 4))).ctl.getLast? = some c) := by
  have hw := State.flitOut_erased (s := s.cleared) (type := type) (bad := bad) seq.isLt ht hn
  rw [show s.cleared.typeOf j seq type = s.typeOf j seq type from rfl] at hw
  generalize s.typeOf j seq type = was at hw ⊢
  set u := s.cleared.setSub j ((s.sub j).settled seq (min 64 ((s.sub j).run + 1)))
  have hsub : u.sub j = (s.sub j).settled seq (min 64 ((s.sub j).run + 1)) := State.sub_setSub _ _ _
  have hnum : 4 * (u.sub j).num + j % 4 = 4 * (s.sub j).num + j % 4 := by rw [hsub, SubLink.settled]
  replace hw : s.cleared.flitOut j seq type bad = u.erase j seq was := hw
  refine completes_links rfl h hw fun t hd hout hev => ⟨?_, fun hne => hout.trans (u.erase_other j seq hne).2, ?_, ?_⟩
  · rw [State.sub_congr (congrArg D2dSt.subs hd), State.sub_erase, hsub]
  · rintro rfl
    obtain ⟨c, q, e⟩ := u.erasedNote_form j
    rw [hout, hev, u.erase_sample, e]
    refine ⟨fun hfree => ⟨fun hturn => ?_, fun hturn => ?_⟩, fun hera => ?_⟩
    · refine List.IsPrefix.trans ?_ (State.smpTake_next none hfree (hnum.trans hturn))
      exact List.prefix_rfl
    · exact State.smpTake_held none hfree (hnum.trans_ne hturn)
    · rw [(State.Lands.smpTake _ j none).evQ]
      exact List.mem_append_right _ ((if_neg hera).symm ▸ List.mem_singleton.2 rfl)
  · rintro c rfl hc
    rw [show t.snd (s.carrier (j / 16) (j / 4 % 4)) = (u.erase j seq 3).snd (u.carrier (j / 16) (j / 4 % 4)) from
      congrArg (fun d : D2dSt => d.send.get noSend (s.carrier (j / 16) (j / 4 % 4))) hd]
    exact State.erase_control hc

end Delivery

/-! ### Late control writes (R295) -/

/-- Whether a control write of a tile is late: it waits for its activation, is not acknowledged, and is not held. -/
def State.ctlIsLate (s : State) (t : Nat) : Bool := s.ctlOpen t && !(s.ln t).cnv.due.isEmpty && !(s.ln t).ctlHeld

theorem State.ctlLate_eq (s : State) (l : Fin 2) : s.ctlLate l =
    bif s.ctlIsLate l then (s.modLn l fun x => { x with ctlHeld := true }).raiseDp Reg.D2D_EVENT.CTL_LATE else s := by
  have hiff : (l.val < 2 ∧ (s.ln l).cnv.due ≠ [] ∧ s.ctlOpen l = true ∧ (s.ln l).ctlHeld = false) ↔ s.ctlIsLate l = true := by
    simp only [State.ctlIsLate, l.isLt, true_and, Bool.and_eq_true, Bool.not_eq_true', List.isEmpty_eq_false_iff]
    tauto
  unfold State.ctlLate
  rw [if_congr hiff rfl rfl]
  cases s.ctlIsLate l <;> rfl

theorem ctlLate_holds {s : State} (h : s.clocked) (l : Fin 2) (hl : s.ctlIsLate l = true) : Completes (.ctlLate l) s fun t =>
    ({ (s.modLn l fun x => { x with ctlHeld := true }) with evQ := s.evQ ++ [Reg.D2D_EVENT.CTL_LATE] } : State).sameBut t wrapRegs := by
  have hw := s.cleared.ctlLate_eq l
  rw [show s.cleared.ctlIsLate l = true from hl] at hw
  refine completes_sameBut rfl h hw ?_ ?_
  · have hq := ((State.Counted.cleared s).modLn l fun x => { x with ctlHeld := true }).queued (es := [Reg.D2D_EVENT.CTL_LATE])
    rw [(s.modLn_besides l _).2.1] at hq
    exact hq.trans (.raiseDp _ _)
  · obtain ⟨a, b, e⟩ := s.modLn_form l fun x => { x with ctlHeld := true }
    rw [e]

theorem ctlLate_stays {s : State} (h : s.clocked) (l : Fin 2) (hl : s.ctlIsLate l = false) :
    Completes (.ctlLate l) s fun t => s.sameBut t wrapRegs := by
  have hw := s.cleared.ctlLate_eq l
  rw [show s.cleared.ctlIsLate l = false from hl] at hw
  exact completes_idle rfl h hw

/-! ### The links -/

/-- A first correct copy is stored, or comes too late. -/
theorem State.setSub_took (s : State) (j : Nat) (y : SubLink) (b : List Byte) : s.setSub j (y.took b ⟨none, none⟩) =
    if y.late (flitSeq b) then s.setSub j y else s.setSub j (y.store (flitSeq b) ⟨some (flitType b, flitPayload b), none⟩) := by
  unfold SubLink.took
  rw [Option.isSome_none, Bool.false_or, apply_ite (s.setSub j)]

/-- A decoded flit by whether it is correct. -/
theorem decode_of_ok {d : List Byte × Bool × SubLink} {ok : Bool} (h : d.2.1 = ok) : d = (d.1, ok, d.2.2) := h ▸ rfl

/-- What an erased sample flit brings its converter, by sub-link. -/
theorem State.smpBytes_none (s : State) (j : Nat) : s.smpBytes (j / 4) none =
    if j / 16 % 2 = 1 then List.replicate 120 0#8 else s.d2d.dac.get (fun _ => []) (4 * (j / 32) + j / 4 % 4) := by
  rw [State.smpBytes, Option.getD_none, Nat.div_div_eq_div_mul, Nat.div_div_eq_div_mul]

/-- Settles O47: a cycle by what its receiver takes and what its sender's slot holds, a delivery by whether the flit is stored, a late control
write by its hold. -/
theorem flits : Obligations.Flits := by
  unfold Obligations.Flits
  intro s h
  refine ⟨fun j w seq x => ⟨flitReceived_down h, fun hl hok hn => ?_, fun f lanes hl hok hf => flitReceived_compares h hl (decode_of_ok hok) hf,
    fun hl hok hn => ?_, fun hl ht hlive => ⟨fun q type bs r hr hp => flitReceived_out h hl (State.sends_resend (s := s.cleared) x ht hlive hr hp),
      fun n bs r hr hm hc => flitReceived_out h hl (State.sends_sample (s := s.cleared) x ht hlive hr hm hc)⟩,
    fun hl hsilent => flitReceived_out h hl (State.sends_silent (s := s.cleared) x hsilent)⟩,
    fun j seq type bad => ⟨fun ht => completes_idle rfl h (State.flitOut_untrained (s := s.cleared) ht), fun g ht hg hu => ?_, fun ht hn => ?_⟩,
    fun l => ⟨ctlLate_holds h l, ctlLate_stays h l⟩⟩
  · have key := flitReceived_first h (seq := seq) (x := x) hl (decode_of_ok hok) hn
    refine ⟨fun hrq => ?_, fun n hrq hagain => ?_, fun n hrq hagain => ?_⟩
    · rwa [hrq, State.requested_none, State.setSub_took] at key
    · rwa [hrq, State.requested_refused (s := s.setSub j _) hagain, State.setSub_took] at key
    · rwa [hrq, State.requested_taken (s := s.setSub j _) hagain, State.setSub_took] at key
  · have key := flitReceived_failed h (x := x) hl (decode_of_ok hok) hn
    refine ⟨fun hlate => ?_, fun hlate => ?_⟩
    · rwa [hlate, cond_false] at key
    · rwa [hlate, cond_true] at key
  · refine (flitDelivery_delivers h ht hg hu).imp fun t ⟨hsub, hidle, hother, hsample⟩ => ?_
    obtain ⟨hrun, hslot, hlast, hnum⟩ := (s.sub j).settled_landed seq 0 g.1
    rw [hsub]
    exact ⟨hrun, hslot, hlast, hidle, hother, fun h1 => ⟨hnum h1, fun hnext => (hsample h1 hnext.2).1 hnext.1, fun hheld =>
      (hsample h1 hheld.2).2 hheld.1⟩⟩
  · refine (flitDelivery_erases h ht hn).imp fun t ⟨hsub, hother, hsample, hcontrol⟩ => ?_
    obtain ⟨hrun, hslot, hlast, hnum⟩ := (s.sub j).settled_landed seq (min 64 ((s.sub j).run + 1)) (s.typeOf j seq type)
    rw [s.smpBytes_none] at hsample
    rw [hsub]
    exact ⟨hrun, hslot, hlast, fun h1 => ⟨hnum h1, fun hnext => ((hsample h1).1 hnext.2).1 hnext.1, fun hheld =>
      ((hsample h1).1 hheld.2).2 hheld.1⟩, hother, hcontrol, fun h1 => (hsample h1).2⟩

end Sys2Proof.Machine
end

section
/-! SUPPORT. The Rime ports: what reading and replacing a port, queueing and dropping a packet, and the access of one leave (R320-R323). -/

namespace Sys2Proof.Machine

open Sys2Proof

/-! ### Ports -/

@[simp] theorem State.rp_setRp (s : State) (k : Nat) (x : RimePort) : (s.setRp k x).rp k = x := by
  unfold State.setRp State.rp
  split <;> rfl

theorem State.rp_setRp_ne (s : State) {j k : Nat} (x : RimePort) (h : ¬(j = 0 ↔ k = 0)) : (s.setRp k x).rp j = s.rp j := by
  unfold State.setRp State.rp
  by_cases hk : k = 0 <;> by_cases hj : j = 0 <;> simp_all

@[simp] theorem State.setRp_setRp (s : State) (k : Nat) (x y : RimePort) : (s.setRp k x).setRp k y = s.setRp k y := by
  unfold State.setRp
  split <;> rfl

@[simp] theorem State.setRp_rp (s : State) (k : Nat) : s.setRp k (s.rp k) = s := by
  unfold State.setRp State.rp
  split <;> rfl

/-- Replacing a port touches no other part of the state. -/
theorem State.setRp_form (s : State) (k : Nat) (x : RimePort) : ∃ a b, s.setRp k x = { s with rim := { s.rim with p0 := a, p1 := b } } := by
  unfold State.setRp
  split
  · exact ⟨x, s.rim.p1, rfl⟩
  · exact ⟨s.rim.p0, x, rfl⟩

theorem State.rp_congr {s t : State} (h : t.rim = s.rim) (k : Nat) : t.rp k = s.rp k := by
  unfold State.rp
  rw [h]

theorem State.rim_of_rest {s t : State} (h : t.rest = s.rest) : t.rim = s.rim := show t.rest.rim = s.rest.rim by rw [h]

theorem State.rp_of_rest {s t : State} (h : t.rest = s.rest) (k : Nat) : t.rp k = s.rp k := State.rp_congr (State.rim_of_rest h) k

theorem State.Counted.setRp {s t : State} (k : Nat) (x : RimePort) : s.Counted t → (s.setRp k x).Counted (t.setRp k x) := by
  rintro ⟨c, q, o, rfl⟩
  unfold State.setRp
  split <;> exact ⟨c, q, o, rfl⟩

theorem State.Counted.rp {s t : State} (k : Nat) (h : s.Counted t) : t.rp k = s.rp k := State.rp_of_rest h.rest k

theorem State.Counted.rimCount (s : State) (k c what : Nat) : s.Counted (s.rimCount k c what) := State.Counted.count s _ _

@[simp] theorem State.rp_setFld (s : State) (f : Fr) (v k : Nat) : (s.setFld f v).rp k = s.rp k := rfl
@[simp] theorem State.rp_rimShow (s : State) (j k : Nat) : (s.rimShow j).rp k = s.rp k := rfl
@[simp] theorem State.rp_raise (s : State) (f : Fr) (k : Nat) : (s.raise f).rp k = s.rp k := State.rp_of_rest (s.rest_raise f) k
@[simp] theorem State.rp_rimCount (s : State) (j c what k : Nat) : (s.rimCount j c what).rp k = s.rp k := State.rp_of_rest (s.rest_count _ _) k

@[simp] theorem State.cph_setRp (s : State) (k : Nat) (x : RimePort) : (s.setRp k x).cph = s.cph := by
  unfold State.setRp
  split <;> rfl

theorem State.reg_rimShow (s : State) (k : Nat) {off : Nat} (h : off ≠ Reg.RIM_STATUS) : (s.rimShow k).reg off = s.reg off := by
  unfold State.rimShow rimDepthFld rimSendFld
  split <;> exact (State.reg_setFld_ne _ _ (Ne.symm h)).trans (s.reg_setFld_ne _ (Ne.symm h))

theorem State.reg_rimLeave (s : State) (k : Nat) {off : Nat} (h : off ≠ Reg.RIM_STATUS) : (s.rimLeave k).reg off = s.reg off :=
  (State.reg_rimShow _ k h).trans (s.reg_setRp k _)

/-! ### What a command leaves -/

/-- A command leaves of the Rime transceiver, the engine, the outputs and the registers what its effect `w` leaves. -/
theorem completes_rime {c : Instr} {s w : State} {f : State → State} {P : State → Prop} (hc : exec c s = .next (s.cmd f)) (h : s.live)
    (hw : f s.cleared = w) (hP : ∀ t, t.rim = w.rim → t.cph = w.cph → t.out = w.out → (∀ off, off ∉ wrapRegs → t.reg off = w.reg off) → P t) :
    Completes c s P := by
  subst hw
  refine ⟨_, hc, hP _ ?_ ?_ ?_ fun off ho => s.reg_cmd f h ho⟩ <;> simp only [s.cmd_frame f h]

/-- A command whose effect is `u` but for the accounts. -/
theorem completes_counted {c : Instr} {s u w : State} {f : State → State} (hc : exec c s = .next (s.cmd f)) (h : s.live) (hw : f s.cleared = w)
    (hu : u.Counted w) (hp : u.pending = s.pending) : Completes c s fun t => u.sameBut t wrapRegs :=
  ⟨_, hc, State.Counted.sameBut_cmd h (hw ▸ hu) hp⟩

end Sys2Proof.Machine
end

section
/-! SUPPORT. Rime reception: sync words, headers, trailers, and the neighbour table (R315-R319, R329). -/

namespace Sys2Proof.Machine

open Sys2Proof

/-! ### Sync words (R315, R316) -/

/-- Whether a sync word is taken: the port receives, the correlation peaks here, and the word is close enough. -/
def State.rimHits (s : State) (k bits : Nat) (corr : List Nat) : Bool :=
  s.bit Reg.RIM_CTL.EN && s.bit (Reg.RIM_PORT_CFG.RX_EN k) && corrPeak corr && decide (popCount 32 (bits ^^^ 0xE3D42B9C) ≤ s.fld Reg.RIM_CTL.SYNC_ERR)

/-- A packet as its sync word shows it. -/
def rimFresh (level : Nat) (corr : List Nat) : RimeRx := ⟨level, corr.getD 64 0 / 256, none⟩

/-- The state in which a channel receiver holds the active packet and the candidate given. -/
def State.withRx (s : State) (k c : Nat) (act cand : Option RimeRx) : State :=
  s.setRp k { s.rp k with act := (s.rp k).act.set noRx c act, cand := (s.rp k).cand.set noRx c cand }

section Sync

variable (s : State) (k : Fin 2) (c : Fin 8) {bits : Nat} (level : Nat) {corr : List Nat}

theorem State.rimSync_missed (h : s.rimHits k bits corr = false) : s.rimSync k c bits level corr = s := by
  refine if_neg fun ⟨_, _, hen, hrx, hp, hb⟩ => ?_
  rw [State.rimHits, hen, hrx, hp, decide_eq_true hb] at h
  exact absurd h (by decide)

variable (h : s.rimHits k bits corr = true)
include h

/-- A sync word taken, by the active packet and the candidate it meets. -/
theorem State.rimSync_hit : s.rimSync k c bits level corr =
    match (s.rp k).act.get noRx c with
    | none => s.setRp k { s.rp k with act := (s.rp k).act.set noRx c (some (rimFresh level corr)) }
    | some a =>
      if level + 2 * s.fld Reg.RIM_CTL.CAPTURE ≤ a.level then
        (if ((s.rp k).cand.get noRx c).isSome then (s.rimCount k c 2).rimCount k c 3 else s.rimCount k c 2).withRx k c (some (rimFresh level corr)) none
      else if a.hdr.isSome then s.rimCount k c 4
      else match (s.rp k).cand.get noRx c with
        | none => s.setRp k { s.rp k with cand := (s.rp k).cand.set noRx c (some (rimFresh level corr)) }
        | some q =>
          if level < q.level then
            (s.rimCount k c 3).setRp k { s.rp k with cand := (s.rp k).cand.set noRx c (some (rimFresh level corr)) }
          else s.rimCount k c 3 := by
  simp only [State.rimHits, Bool.and_eq_true, decide_eq_true_eq] at h
  obtain ⟨⟨⟨hen, hrx⟩, hp⟩, hb⟩ := h
  have hc (b : Bool) : (if b = true then (s.rimCount k c 2).rimCount k c 3 else s.rimCount k c 2).rp k = s.rp k := by cases b <;> simp
  unfold State.rimSync State.withRx
  rw [if_pos ⟨k.isLt, c.isLt, hen, hrx, hp, hb⟩]
  dsimp only
  simp only [hc, State.rp_rimCount]
  rfl

theorem State.rimSync_begins (ha : (s.rp k).act.get noRx c = none) : s.rimSync k c bits level corr =
    s.setRp k { s.rp k with act := (s.rp k).act.set noRx c (some (rimFresh level corr)) } := by
  rw [s.rimSync_hit k c level h, ha]

variable {a : RimeRx} (ha : (s.rp k).act.get noRx c = some a)
include ha

theorem State.rimSync_captures (hl : level + 2 * s.fld Reg.RIM_CTL.CAPTURE ≤ a.level) :
    (s.withRx k c (some (rimFresh level corr)) none).Counted (s.rimSync k c bits level corr) := by
  rw [s.rimSync_hit k c level h, ha]
  dsimp only
  rw [if_pos hl]
  have hc : s.Counted (if ((s.rp k).cand.get noRx c).isSome then (s.rimCount k c 2).rimCount k c 3 else s.rimCount k c 2) := by
    split
    · exact (State.Counted.rimCount s k c 2).trans (.rimCount _ k c 3)
    · exact .rimCount s k c 2
  unfold State.withRx
  rw [hc.rp]
  exact hc.setRp k _

variable (hl : ¬level + 2 * s.fld Reg.RIM_CTL.CAPTURE ≤ a.level)
include hl

theorem State.rimSync_inBody (hb : a.hdr.isSome = true) : s.Counted (s.rimSync k c bits level corr) := by
  rw [s.rimSync_hit k c level h, ha]
  dsimp only
  rw [if_neg hl, if_pos hb]
  exact .rimCount s k c 4

variable (hb : a.hdr = none)
include hb

theorem State.rimSync_candidate (hc : (s.rp k).cand.get noRx c = none) : s.rimSync k c bits level corr =
    s.setRp k { s.rp k with cand := (s.rp k).cand.set noRx c (some (rimFresh level corr)) } := by
  rw [s.rimSync_hit k c level h, ha, hc]
  dsimp only
  rw [if_neg hl, hb]
  rfl

/-- The stronger of two candidates stays. -/
theorem State.rimSync_contends {q : RimeRx} (hc : (s.rp k).cand.get noRx c = some q) :
    (if level < q.level then s.setRp k { s.rp k with cand := (s.rp k).cand.set noRx c (some (rimFresh level corr)) } else s).Counted
      (s.rimSync k c bits level corr) := by
  rw [s.rimSync_hit k c level h, ha, hc]
  dsimp only
  rw [if_neg hl, hb, Option.isSome_none, if_neg Bool.false_ne_true]
  split
  · exact (State.Counted.rimCount s k c 3).setRp k _
  · exact .rimCount s k c 3

end Sync

/-! ### Headers (R317) -/

section Header

variable (s : State) (k : Fin 2) (c : Fin 8) {hd : List Byte}

theorem State.rimHeader_unasked (h : ∀ a, (s.rp k).act.get noRx c = some a → a.hdr.isSome = true ∨ hd.length ≠ 6) : s.rimHeader k c hd = s := by
  unfold State.rimHeader
  dsimp only
  cases ha : (s.rp k).act.get noRx c with
  | none => rfl
  | some a => exact if_pos ((h a ha).imp_right fun hn => .inr (.inr hn))

/-- Whether a header passes: its CRC, and a length that a packet can have. -/
def rimHeaderGood (hd : List Byte) : Bool := ofBe (hd.drop 5) == rimHcrc (hd.take 5) && decide (ofBe ((hd.drop 1).take 1) ≤ 240)

variable {a : RimeRx} (ha : (s.rp k).act.get noRx c = some a) (hn : a.hdr = none) (h6 : hd.length = 6)
include ha hn h6

theorem State.rimHeader_good (hg : rimHeaderGood hd = true) :
    (s.withRx k c (some { a with hdr := some hd }) none).Counted (s.rimHeader k c hd) := by
  simp only [rimHeaderGood, Bool.and_eq_true, beq_iff_eq, decide_eq_true_eq] at hg
  unfold State.rimHeader State.withRx
  dsimp only
  rw [ha]
  dsimp only
  rw [if_neg (by rw [hn, h6]; have := k.isLt; have := c.isLt; simp; omega), if_pos hg]
  split
  · rw [State.rp_rimCount]
    exact (State.Counted.rimCount s k c 3).setRp k _
  · exact .refl _

theorem State.rimHeader_bad (hg : rimHeaderGood hd = false) :
    (s.withRx k c ((s.rp k).cand.get noRx c) none).Counted (s.rimHeader k c hd) := by
  have hg : ¬(ofBe (hd.drop 5) = rimHcrc (hd.take 5) ∧ ofBe ((hd.drop 1).take 1) ≤ 240) := fun ⟨h1, h2⟩ => by
    rw [rimHeaderGood, h1, beq_self_eq_true, decide_eq_true h2] at hg
    exact absurd hg (by decide)
  unfold State.rimHeader State.withRx
  dsimp only
  rw [ha]
  dsimp only
  rw [if_neg (by rw [hn, h6]; have := k.isLt; have := c.isLt; simp; omega), if_neg hg]
  exact (State.Counted.rimCount s k c 5).setRp k _

end Header

end Sys2Proof.Machine
end

section
/-! SUPPORT. What staging accesses leave alone: every reading of the state that neither the memory nor its registers touch (R369-R375). -/

namespace Sys2Proof.Machine

open Sys2Proof

/-- A reading of the state that the memory, the registers of its block and that block's events do not touch. -/
structure MemBlind {β : Type} (p : State → β) : Prop where
  mem (u : State) (m : MemSt) : p { u with mem := m } = p u
  reg (u : State) (off : Nat) (w : Word) (h : 0x80000 ≤ off) : p (u.setReg off w) = p u
  event (u : State) (f : Fr) (i : Nat) (h : 0x80000 ≤ f.off) : p (u.raiseAt f i) = p u

theorem memBlind_reg {off : Nat} (h : off < 0x80000) (hf : off ≠ Reg.FLT_EVENT) : MemBlind (·.reg off) where
  mem _ _ := rfl
  reg u o w ho := u.reg_setReg_ne w (by omega)
  event u f i ho := u.reg_raiseAt_ne f i (by omega) hf

theorem memBlind_rim : MemBlind State.rim where
  mem _ _ := rfl
  reg _ _ _ _ := rfl
  event u f i _ := State.rim_of_rest (u.rest_raiseAt f i)

theorem memBlind_cph : MemBlind State.cph where
  mem _ _ := rfl
  reg _ _ _ _ := rfl
  event u f i _ := State.cph_of_rest (u.rest_raiseAt f i)

namespace MemBlind

variable {β : Type} {p : State → β} (h : MemBlind p) (s : State)
include h

theorem setFld (f : Fr) (v : Nat) (hf : 0x80000 ≤ f.off) : p (s.setFld f v) = p s := h.reg s _ _ hf

theorem trkSet (c e i w n : Nat) (fresh : Bool) : p (s.trkSet c e i w n fresh) = p s := by
  unfold State.trkSet
  extract_lets a m b
  have hb : p b = p s := (h.mem a _).trans (h.reg s _ _ (by unfold Reg.MEM_TRACK; omega))
  split
  · exact (h.mem b _).trans hb
  · exact hb

theorem trkOffer (i w lane : Nat) (hard : Bool) : p (s.trkOffer i w lane hard) = p s := by
  unfold State.trkOffer
  extract_lets c th found e cnt wr counted n n' t row busy u
  have ht : p t = p s := h.trkSet s _ _ _ _ _ _
  have hu : p u = p s := (h.event t _ 0 (by decide)).trans ht
  split
  · rfl
  · split
    · exact ht
    · split
      · exact (h.mem u _).trans hu
      · exact hu

theorem logUncorr (i w lane syn : Nat) (rmw : Bool) (at_ : Nat) : p (s.logUncorr i w lane syn rmw at_) = p s := by
  unfold State.logUncorr
  split
  · rfl
  · exact (h.setFld _ _ _ (by decide)).trans ((h.setFld _ _ _ (by decide)).trans (h.reg s _ _ (by decide)))

theorem reportCorr (i w lane : Nat) (rmw : Bool) : p (s.reportCorr i w lane rmw) = p s := by
  unfold State.reportCorr
  rw [h.trkOffer]
  split <;> exact h.event s _ _ (by decide)

theorem reportUncorr (i w lane syn : Nat) (rmw : Bool) (at_ : Nat) : p (s.reportUncorr i w lane syn rmw at_) = p s := by
  unfold State.reportUncorr
  extract_lets a b
  have hb : p b = p s := (h.logUncorr a _ _ _ _ _ _).trans (h.event s _ _ (by decide))
  split
  · exact (h.event b _ _ (by decide)).trans hb
  · exact (h.trkOffer b _ _ _ _).trans hb

theorem readLane (lane : Nat) : p (s.readLane lane).2.2 = p s := by
  unfold State.readLane
  extract_lets d syn
  split
  · rfl
  · exact h.reportUncorr s _ _ _ _ _ _
  · exact h.reportCorr s _ _ _ _

theorem stRead (a n : Nat) : p (s.stRead a n).2.2 = p s :=
  foldl_keeps (fun x : List Byte × Option Nat × State => p x.2.2) _ (fun x lane => h.readLane x.2.2 lane) _ _

theorem trkWrote (i w lane : Nat) : p (s.trkWrote i w lane) = p s := by
  unfold State.trkWrote
  extract_lets k wr
  split
  · rfl
  · exact h.mem s _

theorem storeLane (lane d syn : Nat) : p (s.storeLane lane d syn) = p s := by
  unfold State.storeLane
  extract_lets inst m a b c
  have hb : p b = p s := (h.trkWrote _ _ _ _).trans ((h.mem a _).trans (h.mem s _))
  split
  · exact (h.event _ _ _ (by decide)).trans ((h.setFld c _ _ (by decide)).trans ((h.mem b _).trans hb))
  · exact hb

theorem mergeLane (lane mask d : Nat) : p (s.mergeLane lane mask d).2 = p s := by
  unfold State.mergeLane
  extract_lets old syn inst w mix
  split
  · exact h.storeLane s _ _ _
  · exact (h.event _ _ _ (by decide)).trans ((h.storeLane _ _ _ _).trans (h.reportUncorr s _ _ _ _ _ _))
  · exact (h.storeLane _ _ _ _).trans (h.reportCorr s _ _ _ _)

theorem stWrite (a : Nat) (bs : List Byte) : p (s.stWrite a bs).2 = p s := by
  refine foldl_keeps (fun x : Option Nat × State => p x.2) _ (fun x lane => ?_) _ _
  dsimp only
  split
  · exact h.storeLane x.2 _ _ _
  · exact h.mergeLane x.2 _ _ _

end MemBlind

end Sys2Proof.Machine
end

section
/-! SUPPORT. The neighbour table and delivery: an entry that a packet makes or finds, and what the rest of delivery leaves of it (R318, R329-R332). -/

namespace Sys2Proof.Machine

open Sys2Proof

/-! ### An entry's words -/

theorem ofLe_lt (bs : List Byte) : ofLe bs < 256 ^ bs.length := by
  induction bs with
  | nil => decide
  | cons b bs ih =>
    rw [ofLe, List.length_cons, Nat.pow_succ]
    have := b.isLt
    omega

theorem ofBe_lt (bs : List Byte) : ofBe bs < 256 ^ bs.length := by
  rw [ofBe, ← List.length_reverse]
  exact ofLe_lt _

theorem RimeMsg.src_lt (m : RimeMsg) : m.src < 65536 := by
  have hl : ((m.hdr.drop 2).take 2).length ≤ 2 := by rw [List.length_take]; exact Nat.min_le_left _ _
  exact (ofBe_lt _).trans_le (Nat.pow_le_pow_right (by decide) hl)

/-- A first word of an entry that shows a source heard on a port. -/
structure NbOf (w : Word) (port src : Nat) : Prop where
  valid : getBits w 20 20 = 1
  src : getBits w 15 0 = src
  port : getBits w 16 16 = port

/-- A first word of an entry as a delivered packet leaves it, whatever its STALE. -/
structure NbShows (w : Word) (m : RimeMsg) : Prop extends NbOf w m.port m.src where
  chan : getBits w 19 17 = m.chan % 8
  auth : getBits w 22 22 = b2n m.auth

/-- The first word of a new entry. -/
theorem nbOf_new {port src : Nat} (hp : port < 2) (hs : src < 65536) : NbOf (BitVec.ofNat 32 (src + 65536 * port + 2 ^ 20 + 2 ^ 21)) port src := by
  have hw : (BitVec.ofNat 32 (src + 65536 * port + 2 ^ 20 + 2 ^ 21)).toNat = src + 65536 * port + 2 ^ 20 + 2 ^ 21 := by
    rw [BitVec.toNat_ofNat]
    omega
  constructor <;> simp only [getBits, hw, Nat.shiftRight_eq_div_pow] <;> omega

/-- The channel and the AUTH mark complete the word. -/
theorem NbOf.shows {w : Word} {m : RimeMsg} (h : NbOf w m.port m.src) :
    NbShows (setBits (setBits w 19 17 m.chan) 22 22 (b2n m.auth)) m where
  valid := by rw [getBits_setBits_ne _ _ _ _ _ _ (by decide) (by decide) (by decide), getBits_setBits_ne _ _ _ _ _ _ (by decide) (by decide) (by decide), h.valid]
  src := by rw [getBits_setBits_ne _ _ _ _ _ _ (by decide) (by decide) (by decide), getBits_setBits_ne _ _ _ _ _ _ (by decide) (by decide) (by decide), h.src]
  port := by rw [getBits_setBits_ne _ _ _ _ _ _ (by decide) (by decide) (by decide), getBits_setBits_ne _ _ _ _ _ _ (by decide) (by decide) (by decide), h.port]
  chan := by rw [getBits_setBits_ne _ _ _ _ _ _ (by decide) (by decide) (by decide), getBits_setBits _ _ _ _ (by decide) (by decide)]; rfl
  auth := by rw [getBits_setBits _ _ _ _ (by decide) (by decide)]; exact Nat.mod_eq_of_lt (b2n_lt _)

theorem NbShows.stale {w : Word} {m : RimeMsg} (h : NbShows w m) (v : Nat) : NbShows (setBits w 21 21 v) m where
  valid := by rw [getBits_setBits_ne _ _ _ _ _ _ (by decide) (by decide) (by decide), h.valid]
  src := by rw [getBits_setBits_ne _ _ _ _ _ _ (by decide) (by decide) (by decide), h.src]
  port := by rw [getBits_setBits_ne _ _ _ _ _ _ (by decide) (by decide) (by decide), h.port]
  chan := by rw [getBits_setBits_ne _ _ _ _ _ _ (by decide) (by decide) (by decide), h.chan]
  auth := by rw [getBits_setBits_ne _ _ _ _ _ _ (by decide) (by decide) (by decide), h.auth]

/-! ### An entry's making, said apart (R329) -/

/-- The entry of a delivered packet's source, found or made. -/
def State.nbEntry (s : State) (m : RimeMsg) : Nat × State :=
  match s.nbFind m.port m.src with
  | some n =>
    let g := (m.seq + 256 - s.fld (Reg.RIM_NB_7.LAST_SEQ n)) % 256
    let s := s.setFld (Reg.RIM_NB_7.MISSED n) (satAdd 255 (s.fld (Reg.RIM_NB_7.MISSED n)) (g - 1))
    (n, s.setFld (Reg.RIM_NB_7.LAST_SEQ n) m.seq)
  | none => s.nbNew m.port m.src m.seq

/-- What a delivered packet makes of its sender's entry `r.1`. -/
def State.nbMarked (r : Nat × State) (m : RimeMsg) : State :=
  let n := r.1
  let s := (r.2.setFld (Reg.RIM_NB_0.CHANNEL n) m.chan).setFld (Reg.RIM_NB_0.AUTH n) (b2n m.auth)
  let s := s.setReg (Reg.RIM_NB_5 n) (BitVec.ofNat 32 (min 65535 m.evm + 65536 * (m.peak % 256) + 2 ^ 24 * (m.level % 256)))
  let s := { s with rim := { s.rim with heard := s.rim.heard.set (fun _ => 0) n s.tick } }
  let s := if m.type = 1 then s.nbIdentity n m else if m.type = 2 then s.nbConfig n m else s
  s.nbCount

theorem State.nbUpdate_eq (s : State) (m : RimeMsg) : s.nbUpdate m = State.nbMarked (s.nbEntry m) m := by
  unfold State.nbUpdate State.nbEntry State.nbMarked
  cases s.nbFind m.port m.src <;> rfl

/-! ### What the table leaves alone -/

/-- A reading of the state that the table's registers, events and marks do not touch. -/
structure TableBlind {β : Type} (p : State → β) : Prop where
  reg (u : State) (off : Nat) (w : Word) : p (u.setReg off w) = p u
  event (u : State) (f : Fr) : p (u.raise f) = p u
  marks (u : State) (h : SMap Nat) (k v : SMap Bool) : p { u with rim := { u.rim with heard := h, known := k, versed := v } } = p u

theorem tableBlind_verify : TableBlind (·.rim.verify) where
  reg _ _ _ := rfl
  event u f := by simp only [u.raise_frame f]
  marks _ _ _ _ := rfl

theorem tableBlind_cph : TableBlind State.cph where
  reg _ _ _ := rfl
  event u f := by simp only [u.raise_frame f]
  marks _ _ _ _ := rfl

theorem tableBlind_tick : TableBlind State.tick where
  reg _ _ _ := rfl
  event u f := by simp only [u.raise_frame f]
  marks _ _ _ _ := rfl

namespace TableBlind

variable {β : Type} {p : State → β} (h : TableBlind p) (s : State)
include h

theorem setFld (f : Fr) (v : Nat) : p (s.setFld f v) = p s := h.reg s _ _

theorem nbClear (n : Nat) : p (s.nbClear n) = p s := by
  unfold State.nbClear
  exact (h.marks _ _ _ _).trans (foldl_keeps p _ (fun u _ => h.reg u _ _) _ _)

theorem nbNew (port src seq : Nat) : p (s.nbNew port src seq).2 = p s := by
  unfold State.nbNew
  extract_lets free n a b c
  have ha : p a = p s := by
    dsimp only [a]
    split
    · exact h.event s _
    · rfl
  exact (h.event _ _).trans ((h.setFld c _ _).trans ((h.reg b _ _).trans ((h.nbClear a n).trans ha)))

theorem nbVersion (n ver epoch : Nat) : p (s.nbVersion n ver epoch) = p s := by
  unfold State.nbVersion
  extract_lets had moved a r b
  have hb : p b = p s := (h.marks a _ _ _).trans ((h.setFld _ _ _).trans (h.setFld s _ _))
  unfold State.raiseIf
  split
  · exact (h.event b _).trans hb
  · exact hb

theorem nbIdentity (n : Nat) (m : RimeMsg) : p (s.nbIdentity n m) = p s := by
  unfold State.nbIdentity
  extract_lets id had old k0 k5 a b c d e
  have hb : p b = p s := by
    dsimp only [b]
    split
    · exact (h.event a _).trans ((h.setFld _ _ _).trans ((h.reg _ _ _).trans ((h.reg _ _ _).trans (h.nbClear s n))))
    · rfl
  have he : p e = p s := (h.marks c _ _ _).trans ((h.setFld _ _ _).trans ((h.setFld b _ _).trans hb))
  exact (h.setFld _ _ _).trans ((h.setFld _ _ _).trans ((h.nbVersion e _ _ _).trans he))

theorem nbConfig (n : Nat) (m : RimeMsg) : p (s.nbConfig n m) = p s := by
  have hif (u : State) (b : Bool) (f : Fr) (v : Nat) : p (u.setFldIf b f v) = p u := by
    unfold State.setFldIf
    split
    · exact h.setFld u f v
    · rfl
  unfold State.nbConfig
  exact (hif _ _ _ _).trans ((hif _ _ _ _).trans (h.nbVersion s _ _ _))

theorem nbEntry (m : RimeMsg) : p (s.nbEntry m).2 = p s := by
  unfold State.nbEntry
  split
  · exact (h.setFld _ _ _).trans (h.setFld s _ _)
  · exact h.nbNew s _ _ _

theorem nbUpdate (m : RimeMsg) : p (s.nbUpdate m) = p s := by
  have hr := h.nbEntry s m
  rw [s.nbUpdate_eq]
  unfold State.nbMarked
  extract_lets n a b c d e
  have hd : p d = p s := (h.marks b _ _ _).trans ((h.reg a _ _).trans ((h.setFld _ _ _).trans ((h.setFld _ _ _).trans hr)))
  have he : p e = p d := by
    dsimp only [e]
    split
    · exact h.nbIdentity d n m
    · split
      · exact h.nbConfig d n m
      · rfl
  exact (h.setFld e _ _).trans (he.trans hd)

end TableBlind

/-! ### Clearing an entry -/

theorem nbOff_ne {a b n : Nat} (h : a ≠ b) : a + 0x20 * n ≠ b + 0x20 * n := fun e => h (Nat.add_right_cancel e)

/-- Every entry lies above the other registers of the Rime block, and above FLT_EVENT. -/
theorem nb0_ne_low {off : Nat} (n : Nat) (h : off < 0x71000) : Reg.RIM_NB_0 n ≠ off := by
  unfold Reg.RIM_NB_0
  omega

theorem nb0_notMem_wrapRegs {n : Nat} (h : n < 256) : Reg.RIM_NB_0 n ∉ wrapRegs := by
  have h1 : Reg.RIM_NB_0 n < 0x73000 := by
    unfold Reg.RIM_NB_0
    omega
  simp only [wrapRegs, List.mem_cons, List.not_mem_nil, or_false, not_or]
  exact ⟨(h1.trans (by decide)).ne, (h1.trans (by decide)).ne, nb0_ne_low n (by decide)⟩

theorem State.nbClear_regs (s : State) (n : Nat) :
    (s.nbClear n).regs = ((List.range 8).foldl (fun u w => u.setReg (Reg.RIM_NB_0 n + 4 * w) 0) s).regs := by
  unfold State.nbClear
  rfl

theorem State.reg_nbClear_ne (s : State) {n off : Nat} (h : off < Reg.RIM_NB_0 n ∨ Reg.RIM_NB_0 n + 32 ≤ off) : (s.nbClear n).reg off = s.reg off := by
  rw [State.reg_congr _ _ (s.nbClear_regs n)]
  refine foldl_keeps_mem (State.reg · off) _ (List.range 8) (fun u w hw => u.reg_setReg_ne 0 ?_) s
  have := List.mem_range.1 hw
  omega

theorem State.reg_nbClear_head (s : State) (n : Nat) : (s.nbClear n).reg (Reg.RIM_NB_0 n) = 0 := by
  rw [State.reg_congr _ _ (s.nbClear_regs n), show List.range 8 = 0 :: List.range' 1 7 by decide, List.foldl_cons, Nat.mul_zero, Nat.add_zero]
  refine (foldl_keeps_mem (State.reg · (Reg.RIM_NB_0 n)) _ (List.range' 1 7) (fun u w hw => u.reg_setReg_ne 0 ?_) _).trans (s.reg_setReg_self _ _)
  obtain ⟨i, hi, rfl⟩ := List.mem_range'.1 hw
  omega

/-! ### Making and finding an entry (R329) -/

theorem State.nbOldest_lt (s : State) : s.nbOldest < 256 := by
  refine List.foldlRecOn (motive := fun n => n < 256) nbAll _ (by decide) fun b hb n hn => ?_
  split
  · exact List.mem_range.1 hn
  · exact hb

theorem State.nbFind_some {s : State} {port src n : Nat} (h : s.nbFind port src = some n) : n < 256 ∧ NbOf (s.reg (Reg.RIM_NB_0 n)) port src := by
  have hp := List.find?_some h
  simp only [State.bit, Bool.and_eq_true, beq_iff_eq] at hp
  obtain ⟨⟨hv, hport⟩, hsrc⟩ := hp
  exact ⟨List.mem_range.1 (List.mem_of_find?_eq_some h), hv, hsrc, hport⟩

/-! ### A delivered packet's marks (R329-R331) -/

theorem State.nbVersion_keeps (s : State) (n ver epoch : Nat) : (s.nbVersion n ver epoch).reg (Reg.RIM_NB_0 n) = s.reg (Reg.RIM_NB_0 n) ∧
    (s.nbVersion n ver epoch).rim.heard = s.rim.heard := by
  unfold State.nbVersion
  extract_lets had moved a b c
  refine ⟨?_, ?_⟩
  · rw [State.reg_raiseIf_ne _ _ _ (nb0_ne_low n (by decide)) (nb0_ne_low n (by decide))]
    exact (State.reg_setFld_ne _ _ (nbOff_ne (a := 0x71010) (b := 0x71000) (by decide))).trans
      (s.reg_setFld_ne _ (nbOff_ne (a := 0x7100C) (b := 0x71000) (by decide)))
  · simp only [State.raiseIf_frame]
    rfl

/-- The entry of a source whose device has changed: all but its first word, its levels and its number begin anew. -/
def State.nbRenewed (s : State) (n : Nat) (m : RimeMsg) : State :=
  ((((s.nbClear n).setReg (Reg.RIM_NB_0 n) (s.reg (Reg.RIM_NB_0 n))).setReg (Reg.RIM_NB_5 n) (s.reg (Reg.RIM_NB_5 n))).setFld (Reg.RIM_NB_7.LAST_SEQ n) m.seq).raise
    Reg.RIM_EVENT.NEIGH_CHANGE

theorem State.nbClear_heard (s : State) (n : Nat) : (s.nbClear n).rim.heard = s.rim.heard := by
  unfold State.nbClear
  extract_lets u r
  have hr : u.rim.heard = s.rim.heard := foldl_keeps (fun u => u.rim.heard) _ (fun _ _ => rfl) (List.range 8) s
  clear_value u
  exact hr

theorem State.nbRenewed_keeps (s : State) (n : Nat) (m : RimeMsg) : (s.nbRenewed n m).reg (Reg.RIM_NB_0 n) = s.reg (Reg.RIM_NB_0 n) ∧
    (s.nbRenewed n m).rim.heard = s.rim.heard := by
  unfold State.nbRenewed
  refine ⟨?_, ?_⟩
  · rw [State.reg_raise_ne _ _ (nb0_ne_low n (by decide)) (nb0_ne_low n (by decide)),
      State.reg_setFld_ne _ _ (nbOff_ne (a := 0x7101C) (b := 0x71000) (by decide)),
      State.reg_setReg_ne _ _ (nbOff_ne (a := 0x71014) (b := 0x71000) (by decide)), State.reg_setReg_self]
  · simp only [State.raise_frame, State.setFld_frame, State.setReg_frame]
    exact s.nbClear_heard n

/-- An IDENTITY touches of the first word STALE alone. -/
theorem State.nbIdentity_keeps (s : State) (n : Nat) (m : RimeMsg) : (∃ v, (s.nbIdentity n m).reg (Reg.RIM_NB_0 n) = setBits (s.reg (Reg.RIM_NB_0 n)) 21 21 v) ∧
    (s.nbIdentity n m).rim.heard = s.rim.heard := by
  unfold State.nbIdentity
  extract_lets id had old k0 k5 a b c d e
  obtain ⟨hreg, hheard⟩ : b.reg (Reg.RIM_NB_0 n) = s.reg (Reg.RIM_NB_0 n) ∧ b.rim.heard = s.rim.heard := by
    dsimp only [b]
    split
    · exact s.nbRenewed_keeps n m
    · exact ⟨rfl, rfl⟩
  have he : e.reg (Reg.RIM_NB_0 n) = s.reg (Reg.RIM_NB_0 n) := ((State.reg_setFld_ne _ _ (nbOff_ne (a := 0x71008) (b := 0x71000) (by decide))).trans
    (b.reg_setFld_ne _ (nbOff_ne (a := 0x71004) (b := 0x71000) (by decide)))).trans hreg
  obtain ⟨hv, hvh⟩ := e.nbVersion_keeps n (m.be 24 4) (m.be 28 4)
  refine ⟨⟨0, ?_⟩, ?_⟩
  · unfold State.setFld
    rw [State.reg_setReg_self, State.reg_setReg_ne _ _ (nbOff_ne (a := 0x71018) (b := 0x71000) (by decide)), hv, he]
  · simp only [State.setFld_frame]
    exact hvh.trans hheard

/-- So does a CONFIG_VER. -/
theorem State.nbConfig_keeps (s : State) (n : Nat) (m : RimeMsg) : ((s.nbConfig n m).reg (Reg.RIM_NB_0 n) = s.reg (Reg.RIM_NB_0 n) ∨
    (s.nbConfig n m).reg (Reg.RIM_NB_0 n) = setBits (s.reg (Reg.RIM_NB_0 n)) 21 21 0) ∧ (s.nbConfig n m).rim.heard = s.rim.heard := by
  unfold State.nbConfig
  extract_lets a fl b
  obtain ⟨hv, hvh⟩ := s.nbVersion_keeps n (m.be 0 4) (m.be 4 4)
  have hb : b.reg (Reg.RIM_NB_0 n) = s.reg (Reg.RIM_NB_0 n) := by
    refine Eq.trans ?_ hv
    dsimp only [b, State.setFldIf]
    split
    · exact a.reg_setFld_ne _ (nbOff_ne (a := 0x71018) (b := 0x71000) (by decide))
    · rfl
  refine ⟨?_, ?_⟩
  · unfold State.setFldIf
    split
    · right
      unfold State.setFld
      rw [State.reg_setReg_self, hb]
    · exact .inl hb
  · simp only [State.setFldIf_frame, b]
    exact hvh

theorem State.nbNew_makes (s : State) {port src : Nat} (seq : Nat) (hp : port < 2) (hs : src < 65536) :
    (s.nbNew port src seq).1 < 256 ∧ NbOf ((s.nbNew port src seq).2.reg (Reg.RIM_NB_0 (s.nbNew port src seq).1)) port src := by
  unfold State.nbNew
  extract_lets free n a b c
  refine ⟨?_, ?_⟩
  · show free.getD s.nbOldest < 256
    cases hf : free with
    | none => exact s.nbOldest_lt
    | some i => exact List.mem_range.1 (List.mem_of_find?_eq_some hf)
  · dsimp only
    rw [State.reg_raise_ne _ _ (nb0_ne_low n (by decide)) (nb0_ne_low n (by decide)),
      State.reg_setFld_ne _ _ (nbOff_ne (a := 0x7101C) (b := 0x71000) (by decide)), State.reg_setReg_self]
    exact nbOf_new hp hs

theorem State.nbEntry_shows (s : State) (m : RimeMsg) (hp : m.port < 2) :
    (s.nbEntry m).1 < 256 ∧ NbOf ((s.nbEntry m).2.reg (Reg.RIM_NB_0 (s.nbEntry m).1)) m.port m.src := by
  unfold State.nbEntry
  cases hf : s.nbFind m.port m.src with
  | none => exact s.nbNew_makes m.seq hp m.src_lt
  | some n =>
    obtain ⟨hn, hof⟩ := State.nbFind_some hf
    have h7 : Reg.RIM_NB_7 n ≠ Reg.RIM_NB_0 n := nbOff_ne (a := 0x7101C) (b := 0x71000) (by decide)
    refine ⟨hn, ?_⟩
    dsimp only
    rwa [State.reg_setFld_ne _ _ h7, State.reg_setFld_ne _ _ h7]

theorem State.nbMarked_shows (r : Nat × State) {m : RimeMsg} (h : NbOf (r.2.reg (Reg.RIM_NB_0 r.1)) m.port m.src) :
    NbShows ((State.nbMarked r m).reg (Reg.RIM_NB_0 r.1)) m ∧ (State.nbMarked r m).nbHeard r.1 = r.2.tick := by
  unfold State.nbMarked
  extract_lets n a b c d e
  have hd : NbShows (d.reg (Reg.RIM_NB_0 n)) m := by
    have hb : b.reg (Reg.RIM_NB_0 n) = a.reg (Reg.RIM_NB_0 n) := State.reg_setReg_ne a _ (nbOff_ne (a := 0x71014) (b := 0x71000) (by decide))
    rw [State.reg_congr b d rfl, hb]
    dsimp only [a]
    unfold State.setFld
    rw [State.reg_setReg_self, State.reg_setReg_self]
    exact h.shows
  have hbt : b.tick = r.2.tick := by simp only [b, a, State.setReg_frame, State.setFld_frame]
  have hdh : d.rim.heard.get (fun _ => 0) n = r.2.tick := (SMap.get_set_self _ _ n b.tick).trans hbt
  have he : NbShows (e.reg (Reg.RIM_NB_0 n)) m ∧ e.rim.heard = d.rim.heard := by
    dsimp only [e]
    split
    · obtain ⟨⟨v, hv⟩, hh⟩ := d.nbIdentity_keeps n m
      rw [hv]
      exact ⟨hd.stale v, hh⟩
    · split
      · obtain ⟨hv | hv, hh⟩ := d.nbConfig_keeps n m <;> rw [hv]
        · exact ⟨hd, hh⟩
        · exact ⟨hd.stale 0, hh⟩
      · exact ⟨hd, rfl⟩
  refine ⟨?_, ?_⟩
  · rw [State.nbCount, State.reg_setFld_ne _ _ (nb0_ne_low r.1 (by decide)).symm]
    exact he.1
  · show e.rim.heard.get (fun _ => 0) n = r.2.tick
    rw [he.2, hdh]

/-- The table after a delivered packet shows its sender, heard now. -/
theorem State.nbUpdate_shows (s : State) (m : RimeMsg) (hp : m.port < 2) : ∃ n, n < 256 ∧
    NbShows ((s.nbUpdate m).reg (Reg.RIM_NB_0 n)) m ∧ (s.nbUpdate m).nbHeard n = s.tick := by
  obtain ⟨hn, hof⟩ := s.nbEntry_shows m hp
  rw [s.nbUpdate_eq, ← tableBlind_tick.nbEntry s m]
  exact ⟨_, hn, State.nbMarked_shows _ hof⟩

/-! ### The rest of a delivery (R318, R326, R333) -/

/-- A reading that neither staging nor the receive ring's registers touch. -/
theorem State.rimRing_keeps {β : Type} {p : State → β} (h : MemBlind p) (hw : ∀ u v, p (State.setFld u Reg.RIM_RX_WR.IDX v) = p u)
    (he : ∀ u, p (State.raise u Reg.RIM_EVENT.RX_RING_FULL) = p u) (s : State) (m : RimeMsg) : p (s.rimRing m) = p s := by
  unfold State.rimRing
  extract_lets mine size wr meta_ a
  split
  · rfl
  · split
    · exact he s
    · exact (hw _ _).trans (h.stWrite s _ _)

/-- A TRACE_REQ's answer draws a free value and waits among the replies. -/
theorem State.rimTraced_form (s : State) (m : RimeMsg) : ∃ c rs rp, s.rimTraced m = { s with freeCtr := c, rim := { s.rim with replies := rs, replied := rp } } := by
  unfold State.rimTraced
  extract_lets recent d r
  split
  · exact ⟨s.freeCtr, s.rim.replies, s.rim.replied, rfl⟩
  · exact ⟨_, _, _, rfl⟩

theorem State.rimDeliver_nb0 (s : State) (m : RimeMsg) (n : Nat) (hn : n < 256) :
    (s.rimDeliver m).reg (Reg.RIM_NB_0 n) = (s.nbUpdate m).reg (Reg.RIM_NB_0 n) := by
  obtain ⟨c, rs, rp, e⟩ := ((s.nbUpdate m).rimRing m).rimTraced_form m
  unfold State.rimDeliver
  rw [e, State.reg_congr _ _ rfl]
  exact State.rimRing_keeps (memBlind_reg (by unfold Reg.RIM_NB_0; omega) (nb0_ne_low n (by decide)))
    (fun u v => u.reg_setFld_ne v (nb0_ne_low n (by decide)).symm)
    (fun u => u.reg_raise_ne _ (nb0_ne_low n (by decide)) (nb0_ne_low n (by decide))) _ m

theorem State.rimRing_rim (s : State) (m : RimeMsg) : (s.rimRing m).rim = s.rim :=
  State.rimRing_keeps memBlind_rim (fun _ _ => rfl) (fun u => State.rim_of_rest (u.rest_raise _)) s m

theorem State.rimDeliver_rim (s : State) (m : RimeMsg) : ∃ rs rp, (s.rimDeliver m).rim = { (s.nbUpdate m).rim with replies := rs, replied := rp } := by
  obtain ⟨c, rs, rp, e⟩ := ((s.nbUpdate m).rimRing m).rimTraced_form m
  unfold State.rimDeliver
  rw [e, State.rimRing_rim]
  exact ⟨rs, rp, rfl⟩

theorem State.rimDeliver_cph (s : State) (m : RimeMsg) : (s.rimDeliver m).cph = s.cph := by
  obtain ⟨c, rs, rp, e⟩ := ((s.nbUpdate m).rimRing m).rimTraced_form m
  unfold State.rimDeliver
  rw [e]
  exact (State.rimRing_keeps memBlind_cph (fun _ _ => rfl) (fun u => State.cph_of_rest (u.rest_raise _)) _ m).trans (tableBlind_cph.nbUpdate s m)

theorem State.rimDeliver_verify (s : State) (m : RimeMsg) : (s.rimDeliver m).rim.verify = s.rim.verify := by
  obtain ⟨rs, rp, e⟩ := s.rimDeliver_rim m
  rw [e]
  exact tableBlind_verify.nbUpdate s m

/-- A delivered packet's sender is in the table, heard now. -/
theorem State.rimDeliver_shows (s : State) (m : RimeMsg) (hp : m.port < 2) : ∃ n, n < 256 ∧
    NbShows ((s.rimDeliver m).reg (Reg.RIM_NB_0 n)) m ∧ (s.rimDeliver m).nbHeard n = s.tick := by
  obtain ⟨n, hn, hs, hh⟩ := s.nbUpdate_shows m hp
  obtain ⟨rs, rp, e⟩ := s.rimDeliver_rim m
  refine ⟨n, hn, ?_, ?_⟩
  · rwa [s.rimDeliver_nb0 m n hn]
  · rw [State.nbHeard, e]
    exact hh

end Sys2Proof.Machine
end

section
/-! SUPPORT. The end of a Rime packet's body, and what reception leaves (R315-R319, R329). -/

namespace Sys2Proof.Machine

open Sys2Proof

/-! ### The trailer (R318, R319) -/

/-- The state in which a channel's active packet has ended; the channel stays busy for four bit periods. -/
def State.rimEnded (s : State) (k c : Nat) : State :=
  s.setRp k { s.rp k with act := (s.rp k).act.set noRx c none, bodyEnd := (s.rp k).bodyEnd.set (fun _ => 0) c (s.tick + 4) }

/-- The length of a body without its trailer, as its header gives it. -/
def rimLen (h : List Byte) : Nat := ofBe ((h.drop 1).take 1)

/-- Whether a body has the length its header gives, and the CRC of both. -/
def rimCrcOk (h body : List Byte) : Bool := body.length == rimLen h + 4 && ofBe (body.drop (rimLen h)) == crc32 (h ++ body.take (rimLen h))

/-- Whether a header announces a code at the body's end. -/
def rimCoded (h : List Byte) : Bool := decide (128 ≤ ofBe (h.take 1))

/-- The message of a packet. -/
def rimMessage (k c : Nat) (a : RimeRx) (h body : List Byte) (evm : Nat) : RimeMsg :=
  { port := k, chan := c, hdr := h, payload := if rimCoded h then (body.take (rimLen h)).take (rimLen h - 8) else body.take (rimLen h),
    mac := if rimCoded h then (body.take (rimLen h)).drop (rimLen h - 8) else [], evm := evm, peak := a.peak, level := a.level, auth := rimCoded h }

/-- The state in which the verification of a message's code is asked for. -/
def State.rimVerify (s : State) (m : RimeMsg) (mac : List Byte) : State :=
  { s with rim := { s.rim with nextId := s.rim.nextId + 1, verify := s.rim.verify ++ [(s.rim.nextId, m, s.tick)] },
           cph := { s.cph with rimeQ := s.cph.rimeQ ++ [{ id := s.rim.nextId, sign := false, slot := s.fld Reg.RIM_CTL.AUTH_SLOT,
                                                          msg := m.hdr.take 5 ++ m.payload, mac := mac, made := s.tick }] } }

section Trailer

variable (s : State) (k c : Nat) (body : List Byte) (evm : Nat)

theorem State.rimTrailer_unasked (h : ∀ a, (s.rp k).act.get noRx c = some a → a.hdr = none) : s.rimTrailer k c body evm = s := by
  unfold State.rimTrailer
  dsimp only
  cases ha : (s.rp k).act.get noRx c with
  | none => rfl
  | some a =>
    dsimp only
    rw [h a ha]

variable {a : RimeRx} {h : List Byte} {body : List Byte} (ha : (s.rp k).act.get noRx c = some a) (hh : a.hdr = some h)
include ha hh

/-- The checks of a packet, in order. -/
theorem State.rimTrailer_checks : s.rimTrailer k c body evm =
    let u := s.rimEnded k c
    let m := rimMessage k c a h body evm
    if body.length ≠ rimLen h + 4 ∨ ofBe (body.drop (rimLen h)) ≠ crc32 (h ++ body.take (rimLen h)) then u.rimCount k c 6
    else if (rimCoded h = true ∧ rimLen h < 8) ∨ rimLenOk (ofBe (h.take 1) % 128) (rimCoded h) m.payload = false then u.rimCount k c 7
    else if m.src = u.fld Reg.RIM_ID.SHORT_ID then
      if m.type = 1 ∧ m.be 0 8 ≠ u.fuses.deviceId then u.raise Reg.RIM_EVENT.ID_CLASH else u.rimCount k c 8
    else if rimCoded h then u.rimVerify m ((body.take (rimLen h)).drop (rimLen h - 8))
    else if u.bit Reg.RIM_CTL.REQUIRE_AUTH then u.rimCount k c 9
    else u.rimDeliver m := by
  unfold State.rimTrailer
  dsimp only
  rw [ha]
  dsimp only
  rw [hh]
  rfl

theorem State.rimTrailer_badCrc (hc : rimCrcOk h body = false) : (s.rimEnded k c).Counted (s.rimTrailer k c body evm) := by
  rw [s.rimTrailer_checks k c evm ha hh]
  dsimp only
  rw [if_pos ?_]
  · exact .rimCount _ k c 6
  · rw [← not_and_or]
    rintro ⟨h1, h2⟩
    rw [rimCrcOk, h1, h2, beq_self_eq_true, beq_self_eq_true] at hc
    exact absurd hc (by decide)

/-- The checks behind a right CRC, a right length and another node's number. -/
theorem State.rimTrailer_passed (hc : rimCrcOk h body = true) (h8 : rimCoded h = true → 8 ≤ rimLen h)
    (hl : rimLenOk (ofBe (h.take 1) % 128) (rimCoded h) (rimMessage k c a h body evm).payload = true)
    (hs : ofBe ((h.drop 2).take 2) ≠ s.fld Reg.RIM_ID.SHORT_ID) : s.rimTrailer k c body evm =
      if rimCoded h then (s.rimEnded k c).rimVerify (rimMessage k c a h body evm) ((body.take (rimLen h)).drop (rimLen h - 8))
      else if s.bit Reg.RIM_CTL.REQUIRE_AUTH then (s.rimEnded k c).rimCount k c 9 else (s.rimEnded k c).rimDeliver (rimMessage k c a h body evm) := by
  have hreg (off : Nat) : (s.rimEnded k c).reg off = s.reg off := s.reg_setRp k _
  simp only [rimCrcOk, Bool.and_eq_true, beq_iff_eq] at hc
  rw [s.rimTrailer_checks k c evm ha hh]
  dsimp only
  rw [if_neg (not_or.2 ⟨not_not.2 hc.1, not_not.2 hc.2⟩), if_neg, if_neg, State.bit_congr s _ _ (hreg _)]
  · rw [State.fld_congr s _ _ (hreg _)]
    exact hs
  · rw [hl]
    rintro (⟨h1, h2⟩ | h1)
    · exact Nat.not_lt.2 (h8 h1) h2
    · exact absurd h1 (by decide)

end Trailer

/-! ### What a packet's end leaves -/

section Ends

variable {s : State} (k : Fin 2) (c : Fin 8) (evm : Nat) {a : RimeRx} {h body : List Byte} (hlive : s.live)
  (ha : (s.rp k).act.get noRx c = some a) (hh : a.hdr = some h)
include hlive ha hh

theorem rimeTrailerEnd_badCrc (hc : rimCrcOk h body = false) :
    Completes (.rimeTrailerEnd k c body evm) s fun t => (s.rimEnded k c).sameBut t wrapRegs :=
  completes_counted rfl hlive rfl (((State.Counted.cleared s).setRp k _).trans (s.cleared.rimTrailer_badCrc k c evm ha hh hc)) (s.setRp_pending k _)

variable (hc : rimCrcOk h body = true) (hs : ofBe ((h.drop 2).take 2) ≠ s.fld Reg.RIM_ID.SHORT_ID)
include hc hs

section Plain

variable (hb : ofBe (h.take 1) < 128) (hl : rimLenOk (ofBe (h.take 1)) false (body.take (rimLen h)) = true)
include hb hl

omit hlive in
theorem State.rimTrailer_plain : s.rimTrailer k c body evm = if s.bit Reg.RIM_CTL.REQUIRE_AUTH then (s.rimEnded k c).rimCount k c 9
    else (s.rimEnded k c).rimDeliver (rimMessage k c a h body evm) := by
  have hn : rimCoded h = false := decide_eq_false (Nat.not_le.2 hb)
  have hp : (rimMessage k c a h body evm).payload = body.take (rimLen h) := if_neg (Bool.eq_false_iff.1 hn)
  rw [s.rimTrailer_passed k c evm ha hh hc (fun hy => absurd (hn.symm.trans hy) (by decide)) (by rwa [hp, hn, Nat.mod_eq_of_lt hb]) hs, hn,
    if_neg Bool.false_ne_true]

theorem rimeTrailerEnd_barred (hr : s.bit Reg.RIM_CTL.REQUIRE_AUTH = true) :
    Completes (.rimeTrailerEnd k c body evm) s fun t => (s.rimEnded k c).sameBut t wrapRegs := by
  have e := State.rimTrailer_plain (s := s.cleared) k c evm ha hh hc hs hb hl
  rw [State.bit_cleared, if_pos hr] at e
  exact completes_counted rfl hlive e (((State.Counted.cleared s).setRp k _).trans (.rimCount _ k c 9)) (s.setRp_pending k _)

/-- A good packet makes its sender a neighbour heard now. -/
theorem rimeTrailerEnd_delivers (hr : s.bit Reg.RIM_CTL.REQUIRE_AUTH = false) : Completes (.rimeTrailerEnd k c body evm) s fun t => ∃ n, n < 256 ∧
    t.bit (Reg.RIM_NB_0.VALID n) = true ∧ t.fld (Reg.RIM_NB_0.SRC n) = ofBe ((h.drop 2).take 2) ∧ t.fld (Reg.RIM_NB_0.PORT n) = k ∧
    t.fld (Reg.RIM_NB_0.CHANNEL n) = c ∧ t.bit (Reg.RIM_NB_0.AUTH n) = false ∧ t.nbHeard n = s.tick := by
  have e := State.rimTrailer_plain (s := s.cleared) k c evm ha hh hc hs hb hl
  rw [State.bit_cleared, if_neg (Bool.eq_false_iff.1 hr)] at e
  have hn : rimCoded h = false := decide_eq_false (Nat.not_le.2 hb)
  obtain ⟨n, hlt, hw, hh⟩ := (s.cleared.rimEnded k c).rimDeliver_shows (rimMessage k c a h body evm) k.isLt
  refine completes_rime rfl hlive e fun t hrim _ _ hreg => ⟨n, hlt, ?_⟩
  rw [← hreg _ (nb0_notMem_wrapRegs hlt)] at hw
  refine ⟨decide_eq_true hw.valid, hw.src, hw.port, hw.chan.trans (Nat.mod_eq_of_lt c.isLt), ?_, ?_⟩
  · have h0 := hw.auth
    rw [show (rimMessage k c a h body evm).auth = rimCoded h from rfl, hn] at h0
    exact decide_eq_false (by rw [State.fld, h0]; decide)
  · rw [State.nbHeard, hrim, ← State.nbHeard, hh]
    exact s.cleared.setRp_tick k _

end Plain

/-- A packet with a code waits for its verification. -/
theorem rimeTrailerEnd_asks (hb : 128 ≤ ofBe (h.take 1)) (h8 : 8 ≤ rimLen h)
    (hl : rimLenOk (ofBe (h.take 1) % 128) true ((body.take (rimLen h)).take (rimLen h - 8)) = true) :
    Completes (.rimeTrailerEnd k c body evm) s fun t => ∃ r, t.cph.rimeQ = s.cph.rimeQ ++ [r] ∧ r.sign = false ∧
      r.msg = h.take 5 ++ (body.take (rimLen h)).take (rimLen h - 8) ∧ r.mac = (body.take (rimLen h)).drop (rimLen h - 8) := by
  have hy : rimCoded h = true := decide_eq_true hb
  have hp : (rimMessage k c a h body evm).payload = (body.take (rimLen h)).take (rimLen h - 8) := if_pos hy
  have e := s.cleared.rimTrailer_passed k c evm ha hh hc (fun _ => h8) (by rwa [hp, hy]) hs
  rw [hy, if_pos rfl] at e
  refine completes_rime rfl hlive e fun t _ hcph _ _ => ?_
  rw [hcph, State.rimVerify, State.rimEnded, State.cph_setRp, hp]
  exact ⟨_, rfl, rfl, rfl, rfl⟩

end Ends

/-! ### What a sync word and a header leave -/

section Starts

variable {s : State} (k : Fin 2) (c : Fin 8) (hlive : s.live)
include hlive

/-- A sync word taken, by what it meets: nothing, a packet it captures, a body, or a header it may follow as the candidate. -/
theorem rimeSyncDetect_hit {bits : Nat} (level : Nat) {corr : List Nat} (hon : s.rimHits k bits corr = true) {a : RimeRx}
    (ha : (s.rp k).act.get noRx c = some a) :
    (decide (level + 2 * s.fld Reg.RIM_CTL.CAPTURE ≤ a.level) = true → Completes (.rimeSyncDetect k c bits level corr) s fun t =>
      (s.withRx k c (some (rimFresh level corr)) none).sameBut t wrapRegs) ∧
    (decide (level + 2 * s.fld Reg.RIM_CTL.CAPTURE ≤ a.level) = false → a.hdr.isSome = true →
      Completes (.rimeSyncDetect k c bits level corr) s fun t => s.sameBut t wrapRegs) ∧
    (decide (level + 2 * s.fld Reg.RIM_CTL.CAPTURE ≤ a.level) = false → a.hdr = none → (s.rp k).cand.get noRx c = none →
      Completes (.rimeSyncDetect k c bits level corr) s fun t =>
        (s.setRp k { s.rp k with cand := (s.rp k).cand.set noRx c (some (rimFresh level corr)) }).sameBut t wrapRegs) ∧
    (∀ q, decide (level + 2 * s.fld Reg.RIM_CTL.CAPTURE ≤ a.level) = false → a.hdr = none → (s.rp k).cand.get noRx c = some q →
      Completes (.rimeSyncDetect k c bits level corr) s fun t =>
        (if level < q.level then s.setRp k { s.rp k with cand := (s.rp k).cand.set noRx c (some (rimFresh level corr)) } else s).sameBut t wrapRegs) := by
  have clr := State.Counted.cleared s
  refine ⟨fun hl => ?_, fun hl hb => ?_, fun hl hb hc => ?_, fun q hl hb hc => ?_⟩
  · exact completes_counted rfl hlive rfl ((clr.setRp k _).trans (s.cleared.rimSync_captures k c level hon ha (of_decide_eq_true hl))) (s.setRp_pending k _)
  · exact completes_counted rfl hlive rfl (clr.trans (s.cleared.rimSync_inBody k c level hon ha (of_decide_eq_false hl) hb)) rfl
  · exact completes_counted rfl hlive (s.cleared.rimSync_candidate k c level hon ha (of_decide_eq_false hl) hb hc) (clr.setRp k _) (s.setRp_pending k _)
  · have hq := s.cleared.rimSync_contends k c level hon ha (of_decide_eq_false hl) hb hc
    refine completes_counted rfl hlive rfl (State.Counted.trans ?_ hq) ?_
    · split
      · exact clr.setRp k _
      · exact clr
    · split
      · exact s.setRp_pending k _
      · rfl

theorem rimeHeaderEnd_judges {a : RimeRx} {hd : List Byte} (ha : (s.rp k).act.get noRx c = some a) (hn : a.hdr = none) (h6 : hd.length = 6) :
    (rimHeaderGood hd = true → Completes (.rimeHeaderEnd k c hd) s fun t => (s.withRx k c (some { a with hdr := some hd }) none).sameBut t wrapRegs) ∧
    (rimHeaderGood hd = false → Completes (.rimeHeaderEnd k c hd) s fun t => (s.withRx k c ((s.rp k).cand.get noRx c) none).sameBut t wrapRegs) :=
  have clr := State.Counted.cleared s
  ⟨fun hg => completes_counted rfl hlive rfl ((clr.setRp k _).trans (s.cleared.rimHeader_good k c ha hn h6 hg)) (s.setRp_pending k _),
    fun hg => completes_counted rfl hlive rfl ((clr.setRp k _).trans (s.cleared.rimHeader_bad k c ha hn h6 hg)) (s.setRp_pending k _)⟩

end Starts

/-- Settles O49: a sync word by what it meets, a header by whether it is good, a trailer by the first check it fails. -/
theorem rimeReception : Obligations.RimeReception := by
  unfold Obligations.RimeReception
  intro s k c hlive
  refine ⟨fun bits level corr => ⟨fun hoff => completes_still rfl hlive (s.cleared.rimSync_missed k c level hoff), fun hon ha =>
      completes_counted rfl hlive (s.cleared.rimSync_begins k c level hon ha) ((State.Counted.cleared s).setRp k _) (s.setRp_pending k _),
      fun a hon ha => rimeSyncDetect_hit k c hlive level hon ha⟩,
    fun h hn => completes_still rfl hlive (s.cleared.rimHeader_unasked k c hn), fun a h ha hn h6 => rimeHeaderEnd_judges k c hlive ha hn h6,
    fun body evm hn => completes_still rfl hlive (s.cleared.rimTrailer_unasked k c body evm hn), fun a h body evm ha hh => ⟨fun hc =>
      rimeTrailerEnd_badCrc k c evm hlive ha hh hc, fun hc hb hl hs => ⟨rimeTrailerEnd_barred k c evm hlive ha hh hc hs hb hl,
        rimeTrailerEnd_delivers k c evm hlive ha hh hc hs hb hl⟩,
      fun hc hb h8 hl hs => rimeTrailerEnd_asks k c evm hlive ha hh hc hs hb h8 hl⟩⟩

end Sys2Proof.Machine
end

section
/-! SUPPORT. Rime authentication and the loss of neighbours: a request's end, its timeout, entries that age out (R327, R328, R332). -/

namespace Sys2Proof.Machine

open Sys2Proof

/-! ### Leaving a port -/

theorem State.rest_rimUnsent (s : State) (p : RimePkt) : (s.rimTraceSent p false).rest = s.rest := by
  unfold State.rimTraceSent
  split
  · exact s.rest_setFld _ _
  · rfl

@[simp] theorem State.rest_rimShow (s : State) (k : Nat) : (s.rimShow k).rest = s.rest := (State.rest_setFld _ _ _).trans (s.rest_setFld _ _)

/-- A port's packet gone, its signature with it. -/
def RimePort.left (x : RimePort) : RimePort := { x with cur := none, sig := .none, onAir := false, air := [] }

theorem State.rest_rimLeave (s : State) (k : Nat) : (s.rimLeave k).rest = (s.setRp k (s.rp k).left).rest := State.rest_rimShow _ k

theorem State.rest_rimGone (s : State) (k : Nat) : (s.rimGone k).rest = (s.setRp k (s.rp k).left).rest := by
  unfold State.rimGone
  split
  · exact (State.rest_rimUnsent _ _).trans (s.rest_rimLeave k)
  · exact s.rest_rimLeave k

theorem State.cph_rimGone (s : State) (k : Nat) : (s.rimGone k).cph = s.cph := (State.cph_of_rest (s.rest_rimGone k)).trans (s.cph_setRp k _)

/-! ### A request's end (R327) -/

/-- The state once the running request has left the engine. -/
def State.reqFreed (s : State) : State := { s with cph := { s.cph with running := none } }

/-- The state without a message that waited for its verification. -/
def State.verified (s : State) (id : Nat) : State := { s with rim := { s.rim with verify := s.rim.verify.filter fun w => w.1 != id } }

/-- Whether a request ended well, on a key for Rime. -/
def State.rimUsable (s : State) (r : Req) : Bool := r.status.isNone && (s.keyUsage r.slot == 3 || s.keyUsage r.slot == 4)

/-- The code that a request computed. -/
def State.rimMac (s : State) (r : Req) : List Byte := (aesCmac (s.key r.slot) r.got).take 8

section AuthDone

variable (s : State)

theorem State.rimAuthDone_other (h : ∀ r, s.cph.running = some r → r.queue ≠ 2) : s.rimAuthDone = s := by
  unfold State.rimAuthDone
  cases hr : s.cph.running with
  | none => rfl
  | some r => exact if_pos (h r hr)

variable {r : Req} (hr : s.cph.running = some r) (hq : r.queue = 2)
include hr hq

theorem State.rimAuthDone_signed (hs : r.rimeSign = true) {k : Nat} (hk : s.rimSigner r.rimeId = some k) : s.rimAuthDone =
    if s.rimUsable r then s.reqFreed.setRp k { s.rp k with sig := .done (s.rimMac r) } else (s.reqFreed.rimGone k).raise Reg.RIM_EVENT.AUTH_FAIL := by
  have hk : s.reqFreed.rimSigner r.rimeId = some k := hk
  unfold State.reqFreed at hk
  unfold State.rimAuthDone
  rw [hr]
  dsimp only
  rw [if_neg (not_not.2 hq), if_pos hs, hk]
  rfl

theorem State.rimAuthDone_checked (hs : r.rimeSign = false) {v : Nat × RimeMsg × Nat} (hv : s.rim.verify.find? (fun v => v.1 == r.rimeId) = some v) :
    s.rimAuthDone = if s.rimUsable r && s.rimMac r == r.iv then (s.reqFreed.verified r.rimeId).rimDeliver v.2.1
      else ((s.reqFreed.verified r.rimeId).rimCount v.2.1.port v.2.1.chan 10).raise Reg.RIM_EVENT.AUTH_FAIL := by
  unfold State.rimAuthDone
  rw [hr]
  dsimp only
  rw [if_neg (not_not.2 hq), if_neg (Bool.eq_false_iff.1 hs), hv]
  rfl

end AuthDone

section Done

variable {s : State} {r : Req} (h : s.live) (hr : s.cph.running = some r) (hq : r.queue = 2)
include h hr hq

section Signed

variable (hs : r.rimeSign = true) {k : Nat} (hk : s.rimSigner r.rimeId = some k)
include hs hk

theorem rimeAuthDone_signs (hu : s.rimUsable r = true) : Completes .rimeAuthDone s fun t =>
    (t.rp k).sig = .done (s.rimMac r) ∧ (t.rp k).cur = (s.rp k).cur ∧ t.cph.running = none := by
  refine completes_rime rfl h ((s.cleared.rimAuthDone_signed hr hq hs hk).trans (if_pos hu)) fun t hrim hcph _ _ => ?_
  rw [State.rp_congr hrim k, State.rp_setRp, hcph, State.cph_setRp]
  exact ⟨rfl, rfl, rfl⟩

theorem rimeAuthDone_fails (hu : s.rimUsable r = false) : Completes .rimeAuthDone s fun t =>
    (t.rp k).cur = none ∧ t.cph.running = none ∧ t.bit Reg.RIM_EVENT.AUTH_FAIL = true := by
  refine completes_rime rfl h ((s.cleared.rimAuthDone_signed hr hq hs hk).trans (if_neg (Bool.eq_false_iff.1 hu))) fun t hrim hcph _ hreg => ?_
  rw [State.rp_congr hrim k, State.rp_raise, State.rp_of_rest (State.rest_rimGone _ k), State.rp_setRp, hcph,
    State.cph_of_rest (State.rest_raise _ _), State.cph_rimGone, State.bit_congr _ t _ (hreg _ (by decide))]
  exact ⟨rfl, rfl, State.bit_raise _ _ rfl (by decide)⟩

end Signed

section Checked

variable (hs : r.rimeSign = false) {v : Nat × RimeMsg × Nat} (hv : s.rim.verify.find? (fun v => v.1 == r.rimeId) = some v)
include hs hv

theorem rimeAuthDone_verifies (hu : (s.rimUsable r && s.rimMac r == r.iv) = true) (hp : v.2.1.port < 2) : Completes .rimeAuthDone s fun t =>
    t.cph.running = none ∧ t.rim.verify = s.rim.verify.filter (fun w => w.1 != r.rimeId) ∧
    ∃ n, n < 256 ∧ t.bit (Reg.RIM_NB_0.VALID n) = true ∧ t.fld (Reg.RIM_NB_0.SRC n) = v.2.1.src ∧ t.nbHeard n = s.tick := by
  obtain ⟨n, hn, hw, hh⟩ := (s.cleared.reqFreed.verified r.rimeId).rimDeliver_shows v.2.1 hp
  refine completes_rime rfl h ((s.cleared.rimAuthDone_checked hr hq hs hv).trans (if_pos hu)) fun t hrim hcph _ hreg => ?_
  rw [← hreg _ (nb0_notMem_wrapRegs hn)] at hw
  refine ⟨by rw [hcph, State.rimDeliver_cph]; rfl, by rw [hrim, State.rimDeliver_verify]; rfl, n, hn, decide_eq_true hw.valid, hw.src, ?_⟩
  rw [State.nbHeard, hrim, ← State.nbHeard, hh]
  rfl

theorem rimeAuthDone_rejects (hu : (s.rimUsable r && s.rimMac r == r.iv) = false) : Completes .rimeAuthDone s fun t =>
    t.cph.running = none ∧ t.rim.verify = s.rim.verify.filter (fun w => w.1 != r.rimeId) ∧ t.bit Reg.RIM_EVENT.AUTH_FAIL = true ∧
    ∀ n, n < 256 → t.reg (Reg.RIM_NB_0 n) = s.reg (Reg.RIM_NB_0 n) := by
  refine completes_rime rfl h ((s.cleared.rimAuthDone_checked hr hq hs hv).trans (if_neg (Bool.eq_false_iff.1 hu))) fun t hrim hcph _ hreg => ?_
  have hrest : (((s.cleared.reqFreed.verified r.rimeId).rimCount v.2.1.port v.2.1.chan 10).raise Reg.RIM_EVENT.AUTH_FAIL).rest =
      (s.cleared.reqFreed.verified r.rimeId).rest := (State.rest_raise _ _).trans (State.rest_count _ _ _)
  refine ⟨?_, ?_, ?_, fun n hn => ?_⟩
  · rw [hcph, State.cph_of_rest hrest]
    rfl
  · rw [hrim, State.rim_of_rest hrest]
    rfl
  · rw [State.bit_congr _ t _ (hreg _ (by decide))]
    exact State.bit_raise _ _ rfl (by decide)
  · rw [hreg _ (nb0_notMem_wrapRegs hn), State.reg_raise_ne _ _ (nb0_ne_low n (by decide)) (nb0_ne_low n (by decide)), State.rimCount,
      State.reg_count]
    rfl

end Checked

end Done

/-! ### Timeouts (R328) -/

/-- Giving a request up: its packet is dropped, the one to be sent or the one received. -/
def State.rimGiveUp (s : State) (id : Nat) : State :=
  match s.rimSigner id with
  | some k => (s.rimGone k).raise Reg.RIM_EVENT.AUTH_TIMEOUT
  | none =>
    if s.rim.verify.any fun v => v.1 == id then (s.verified id).raise Reg.RIM_EVENT.AUTH_TIMEOUT else s

/-- The requests that are given up. -/
def State.rimLate (s : State) : List Nat :=
  (match s.cph.running with
    | some r => if r.queue = 2 ∧ decide (r.len + 10000 ≤ s.tick) = true then [r.rimeId] else []
    | none => []) ++ (s.cph.rimeQ.filter fun r => decide (r.made + 10000 ≤ s.tick)).map (·.id)

/-- The state without the late requests of the queue. -/
def State.rimPunctual (s : State) : State := { s with cph := { s.cph with rimeQ := s.cph.rimeQ.filter fun r => !decide (r.made + 10000 ≤ s.tick) } }

theorem State.rimAuthTimeout_eq (s : State) : s.rimAuthTimeout = s.rimLate.foldl State.rimGiveUp s.rimPunctual := by
  unfold State.rimAuthTimeout State.rimLate
  rfl

theorem State.rimGiveUp_cases (s : State) (id : Nat) : s.rimGiveUp id = s ∨ (s.rimGiveUp id).bit Reg.RIM_EVENT.AUTH_TIMEOUT = true := by
  unfold State.rimGiveUp
  split
  · exact .inr (State.bit_raise _ _ rfl (by decide))
  · split
    · exact .inr (State.bit_raise _ _ rfl (by decide))
    · exact .inl rfl

theorem State.rimGiveUp_verifying (s : State) {id : Nat} (hn : s.rimSigner id = none) (hv : s.rim.verify.any (fun v => v.1 == id) = true) :
    (s.rimGiveUp id).bit Reg.RIM_EVENT.AUTH_TIMEOUT = true := by
  unfold State.rimGiveUp
  rw [hn]
  dsimp only
  rw [if_pos hv]
  exact State.bit_raise _ _ rfl (by decide)

theorem State.cph_rimGiveUp (s : State) (id : Nat) : (s.rimGiveUp id).cph = s.cph := by
  unfold State.rimGiveUp
  split
  · exact (State.cph_of_rest (State.rest_raise _ _)).trans (s.cph_rimGone _)
  · split
    · exact (State.cph_of_rest (State.rest_raise _ _)).trans rfl
    · rfl

theorem State.rimGiveUp_mono (s : State) (id : Nat) (h : s.bit Reg.RIM_EVENT.AUTH_TIMEOUT = true) : (s.rimGiveUp id).bit Reg.RIM_EVENT.AUTH_TIMEOUT = true := by
  obtain e | e := s.rimGiveUp_cases id
  · rw [e, h]
  · exact e

/-- The timeout is told if one of the requests has a packet to drop. -/
theorem State.rimGiveUps_tell (ids : List Nat) (s : State) (h : ∃ id ∈ ids, (s.rimGiveUp id).bit Reg.RIM_EVENT.AUTH_TIMEOUT = true) :
    (ids.foldl State.rimGiveUp s).bit Reg.RIM_EVENT.AUTH_TIMEOUT = true := by
  induction ids with
  | nil => obtain ⟨_, hm, _⟩ := h; exact absurd hm List.not_mem_nil
  | cons x xs ih =>
    have told (hx : (s.rimGiveUp x).bit Reg.RIM_EVENT.AUTH_TIMEOUT = true) : ((x :: xs).foldl State.rimGiveUp s).bit Reg.RIM_EVENT.AUTH_TIMEOUT = true :=
      State.bit_foldl _ _ (fun u id hu => u.rimGiveUp_mono id hu) xs _ hx
    obtain ⟨id, hm, hid⟩ := h
    obtain rfl | hm := List.mem_cons.1 hm
    · exact told hid
    · obtain e | e := s.rimGiveUp_cases x
      · rw [List.foldl_cons, e]
        exact ih ⟨id, hm, hid⟩
      · exact told e

theorem State.rimAuthTimeout_idle (s : State) (hq : ∀ r ∈ s.cph.rimeQ, s.tick < r.made + 10000)
    (hr : ∀ r, s.cph.running = some r → r.queue = 2 → s.tick < r.len + 10000) : s.rimAuthTimeout = s := by
  have hl : s.rimLate = [] := by
    unfold State.rimLate
    rw [List.filter_eq_nil_iff.2 fun r hm => by have := hq r hm; simp only [decide_eq_true_eq]; omega]
    cases hrun : s.cph.running with
    | none => rfl
    | some r =>
      have := hr r hrun
      dsimp only
      rw [if_neg fun ⟨h2, hl⟩ => by have := this h2; have := of_decide_eq_true hl; omega]
      rfl
  have hp : s.rimPunctual = s := by
    unfold State.rimPunctual
    rw [List.filter_eq_self.2 fun r hm => by have := hq r hm; simp only [Bool.not_eq_true', decide_eq_false_iff_not]; omega]
  rw [s.rimAuthTimeout_eq, hl, hp]
  rfl

theorem authTimeout_gives {s : State} (h : s.live) : Completes .authTimeout s fun t => (∀ r ∈ t.cph.rimeQ, s.tick < r.made + 10000) ∧
    ((∃ r ∈ s.cph.rimeQ, r.made + 10000 ≤ s.tick ∧ s.rimSigner r.id = none ∧ s.rim.verify.any (fun v => v.1 == r.id) = true) →
      t.bit Reg.RIM_EVENT.AUTH_TIMEOUT = true) ∧
    ((∀ r ∈ s.cph.rimeQ, s.tick < r.made + 10000) → (∀ r, s.cph.running = some r → r.queue = 2 → s.tick < r.len + 10000) → s.sameBut t wrapRegs) := by
  have e := s.cleared.rimAuthTimeout_eq
  refine ⟨_, rfl, fun r hm => ?_, fun ⟨r, hm, hmade, hn, hv⟩ => s.bit_cmd _ h _ rfl (by decide) ?_, fun hq hr =>
    s.sameBut_cmd_idle _ h (s.cleared.rimAuthTimeout_idle hq hr)⟩
  · have hcph : (s.cmd State.rimAuthTimeout).cph = s.cleared.rimAuthTimeout.cph := by simp only [s.cmd_frame _ h]
    rw [hcph, e, foldl_keeps State.cph _ State.cph_rimGiveUp] at hm
    have hf := (List.mem_filter.1 hm).2
    simp only [Bool.not_eq_true', decide_eq_false_iff_not] at hf
    exact Nat.not_le.1 hf
  · rw [e]
    refine State.rimGiveUps_tell _ _ ⟨r.id, List.mem_append_right _ (List.mem_map_of_mem (List.mem_filter.2 ⟨hm, decide_eq_true hmade⟩)), ?_⟩
    exact State.rimGiveUp_verifying _ hn hv

/-! ### Neighbours that are lost (R332) -/

/-- An entry is lost. -/
def State.nbDrop (s : State) (n : Nat) : State := (s.nbClear n).raise Reg.RIM_EVENT.NEIGH_LOST

/-- The entries without a delivered packet for 10 s. -/
def State.nbGone (s : State) : List Nat := nbAll.filter fun n => s.bit (Reg.RIM_NB_0.VALID n) && decide (s.nbHeard n + 10000000 ≤ s.tick)

theorem State.nbLost_eq (s : State) : s.nbLost = (s.nbGone.foldl State.nbDrop s).nbCount := rfl

theorem State.nbDrop_nb0_ne (s : State) {m n : Nat} (h : n ≠ m) : (s.nbDrop m).reg (Reg.RIM_NB_0 n) = s.reg (Reg.RIM_NB_0 n) := by
  rw [State.nbDrop, State.reg_raise_ne _ _ (nb0_ne_low n (by decide)) (nb0_ne_low n (by decide))]
  exact s.reg_nbClear_ne (by unfold Reg.RIM_NB_0; omega)

theorem State.nbDrop_nb0 (s : State) (n : Nat) : (s.nbDrop n).reg (Reg.RIM_NB_0 n) = 0 := by
  rw [State.nbDrop, State.reg_raise_ne _ _ (nb0_ne_low n (by decide)) (nb0_ne_low n (by decide)), State.reg_nbClear_head]

theorem State.nbDrops_nb0_ne {n : Nat} {ns : List Nat} (h : n ∉ ns) (s : State) : (ns.foldl State.nbDrop s).reg (Reg.RIM_NB_0 n) = s.reg (Reg.RIM_NB_0 n) :=
  foldl_keeps_mem (State.reg · (Reg.RIM_NB_0 n)) _ ns (fun u _ hm => u.nbDrop_nb0_ne fun e => h (e ▸ hm)) s

theorem State.nbDrops_nb0 {n : Nat} {ns : List Nat} (h : n ∈ ns) (s : State) : (ns.foldl State.nbDrop s).reg (Reg.RIM_NB_0 n) = 0 := by
  induction ns generalizing s with
  | nil => exact absurd h List.not_mem_nil
  | cons m ns ih =>
    by_cases hn : n ∈ ns
    · exact ih hn _
    · obtain rfl : n = m := (List.mem_cons.1 h).resolve_right hn
      exact (State.nbDrops_nb0_ne hn _).trans (s.nbDrop_nb0 n)

theorem State.nbDrops_tell {ns : List Nat} (h : ns ≠ []) (s : State) : (ns.foldl State.nbDrop s).bit Reg.RIM_EVENT.NEIGH_LOST = true := by
  obtain ⟨n, ns, rfl⟩ := List.exists_cons_of_ne_nil h
  have told (u : State) (m : Nat) : (u.nbDrop m).bit Reg.RIM_EVENT.NEIGH_LOST = true := State.bit_raise _ _ rfl (by decide)
  exact State.bit_foldl _ _ (fun u m _ => told u m) ns _ (told s n)

theorem neighLost_removes {s : State} (h : s.live) : Completes .neighLost s fun t => ∀ n, n < 256 →
    (s.bit (Reg.RIM_NB_0.VALID n) = true → s.nbHeard n + 10000000 ≤ s.tick → t.bit (Reg.RIM_NB_0.VALID n) = false ∧ t.bit Reg.RIM_EVENT.NEIGH_LOST = true) ∧
    (s.bit (Reg.RIM_NB_0.VALID n) = false ∨ s.tick < s.nbHeard n + 10000000 → t.reg (Reg.RIM_NB_0 n) = s.reg (Reg.RIM_NB_0 n)) := by
  refine completes_rime rfl h s.cleared.nbLost_eq fun t _ _ _ hreg n hn => ?_
  have hcount (u : State) {off : Nat} (ho : Reg.RIM_STATUS ≠ off) : u.nbCount.reg off = u.reg off := u.reg_setFld_ne _ ho
  have hnb := (hreg _ (nb0_notMem_wrapRegs hn)).trans (hcount _ (nb0_ne_low n (by decide)).symm)
  have mem : n ∈ s.cleared.nbGone ↔ s.bit (Reg.RIM_NB_0.VALID n) = true ∧ s.nbHeard n + 10000000 ≤ s.tick := by
    rw [State.nbGone, List.mem_filter, Bool.and_eq_true, decide_eq_true_eq]
    exact and_iff_right (List.mem_range.2 hn)
  refine ⟨fun hv ho => ⟨?_, ?_⟩, fun hkeep => ?_⟩
  · rw [State.bit, State.fld, hnb, State.nbDrops_nb0 (mem.2 ⟨hv, ho⟩)]
    rfl
  · rw [State.bit_congr _ t _ ((hreg _ (by decide)).trans (hcount _ (by decide)))]
    exact State.nbDrops_tell (List.ne_nil_of_mem (mem.2 ⟨hv, ho⟩)) _
  · rw [hnb, State.nbDrops_nb0_ne fun hm => ?_]
    · rfl
    · obtain ⟨hv, ho⟩ := mem.1 hm
      exact hkeep.elim (fun hf => absurd (hv.symm.trans hf) (by decide)) (fun hf => absurd ho (Nat.not_le.2 hf))

/-- Settles O50: a request's end by what it was for and whether its key served, a timeout and a lost neighbour by what they remove and what they leave. -/
theorem rimeAuthentication : Obligations.RimeAuthentication := by
  unfold Obligations.RimeAuthentication
  intro s h
  exact ⟨fun hn => completes_still rfl h (s.cleared.rimAuthDone_other hn), fun r hr hq =>
    ⟨fun k hs hk => ⟨rimeAuthDone_signs h hr hq hs hk, rimeAuthDone_fails h hr hq hs hk⟩,
      fun v hs hv => ⟨rimeAuthDone_verifies h hr hq hs hv, rimeAuthDone_rejects h hr hq hs hv⟩⟩, authTimeout_gives h, neighLost_removes h⟩

end Sys2Proof.Machine
end

section
/-! SUPPORT. The Rime queue: a packet that joins it, one that a full queue drops, and the one that is next (R323). -/

namespace Sys2Proof.Machine

open Sys2Proof

/-! ### Dropping (R323) -/

theorem State.rest_rimLost (s : State) (p : RimePkt) : (s.rimLost p).rest = s.rest := (State.rest_raise _ _).trans (s.rest_rimUnsent p)

theorem State.bit_rimLost (s : State) (p : RimePkt) : (s.rimLost p).bit Reg.RIM_EVENT.TX_DROP = true := State.bit_raise _ _ rfl (by decide)

/-- Each packet lost is told. -/
theorem State.rimLosts_tell {ps : List RimePkt} (h : ps ≠ []) (s : State) : (ps.foldl State.rimLost s).bit Reg.RIM_EVENT.TX_DROP = true := by
  obtain ⟨p, ps, rfl⟩ := List.exists_cons_of_ne_nil h
  exact State.bit_foldl _ _ (fun u q _ => u.bit_rimLost q) ps _ (s.bit_rimLost p)

theorem State.bit_rimShow (s : State) (k : Nat) {g : Fr} (h : g.off ≠ Reg.RIM_STATUS) : (s.rimShow k).bit g = s.bit g :=
  State.bit_congr _ _ _ (s.reg_rimShow k h)

/-! ### Joining (R323) -/

/-- A port with a packet more. -/
def RimePort.joined (x : RimePort) (p : RimePkt) : RimePort := { x with queue := x.queue ++ [p] }

theorem State.rimQueue_room (s : State) (k : Nat) (p : RimePkt) (h : (s.rp k).depth < 16) : s.rimQueue k p = (s.setRp k ((s.rp k).joined p)).rimShow k := by
  unfold State.rimQueue
  dsimp only
  rw [if_pos h]
  rfl

theorem State.rp_rimQueue_room (s : State) (k : Nat) (p : RimePkt) (h : (s.rp k).depth < 16) : (s.rimQueue k p).rp k = (s.rp k).joined p := by
  rw [s.rimQueue_room k p h, State.rp_rimShow, State.rp_setRp]

theorem RimePort.yield_idle {x : RimePort} (h : x.cur = none) : x.yield = x := by
  unfold RimePort.yield
  rw [h]

section Full

variable (s : State) (k : Nat) (p : RimePkt)

/-- A full queue tells of the packet it drops. -/
theorem State.rimQueue_tells (h : ¬(s.rp k).depth < 16) : (s.rimQueue k p).bit Reg.RIM_EVENT.TX_DROP = true := by
  unfold State.rimQueue
  extract_lets x y u
  rw [State.bit_rimShow _ _ (by decide)]
  dsimp only [u]
  rw [if_neg h]
  split
  · split
    · split <;> exact State.bit_rimLost _ _
    · exact State.bit_rimLost _ _
  · exact State.bit_rimLost _ _

variable (h : ¬(s.rp k).depth < 16) (hc : (s.rp k).cur = none)
include h hc

/-- None of a lower priority: the new packet is dropped. -/
theorem State.rp_rimQueue_worst (hp : worstPri (s.rp k).queue ≤ p.pri) : (s.rimQueue k p).rp k = s.rp k := by
  unfold State.rimQueue
  dsimp only
  rw [RimePort.yield_idle hc, if_neg h, if_neg (Nat.not_lt.2 hp), State.rp_rimShow, State.rp_of_rest (s.rest_rimLost p)]

/-- The oldest packet of the lowest priority makes room for a better one. -/
theorem State.rp_rimQueue_replaces (hp : p.pri < worstPri (s.rp k).queue) {i : Nat}
    (hi : (s.rp k).queue.findIdx? (fun q => q.pri == worstPri (s.rp k).queue) = some i) :
    (s.rimQueue k p).rp k = { s.rp k with queue := (s.rp k).queue.eraseIdx i ++ [p] } := by
  unfold State.rimQueue
  dsimp only
  rw [RimePort.yield_idle hc, if_neg h, if_pos hp, hi]
  dsimp only
  rw [if_neg fun ⟨_, hn⟩ => hn rfl, if_pos rfl, Nat.sub_zero, State.rp_rimShow, State.rp_of_rest (State.rest_rimLost _ _), State.rp_setRp]

end Full

/-! ### The next packet (R323) -/

/-- The search for the next packet: the best so far, and the position after it. -/
def rimNextStep (q : List RimePkt) (b : Option Nat × Nat) (p : RimePkt) : Option Nat × Nat :=
  (match b.1 with
    | none => some b.2
    | some j => if p.pri < (q.getD j p).pri then some b.2 else some j, b.2 + 1)

theorem rimNext_eq (q : List RimePkt) : rimNext q = (q.foldl (rimNextStep q) (none, 0)).1 := rfl

/-- What the search has found among the first `n` packets: none of them where there is none, else one that none of them precedes. -/
def RimBest (q : List RimePkt) (n : Nat) : Option Nat → Prop
  | none => n = 0
  | some i => ∃ r, q[i]? = some r ∧ ∀ j p, j < n → q[j]? = some p → r.pri ≤ p.pri

theorem RimBest.step {q : List RimePkt} {n : Nat} {o : Option Nat} {p : RimePkt} (h : RimBest q n o) (hp : q[n]? = some p) :
    RimBest q (n + 1) (rimNextStep q (o, n) p).1 := by
  have last (r : RimePkt) (hr : r.pri ≤ p.pri) (hb : ∀ j x, j < n → q[j]? = some x → r.pri ≤ x.pri) (j : Nat) (x : RimePkt) (hj : j < n + 1)
      (hx : q[j]? = some x) : r.pri ≤ x.pri := by
    obtain hj | rfl := Nat.lt_succ_iff_lt_or_eq.1 hj
    · exact hb j x hj hx
    · rw [hp] at hx
      exact Option.some.inj hx ▸ hr
  cases o with
  | none => exact ⟨p, hp, last p le_rfl fun j _ hj _ => absurd hj (by rw [show n = 0 from h]; exact Nat.not_lt_zero j)⟩
  | some i =>
    obtain ⟨r, hr, hb⟩ := h
    unfold rimNextStep
    dsimp only
    rw [List.getD_eq_getElem?_getD, hr, Option.getD_some]
    by_cases hlt : p.pri < r.pri
    · rw [if_pos hlt]
      exact ⟨p, hp, last p le_rfl fun j x hj hx => hlt.le.trans (hb j x hj hx)⟩
    · rw [if_neg hlt]
      exact ⟨r, hr, last r (Nat.not_lt.1 hlt) hb⟩

theorem RimBest.steps (q ps : List RimePkt) (n : Nat) (o : Option Nat) (h : RimBest q n o) (hps : q.drop n = ps) :
    RimBest q (n + ps.length) (ps.foldl (rimNextStep q) (o, n)).1 := by
  induction ps generalizing n o with
  | nil => exact h
  | cons p ps ih =>
    have hp : q[n]? = some p := by
      rw [← Nat.add_zero n, ← List.getElem?_drop, hps]
      rfl
    have hd : q.drop (n + 1) = ps := by rw [← List.drop_drop, hps]; rfl
    have := ih (n + 1) _ (h.step hp) hd
    rwa [List.foldl_cons, List.length_cons, ← Nat.add_assoc, Nat.add_right_comm]

/-- The next packet of a queue is one of the best priority. -/
theorem rimNext_best {q : List RimePkt} (h : q ≠ []) : ∃ i r, rimNext q = some i ∧ q[i]? = some r ∧ ∀ p ∈ q, r.pri ≤ p.pri := by
  have hb := RimBest.steps q q 0 none rfl rfl
  rw [← rimNext_eq, Nat.zero_add] at hb
  cases hn : rimNext q with
  | none =>
    rw [hn] at hb
    exact absurd (List.length_eq_zero_iff.1 hb) h
  | some i =>
    rw [hn] at hb
    obtain ⟨r, hr, hall⟩ := hb
    refine ⟨i, r, rfl, hr, fun p hp => ?_⟩
    obtain ⟨j, hj, he⟩ := List.mem_iff_getElem.1 hp
    exact hall j p hj (by rw [List.getElem?_eq_getElem hj, he])

end Sys2Proof.Machine
end

section
/-! SUPPORT. A Rime port's meeting with the channel: what it waits for, signs, sends, puts back, and gives up (R320, R321, R327). -/

namespace Sys2Proof.Machine

open Sys2Proof

/-! ### Pieces of a meeting -/

@[simp] theorem State.rp_rimSign (s : State) (k : Nat) (p : RimePkt) :
    (s.rimSign k p).rp k = { s.rp k with cur := some p, sig := .asked s.rim.nextId } := by
  unfold State.rimSign
  exact (State.rp_congr rfl k).trans (s.rp_setRp k _)

/-- The request for a packet's signature. -/
def State.rimAsk (s : State) (k : Nat) (p : RimePkt) : RimeReq :=
  { id := s.rim.nextId, sign := true, slot := s.fld Reg.RIM_CTL.AUTH_SLOT, msg := s.rimHead5 k p ++ p.payload, mac := [], made := s.tick }

theorem State.rimeQ_rimSign (s : State) (k : Nat) (p : RimePkt) : (s.rimSign k p).cph.rimeQ = s.cph.rimeQ ++ [s.rimAsk k p] := by
  unfold State.rimSign
  dsimp only
  rw [State.cph_setRp]
  rfl

theorem State.reg_rimSign (s : State) (k : Nat) (p : RimePkt) (off : Nat) : (s.rimSign k p).reg off = s.reg off := by
  unfold State.rimSign
  exact (State.reg_congr _ _ rfl off).trans (s.reg_setRp k _)

theorem State.traceEnd_keeps {s t u : State} (ho : t.out = s.out) (hr : u.rim = s.rim) (e : Option Nat) :
    ({ t with rim := { u.rim with traceEnd := e } } : State).out = s.out ∧ ∀ k, ({ t with rim := { u.rim with traceEnd := e } } : State).rp k = s.rp k :=
  ⟨ho, fun k => State.rp_congr (s := s) (t := { s with rim := u.rim }) hr k⟩

/-- Noting that a packet was sent touches the trace registers and the trace's end. -/
theorem State.rimTraceSent_keeps (s : State) (p : RimePkt) (sent : Bool) :
    (s.rimTraceSent p sent).out = s.out ∧ ∀ k, (s.rimTraceSent p sent).rp k = s.rp k := by
  unfold State.rimTraceSent
  split
  · split
    · exact State.traceEnd_keeps (s := s) (t := (s.setFld Reg.RIM_TRACE_CTL.START 0).setFld Reg.RIM_TRACE_CTL.ACTIVE 1)
        (u := s.setFld Reg.RIM_TRACE_CTL.START 0) (by simp only [State.setFld_frame]) (by simp only [State.setFld_frame]) _
    · exact ⟨rfl, fun _ => rfl⟩
  · exact ⟨rfl, fun _ => rfl⟩

/-- A packet put on the air: what is driven out, and the port that sends it. -/
theorem State.rimSend_leaves (s : State) (k : Nat) (p : RimePkt) (mac : List Byte) :
    (s.rimSend k p mac).out = s.out ++ [.rime k (rimBytes (s.rimHead5 k p) p.payload mac)] ∧
    (s.rimSend k p mac).rp k = { s.rp k with onAir := true, air := rimBytes (s.rimHead5 k p) p.payload mac, airAt := s.tick, seq := ((s.rp k).seq + 1) % 256 } := by
  unfold State.rimSend
  dsimp only
  obtain ⟨hout, hrp⟩ := State.rimTraceSent_keeps _ p true
  rw [hout, hrp, State.rp_setRp]
  exact ⟨State.out_of_outer (State.outer_setRp _ k _), rfl⟩

/-! ### One meeting (R320, R321) -/

/-- The code that a packet is sent with. -/
def rimCode (auth : Bool) (sig : Sig) : List Byte := match auth, sig with | true, .done m => m | _, _ => []

/-- Whether nothing is left to sign before a packet is sent. -/
def rimReady (auth : Bool) (sig : Sig) : Bool := !auth || (match sig with | .done _ => true | _ => false)

/-- A packet that met a busy channel: its encounter is counted; it waits for a drawn backoff, or is lost with its sixteenth. -/
def State.rimDefer (s : State) (k : Nat) (p : RimePkt) : State :=
  let s := s.rimCount k (s.fld (Reg.RIM_PORT_CFG.TX_CH k)) 0
  if 16 ≤ p.busy + 1 then (s.rimLeave k).rimLost p
  else
    let d := s.draw (2 ^ (min (p.busy + 1) (s.fld Reg.RIM_TIMING.BACKOFF_MAX) + 3))
    d.2.setRp k { d.2.rp k with cur := some { p with busy := p.busy + 1, slots := d.1 } }

/-- What a meeting comes to once the current packet is settled. -/
def State.rimMeet (s : State) (k : Nat) (power noise : Int) (idleUs : Nat) : State :=
  match (s.rp k).cur, (s.rp k).sig, s.bit Reg.RIM_CTL.AUTH_EN with
  | none, _, _ => s
  | _, .asked _, true => s
  | some p, .none, true => s.rimSign k p
  | some p, sig, _ =>
    if s.rimBusy k power noise then s.rimDefer k p
    else if idleUs < (if p.busy = 0 then 32 else 64 * p.slots) then s
    else s.rimSend k p (rimCode (s.bit Reg.RIM_CTL.AUTH_EN) sig)

section Meet

variable (s : State) (k : Nat) (power noise : Int) (idle : Nat)

theorem State.rimAttempt_barred (h : s.rimCan k = false ∨ (s.rp k).onAir = true) : s.rimAttempt k power noise idle = s := by
  refine if_pos ?_
  rw [Bool.or_eq_true, Bool.not_eq_true']
  exact h

/-- The current packet yields to a better one, and the next one of the queue follows where none is current. -/
theorem State.rimAttempt_meets (hc : s.rimCan k = true) (ha : (s.rp k).onAir = false) : s.rimAttempt k power noise idle =
    (if ((s.rimYield k).rp k).cur.isNone then (s.rimYield k).rimBegin k else s.rimYield k).rimMeet k power noise idle := by
  unfold State.rimAttempt
  rw [hc, ha, if_neg (by decide)]
  rfl

theorem State.rimMeet_none (h : (s.rp k).cur = none) : s.rimMeet k power noise idle = s := by
  unfold State.rimMeet
  rw [h]

theorem State.rimMeet_asked {id : Nat} (h : (s.rp k).sig = .asked id) (ha : s.bit Reg.RIM_CTL.AUTH_EN = true) : s.rimMeet k power noise idle = s := by
  unfold State.rimMeet
  rw [h, ha]
  cases (s.rp k).cur <;> rfl

section Current

variable {p : RimePkt} (h : (s.rp k).cur = some p)
include h

theorem State.rimMeet_unsigned (hs : (s.rp k).sig = .none) (ha : s.bit Reg.RIM_CTL.AUTH_EN = true) : s.rimMeet k power noise idle = s.rimSign k p := by
  unfold State.rimMeet
  rw [h, hs, ha]

theorem State.rimMeet_ready (hr : rimReady (s.bit Reg.RIM_CTL.AUTH_EN) (s.rp k).sig = true) : s.rimMeet k power noise idle =
    if s.rimBusy k power noise then s.rimDefer k p
    else if idle < (if p.busy = 0 then 32 else 64 * p.slots) then s
    else s.rimSend k p (rimCode (s.bit Reg.RIM_CTL.AUTH_EN) (s.rp k).sig) := by
  unfold State.rimMeet
  rw [h]
  cases ha : s.bit Reg.RIM_CTL.AUTH_EN with
  | false => cases (s.rp k).sig <;> rfl
  | true =>
    rw [ha] at hr
    cases hs : (s.rp k).sig with
    | done m => rfl
    | asked id => rw [hs] at hr; exact absurd hr Bool.false_ne_true
    | none => rw [hs] at hr; exact absurd hr Bool.false_ne_true

/-- No packet of the queue is better: the current one keeps its turn. -/
theorem State.rimAttempt_keeps (hc : s.rimCan k = true) (ha : (s.rp k).onAir = false) (hq : ∀ q ∈ (s.rp k).queue, p.pri ≤ q.pri) :
    s.rimAttempt k power noise idle = s.rimMeet k power noise idle := by
  have hy : s.rimYield k = s := by
    unfold State.rimYield
    dsimp only
    rw [h]
    refine if_neg fun hany => ?_
    obtain ⟨q, hm, hlt⟩ := List.any_eq_true.1 hany
    exact absurd (hq q hm) (Nat.not_le.2 (of_decide_eq_true hlt))
  rw [s.rimAttempt_meets k power noise idle hc ha, hy, h]
  rfl

end Current

/-- A port without a packet at all does nothing. -/
theorem State.rimAttempt_empty (hq : (s.rp k).queue = []) (hn : (s.rp k).cur = none) : s.rimAttempt k power noise idle = s := by
  by_cases hb : s.rimCan k = true ∧ (s.rp k).onAir = false
  · have hy : s.rimYield k = s := by
      unfold State.rimYield
      dsimp only
      rw [hn]
    have hbegin : s.rimBegin k = s := by
      unfold State.rimBegin
      dsimp only
      rw [hq]
      rfl
    rw [s.rimAttempt_meets k power noise idle hb.1 hb.2, hy, hn, Option.isNone_none, if_pos rfl, hbegin, s.rimMeet_none k power noise idle hn]
  · refine s.rimAttempt_barred k power noise idle ?_
    rwa [not_and_or, Bool.not_eq_true, Bool.not_eq_false] at hb

/-- The next packet begins its access with its signature asked for. -/
theorem State.rimBegin_asks (ha : s.bit Reg.RIM_CTL.AUTH_EN = true) (hq : (s.rp k).queue ≠ []) : ∃ i r, (s.rp k).queue[i]? = some r ∧
    (∀ p ∈ (s.rp k).queue, r.pri ≤ p.pri) ∧
    s.rimBegin k = (s.setRp k { s.rp k with queue := (s.rp k).queue.eraseIdx i, cur := some r, sig := .none }).rimSign k r := by
  obtain ⟨i, r, hn, hi, hbest⟩ := rimNext_best hq
  refine ⟨i, r, hi, hbest, ?_⟩
  unfold State.rimBegin
  dsimp only
  rw [hn]
  dsimp only
  rw [hi]
  dsimp only
  rw [if_pos ((State.bit_congr s _ _ (s.reg_setRp k _)).trans ha)]

/-- A packet just asked to be signed waits for its signature. -/
theorem State.rimMeet_rimSign (p : RimePkt) (ha : s.bit Reg.RIM_CTL.AUTH_EN = true) : (s.rimSign k p).rimMeet k power noise idle = s.rimSign k p :=
  State.rimMeet_asked _ k power noise idle (congrArg RimePort.sig (s.rp_rimSign k p)) ((State.bit_congr s _ _ (s.reg_rimSign k p _)).trans ha)

/-- A port without a current packet takes the next one. -/
theorem State.rimAttempt_begins (hc : s.rimCan k = true) (ha : (s.rp k).onAir = false) (hn : (s.rp k).cur = none) (hq : (s.rp k).queue ≠ [])
    (hauth : s.bit Reg.RIM_CTL.AUTH_EN = true) : ∃ i r, (s.rp k).queue[i]? = some r ∧ (∀ p ∈ (s.rp k).queue, r.pri ≤ p.pri) ∧
    s.rimAttempt k power noise idle = (s.setRp k { s.rp k with queue := (s.rp k).queue.eraseIdx i, cur := some r, sig := .none }).rimSign k r := by
  have hy : s.rimYield k = s := by
    unfold State.rimYield
    dsimp only
    rw [hn]
  obtain ⟨i, r, hi, hbest, e⟩ := s.rimBegin_asks k hauth hq
  refine ⟨i, r, hi, hbest, ?_⟩
  rw [s.rimAttempt_meets k power noise idle hc ha, hy, hn, Option.isNone_none, if_pos rfl, e]
  exact State.rimMeet_rimSign _ k power noise idle r ((State.bit_congr s _ _ (s.reg_setRp k _)).trans hauth)

/-- A packet that a better one has come to stands in the queue again, and the better one is taken. -/
theorem State.rimAttempt_yields {p q : RimePkt} (hc : s.rimCan k = true) (ha : (s.rp k).onAir = false) (hcur : (s.rp k).cur = some p)
    (hq : q ∈ (s.rp k).queue) (hlt : q.pri < p.pri) (hauth : s.bit Reg.RIM_CTL.AUTH_EN = true) : ∃ i r, (p :: (s.rp k).queue)[i]? = some r ∧
    (∀ x ∈ p :: (s.rp k).queue, r.pri ≤ x.pri) ∧
    s.rimAttempt k power noise idle = (s.setRp k { s.rp k with queue := (p :: (s.rp k).queue).eraseIdx i, cur := some r, sig := .none }).rimSign k r := by
  have hyield : (s.rp k).yield = { s.rp k with queue := p :: (s.rp k).queue, cur := none, sig := .none } := by
    unfold RimePort.yield
    rw [hcur]
    exact if_neg (Bool.eq_false_iff.1 ha)
  have hy : s.rimYield k = s.setRp k { s.rp k with queue := p :: (s.rp k).queue, cur := none, sig := .none } := by
    unfold State.rimYield
    dsimp only
    rw [hcur, hyield]
    exact if_pos (List.any_eq_true.2 ⟨q, hq, decide_eq_true hlt⟩)
  have hreg (x : RimePort) : (s.setRp k x).bit Reg.RIM_CTL.AUTH_EN = true := (State.bit_congr s _ _ (s.reg_setRp k x)).trans hauth
  obtain ⟨i, r, hi, hbest, e⟩ := State.rimBegin_asks (s.setRp k { s.rp k with queue := p :: (s.rp k).queue, cur := none, sig := .none }) k (hreg _)
    (by rw [State.rp_setRp]; exact List.cons_ne_nil _ _)
  rw [State.rp_setRp] at hi hbest e
  refine ⟨i, r, hi, hbest, ?_⟩
  rw [s.rimAttempt_meets k power noise idle hc ha, hy, State.rp_setRp, Option.isNone_none, if_pos rfl, e, State.setRp_setRp]
  exact State.rimMeet_rimSign _ k power noise idle r (hreg _)

end Meet

end Sys2Proof.Machine
end

section
/-! SUPPORT. What the end of a Rime port's backoff leaves: the packet taken, yielded, signed, sent, put off or given up (R320, R321, R323, R327). -/

namespace Sys2Proof.Machine

open Sys2Proof

/-! ### A busy channel (R320) -/

theorem State.rimDefer_waits (s : State) (k : Nat) {p : RimePkt} (hp : p.busy < 15) : ∃ q, ((s.rimDefer k p).rp k).cur = some q ∧ q.busy = p.busy + 1 ∧
    q.payload = p.payload ∧ q.slots < 2 ^ (min (p.busy + 1) (s.fld Reg.RIM_TIMING.BACKOFF_MAX) + 3) := by
  unfold State.rimDefer
  dsimp only
  rw [if_neg (by omega), State.rp_setRp]
  refine ⟨_, rfl, rfl, rfl, ?_⟩
  rw [State.fld_congr s (s.rimCount k _ 0) _ (s.reg_count _ _ _)]
  exact Nat.mod_lt _ (Nat.two_pow_pos _)

theorem State.rimDefer_loses (s : State) (k : Nat) {p : RimePkt} (hp : 15 ≤ p.busy) : ((s.rimDefer k p).rp k).cur = none ∧
    (s.rimDefer k p).bit Reg.RIM_EVENT.TX_DROP = true := by
  unfold State.rimDefer
  dsimp only
  rw [if_pos (by omega), State.rp_of_rest (State.rest_rimLost _ p), State.rp_of_rest (State.rest_rimLeave _ k), State.rp_setRp]
  exact ⟨rfl, State.bit_rimLost _ p⟩

/-! ### The end of a backoff -/

section Backoff

variable {s : State} {k : Fin 2} {power noise : Int} {idle : Nat} (h : s.live)
include h

theorem rimeBackoffEnd_idle (hi : s.rimCan k = false ∨ (s.rp k).onAir = true ∨ ((s.rp k).cur = none ∧ (s.rp k).queue = [])) :
    Completes (.rimeBackoffEnd k power noise idle) s fun t => s.sameBut t wrapRegs := by
  refine completes_still rfl h ?_
  obtain hc | ha | ⟨hn, hq⟩ := hi
  · exact s.cleared.rimAttempt_barred k power noise idle (Or.inl hc)
  · exact s.cleared.rimAttempt_barred k power noise idle (Or.inr ha)
  · exact s.cleared.rimAttempt_empty k power noise idle hq hn

variable (hc : s.rimCan k = true) (ha : (s.rp k).onAir = false)
include hc ha

theorem rimeBackoffEnd_begins (hn : (s.rp k).cur = none) (hq : (s.rp k).queue ≠ []) (hauth : s.bit Reg.RIM_CTL.AUTH_EN = true) :
    Completes (.rimeBackoffEnd k power noise idle) s fun t => (t.rp k).cur.isSome = true ∧ t.cph.rimeQ.length = s.cph.rimeQ.length + 1 := by
  obtain ⟨i, r, _, _, e⟩ := s.cleared.rimAttempt_begins k power noise idle hc ha hn hq hauth
  refine completes_rime rfl h e fun t hrim hcph _ _ => ?_
  rw [State.rp_congr hrim k, State.rp_rimSign, hcph, State.rimeQ_rimSign, State.cph_setRp, List.length_append]
  exact ⟨rfl, rfl⟩

theorem rimeBackoffEnd_yields {p q : RimePkt} (hcur : (s.rp k).cur = some p) (hq : q ∈ (s.rp k).queue) (hlt : q.pri < p.pri)
    (hauth : s.bit Reg.RIM_CTL.AUTH_EN = true) : Completes (.rimeBackoffEnd k power noise idle) s fun t =>
      p ∈ (t.rp k).queue ∧ ∃ r ∈ (s.rp k).queue, (t.rp k).cur = some r ∧ r.pri ≤ q.pri := by
  obtain ⟨i, r, hi, hbest, e⟩ := s.cleared.rimAttempt_yields k power noise idle hc ha hcur hq hlt hauth
  have hr : r.pri ≤ q.pri := hbest q (List.mem_cons_of_mem _ hq)
  refine completes_rime rfl h e fun t hrim _ _ _ => ?_
  rw [State.rp_congr hrim k, State.rp_rimSign, State.rp_setRp]
  cases i with
  | zero =>
    obtain rfl : p = r := Option.some.inj hi
    exact absurd hlt (Nat.not_lt.2 hr)
  | succ j => exact ⟨List.mem_cons_self, r, List.mem_of_getElem? hi, rfl, hr⟩

variable {p : RimePkt} (hcur : (s.rp k).cur = some p) (hbest : ∀ q ∈ (s.rp k).queue, p.pri ≤ q.pri)
include hcur hbest

theorem rimeBackoffEnd_signs (hauth : s.bit Reg.RIM_CTL.AUTH_EN = true) (hs : (s.rp k).sig = .none) :
    Completes (.rimeBackoffEnd k power noise idle) s fun t => (t.rp k).cur = some p ∧ (t.rp k).queue = (s.rp k).queue ∧
      ∃ r, t.cph.rimeQ = s.cph.rimeQ ++ [r] ∧ r.sign = true ∧ r.msg = s.rimHead5 k p ++ p.payload ∧ (t.rp k).sig = .asked r.id := by
  have e := (s.cleared.rimAttempt_keeps k power noise idle hcur hc ha hbest).trans (s.cleared.rimMeet_unsigned k power noise idle hcur hs hauth)
  refine completes_rime rfl h e fun t hrim hcph _ _ => ?_
  rw [State.rp_congr hrim k, State.rp_rimSign, hcph, State.rimeQ_rimSign]
  exact ⟨rfl, rfl, s.cleared.rimAsk k p, rfl, rfl, rfl, rfl⟩

theorem rimeBackoffEnd_awaits {id : Nat} (hauth : s.bit Reg.RIM_CTL.AUTH_EN = true) (hs : (s.rp k).sig = .asked id) :
    Completes (.rimeBackoffEnd k power noise idle) s fun t => s.sameBut t wrapRegs :=
  completes_still rfl h ((s.cleared.rimAttempt_keeps k power noise idle hcur hc ha hbest).trans (s.cleared.rimMeet_asked k power noise idle hs hauth))

section Ready

variable (hr : rimReady (s.bit Reg.RIM_CTL.AUTH_EN) (s.rp k).sig = true)
include hr

omit h in
theorem State.rimAttempt_ready : s.cleared.rimAttempt k power noise idle =
    if s.rimBusy k power noise then s.cleared.rimDefer k p
    else if idle < (if p.busy = 0 then 32 else 64 * p.slots) then s.cleared
    else s.cleared.rimSend k p (rimCode (s.bit Reg.RIM_CTL.AUTH_EN) (s.rp k).sig) :=
  (s.cleared.rimAttempt_keeps k power noise idle hcur hc ha hbest).trans (s.cleared.rimMeet_ready k power noise idle hcur hr)

theorem rimeBackoffEnd_sends (hb : s.rimBusy k power noise = false) (hg : (if p.busy = 0 then 32 else 64 * p.slots) ≤ idle) :
    Completes (.rimeBackoffEnd k power noise idle) s fun t =>
      let bs := rimBytes (s.rimHead5 k p) p.payload (rimCode (s.bit Reg.RIM_CTL.AUTH_EN) (s.rp k).sig)
      t.out = [.rime k bs] ∧ (t.rp k).onAir = true ∧ (t.rp k).air = bs ∧ (t.rp k).airAt = s.tick ∧ (t.rp k).seq = ((s.rp k).seq + 1) % 256 := by
  have e := State.rimAttempt_ready (power := power) (noise := noise) (idle := idle) hc ha hcur hbest hr
  rw [if_neg (Bool.eq_false_iff.1 hb), if_neg (Nat.not_lt.2 hg)] at e
  obtain ⟨hout, hrp⟩ := s.cleared.rimSend_leaves k p (rimCode (s.bit Reg.RIM_CTL.AUTH_EN) (s.rp k).sig)
  refine completes_rime rfl h e fun t hrim _ ho _ => ?_
  rw [ho, hout, State.rp_congr hrim k, hrp]
  exact ⟨rfl, rfl, rfl, rfl, rfl⟩

theorem rimeBackoffEnd_waits (hb : s.rimBusy k power noise = false) (hg : idle < (if p.busy = 0 then 32 else 64 * p.slots)) :
    Completes (.rimeBackoffEnd k power noise idle) s fun t => s.sameBut t wrapRegs := by
  have e := State.rimAttempt_ready (power := power) (noise := noise) (idle := idle) hc ha hcur hbest hr
  rw [if_neg (Bool.eq_false_iff.1 hb), if_pos hg] at e
  exact completes_still rfl h e

theorem rimeBackoffEnd_defers (hb : s.rimBusy k power noise = true) (hp : p.busy < 15) :
    Completes (.rimeBackoffEnd k power noise idle) s fun t => ∃ q, (t.rp k).cur = some q ∧ q.busy = p.busy + 1 ∧
      q.payload = p.payload ∧ q.slots < 2 ^ (min (p.busy + 1) (s.fld Reg.RIM_TIMING.BACKOFF_MAX) + 3) := by
  have e := State.rimAttempt_ready (power := power) (noise := noise) (idle := idle) hc ha hcur hbest hr
  rw [if_pos hb] at e
  refine completes_rime rfl h e fun t hrim _ _ _ => ?_
  rw [State.rp_congr hrim k]
  exact s.cleared.rimDefer_waits k hp

theorem rimeBackoffEnd_loses (hb : s.rimBusy k power noise = true) (hp : 15 ≤ p.busy) :
    Completes (.rimeBackoffEnd k power noise idle) s fun t => (t.rp k).cur = none ∧ t.bit Reg.RIM_EVENT.TX_DROP = true := by
  have e := State.rimAttempt_ready (power := power) (noise := noise) (idle := idle) hc ha hcur hbest hr
  rw [if_pos hb] at e
  refine completes_rime rfl h e fun t hrim _ _ hreg => ?_
  rw [State.rp_congr hrim k, State.bit_congr _ t _ (hreg _ (by decide))]
  exact s.cleared.rimDefer_loses k hp

end Ready

end Backoff

end Sys2Proof.Machine
end

section
/-! SUPPORT. A Rime packet's end on the air and in the queue, and the packets a port sends of itself (R312, R323, R325). -/

namespace Sys2Proof.Machine

open Sys2Proof

/-! ### The end of a packet (R323) -/

theorem State.rimSent_ends (s : State) (k : Nat) (ha : (s.rp k).onAir = true) (ht : (s.rp k).airAt + (s.rp k).airTime ≤ s.tick) : s.rimSent k = s.rimEnd k :=
  if_pos (by rw [ha, decide_eq_true ht]; rfl)

theorem State.rimSent_still (s : State) (k : Nat) (h : (s.rp k).onAir = false ∨ s.tick < (s.rp k).airAt + (s.rp k).airTime) : s.rimSent k = s := by
  refine if_neg fun hb => ?_
  obtain ⟨ha, ht⟩ := Bool.and_eq_true_iff.1 hb
  exact h.elim (fun hf => absurd (ha.symm.trans hf) (by decide)) fun hl => absurd (of_decide_eq_true ht) (Nat.not_le.2 hl)

/-- The packet that left a port is counted, and the port is free. -/
theorem State.rest_rimEnd (s : State) (k : Nat) : (s.rimEnd k).rest = (s.setRp k (s.rp k).left).rest := by
  unfold State.rimEnd
  dsimp only
  rw [State.rest_rimLeave, State.rp_of_rest (State.rest_count _ _ _)]
  exact ((State.Counted.count s _ _).setRp k _).rest

theorem State.reg_rimEnd (s : State) (k : Nat) {off : Nat} (h : off ≠ Reg.RIM_STATUS) : (s.rimEnd k).reg off = s.reg off := by
  unfold State.rimEnd
  exact (State.reg_rimLeave _ k h).trans (s.reg_count _ _ _)

theorem rimePacketSent_ends {s : State} {k : Fin 2} (h : s.live) (ha : (s.rp k).onAir = true) (ht : (s.rp k).airAt + (s.rp k).airTime ≤ s.tick) :
    Completes (.rimePacketSent k) s fun t => (s.setRp k (s.rp k).left).sameBut t (Reg.RIM_STATUS :: wrapRegs) := by
  have e := s.cleared.rimSent_ends k ha ht
  refine ⟨_, rfl, s.sameBut_cmd _ _ (State.rimSent · k) h ?_ ?_ fun off ho => ?_⟩
  · rw [e, State.rest_rimEnd]
    exact ((State.Counted.cleared s).setRp k _).rest
  · obtain ⟨a, b, e⟩ := s.setRp_form k (s.rp k).left
    rw [e]
  · obtain ⟨hs, hw⟩ := not_or.1 (List.mem_cons.not.1 ho)
    rw [e, State.reg_rimEnd _ _ hs, s.reg_setRp]
    exact ⟨hw, rfl⟩

/-! ### Expiry (R323) -/

/-- Whether a packet has waited its 1,000,000 ticks. -/
def State.rimOld (s : State) (p : RimePkt) : Bool := decide (p.made + 1000000 ≤ s.tick)

/-- Whether a port's current packet has waited so long and is not on the air. -/
def State.rimCurOld (s : State) (k : Nat) : Bool := match (s.rp k).cur with | some p => s.rimOld p && !(s.rp k).onAir | none => false

/-- A port without the packets that have waited so long. -/
def State.rimFresh (s : State) (k : Nat) : RimePort :=
  let x := s.rp k
  { x with
    queue := x.queue.filter fun p => !s.rimOld p
    cur := if s.rimCurOld k then none else x.cur
    sig := if s.rimCurOld k then .none else x.sig }

theorem State.rimExpire_eq (s : State) (k : Nat) : s.rimExpire k =
    (((s.rp k).queue.filter s.rimOld ++ (if s.rimCurOld k then (s.rp k).cur.toList else [])).foldl State.rimLost (s.setRp k (s.rimFresh k))).rimShow k := rfl

theorem State.rp_rimExpire (s : State) (k : Nat) : (s.rimExpire k).rp k = s.rimFresh k := by
  rw [s.rimExpire_eq k, State.rp_rimShow, State.rp_of_rest (foldl_keeps State.rest _ State.rest_rimLost _ _), State.rp_setRp]

theorem State.rimFresh_cur (s : State) (k : Nat) {p : RimePkt} (hp : (s.rp k).cur = some p) :
    (s.rimFresh k).cur = if p.made + 1000000 ≤ s.tick ∧ (s.rp k).onAir = false then none else some p := by
  have ho : s.rimCurOld k = true ↔ p.made + 1000000 ≤ s.tick ∧ (s.rp k).onAir = false := by
    unfold State.rimCurOld
    rw [hp, Bool.and_eq_true, State.rimOld, decide_eq_true_eq, Bool.not_eq_true']
  unfold State.rimFresh
  dsimp only
  rw [hp]
  exact if_congr ho rfl rfl

/-- The packets that expire are told. -/
theorem State.rimExpire_tells (s : State) (k : Nat) (h : (s.rp k).queue.any s.rimOld = true) : (s.rimExpire k).bit Reg.RIM_EVENT.TX_DROP = true := by
  rw [s.rimExpire_eq k, State.bit_rimShow _ _ (by decide)]
  obtain ⟨p, hp, ho⟩ := List.any_eq_true.1 h
  exact State.rimLosts_tell (List.ne_nil_of_mem (List.mem_append_left _ (List.mem_filter.2 ⟨hp, ho⟩))) _

theorem rimeQueueExpiry_drops {s : State} {k : Fin 2} (h : s.live) : Completes (.rimeQueueExpiry k) s fun t =>
    (t.rp k).queue = (s.rp k).queue.filter (fun p => decide (s.tick < p.made + 1000000)) ∧
    (∀ p, (s.rp k).cur = some p → (t.rp k).cur = if p.made + 1000000 ≤ s.tick ∧ (s.rp k).onAir = false then none else some p) ∧
    ((s.rp k).queue.any (fun p => decide (p.made + 1000000 ≤ s.tick)) = true → t.bit Reg.RIM_EVENT.TX_DROP = true) := by
  refine completes_rime (f := (State.rimExpire · k)) rfl h rfl fun t hrim _ _ hreg => ?_
  rw [State.rp_congr hrim k, State.rp_rimExpire]
  refine ⟨?_, fun p hp => ?_, fun ho => ?_⟩
  · refine congrArg (fun f => List.filter f (s.rp k).queue) (funext fun p => ?_)
    rw [State.rimOld, ← decide_not]
    exact decide_eq_decide.2 Nat.not_le
  · exact s.cleared.rimFresh_cur k hp
  · rw [State.bit_congr _ t _ (hreg _ (by decide))]
    exact s.cleared.rimExpire_tells k ho

/-! ### IDENTITY packets (R312) -/

theorem State.rimIdentityDue_still (s : State) (k : Nat) (h : ∀ t, (s.rp k).idDue = some t → s.tick < t) : s.rimIdentityDue k = s := by
  unfold State.rimIdentityDue
  cases hd : (s.rp k).idDue with
  | none => rfl
  | some t => exact if_pos (h t hd)

theorem State.rimIdentityDue_room (s : State) (k : Nat) {t : Nat} (hd : (s.rp k).idDue = some t) (ht : t ≤ s.tick) (hr : (s.rp k).depth < 16) :
    ∃ d, s.fld Reg.RIM_TIMING.ID_PERIOD * 500000 * 3 / 4 ≤ d ∧
      d ≤ s.fld Reg.RIM_TIMING.ID_PERIOD * 500000 * 3 / 4 + s.fld Reg.RIM_TIMING.ID_PERIOD * 500000 / 2 ∧
      (s.rimIdentityDue k).rp k = { (s.rp k).joined (s.rimPkt 1 3 (s.rimIdentity k)) with idDue := some (s.tick + d) } := by
  unfold State.rimIdentityDue
  rw [hd]
  dsimp only
  rw [if_neg (Nat.not_lt.2 ht)]
  generalize hu : s.rimQueue k (s.rimPkt 1 3 (s.rimIdentity k)) = u
  have hp : u.fld Reg.RIM_TIMING.ID_PERIOD = s.fld Reg.RIM_TIMING.ID_PERIOD := hu ▸ State.fld_congr s _ _ (State.reg_rimQueue_ne (by decide) s k _)
  have hrp : u.rp k = (s.rp k).joined (s.rimPkt 1 3 (s.rimIdentity k)) := hu ▸ s.rp_rimQueue_room k _ hr
  refine ⟨u.rimDrawId.1, ?_, ?_, ?_⟩
  · unfold State.rimDrawId
    rw [hp]
    exact Nat.le_add_right _ _
  · unfold State.rimDrawId
    rw [hp]
    exact Nat.add_le_add_left (Nat.le_of_lt_succ (Nat.mod_lt _ (Nat.succ_pos _))) _
  · rw [State.rp_setRp, show u.tick = s.tick from hu ▸ s.rimQueue_tick k _, show u.rimDrawId.2.rp k = u.rp k from rfl, hrp]

theorem identityDue_sends {s : State} {k : Fin 2} (h : s.live) {t0 : Nat} (hd : (s.rp k).idDue = some t0) (ht : t0 ≤ s.tick) (hr : (s.rp k).depth < 16) :
    let p := s.fld Reg.RIM_TIMING.ID_PERIOD * 500000
    Completes (.identityDue k) s fun t => (t.rp k).queue = (s.rp k).queue ++ [s.rimPkt 1 3 (s.rimIdentity k)] ∧
      ∃ d, p * 3 / 4 ≤ d ∧ d ≤ p * 3 / 4 + p / 2 ∧ (t.rp k).idDue = some (s.tick + d) := by
  intro p
  obtain ⟨d, hlo, hhi, e⟩ := s.cleared.rimIdentityDue_room k hd ht hr
  refine completes_rime (f := (State.rimIdentityDue · k)) rfl h rfl fun t hrim _ _ _ => ?_
  rw [State.rp_congr hrim k, e]
  exact ⟨rfl, d, hlo, hhi, rfl⟩

/-! ### CONFIG_VER packets (R312) -/

theorem configVerDue_sends {s : State} {k : Fin 2} (h : s.live) (hn : (s.rp k).cvLeft ≠ 0) (ht : (s.rp k).cvDue ≤ s.tick) (hr : (s.rp k).depth < 16) :
    Completes (.configVerDue k) s fun t => (t.rp k).cvLeft = (s.rp k).cvLeft - 1 ∧ (t.rp k).cvDue = s.tick + 1000000 ∧
      (t.rp k).queue = (s.rp k).queue ++ [s.rimPkt 2 1 s.rimConfigVer] := by
  refine completes_rime (f := (State.rimConfigDue · k)) rfl h (if_neg (not_or.2 ⟨hn, Nat.not_lt.2 ht⟩)) fun t hrim _ _ _ => ?_
  rw [State.rp_congr hrim k, State.rp_rimQueue_room _ _ _ (by rw [State.rp_setRp]; exact hr), State.rp_setRp]
  exact ⟨rfl, rfl, rfl⟩

/-! ### ALARM packets (R325) -/

/-- A port's alarms once the one that is due has been sent. -/
def State.alarmsLeft (s : State) (k i : Nat) (a : AlarmEv × Nat × Nat) : List (AlarmEv × Nat × Nat) :=
  if a.2.1 ≤ 1 then (s.rp k).alarms.eraseIdx i else (s.rp k).alarms.set i (a.1, a.2.1 - 1, s.tick + 500000)

/-- Whether an alarm's next packet is due. -/
def State.alarmFalls (s : State) (a : AlarmEv × Nat × Nat) : Bool := decide (a.2.2 ≤ s.tick)

theorem State.rimAlarmDue_none (s : State) (k : Nat) (hi : (s.rp k).alarms.findIdx? s.alarmFalls = none) : s.rimAlarmDue k = s := by
  unfold State.rimAlarmDue
  dsimp only
  rw [show (s.rp k).alarms.findIdx? (fun a => decide (a.2.2 ≤ s.tick)) = none from hi]

section Alarm

variable {s : State} {i : Nat} {a : AlarmEv × Nat × Nat}

theorem State.rimAlarmDue_due {k : Nat} (hi : (s.rp k).alarms.findIdx? s.alarmFalls = some i) (ha : (s.rp k).alarms[i]? = some a) :
    s.rimAlarmDue k = (s.setRp k { s.rp k with alarms := s.alarmsLeft k i a }).rimQueue k (s.rimPkt 3 0 (rimAlarm a.1)) := by
  unfold State.rimAlarmDue
  dsimp only
  rw [show (s.rp k).alarms.findIdx? (fun a => decide (a.2.2 ≤ s.tick)) = some i from hi]
  dsimp only
  rw [ha]
  rfl

variable {k : Fin 2} (h : s.live) (hi : (s.rp k).alarms.findIdx? s.alarmFalls = some i) (ha : (s.rp k).alarms[i]? = some a)
include h hi ha

theorem alarmDue_sends (hr : (s.rp k).depth < 16) : Completes (.alarmDue k) s fun t =>
    (t.rp k).queue = (s.rp k).queue ++ [s.rimPkt 3 0 (rimAlarm a.1)] ∧ (t.rp k).alarms = s.alarmsLeft k i a := by
  refine completes_rime rfl h (State.rimAlarmDue_due (s := s.cleared) hi ha) fun t hrim _ _ _ => ?_
  rw [State.rp_congr hrim k, State.rp_rimQueue_room _ _ _ (by rw [State.rp_setRp]; exact hr), State.rp_setRp]
  exact ⟨rfl, rfl⟩

theorem alarmDue_replaces (hc : (s.rp k).cur = none) (hf : 16 ≤ (s.rp k).queue.length) : Completes (.alarmDue k) s fun t =>
    t.bit Reg.RIM_EVENT.TX_DROP = true ∧ (worstPri (s.rp k).queue = 0 → (t.rp k).queue = (s.rp k).queue) ∧
    (∀ j, 0 < worstPri (s.rp k).queue → (s.rp k).queue.findIdx? (fun p => p.pri == worstPri (s.rp k).queue) = some j →
      (t.rp k).queue = (s.rp k).queue.eraseIdx j ++ [s.rimPkt 3 0 (rimAlarm a.1)]) := by
  refine completes_rime rfl h (State.rimAlarmDue_due (s := s.cleared) hi ha) fun t hrim _ _ hreg => ?_
  have hrp := s.cleared.rp_setRp k { s.cleared.rp k with alarms := s.cleared.alarmsLeft k i a }
  have full : ¬((s.cleared.setRp k { s.cleared.rp k with alarms := s.cleared.alarmsLeft k i a }).rp k).depth < 16 := by
    rw [hrp]
    exact Nat.not_lt.2 (hf.trans (Nat.le_add_right _ _))
  have free : ((s.cleared.setRp k { s.cleared.rp k with alarms := s.cleared.alarmsLeft k i a }).rp k).cur = none := by
    rw [hrp]
    exact hc
  refine ⟨?_, fun hw => ?_, fun j hw hj => ?_⟩
  · rw [State.bit_congr _ t _ (hreg _ (by decide))]
    exact State.rimQueue_tells _ _ _ full
  · rw [State.rp_congr hrim k, State.rp_rimQueue_worst _ _ _ full free (by rw [hrp]; exact hw.le), hrp]
    rfl
  · rw [State.rp_congr hrim k, State.rp_rimQueue_replaces _ _ _ full free (by rw [hrp]; exact hw) (by rw [hrp]; exact hj), hrp]
    rfl

end Alarm

/-- Settles O51: the end of a backoff by the packet it finds and the channel it meets, then the packets that leave, expire and fall due. -/
theorem rimeSending : Obligations.RimeSending := by
  unfold Obligations.RimeSending
  intro s k h
  refine ⟨fun power noise idle => ⟨rimeBackoffEnd_idle h, rimeBackoffEnd_begins h, fun p q hc ha hcur hq hlt hauth =>
      rimeBackoffEnd_yields h hc ha hcur hq hlt hauth, fun p hc ha hcur hbest => ⟨rimeBackoffEnd_signs h hc ha hcur hbest, fun id =>
      rimeBackoffEnd_awaits h hc ha hcur hbest, rimeBackoffEnd_sends h hc ha hcur hbest, rimeBackoffEnd_waits h hc ha hcur hbest,
      rimeBackoffEnd_defers h hc ha hcur hbest, rimeBackoffEnd_loses h hc ha hcur hbest⟩⟩,
    rimePacketSent_ends h, fun hs => completes_still rfl h (s.cleared.rimSent_still k hs), rimeQueueExpiry_drops h,
    fun t0 => identityDue_sends h, fun hn => completes_still rfl h (s.cleared.rimIdentityDue_still k hn),
    configVerDue_sends h, fun hn => completes_still rfl h (if_pos hn), fun i a => alarmDue_sends h, fun i a => alarmDue_replaces h,
    fun hn => completes_still rfl h (s.cleared.rimAlarmDue_none k hn)⟩

end Sys2Proof.Machine
end

section
/-! SUPPORT. Tracing: the request that START queues, the replies that fall due, and the trace's end (R326). -/

namespace Sys2Proof.Machine

open Sys2Proof

/-! ### A store that overrides nothing -/

theorem overrides_of_no_rwo {off : Nat} (h : ∀ f ∈ regFlds off, (f.acc == .rwo) = false) (old new : Word) : overrides off old new = false :=
  List.any_eq_false.2 fun f hf => by
    rw [h f hf, Bool.false_and]
    decide

section Stored

variable (s : State) {off : Nat} (v : Nat) (h : ∀ f ∈ regFlds off, (f.acc == .rwo) = false)
include h

theorem State.rim_stored : (s.stored off v).rim = s.rim := by
  obtain ⟨c, e⟩ := s.cleared.store_plain off (half v 0) (overrides_of_no_rwo h _ _)
  rw [State.stored, e]
  simp only [State.dueShadow_frame, State.setReg_frame, State.cleared_frame]

theorem State.reg_stored_ne {o : Nat} (ho : off ≠ o) : (s.stored off v).reg o = s.reg o := by
  obtain ⟨c, e⟩ := s.cleared.store_plain off (half v 0) (overrides_of_no_rwo h _ _)
  rw [State.stored, e]
  exact (State.reg_dueShadow _ _ _).trans (State.reg_setReg_ne _ _ ho)

end Stored

/-! ### What a packet's queueing leaves -/

theorem State.reg_rimLost_status (s : State) (p : RimePkt) : (s.rimLost p).reg Reg.RIM_STATUS = s.reg Reg.RIM_STATUS := by
  refine (State.reg_raise_ne _ _ (by decide) (by decide)).trans ?_
  unfold State.rimTraceSent
  split
  · exact s.reg_setFld_ne _ (by decide)
  · rfl

/-- Queueing a packet replaces the port, tells of what is lost, and shows the port. -/
theorem State.rimQueue_form (s : State) (k : Nat) (p : RimePkt) : ∃ (u : State) (x : RimePort), s.rimQueue k p = u.rimShow k ∧ u.rest = (s.setRp k x).rest ∧
    u.reg Reg.RIM_STATUS = s.reg Reg.RIM_STATUS := by
  have lost (x : RimePort) (q : RimePkt) : ∃ (u : State) (y : RimePort), ((s.setRp k x).rimLost q).rimShow k = u.rimShow k ∧ u.rest = (s.setRp k y).rest ∧
      u.reg Reg.RIM_STATUS = s.reg Reg.RIM_STATUS :=
    ⟨_, x, rfl, State.rest_rimLost _ q, (State.reg_rimLost_status _ q).trans (s.reg_setRp k x)⟩
  have worst := lost (s.rp k) p
  rw [State.setRp_rp] at worst
  unfold State.rimQueue
  dsimp only
  split
  · exact ⟨_, _, rfl, rfl, s.reg_setRp k _⟩
  · split
    · split
      · split
        · exact lost _ _
        · exact lost _ _
      · exact worst
    · exact worst

theorem State.rp_rimQueue_ne (s : State) {j k : Nat} (p : RimePkt) (h : ¬(j = 0 ↔ k = 0)) : (s.rimQueue k p).rp j = s.rp j := by
  obtain ⟨u, x, e, hu, -⟩ := s.rimQueue_form k p
  rw [e, State.rp_rimShow, State.rp_of_rest hu, State.rp_setRp_ne _ _ h]

theorem State.replies_rimQueue (s : State) (k : Nat) (p : RimePkt) : (s.rimQueue k p).rim.replies = s.rim.replies := by
  obtain ⟨u, x, e, hu, -⟩ := s.rimQueue_form k p
  obtain ⟨a, b, hx⟩ := s.setRp_form k x
  rw [e, State.rim_of_rest (State.rest_rimShow u k), State.rim_of_rest hu, hx]

theorem State.rimMask_rimShow (s : State) (j k : Nat) : (s.rimShow k).fld (rimMaskFld j) = s.fld (rimMaskFld j) := by
  unfold State.rimShow rimMaskFld rimDepthFld rimSendFld
  split <;> split <;> rw [State.fld_setFld_ne _ _ _ _ (by decide) (by decide) (by decide), State.fld_setFld_ne _ _ _ _ (by decide) (by decide) (by decide)]

/-- Whether a port sends is what its queue does not touch. -/
theorem State.rimTx_rimQueue (s : State) (j : Fin 2) (k : Nat) (p : RimePkt) : (s.rimQueue k p).rimTx j = s.rimTx j := by
  have hm : (s.rimQueue k p).fld (rimMaskFld j) = s.fld (rimMaskFld j) := by
    obtain ⟨u, x, e, -, hr⟩ := s.rimQueue_form k p
    have ho : ∀ j : Fin 2, (rimMaskFld j).off = Reg.RIM_STATUS := by decide
    rw [e, State.rimMask_rimShow, State.fld_congr s u _ (by rw [ho]; exact hr)]
  have hp : ∀ j : Fin 2, Reg.RIM_PORT_CFG j ∉ cutRegs := by decide
  unfold State.rimTx
  rw [State.bit_congr s _ _ (State.reg_rimQueue_ne (by decide) s k p), State.bit_congr s _ (Reg.RIM_PORT_CFG.TX_EN j) (State.reg_rimQueue_ne (hp j) s k p),
    State.fld_congr s _ Reg.RIM_ID.SHORT_ID (State.reg_rimQueue_ne (by decide) s k p), State.bit_eq _ (rimMaskFld j), hm, ← State.bit_eq]

/-! ### The request (R326) -/

theorem traceCtl_no_rwo : ∀ f ∈ regFlds Reg.RIM_TRACE_CTL, (f.acc == .rwo) = false := by decide +kernel

section Request

variable {s u : State} {v : Word} (h : s.live) (ht : s.takes Reg.RIM_TRACE_CTL v.toNat) (hu : u = s.stored Reg.RIM_TRACE_CTL v.toNat)
  (hs : u.bit Reg.RIM_TRACE_CTL.START = true)
include hu hs

theorem State.taken_start : s.taken Reg.RIM_TRACE_CTL v.toNat = u.rimTraceReq := by
  have e : ∀ (x : State) (old : Word), x.effect Reg.RIM_TRACE_CTL old = if x.bit Reg.RIM_TRACE_CTL.START then x.rimTraceReq else x := fun _ _ => rfl
  rw [State.taken, e, ← hu, if_pos hs]

include h ht

theorem traceReq_queues (hx : u.rimTx (u.fld Reg.RIM_TRACE_CTL.PORT) = true) (hr : (u.rp (u.fld Reg.RIM_TRACE_CTL.PORT)).depth < 16) :
    Completes (.traceReq v) s fun t =>
      (t.rp (u.fld Reg.RIM_TRACE_CTL.PORT)).queue = (u.rp (u.fld Reg.RIM_TRACE_CTL.PORT)).queue ++
        [u.rimPkt 4 4 (beBytes 2 (u.fld Reg.RIM_TRACE_CTL.TRACE_ID) ++ [0#8, 0#8])] := by
  refine completes_write rfl h ht ((State.taken_start hu hs).trans (if_pos hx)) fun t hsame _ => ?_
  rw [State.rp_of_rest hsame.1, State.rp_rimQueue_room _ _ _ hr]
  rfl

theorem traceReq_drops (hx : u.rimTx (u.fld Reg.RIM_TRACE_CTL.PORT) = false) :
    Completes (.traceReq v) s fun t => t.bit Reg.RIM_TRACE_CTL.START = false ∧ t.bit Reg.RIM_EVENT.TX_DROP = true ∧
      (t.rp 0).queue = (s.rp 0).queue ∧ (t.rp 1).queue = (s.rp 1).queue := by
  refine completes_write rfl h ht ((State.taken_start hu hs).trans (if_neg (Bool.eq_false_iff.1 hx))) fun t hsame hbit => ?_
  rw [State.rimDrop] at hsame hbit
  have hrp (k : Nat) : t.rp k = s.rp k := by
    rw [State.rp_of_rest hsame.1, State.rp_raise, State.rp_setFld, hu, State.rp_congr (s.rim_stored _ traceCtl_no_rwo)]
  refine ⟨?_, hbit _ rfl (by decide) (State.bit_raise _ _ rfl (by decide)), by rw [hrp], by rw [hrp]⟩
  rw [State.bit_congr _ t _ (hsame.2 _ (by decide)), State.bit_congr _ _ _ (State.reg_raise_ne _ _ (by decide) (by decide))]
  exact State.bit_setFld_zero _ _ (by decide) (by decide)

end Request

/-! ### Replies (R326) -/

/-- The packet that answers a trace on a port. -/
def State.rimReplyPkt (s : State) (r : TraceReply) (k : Nat) : RimePkt :=
  s.rimPkt 5 2 (beBytes 2 r.id ++ beBytes 2 r.src ++ [BitVec.ofNat 8 r.level, BitVec.ofNat 8 r.peak] ++ beBytes 2 r.evm ++ [BitVec.ofNat 8 k, 0#8])

/-- A reply goes to a port that sends. -/
def State.rimReply (r : TraceReply) (s : State) (k : Nat) : State := if s.rimTx k then s.rimQueue k (s.rimReplyPkt r k) else s

/-- A reply goes out on each port that sends. -/
def State.rimReplyBoth (s : State) (r : TraceReply) : State := (s.rimReply r 0).rimReply r 1

/-- The replies that are due. -/
def State.repliesDue (s : State) : List TraceReply := s.rim.replies.filter fun r => decide (r.due ≤ s.tick)

/-- The replies not yet due. -/
def State.repliesLeft (s : State) : List TraceReply := s.rim.replies.filter fun r => decide (s.tick < r.due)

/-- The state with other replies to send. -/
def State.setReplies (s : State) (rs : List TraceReply) : State := { s with rim := { s.rim with replies := rs } }

theorem State.setReplies_self (s : State) : s.setReplies s.rim.replies = s := rfl

theorem State.rimReplies_eq (s : State) : s.rimReplies = s.repliesDue.foldl State.rimReplyBoth (s.setReplies s.repliesLeft) := by
  have hl : s.repliesLeft = s.rim.replies.filter fun r => !decide (r.due ≤ s.tick) := by
    refine congrArg (fun f => List.filter f s.rim.replies) (funext fun r => ?_)
    rw [← decide_not]
    exact decide_eq_decide.2 Nat.not_le.symm
  rw [hl]
  rfl

theorem State.replies_rimReply (s : State) (r : TraceReply) (k : Nat) : (s.rimReply r k).rim.replies = s.rim.replies := by
  unfold State.rimReply
  split
  · exact s.replies_rimQueue k _
  · rfl

theorem State.replies_rimReplyBoth (s : State) (r : TraceReply) : (s.rimReplyBoth r).rim.replies = s.rim.replies :=
  (State.replies_rimReply _ r 1).trans (s.replies_rimReply r 0)

/-- A reply to one port leaves the other's queue, and whether it sends. -/
theorem State.rimReply_other (s : State) (r : TraceReply) {j : Fin 2} {k : Nat} (h : ¬((j : Nat) = 0 ↔ k = 0)) :
    (s.rimReply r k).rp j = s.rp j ∧ (s.rimReply r k).rimTx j = s.rimTx j ∧ (s.rimReply r k).tick = s.tick := by
  unfold State.rimReply
  split
  · exact ⟨s.rp_rimQueue_ne _ h, s.rimTx_rimQueue j k _, s.rimQueue_tick k _⟩
  · exact ⟨rfl, rfl, rfl⟩

/-- A port that sends, with room for it, queues the reply. -/
theorem State.rimReply_queues (s : State) (r : TraceReply) (k : Nat) (hx : s.rimTx k = true) (hr : (s.rp k).depth < 16) :
    (s.rimReply r k).rp k = (s.rp k).joined (s.rimReplyPkt r k) := by
  unfold State.rimReply
  rw [if_pos hx, s.rp_rimQueue_room k _ hr]

theorem State.rimReplyBoth_queues (s : State) (r : TraceReply) (k : Fin 2) (hx : s.rimTx k = true) (hr : (s.rp k).depth < 16) :
    (s.rimReplyBoth r).rp k = (s.rp k).joined (s.rimReplyPkt r k) := by
  unfold State.rimReplyBoth
  match k with
  | 0 =>
    obtain ⟨hrp, -, -⟩ := State.rimReply_other (s.rimReply r 0) r (j := 0) (k := 1) (by decide)
    exact hrp.trans (s.rimReply_queues r 0 hx hr)
  | 1 =>
    obtain ⟨hrp, htx, htick⟩ := s.rimReply_other r (j := 1) (k := 0) (by decide)
    refine (State.rimReply_queues _ r 1 (htx.trans hx) (by rw [show (s.rimReply r 0).rp 1 = s.rp 1 from hrp]; exact hr)).trans ?_
    rw [show (s.rimReply r 0).rp 1 = s.rp 1 from hrp, State.rimReplyPkt, State.rimPkt, htick]
    rfl

theorem traceReplyDue_replies {s : State} (h : s.live) : Completes .traceReplyDue s fun t =>
    t.rim.replies = s.repliesLeft ∧
    (∀ r, s.repliesDue = [r] → ∀ k : Fin 2, s.rimTx k = true → (s.rp k).depth < 16 → (t.rp k).queue = (s.rp k).queue ++ [s.rimReplyPkt r k]) ∧
    ((∀ r ∈ s.rim.replies, s.tick < r.due) → s.sameBut t wrapRegs) := by
  have e := s.cleared.rimReplies_eq
  refine ⟨_, rfl, ?_, fun r hr k hx hd => ?_, fun hn => ?_⟩
  · have hrim : (s.cmd State.rimReplies).rim = s.cleared.rimReplies.rim := by simp only [s.cmd_frame _ h]
    rw [hrim, e, foldl_keeps (fun u : State => u.rim.replies) _ State.replies_rimReplyBoth]
    rfl
  · have hrim : (s.cmd State.rimReplies).rim = s.cleared.rimReplies.rim := by simp only [s.cmd_frame _ h]
    rw [State.rp_congr hrim k, e, show s.cleared.repliesDue = [r] from hr, List.foldl_cons, List.foldl_nil,
      State.rimReplyBoth_queues (s.cleared.setReplies s.cleared.repliesLeft) r k hx hd]
    rfl
  · refine s.sameBut_cmd_idle _ h (e.trans ?_)
    have hd : s.cleared.repliesDue = [] := List.filter_eq_nil_iff.2 fun r hr hle => absurd (of_decide_eq_true hle) (Nat.not_le.2 (hn r hr))
    have hl : s.cleared.repliesLeft = s.cleared.rim.replies := List.filter_eq_self.2 fun r hr => decide_eq_true (hn r hr)
    rw [hd, hl, State.setReplies_self]
    rfl

/-! ### The end of a trace (R326) -/

theorem State.rimTraceDone_still (s : State) (h : ∀ t, s.rim.traceEnd = some t → s.tick < t) : s.rimTraceDone = s := by
  unfold State.rimTraceDone
  cases hd : s.rim.traceEnd with
  | none => rfl
  | some t => exact if_pos (h t hd)

/-- The state with the trace over. -/
def State.traceOver (s : State) : State := { s with rim := { s.rim with traceEnd := none } }

theorem State.rimTraceDone_due (s : State) {t : Nat} (hd : s.rim.traceEnd = some t) (ht : t ≤ s.tick) :
    s.rimTraceDone = (s.traceOver.setFld Reg.RIM_TRACE_CTL.ACTIVE 0).raise Reg.RIM_EVENT.TRACE_DONE := by
  unfold State.rimTraceDone
  rw [hd]
  exact if_neg (Nat.not_lt.2 ht)

theorem traceDone_ends {s : State} (h : s.live) {t0 : Nat} (hd : s.rim.traceEnd = some t0) (ht : t0 ≤ s.tick) : Completes .traceDone s fun t =>
    t.rim.traceEnd = none ∧ t.bit Reg.RIM_TRACE_CTL.ACTIVE = false ∧ t.bit Reg.RIM_EVENT.TRACE_DONE = true := by
  refine completes_rime rfl h (s.cleared.rimTraceDone_due hd ht) fun t hrim _ _ hreg => ?_
  rw [hrim, State.rim_of_rest (State.rest_raise _ _), State.bit_congr _ t _ (hreg _ (by decide)), State.bit_congr _ t _ (hreg _ (by decide)),
    State.bit_congr _ _ _ (State.reg_raise_ne _ _ (by decide) (by decide))]
  exact ⟨rfl, State.bit_setFld_zero _ _ (by decide) (by decide), State.bit_raise _ _ rfl (by decide)⟩

end Sys2Proof.Machine
end

section
/-! SUPPORT. The Rime transmit ring: what one record changes, and that its records are taken up to the write index (R333). -/

namespace Sys2Proof.Machine

open Sys2Proof

/-! ### One record -/

/-- The transmit ring's number of records. -/
def State.txSize (s : State) : Nat := 2 ^ s.fld Reg.RIM_RING_CFG.TX_LOG2

/-- The record at which the host's writing stands. -/
def State.txWr (s : State) : Nat := s.fld Reg.RIM_TX_WR.IDX % s.txSize

/-- The record that is next. -/
def State.txRd (s : State) : Nat := s.fld Reg.RIM_TX_RD.IDX % s.txSize

/-- The memory's answer for the next record. -/
def State.txFetch (s : State) : List Byte × Option Nat × State := s.stRead (ringAddr (s.fld Reg.RIM_TX_BASE.BASE) s.txRd) 256

/-- The next record is read, passed, and queued or dropped. -/
def State.rimTakeOne (s : State) : State :=
  (s.txFetch.2.2.setFld Reg.RIM_TX_RD.IDX (ringNext s.txSize s.txRd)).rimRecord s.txFetch.1 s.txFetch.2.1.isSome

theorem rimTake_succ (n : Nat) (s : State) : rimTake (n + 1) s =
    if !s.bit Reg.RIM_RING_CFG.TX_EN || ringEmpty s.txWr s.txRd then s else rimTake n s.rimTakeOne := rfl

theorem State.reg_rimRecord_ne {off : Nat} (h : off ∉ cutRegs) (s : State) (b : List Byte) (bad : Bool) : (s.rimRecord b bad).reg off = s.reg off := by
  unfold State.rimRecord
  dsimp only
  split
  · exact s.reg_rimRaise_ne h _ rfl
  · exact State.reg_rimQueue_ne h s _ _

theorem State.reg_txFetch {off : Nat} (s : State) (ho : off < 0x80000) (hf : off ≠ Reg.FLT_EVENT) : s.txFetch.2.2.reg off = s.reg off :=
  (memBlind_reg ho hf).stRead s _ _

/-- A record changes none of the ring's registers but its read index. -/
theorem State.reg_rimTakeOne {off : Nat} (s : State) (h : off ∉ cutRegs) (ho : off < 0x80000) (hr : Reg.RIM_TX_RD ≠ off) :
    s.rimTakeOne.reg off = s.reg off := by
  unfold State.rimTakeOne
  rw [State.reg_rimRecord_ne h, State.reg_setFld_ne _ _ hr, s.reg_txFetch ho fun e => h (e ▸ by decide)]

theorem State.rimTakeOne_ring (s : State) : s.rimTakeOne.bit Reg.RIM_RING_CFG.TX_EN = s.bit Reg.RIM_RING_CFG.TX_EN ∧
    s.rimTakeOne.txSize = s.txSize ∧ s.rimTakeOne.txWr = s.txWr := by
  have hc : s.rimTakeOne.reg Reg.RIM_RING_CFG = s.reg Reg.RIM_RING_CFG := s.reg_rimTakeOne (by decide) (by decide) (by decide)
  have hw : s.rimTakeOne.reg Reg.RIM_TX_WR = s.reg Reg.RIM_TX_WR := s.reg_rimTakeOne (by decide) (by decide) (by decide)
  have hsize : s.rimTakeOne.txSize = s.txSize := by rw [State.txSize, State.fld_congr s _ _ hc, State.txSize]
  exact ⟨State.bit_congr s _ _ hc, hsize, by rw [State.txWr, hsize, State.fld_congr s _ _ hw, State.txWr]⟩

theorem State.txSize_le (s : State) : s.txSize ≤ 2 ^ 15 :=
  Nat.pow_le_pow_right (by decide) (Nat.le_of_lt_succ (getBits_lt (s.reg Reg.RIM_RING_CFG) 11 8))

theorem State.txSize_pos (s : State) : 0 < s.txSize := Nat.two_pow_pos _
theorem State.txRd_lt (s : State) : s.txRd < s.txSize := Nat.mod_lt _ s.txSize_pos
theorem State.txWr_lt (s : State) : s.txWr < s.txSize := Nat.mod_lt _ s.txSize_pos

/-- A record advances the read index by one, around the ring. -/
theorem State.txRd_rimTakeOne (s : State) : s.rimTakeOne.txRd = ringNext s.txSize s.txRd := by
  have hr : s.rimTakeOne.fld Reg.RIM_TX_RD.IDX = ringNext s.txSize s.txRd % 2 ^ 16 := by
    unfold State.rimTakeOne
    rw [State.fld_congr _ _ _ (State.reg_rimRecord_ne (by decide) _ _ _)]
    exact State.fld_setFld _ _ _ (by decide) (by decide)
  have hlt : ringNext s.txSize s.txRd < s.txSize := Nat.mod_lt _ s.txSize_pos
  rw [State.txRd, s.rimTakeOne_ring.2.1, hr, Nat.mod_eq_of_lt (hlt.trans_le (s.txSize_le.trans (by decide))), Nat.mod_eq_of_lt hlt]

/-! ### The records up to the write index -/

/-- How many records lie between two indices of a ring. -/
def ringDist (size rd wr : Nat) : Nat := if rd ≤ wr then wr - rd else wr + size - rd

theorem ringDist_zero {size rd wr : Nat} (hr : rd < size) (h : ringDist size rd wr = 0) : rd = wr := by
  unfold ringDist at h
  split at h <;> omega

theorem ringDist_next {size rd wr : Nat} (hr : rd < size) (hw : wr < size) (hn : wr ≠ rd) : ringDist size (ringNext size rd) wr + 1 = ringDist size rd wr := by
  unfold ringDist ringNext
  by_cases he : rd + 1 < size
  · rw [Nat.mod_eq_of_lt he]
    split <;> split <;> omega
  · rw [show rd + 1 = size by omega, Nat.mod_self]
    split <;> split <;> omega

/-- An enabled ring with no more records than the bound is taken up to its write index. -/
theorem rimTake_all (n : Nat) (s : State) (he : s.bit Reg.RIM_RING_CFG.TX_EN = true) (hn : ringDist s.txSize s.txRd s.txWr ≤ n) :
    (rimTake n s).txRd = (rimTake n s).txWr := by
  induction n generalizing s with
  | zero => exact ringDist_zero s.txRd_lt (Nat.le_zero.1 hn)
  | succ n ih =>
    rw [rimTake_succ, he]
    by_cases hw : s.txWr = s.txRd
    · rw [if_pos (by rw [ringEmpty, hw]; exact beq_self_eq_true _)]
      exact hw.symm
    · rw [if_neg (by rw [ringEmpty, beq_false_of_ne hw]; decide)]
      obtain ⟨hen, hsize, hwr⟩ := s.rimTakeOne_ring
      refine ih _ (hen.trans he) ?_
      have := ringDist_next s.txRd_lt s.txWr_lt hw
      rw [hsize, hwr, s.txRd_rimTakeOne]
      omega

theorem rimTake_off (n : Nat) (s : State) (he : s.bit Reg.RIM_RING_CFG.TX_EN = false) : rimTake n s = s := by
  cases n with
  | zero => rfl
  | succ n =>
    rw [rimTake_succ, he]
    rfl

theorem reg_rimTake {off : Nat} (h : off ∉ cutRegs) (ho : off < 0x80000) (hr : Reg.RIM_TX_RD ≠ off) (n : Nat) (s : State) :
    (rimTake n s).reg off = s.reg off := by
  induction n generalizing s with
  | zero => rfl
  | succ n ih =>
    rw [rimTake_succ]
    split
    · rfl
    · exact (ih _).trans (s.reg_rimTakeOne h ho hr)

/-! ### The submission -/

theorem effect_txWr (s : State) (old : Word) : s.effect Reg.RIM_TX_WR old = rimTake 65536 s := rfl

theorem txWr_no_rwo : ∀ f ∈ regFlds Reg.RIM_TX_WR, (f.acc == .rwo) = false := by decide +kernel

theorem rimeRingSubmit_takes {s : State} {v : Word} (h : s.live) (ht : s.takes Reg.RIM_TX_WR v.toNat) : Completes (.rimeRingSubmit v) s fun t =>
    t.reg Reg.RIM_TX_WR = writtenWord Reg.RIM_TX_WR (s.reg Reg.RIM_TX_WR) v ∧
    (s.bit Reg.RIM_RING_CFG.TX_EN = true → t.fld Reg.RIM_TX_RD.IDX % s.txSize = t.fld Reg.RIM_TX_WR.IDX % s.txSize) ∧
    (s.bit Reg.RIM_RING_CFG.TX_EN = false → t.reg Reg.RIM_TX_RD = s.reg Reg.RIM_TX_RD) := by
  have hcfg : (s.stored Reg.RIM_TX_WR v.toNat).reg Reg.RIM_RING_CFG = s.reg Reg.RIM_RING_CFG := s.reg_stored_ne _ txWr_no_rwo (by decide)
  have hrd : (s.stored Reg.RIM_TX_WR v.toNat).reg Reg.RIM_TX_RD = s.reg Reg.RIM_TX_RD := s.reg_stored_ne _ txWr_no_rwo (by decide)
  have hwr := s.reg_stored Reg.RIM_TX_WR v.toNat (overrides_of_no_rwo txWr_no_rwo _ _)
  rw [half_word] at hwr
  refine completes_write rfl h ht (effect_txWr _ _) fun t hsame _ => ?_
  obtain ⟨-, hreg⟩ := hsame
  generalize s.stored Reg.RIM_TX_WR v.toNat = u at *
  have hen : u.bit Reg.RIM_RING_CFG.TX_EN = s.bit Reg.RIM_RING_CFG.TX_EN := State.bit_congr s u _ hcfg
  have hsize : (rimTake 65536 u).txSize = s.txSize := by
    rw [State.txSize, State.fld_congr s _ _ ((reg_rimTake (by decide) (by decide) (by decide) _ u).trans hcfg), State.txSize]
  refine ⟨?_, fun he => ?_, fun he => ?_⟩
  · rw [hreg _ (by decide), reg_rimTake (by decide) (by decide) (by decide), hwr]
  · rw [State.fld_congr _ t _ (hreg _ (by decide)), State.fld_congr _ t _ (hreg _ (by decide)), ← hsize]
    refine rimTake_all _ u (hen.trans he) ?_
    have := u.txRd_lt
    have := u.txWr_lt
    have := u.txSize_le
    unfold ringDist
    split <;> omega
  · rw [hreg _ (by decide), rimTake_off _ u (hen.trans he), hrd]

/-- Settles O52: the request by whether its port sends, the replies by the ports they go to, the trace's end by its time, the ring by the records left in it. -/
theorem rimeTracing : Obligations.RimeTracing := by
  unfold Obligations.RimeTracing
  intro s h
  exact ⟨fun v u ht hu hs => ⟨traceReq_queues h ht hu hs, traceReq_drops h ht hu hs⟩, traceReplyDue_replies h, fun t0 => traceDone_ends h,
    fun hn => completes_still rfl h (s.cleared.rimTraceDone_still hn), fun v ht => rimeRingSubmit_takes h ht⟩

end Sys2Proof.Machine
end
